-- ==== Sys2Proof/Word.lean ====
section
/-! DEFINITION. Word.lean: the fixed-width words of the device (R9, R10). -/

namespace Sys2Proof

/-- One byte of memory or of a record (R9: multi-byte fields are little-endian). -/
abbrev Byte := BitVec 8

/-- A register (R10: registers are 32 bits wide). -/
abbrev Word := BitVec 32

/-- A 64-bit quantity held in two consecutive registers (R10). -/
abbrev DWord := BitVec 64

/-- A BF16 value: the upper 16 bits of IEEE 754 binary32 (R73). -/
abbrev Bf16 := BitVec 16

/-- An IEEE 754 binary32 value. -/
abbrev F32 := BitVec 32

/-- An FP8E4M3 value (R73). -/
abbrev Fp8 := BitVec 8

end Sys2Proof
end

