-- ==== Sys2Proof/Machine/RegTable.lean ====
section
/-! DEFINITION. Machine/RegTable.lean: the register map of chapters 2 to 18, one row for each register with its fields,
their access types (Table 0.4) and reset values, and the addresses and error and event bits by name. A reset value that
the manual calls fuse, constant or image is given by the read of the register and stands here as 0. -/

namespace Sys2Proof.Machine

/-- The access types of Table 0.4 (R11). -/
inductive Access where
  | rw | ro | w1c | w1s | wo | rwl
  deriving DecidableEq, Repr

/-- A field `[hi:lo]` of a register. -/
structure FieldSpec where
  hi : Nat
  lo : Nat
  acc : Access
  reset : Nat := 0
  deriving DecidableEq, Repr

/-- A register, or `n` registers `stride` bytes apart, on a page of a block (R29). `wide` marks the low word of a 64-bit
register (R28). `dev` marks a device-wide register: instance 0 holds it, and the other instances read it and ignore
writes. -/
structure RegSpec where
  block : Nat
  page : Nat
  off : Nat
  n : Nat := 1
  stride : Nat := 4
  wide : Bool := false
  dev : Bool := false
  fields : List FieldSpec
  deriving DecidableEq, Repr

/-- Registers of `GLB`. -/
def regsGlb : List RegSpec := [
  { block := 0x1, page := 0, off := 0x40, fields := [⟨31, 16, .ro, 0x7840⟩, ⟨15, 12, .ro, 0⟩, ⟨11, 8, .ro, 0⟩] },
  { block := 0x1, page := 0, off := 0x44, fields := [⟨15, 12, .ro, 0⟩, ⟨11, 8, .ro, 0⟩, ⟨1, 1, .ro, 0⟩, ⟨0, 0, .ro, 0⟩] },
  { block := 0x1, page := 0, off := 0x48, wide := true, fields := [⟨31, 0, .ro, 0⟩] },
  { block := 0x1, page := 0, off := 0x4c, fields := [⟨31, 0, .ro, 0⟩] },
  { block := 0x1, page := 0, off := 0x50, fields := [⟨31, 0, .ro, 0⟩] },
  { block := 0x1, page := 0, off := 0x54, fields := [⟨31, 24, .ro, 0⟩, ⟨23, 16, .ro, 0⟩, ⟨15, 2, .ro, 0⟩, ⟨1, 1, .ro, 0⟩, ⟨0, 0, .ro, 0⟩] },
  { block := 0x1, page := 0, off := 0x58, fields := [⟨31, 31, .ro, 0⟩, ⟨11, 8, .rwl, 9⟩, ⟨7, 7, .rwl, 0⟩, ⟨3, 2, .rwl, 0⟩, ⟨0, 0, .rwl, 0⟩] },
  { block := 0x1, page := 0, off := 0x5c, fields := [⟨31, 31, .wo, 0⟩, ⟨30, 30, .wo, 0⟩, ⟨29, 29, .wo, 0⟩, ⟨15, 0, .wo, 0⟩] },
  { block := 0x1, page := 0, off := 0x60, fields := [⟨25, 0, .ro, 0⟩] },
  { block := 0x1, page := 0, off := 0x64, fields := [⟨31, 31, .w1c, 0⟩, ⟨23, 20, .ro, 0⟩, ⟨7, 0, .ro, 0⟩] },
  { block := 0x1, page := 0, off := 0x70, n := 4, stride := 4, fields := [⟨31, 0, .rw, 0⟩] },
  { block := 0x1, page := 1, off := 0x40, fields := [⟨31, 16, .ro, 0⟩, ⟨15, 8, .ro, 0⟩] },
  { block := 0x1, page := 1, off := 0x44, fields := [⟨31, 24, .ro, 0⟩, ⟨15, 0, .ro, 0⟩] },
  { block := 0x1, page := 1, off := 0x48, fields := [⟨31, 0, .ro, 0⟩] },
  { block := 0x1, page := 1, off := 0x4c, fields := [⟨23, 16, .ro, 0⟩, ⟨11, 8, .ro, 4⟩, ⟨4, 0, .ro, 0x10⟩] },
  { block := 0x1, page := 1, off := 0x50, fields := [⟨31, 24, .ro, 0xc⟩, ⟨23, 16, .ro, 0x18⟩, ⟨15, 8, .ro, 0x1c⟩, ⟨7, 0, .ro, 0x40⟩] },
  { block := 0x1, page := 1, off := 0x54, fields := [⟨7, 7, .ro, 1⟩, ⟨6, 6, .ro, 1⟩, ⟨5, 5, .ro, 0⟩, ⟨4, 4, .ro, 0⟩, ⟨3, 3, .ro, 0⟩, ⟨2, 2, .ro, 1⟩, ⟨1, 1, .ro, 0⟩, ⟨0, 0, .ro, 0⟩] },
  { block := 0x1, page := 2, off := 0x40, fields := [⟨31, 31, .rwl, 0⟩, ⟨23, 16, .rw, 0x3c⟩, ⟨15, 8, .rw, 0x18⟩] },
  { block := 0x1, page := 2, off := 0x44, fields := [⟨31, 31, .ro, 0⟩, ⟨30, 30, .ro, 0⟩, ⟨29, 29, .ro, 0⟩, ⟨28, 28, .ro, 0⟩, ⟨27, 26, .ro, 0⟩, ⟨8, 0, .ro, 0⟩] },
  { block := 0x1, page := 2, off := 0x48, wide := true, fields := [⟨31, 0, .ro, 0⟩] },
  { block := 0x1, page := 2, off := 0x4c, fields := [⟨31, 0, .ro, 0⟩] },
  { block := 0x1, page := 2, off := 0x50, wide := true, fields := [⟨31, 0, .ro, 0⟩] },
  { block := 0x1, page := 2, off := 0x54, fields := [⟨31, 0, .ro, 0⟩] },
  { block := 0x1, page := 2, off := 0x58, wide := true, fields := [⟨31, 0, .ro, 0⟩] },
  { block := 0x1, page := 2, off := 0x5c, fields := [⟨31, 0, .ro, 0⟩] },
  { block := 0x1, page := 2, off := 0x60, wide := true, fields := [⟨31, 0, .ro, 0⟩] },
  { block := 0x1, page := 2, off := 0x64, fields := [⟨31, 0, .ro, 0⟩] },
  { block := 0x1, page := 2, off := 0x68, fields := [⟨31, 0, .ro, 0⟩] },
  { block := 0x1, page := 2, off := 0x6c, fields := [⟨31, 0, .ro, 0⟩] },
  { block := 0x1, page := 2, off := 0x80, n := 8, stride := 4, fields := [⟨31, 0, .ro, 0⟩] }
] ++ [
  { block := 0x1, page := 3, off := 0x40, fields := [⟨31, 28, .ro, 0⟩, ⟨27, 27, .ro, 0⟩, ⟨26, 26, .ro, 0⟩, ⟨25, 25, .ro, 0⟩, ⟨24, 24, .ro, 0⟩] },
  { block := 0x1, page := 3, off := 0x44, fields := [⟨31, 31, .wo, 0⟩, ⟨30, 30, .wo, 0⟩, ⟨29, 28, .ro, 0⟩, ⟨21, 2, .rw, 0⟩] },
  { block := 0x1, page := 3, off := 0x48, fields := [⟨31, 0, .ro, 0⟩] },
  { block := 0x1, page := 3, off := 0x4c, fields := [⟨31, 0, .wo, 0⟩] },
  { block := 0x1, page := 3, off := 0x50, fields := [⟨31, 0, .ro, 0⟩] },
  { block := 0x1, page := 3, off := 0x60, n := 12, stride := 4, fields := [⟨31, 0, .ro, 0⟩] },
  { block := 0x1, page := 3, off := 0x90, fields := [⟨31, 31, .wo, 0⟩] },
  { block := 0x1, page := 3, off := 0x94, fields := [⟨31, 0, .ro, 0⟩] }
]

/-- Registers of `CLK`. -/
def regsClk : List RegSpec := [
  { block := 0x2, page := 0, off := 0x40, fields := [⟨31, 27, .ro, 0⟩] },
  { block := 0x2, page := 0, off := 0x44, fields := [⟨31, 31, .ro, 0⟩, ⟨11, 8, .ro, 0xa⟩, ⟨3, 0, .rw, 0xa⟩] },
  { block := 0x2, page := 0, off := 0x48, fields := [⟨31, 31, .ro, 0⟩, ⟨11, 8, .ro, 0xa⟩, ⟨3, 0, .rw, 0xa⟩] },
  { block := 0x2, page := 0, off := 0x50, wide := true, fields := [⟨31, 0, .ro, 0⟩] },
  { block := 0x2, page := 0, off := 0x54, fields := [⟨31, 0, .ro, 0⟩] },
  { block := 0x2, page := 0, off := 0x58, wide := true, fields := [⟨31, 0, .rw, 0⟩] },
  { block := 0x2, page := 0, off := 0x5c, fields := [⟨31, 0, .rw, 0⟩] },
  { block := 0x2, page := 0, off := 0x60, fields := [⟨31, 31, .rw, 0⟩, ⟨9, 8, .rw, 3⟩, ⟨6, 0, .rw, 0⟩] },
  { block := 0x2, page := 0, off := 0x64, fields := [⟨31, 31, .ro, 0⟩, ⟨30, 30, .ro, 0⟩, ⟨29, 29, .ro, 0⟩, ⟨15, 0, .ro, 0⟩] },
  { block := 0x2, page := 0, off := 0x68, wide := true, fields := [⟨31, 0, .ro, 0⟩] },
  { block := 0x2, page := 0, off := 0x6c, fields := [⟨31, 0, .ro, 0⟩] },
  { block := 0x2, page := 0, off := 0x70, fields := [⟨31, 0, .ro, 0⟩] }
]

/-- Registers of `PWR`. -/
def regsPwr : List RegSpec := [
  { block := 0x3, page := 0, off := 0x40, fields := [⟨23, 16, .rw, 0x14⟩, ⟨9, 0, .rw, 0⟩] },
  { block := 0x3, page := 0, off := 0x44, fields := [⟨26, 16, .rw, 0xfa⟩, ⟨1, 0, .rwl, 0⟩] },
  { block := 0x3, page := 0, off := 0x48, wide := true, fields := [⟨31, 0, .ro, 0⟩] },
  { block := 0x3, page := 0, off := 0x4c, fields := [⟨15, 0, .ro, 0⟩] },
  { block := 0x3, page := 0, off := 0x50, fields := [⟨31, 0, .ro, 0⟩] },
  { block := 0x3, page := 0, off := 0x54, fields := [⟨15, 8, .rw, 0x5f⟩, ⟨7, 0, .rw, 0x64⟩] },
  { block := 0x3, page := 0, off := 0x58, fields := [⟨31, 24, .ro, 0⟩, ⟨21, 16, .ro, 0⟩, ⟨8, 0, .ro, 0⟩] },
  { block := 0x3, page := 0, off := 0x5c, fields := [⟨31, 31, .rw, 0⟩, ⟨11, 8, .rw, 0xb⟩, ⟨3, 0, .rw, 6⟩] },
  { block := 0x3, page := 0, off := 0x60, fields := [⟨31, 28, .rw, 4⟩, ⟨27, 21, .rw, 0x4b⟩, ⟨15, 8, .rw, 0xa⟩, ⟨7, 0, .rw, 0x20⟩] },
  { block := 0x3, page := 0, off := 0x64, fields := [⟨23, 16, .rw, 0x14⟩, ⟨15, 8, .rw, 0xa⟩, ⟨7, 0, .rw, 0⟩] },
  { block := 0x3, page := 0, off := 0x68, fields := [⟨31, 0, .ro, 0⟩] },
  { block := 0x3, page := 0, off := 0x6c, fields := [⟨2, 2, .ro, 0⟩, ⟨1, 0, .ro, 0⟩] },
  { block := 0x3, page := 0, off := 0x70, fields := [⟨31, 16, .rw, 0xbb⟩, ⟨15, 0, .rw, 0x33⟩] },
  { block := 0x3, page := 0, off := 0x74, fields := [⟨31, 16, .rw, 0x80⟩, ⟨15, 0, .rw, 0x140⟩] },
  { block := 0x3, page := 0, off := 0x78, fields := [⟨31, 24, .rw, 4⟩, ⟨23, 16, .rw, 0x28⟩, ⟨15, 8, .rw, 0x14⟩, ⟨7, 0, .rw, 8⟩] },
  { block := 0x3, page := 1, off := 0x40, fields := [⟨11, 0, .rw, 0⟩] },
  { block := 0x3, page := 1, off := 0x44, fields := [⟨23, 0, .rw, 0⟩] },
  { block := 0x3, page := 1, off := 0x48, fields := [⟨31, 24, .rw, 1⟩, ⟨23, 0, .rw, 0⟩] },
  { block := 0x3, page := 1, off := 0x4c, fields := [⟨31, 0, .ro, 0⟩] },
  { block := 0x3, page := 1, off := 0x50, fields := [⟨31, 0, .ro, 0⟩] },
  { block := 0x3, page := 1, off := 0x60, fields := [⟨31, 31, .wo, 0⟩, ⟨4, 0, .wo, 0⟩] },
  { block := 0x3, page := 1, off := 0x64, wide := true, fields := [⟨31, 0, .ro, 0⟩] },
  { block := 0x3, page := 1, off := 0x68, fields := [⟨13, 0, .ro, 0⟩] },
  { block := 0x3, page := 1, off := 0x70, fields := [⟨31, 31, .w1s, 0⟩, ⟨30, 30, .w1s, 0⟩, ⟨29, 28, .ro, 0⟩, ⟨25, 24, .ro, 0⟩, ⟨2, 0, .ro, 0⟩] },
  { block := 0x3, page := 1, off := 0x74, fields := [⟨4, 0, .rw, 0x1f⟩] },
  { block := 0x3, page := 2, off := 0x40, wide := true, fields := [⟨31, 0, .ro, 0⟩] },
  { block := 0x3, page := 2, off := 0x44, fields := [⟨31, 0, .ro, 0⟩] },
  { block := 0x3, page := 2, off := 0x48, wide := true, fields := [⟨31, 0, .ro, 0⟩] },
  { block := 0x3, page := 2, off := 0x4c, fields := [⟨31, 0, .ro, 0⟩] },
  { block := 0x3, page := 2, off := 0x50, wide := true, fields := [⟨31, 0, .ro, 0⟩] }
] ++ [
  { block := 0x3, page := 2, off := 0x54, fields := [⟨31, 0, .ro, 0⟩] },
  { block := 0x3, page := 2, off := 0x58, wide := true, fields := [⟨31, 0, .ro, 0⟩] },
  { block := 0x3, page := 2, off := 0x5c, fields := [⟨31, 0, .ro, 0⟩] },
  { block := 0x3, page := 2, off := 0x60, wide := true, fields := [⟨31, 0, .ro, 0⟩] },
  { block := 0x3, page := 2, off := 0x64, fields := [⟨31, 0, .ro, 0⟩] },
  { block := 0x3, page := 2, off := 0x68, wide := true, fields := [⟨31, 0, .ro, 0⟩] },
  { block := 0x3, page := 2, off := 0x6c, fields := [⟨31, 0, .ro, 0⟩] },
  { block := 0x3, page := 2, off := 0x70, wide := true, fields := [⟨31, 0, .ro, 0⟩] },
  { block := 0x3, page := 2, off := 0x74, fields := [⟨31, 0, .ro, 0⟩] },
  { block := 0x3, page := 2, off := 0x78, wide := true, fields := [⟨31, 0, .ro, 0⟩] },
  { block := 0x3, page := 2, off := 0x7c, fields := [⟨31, 0, .ro, 0⟩] },
  { block := 0x3, page := 2, off := 0x80, wide := true, fields := [⟨31, 0, .ro, 0⟩] },
  { block := 0x3, page := 2, off := 0x84, fields := [⟨31, 0, .ro, 0⟩] },
  { block := 0x3, page := 2, off := 0x88, wide := true, fields := [⟨31, 0, .ro, 0⟩] },
  { block := 0x3, page := 2, off := 0x8c, fields := [⟨31, 0, .ro, 0⟩] },
  { block := 0x3, page := 3, off := 0x40, fields := [⟨31, 31, .rw, 0⟩, ⟨30, 30, .wo, 0⟩, ⟨27, 16, .rw, 0⟩, ⟨10, 8, .rw, 0⟩, ⟨7, 0, .rw, 0⟩] },
  { block := 0x3, page := 3, off := 0x80, n := 16, stride := 8, wide := true, fields := [⟨31, 0, .ro, 0⟩] },
  { block := 0x3, page := 3, off := 0x84, n := 16, stride := 8, fields := [⟨31, 0, .ro, 0⟩] }
]

/-- Registers of `EVC`. -/
def regsEvc : List RegSpec := [
  { block := 0x4, page := 0, off := 0x48, fields := [⟨31, 31, .wo, 0⟩, ⟨10, 0, .wo, 0⟩] },
  { block := 0x4, page := 0, off := 0x4c, fields := [⟨9, 0, .wo, 0⟩] },
  { block := 0x4, page := 0, off := 0x50, fields := [⟨31, 31, .rw, 0⟩, ⟨10, 0, .rw, 0⟩] },
  { block := 0x4, page := 0, off := 0x54, fields := [⟨31, 28, .ro, 0⟩, ⟨19, 16, .ro, 0⟩] },
  { block := 0x4, page := 0, off := 0x58, wide := true, fields := [⟨31, 0, .ro, 0⟩] },
  { block := 0x4, page := 0, off := 0x5c, fields := [⟨31, 0, .ro, 0⟩] },
  { block := 0x4, page := 0, off := 0x60, wide := true, fields := [⟨31, 0, .ro, 0⟩] },
  { block := 0x4, page := 0, off := 0x64, fields := [⟨31, 0, .ro, 0⟩] },
  { block := 0x4, page := 0, off := 0x80, n := 16, stride := 4, fields := [⟨31, 0, .ro, 0⟩] },
  { block := 0x4, page := 0, off := 0xc0, n := 16, stride := 4, fields := [⟨31, 0, .w1c, 0⟩] },
  { block := 0x4, page := 0, off := 0x100, n := 32, stride := 4, fields := [⟨31, 31, .rw, 0⟩, ⟨30, 29, .ro, 0⟩, ⟨15, 0, .rw, 0⟩] },
  { block := 0x4, page := 1, off := 0x40, n := 512, stride := 4, fields := [⟨31, 31, .rw, 0⟩, ⟨30, 30, .rw, 0⟩, ⟨19, 16, .rw, 0⟩, ⟨10, 0, .rw, 0⟩] },
  { block := 0x4, page := 2, off := 0x40, n := 512, stride := 4, fields := [⟨31, 31, .rw, 0⟩, ⟨30, 30, .rw, 0⟩, ⟨19, 16, .rw, 0⟩, ⟨10, 0, .rw, 0⟩] }
]

/-- Registers of `LVE`. -/
def regsLve : List RegSpec := [
  { block := 0x5, page := 0, off := 0x40, fields := [⟨31, 30, .ro, 0⟩, ⟨29, 29, .ro, 0⟩, ⟨27, 16, .ro, 0⟩, ⟨12, 0, .ro, 0⟩] },
  { block := 0x5, page := 0, off := 0x44, fields := [⟨31, 28, .ro, 0⟩, ⟨27, 24, .ro, 0⟩, ⟨23, 23, .ro, 0⟩, ⟨22, 22, .ro, 0⟩] },
  { block := 0x5, page := 0, off := 0x48, fields := [⟨11, 0, .rw, 0⟩] },
  { block := 0x5, page := 0, off := 0x4c, fields := [⟨31, 28, .ro, 0⟩, ⟨27, 27, .ro, 0⟩, ⟨26, 26, .ro, 0⟩, ⟨23, 16, .ro, 0⟩] },
  { block := 0x5, page := 0, off := 0x50, fields := [⟨31, 31, .ro, 0⟩, ⟨30, 28, .ro, 0⟩, ⟨27, 26, .ro, 0⟩, ⟨25, 25, .ro, 0⟩, ⟨15, 0, .ro, 0⟩] },
  { block := 0x5, page := 0, off := 0x54, fields := [⟨31, 16, .ro, 0⟩, ⟨15, 8, .ro, 0⟩] },
  { block := 0x5, page := 0, off := 0x58, fields := [⟨31, 31, .rw, 0⟩, ⟨30, 30, .ro, 0⟩, ⟨29, 29, .rw, 0⟩, ⟨28, 28, .ro, 0⟩] },
  { block := 0x5, page := 0, off := 0x60, wide := true, fields := [⟨31, 0, .ro, 0⟩] },
  { block := 0x5, page := 0, off := 0x64, fields := [⟨31, 0, .ro, 0⟩] },
  { block := 0x5, page := 0, off := 0x68, wide := true, fields := [⟨31, 0, .ro, 0⟩] },
  { block := 0x5, page := 0, off := 0x6c, fields := [⟨31, 0, .ro, 0⟩] },
  { block := 0x5, page := 0, off := 0x70, wide := true, fields := [⟨31, 0, .ro, 0⟩] },
  { block := 0x5, page := 0, off := 0x74, fields := [⟨31, 0, .ro, 0⟩] },
  { block := 0x5, page := 0, off := 0x78, wide := true, fields := [⟨31, 0, .ro, 0⟩] },
  { block := 0x5, page := 0, off := 0x7c, fields := [⟨31, 0, .ro, 0⟩] }
]

/-- Registers of `AUD`. -/
def regsAud : List RegSpec := [
  { block := 0x6, page := 0, off := 0x40, fields := [⟨31, 30, .ro, 0⟩, ⟨28, 16, .ro, 0⟩, ⟨8, 0, .ro, 0x100⟩] },
  { block := 0x6, page := 0, off := 0x44, fields := [⟨8, 0, .rw, 0x20⟩] },
  { block := 0x6, page := 0, off := 0x48, wide := true, fields := [⟨31, 0, .ro, 0⟩] },
  { block := 0x6, page := 0, off := 0x4c, fields := [⟨31, 0, .ro, 0⟩] },
  { block := 0x6, page := 0, off := 0x50, wide := true, fields := [⟨31, 0, .ro, 0⟩] },
  { block := 0x6, page := 0, off := 0x54, fields := [⟨31, 0, .ro, 0⟩] },
  { block := 0x6, page := 0, off := 0x58, wide := true, fields := [⟨31, 0, .ro, 0⟩] },
  { block := 0x6, page := 0, off := 0x5c, fields := [⟨31, 0, .ro, 0⟩] },
  { block := 0x6, page := 0, off := 0x60, wide := true, fields := [⟨31, 0, .ro, 0⟩] },
  { block := 0x6, page := 0, off := 0x64, fields := [⟨31, 0, .ro, 0⟩] }
]

/-- Registers of `XLT`. -/
def regsXlt : List RegSpec := [
  { block := 0x7, page := 0, off := 0x40, wide := true, dev := true, fields := [⟨31, 30, .rwl, 0⟩] },
  { block := 0x7, page := 0, off := 0x44, dev := true, fields := [⟨7, 0, .rwl, 0⟩] },
  { block := 0x7, page := 0, off := 0x48, dev := true, fields := [⟨5, 0, .rwl, 8⟩] },
  { block := 0x7, page := 0, off := 0x4c, fields := [⟨7, 0, .rw, 0x40⟩] },
  { block := 0x7, page := 0, off := 0x50, dev := true, fields := [⟨15, 0, .ro, 0⟩] },
  { block := 0x7, page := 0, off := 0x58, wide := true, fields := [⟨31, 0, .ro, 0⟩] },
  { block := 0x7, page := 0, off := 0x5c, fields := [⟨31, 0, .ro, 0⟩] },
  { block := 0x7, page := 0, off := 0x60, wide := true, fields := [⟨31, 0, .ro, 0⟩] },
  { block := 0x7, page := 0, off := 0x64, fields := [⟨31, 0, .ro, 0⟩] },
  { block := 0x7, page := 0, off := 0x68, fields := [⟨31, 0, .rw, 0⟩] },
  { block := 0x7, page := 0, off := 0x6c, dev := true, fields := [⟨31, 0, .ro, 0⟩] },
  { block := 0x7, page := 0, off := 0x70, dev := true, fields := [⟨31, 0, .ro, 0⟩] },
  { block := 0x7, page := 0, off := 0x74, dev := true, fields := [⟨31, 0, .ro, 0⟩] },
  { block := 0x7, page := 0, off := 0x78, wide := true, dev := true, fields := [⟨31, 0, .ro, 0⟩] },
  { block := 0x7, page := 0, off := 0x7c, dev := true, fields := [⟨31, 0, .ro, 0⟩] },
  { block := 0x7, page := 0, off := 0x80, wide := true, fields := [⟨31, 0, .ro, 0⟩] },
  { block := 0x7, page := 0, off := 0x84, fields := [⟨31, 0, .ro, 0⟩] },
  { block := 0x7, page := 1, off := 0x40, dev := true, fields := [⟨1, 0, .rw, 1⟩] },
  { block := 0x7, page := 1, off := 0x44, fields := [⟨31, 31, .ro, 1⟩, ⟨15, 0, .ro, 0⟩] },
  { block := 0x7, page := 1, off := 0x48, fields := [⟨31, 0, .ro, 0⟩] },
  { block := 0x7, page := 1, off := 0x4c, fields := [⟨31, 31, .w1c, 0⟩, ⟨27, 16, .ro, 0⟩, ⟨15, 8, .ro, 0⟩, ⟨7, 0, .ro, 0⟩] },
  { block := 0x7, page := 1, off := 0x50, fields := [⟨28, 24, .ro, 0⟩, ⟨23, 0, .ro, 0⟩] },
  { block := 0x7, page := 1, off := 0x60, wide := true, fields := [⟨31, 0, .ro, 0⟩] },
  { block := 0x7, page := 1, off := 0x64, fields := [⟨31, 0, .ro, 0⟩] },
  { block := 0x7, page := 1, off := 0x68, wide := true, fields := [⟨31, 0, .ro, 0⟩] },
  { block := 0x7, page := 1, off := 0x6c, fields := [⟨31, 0, .ro, 0⟩] },
  { block := 0x7, page := 1, off := 0x70, wide := true, fields := [⟨31, 0, .ro, 0⟩] },
  { block := 0x7, page := 1, off := 0x74, fields := [⟨31, 0, .ro, 0⟩] },
  { block := 0x7, page := 1, off := 0x78, wide := true, fields := [⟨31, 0, .ro, 0⟩] },
  { block := 0x7, page := 1, off := 0x7c, fields := [⟨31, 0, .ro, 0⟩] }
] ++ [
  { block := 0x7, page := 1, off := 0x80, wide := true, fields := [⟨31, 0, .ro, 0⟩] },
  { block := 0x7, page := 1, off := 0x84, fields := [⟨31, 0, .ro, 0⟩] },
  { block := 0x7, page := 1, off := 0x88, wide := true, fields := [⟨31, 0, .ro, 0⟩] },
  { block := 0x7, page := 1, off := 0x8c, fields := [⟨31, 0, .ro, 0⟩] },
  { block := 0x7, page := 1, off := 0x90, wide := true, fields := [⟨31, 0, .ro, 0⟩] },
  { block := 0x7, page := 1, off := 0x94, fields := [⟨31, 0, .ro, 0⟩] },
  { block := 0x7, page := 1, off := 0x98, wide := true, fields := [⟨31, 0, .ro, 0⟩] },
  { block := 0x7, page := 1, off := 0x9c, fields := [⟨31, 0, .ro, 0⟩] },
  { block := 0x7, page := 1, off := 0xa0, wide := true, fields := [⟨31, 0, .ro, 0⟩] },
  { block := 0x7, page := 1, off := 0xa4, fields := [⟨31, 0, .ro, 0⟩] },
  { block := 0x7, page := 1, off := 0xa8, wide := true, fields := [⟨31, 0, .ro, 0⟩] },
  { block := 0x7, page := 1, off := 0xac, fields := [⟨31, 0, .ro, 0⟩] }
]

/-- Registers of `SLC`. -/
def regsSlc : List RegSpec := [
  { block := 0x8, page := 0, off := 0x40, fields := [⟨31, 16, .rw, 0x1f40⟩, ⟨6, 0, .rw, 0x40⟩] },
  { block := 0x8, page := 0, off := 0x44, fields := [⟨5, 0, .rwl, 0x30⟩] },
  { block := 0x8, page := 0, off := 0x48, fields := [⟨31, 25, .ro, 0⟩, ⟨24, 16, .ro, 0⟩, ⟨15, 0, .ro, 0xc000⟩] },
  { block := 0x8, page := 0, off := 0x4c, fields := [⟨11, 0, .rw, 0⟩] },
  { block := 0x8, page := 0, off := 0x50, fields := [⟨15, 0, .rw, 0⟩] },
  { block := 0x8, page := 0, off := 0x54, fields := [⟨18, 0, .ro, 0⟩] },
  { block := 0x8, page := 0, off := 0x58, fields := [⟨31, 16, .ro, 0⟩, ⟨15, 0, .ro, 0⟩] },
  { block := 0x8, page := 0, off := 0x60, n := 4, stride := 4, fields := [⟨31, 0, .ro, 0⟩] },
  { block := 0x8, page := 0, off := 0x70, n := 4, stride := 4, fields := [⟨31, 0, .ro, 0⟩] },
  { block := 0x8, page := 1, off := 0x40, wide := true, fields := [⟨31, 0, .ro, 0⟩] },
  { block := 0x8, page := 1, off := 0x44, fields := [⟨31, 0, .ro, 0⟩] },
  { block := 0x8, page := 1, off := 0x48, wide := true, fields := [⟨31, 0, .ro, 0⟩] },
  { block := 0x8, page := 1, off := 0x4c, fields := [⟨31, 0, .ro, 0⟩] },
  { block := 0x8, page := 1, off := 0x50, wide := true, fields := [⟨31, 0, .ro, 0⟩] },
  { block := 0x8, page := 1, off := 0x54, fields := [⟨31, 0, .ro, 0⟩] },
  { block := 0x8, page := 1, off := 0x58, wide := true, fields := [⟨31, 0, .ro, 0⟩] },
  { block := 0x8, page := 1, off := 0x5c, fields := [⟨31, 0, .ro, 0⟩] },
  { block := 0x8, page := 1, off := 0x60, wide := true, fields := [⟨31, 0, .ro, 0⟩] },
  { block := 0x8, page := 1, off := 0x64, fields := [⟨31, 0, .ro, 0⟩] },
  { block := 0x8, page := 1, off := 0x68, wide := true, fields := [⟨31, 0, .ro, 0⟩] },
  { block := 0x8, page := 1, off := 0x6c, fields := [⟨31, 0, .ro, 0⟩] },
  { block := 0x8, page := 1, off := 0x70, wide := true, fields := [⟨31, 0, .ro, 0⟩] },
  { block := 0x8, page := 1, off := 0x74, fields := [⟨31, 0, .ro, 0⟩] },
  { block := 0x8, page := 1, off := 0x78, wide := true, fields := [⟨31, 0, .ro, 0⟩] },
  { block := 0x8, page := 1, off := 0x7c, fields := [⟨31, 0, .ro, 0⟩] },
  { block := 0x8, page := 1, off := 0x80, wide := true, fields := [⟨31, 0, .ro, 0⟩] },
  { block := 0x8, page := 1, off := 0x84, fields := [⟨31, 0, .ro, 0⟩] },
  { block := 0x8, page := 1, off := 0x88, wide := true, fields := [⟨31, 0, .ro, 0⟩] },
  { block := 0x8, page := 1, off := 0x8c, fields := [⟨31, 0, .ro, 0⟩] },
  { block := 0x8, page := 1, off := 0x90, wide := true, fields := [⟨31, 0, .ro, 0⟩] }
] ++ [
  { block := 0x8, page := 1, off := 0x94, fields := [⟨31, 0, .ro, 0⟩] },
  { block := 0x8, page := 1, off := 0xc0, wide := true, fields := [⟨31, 0, .ro, 0⟩] },
  { block := 0x8, page := 1, off := 0xc4, fields := [⟨31, 0, .ro, 0⟩] },
  { block := 0x8, page := 1, off := 0xc8, wide := true, fields := [⟨31, 0, .ro, 0⟩] },
  { block := 0x8, page := 1, off := 0xcc, fields := [⟨31, 0, .ro, 0⟩] },
  { block := 0x8, page := 1, off := 0xd0, wide := true, fields := [⟨31, 0, .ro, 0⟩] },
  { block := 0x8, page := 1, off := 0xd4, fields := [⟨31, 0, .ro, 0⟩] },
  { block := 0x8, page := 1, off := 0xd8, wide := true, fields := [⟨31, 0, .ro, 0⟩] },
  { block := 0x8, page := 1, off := 0xdc, fields := [⟨31, 0, .ro, 0⟩] },
  { block := 0x8, page := 1, off := 0xe0, wide := true, fields := [⟨31, 0, .ro, 0⟩] },
  { block := 0x8, page := 1, off := 0xe4, fields := [⟨31, 0, .ro, 0⟩] },
  { block := 0x8, page := 1, off := 0xe8, wide := true, fields := [⟨31, 0, .ro, 0⟩] },
  { block := 0x8, page := 1, off := 0xec, fields := [⟨31, 0, .ro, 0⟩] },
  { block := 0x8, page := 1, off := 0xf0, wide := true, fields := [⟨31, 0, .ro, 0⟩] },
  { block := 0x8, page := 1, off := 0xf4, fields := [⟨31, 0, .ro, 0⟩] },
  { block := 0x8, page := 1, off := 0xf8, wide := true, fields := [⟨31, 0, .ro, 0⟩] },
  { block := 0x8, page := 1, off := 0xfc, fields := [⟨31, 0, .ro, 0⟩] },
  { block := 0x8, page := 1, off := 0x100, wide := true, fields := [⟨31, 0, .ro, 0⟩] },
  { block := 0x8, page := 1, off := 0x104, fields := [⟨31, 0, .ro, 0⟩] },
  { block := 0x8, page := 1, off := 0x108, wide := true, fields := [⟨31, 0, .ro, 0⟩] },
  { block := 0x8, page := 1, off := 0x10c, fields := [⟨31, 0, .ro, 0⟩] },
  { block := 0x8, page := 1, off := 0x110, wide := true, fields := [⟨31, 0, .ro, 0⟩] },
  { block := 0x8, page := 1, off := 0x114, fields := [⟨31, 0, .ro, 0⟩] },
  { block := 0x8, page := 1, off := 0x118, wide := true, fields := [⟨31, 0, .ro, 0⟩] },
  { block := 0x8, page := 1, off := 0x11c, fields := [⟨31, 0, .ro, 0⟩] },
  { block := 0x8, page := 1, off := 0x120, wide := true, fields := [⟨31, 0, .ro, 0⟩] },
  { block := 0x8, page := 1, off := 0x124, fields := [⟨31, 0, .ro, 0⟩] }
]

/-- Registers of `RBD`. -/
def regsRbd : List RegSpec := [
  { block := 0x9, page := 0, off := 0x40, wide := true, fields := [⟨31, 30, .rwl, 0⟩] },
  { block := 0x9, page := 0, off := 0x44, fields := [⟨7, 0, .rwl, 0⟩] },
  { block := 0x9, page := 0, off := 0x48, fields := [⟨31, 31, .rw, 0⟩, ⟨7, 4, .rw, 1⟩, ⟨3, 0, .rw, 2⟩] },
  { block := 0x9, page := 0, off := 0x4c, fields := [⟨31, 24, .ro, 0⟩, ⟨23, 21, .ro, 0⟩, ⟨20, 20, .ro, 0⟩, ⟨19, 19, .ro, 0⟩, ⟨10, 0, .ro, 0⟩] },
  { block := 0x9, page := 0, off := 0x50, fields := [⟨28, 0, .ro, 0⟩] },
  { block := 0x9, page := 0, off := 0x54, fields := [⟨11, 0, .rw, 0⟩] },
  { block := 0x9, page := 0, off := 0x58, fields := [⟨28, 0, .rw, 0⟩] },
  { block := 0x9, page := 0, off := 0x5c, fields := [⟨14, 0, .rw, 0⟩] },
  { block := 0x9, page := 0, off := 0x60, fields := [⟨31, 30, .ro, 0⟩, ⟨29, 29, .ro, 0⟩, ⟨28, 0, .ro, 0⟩] },
  { block := 0x9, page := 0, off := 0x64, fields := [⟨31, 0, .ro, 0⟩] },
  { block := 0x9, page := 1, off := 0x40, wide := true, fields := [⟨31, 0, .ro, 0⟩] },
  { block := 0x9, page := 1, off := 0x44, fields := [⟨31, 0, .ro, 0⟩] },
  { block := 0x9, page := 1, off := 0x48, wide := true, fields := [⟨31, 0, .ro, 0⟩] },
  { block := 0x9, page := 1, off := 0x4c, fields := [⟨31, 0, .ro, 0⟩] },
  { block := 0x9, page := 1, off := 0x50, wide := true, fields := [⟨31, 0, .ro, 0⟩] },
  { block := 0x9, page := 1, off := 0x54, fields := [⟨31, 0, .ro, 0⟩] },
  { block := 0x9, page := 1, off := 0x58, wide := true, fields := [⟨31, 0, .ro, 0⟩] },
  { block := 0x9, page := 1, off := 0x5c, fields := [⟨31, 0, .ro, 0⟩] },
  { block := 0x9, page := 1, off := 0x60, wide := true, fields := [⟨31, 0, .ro, 0⟩] },
  { block := 0x9, page := 1, off := 0x64, fields := [⟨31, 0, .ro, 0⟩] },
  { block := 0x9, page := 1, off := 0x68, wide := true, fields := [⟨31, 0, .ro, 0⟩] },
  { block := 0x9, page := 1, off := 0x6c, fields := [⟨31, 0, .ro, 0⟩] },
  { block := 0x9, page := 1, off := 0x70, wide := true, fields := [⟨31, 0, .ro, 0⟩] },
  { block := 0x9, page := 1, off := 0x74, fields := [⟨31, 0, .ro, 0⟩] },
  { block := 0x9, page := 1, off := 0x78, wide := true, fields := [⟨31, 0, .ro, 0⟩] },
  { block := 0x9, page := 1, off := 0x7c, fields := [⟨31, 0, .ro, 0⟩] },
  { block := 0x9, page := 1, off := 0x80, wide := true, fields := [⟨31, 0, .ro, 0⟩] },
  { block := 0x9, page := 1, off := 0x84, fields := [⟨31, 0, .ro, 0⟩] },
  { block := 0x9, page := 1, off := 0x88, wide := true, fields := [⟨31, 0, .ro, 0⟩] },
  { block := 0x9, page := 1, off := 0x8c, fields := [⟨31, 0, .ro, 0⟩] }
] ++ [
  { block := 0x9, page := 1, off := 0x90, wide := true, fields := [⟨31, 0, .ro, 0⟩] },
  { block := 0x9, page := 1, off := 0x94, fields := [⟨31, 0, .ro, 0⟩] },
  { block := 0x9, page := 1, off := 0x98, wide := true, fields := [⟨31, 0, .ro, 0⟩] },
  { block := 0x9, page := 1, off := 0x9c, fields := [⟨31, 0, .ro, 0⟩] },
  { block := 0x9, page := 1, off := 0xa0, wide := true, fields := [⟨31, 0, .ro, 0⟩] },
  { block := 0x9, page := 1, off := 0xa4, fields := [⟨31, 0, .ro, 0⟩] },
  { block := 0x9, page := 1, off := 0xa8, wide := true, fields := [⟨31, 0, .ro, 0⟩] },
  { block := 0x9, page := 1, off := 0xac, fields := [⟨31, 0, .ro, 0⟩] },
  { block := 0x9, page := 1, off := 0xb0, wide := true, fields := [⟨31, 0, .ro, 0⟩] },
  { block := 0x9, page := 1, off := 0xb4, fields := [⟨31, 0, .ro, 0⟩] },
  { block := 0x9, page := 1, off := 0xb8, wide := true, fields := [⟨31, 0, .ro, 0⟩] },
  { block := 0x9, page := 1, off := 0xbc, fields := [⟨31, 0, .ro, 0⟩] }
]

/-- Registers of `SDG`. -/
def regsSdg : List RegSpec := [
  { block := 0xa, page := 0, off := 0x40, fields := [⟨31, 31, .rw, 1⟩, ⟨15, 8, .rw, 0x32⟩, ⟨7, 0, .rw, 0x4b⟩] },
  { block := 0xa, page := 0, off := 0x44, fields := [⟨31, 16, .ro, 0⟩, ⟨15, 0, .ro, 0x4000⟩] },
  { block := 0xa, page := 0, off := 0x48, fields := [⟨11, 0, .rw, 0⟩] },
  { block := 0xa, page := 0, off := 0x4c, fields := [⟨1, 1, .ro, 0⟩, ⟨0, 0, .rw, 1⟩] },
  { block := 0xa, page := 1, off := 0x40, wide := true, fields := [⟨31, 0, .ro, 0⟩] },
  { block := 0xa, page := 1, off := 0x44, fields := [⟨31, 0, .ro, 0⟩] },
  { block := 0xa, page := 1, off := 0x48, wide := true, fields := [⟨31, 0, .ro, 0⟩] },
  { block := 0xa, page := 1, off := 0x4c, fields := [⟨31, 0, .ro, 0⟩] },
  { block := 0xa, page := 1, off := 0x50, wide := true, fields := [⟨31, 0, .ro, 0⟩] },
  { block := 0xa, page := 1, off := 0x54, fields := [⟨31, 0, .ro, 0⟩] },
  { block := 0xa, page := 1, off := 0x58, wide := true, fields := [⟨31, 0, .ro, 0⟩] },
  { block := 0xa, page := 1, off := 0x5c, fields := [⟨31, 0, .ro, 0⟩] },
  { block := 0xa, page := 1, off := 0x60, wide := true, fields := [⟨31, 0, .ro, 0⟩] },
  { block := 0xa, page := 1, off := 0x64, fields := [⟨31, 0, .ro, 0⟩] },
  { block := 0xa, page := 1, off := 0x68, wide := true, fields := [⟨31, 0, .ro, 0⟩] },
  { block := 0xa, page := 1, off := 0x6c, fields := [⟨31, 0, .ro, 0⟩] },
  { block := 0xa, page := 1, off := 0x70, wide := true, fields := [⟨31, 0, .ro, 0⟩] },
  { block := 0xa, page := 1, off := 0x74, fields := [⟨31, 0, .ro, 0⟩] },
  { block := 0xa, page := 1, off := 0x78, wide := true, fields := [⟨31, 0, .ro, 0⟩] },
  { block := 0xa, page := 1, off := 0x7c, fields := [⟨31, 0, .ro, 0⟩] }
]

/-- Registers of `PEA`. -/
def regsPea : List RegSpec := [
  { block := 0xb, page := 0, off := 0x40, fields := [⟨31, 16, .rw, 0x1f4⟩, ⟨15, 12, .rw, 7⟩, ⟨11, 11, .rw, 1⟩] },
  { block := 0xb, page := 0, off := 0x44, fields := [⟨31, 24, .rwl, 0x14⟩, ⟨15, 0, .rwl, 0xc0⟩] },
  { block := 0xb, page := 0, off := 0x48, fields := [⟨31, 31, .wo, 0⟩, ⟨30, 30, .wo, 0⟩] },
  { block := 0xb, page := 0, off := 0x4c, fields := [⟨31, 28, .ro, 1⟩, ⟨27, 27, .ro, 0⟩, ⟨23, 16, .ro, 0⟩, ⟨15, 8, .ro, 0⟩] },
  { block := 0xb, page := 0, off := 0x50, fields := [⟨31, 16, .rw, 0x7d0⟩, ⟨15, 8, .rw, 8⟩] },
  { block := 0xb, page := 0, off := 0x54, fields := [⟨31, 16, .rw, 0xc8⟩, ⟨15, 0, .rw, 0x10⟩] },
  { block := 0xb, page := 0, off := 0x58, fields := [⟨31, 24, .rw, 0x14⟩, ⟨23, 16, .rw, 5⟩] },
  { block := 0xb, page := 0, off := 0x5c, fields := [⟨31, 24, .rw, 0x19⟩, ⟨23, 8, .rw, 0x3e8⟩, ⟨7, 0, .rw, 7⟩] },
  { block := 0xb, page := 0, off := 0x60, fields := [⟨7, 0, .ro, 0⟩] },
  { block := 0xb, page := 0, off := 0x64, fields := [⟨31, 0, .rw, 0xffffffff⟩] },
  { block := 0xb, page := 0, off := 0x68, fields := [⟨31, 0, .ro, 0⟩] },
  { block := 0xb, page := 0, off := 0x6c, fields := [⟨31, 0, .ro, 0⟩] },
  { block := 0xb, page := 0, off := 0x70, fields := [⟨31, 0, .ro, 0⟩] },
  { block := 0xb, page := 0, off := 0x74, fields := [⟨31, 0, .ro, 0⟩] },
  { block := 0xb, page := 0, off := 0x78, fields := [⟨31, 0, .ro, 0⟩] },
  { block := 0xb, page := 1, off := 0x40, wide := true, fields := [⟨31, 0, .ro, 0⟩] },
  { block := 0xb, page := 1, off := 0x44, fields := [⟨31, 0, .ro, 0⟩] },
  { block := 0xb, page := 1, off := 0x48, wide := true, fields := [⟨31, 0, .ro, 0⟩] },
  { block := 0xb, page := 1, off := 0x4c, fields := [⟨31, 0, .ro, 0⟩] },
  { block := 0xb, page := 1, off := 0x50, wide := true, fields := [⟨31, 0, .ro, 0⟩] },
  { block := 0xb, page := 1, off := 0x54, fields := [⟨31, 0, .ro, 0⟩] },
  { block := 0xb, page := 1, off := 0x58, wide := true, fields := [⟨31, 0, .ro, 0⟩] },
  { block := 0xb, page := 1, off := 0x5c, fields := [⟨31, 0, .ro, 0⟩] },
  { block := 0xb, page := 1, off := 0x60, wide := true, fields := [⟨31, 0, .ro, 0⟩] },
  { block := 0xb, page := 1, off := 0x64, fields := [⟨31, 0, .ro, 0⟩] },
  { block := 0xb, page := 1, off := 0x68, wide := true, fields := [⟨31, 0, .ro, 0⟩] },
  { block := 0xb, page := 1, off := 0x6c, fields := [⟨31, 0, .ro, 0⟩] },
  { block := 0xb, page := 1, off := 0x70, wide := true, fields := [⟨31, 0, .ro, 0⟩] },
  { block := 0xb, page := 1, off := 0x74, fields := [⟨31, 0, .ro, 0⟩] },
  { block := 0xb, page := 1, off := 0x78, wide := true, fields := [⟨31, 0, .ro, 0⟩] }
] ++ [
  { block := 0xb, page := 1, off := 0x7c, fields := [⟨31, 0, .ro, 0⟩] },
  { block := 0xb, page := 1, off := 0x80, wide := true, fields := [⟨31, 0, .ro, 0⟩] },
  { block := 0xb, page := 1, off := 0x84, fields := [⟨31, 0, .ro, 0⟩] },
  { block := 0xb, page := 1, off := 0x88, wide := true, fields := [⟨31, 0, .ro, 0⟩] },
  { block := 0xb, page := 1, off := 0x8c, fields := [⟨31, 0, .ro, 0⟩] },
  { block := 0xb, page := 1, off := 0x90, wide := true, fields := [⟨31, 0, .ro, 0⟩] },
  { block := 0xb, page := 1, off := 0x94, fields := [⟨31, 0, .ro, 0⟩] },
  { block := 0xb, page := 1, off := 0x98, wide := true, fields := [⟨31, 0, .ro, 0⟩] },
  { block := 0xb, page := 1, off := 0x9c, fields := [⟨31, 0, .ro, 0⟩] },
  { block := 0xb, page := 1, off := 0xa0, wide := true, fields := [⟨31, 0, .ro, 0⟩] },
  { block := 0xb, page := 1, off := 0xa4, fields := [⟨31, 0, .ro, 0⟩] },
  { block := 0xb, page := 1, off := 0xa8, wide := true, fields := [⟨31, 0, .ro, 0⟩] },
  { block := 0xb, page := 1, off := 0xac, fields := [⟨31, 0, .ro, 0⟩] },
  { block := 0xb, page := 1, off := 0xb0, wide := true, fields := [⟨31, 0, .ro, 0⟩] },
  { block := 0xb, page := 1, off := 0xb4, fields := [⟨31, 0, .ro, 0⟩] },
  { block := 0xb, page := 1, off := 0xb8, wide := true, fields := [⟨31, 0, .ro, 0⟩] },
  { block := 0xb, page := 1, off := 0xbc, fields := [⟨31, 0, .ro, 0⟩] },
  { block := 0xb, page := 1, off := 0xc0, wide := true, fields := [⟨31, 0, .ro, 0⟩] },
  { block := 0xb, page := 1, off := 0xc4, fields := [⟨31, 0, .ro, 0⟩] },
  { block := 0xb, page := 1, off := 0xc8, wide := true, fields := [⟨31, 0, .ro, 0⟩] },
  { block := 0xb, page := 1, off := 0xcc, fields := [⟨31, 0, .ro, 0⟩] },
  { block := 0xb, page := 1, off := 0xd0, wide := true, fields := [⟨31, 0, .ro, 0⟩] },
  { block := 0xb, page := 1, off := 0xd4, fields := [⟨31, 0, .ro, 0⟩] }
]

/-- Registers of `ATC`. -/
def regsAtc : List RegSpec := [
  { block := 0x10, page := 0, off := 0x40, dev := true, fields := [⟨31, 31, .rwl, 0⟩, ⟨19, 16, .rwl, 0⟩, ⟨15, 8, .rw, 0x14⟩] },
  { block := 0x10, page := 0, off := 0x44, dev := true, fields := [⟨31, 31, .ro, 0⟩, ⟨30, 30, .ro, 0⟩, ⟨8, 0, .ro, 0⟩] },
  { block := 0x10, page := 0, off := 0x48, dev := true, fields := [⟨6, 0, .rwl, 4⟩] },
  { block := 0x10, page := 0, off := 0x4c, dev := true, fields := [⟨31, 16, .rw, 0⟩, ⟨15, 0, .ro, 0⟩] },
  { block := 0x10, page := 0, off := 0x50, fields := [⟨31, 16, .ro, 0⟩, ⟨15, 8, .ro, 0⟩, ⟨7, 0, .ro, 0⟩] },
  { block := 0x10, page := 1, off := 0x40, wide := true, fields := [⟨31, 0, .ro, 0⟩] },
  { block := 0x10, page := 1, off := 0x44, fields := [⟨31, 0, .ro, 0⟩] },
  { block := 0x10, page := 1, off := 0x48, wide := true, fields := [⟨31, 0, .ro, 0⟩] },
  { block := 0x10, page := 1, off := 0x4c, fields := [⟨31, 0, .ro, 0⟩] },
  { block := 0x10, page := 1, off := 0x50, wide := true, fields := [⟨31, 0, .ro, 0⟩] },
  { block := 0x10, page := 1, off := 0x54, fields := [⟨31, 0, .ro, 0⟩] },
  { block := 0x10, page := 1, off := 0x58, wide := true, fields := [⟨31, 0, .ro, 0⟩] },
  { block := 0x10, page := 1, off := 0x5c, fields := [⟨31, 0, .ro, 0⟩] },
  { block := 0x10, page := 1, off := 0x60, wide := true, fields := [⟨31, 0, .ro, 0⟩] },
  { block := 0x10, page := 1, off := 0x64, fields := [⟨31, 0, .ro, 0⟩] },
  { block := 0x10, page := 1, off := 0x80, wide := true, dev := true, fields := [⟨31, 0, .ro, 0⟩] },
  { block := 0x10, page := 1, off := 0x84, dev := true, fields := [⟨31, 0, .ro, 0⟩] },
  { block := 0x10, page := 1, off := 0x88, wide := true, dev := true, fields := [⟨31, 0, .ro, 0⟩] },
  { block := 0x10, page := 1, off := 0x8c, dev := true, fields := [⟨31, 0, .ro, 0⟩] },
  { block := 0x10, page := 1, off := 0x90, wide := true, dev := true, fields := [⟨31, 0, .ro, 0⟩] },
  { block := 0x10, page := 1, off := 0x94, dev := true, fields := [⟨31, 0, .ro, 0⟩] },
  { block := 0x10, page := 1, off := 0x98, wide := true, dev := true, fields := [⟨31, 0, .ro, 0⟩] },
  { block := 0x10, page := 1, off := 0x9c, dev := true, fields := [⟨31, 0, .ro, 0⟩] },
  { block := 0x10, page := 1, off := 0xa0, wide := true, dev := true, fields := [⟨31, 0, .ro, 0⟩] },
  { block := 0x10, page := 1, off := 0xa4, dev := true, fields := [⟨31, 0, .ro, 0⟩] },
  { block := 0x10, page := 1, off := 0xa8, dev := true, fields := [⟨31, 0, .ro, 0⟩] },
  { block := 0x10, page := 1, off := 0xac, dev := true, fields := [⟨31, 0, .ro, 0⟩] },
  { block := 0x10, page := 1, off := 0xb0, dev := true, fields := [⟨31, 0, .ro, 0⟩] },
  { block := 0x10, page := 2, off := 0x40, n := 16, stride := 4, fields := [⟨31, 28, .ro, 5⟩, ⟨27, 16, .ro, 0⟩, ⟨15, 15, .ro, 0⟩, ⟨14, 14, .ro, 0⟩] }
]

/-- Registers of `CWY`. -/
def regsCwy : List RegSpec := [
  { block := 0x20, page := 0, off := 0x40, dev := true, fields := [⟨31, 31, .rwl, 0⟩, ⟨25, 21, .rwl, 0⟩, ⟨15, 8, .rw, 0x32⟩, ⟨7, 0, .rw, 0xa⟩] },
  { block := 0x20, page := 0, off := 0x44, dev := true, fields := [⟨15, 0, .rw, 0⟩] },
  { block := 0x20, page := 0, off := 0x48, dev := true, fields := [⟨31, 16, .rw, 0x96⟩, ⟨15, 0, .rw, 0x82⟩] },
  { block := 0x20, page := 0, off := 0x50, fields := [⟨31, 31, .rw, 1⟩, ⟨30, 30, .rw, 0⟩, ⟨29, 29, .rwl, 0⟩, ⟨27, 16, .rwl, 0⟩, ⟨15, 8, .rw, 0⟩, ⟨0, 0, .rw, 0⟩] },
  { block := 0x20, page := 0, off := 0x54, fields := [⟨31, 28, .ro, 0⟩, ⟨27, 26, .ro, 0⟩, ⟨25, 22, .ro, 0⟩, ⟨21, 21, .ro, 0⟩, ⟨20, 16, .ro, 0⟩, ⟨2, 0, .ro, 0⟩] },
  { block := 0x20, page := 0, off := 0x58, fields := [⟨31, 16, .rw, 0x3e8⟩, ⟨15, 8, .rw, 0x1e⟩] },
  { block := 0x20, page := 0, off := 0x60, n := 12, stride := 4, fields := [⟨31, 0, .ro, 0⟩] },
  { block := 0x20, page := 1, off := 0x40, wide := true, fields := [⟨31, 0, .ro, 0⟩] },
  { block := 0x20, page := 1, off := 0x44, fields := [⟨31, 0, .ro, 0⟩] },
  { block := 0x20, page := 1, off := 0x48, wide := true, fields := [⟨31, 0, .ro, 0⟩] },
  { block := 0x20, page := 1, off := 0x4c, fields := [⟨31, 0, .ro, 0⟩] },
  { block := 0x20, page := 1, off := 0x50, wide := true, fields := [⟨31, 0, .ro, 0⟩] },
  { block := 0x20, page := 1, off := 0x54, fields := [⟨31, 0, .ro, 0⟩] },
  { block := 0x20, page := 1, off := 0x58, wide := true, fields := [⟨31, 0, .ro, 0⟩] },
  { block := 0x20, page := 1, off := 0x5c, fields := [⟨31, 0, .ro, 0⟩] },
  { block := 0x20, page := 1, off := 0x60, wide := true, fields := [⟨31, 0, .ro, 0⟩] },
  { block := 0x20, page := 1, off := 0x64, fields := [⟨31, 0, .ro, 0⟩] },
  { block := 0x20, page := 1, off := 0x68, wide := true, fields := [⟨31, 0, .ro, 0⟩] },
  { block := 0x20, page := 1, off := 0x6c, fields := [⟨31, 0, .ro, 0⟩] },
  { block := 0x20, page := 1, off := 0x70, wide := true, fields := [⟨31, 0, .ro, 0⟩] },
  { block := 0x20, page := 1, off := 0x74, fields := [⟨31, 0, .ro, 0⟩] },
  { block := 0x20, page := 1, off := 0x78, wide := true, fields := [⟨31, 0, .ro, 0⟩] },
  { block := 0x20, page := 1, off := 0x7c, fields := [⟨31, 0, .ro, 0⟩] },
  { block := 0x20, page := 1, off := 0x80, wide := true, fields := [⟨31, 0, .ro, 0⟩] },
  { block := 0x20, page := 1, off := 0x84, fields := [⟨31, 0, .ro, 0⟩] },
  { block := 0x20, page := 1, off := 0x88, wide := true, fields := [⟨31, 0, .ro, 0⟩] },
  { block := 0x20, page := 1, off := 0x8c, fields := [⟨31, 0, .ro, 0⟩] },
  { block := 0x20, page := 1, off := 0x90, wide := true, fields := [⟨31, 0, .ro, 0⟩] },
  { block := 0x20, page := 1, off := 0x94, fields := [⟨31, 0, .ro, 0⟩] },
  { block := 0x20, page := 1, off := 0x98, wide := true, fields := [⟨31, 0, .ro, 0⟩] }
] ++ [
  { block := 0x20, page := 1, off := 0x9c, fields := [⟨31, 0, .ro, 0⟩] },
  { block := 0x20, page := 1, off := 0xa0, wide := true, fields := [⟨31, 0, .ro, 0⟩] },
  { block := 0x20, page := 1, off := 0xa4, fields := [⟨31, 0, .ro, 0⟩] },
  { block := 0x20, page := 1, off := 0xa8, wide := true, fields := [⟨31, 0, .ro, 0⟩] },
  { block := 0x20, page := 1, off := 0xac, fields := [⟨31, 0, .ro, 0⟩] },
  { block := 0x20, page := 1, off := 0xb0, wide := true, fields := [⟨31, 0, .ro, 0⟩] },
  { block := 0x20, page := 1, off := 0xb4, fields := [⟨31, 0, .ro, 0⟩] },
  { block := 0x20, page := 1, off := 0xb8, wide := true, fields := [⟨31, 0, .ro, 0⟩] },
  { block := 0x20, page := 1, off := 0xbc, fields := [⟨31, 0, .ro, 0⟩] },
  { block := 0x20, page := 1, off := 0xc0, wide := true, fields := [⟨31, 0, .ro, 0⟩] },
  { block := 0x20, page := 1, off := 0xc4, fields := [⟨31, 0, .ro, 0⟩] },
  { block := 0x20, page := 1, off := 0xc8, wide := true, fields := [⟨31, 0, .ro, 0⟩] },
  { block := 0x20, page := 1, off := 0xcc, fields := [⟨31, 0, .ro, 0⟩] },
  { block := 0x20, page := 1, off := 0xd0, wide := true, fields := [⟨31, 0, .ro, 0⟩] },
  { block := 0x20, page := 1, off := 0xd4, fields := [⟨31, 0, .ro, 0⟩] },
  { block := 0x20, page := 2, off := 0x40, n := 8, stride := 8, fields := [⟨31, 16, .ro, 0⟩, ⟨15, 0, .ro, 0⟩] },
  { block := 0x20, page := 2, off := 0x44, n := 8, stride := 8, fields := [⟨31, 31, .ro, 0⟩, ⟨30, 30, .ro, 0⟩, ⟨29, 29, .ro, 0⟩, ⟨15, 8, .ro, 0⟩] },
  { block := 0x20, page := 3, off := 0x40, n := 16, stride := 16, fields := [⟨31, 28, .ro, 0⟩, ⟨27, 16, .ro, 0⟩, ⟨15, 8, .ro, 0⟩, ⟨3, 0, .ro, 0⟩] },
  { block := 0x20, page := 3, off := 0x44, n := 16, stride := 16, wide := true, fields := [⟨31, 0, .ro, 0⟩] },
  { block := 0x20, page := 3, off := 0x48, n := 16, stride := 16, fields := [⟨31, 0, .ro, 0⟩] },
  { block := 0x20, page := 3, off := 0x4c, n := 16, stride := 16, fields := [⟨31, 0, .ro, 0⟩] },
  { block := 0x20, page := 7, off := 0x40, fields := [⟨31, 16, .rw, 0x7d0⟩, ⟨15, 0, .rw, 0xc8⟩] },
  { block := 0x20, page := 7, off := 0x44, fields := [⟨15, 0, .ro, 0⟩] },
  { block := 0x20, page := 7, off := 0x48, n := 16, stride := 8, fields := [⟨31, 28, .ro, 0⟩, ⟨27, 16, .ro, 0⟩, ⟨15, 9, .ro, 0⟩, ⟨8, 3, .ro, 0⟩] },
  { block := 0x20, page := 7, off := 0x4c, n := 16, stride := 8, fields := [⟨31, 16, .ro, 0⟩, ⟨15, 0, .ro, 0⟩] },
  { block := 0x20, page := 7, off := 0x100, wide := true, fields := [⟨31, 0, .ro, 0⟩] },
  { block := 0x20, page := 7, off := 0x104, fields := [⟨31, 0, .ro, 0⟩] },
  { block := 0x20, page := 7, off := 0x108, wide := true, fields := [⟨31, 0, .ro, 0⟩] },
  { block := 0x20, page := 7, off := 0x10c, fields := [⟨31, 0, .ro, 0⟩] },
  { block := 0x20, page := 7, off := 0x110, wide := true, fields := [⟨31, 0, .ro, 0⟩] }
] ++ [
  { block := 0x20, page := 7, off := 0x114, fields := [⟨31, 0, .ro, 0⟩] },
  { block := 0x20, page := 7, off := 0x118, wide := true, fields := [⟨31, 0, .ro, 0⟩] },
  { block := 0x20, page := 7, off := 0x11c, fields := [⟨31, 0, .ro, 0⟩] },
  { block := 0x20, page := 7, off := 0x120, wide := true, fields := [⟨31, 0, .ro, 0⟩] },
  { block := 0x20, page := 7, off := 0x124, fields := [⟨31, 0, .ro, 0⟩] },
  { block := 0x20, page := 7, off := 0x128, wide := true, fields := [⟨31, 0, .ro, 0⟩] },
  { block := 0x20, page := 7, off := 0x12c, fields := [⟨31, 0, .ro, 0⟩] },
  { block := 0x20, page := 7, off := 0x130, wide := true, fields := [⟨31, 0, .ro, 0⟩] },
  { block := 0x20, page := 7, off := 0x134, fields := [⟨31, 0, .ro, 0⟩] },
  { block := 0x20, page := 7, off := 0x138, fields := [⟨31, 0, .rw, 0⟩] }
]

/-- Registers of `HIF`. -/
def regsHif : List RegSpec := [
  { block := 0x30, page := 0, off := 0x40, fields := [⟨31, 22, .ro, 0⟩, ⟨8, 0, .ro, 0⟩] },
  { block := 0x30, page := 0, off := 0x44, fields := [⟨7, 0, .rw, 0⟩] },
  { block := 0x30, page := 0, off := 0x48, fields := [⟨31, 31, .rw, 0⟩, ⟨27, 16, .rw, 0⟩, ⟨8, 0, .rw, 0⟩] },
  { block := 0x30, page := 0, off := 0x4c, wide := true, fields := [⟨31, 30, .rwl, 0⟩] },
  { block := 0x30, page := 0, off := 0x50, fields := [⟨31, 0, .rwl, 0⟩] },
  { block := 0x30, page := 0, off := 0x54, fields := [⟨14, 0, .rwl, 0⟩] },
  { block := 0x30, page := 0, off := 0x58, fields := [⟨31, 31, .wo, 0⟩] },
  { block := 0x30, page := 0, off := 0x5c, fields := [⟨12, 0, .ro, 0⟩] },
  { block := 0x30, page := 1, off := 0x40, wide := true, fields := [⟨31, 0, .ro, 0⟩] },
  { block := 0x30, page := 1, off := 0x44, fields := [⟨31, 0, .ro, 0⟩] },
  { block := 0x30, page := 1, off := 0x48, wide := true, fields := [⟨31, 0, .ro, 0⟩] },
  { block := 0x30, page := 1, off := 0x4c, fields := [⟨31, 0, .ro, 0⟩] },
  { block := 0x30, page := 1, off := 0x50, wide := true, fields := [⟨31, 0, .ro, 0⟩] },
  { block := 0x30, page := 1, off := 0x54, fields := [⟨31, 0, .ro, 0⟩] },
  { block := 0x30, page := 1, off := 0x58, wide := true, fields := [⟨31, 0, .ro, 0⟩] },
  { block := 0x30, page := 1, off := 0x5c, fields := [⟨31, 0, .ro, 0⟩] }
]

/-- Registers of `CXP`. -/
def regsCxp : List RegSpec := [
  { block := 0x31, page := 0, off := 0x40, fields := [⟨31, 31, .rw, 1⟩, ⟨4, 0, .rw, 0x10⟩] },
  { block := 0x31, page := 0, off := 0x44, fields := [⟨31, 28, .ro, 0⟩, ⟨27, 23, .ro, 0⟩, ⟨22, 20, .ro, 0⟩, ⟨11, 0, .ro, 0⟩] },
  { block := 0x31, page := 0, off := 0x48, fields := [⟨31, 31, .wo, 0⟩, ⟨30, 30, .wo, 0⟩] },
  { block := 0x31, page := 0, off := 0x4c, wide := true, fields := [⟨31, 0, .ro, 0⟩] },
  { block := 0x31, page := 0, off := 0x50, fields := [⟨31, 0, .ro, 0⟩] },
  { block := 0x31, page := 1, off := 0x40, wide := true, fields := [⟨31, 0, .ro, 0⟩] },
  { block := 0x31, page := 1, off := 0x44, fields := [⟨31, 0, .ro, 0⟩] },
  { block := 0x31, page := 1, off := 0x48, wide := true, fields := [⟨31, 0, .ro, 0⟩] },
  { block := 0x31, page := 1, off := 0x4c, fields := [⟨31, 0, .ro, 0⟩] },
  { block := 0x31, page := 1, off := 0x50, wide := true, fields := [⟨31, 0, .ro, 0⟩] },
  { block := 0x31, page := 1, off := 0x54, fields := [⟨31, 0, .ro, 0⟩] },
  { block := 0x31, page := 1, off := 0x58, wide := true, fields := [⟨31, 0, .ro, 0⟩] },
  { block := 0x31, page := 1, off := 0x5c, fields := [⟨31, 0, .ro, 0⟩] }
]

/-- Registers of `TST`. -/
def regsTst : List RegSpec := [
  { block := 0x3f, page := 0, off := 0x40, fields := [⟨31, 31, .rw, 1⟩, ⟨23, 16, .rw, 0x18⟩, ⟨15, 8, .rw, 0x55⟩, ⟨0, 0, .rw, 1⟩] },
  { block := 0x3f, page := 0, off := 0x44, fields := [⟨31, 31, .ro, 0⟩, ⟨30, 27, .ro, 0⟩, ⟨26, 20, .ro, 0⟩, ⟨19, 19, .ro, 0⟩, ⟨15, 0, .ro, 0⟩] },
  { block := 0x3f, page := 0, off := 0x48, fields := [⟨31, 0, .rw, 0⟩] },
  { block := 0x3f, page := 0, off := 0x4c, fields := [⟨31, 30, .ro, 3⟩, ⟨23, 16, .ro, 0⟩, ⟨15, 8, .ro, 0⟩] },
  { block := 0x3f, page := 0, off := 0x50, fields := [⟨31, 31, .wo, 0⟩] },
  { block := 0x3f, page := 0, off := 0x54, fields := [⟨0, 0, .wo, 0⟩] },
  { block := 0x3f, page := 1, off := 0x40, wide := true, fields := [⟨31, 0, .ro, 0⟩] },
  { block := 0x3f, page := 1, off := 0x44, fields := [⟨31, 0, .ro, 0⟩] },
  { block := 0x3f, page := 1, off := 0x48, wide := true, fields := [⟨31, 0, .ro, 0⟩] },
  { block := 0x3f, page := 1, off := 0x4c, fields := [⟨31, 0, .ro, 0⟩] },
  { block := 0x3f, page := 1, off := 0x50, wide := true, fields := [⟨31, 0, .ro, 0⟩] },
  { block := 0x3f, page := 1, off := 0x54, fields := [⟨31, 0, .ro, 0⟩] },
  { block := 0x3f, page := 1, off := 0x58, wide := true, fields := [⟨31, 0, .ro, 0⟩] },
  { block := 0x3f, page := 1, off := 0x5c, fields := [⟨31, 0, .ro, 0⟩] }
]

/-- Registers of `DOM`. -/
def regsDom : List RegSpec := [
  { block := 0x40, page := 0, off := 0x40, fields := [⟨31, 31, .ro, 1⟩, ⟨27, 16, .ro, 0⟩, ⟨8, 0, .ro, 0⟩] },
  { block := 0x40, page := 0, off := 0x44, fields := [⟨8, 0, .ro, 0⟩] },
  { block := 0x40, page := 0, off := 0x48, fields := [⟨31, 31, .ro, 0⟩, ⟨30, 30, .ro, 0⟩, ⟨29, 29, .ro, 0⟩, ⟨15, 0, .ro, 0⟩] },
  { block := 0x40, page := 0, off := 0x4c, fields := [⟨31, 30, .ro, 0⟩, ⟨29, 29, .ro, 0⟩, ⟨27, 24, .ro, 0⟩, ⟨23, 20, .ro, 0⟩, ⟨15, 8, .ro, 0⟩, ⟨0, 0, .ro, 0⟩] },
  { block := 0x40, page := 0, off := 0x50, wide := true, fields := [⟨31, 0, .ro, 0⟩] },
  { block := 0x40, page := 0, off := 0x54, fields := [⟨31, 0, .ro, 0⟩] },
  { block := 0x40, page := 0, off := 0x60, fields := [⟨7, 0, .rw, 0⟩] },
  { block := 0x40, page := 0, off := 0x64, wide := true, fields := [⟨31, 12, .rw, 0⟩] },
  { block := 0x40, page := 0, off := 0x68, fields := [⟨31, 0, .rw, 0⟩] },
  { block := 0x40, page := 0, off := 0x6c, wide := true, fields := [⟨31, 12, .rw, 0⟩] },
  { block := 0x40, page := 0, off := 0x70, fields := [⟨31, 0, .rw, 0⟩] },
  { block := 0x40, page := 0, off := 0x74, fields := [⟨31, 31, .rw, 0⟩, ⟨25, 21, .rw, 4⟩, ⟨20, 16, .rw, 4⟩, ⟨10, 0, .rw, 0⟩] },
  { block := 0x40, page := 0, off := 0x78, fields := [⟨31, 16, .rw, 1⟩, ⟨15, 0, .rw, 0⟩] },
  { block := 0x40, page := 0, off := 0x7c, fields := [⟨31, 28, .ro, 0⟩, ⟨27, 24, .ro, 0⟩, ⟨15, 0, .ro, 0⟩] }
]

/-- The registers of a block, by block number (Table 2.1; 0x40 is the `DOM` page). -/
def regsOf (block : Nat) : List RegSpec :=
  match block with
  | 0x1 => regsGlb
  | 0x2 => regsClk
  | 0x3 => regsPwr
  | 0x4 => regsEvc
  | 0x5 => regsLve
  | 0x6 => regsAud
  | 0x7 => regsXlt
  | 0x8 => regsSlc
  | 0x9 => regsRbd
  | 0xa => regsSdg
  | 0xb => regsPea
  | 0x10 => regsAtc
  | 0x20 => regsCwy
  | 0x30 => regsHif
  | 0x31 => regsCxp
  | 0x3f => regsTst
  | 0x40 => regsDom
  | _ => []

namespace Reg
/-! Addresses in BAR0 of instance 0 of each register; of the `DOM` page, offsets in the page. -/

/-- `GLB_DEVID`. -/
def glbDevid : Nat := 0x40
/-- `GLB_VARIANT`. -/
def glbVariant : Nat := 0x44
/-- `GLB_SERIAL_LO`. -/
def glbSerialLo : Nat := 0x48
/-- `GLB_SERIAL_HI`. -/
def glbSerialHi : Nat := 0x4c
/-- `GLB_LCSTATE`. -/
def glbLcstate : Nat := 0x50
/-- `GLB_FWVER`. -/
def glbFwver : Nat := 0x54
/-- `GLB_PINMUX`. -/
def glbPinmux : Nat := 0x58
/-- `GLB_RSTCTL`. -/
def glbRstctl : Nat := 0x5c
/-- `GLB_REFUSE_ADDR`. -/
def glbRefuseAddr : Nat := 0x60
/-- `GLB_REFUSE_INFO`. -/
def glbRefuseInfo : Nat := 0x64
/-- `GLB_SCRATCH`. -/
def glbScratch : Nat := 0x70
/-- `GLB_CAP_ATTN`. -/
def glbCapAttn : Nat := 0x1040
/-- `GLB_CAP_MEM`. -/
def glbCapMem : Nat := 0x1044
/-- `GLB_CAP_PORTS`. -/
def glbCapPorts : Nat := 0x1048
/-- `GLB_CAP_IO`. -/
def glbCapIo : Nat := 0x104c
/-- `GLB_CAP_LIMITS`. -/
def glbCapLimits : Nat := 0x1050
/-- `GLB_CAP_FEAT`. -/
def glbCapFeat : Nat := 0x1054
/-- `GLB_FAULT_CFG`. -/
def glbFaultCfg : Nat := 0x2040
/-- `GLB_FAULT_STAT`. -/
def glbFaultStat : Nat := 0x2044
/-- `GLB_WARM_XLT_LO`. -/
def glbWarmXltLo : Nat := 0x2048
/-- `GLB_WARM_XLT_HI`. -/
def glbWarmXltHi : Nat := 0x204c
/-- `GLB_WARM_LVE_LO`. -/
def glbWarmLveLo : Nat := 0x2050
/-- `GLB_WARM_LVE_HI`. -/
def glbWarmLveHi : Nat := 0x2054
/-- `GLB_WARM_EVC_LO`. -/
def glbWarmEvcLo : Nat := 0x2058
/-- `GLB_WARM_EVC_HI`. -/
def glbWarmEvcHi : Nat := 0x205c
/-- `GLB_FIFO_DROP_LO`. -/
def glbFifoDropLo : Nat := 0x2060
/-- `GLB_FIFO_DROP_HI`. -/
def glbFifoDropHi : Nat := 0x2064
/-- `GLB_STRANDED_MIB`. -/
def glbStrandedMib : Nat := 0x2068
/-- `GLB_RETIRED_KIB`. -/
def glbRetiredKib : Nat := 0x206c
/-- `GLB_FAULT_LAST`. -/
def glbFaultLast : Nat := 0x2080
/-- `GLB_RSTCAUSE`. -/
def glbRstcause : Nat := 0x3040
/-- `GLB_CAL_CTL`. -/
def glbCalCtl : Nat := 0x3044
/-- `GLB_CAL_RDATA`. -/
def glbCalRdata : Nat := 0x3048
/-- `GLB_CAL_WDATA`. -/
def glbCalWdata : Nat := 0x304c
/-- `GLB_CAL_LEN`. -/
def glbCalLen : Nat := 0x3050
/-- `GLB_CAL_HASH`. -/
def glbCalHash : Nat := 0x3060
/-- `GLB_T3_CTL`. -/
def glbT3Ctl : Nat := 0x3090
/-- `GLB_PARK_STAT`. -/
def glbParkStat : Nat := 0x3094
/-- `CLK_STAT`. -/
def clkStat : Nat := 0x10040
/-- `CLK_CSYN0`. -/
def clkCsyn0 : Nat := 0x10044
/-- `CLK_CSYN1`. -/
def clkCsyn1 : Nat := 0x10048
/-- `CLK_DEVTIME_LO`. -/
def clkDevtimeLo : Nat := 0x10050
/-- `CLK_DEVTIME_HI`. -/
def clkDevtimeHi : Nat := 0x10054
/-- `CLK_ALARM_LO`. -/
def clkAlarmLo : Nat := 0x10058
/-- `CLK_ALARM_HI`. -/
def clkAlarmHi : Nat := 0x1005c
/-- `CLK_PTP_CFG`. -/
def clkPtpCfg : Nat := 0x10060
/-- `CLK_PTP_STAT`. -/
def clkPtpStat : Nat := 0x10064
/-- `CLK_T_OFF_LO`. -/
def clkTOffLo : Nat := 0x10068
/-- `CLK_T_OFF_HI`. -/
def clkTOffHi : Nat := 0x1006c
/-- `CLK_PTP_RATE`. -/
def clkPtpRate : Nat := 0x10070
/-- `PWR_ENVELOPE`. -/
def pwrEnvelope : Nat := 0x20040
/-- `PWR_EPOCH_CFG`. -/
def pwrEpochCfg : Nat := 0x20044
/-- `PWR_EPOCH_LO`. -/
def pwrEpochLo : Nat := 0x20048
/-- `PWR_EPOCH_HI`. -/
def pwrEpochHi : Nat := 0x2004c
/-- `PWR_CREDIT`. -/
def pwrCredit : Nat := 0x20050
/-- `PWR_THERM`. -/
def pwrTherm : Nat := 0x20054
/-- `PWR_TSTAT`. -/
def pwrTstat : Nat := 0x20058
/-- `PWR_DVFS`. -/
def pwrDvfs : Nat := 0x2005c
/-- `PWR_ADMIT`. -/
def pwrAdmit : Nat := 0x20060
/-- `PWR_CLASS_MIN`. -/
def pwrClassMin : Nat := 0x20064
/-- `PWR_SM_LAST`. -/
def pwrSmLast : Nat := 0x20068
/-- `PWR_SM_STAT`. -/
def pwrSmStat : Nat := 0x2006c
/-- `PWR_COEF0`. -/
def pwrCoef0 : Nat := 0x20070
/-- `PWR_COEF1`. -/
def pwrCoef1 : Nat := 0x20074
/-- `PWR_COEF2`. -/
def pwrCoef2 : Nat := 0x20078
/-- `PWR_DOM_SEL`. -/
def pwrDomSel : Nat := 0x21040
/-- `PWR_DOM_RATE`. -/
def pwrDomRate : Nat := 0x21044
/-- `PWR_DOM_CFG`. -/
def pwrDomCfg : Nat := 0x21048
/-- `PWR_DOM_BUCKET`. -/
def pwrDomBucket : Nat := 0x2104c
/-- `PWR_DOM_BACKLOG`. -/
def pwrDomBacklog : Nat := 0x21050
/-- `PWR_ISL_REQ`. -/
def pwrIslReq : Nat := 0x21060
/-- `PWR_ISL_STATE_LO`. -/
def pwrIslStateLo : Nat := 0x21064
/-- `PWR_ISL_STATE_HI`. -/
def pwrIslStateHi : Nat := 0x21068
/-- `PWR_STANDBY`. -/
def pwrStandby : Nat := 0x21070
/-- `PWR_WAKE_EN`. -/
def pwrWakeEn : Nat := 0x21074
/-- `PWR_SM_IN_LO`. -/
def pwrSmInLo : Nat := 0x22040
/-- `PWR_SM_IN_HI`. -/
def pwrSmInHi : Nat := 0x22044
/-- `PWR_SM_OUT_LO`. -/
def pwrSmOutLo : Nat := 0x22048
/-- `PWR_SM_OUT_HI`. -/
def pwrSmOutHi : Nat := 0x2204c
/-- `PWR_SM_MISS_LO`. -/
def pwrSmMissLo : Nat := 0x22050
/-- `PWR_SM_MISS_HI`. -/
def pwrSmMissHi : Nat := 0x22054
/-- `PWR_SM_RESYNC_LO`. -/
def pwrSmResyncLo : Nat := 0x22058
/-- `PWR_SM_RESYNC_HI`. -/
def pwrSmResyncHi : Nat := 0x2205c
/-- `PWR_SM_OTHER_LO`. -/
def pwrSmOtherLo : Nat := 0x22060
/-- `PWR_SM_OTHER_HI`. -/
def pwrSmOtherHi : Nat := 0x22064
/-- `PWR_SPLIT_LO`. -/
def pwrSplitLo : Nat := 0x22068
/-- `PWR_SPLIT_HI`. -/
def pwrSplitHi : Nat := 0x2206c
/-- `PWR_KEY_OVERRUN_LO`. -/
def pwrKeyOverrunLo : Nat := 0x22070
/-- `PWR_KEY_OVERRUN_HI`. -/
def pwrKeyOverrunHi : Nat := 0x22074
/-- `PWR_ADMIT_REFUSE_LO`. -/
def pwrAdmitRefuseLo : Nat := 0x22078
/-- `PWR_ADMIT_REFUSE_HI`. -/
def pwrAdmitRefuseHi : Nat := 0x2207c
/-- `PWR_DEFICIT_LO`. -/
def pwrDeficitLo : Nat := 0x22080
/-- `PWR_DEFICIT_HI`. -/
def pwrDeficitHi : Nat := 0x22084
/-- `PWR_SLEEP_ABORT_LO`. -/
def pwrSleepAbortLo : Nat := 0x22088
/-- `PWR_SLEEP_ABORT_HI`. -/
def pwrSleepAbortHi : Nat := 0x2208c
/-- `PWR_HIST_SEL`. -/
def pwrHistSel : Nat := 0x23040
/-- `PWR_HIST_BIN_LO`. -/
def pwrHistBinLo : Nat := 0x23080
/-- `PWR_HIST_BIN_HI`. -/
def pwrHistBinHi : Nat := 0x23084
/-- `EVC_EOI`. -/
def evcEoi : Nat := 0x30048
/-- `EVC_SWSET`. -/
def evcSwset : Nat := 0x3004c
/-- `EVC_RUNSEL`. -/
def evcRunsel : Nat := 0x30050
/-- `EVC_RUN`. -/
def evcRun : Nat := 0x30054
/-- `EVC_DELIV_LO`. -/
def evcDelivLo : Nat := 0x30058
/-- `EVC_DELIV_HI`. -/
def evcDelivHi : Nat := 0x3005c
/-- `EVC_FULL_WAIT_LO`. -/
def evcFullWaitLo : Nat := 0x30060
/-- `EVC_FULL_WAIT_HI`. -/
def evcFullWaitHi : Nat := 0x30064
/-- `EVC_PEND`. -/
def evcPend : Nat := 0x30080
/-- `EVC_PEND16`. -/
def evcPend16 : Nat := 0x300c0
/-- `EVC_HOLD`. -/
def evcHold : Nat := 0x30100
/-- `EVC_ROUTE`. -/
def evcRoute : Nat := 0x31040
/-- `EVC_ROUTE512`. -/
def evcRoute512 : Nat := 0x32040
/-- `LVE_MODE`. -/
def lveMode : Nat := 0x40040
/-- `LVE_LC`. -/
def lveLc : Nat := 0x40044
/-- `LVE_DOM_SEL`. -/
def lveDomSel : Nat := 0x40048
/-- `LVE_DOM_STAT`. -/
def lveDomStat : Nat := 0x4004c
/-- `LVE_MON`. -/
def lveMon : Nat := 0x40050
/-- `LVE_FUSE_STAT`. -/
def lveFuseStat : Nat := 0x40054
/-- `LVE_DBG`. -/
def lveDbg : Nat := 0x40058
/-- `LVE_DENIED_LO`. -/
def lveDeniedLo : Nat := 0x40060
/-- `LVE_DENIED_HI`. -/
def lveDeniedHi : Nat := 0x40064
/-- `LVE_KEYOPS_LO`. -/
def lveKeyopsLo : Nat := 0x40068
/-- `LVE_KEYOPS_HI`. -/
def lveKeyopsHi : Nat := 0x4006c
/-- `LVE_SCRUB_LO`. -/
def lveScrubLo : Nat := 0x40070
/-- `LVE_SCRUB_HI`. -/
def lveScrubHi : Nat := 0x40074
/-- `LVE_SPDM_LO`. -/
def lveSpdmLo : Nat := 0x40078
/-- `LVE_SPDM_HI`. -/
def lveSpdmHi : Nat := 0x4007c
/-- `AUD_STAT`. -/
def audStat : Nat := 0x50040
/-- `AUD_CFG`. -/
def audCfg : Nat := 0x50044
/-- `AUD_ENTRY_LO`. -/
def audEntryLo : Nat := 0x50048
/-- `AUD_ENTRY_HI`. -/
def audEntryHi : Nat := 0x5004c
/-- `AUD_SEG_LO`. -/
def audSegLo : Nat := 0x50050
/-- `AUD_SEG_HI`. -/
def audSegHi : Nat := 0x50054
/-- `AUD_ACKED_LO`. -/
def audAckedLo : Nat := 0x50058
/-- `AUD_ACKED_HI`. -/
def audAckedHi : Nat := 0x5005c
/-- `AUD_REFUSED_LO`. -/
def audRefusedLo : Nat := 0x50060
/-- `AUD_REFUSED_HI`. -/
def audRefusedHi : Nat := 0x50064
/-- `XLT_PTR_BASE_LO`. -/
def xltPtrBaseLo : Nat := 0x60040
/-- `XLT_PTR_BASE_HI`. -/
def xltPtrBaseHi : Nat := 0x60044
/-- `XLT_PTR_SIZE`. -/
def xltPtrSize : Nat := 0x60048
/-- `XLT_CFG`. -/
def xltCfg : Nat := 0x6004c
/-- `XLT_PTR_USE`. -/
def xltPtrUse : Nat := 0x60050
/-- `XLT_TLB_HIT_LO`. -/
def xltTlbHitLo : Nat := 0x60058
/-- `XLT_TLB_HIT_HI`. -/
def xltTlbHitHi : Nat := 0x6005c
/-- `XLT_TLB_MISS_LO`. -/
def xltTlbMissLo : Nat := 0x60060
/-- `XLT_TLB_MISS_HI`. -/
def xltTlbMissHi : Nat := 0x60064
/-- `XLT_WALK_MAX`. -/
def xltWalkMax : Nat := 0x60068
/-- `XLT_SEQ_LIVE`. -/
def xltSeqLive : Nat := 0x6006c
/-- `XLT_BD_LIVE`. -/
def xltBdLive : Nat := 0x60070
/-- `XLT_MODELS`. -/
def xltModels : Nat := 0x60074
/-- `XLT_GEN_WRAP_LO`. -/
def xltGenWrapLo : Nat := 0x60078
/-- `XLT_GEN_WRAP_HI`. -/
def xltGenWrapHi : Nat := 0x6007c
/-- `XLT_DOM_FAULT_LO`. -/
def xltDomFaultLo : Nat := 0x60080
/-- `XLT_DOM_FAULT_HI`. -/
def xltDomFaultHi : Nat := 0x60084
/-- `XLT_APP_CFG`. -/
def xltAppCfg : Nat := 0x61040
/-- `XLT_APP_STAT`. -/
def xltAppStat : Nat := 0x61044
/-- `XLT_APP_OPEN`. -/
def xltAppOpen : Nat := 0x61048
/-- `XLT_APP_LAST_INFO`. -/
def xltAppLastInfo : Nat := 0x6104c
/-- `XLT_APP_LAST_POS`. -/
def xltAppLastPos : Nat := 0x61050
/-- `XLT_APP_REC_LO`. -/
def xltAppRecLo : Nat := 0x61060
/-- `XLT_APP_REC_HI`. -/
def xltAppRecHi : Nat := 0x61064
/-- `XLT_APP_POS_LO`. -/
def xltAppPosLo : Nat := 0x61068
/-- `XLT_APP_POS_HI`. -/
def xltAppPosHi : Nat := 0x6106c
/-- `XLT_APP_SEAL_LO`. -/
def xltAppSealLo : Nat := 0x61070
/-- `XLT_APP_SEAL_HI`. -/
def xltAppSealHi : Nat := 0x61074
/-- `XLT_APP_HOLD_LO`. -/
def xltAppHoldLo : Nat := 0x61078
/-- `XLT_APP_HOLD_HI`. -/
def xltAppHoldHi : Nat := 0x6107c
/-- `XLT_APP_RESCALE_LO`. -/
def xltAppRescaleLo : Nat := 0x61080
/-- `XLT_APP_RESCALE_HI`. -/
def xltAppRescaleHi : Nat := 0x61084
/-- `XLT_APP_RESCALE_HOLD_LO`. -/
def xltAppRescaleHoldLo : Nat := 0x61088
/-- `XLT_APP_RESCALE_HOLD_HI`. -/
def xltAppRescaleHoldHi : Nat := 0x6108c
/-- `XLT_APP_SAT_LO`. -/
def xltAppSatLo : Nat := 0x61090
/-- `XLT_APP_SAT_HI`. -/
def xltAppSatHi : Nat := 0x61094
/-- `XLT_APP_NONFIN_LO`. -/
def xltAppNonfinLo : Nat := 0x61098
/-- `XLT_APP_NONFIN_HI`. -/
def xltAppNonfinHi : Nat := 0x6109c
/-- `XLT_APP_REFUSE_LO`. -/
def xltAppRefuseLo : Nat := 0x610a0
/-- `XLT_APP_REFUSE_HI`. -/
def xltAppRefuseHi : Nat := 0x610a4
/-- `XLT_APP_NOIDX_LO`. -/
def xltAppNoidxLo : Nat := 0x610a8
/-- `XLT_APP_NOIDX_HI`. -/
def xltAppNoidxHi : Nat := 0x610ac
/-- `SLC_CFG`. -/
def slcCfg : Nat := 0x70040
/-- `SLC_STAGE`. -/
def slcStage : Nat := 0x70044
/-- `SLC_STAT`. -/
def slcStat : Nat := 0x70048
/-- `SLC_DOM_SEL`. -/
def slcDomSel : Nat := 0x7004c
/-- `SLC_DOM_T0_QUOTA`. -/
def slcDomT0Quota : Nat := 0x70050
/-- `SLC_DOM_T0_USE`. -/
def slcDomT0Use : Nat := 0x70054
/-- `SLC_DOM_MOVE`. -/
def slcDomMove : Nat := 0x70058
/-- `SLC_CAP`. -/
def slcCap : Nat := 0x70060
/-- `SLC_FREE`. -/
def slcFree : Nat := 0x70070
/-- `SLC_MOVE_LO`. -/
def slcMoveLo : Nat := 0x71040
/-- `SLC_MOVE_HI`. -/
def slcMoveHi : Nat := 0x71044
/-- `SLC_ABORT_LO`. -/
def slcAbortLo : Nat := 0x71048
/-- `SLC_ABORT_HI`. -/
def slcAbortHi : Nat := 0x7104c
/-- `SLC_JOIN_LO`. -/
def slcJoinLo : Nat := 0x71050
/-- `SLC_JOIN_HI`. -/
def slcJoinHi : Nat := 0x71054
/-- `SLC_CHAIN_LO`. -/
def slcChainLo : Nat := 0x71058
/-- `SLC_CHAIN_HI`. -/
def slcChainHi : Nat := 0x7105c
/-- `SLC_CONFLICT_LO`. -/
def slcConflictLo : Nat := 0x71060
/-- `SLC_CONFLICT_HI`. -/
def slcConflictHi : Nat := 0x71064
/-- `SLC_EVICT_LO`. -/
def slcEvictLo : Nat := 0x71068
/-- `SLC_EVICT_HI`. -/
def slcEvictHi : Nat := 0x7106c
/-- `SLC_PREEMPT_LO`. -/
def slcPreemptLo : Nat := 0x71070
/-- `SLC_PREEMPT_HI`. -/
def slcPreemptHi : Nat := 0x71074
/-- `SLC_AUTOPRE_LO`. -/
def slcAutopreLo : Nat := 0x71078
/-- `SLC_AUTOPRE_HI`. -/
def slcAutopreHi : Nat := 0x7107c
/-- `SLC_RESTORE_LO`. -/
def slcRestoreLo : Nat := 0x71080
/-- `SLC_RESTORE_HI`. -/
def slcRestoreHi : Nat := 0x71084
/-- `SLC_BYTES_RAW_LO`. -/
def slcBytesRawLo : Nat := 0x71088
/-- `SLC_BYTES_RAW_HI`. -/
def slcBytesRawHi : Nat := 0x7108c
/-- `SLC_BYTES_LINK_LO`. -/
def slcBytesLinkLo : Nat := 0x71090
/-- `SLC_BYTES_LINK_HI`. -/
def slcBytesLinkHi : Nat := 0x71094
/-- `SLC_STALL_T1_LO`. -/
def slcStallT1Lo : Nat := 0x710c0
/-- `SLC_STALL_T1_HI`. -/
def slcStallT1Hi : Nat := 0x710c4
/-- `SLC_STALL_T1_NS_LO`. -/
def slcStallT1NsLo : Nat := 0x710c8
/-- `SLC_STALL_T1_NS_HI`. -/
def slcStallT1NsHi : Nat := 0x710cc
/-- `SLC_STALL_T2_LO`. -/
def slcStallT2Lo : Nat := 0x710d0
/-- `SLC_STALL_T2_HI`. -/
def slcStallT2Hi : Nat := 0x710d4
/-- `SLC_STALL_T2_NS_LO`. -/
def slcStallT2NsLo : Nat := 0x710d8
/-- `SLC_STALL_T2_NS_HI`. -/
def slcStallT2NsHi : Nat := 0x710dc
/-- `SLC_STALL_T3_LO`. -/
def slcStallT3Lo : Nat := 0x710e0
/-- `SLC_STALL_T3_HI`. -/
def slcStallT3Hi : Nat := 0x710e4
/-- `SLC_STALL_T3_NS_LO`. -/
def slcStallT3NsLo : Nat := 0x710e8
/-- `SLC_STALL_T3_NS_HI`. -/
def slcStallT3NsHi : Nat := 0x710ec
/-- `SLC_STALL_RETRY_LO`. -/
def slcStallRetryLo : Nat := 0x710f0
/-- `SLC_STALL_RETRY_HI`. -/
def slcStallRetryHi : Nat := 0x710f4
/-- `SLC_STALL_RETRY_NS_LO`. -/
def slcStallRetryNsLo : Nat := 0x710f8
/-- `SLC_STALL_RETRY_NS_HI`. -/
def slcStallRetryNsHi : Nat := 0x710fc
/-- `SLC_STALL_STAGE_LO`. -/
def slcStallStageLo : Nat := 0x71100
/-- `SLC_STALL_STAGE_HI`. -/
def slcStallStageHi : Nat := 0x71104
/-- `SLC_STALL_STAGE_NS_LO`. -/
def slcStallStageNsLo : Nat := 0x71108
/-- `SLC_STALL_STAGE_NS_HI`. -/
def slcStallStageNsHi : Nat := 0x7110c
/-- `SLC_STALL_XLT_LO`. -/
def slcStallXltLo : Nat := 0x71110
/-- `SLC_STALL_XLT_HI`. -/
def slcStallXltHi : Nat := 0x71114
/-- `SLC_STALL_XLT_NS_LO`. -/
def slcStallXltNsLo : Nat := 0x71118
/-- `SLC_STALL_XLT_NS_HI`. -/
def slcStallXltNsHi : Nat := 0x7111c
/-- `SLC_STALL_TIMEOUT_LO`. -/
def slcStallTimeoutLo : Nat := 0x71120
/-- `SLC_STALL_TIMEOUT_HI`. -/
def slcStallTimeoutHi : Nat := 0x71124
/-- `RBD_BASE_LO`. -/
def rbdBaseLo : Nat := 0x80040
/-- `RBD_BASE_HI`. -/
def rbdBaseHi : Nat := 0x80044
/-- `RBD_CFG`. -/
def rbdCfg : Nat := 0x80048
/-- `RBD_STAT`. -/
def rbdStat : Nat := 0x8004c
/-- `RBD_FILL`. -/
def rbdFill : Nat := 0x80050
/-- `RBD_DOM_SEL`. -/
def rbdDomSel : Nat := 0x80054
/-- `RBD_DOM_QUOTA`. -/
def rbdDomQuota : Nat := 0x80058
/-- `RBD_DOM_HOT`. -/
def rbdDomHot : Nat := 0x8005c
/-- `RBD_DOM_STAT`. -/
def rbdDomStat : Nat := 0x80060
/-- `RBD_DOM_FLOOR`. -/
def rbdDomFloor : Nat := 0x80064
/-- `RBD_PROBE_LO`. -/
def rbdProbeLo : Nat := 0x81040
/-- `RBD_PROBE_HI`. -/
def rbdProbeHi : Nat := 0x81044
/-- `RBD_LOOKUP_LO`. -/
def rbdLookupLo : Nat := 0x81048
/-- `RBD_LOOKUP_HI`. -/
def rbdLookupHi : Nat := 0x8104c
/-- `RBD_GALLOP_LO`. -/
def rbdGallopLo : Nat := 0x81050
/-- `RBD_GALLOP_HI`. -/
def rbdGallopHi : Nat := 0x81054
/-- `RBD_INSERT_LO`. -/
def rbdInsertLo : Nat := 0x81058
/-- `RBD_INSERT_HI`. -/
def rbdInsertHi : Nat := 0x8105c
/-- `RBD_DUP_LO`. -/
def rbdDupLo : Nat := 0x81060
/-- `RBD_DUP_HI`. -/
def rbdDupHi : Nat := 0x81064
/-- `RBD_NOENT_STATE_LO`. -/
def rbdNoentStateLo : Nat := 0x81068
/-- `RBD_NOENT_STATE_HI`. -/
def rbdNoentStateHi : Nat := 0x8106c
/-- `RBD_NOENT_PARENT_LO`. -/
def rbdNoentParentLo : Nat := 0x81070
/-- `RBD_NOENT_PARENT_HI`. -/
def rbdNoentParentHi : Nat := 0x81074
/-- `RBD_NOENT_RANGE_LO`. -/
def rbdNoentRangeLo : Nat := 0x81078
/-- `RBD_NOENT_RANGE_HI`. -/
def rbdNoentRangeHi : Nat := 0x8107c
/-- `RBD_NOENT_QUOTA_LO`. -/
def rbdNoentQuotaLo : Nat := 0x81080
/-- `RBD_NOENT_QUOTA_HI`. -/
def rbdNoentQuotaHi : Nat := 0x81084
/-- `RBD_NOENT_ROWFULL_LO`. -/
def rbdNoentRowfullLo : Nat := 0x81088
/-- `RBD_NOENT_ROWFULL_HI`. -/
def rbdNoentRowfullHi : Nat := 0x8108c
/-- `RBD_WITHDRAW_LO`. -/
def rbdWithdrawLo : Nat := 0x81090
/-- `RBD_WITHDRAW_HI`. -/
def rbdWithdrawHi : Nat := 0x81094
/-- `RBD_BREAK_LO`. -/
def rbdBreakLo : Nat := 0x81098
/-- `RBD_BREAK_HI`. -/
def rbdBreakHi : Nat := 0x8109c
/-- `RBD_MOVE_LO`. -/
def rbdMoveLo : Nat := 0x810a0
/-- `RBD_MOVE_HI`. -/
def rbdMoveHi : Nat := 0x810a4
/-- `RBD_HOT_HIT_LO`. -/
def rbdHotHitLo : Nat := 0x810a8
/-- `RBD_HOT_HIT_HI`. -/
def rbdHotHitHi : Nat := 0x810ac
/-- `RBD_HOT_MISS_LO`. -/
def rbdHotMissLo : Nat := 0x810b0
/-- `RBD_HOT_MISS_HI`. -/
def rbdHotMissHi : Nat := 0x810b4
/-- `RBD_THROTTLE_US_LO`. -/
def rbdThrottleUsLo : Nat := 0x810b8
/-- `RBD_THROTTLE_US_HI`. -/
def rbdThrottleUsHi : Nat := 0x810bc
/-- `SDG_CFG`. -/
def sdgCfg : Nat := 0x90040
/-- `SDG_STAT`. -/
def sdgStat : Nat := 0x90044
/-- `SDG_DOM_SEL`. -/
def sdgDomSel : Nat := 0x90048
/-- `SDG_DOM_CFG`. -/
def sdgDomCfg : Nat := 0x9004c
/-- `SDG_BLK_IN_LO`. -/
def sdgBlkInLo : Nat := 0x91040
/-- `SDG_BLK_IN_HI`. -/
def sdgBlkInHi : Nat := 0x91044
/-- `SDG_BLK_PACKED_LO`. -/
def sdgBlkPackedLo : Nat := 0x91048
/-- `SDG_BLK_PACKED_HI`. -/
def sdgBlkPackedHi : Nat := 0x9104c
/-- `SDG_BLK_RAW_LO`. -/
def sdgBlkRawLo : Nat := 0x91050
/-- `SDG_BLK_RAW_HI`. -/
def sdgBlkRawHi : Nat := 0x91054
/-- `SDG_BLK_BYPASS_LO`. -/
def sdgBlkBypassLo : Nat := 0x91058
/-- `SDG_BLK_BYPASS_HI`. -/
def sdgBlkBypassHi : Nat := 0x9105c
/-- `SDG_BLK_EXP_LO`. -/
def sdgBlkExpLo : Nat := 0x91060
/-- `SDG_BLK_EXP_HI`. -/
def sdgBlkExpHi : Nat := 0x91064
/-- `SDG_BYTES_OUT_LO`. -/
def sdgBytesOutLo : Nat := 0x91068
/-- `SDG_BYTES_OUT_HI`. -/
def sdgBytesOutHi : Nat := 0x9106c
/-- `SDG_MALFORMED_LO`. -/
def sdgMalformedLo : Nat := 0x91070
/-- `SDG_MALFORMED_HI`. -/
def sdgMalformedHi : Nat := 0x91074
/-- `SDG_BUSY_NS_LO`. -/
def sdgBusyNsLo : Nat := 0x91078
/-- `SDG_BUSY_NS_HI`. -/
def sdgBusyNsHi : Nat := 0x9107c
/-- `PEA_CFG`. -/
def peaCfg : Nat := 0xa0040
/-- `PEA_FMT`. -/
def peaFmt : Nat := 0xa0044
/-- `PEA_CTL`. -/
def peaCtl : Nat := 0xa0048
/-- `PEA_STAT`. -/
def peaStat : Nat := 0xa004c
/-- `PEA_CKPT`. -/
def peaCkpt : Nat := 0xa0050
/-- `PEA_WL`. -/
def peaWl : Nat := 0xa0054
/-- `PEA_GC`. -/
def peaGc : Nat := 0xa0058
/-- `PEA_HEALTH`. -/
def peaHealth : Nat := 0xa005c
/-- `PEA_LIFE_PCT`. -/
def peaLifePct : Nat := 0xa0060
/-- `PEA_OFFTIME`. -/
def peaOfftime : Nat := 0xa0064
/-- `PEA_USABLE_GIB`. -/
def peaUsableGib : Nat := 0xa0068
/-- `PEA_SPARE`. -/
def peaSpare : Nat := 0xa006c
/-- `PEA_FINE_USE`. -/
def peaFineUse : Nat := 0xa0070
/-- `PEA_PE_SPREAD`. -/
def peaPeSpread : Nat := 0xa0074
/-- `PEA_FTIME`. -/
def peaFtime : Nat := 0xa0078
/-- `PEA_RD_SECT_LO`. -/
def peaRdSectLo : Nat := 0xa1040
/-- `PEA_RD_SECT_HI`. -/
def peaRdSectHi : Nat := 0xa1044
/-- `PEA_WR_SECT_LO`. -/
def peaWrSectLo : Nat := 0xa1048
/-- `PEA_WR_SECT_HI`. -/
def peaWrSectHi : Nat := 0xa104c
/-- `PEA_NAND_SECT_LO`. -/
def peaNandSectLo : Nat := 0xa1050
/-- `PEA_NAND_SECT_HI`. -/
def peaNandSectHi : Nat := 0xa1054
/-- `PEA_GC_SECT_LO`. -/
def peaGcSectLo : Nat := 0xa1058
/-- `PEA_GC_SECT_HI`. -/
def peaGcSectHi : Nat := 0xa105c
/-- `PEA_WL_SECT_LO`. -/
def peaWlSectLo : Nat := 0xa1060
/-- `PEA_WL_SECT_HI`. -/
def peaWlSectHi : Nat := 0xa1064
/-- `PEA_RETRY_LO`. -/
def peaRetryLo : Nat := 0xa1068
/-- `PEA_RETRY_HI`. -/
def peaRetryHi : Nat := 0xa106c
/-- `PEA_SOFT_LO`. -/
def peaSoftLo : Nat := 0xa1070
/-- `PEA_SOFT_HI`. -/
def peaSoftHi : Nat := 0xa1074
/-- `PEA_PARITY_LO`. -/
def peaParityLo : Nat := 0xa1078
/-- `PEA_PARITY_HI`. -/
def peaParityHi : Nat := 0xa107c
/-- `PEA_READ_UE_LO`. -/
def peaReadUeLo : Nat := 0xa1080
/-- `PEA_READ_UE_HI`. -/
def peaReadUeHi : Nat := 0xa1084
/-- `PEA_PROG_FAIL_LO`. -/
def peaProgFailLo : Nat := 0xa1088
/-- `PEA_PROG_FAIL_HI`. -/
def peaProgFailHi : Nat := 0xa108c
/-- `PEA_ERASE_FAIL_LO`. -/
def peaEraseFailLo : Nat := 0xa1090
/-- `PEA_ERASE_FAIL_HI`. -/
def peaEraseFailHi : Nat := 0xa1094
/-- `PEA_RETIRED_LO`. -/
def peaRetiredLo : Nat := 0xa1098
/-- `PEA_RETIRED_HI`. -/
def peaRetiredHi : Nat := 0xa109c
/-- `PEA_VERIFY_FAIL_LO`. -/
def peaVerifyFailLo : Nat := 0xa10a0
/-- `PEA_VERIFY_FAIL_HI`. -/
def peaVerifyFailHi : Nat := 0xa10a4
/-- `PEA_RMW_LO`. -/
def peaRmwLo : Nat := 0xa10a8
/-- `PEA_RMW_HI`. -/
def peaRmwHi : Nat := 0xa10ac
/-- `PEA_TRIM_RESIDUE_LO`. -/
def peaTrimResidueLo : Nat := 0xa10b0
/-- `PEA_TRIM_RESIDUE_HI`. -/
def peaTrimResidueHi : Nat := 0xa10b4
/-- `PEA_WR_WAIT_LO`. -/
def peaWrWaitLo : Nat := 0xa10b8
/-- `PEA_WR_WAIT_HI`. -/
def peaWrWaitHi : Nat := 0xa10bc
/-- `PEA_CKPT_LO`. -/
def peaCkptLo : Nat := 0xa10c0
/-- `PEA_CKPT_HI`. -/
def peaCkptHi : Nat := 0xa10c4
/-- `PEA_CKPT_NORM_LO`. -/
def peaCkptNormLo : Nat := 0xa10c8
/-- `PEA_CKPT_NORM_HI`. -/
def peaCkptNormHi : Nat := 0xa10cc
/-- `PEA_UNMAPPED_RD_LO`. -/
def peaUnmappedRdLo : Nat := 0xa10d0
/-- `PEA_UNMAPPED_RD_HI`. -/
def peaUnmappedRdHi : Nat := 0xa10d4
/-- `ATC_GCFG`. -/
def atcGcfg : Nat := 0x100040
/-- `ATC_GSTAT`. -/
def atcGstat : Nat := 0x100044
/-- `ATC_SPILL_POOL`. -/
def atcSpillPool : Nat := 0x100048
/-- `ATC_SPILL_USE`. -/
def atcSpillUse : Nat := 0x10004c
/-- `ATC_CL_STAT`. -/
def atcClStat : Nat := 0x100050
/-- `ATC_TASKS_LO`. -/
def atcTasksLo : Nat := 0x101040
/-- `ATC_TASKS_HI`. -/
def atcTasksHi : Nat := 0x101044
/-- `ATC_PREEMPT_LO`. -/
def atcPreemptLo : Nat := 0x101048
/-- `ATC_PREEMPT_HI`. -/
def atcPreemptHi : Nat := 0x10104c
/-- `ATC_SCRUB_T_LO`. -/
def atcScrubTLo : Nat := 0x101050
/-- `ATC_SCRUB_T_HI`. -/
def atcScrubTHi : Nat := 0x101054
/-- `ATC_RECOMPUTE_LO`. -/
def atcRecomputeLo : Nat := 0x101058
/-- `ATC_RECOMPUTE_HI`. -/
def atcRecomputeHi : Nat := 0x10105c
/-- `ATC_LS_MISMATCH_LO`. -/
def atcLsMismatchLo : Nat := 0x101060
/-- `ATC_LS_MISMATCH_HI`. -/
def atcLsMismatchHi : Nat := 0x101064
/-- `ATC_Q_THR_LO`. -/
def atcQThrLo : Nat := 0x101080
/-- `ATC_Q_THR_HI`. -/
def atcQThrHi : Nat := 0x101084
/-- `ATC_Q_LAT_LO`. -/
def atcQLatLo : Nat := 0x101088
/-- `ATC_Q_LAT_HI`. -/
def atcQLatHi : Nat := 0x10108c
/-- `ATC_Q_FAIL_LO`. -/
def atcQFailLo : Nat := 0x101090
/-- `ATC_Q_FAIL_HI`. -/
def atcQFailHi : Nat := 0x101094
/-- `ATC_QHOLD_LO`. -/
def atcQholdLo : Nat := 0x101098
/-- `ATC_QHOLD_HI`. -/
def atcQholdHi : Nat := 0x10109c
/-- `ATC_DISCARD_LO`. -/
def atcDiscardLo : Nat := 0x1010a0
/-- `ATC_DISCARD_HI`. -/
def atcDiscardHi : Nat := 0x1010a4
/-- `ATC_SPILL_STEPS`. -/
def atcSpillSteps : Nat := 0x1010a8
/-- `ATC_SPILL_MIB`. -/
def atcSpillMib : Nat := 0x1010ac
/-- `ATC_SPILL_WAIT`. -/
def atcSpillWait : Nat := 0x1010b0
/-- `ATC_CORE_STAT`. -/
def atcCoreStat : Nat := 0x102040
/-- `CWY_GCFG`. -/
def cwyGcfg : Nat := 0x200040
/-- `CWY_STEP_CFG`. -/
def cwyStepCfg : Nat := 0x200044
/-- `CWY_OPT_THR`. -/
def cwyOptThr : Nat := 0x200048
/-- `CWY_PORT_CFG`. -/
def cwyPortCfg : Nat := 0x200050
/-- `CWY_PORT_STAT`. -/
def cwyPortStat : Nat := 0x200054
/-- `CWY_LINK_CFG`. -/
def cwyLinkCfg : Nat := 0x200058
/-- `CWY_PEER_ID`. -/
def cwyPeerId : Nat := 0x200060
/-- `CWY_FLIT_TX_LO`. -/
def cwyFlitTxLo : Nat := 0x201040
/-- `CWY_FLIT_TX_HI`. -/
def cwyFlitTxHi : Nat := 0x201044
/-- `CWY_FLIT_RX_LO`. -/
def cwyFlitRxLo : Nat := 0x201048
/-- `CWY_FLIT_RX_HI`. -/
def cwyFlitRxHi : Nat := 0x20104c
/-- `CWY_MSG_TX_LO`. -/
def cwyMsgTxLo : Nat := 0x201050
/-- `CWY_MSG_TX_HI`. -/
def cwyMsgTxHi : Nat := 0x201054
/-- `CWY_MSG_RX_LO`. -/
def cwyMsgRxLo : Nat := 0x201058
/-- `CWY_MSG_RX_HI`. -/
def cwyMsgRxHi : Nat := 0x20105c
/-- `CWY_CRC_LO`. -/
def cwyCrcLo : Nat := 0x201060
/-- `CWY_CRC_HI`. -/
def cwyCrcHi : Nat := 0x201064
/-- `CWY_NAK_LO`. -/
def cwyNakLo : Nat := 0x201068
/-- `CWY_NAK_HI`. -/
def cwyNakHi : Nat := 0x20106c
/-- `CWY_REPLAY_LO`. -/
def cwyReplayLo : Nat := 0x201070
/-- `CWY_REPLAY_HI`. -/
def cwyReplayHi : Nat := 0x201074
/-- `CWY_FEC_CORR_LO`. -/
def cwyFecCorrLo : Nat := 0x201078
/-- `CWY_FEC_CORR_HI`. -/
def cwyFecCorrHi : Nat := 0x20107c
/-- `CWY_FEC_UE_LO`. -/
def cwyFecUeLo : Nat := 0x201080
/-- `CWY_FEC_UE_HI`. -/
def cwyFecUeHi : Nat := 0x201084
/-- `CWY_RETRAIN_LO`. -/
def cwyRetrainLo : Nat := 0x201088
/-- `CWY_RETRAIN_HI`. -/
def cwyRetrainHi : Nat := 0x20108c
/-- `CWY_FAILOVER_LO`. -/
def cwyFailoverLo : Nat := 0x201090
/-- `CWY_FAILOVER_HI`. -/
def cwyFailoverHi : Nat := 0x201094
/-- `CWY_DUP_LO`. -/
def cwyDupLo : Nat := 0x201098
/-- `CWY_DUP_HI`. -/
def cwyDupHi : Nat := 0x20109c
/-- `CWY_INTEGRITY_LO`. -/
def cwyIntegrityLo : Nat := 0x2010a0
/-- `CWY_INTEGRITY_HI`. -/
def cwyIntegrityHi : Nat := 0x2010a4
/-- `CWY_ATTACH_OK_LO`. -/
def cwyAttachOkLo : Nat := 0x2010a8
/-- `CWY_ATTACH_OK_HI`. -/
def cwyAttachOkHi : Nat := 0x2010ac
/-- `CWY_ATTACH_FAIL_LO`. -/
def cwyAttachFailLo : Nat := 0x2010b0
/-- `CWY_ATTACH_FAIL_HI`. -/
def cwyAttachFailHi : Nat := 0x2010b4
/-- `CWY_KA_EXPIRE_LO`. -/
def cwyKaExpireLo : Nat := 0x2010b8
/-- `CWY_KA_EXPIRE_HI`. -/
def cwyKaExpireHi : Nat := 0x2010bc
/-- `CWY_CREDIT_STALL_LO`. -/
def cwyCreditStallLo : Nat := 0x2010c0
/-- `CWY_CREDIT_STALL_HI`. -/
def cwyCreditStallHi : Nat := 0x2010c4
/-- `CWY_REFUSE_LO`. -/
def cwyRefuseLo : Nat := 0x2010c8
/-- `CWY_REFUSE_HI`. -/
def cwyRefuseHi : Nat := 0x2010cc
/-- `CWY_RING_BUSY_LO`. -/
def cwyRingBusyLo : Nat := 0x2010d0
/-- `CWY_RING_BUSY_HI`. -/
def cwyRingBusyHi : Nat := 0x2010d4
/-- `CWY_LANE_OPT_A`. -/
def cwyLaneOptA : Nat := 0x202040
/-- `CWY_LANE_OPT_B`. -/
def cwyLaneOptB : Nat := 0x202044
/-- `CWY_SESS_A`. -/
def cwySessA : Nat := 0x203040
/-- `CWY_SESS_ID_LO`. -/
def cwySessIdLo : Nat := 0x203044
/-- `CWY_SESS_ID_HI`. -/
def cwySessIdHi : Nat := 0x203048
/-- `CWY_SESS_PORTS`. -/
def cwySessPorts : Nat := 0x20304c
/-- `CWY_RING_CFG`. -/
def cwyRingCfg : Nat := 0x207040
/-- `CWY_RING_STAT`. -/
def cwyRingStat : Nat := 0x207044
/-- `CWY_RING_SLOT_A`. -/
def cwyRingSlotA : Nat := 0x207048
/-- `CWY_RING_SLOT_B`. -/
def cwyRingSlotB : Nat := 0x20704c
/-- `CWY_RING_ORIG_LO`. -/
def cwyRingOrigLo : Nat := 0x207100
/-- `CWY_RING_ORIG_HI`. -/
def cwyRingOrigHi : Nat := 0x207104
/-- `CWY_RING_MEMBER_LO`. -/
def cwyRingMemberLo : Nat := 0x207108
/-- `CWY_RING_MEMBER_HI`. -/
def cwyRingMemberHi : Nat := 0x20710c
/-- `CWY_RING_FAIL_LO`. -/
def cwyRingFailLo : Nat := 0x207110
/-- `CWY_RING_FAIL_HI`. -/
def cwyRingFailHi : Nat := 0x207114
/-- `CWY_RING_TIMEOUT_LO`. -/
def cwyRingTimeoutLo : Nat := 0x207118
/-- `CWY_RING_TIMEOUT_HI`. -/
def cwyRingTimeoutHi : Nat := 0x20711c
/-- `CWY_RING_MISROUTE_LO`. -/
def cwyRingMisrouteLo : Nat := 0x207120
/-- `CWY_RING_MISROUTE_HI`. -/
def cwyRingMisrouteHi : Nat := 0x207124
/-- `CWY_RING_LATE_LO`. -/
def cwyRingLateLo : Nat := 0x207128
/-- `CWY_RING_LATE_HI`. -/
def cwyRingLateHi : Nat := 0x20712c
/-- `CWY_RING_HOLD_LO`. -/
def cwyRingHoldLo : Nat := 0x207130
/-- `CWY_RING_HOLD_HI`. -/
def cwyRingHoldHi : Nat := 0x207134
/-- `CWY_RING_LAT_MAX`. -/
def cwyRingLatMax : Nat := 0x207138
/-- `HIF_LINK`. -/
def hifLink : Nat := 0x300040
/-- `HIF_VF_SEL`. -/
def hifVfSel : Nat := 0x300044
/-- `HIF_VF_BIND`. -/
def hifVfBind : Nat := 0x300048
/-- `HIF_T2_BASE_LO`. -/
def hifT2BaseLo : Nat := 0x30004c
/-- `HIF_T2_BASE_HI`. -/
def hifT2BaseHi : Nat := 0x300050
/-- `HIF_T2_SIZE`. -/
def hifT2Size : Nat := 0x300054
/-- `HIF_CTL`. -/
def hifCtl : Nat := 0x300058
/-- `HIF_RING_USE`. -/
def hifRingUse : Nat := 0x30005c
/-- `HIF_CMD_LO`. -/
def hifCmdLo : Nat := 0x301040
/-- `HIF_CMD_HI`. -/
def hifCmdHi : Nat := 0x301044
/-- `HIF_CMD_FAIL_LO`. -/
def hifCmdFailLo : Nat := 0x301048
/-- `HIF_CMD_FAIL_HI`. -/
def hifCmdFailHi : Nat := 0x30104c
/-- `HIF_T2_RD_BYTES_LO`. -/
def hifT2RdBytesLo : Nat := 0x301050
/-- `HIF_T2_RD_BYTES_HI`. -/
def hifT2RdBytesHi : Nat := 0x301054
/-- `HIF_T2_WR_BYTES_LO`. -/
def hifT2WrBytesLo : Nat := 0x301058
/-- `HIF_T2_WR_BYTES_HI`. -/
def hifT2WrBytesHi : Nat := 0x30105c
/-- `CXP_CFG`. -/
def cxpCfg : Nat := 0x310040
/-- `CXP_STAT`. -/
def cxpStat : Nat := 0x310044
/-- `CXP_CTL`. -/
def cxpCtl : Nat := 0x310048
/-- `CXP_SERIAL_LO`. -/
def cxpSerialLo : Nat := 0x31004c
/-- `CXP_SERIAL_HI`. -/
def cxpSerialHi : Nat := 0x310050
/-- `CXP_RD_BYTES_LO`. -/
def cxpRdBytesLo : Nat := 0x311040
/-- `CXP_RD_BYTES_HI`. -/
def cxpRdBytesHi : Nat := 0x311044
/-- `CXP_WR_BYTES_LO`. -/
def cxpWrBytesLo : Nat := 0x311048
/-- `CXP_WR_BYTES_HI`. -/
def cxpWrBytesHi : Nat := 0x31104c
/-- `CXP_POISON_LO`. -/
def cxpPoisonLo : Nat := 0x311050
/-- `CXP_POISON_HI`. -/
def cxpPoisonHi : Nat := 0x311054
/-- `CXP_TIMEOUT_LO`. -/
def cxpTimeoutLo : Nat := 0x311058
/-- `CXP_TIMEOUT_HI`. -/
def cxpTimeoutHi : Nat := 0x31105c
/-- `TST_FT_CFG`. -/
def tstFtCfg : Nat := 0x3f0040
/-- `TST_FT_STAT`. -/
def tstFtStat : Nat := 0x3f0044
/-- `TST_HIST_SEL`. -/
def tstHistSel : Nat := 0x3f0048
/-- `TST_HIST_STAT`. -/
def tstHistStat : Nat := 0x3f004c
/-- `TST_HIST_CTL`. -/
def tstHistCtl : Nat := 0x3f0050
/-- `TST_TRIG`. -/
def tstTrig : Nat := 0x3f0054
/-- `TST_FT_RUN_LO`. -/
def tstFtRunLo : Nat := 0x3f1040
/-- `TST_FT_RUN_HI`. -/
def tstFtRunHi : Nat := 0x3f1044
/-- `TST_FT_FAIL_LO`. -/
def tstFtFailLo : Nat := 0x3f1048
/-- `TST_FT_FAIL_HI`. -/
def tstFtFailHi : Nat := 0x3f104c
/-- `TST_RETEST_LO`. -/
def tstRetestLo : Nat := 0x3f1050
/-- `TST_RETEST_HI`. -/
def tstRetestHi : Nat := 0x3f1054
/-- `TST_ABANDON_LO`. -/
def tstAbandonLo : Nat := 0x3f1058
/-- `TST_ABANDON_HI`. -/
def tstAbandonHi : Nat := 0x3f105c
/-- `DOM_ID`. -/
def domId : Nat := 0x40
/-- `DOM_RINGS`. -/
def domRings : Nat := 0x44
/-- `DOM_BUSY`. -/
def domBusy : Nat := 0x48
/-- `DOM_MODE`. -/
def domMode : Nat := 0x4c
/-- `DOM_DBDROP_LO`. -/
def domDbdropLo : Nat := 0x50
/-- `DOM_DBDROP_HI`. -/
def domDbdropHi : Nat := 0x54
/-- `DOM_RING_SEL`. -/
def domRingSel : Nat := 0x60
/-- `DOM_SQ_BASE_LO`. -/
def domSqBaseLo : Nat := 0x64
/-- `DOM_SQ_BASE_HI`. -/
def domSqBaseHi : Nat := 0x68
/-- `DOM_CQ_BASE_LO`. -/
def domCqBaseLo : Nat := 0x6c
/-- `DOM_CQ_BASE_HI`. -/
def domCqBaseHi : Nat := 0x70
/-- `DOM_RING_CFG`. -/
def domRingCfg : Nat := 0x74
/-- `DOM_RING_IRQ`. -/
def domRingIrq : Nat := 0x78
/-- `DOM_RING_STAT`. -/
def domRingStat : Nat := 0x7c

end Reg

namespace Err
/-! Page (instance 0) and bit of each bit of `PG_ERR`. -/

/-- `GLB` page 2, bit 3 `HIST_FAIL`. -/
def glbHistFail : Nat × Nat := (0x2000, 3)
/-- `GLB` page 2, bit 2 `FIFO_OVF`. -/
def glbFifoOvf : Nat × Nat := (0x2000, 2)
/-- `GLB` page 2, bit 1 `HELD`. -/
def glbHeld : Nat × Nat := (0x2000, 1)
/-- `GLB` page 2, bit 0 `WARM`. -/
def glbWarm : Nat × Nat := (0x2000, 0)
/-- `CLK` page 0, bit 2 `RANGE`. -/
def clkRange : Nat × Nat := (0x10000, 2)
/-- `CLK` page 0, bit 1 `PHY_UNLOCK`. -/
def clkPhyUnlock : Nat × Nat := (0x10000, 1)
/-- `CLK` page 0, bit 0 `ROOT_UNLOCK`. -/
def clkRootUnlock : Nat × Nat := (0x10000, 0)
/-- `PWR` page 0, bit 3 `MONITOR`. -/
def pwrMonitor : Nat × Nat := (0x20000, 3)
/-- `PWR` page 0, bit 2 `SM_NUM`. -/
def pwrSmNum : Nat × Nat := (0x20000, 2)
/-- `PWR` page 0, bit 1 `PINMUX`. -/
def pwrPinmux : Nat × Nat := (0x20000, 1)
/-- `PWR` page 0, bit 0 `RANGE`. -/
def pwrRange : Nat × Nat := (0x20000, 0)
/-- `EVC` page 0, bit 2 `ROUTE`. -/
def evcRoute : Nat × Nat := (0x30000, 2)
/-- `EVC` page 0, bit 1 `EOI_EMPTY`. -/
def evcEoiEmpty : Nat × Nat := (0x30000, 1)
/-- `EVC` page 0, bit 0 `SWSET`. -/
def evcSwset : Nat × Nat := (0x30000, 0)
/-- `LVE` page 0, bit 4 `KS_UE`. -/
def lveKsUe : Nat × Nat := (0x40000, 4)
/-- `LVE` page 0, bit 3 `FUSE_MARGIN`. -/
def lveFuseMargin : Nat × Nat := (0x40000, 3)
/-- `LVE` page 0, bit 2 `MON_TRIP`. -/
def lveMonTrip : Nat × Nat := (0x40000, 2)
/-- `LVE` page 0, bit 1 `KEY_ABORT`. -/
def lveKeyAbort : Nat × Nat := (0x40000, 1)
/-- `LVE` page 0, bit 0 `WRAP_FAIL`. -/
def lveWrapFail : Nat × Nat := (0x40000, 0)
/-- `AUD` page 0, bit 1 `WRITE_FAIL`. -/
def audWriteFail : Nat × Nat := (0x50000, 1)
/-- `AUD` page 0, bit 0 `LOG_FULL`. -/
def audLogFull : Nat × Nat := (0x50000, 0)
/-- `XLT` page 0, bit 3 `PTR_FULL`. -/
def xltPtrFull : Nat × Nat := (0x60000, 3)
/-- `XLT` page 0, bit 2 `RANGE`. -/
def xltRange : Nat × Nat := (0x60000, 2)
/-- `XLT` page 0, bit 1 `DOM`. -/
def xltDom : Nat × Nat := (0x60000, 1)
/-- `XLT` page 0, bit 0 `WALK_UE`. -/
def xltWalkUe : Nat × Nat := (0x60000, 0)
/-- `XLT` page 1, bit 4 `APP_UE`. -/
def xltAppUe : Nat × Nat := (0x61000, 4)
/-- `XLT` page 1, bit 3 `NOSPACE`. -/
def xltAppNospace : Nat × Nat := (0x61000, 3)
/-- `XLT` page 1, bit 2 `POISON`. -/
def xltAppPoison : Nat × Nat := (0x61000, 2)
/-- `XLT` page 1, bit 1 `ORDER`. -/
def xltAppOrder : Nat × Nat := (0x61000, 1)
/-- `XLT` page 1, bit 0 `NONFIN`. -/
def xltAppNonfin : Nat × Nat := (0x61000, 0)
/-- `SLC` page 0, bit 4 `STAGE`. -/
def slcStage : Nat × Nat := (0x70000, 4)
/-- `SLC` page 0, bit 3 `QUOTA`. -/
def slcQuota : Nat × Nat := (0x70000, 3)
/-- `SLC` page 0, bit 2 `STALL_TIMEOUT`. -/
def slcStallTimeout : Nat × Nat := (0x70000, 2)
/-- `SLC` page 0, bit 1 `TIER_TIMEOUT`. -/
def slcTierTimeout : Nat × Nat := (0x70000, 1)
/-- `SLC` page 0, bit 0 `SRC_UE`. -/
def slcSrcUe : Nat × Nat := (0x70000, 0)
/-- `RBD` page 0, bit 2 `HOT_OVER`. -/
def rbdHotOver : Nat × Nat := (0x80000, 2)
/-- `RBD` page 0, bit 1 `BREAK_FULL`. -/
def rbdBreakFull : Nat × Nat := (0x80000, 1)
/-- `RBD` page 0, bit 0 `ROW_UE`. -/
def rbdRowUe : Nat × Nat := (0x80000, 0)
/-- `SDG` page 0, bit 1 `UE`. -/
def sdgUe : Nat × Nat := (0x90000, 1)
/-- `SDG` page 0, bit 0 `MALFORMED`. -/
def sdgMalformed : Nat × Nat := (0x90000, 0)
/-- `PEA` page 0, bit 8 `PARITY_FAIL`. -/
def peaParityFail : Nat × Nat := (0xa0000, 8)
/-- `PEA` page 0, bit 7 `UNMAPPED`. -/
def peaUnmapped : Nat × Nat := (0xa0000, 7)
/-- `PEA` page 0, bit 6 `GEOM`. -/
def peaGeom : Nat × Nat := (0xa0000, 6)
/-- `PEA` page 0, bit 5 `RANGE`. -/
def peaRange : Nat × Nat := (0xa0000, 5)
/-- `PEA` page 0, bit 4 `CKPT_LOST`. -/
def peaCkptLost : Nat × Nat := (0xa0000, 4)
/-- `PEA` page 0, bit 3 `CKPT_DIFF`. -/
def peaCkptDiff : Nat × Nat := (0xa0000, 3)
/-- `PEA` page 0, bit 2 `READ_UE`. -/
def peaReadUe : Nat × Nat := (0xa0000, 2)
/-- `PEA` page 0, bit 1 `ERASE_FAIL`. -/
def peaEraseFail : Nat × Nat := (0xa0000, 1)
/-- `PEA` page 0, bit 0 `PROG_FAIL`. -/
def peaProgFail : Nat × Nat := (0xa0000, 0)
/-- `ATC` page 0, bit 6 `CHECK`. -/
def atcCheck : Nat × Nat := (0x100000, 6)
/-- `ATC` page 0, bit 5 `RANGE`. -/
def atcRange : Nat × Nat := (0x100000, 5)
/-- `ATC` page 0, bit 4 `OVF`. -/
def atcOvf : Nat × Nat := (0x100000, 4)
/-- `ATC` page 0, bit 3 `RECOMP_FAIL`. -/
def atcRecompFail : Nat × Nat := (0x100000, 3)
/-- `ATC` page 0, bit 2 `LS_MISMATCH`. -/
def atcLsMismatch : Nat × Nat := (0x100000, 2)
/-- `ATC` page 0, bit 1 `SPILL_UE`. -/
def atcSpillUe : Nat × Nat := (0x100000, 1)
/-- `ATC` page 0, bit 0 `CS_UE`. -/
def atcCsUe : Nat × Nat := (0x100000, 0)
/-- `CWY` page 0, bit 7 `DISCOVER`. -/
def cwyDiscover : Nat × Nat := (0x200000, 7)
/-- `CWY` page 0, bit 6 `CREDIT_STALL`. -/
def cwyCreditStall : Nat × Nat := (0x200000, 6)
/-- `CWY` page 0, bit 5 `INTEGRITY`. -/
def cwyIntegrity : Nat × Nat := (0x200000, 5)
/-- `CWY` page 0, bit 4 `LASER_ALARM`. -/
def cwyLaserAlarm : Nat × Nat := (0x200000, 4)
/-- `CWY` page 0, bit 3 `FAILED`. -/
def cwyFailed : Nat × Nat := (0x200000, 3)
/-- `CWY` page 0, bit 2 `RETRAIN`. -/
def cwyRetrain : Nat × Nat := (0x200000, 2)
/-- `CWY` page 0, bit 1 `FEC_UE`. -/
def cwyFecUe : Nat × Nat := (0x200000, 1)
/-- `CWY` page 0, bit 0 `CRC`. -/
def cwyCrc : Nat × Nat := (0x200000, 0)
/-- `CWY` page 7, bit 4 `NEIGHBOUR`. -/
def cwyRingNeighbour : Nat × Nat := (0x207000, 4)
/-- `CWY` page 7, bit 3 `CHAIN_LOST`. -/
def cwyRingChainLost : Nat × Nat := (0x207000, 3)
/-- `CWY` page 7, bit 2 `LATE_PARTIAL`. -/
def cwyRingLatePartial : Nat × Nat := (0x207000, 2)
/-- `CWY` page 7, bit 1 `MISROUTE`. -/
def cwyRingMisroute : Nat × Nat := (0x207000, 1)
/-- `CWY` page 7, bit 0 `TIMEOUT`. -/
def cwyRingTimeout : Nat × Nat := (0x207000, 0)
/-- `HIF` page 0, bit 4 `RANGE`. -/
def hifRange : Nat × Nat := (0x300000, 4)
/-- `HIF` page 0, bit 3 `BIND`. -/
def hifBind : Nat × Nat := (0x300000, 3)
/-- `HIF` page 0, bit 2 `DMA`. -/
def hifDma : Nat × Nat := (0x300000, 2)
/-- `HIF` page 0, bit 1 `LINK_DOWN`. -/
def hifLinkDown : Nat × Nat := (0x300000, 1)
/-- `HIF` page 0, bit 0 `LINK_REFUSED`. -/
def hifLinkRefused : Nat × Nat := (0x300000, 0)
/-- `CXP` page 0, bit 5 `NOT_TYPE3`. -/
def cxpNotType3 : Nat × Nat := (0x310000, 5)
/-- `CXP` page 0, bit 4 `MLD`. -/
def cxpMld : Nat × Nat := (0x310000, 4)
/-- `CXP` page 0, bit 3 `SWITCH`. -/
def cxpSwitch : Nat × Nat := (0x310000, 3)
/-- `CXP` page 0, bit 2 `SERIAL`. -/
def cxpSerial : Nat × Nat := (0x310000, 2)
/-- `CXP` page 0, bit 1 `POISON`. -/
def cxpPoison : Nat × Nat := (0x310000, 1)
/-- `CXP` page 0, bit 0 `TIMEOUT`. -/
def cxpTimeout : Nat × Nat := (0x310000, 0)
/-- `DOM` page 0, bit 2 `DMA`. -/
def domDma : Nat × Nat := (0x0, 2)
/-- `DOM` page 0, bit 1 `RING_FAULT`. -/
def domRingFault : Nat × Nat := (0x0, 1)
/-- `DOM` page 0, bit 0 `RING_CFG`. -/
def domRingCfg : Nat × Nat := (0x0, 0)

end Err

namespace Evt
/-! Page (instance 0) and bit of each bit of `PG_EVT`. -/

/-- `GLB` page 2, bit 3 `PERMANENT`. -/
def glbPermanent : Nat × Nat := (0x2000, 3)
/-- `GLB` page 2, bit 2 `TEST_FAIL`. -/
def glbTestFail : Nat × Nat := (0x2000, 2)
/-- `GLB` page 2, bit 1 `WARM_DONE`. -/
def glbWarmDone : Nat × Nat := (0x2000, 1)
/-- `GLB` page 2, bit 0 `FAULT`. -/
def glbFault : Nat × Nat := (0x2000, 0)
/-- `CLK` page 0, bit 3 `CSYN_DONE`. -/
def clkCsynDone : Nat × Nat := (0x10000, 3)
/-- `CLK` page 0, bit 2 `HOLDOVER`. -/
def clkHoldover : Nat × Nat := (0x10000, 2)
/-- `CLK` page 0, bit 1 `PTP_LOCK`. -/
def clkPtpLock : Nat × Nat := (0x10000, 1)
/-- `CLK` page 0, bit 0 `ALARM`. -/
def clkAlarm : Nat × Nat := (0x10000, 0)
/-- `PWR` page 0, bit 5 `WOKE`. -/
def pwrWoke : Nat × Nat := (0x20000, 5)
/-- `PWR` page 0, bit 4 `ISLAND`. -/
def pwrIsland : Nat × Nat := (0x20000, 4)
/-- `PWR` page 0, bit 3 `REFUSING`. -/
def pwrRefusing : Nat × Nat := (0x20000, 3)
/-- `PWR` page 0, bit 2 `THERMAL`. -/
def pwrThermal : Nat × Nat := (0x20000, 2)
/-- `PWR` page 0, bit 1 `RESYNC`. -/
def pwrResync : Nat × Nat := (0x20000, 1)
/-- `PWR` page 0, bit 0 `DEFICIT`. -/
def pwrDeficit : Nat × Nat := (0x20000, 0)
/-- `EVC` page 0, bit 0 `STACK_FULL`. -/
def evcStackFull : Nat × Nat := (0x30000, 0)
/-- `LVE` page 0, bit 2 `SCRUB_DONE`. -/
def lveScrubDone : Nat × Nat := (0x40000, 2)
/-- `LVE` page 0, bit 1 `LC_CHANGE`. -/
def lveLcChange : Nat × Nat := (0x40000, 1)
/-- `LVE` page 0, bit 0 `DOM_STATE`. -/
def lveDomState : Nat × Nat := (0x40000, 0)
/-- `AUD` page 0, bit 2 `LOW_SPACE`. -/
def audLowSpace : Nat × Nat := (0x50000, 2)
/-- `AUD` page 0, bit 1 `SEALED`. -/
def audSealed : Nat × Nat := (0x50000, 1)
/-- `AUD` page 0, bit 0 `FULL`. -/
def audFull : Nat × Nat := (0x50000, 0)
/-- `XLT` page 0, bit 1 `GEN_WRAP`. -/
def xltGenWrap : Nat × Nat := (0x60000, 1)
/-- `XLT` page 0, bit 0 `PTR_LOW`. -/
def xltPtrLow : Nat × Nat := (0x60000, 0)
/-- `XLT` page 1, bit 2 `IDX_BREAK`. -/
def xltAppIdxBreak : Nat × Nat := (0x61000, 2)
/-- `XLT` page 1, bit 1 `RESCALE_HOLD`. -/
def xltAppRescaleHold : Nat × Nat := (0x61000, 1)
/-- `XLT` page 1, bit 0 `SAT`. -/
def xltAppSat : Nat × Nat := (0x61000, 0)
/-- `SLC` page 0, bit 2 `CONFLICT`. -/
def slcConflict : Nat × Nat := (0x70000, 2)
/-- `SLC` page 0, bit 1 `AUTO_PREEMPT`. -/
def slcAutoPreempt : Nat × Nat := (0x70000, 1)
/-- `SLC` page 0, bit 0 `T0_LOW`. -/
def slcT0Low : Nat × Nat := (0x70000, 0)
/-- `RBD` page 0, bit 4 `REPAIR_DONE`. -/
def rbdRepairDone : Nat × Nat := (0x80000, 4)
/-- `RBD` page 0, bit 3 `SWEEP_DONE`. -/
def rbdSweepDone : Nat × Nat := (0x80000, 3)
/-- `RBD` page 0, bit 2 `ROW_FULL`. -/
def rbdRowFull : Nat × Nat := (0x80000, 2)
/-- `RBD` page 0, bit 1 `FILL_HIGH`. -/
def rbdFillHigh : Nat × Nat := (0x80000, 1)
/-- `RBD` page 0, bit 0 `THROTTLE`. -/
def rbdThrottle : Nat × Nat := (0x80000, 0)
/-- `SDG` page 0, bit 1 `BYPASS`. -/
def sdgBypass : Nat × Nat := (0x90000, 1)
/-- `SDG` page 0, bit 0 `QUEUE_HIGH`. -/
def sdgQueueHigh : Nat × Nat := (0x90000, 0)
/-- `PEA` page 0, bit 7 `RECOVERED`. -/
def peaRecovered : Nat × Nat := (0xa0000, 7)
/-- `PEA` page 0, bit 6 `LIFE_STEP`. -/
def peaLifeStep : Nat × Nat := (0xa0000, 6)
/-- `PEA` page 0, bit 5 `READONLY`. -/
def peaReadonly : Nat × Nat := (0xa0000, 5)
/-- `PEA` page 0, bit 4 `GC_HARD`. -/
def peaGcHard : Nat × Nat := (0xa0000, 4)
/-- `PEA` page 0, bit 3 `CKPT_NORM`. -/
def peaCkptNorm : Nat × Nat := (0xa0000, 3)
/-- `PEA` page 0, bit 2 `RETENTION`. -/
def peaRetention : Nat × Nat := (0xa0000, 2)
/-- `PEA` page 0, bit 1 `RETRY_RISE`. -/
def peaRetryRise : Nat × Nat := (0xa0000, 1)
/-- `PEA` page 0, bit 0 `SPARE_LOW`. -/
def peaSpareLow : Nat × Nat := (0xa0000, 0)
/-- `ATC` page 0, bit 3 `LS_SWITCHED`. -/
def atcLsSwitched : Nat × Nat := (0x100000, 3)
/-- `ATC` page 0, bit 2 `SPILL_HIGH`. -/
def atcSpillHigh : Nat × Nat := (0x100000, 2)
/-- `ATC` page 0, bit 1 `SPILL_WAIT`. -/
def atcSpillWait : Nat × Nat := (0x100000, 1)
/-- `ATC` page 0, bit 0 `LS_MISMATCH`. -/
def atcLsMismatch : Nat × Nat := (0x100000, 0)
/-- `CWY` page 0, bit 6 `SM_REFUSED`. -/
def cwySmRefused : Nat × Nat := (0x200000, 6)
/-- `CWY` page 0, bit 5 `WAKE`. -/
def cwyWake : Nat × Nat := (0x200000, 5)
/-- `CWY` page 0, bit 4 `SESSION_DOWN`. -/
def cwySessionDown : Nat × Nat := (0x200000, 4)
/-- `CWY` page 0, bit 3 `SESSION_UP`. -/
def cwySessionUp : Nat × Nat := (0x200000, 3)
/-- `CWY` page 0, bit 2 `LASER_WARN`. -/
def cwyLaserWarn : Nat × Nat := (0x200000, 2)
/-- `CWY` page 0, bit 1 `FAILOVER`. -/
def cwyFailover : Nat × Nat := (0x200000, 1)
/-- `CWY` page 0, bit 0 `READY`. -/
def cwyReady : Nat × Nat := (0x200000, 0)
/-- `CWY` page 7, bit 2 `SLOW`. -/
def cwyRingSlow : Nat × Nat := (0x207000, 2)
/-- `CWY` page 7, bit 1 `DEGRADED`. -/
def cwyRingDegraded : Nat × Nat := (0x207000, 1)
/-- `CWY` page 7, bit 0 `READY`. -/
def cwyRingReady : Nat × Nat := (0x207000, 0)
/-- `HIF` page 0, bit 1 `LINK_DOWN`. -/
def hifLinkDown : Nat × Nat := (0x300000, 1)
/-- `HIF` page 0, bit 0 `LINK_UP`. -/
def hifLinkUp : Nat × Nat := (0x300000, 0)
/-- `CXP` page 0, bit 3 `CAP_OVER`. -/
def cxpCapOver : Nat × Nat := (0x310000, 3)
/-- `CXP` page 0, bit 2 `HELD`. -/
def cxpHeld : Nat × Nat := (0x310000, 2)
/-- `CXP` page 0, bit 1 `DOWN`. -/
def cxpDown : Nat × Nat := (0x310000, 1)
/-- `CXP` page 0, bit 0 `READY`. -/
def cxpReady : Nat × Nat := (0x310000, 0)

end Evt

/-- The block-specific bits of `PG_ERR` of a page (R34: the others are reserved). -/
def errBits (block page : Nat) : Nat :=
  match block, page with
  | 0x1, 2 => 0xf
  | 0x2, 0 => 0x7
  | 0x3, 0 => 0xf
  | 0x4, 0 => 0x7
  | 0x5, 0 => 0x1f
  | 0x6, 0 => 0x3
  | 0x7, 0 => 0xf
  | 0x7, 1 => 0x1f
  | 0x8, 0 => 0x1f
  | 0x9, 0 => 0x7
  | 0xa, 0 => 0x3
  | 0xb, 0 => 0x1ff
  | 0x10, 0 => 0x7f
  | 0x20, 0 => 0xff
  | 0x20, 7 => 0x1f
  | 0x30, 0 => 0x1f
  | 0x31, 0 => 0x3f
  | 0x40, 0 => 0x7
  | _, _ => 0

/-- The bits of `PG_EVT` of a page. -/
def evtBits (block page : Nat) : Nat :=
  match block, page with
  | 0x1, 2 => 0xf
  | 0x2, 0 => 0xf
  | 0x3, 0 => 0x3f
  | 0x4, 0 => 0x1
  | 0x5, 0 => 0x7
  | 0x6, 0 => 0x7
  | 0x7, 0 => 0x3
  | 0x7, 1 => 0x7
  | 0x8, 0 => 0x7
  | 0x9, 0 => 0x1f
  | 0xa, 0 => 0x3
  | 0xb, 0 => 0xff
  | 0x10, 0 => 0xf
  | 0x20, 0 => 0x7f
  | 0x20, 7 => 0x7
  | 0x30, 0 => 0x3
  | 0x31, 0 => 0xf
  | _, _ => 0

end Sys2Proof.Machine
end

