-- ==== Sys2Proof/Config.lean ====
section
/-! DEFINITION. Config.lean: what the manual leaves open. Every constant here is opaque: nothing can evaluate it, so a
claim about the model holds whatever its value is (log entries 5, 6 and 7). -/

namespace Sys2Proof.Config

/-- The index that `SEQ_CREATE` chooses among the free ones (R45), for the n-th choice. -/
opaque seqIndex : Nat → Nat

/-- The number that the device gives a new block descriptor (R62). -/
opaque bdNumber : Nat → Nat

/-- The number that the device gives a new object (R186). -/
opaque objNumber : Nat → Nat

/-- The `LIST_ID` that the device gives a hash list (R157). -/
opaque listId : Nat → Nat

/-- The identifier that the device gives a Causeway session (R247). -/
opaque sessionId : Nat → Nat

/-- A nonce or key share that the device draws (R247, R311), as a list of bytes of the length asked for. -/
opaque randomBytes : Nat → Nat → List Byte

/-- A value that the manual leaves unstated, for the n-th use. -/
opaque freeWord : Nat → Word

/-- `exp32` (R98) fixes a bound and not a value: the value that every PH7840 returns. -/
opaque exp32 : F32 → F32

/-- The result of an operation on an infinity that is no real number: a merge of partials may overflow, and R101 states no
value there. -/
opaque invalidF32 : F32 → F32 → F32

/-- The shared secrets of a handshake (R249): the 32 bytes of ML-KEM-1024 and the 48 of ECDH P-384, from the draw of the
device's own key shares and the body that carries the peer's. -/
opaque sharedSecret : Nat → List Byte → List Byte

/-- AES-256-GCM decryption under a key, of a text with its additional data (R311); `none` where the tag does not verify. -/
opaque openSealed : List Byte → List Byte → List Byte → Option (List Byte)

/-- ECDSA P-384 signing with one of the device's keys (R276, R311, R331). -/
opaque sign : Nat → List Byte → List Byte

/-- The 64-bit device serial number, held in fuses (GLB_SERIAL). -/
opaque serial : DWord

/-- The silicon stepping, held in fuses: `STEP_MAJ` and `STEP_MIN` (GLB_DEVID). -/
opaque stepping : BitVec 8

/-- The fused offset of a die's core voltage code, 0 to 4 (R386): the machine takes it modulo 5. -/
opaque vidOffset : Nat → Nat

/-- What stands on `GPIO`[15:12] at a time, from the trace or from Toluo's firmware (R394, R396). -/
opaque gpioHi : Nat → Nat

/-- The HBM stack that holds a byte address of T0: the manual spreads addresses over the stacks and gives no map. -/
opaque stackOf : Nat → Nat

/-- The HBM row that holds a byte address of T0, by a number. -/
opaque rowOf : Nat → Nat

/-- The root secret RS, held in fuses (Table 14.5). -/
opaque rootSecret : List Byte

/-- The heartbeat period that the device states for an SPDM session, in s (R276). -/
opaque heartbeat : Nat

/-- The certificate chain of slot 0: whole, or the identity certificate alone (R310, Table 14.16). -/
opaque certChain : Bool → List Byte

/-- Spare blocks that a format leaves, given `OP_PCT` and `META_GIB`: the manual divides the over-provisioned share and gives no
figure. -/
opaque spareAtFormat : Nat → Nat → Nat

/-- The die temperature at a program, °C, for the n-th program. -/
opaque nandTemp : Nat → Int

/-- The NAND tables of the calibration set (R202, R203): the first threshold offset by block age in s, temperature difference in °C
and P/E count; the retention limit in s by P/E count and program temperature; the read-disturb limit by P/E count. -/
opaque nandOffset : Nat → Int → Nat → Nat
@[inherit_doc nandOffset] opaque nandRetention : Nat → Int → Nat
@[inherit_doc nandOffset] opaque nandDisturb : Nat → Nat

/-- Whether a write of the management flash fails its read-back (Table 15.1): a physical finding that no row brings. -/
opaque flashWriteFails : Nat → Bool

end Sys2Proof.Config
end

