-- ==== Sys2Proof/Machine/Assoc.lean ====
section
/-! DEFINITION. Machine/Assoc.lean: finite maps as plain lists of (key, value) pairs, the form every table of the
state takes. A key is listed at most once because `set` replaces in place. -/

namespace Sys2Proof.Machine

/-- A finite map from keys to values. -/
abbrev Assoc (κ α : Type) := List (κ × α)

variable {κ α : Type} [DecidableEq κ]

/-- The value held for a key. -/
def Assoc.get? (m : Assoc κ α) (k : κ) : Option α :=
  match m with
  | [] => none
  | (k', v) :: rest => if k' = k then some v else Assoc.get? rest k

/-- The value held for a key, or a default. -/
def Assoc.getD (m : Assoc κ α) (k : κ) (d : α) : α := (Assoc.get? m k).getD d

/-- Whether a key is held. -/
def Assoc.has (m : Assoc κ α) (k : κ) : Bool := (Assoc.get? m k).isSome

/-- Hold a value for a key, in place of the value held before. -/
def Assoc.set (m : Assoc κ α) (k : κ) (v : α) : Assoc κ α :=
  match m with
  | [] => [(k, v)]
  | (k', v') :: rest => if k' = k then (k, v) :: rest else (k', v') :: Assoc.set rest k v

/-- Hold nothing for a key. -/
def Assoc.erase (m : Assoc κ α) (k : κ) : Assoc κ α := m.filter fun p => !decide (p.1 = k)

/-- Change the value held for a key; nothing happens where none is held. -/
def Assoc.modify (m : Assoc κ α) (k : κ) (f : α → α) : Assoc κ α :=
  match m with
  | [] => []
  | (k', v') :: rest => if k' = k then (k', f v') :: rest else (k', v') :: Assoc.modify rest k f

/-- The keys held. -/
def Assoc.keys (m : Assoc κ α) : List κ := m.map Prod.fst

/-- The values held. -/
def Assoc.values (m : Assoc κ α) : List α := m.map Prod.snd

/-- The pairs whose value satisfies a test. -/
def Assoc.where (m : Assoc κ α) (p : κ → α → Bool) : Assoc κ α := m.filter fun x => p x.1 x.2

/-- Apply a change to every value held. -/
def Assoc.mapVals (m : Assoc κ α) (f : κ → α → α) : Assoc κ α := m.map fun x => (x.1, f x.1 x.2)

/-- The least natural number below `bound` that is not in `used`, if there is one. -/
def lowestFree (used : List Nat) (start bound : Nat) : Option Nat :=
  ((List.range (used.length + 1)).map (start + ·)).find? fun n => n < bound && !used.contains n

/-- A choice the manual leaves to the device: the free value where it is a legal choice, otherwise the lowest legal
one. -/
def chooseFree (used : List Nat) (start bound : Nat) (free : Nat) : Option Nat :=
  if start ≤ free ∧ free < bound ∧ !used.contains free then some free else lowestFree used start bound

/-- The first element satisfying a test, and the list without it. -/
def takeFirst {β : Type} (p : β → Bool) : List β → Option (β × List β)
  | [] => none
  | x :: xs => if p x then some (x, xs) else (takeFirst p xs).map fun r => (r.1, x :: r.2)

/-- Sum of natural numbers. -/
def sumNat (l : List Nat) : Nat := l.foldl (· + ·) 0

/-- Quotient rounded up. -/
def ceilDiv (a b : Nat) : Nat := if b = 0 then 0 else (a + b - 1) / b

end Sys2Proof.Machine
end

