-- ==== Sys2Proof/Machine/Hashing.lean ====
section
/-! DEFINITION. Machine/Hashing.lean: the checksums and the keyed hash that the manual names and that are published
standards: CRC-32, CRC-32C, SipHash-2-4, SHA-384 with HMAC and HKDF, and the little-endian byte order of R9. -/

namespace Sys2Proof.Machine

/-- The bytes of a natural number, least significant first (R9). -/
def leBytes : Nat → Nat → List Byte
  | 0, _ => []
  | n + 1, v => BitVec.ofNat 8 v :: leBytes n (v / 256)

/-- The number that bytes spell, least significant first (R9). -/
def ofLe : List Byte → Nat
  | [] => 0
  | b :: bs => b.toNat + 256 * ofLe bs

/-- The `n`-byte little-endian field at an offset of a record. -/
def field (bs : List Byte) (off n : Nat) : Nat := ofLe ((bs.drop off).take n)

/-- u8 at an offset. -/
def u8 (bs : List Byte) (off : Nat) : Nat := field bs off 1
/-- u16 at an offset. -/
def u16 (bs : List Byte) (off : Nat) : Nat := field bs off 2
/-- u32 at an offset. -/
def u32 (bs : List Byte) (off : Nat) : Nat := field bs off 4
/-- u64 at an offset. -/
def u64 (bs : List Byte) (off : Nat) : Nat := field bs off 8

/-- Whether every byte from `off` on, `n` of them, is 0. -/
def zeros (bs : List Byte) (off n : Nat) : Bool := ((bs.drop off).take n).all (· == 0)

/-- A reflected CRC of 32 bits with initial value and final inversion of all ones. -/
def crcReflected (poly : Word) (bs : List Byte) : Word :=
  let bit := fun (c : Word) (_ : Nat) => if c.getLsbD 0 then (c >>> 1) ^^^ poly else c >>> 1
  let byte := fun (c : Word) (b : Byte) => (List.range 8).foldl bit (c ^^^ b.zeroExtend 32)
  ~~~ (bs.foldl byte 0xFFFFFFFF#32)

/-- CRC-32 (IEEE 802.3). -/
def crc32 (bs : List Byte) : Word := crcReflected 0xEDB88320#32 bs

/-- CRC-32C (Castagnoli), used by Sluice (R339). -/
def crc32c (bs : List Byte) : Word := crcReflected 0x82F63B78#32 bs

/-- The state of SipHash: four 64-bit words. -/
structure SipState where
  v0 : DWord
  v1 : DWord
  v2 : DWord
  v3 : DWord

/-- One SipRound. -/
def sipRound (s : SipState) : SipState :=
  let v0 := s.v0 + s.v1
  let v1 := s.v1.rotateLeft 13 ^^^ v0
  let v0 := v0.rotateLeft 32
  let v2 := s.v2 + s.v3
  let v3 := s.v3.rotateLeft 16 ^^^ v2
  let v0 := v0 + v3
  let v3 := v3.rotateLeft 21 ^^^ v0
  let v2 := v2 + v1
  let v1 := v1.rotateLeft 17 ^^^ v2
  let v2 := v2.rotateLeft 32
  ⟨v0, v1, v2, v3⟩

/-- The message words of SipHash: 8 bytes each, the last one carrying the length in its top byte. -/
def sipWords (len : Nat) : Nat → List Byte → List DWord
  | 0, _ => []
  | fuel + 1, bs =>
    if bs.length < 8 then [BitVec.ofNat 64 (ofLe bs + (len % 256) * 2 ^ 56)]
    else BitVec.ofNat 64 (ofLe (bs.take 8)) :: sipWords len fuel (bs.drop 8)

/-- SipHash-2-4 under a 128-bit key given as its two 64-bit words. -/
def sipHash (k0 k1 : DWord) (msg : List Byte) : DWord :=
  let s : SipState := ⟨k0 ^^^ 0x736f6d6570736575#64, k1 ^^^ 0x646f72616e646f6d#64,
    k0 ^^^ 0x6c7967656e657261#64, k1 ^^^ 0x7465646279746573#64⟩
  let absorb := fun (s : SipState) (m : DWord) =>
    let s := sipRound (sipRound ⟨s.v0, s.v1, s.v2, s.v3 ^^^ m⟩)
    SipState.mk (s.v0 ^^^ m) s.v1 s.v2 s.v3
  let s := (sipWords msg.length (msg.length + 1) msg).foldl absorb s
  let s := sipRound (sipRound (sipRound (sipRound ⟨s.v0, s.v1, s.v2 ^^^ 0xFF#64, s.v3⟩)))
  s.v0 ^^^ s.v1 ^^^ s.v2 ^^^ s.v3

/-! ### SHA-384, HMAC and HKDF (FIPS 180-4, RFC 2104 and RFC 5869, which the manual names; log entry 6) -/

/-- The eight working variables of SHA-384. -/
structure ShaState where
  a : DWord
  b : DWord
  c : DWord
  d : DWord
  e : DWord
  f : DWord
  g : DWord
  h : DWord

/-- The round constants: the first 64 bits of the fractional parts of the cube roots of the first 80 primes. -/
def shaK : List DWord :=
  [
   0x428a2f98d728ae22#64, 0x7137449123ef65cd#64, 0xb5c0fbcfec4d3b2f#64, 0xe9b5dba58189dbbc#64,
   0x3956c25bf348b538#64, 0x59f111f1b605d019#64, 0x923f82a4af194f9b#64, 0xab1c5ed5da6d8118#64,
   0xd807aa98a3030242#64, 0x12835b0145706fbe#64, 0x243185be4ee4b28c#64, 0x550c7dc3d5ffb4e2#64,
   0x72be5d74f27b896f#64, 0x80deb1fe3b1696b1#64, 0x9bdc06a725c71235#64, 0xc19bf174cf692694#64] ++ [
   0xe49b69c19ef14ad2#64, 0xefbe4786384f25e3#64, 0x0fc19dc68b8cd5b5#64, 0x240ca1cc77ac9c65#64,
   0x2de92c6f592b0275#64, 0x4a7484aa6ea6e483#64, 0x5cb0a9dcbd41fbd4#64, 0x76f988da831153b5#64,
   0x983e5152ee66dfab#64, 0xa831c66d2db43210#64, 0xb00327c898fb213f#64, 0xbf597fc7beef0ee4#64,
   0xc6e00bf33da88fc2#64, 0xd5a79147930aa725#64, 0x06ca6351e003826f#64, 0x142929670a0e6e70#64] ++ [
   0x27b70a8546d22ffc#64, 0x2e1b21385c26c926#64, 0x4d2c6dfc5ac42aed#64, 0x53380d139d95b3df#64,
   0x650a73548baf63de#64, 0x766a0abb3c77b2a8#64, 0x81c2c92e47edaee6#64, 0x92722c851482353b#64,
   0xa2bfe8a14cf10364#64, 0xa81a664bbc423001#64, 0xc24b8b70d0f89791#64, 0xc76c51a30654be30#64,
   0xd192e819d6ef5218#64, 0xd69906245565a910#64, 0xf40e35855771202a#64, 0x106aa07032bbd1b8#64] ++ [
   0x19a4c116b8d2d0c8#64, 0x1e376c085141ab53#64, 0x2748774cdf8eeb99#64, 0x34b0bcb5e19b48a8#64,
   0x391c0cb3c5c95a63#64, 0x4ed8aa4ae3418acb#64, 0x5b9cca4f7763e373#64, 0x682e6ff3d6b2b8a3#64,
   0x748f82ee5defb2fc#64, 0x78a5636f43172f60#64, 0x84c87814a1f0ab72#64, 0x8cc702081a6439ec#64,
   0x90befffa23631e28#64, 0xa4506cebde82bde9#64, 0xbef9a3f7b2c67915#64, 0xc67178f2e372532b#64] ++ [
   0xca273eceea26619c#64, 0xd186b8c721c0c207#64, 0xeada7dd6cde0eb1e#64, 0xf57d4f7fee6ed178#64,
   0x06f067aa72176fba#64, 0x0a637dc5a2c898a6#64, 0x113f9804bef90dae#64, 0x1b710b35131c471b#64,
   0x28db77f523047d84#64, 0x32caab7b40c72493#64, 0x3c9ebe0a15c9bebc#64, 0x431d67c49c100d4c#64,
   0x4cc5d4becb3e42b6#64, 0x597f299cfc657e2a#64, 0x5fcb6fab3ad6faec#64, 0x6c44198c4a475817#64]

/-- The initial hash value of SHA-384. -/
def shaInit : ShaState :=
  ⟨0xcbbb9d5dc1059ed8#64, 0x629a292a367cd507#64, 0x9159015a3070dd17#64, 0x152fecd8f70e5939#64,
   0x67332667ffc00b31#64, 0x8eb44a8768581511#64, 0xdb0c2e0d64f98fa7#64, 0x47b5481dbefa4fa4#64⟩

/-- One round with its constant and message word. -/
def shaRound (s : ShaState) (k w : DWord) : ShaState :=
  let s1 := s.e.rotateRight 14 ^^^ s.e.rotateRight 18 ^^^ s.e.rotateRight 41
  let t1 := s.h + s1 + ((s.e &&& s.f) ^^^ (~~~ s.e &&& s.g)) + k + w
  let s0 := s.a.rotateRight 28 ^^^ s.a.rotateRight 34 ^^^ s.a.rotateRight 39
  let t2 := s0 + ((s.a &&& s.b) ^^^ (s.a &&& s.c) ^^^ (s.b &&& s.c))
  ⟨t1 + t2, s.a, s.b, s.c, s.d + t1, s.e, s.f, s.g⟩

/-- The message word 16 places on, from the window of the last sixteen. -/
def shaNext (w : List DWord) : DWord :=
  let x := w.getD 14 0
  let y := w.getD 1 0
  (x.rotateRight 19 ^^^ x.rotateRight 61 ^^^ (x >>> 6)) + w.getD 9 0
    + (y.rotateRight 1 ^^^ y.rotateRight 8 ^^^ (y >>> 7)) + w.getD 0 0

/-- The rounds of one block: the constants to come, the window of message words, and the variables. -/
def shaRounds : List DWord → List DWord → ShaState → ShaState
  | [], _, s => s
  | k :: ks, w, s => shaRounds ks (w.drop 1 ++ [shaNext w]) (shaRound s k (w.getD 0 0))

/-- The number that bytes spell, most significant first. -/
def ofBe (bs : List Byte) : Nat := ofLe bs.reverse

/-- The bytes of a number, most significant first. -/
def beBytes (n v : Nat) : List Byte := (leBytes n v).reverse

/-- One block of 128 bytes. -/
def shaBlock (s : ShaState) (b : List Byte) : ShaState :=
  let t := shaRounds shaK ((List.range 16).map fun i => BitVec.ofNat 64 (ofBe ((b.drop (8 * i)).take 8))) s
  ⟨s.a + t.a, s.b + t.b, s.c + t.c, s.d + t.d, s.e + t.e, s.f + t.f, s.g + t.g, s.h + t.h⟩

/-- The blocks of a padded message, `n` of them. -/
def shaBlocks : Nat → List Byte → ShaState → ShaState
  | 0, _, s => s
  | n + 1, b, s => shaBlocks n (b.drop 128) (shaBlock s (b.take 128))

/-- SHA-384. -/
def sha384 (m : List Byte) : List Byte :=
  let n := (m.length + 17 + 127) / 128
  let p := m ++ 0x80#8 :: List.replicate (128 * n - m.length - 17) 0#8 ++ beBytes 16 (8 * m.length)
  let s := shaBlocks n p shaInit
  [s.a, s.b, s.c, s.d, s.e, s.f].flatMap fun w => beBytes 8 w.toNat

/-- HMAC-SHA-384. -/
def hmac (key m : List Byte) : List Byte :=
  let k := if 128 < key.length then sha384 key else key
  let k := k ++ List.replicate (128 - k.length) 0#8
  sha384 (k.map (· ^^^ 0x5c#8) ++ sha384 (k.map (· ^^^ 0x36#8) ++ m))

/-- HKDF-Extract. -/
def hkdfExtract (salt ikm : List Byte) : List Byte := hmac salt ikm

/-- The blocks of HKDF-Expand: the number of the next, the block before it, and how many are left. -/
def hkdfBlocks (prk info : List Byte) : Nat → Nat → List Byte → List Byte
  | _, 0, _ => []
  | i, n + 1, last =>
    let t := hmac prk (last ++ info ++ [BitVec.ofNat 8 i])
    t ++ hkdfBlocks prk info (i + 1) n t

/-- HKDF-Expand to a length in bytes. -/
def hkdfExpand (prk info : List Byte) (len : Nat) : List Byte := (hkdfBlocks prk info 1 ((len + 47) / 48) []).take len

/-- Forty-eight bytes of a hash or of zeros. -/
def fit48 (b : List Byte) : List Byte := (b ++ List.replicate 48 0#8).take 48

/-- An ECDSA P-384 signature of the device: *r* and *s*, 96 bytes (R247, R276, R331). -/
def signature (key : Nat) (m : List Byte) : List Byte := (Config.sign key m ++ List.replicate 96 0#8).take 96

/-- The nonce (32 bytes), ML-KEM-1024 key or ciphertext (1,568) and P-384 point (97) of a handshake body (Table 11.13). -/
def keyShares (n : Nat) : List Byte := (Config.randomBytes n 1697 ++ List.replicate 1697 0#8).take 1697

/-- A nonce of 32 bytes. -/
def nonce32 (n : Nat) : List Byte := (Config.randomBytes n 32 ++ List.replicate 32 0#8).take 32

/-- The bytes of an ASCII label. -/
def ascii (t : String) : List Byte := t.toList.map fun c => BitVec.ofNat 8 c.toNat

/-- A MAC under a key that R249 derives from the PRK and a label. -/
def finMac (prk : List Byte) (label : String) (m : List Byte) : List Byte := hmac (hkdfExpand prk (ascii label) 48) m

end Sys2Proof.Machine
end

