-- ==== Sys2Proof/Machine/Records.lean ====
section
/-! DEFINITION. Machine/Records.lean: the records that commands carry and that units hold: status codes, the origins
of register accesses, the names of commands in flight and of frames. -/

namespace Sys2Proof.Machine

/-- The status codes of Table 0.5 (R13). -/
inductive Status where
  | ok | busyRetry | denied | unavailable | conflict | poisoned | noSpace | format | tooLarge | absent | timeout
  | stale | logFull | order | internal
  deriving DecidableEq, Repr

/-- The 8-bit code of a status (Table 0.5). -/
def Status.code : Status → Nat
  | .ok => 0x00 | .busyRetry => 0x01 | .denied => 0x02 | .unavailable => 0x03 | .conflict => 0x04 | .poisoned => 0x05
  | .noSpace => 0x06 | .format => 0x07 | .tooLarge => 0x08 | .absent => 0x09 | .timeout => 0x0A | .stale => 0x0B
  | .logFull => 0x0C | .order => 0x0D | .internal => 0x0F

/-- The status a received code stands for; a reserved code is treated as `E_INTERNAL` (R13). -/
def Status.ofCode (c : Nat) : Status :=
  match c with
  | 0x00 => .ok | 0x01 => .busyRetry | 0x02 => .denied | 0x03 => .unavailable | 0x04 => .conflict | 0x05 => .poisoned
  | 0x06 => .noSpace | 0x07 => .format | 0x08 => .tooLarge | 0x09 => .absent | 0x0A => .timeout | 0x0B => .stale
  | 0x0C => .logFull | 0x0D => .order | _ => .internal

/-- The origins of register accesses (R28). -/
inductive Origin where
  | pf0 | vf (n : Nat) | toluo | jtag
  deriving DecidableEq, Repr

/-- The variants of Table 0.1 (R1). -/
inductive Variant where
  | a8x4 | a8x2 | a4x2 | c8x4 | a8x4n
  deriving DecidableEq, Repr

/-- `PG_STAT.STATE` of an instance. -/
inductive PageState where
  | reset | ready | draining | off | warm | safe
  deriving DecidableEq, Repr

/-- A command fetched from a Carulo ring: the function (0 PF0, n + 1 VF n), its ring pair, and the serial number of the
fetch since the ring was enabled. -/
structure CmdRef where
  func : Nat
  ring : Nat
  num : Nat
  deriving DecidableEq, Repr

/-- What a read of host memory gave: the bytes, or a poisoned TLP, an Unsupported Request or a Completer Abort (R259). -/
inductive HostRead where
  | bytes (bs : List Byte)
  | failed
  deriving DecidableEq, Repr

/-- A Yilloth image in a slot: `VERSION` and `TEST` of its header, whether its header, signature and body verify under
the key that `TEST` names (R373), and its measurement. -/
structure Image where
  version : Nat
  test : Bool
  good : Bool
  meas : List Byte
  deriving DecidableEq, Repr

/-- Who waits for the outcome of a request. -/
inductive Requester where
  /-- A command of a Carulo ring. -/
  | ring (q : CmdRef)
  /-- A Causeway message: session, port of arrival, `MSN`, `MTYPE`, whether it carries `REPORT`, and `LAYER`, `HANDLE` and
  `POS` of a `KV_APPEND` (Table 11.9). -/
  | cwy (sess port msn mtype : Nat) (report : Bool) (layer handle pos : Nat)
  /-- A Carulo command that the operator runs inside an SPDM session (R311), which a ring command may carry. -/
  | op (session : Nat) (via : Option CmdRef)
  /-- A Levee request in an SPDM session: its `OP` and domain (R311). -/
  | lve (session op domain : Nat) (via : Option CmdRef)
  /-- The device itself (a reinstatement, an automatic pre-emption). -/
  | device
  deriving DecidableEq, Repr

/-- The result of a command: the fields of Table 12.3 that the command decides. -/
structure Cpl where
  status : Status := .ok
  result : Nat := 0
  detail : Nat := 0
  retryUs : Nat := 0
  /-- The output record written to `OUT_ADDR`, or carried in the reply. -/
  out : List Byte := []
  deriving DecidableEq, Repr

/-- A completion as posted in a CQ (Table 12.3). -/
structure Completion where
  result : Nat
  detail : Nat
  sqHead : Nat
  cid : Nat
  status : Status
  phase : Bool
  retryUs : Nat
  deriving DecidableEq, Repr

/-- The home of a frame (R15, R16): a tier and a tier address in units of 512 bytes. -/
structure Home where
  tier : Nat
  addr : Nat
  deriving DecidableEq, Repr

/-- The range whose table a translation walks (R45). -/
inductive TableRoot where
  | seq (idx : Nat)
  | obj (num : Nat)
  | bds
  deriving DecidableEq, Repr

/-- The name of a frame: an unsealed page of a sequence, a slot of a block descriptor, a page of an object, a translation
table (level 1 to 4 and the index path above it), or the page of a block descriptor. -/
inductive FrameId where
  | page (seq layer hg page : Nat)
  | slot (bd slot : Nat)
  | obj (obj page : Nat)
  | table (root : TableRoot) (level pre : Nat)
  | bdPage (bd : Nat)
  deriving DecidableEq, Repr

/-- The work classes of Table 13.1. -/
inductive WorkClass where
  | key | att | move | gc | scrub | test
  deriving DecidableEq, Repr

/-- The stall causes of R24. -/
inductive StallCause where
  | t1Late | t2Late | t3Late | t3ReadRetry | stagingFull | translationMiss
  deriving DecidableEq, Repr

/-- The privileged units of R341. -/
inductive PrivUnit where
  | xlt | lve | evc
  deriving DecidableEq, Repr

end Sys2Proof.Machine
end

