-- ==== Sys2Proof/Machine/XltUnit.lean ====
section
/-! DEFINITION. Machine/XltUnit.lean: the state of the translation unit and the append unit: models, sequences, page
table entries, block descriptors, metadata frames and held records (chapters 3 and 4). -/

namespace Sys2Proof.Machine

/-- A model registration (Table 3.3), with the device's copy of the outlier table (R79). -/
structure Model where
  layers : Nat
  kvHeads : Nat
  qHeads : Nat
  headDim : Nat
  format : Nat
  maxHg : Nat
  outlierAddr : Nat := 0
  /-- One 4-byte record for each layer and KV head, in that order. -/
  outliers : List Byte := []
  deriving DecidableEq, Repr

/-- A page table entry (Table 3.7). `share` is the descriptor form: BD number and slot. -/
structure Pte where
  domain : Nat
  share : Option (Nat × Nat) := none
  poison : Bool := false
  moving : Bool := false
  format : Nat
  fc : Nat
  gen : Nat := 0
  home : Home
  fill : Nat := 0
  /-- `FP8_HEAD` when the page's first position was appended (R77). -/
  head : Nat := 1
  deriving DecidableEq, Repr

/-- A frame descriptor (Table 3.8). `indexed` is held once for the block, in `Bd`. -/
structure Fd where
  domain : Nat
  poison : Bool := false
  moving : Bool := false
  format : Nat
  fc : Nat
  valid : Bool := true
  gen : Nat := 0
  home : Home
  refs : Nat := 1
  deriving DecidableEq, Repr

/-- A block descriptor (R62): the header and one frame descriptor for each slot that has sealed. -/
structure Bd where
  block : Nat
  tag : Nat
  domain : Nat
  slots : Nat
  sealedCount : Nat := 0
  root : Bool := false
  hash : DWord := 0
  check : Word := 0
  pred : DWord := 0
  /-- The chained hash has been computed, that is, layer 0 has sealed (R87). -/
  hashed : Bool := false
  /-- A valid Reedbed entry holds this block (Table 3.8, INDEXED). -/
  indexed : Bool := false
  fds : Assoc Nat Fd := []
  deriving DecidableEq, Repr

/-- The states of Table 3.6. -/
inductive SeqState where
  | idle | active | preempted | poisoned | draining | retired
  deriving DecidableEq, Repr

/-- The binding of a sequence to a ring slot as one stripe (R123). -/
structure Stripe where
  slot : Nat
  rsid : Nat
  k : Nat
  log : Nat
  deriving DecidableEq, Repr

/-- An append record as the append unit holds it (Table 4.4). -/
structure AppendRec where
  handle : Nat
  layer : Nat
  count : Nat
  pos : Nat
  tokens : List Word
  k : List Bf16
  v : List Bf16
  deriving DecidableEq, Repr

/-- Why a record that passed the checks is held (R83). -/
inductive HoldCause where
  /-- The tail is outside T0 or moving, or the sequence is pre-empted: a stall of R182. -/
  | stall (cause : StallCause)
  /-- A rescale waits for a pin (R78). -/
  | rescale
  /-- Behind an earlier held record of its layer. -/
  | behind
  /-- T0 space for a new tail waits for a pre-emption by class (R168). -/
  | space
  /-- Its dispatch waits for credits (R290). -/
  | credit
  deriving DecidableEq, Repr

/-- A held append record (R83), in the order in which the records passed the checks. -/
structure HeldRec where
  req : Requester
  rc : AppendRec
  cause : HoldCause
  /-- `DEV_TIME` at which the hold began. -/
  since : Nat
  /-- Accepted before a pre-emption in progress, which waits for it (R179, steps 2 and 3). -/
  before : Bool := false
  deriving DecidableEq, Repr

/-- A request that waits unchecked behind a held `SEQ_TRUNCATE` (R58): an append record, a query record or a ring query
record, as received. -/
inductive Waiting where
  | append (req : Requester) (body : List Byte)
  | query (req : Requester) (body : List Byte) (arrived : Nat)
  | truncate (req : Requester) (pos : Nat)
  | ringQuery (req : Requester) (slot : Nat) (body : List Byte) (arrived : Nat)
  deriving DecidableEq, Repr

/-- A sequence descriptor. A retired index keeps its `TAG` (R54). -/
structure Seq where
  tag : Nat
  st : SeqState
  domain : Nat
  model : Nat
  determ : Bool := false
  base : Nat := 0
  /-- The expected position of each layer that differs from the base (R81). -/
  next : Assoc Nat Nat := []
  /-- One above the highest accepted position of each layer (R21, R83), where it differs from the base. -/
  acc : Assoc Nat Nat := []
  /-- Entries of (layer, head group, page). -/
  ptes : Assoc (Nat × Nat × Nat) Pte := []
  /-- Token IDs of layer 0's open block (R87). -/
  tokens : List Word := []
  /-- The running hash (R87). -/
  run : DWord := 0
  /-- The running hash at the base has arrived; false in a stripe above 0 until its CHAIN record comes (R127). -/
  runKnown : Bool := true
  /-- Blocks whose layer-0 page sealed before the running hash was known, with their token IDs (R127). -/
  unhashed : List (Nat × List Word) := []
  /-- Hand-off is broken from this block on (R88). -/
  noIdx : Option Nat := none
  held : List HeldRec := []
  /-- The held `SEQ_TRUNCATE` and what arrived behind it (R58). -/
  trunc : Option (Requester × Nat) := none
  waiting : List Waiting := []
  /-- The `SEQ_RETIRE` commands that complete at retirement (R57). -/
  retirers : List Requester := []
  stripe : Option Stripe := none
  pclass : Nat := 0
  /-- The requested range of `PREFIX_SET_RANGE` (R143). -/
  range : Option (Nat × Nat) := none
  /-- Pages given up by a truncation that wait for a pin (R66). -/
  unmapping : Assoc (Nat × Nat × Nat) Pte := []
  /-- `DEV_TIME` of the last activity (R181). -/
  lastActive : Nat := 0
  /-- Work in flight (R56): accepted work of the sequence that has not yet completed. -/
  inFlight : Nat := 0
  deriving DecidableEq, Repr

/-- A metadata frame (R48): a translation table or the page of a block descriptor. -/
structure MetaFrame where
  domain : Nat
  fc : Nat
  gen : Nat := 0
  poison : Bool := false
  moving : Bool := false
  home : Home
  deriving DecidableEq, Repr

/-- An object (R186). -/
structure Obj where
  tag : Nat
  live : Bool := true
  domain : Nat
  fc : Nat
  pages : Nat
  sedge : Bool
  isSealed : Bool := false
  releasing : Bool := false
  map : Assoc Nat Pte := []
  deriving DecidableEq, Repr

/-- The last refused append record of a unit (`XLT_APP_LAST`). -/
structure LastRef where
  domain : Nat
  layer : Nat
  code : Nat
  count : Nat
  pos : Nat
  deriving DecidableEq, Repr

/-- A completed block on its way to Reedbed (R88, R146): the sequence that sealed it and its requested range. -/
structure Handoff where
  bd : Nat
  seq : Nat
  lo : Nat
  hi : Nat
  since : Nat
  deriving DecidableEq, Repr

/-- The translation and append units' state. -/
structure Xlt where
  /-- Whether `XLT_PTR_BASE` has been written since the last device reset (R47). -/
  placed : Bool := false
  /-- Registrations by (domain, `MODEL_TAG`). -/
  models : Assoc (Nat × Nat) Model := []
  seqs : Assoc Nat Seq := []
  bds : Assoc Nat Bd := []
  objs : Assoc Nat Obj := []
  metas : Assoc FrameId MetaFrame := []
  /-- Hand-offs that wait for the update engine, in order of arrival (R88). -/
  handoffs : List Handoff := []
  /-- Intent records set and not yet cleared (R344): number of words each names. A command changes every word that its record
names, so none stands between commands. -/
  intents : List Nat := []
  /-- The domain of the last record of each append unit (Table 14.9). -/
  lastDom : Assoc Nat Nat := []
  /-- `XLT_APP_LAST` of each unit. -/
  lastRef : Assoc Nat LastRef := []
  deriving DecidableEq, Repr

end Sys2Proof.Machine
end

