-- ==== Sys2Proof/Machine/SlcUnit.lean ====
section
/-! DEFINITION. Machine/SlcUnit.lean: the state of Sluice: moves, placement commands, pre-emptions, stalls and the
staging buffer (chapter 8). -/

namespace Sys2Proof.Machine

/-- What the medium of a lower tier, or T0, does to the blocks of a read, each named by its page in the request (0 for a move) and
its index in the page: an uncorrectable error (R174), or bytes other than those stored, as they decrypt (R221). -/
structure MediaRead where
  bad : List (Nat × Nat) := []
  altered : List ((Nat × Nat) × List Byte) := []
  deriving DecidableEq, Repr

/-- The states of Table 8.2. -/
inductive MoveState where
  | queued | read | write | commit
  deriving DecidableEq, Repr

/-- A chained move (R177): its ticket, its destination tier and the frame requests that joined it. -/
structure Chain where
  ticket : Nat
  tier : Nat
  reqs : List Nat := []
  deriving DecidableEq, Repr

/-- A move (R173, R174). -/
structure Move where
  domain : Nat
  ticket : Nat
  frame : FrameId
  /-- Whether the request is a promotion; a demotion waits for pins (Table 8.2). -/
  promo : Bool
  tier : Nat
  /-- Source and destination, and the bytes of the frame's extent. -/
  src : Home
  dst : Home
  bytes : Nat
  st : MoveState := .queued
  /-- `EVICT` was carried by the request that started it (R169). -/
  evict : Bool := false
  /-- The frame requests that end with it. -/
  reqs : List Nat := []
  chain : Option Chain := none
  /-- The frame was freed during the move (R65). -/
  freed : Bool := false
  /-- The bytes in staging, plain and unpacked (R175, R339); until the read ends, the sectors that Peat has read. -/
  staged : List Byte := []
  /-- Peat could not correct the source: every beat carries poison (R202, R333). -/
  flagged : Bool := false
  /-- The read and write phases have been repeated once (R339). -/
  retried : Bool := false
  /-- Staging lines held (R185). -/
  lines : List Nat := []
  /-- `DEV_TIME` at which the present phase began. -/
  since : Nat := 0
  /-- Peat is retrying the source read (Table 8.6, row 3). -/
  t3Retry : Bool := false
  /-- Admission: charged to the shaper (R176). -/
  admitted : Bool := false
  /-- Order of acceptance, for the service order of R176. -/
  seqNo : Nat := 0
  deriving DecidableEq, Repr

/-- The outcome of one frame request (R171). -/
inductive ReqEnd where
  | pending
  | satisfied
  | failed (s : Status) (ticket : Nat)
  deriving DecidableEq, Repr

/-- A frame request in a placement command. -/
structure FrameReq where
  id : Nat
  frame : FrameId
  tier : Nat
  promo : Bool := false
  evict : Bool := false
  /-- The request's command has scope SEQ (Table 8.3, row 7). -/
  scopeSeq : Bool := false
  res : ReqEnd := .pending
  deriving DecidableEq, Repr

/-- What a placement command in progress is for (R172). -/
inductive PlaceKind where
  | place
  | preempt (seq : Nat) (auto : Bool)
  | restore (seq : Nat)
  deriving DecidableEq, Repr

/-- A placement command in progress. -/
structure Placement where
  id : Nat
  req : Requester
  domain : Nat
  kind : PlaceKind
  reqs : List FrameReq
  /-- Others that complete with it (R57, R179). -/
  joined : List Requester := []
  /-- The demotions of a pre-emption have been issued (R179, step 4). -/
  started : Bool := true
  /-- T2 extents reserved for a pre-emption and not yet used, in bytes each (R179, step 1). -/
  reserve : List (Home × Nat) := []
  deriving DecidableEq, Repr

/-- What stalls: a step, the first held record of a sequence and layer, or a `PAGE_READ`. -/
inductive Staller where
  | step (id : Nat)
  | held (seq layer : Nat)
  | read (id : Nat)
  deriving DecidableEq, Repr

/-- A `PAGE_READ` being delivered (R242, R187). -/
structure PageRead where
  id : Nat
  /-- What the media do to the blocks that it reads. -/
  media : MediaRead := {}
  req : Requester
  domain : Nat
  /-- The sequence index, or the object number. -/
  obj : Bool
  target : Nat
  layer : Nat
  hg : Nat
  page : Nat
  count : Nat
  tag : Nat
  /-- Next page of the request to deliver. -/
  next : Nat := 0
  /-- Admitted cost (Table 13.1). -/
  cost : Nat := 0
  pins : List FrameId := []
  deriving DecidableEq, Repr

/-- An `OBJ_WRITE` whose pages have not all been written: its number among the moves, its frames and those not written. -/
structure ObjWrite where
  id : Nat
  req : Requester
  domain : Nat
  obj : Nat
  count : Nat
  /-- Blocks that wait for a free line of the Sedge queue: place, index in the frame, data (R224). -/
  blocks : List (Home × Nat × List Byte) := []
  deriving DecidableEq, Repr

/-- A stall that runs (R182): who stalls, on what, under which cause, since when. -/
structure Stall where
  who : Staller
  domain : Nat
  cause : StallCause
  frame : Option FrameId
  since : Nat
  /-- It began while the sequence was pre-empted, or about to be: the restore releases it in order of arrival (R180). -/
  pre : Bool := false
  deriving DecidableEq, Repr

/-- An action that waits for a pin to be released or for work in flight to complete (R406). -/
inductive Wait where
  /-- The commit of a demotion (Table 8.2). -/
  | commit (move : Nat)
  /-- The unmapping of a page (Table 3.10). -/
  | unmap (seq : Nat) (key : Nat × Nat × Nat)
  /-- The first held record of a layer, held for a rescale (R78). -/
  | rescale (seq layer : Nat)
  /-- A held `SEQ_TRUNCATE` (R58). -/
  | truncate (seq : Nat)
  /-- The unmapping of a `DRAINING` sequence (R57). -/
  | retire (seq : Nat)
  /-- Step 4 of a `SEQ_PREEMPT` (R179). -/
  | preempt (seq : Nat)
  deriving DecidableEq, Repr

/-- What such an action waits for. -/
inductive WaitEvent where
  | pin (f : FrameId)
  | work (seq : Nat)
  deriving DecidableEq, Repr

/-- A command that waits for the page-table region (R168): requester, opcode, operand area, input. -/
structure SpaceCmd where
  req : Requester
  opcode : Nat
  ops : List Byte
  inp : List Byte
  deriving DecidableEq, Repr

/-- The state of Sluice. -/
structure Slc where
  /-- Allocated extents: (home, bytes, owning domain). -/
  extents : List (Home × Nat × Nat) := []
  /-- The port at which the next T1 extent is tried first (R166). -/
  t1Next : Nat := 0
  /-- T0 quota of each domain, in GiB (R167). -/
  quota : Assoc Nat Nat := []
  /-- The next ticket of each domain (R173). -/
  tickets : Assoc Nat Nat := []
  moves : List Move := []
  places : List Placement := []
  /-- Placement commands that wait on their rings (R172): requester, opcode, operand area. -/
  queue : List (Requester × Nat × List Byte) := []
  /-- `SLC_WAIT` commands: requester, domain, ticket. -/
  waiters : List (Requester × Nat × Nat) := []
  stalls : List Stall := []
  /-- Stalls begun and nanoseconds stalled of each (domain, cause index) (R184). -/
  domStalls : Assoc (Nat × Nat) (Nat × Nat) := []
  /-- The domain that each 4 KiB staging line last held, where it is not zero (R185). -/
  lines : Assoc Nat Nat := []
  nextReq : Nat := 0
  nextPlace : Nat := 0
  nextMove : Nat := 0
  /-- The domain of the last queued move taken in round-robin (R176). -/
  rrDomain : Nat := 0
  /-- Requests for T0 space that wait for a pre-emption by class (R168): frame request numbers. -/
  spaceWait : List Nat := []
  /-- Chained promotions into T0 that wait for space, each with its frame and domain (R168, R177). -/
  chainWait : List (FrameId × Nat × Chain) := []
  /-- Commands that wait for space in the page-table region, in order of arrival (R168). -/
  spaceCmds : List SpaceCmd := []
  /-- Actions that wait for a pin or for work in flight, in the order in which they began to wait (R406). -/
  waits : List Wait := []
  /-- `PAGE_READ`s in delivery. -/
  pageReads : List PageRead := []
  objWrites : List ObjWrite := []
  nextRead : Nat := 0
  deriving DecidableEq, Repr

end Sys2Proof.Machine
end

