-- ==== Sys2Proof/Machine/AttUnit.lean ====
section
/-! DEFINITION. Machine/AttUnit.lean: the state of the attention engine: steps, tasks, partials, cores and the spill
pool (chapter 5). -/

namespace Sys2Proof.Machine

/-- A partial of one query row (before R91): running maximum, sum relative to it, unnormalised output. -/
structure Partial where
  m : F32
  l : F32
  o : List F32
  deriving DecidableEq, Repr

/-- A query record (Table 5.3), parsed. -/
structure Query where
  handle : Nat
  layer : Nat
  /-- `MODE` bits [1:0]: 1 latency, 0 throughput. -/
  latency : Bool
  outFp32 : Bool
  retPart : Bool
  ctx : Nat
  window : Nat
  sinks : Nat
  scale : F32
  stepTag : Nat
  q : List Bf16
  deriving DecidableEq, Repr

/-- One entry of a ring partial: the stripes `[lo, hi)` it covers and a partial of each query head (Table 6.5, R133). -/
structure PartEntry where
  lo : Nat
  hi : Nat
  rows : List Partial
  deriving DecidableEq, Repr

/-- The part of a step in a ring step (R129 to R134). -/
structure RingRole where
  slot : Nat
  rsid : Nat
  /-- This device received the `Q_SUBMIT` and answers its partner; a lower member answers its successor. -/
  origin : Bool
  /-- `RING_STEP`, assigned by the originator. -/
  ringStep : Nat
  /-- Own stripe, low stripe and tail stripe. -/
  k : Nat
  low : Nat
  tail : Nat
  /-- The record was forwarded to the predecessor, and when. -/
  forwarded : Option Nat := none
  /-- The record received from the predecessor. -/
  received : Option (Status × List PartEntry) := none
  /-- This member's own part, once computed or failed. -/
  own : Option (Status × List Partial) := none
  deriving DecidableEq, Repr

/-- The progress of a step. -/
inductive StepPhase where
  /-- Held until the append of position C − 1 is accepted (R21, R131). -/
  | held
  /-- Admitted, in its domain's pending queue of class ATTN (R290). -/
  | pending
  /-- Stalled on a frame outside T0 (R24). -/
  | stalled
  /-- Waiting for spill pool space (R103). -/
  | spillWait
  /-- Cut into tasks. -/
  | running
  deriving DecidableEq, Repr

/-- Where a task is. -/
inductive TaskState where
  | waiting
  | running (core : Nat)
  | suspended (core : Nat)
  | ended
  deriving DecidableEq, Repr

/-- A task: one slice, one range of query heads of one step, on one core (before R91). -/
structure Task where
  id : Nat
  step : Nat
  domain : Nat
  slice : Nat
  /-- Query heads of the task, in order. -/
  heads : List Nat
  latency : Bool
  /-- The bucket of R104, for a throughput task. -/
  bucket : Nat
  st : TaskState := .waiting
  /-- `DEV_TIME` at which it entered its queue. -/
  since : Nat
  /-- It has been run again once (R117, R120, R338). -/
  rerun : Bool := false
  /-- The core, or cluster in lockstep, that a second run avoids. -/
  avoid : Option Nat := none
  /-- Its pair differed in lockstep: it runs again in another cluster where one is in service (R117). -/
  avoidCluster : Bool := false
  /-- Scores that the task sends to the spill pool (R102). -/
  spill : Nat := 0
  deriving DecidableEq, Repr

/-- A step: the work of one `Q_SUBMIT`, or of one `RING_QUERY` on a ring member. -/
structure Step where
  id : Nat
  req : Requester
  domain : Nat
  seq : Nat
  q : Query
  determ : Bool
  /-- `DEV_TIME` of arrival. -/
  arrived : Nat
  phase : StepPhase
  /-- Estimated cost in credits (Table 13.1). -/
  cost : Nat
  /-- Frames pinned from translation to the end of the last pass (R23). -/
  pins : List FrameId := []
  /-- The slices of kept pages, in position order (R105, R107, R112). -/
  slices : List (List Nat) := []
  spillNeed : Nat := 0
  spillOwned : Nat := 0
  /-- Partials by (slice, query head). -/
  parts : Assoc (Nat × Nat) Partial := []
  /-- A task failed; the step completes with this code once its running tasks have ended. -/
  fail : Option Status := none
  /-- Whether the step ran in lockstep (R95, FLAGS bit 3). -/
  lockstep : Bool := false
  ring : Option RingRole := none
  /-- Accepted before a pre-emption in progress of its sequence, which waits for it (R179, steps 2 and 3). -/
  before : Bool := false
  deriving DecidableEq, Repr

/-- What a core does (ATC_CORE_STAT); that it is under test (R352) or out of service (R356) is in the state of fault
handling. -/
inductive CoreState where
  | idle | throughput | latency | off
  deriving DecidableEq, Repr

/-- One attention core. -/
structure Core where
  st : CoreState := .off
  /-- The domain whose state the T partitions hold; none when they are scrubbed. -/
  tDomain : Option Nat := none
  /-- The running task, and the throughput task suspended under it (R108). -/
  task : Option Nat := none
  suspended : Option Nat := none
  deriving DecidableEq, Repr

/-- The state of the attention engine. -/
structure Att where
  /-- Cores 0 to 255 whose state is not that of an unpowered core; core `16 c + n` is core n of cluster c. -/
  cores : Assoc Nat Core := []
  steps : List Step := []
  /-- Tasks waiting, running or suspended. -/
  tasks : List Task := []
  nextStep : Nat := 0
  nextTask : Nat := 0
  lsActive : Bool := false
  lsPending : Bool := false
  /-- Spill pool space owned by steps, in bytes. -/
  spillUsed : Nat := 0
  deriving DecidableEq, Repr

end Sys2Proof.Machine
end

