-- ==== Sys2Proof/Machine/PwrUnit.lean ====
section
/-! DEFINITION. Machine/PwrUnit.lean: the state of the budget scheduler, the islands, `STANDBY`, the clocks and PTP
(chapter 13, R18, R19, R279, R280). -/

namespace Sys2Proof.Machine

/-- The pending work of one item (Table 13.1). -/
inductive Work where
  | step (id : Nat)
  | move (seqNo : Nat)
  /-- A key operation, by its number. -/
  | key (num : Nat)
  /-- The signature of an audit segment, by the segment's number. -/
  | sign (num : Nat)
  /-- A handshake of a port whose `ACCEPT` the device has received and not yet verified. -/
  | phase (port hs : Nat)
  /-- A prefix lookup, by the number of its search. -/
  | search (num : Nat)
  /-- A `PAGE_READ`, by its number. -/
  | read (id : Nat)
  /-- An append record: sequence, layer and first position. -/
  | record (seq layer pos : Nat)
  /-- An `OBJ_WRITE`, by who sent it. -/
  | write (r : Requester)
  deriving DecidableEq, Repr

/-- One item in a pending queue of the scheduler. -/
structure Item where
  domain : Nat
  cls : WorkClass
  /-- A latency-mode step or prefix lookup: it may draw on the reserve (R289). -/
  latency : Bool := false
  cost : Nat
  /-- Estimated duration in ns. -/
  dur : Nat
  /-- Parts of a split item that have been dispatched, and parts in all (R291). -/
  done : Nat := 0
  parts : Nat := 1
  arrived : Nat
  /-- The epoch in which the last part was dispatched. -/
  lastEpoch : Option Nat := none
  work : Work
  deriving DecidableEq, Repr

/-- The states of an island (R298). -/
inductive Island where
  | off | on | draining
  /-- Powering up; reads `OFF`. -/
  | starting
  /-- A power-up that a request for `OFF` ended; reads `OFF`. -/
  | stopping
  deriving DecidableEq, Repr

/-- `PWR_STANDBY.STATE`. -/
inductive Standby where
  | running | quiescing | standby | waking
  deriving DecidableEq, Repr

/-- The shaper and admission state of one domain (R292, R294, R295). -/
structure DomBudget where
  rate : Nat := 0
  depth : Nat := 0
  weight : Nat := 1
  /-- Values written, which take effect at the next refill. -/
  nextRate : Nat := 0
  nextDepth : Nat := 0
  nextWeight : Nat := 1
  bucket : Int := 0
  backlog : Nat := 0
  refusing : Bool := false
  /-- Credits of work completed in this and in the previous epoch (R295). -/
  doneNow : Nat := 0
  donePrev : Nat := 0
  deriving DecidableEq, Repr

/-- The clock of one logic die (R18, R303). -/
structure Csyn where
  now : Nat := 10
  target : Nat := 10
  pending : Bool := false
  deriving DecidableEq, Repr

/-- The state of the budget scheduler and of the clocks. -/
structure Pwr where
  epoch : Nat := 0
  start : Nat := 0
  planned : Nat := 0
  /-- The epoch length in effect (R282). -/
  len : Nat := 250
  /-- The length with which the previous epoch was planned: the window around the start of this one uses it (R282). -/
  lenPrev : Nat := 250
  /-- Envelope in effect in this epoch, W (R287). -/
  watts : Nat := 700
  /-- Length of the previous epoch in ns, and what was granted and spent in it (R295, R304). -/
  prevLen : Nat := 250000
  prevGrant : Int := 0
  prevSpent : Int := 0
  /-- The grant, signed because a large deficit may exceed it (R287). -/
  grant : Int := 0
  spent : Int := 0
  /-- Residual booked in this epoch, and the mean residual rate R̂ of the previous epoch in millicredits per µs. -/
  residual : Int := 0
  rhat : Int := 0
  /-- Charges made since the last reading of the power monitor (R288). -/
  charged : Nat := 0
  reserveSpent : Nat := 0
  /-- Credits received by GC, SCRUB and TEST in this epoch (R290). -/
  classSpent : Assoc Nat Nat := []
  /-- The start of the running epoch was a boundary reached by time, and no mark has been matched to it (R284). -/
  startByTime : Bool := false
  startMarked : Bool := true
  /-- The window around the start of the running epoch is still open (R285). -/
  windowOpen : Bool := false
  run : Nat := 0
  resync : Bool := false
  smLast : Int := 0
  /-- `SRC_TIME` of the last `STEP_MARK` accepted: recorded, and used by nothing (Table 11.12). -/
  srcTime : Nat := 0
  /-- Whether an epoch runs: from start-up on (R371). -/
  live : Bool := false
  items : List Item := []
  /-- The epoch in which each key operation under way was dispatched, by its number (R291). -/
  keyEpochs : Assoc Nat Nat := []
  doms : Assoc Nat DomBudget := []
  /-- Round-robin position and turns taken, for steps 3 and 4 of R290. -/
  rrDom : Nat := 0
  rrTurns : Nat := 0
  /-- Thermal allowance A as a quotient, the hottest sensor in tenths of a °C and its index (R289). -/
  aNum : Nat := 1
  aDen : Nat := 1
  hot : Int := 0
  hotIdx : Nat := 0
  /-- `DEV_TIME` since which A has been below 1, or at 1 (R304). -/
  belowSince : Option Nat := none
  fullSince : Option Nat := none
  /-- Histograms by (kind, class, queue, domain, bin) (R297). -/
  hist : Assoc (Nat × Nat × Nat × Nat × Nat) Nat := []
  /-- Samples taken of every queue, and the count at which a histogram was last zeroed: bin 0 holds the samples that fell in
  no other bin. -/
  samples : Nat := 0
  histBase : Assoc (Nat × Nat × Nat × Nat) Nat := []
  islands : Assoc Nat Island := []
  standby : Standby := .running
  result : Nat := 0
  /-- The source that started the exit under way. -/
  wakeSrc : Nat := 0
  /-- Islands that were `OFF` before entry to `STANDBY` (R301). -/
  offBefore : List Nat := []
  csyn0 : Csyn := {}
  csyn1 : Csyn := {}
  -- PTP (R279, R280)
  lock : Bool := false
  holdover : Bool := false
  tOff : Option Int := none
  offset : Int := 0
  /-- Consecutive Sync messages with an offset estimate below 1 µs. -/
  goodSyncs : Nat := 0
  lastSync : Nat := 0
  /-- Rate correction in units of 0.001 ppm. -/
  rate : Int := 0
  /-- Accumulated correction, in units of 10⁻⁹ ns, not yet applied to `DEV_TIME` (R19). -/
  phase : Int := 0
  deriving DecidableEq, Repr

end Sys2Proof.Machine
end

