-- ==== Sys2Proof/Machine/HifUnit.lean ====
section
/-! DEFINITION. Machine/HifUnit.lean: the state of the host interface, the Carulo rings, the CXL ports and the management
endpoints (chapter 12). -/

namespace Sys2Proof.Machine

/-- The states of Table 12.5. -/
inductive RingState where
  | disabled | active | draining | error
  deriving DecidableEq, Repr

/-- A command in flight on a ring (R267). -/
structure InFlight where
  num : Nat
  cid : Nat
  opcode : Nat
  fence : Bool
  inLen : Nat
  inAddr : Nat
  /-- The operand area: bytes 16 to 63 of the entry (Table 12.2). -/
  ops : List Byte
  /-- SQ head after the fetch (Table 12.3). -/
  sqHead : Nat
  /-- `DEV_TIME` of the fetch, at which the command arrives (R267). -/
  arrived : Nat
  started : Bool := false
  /-- Its ring was reset under it: its output and completion are discarded (Table 12.5). -/
  discard : Bool := false
  deriving DecidableEq, Repr

/-- One ring pair. -/
structure Ring where
  st : RingState := .disabled
  cause : Nat := 0
  sqBase : Nat := 0
  cqBase : Nat := 0
  sqLog2 : Nat := 4
  cqLog2 : Nat := 4
  vector : Nat := 0
  /-- DOM_RING_IRQ: completions per interrupt and µs of the timer. -/
  irqCount : Nat := 1
  irqUs : Nat := 0
  sqTail : Nat := 0
  sqHead : Nat := 0
  /-- The CQ head that the run-time last wrote, and the slot of the next completion. -/
  cqHead : Nat := 0
  cqTail : Nat := 0
  phase : Bool := true
  /-- Completions posted and not yet consumed, which the CQ head moves past. -/
  unread : Nat := 0
  inflight : List InFlight := []
  /-- Completions posted since the last interrupt, and the time of the oldest (R265). -/
  unsignalled : Nat := 0
  oldest : Nat := 0
  /-- Serial number of the next fetch. -/
  nextNum : Nat := 0
  deriving DecidableEq, Repr

/-- A function: PF0 (0) or VF n (n + 1). -/
structure Func where
  bound : Bool := false
  domain : Nat := 0
  rings : Nat := 0
  ringSel : Nat := 0
  ringTab : Assoc Nat Ring := []
  /-- Bus Master Enable, and D3hot (Table 16.2). -/
  busMaster : Bool := true
  d3hot : Bool := false
  /-- MSI-X vectors masked in the table, and the pending-bit array. -/
  masked : List Nat := []
  pba : List Nat := []
  deriving DecidableEq, Repr

/-- The states of a CXL port (CXP_STAT). -/
inductive CxlState where
  | down | training | discovering | ready | held | refused
  deriving DecidableEq, Repr

/-- One CXL root port. -/
structure Cxl where
  st : CxlState := .down
  width : Nat := 0
  rate : Nat := 0
  gib : Nat := 0
  serial : Nat := 0
  /-- `DEV_TIME` at which discovery began (R272). -/
  since : Nat := 0
  deriving DecidableEq, Repr

/-- The state of the host interface. -/
structure Hif where
  linkUp : Bool := false
  linkRate : Nat := 0
  linkWidth : Nat := 0
  l0p : Bool := false
  vfsEnabled : Nat := 0
  funcs : Assoc Nat Func := []
  cxl : Assoc Nat Cxl := []
  /-- The function served last, and the ring served last of each function (R267, round-robin). -/
  rrFunc : Option Nat := none
  rrRing : Assoc Nat Nat := []
  /-- Uniform refusals that wait for release (R321): requester, completion, time of release. -/
  refusals : List (Requester × Cpl × Nat) := []
  deriving DecidableEq, Repr

/-- A standard SPDM session, or one that carries the device's vendor-defined messages (R276, R311). -/
structure SpdmSession where
  /-- The root certificate of the chain that the peer proved in mutual authentication (R311); none before it has. -/
  peer : Option (List Byte) := none
  /-- The key exchange has finished. -/
  established : Bool := false
  /-- Exported master secret (R312). -/
  secret : List Byte := []
  hbeat : Bool := false
  /-- Heartbeat period in ns, and `DEV_TIME` of the last traffic. -/
  period : Nat := 0
  last : Nat := 0
  keyUpdates : Nat := 0
  deriving DecidableEq, Repr

/-- Progress of a PLDM Type 5 update (R278). -/
inductive FwUpdate where
  | idle
  | receiving
  | verified (image : Image)
  deriving DecidableEq, Repr

/-- The management endpoints (R274 to R278). -/
structure Mgmt where
  /-- The single receiver of `SetEventReceiver`. -/
  receiver : Option Nat := none
  /-- Events that wait: kind and data. -/
  events : List (Nat × List Nat) := []
  dropped : Nat := 0
  update : FwUpdate := .idle
  sessions : Assoc Nat SpdmSession := []
  deriving DecidableEq, Repr

end Sys2Proof.Machine
end

