-- ==== Sys2Proof/Machine/FltUnit.lean ====
section
/-! DEFINITION. Machine/FltUnit.lean: the state of fault reporting, warm resets, field tests and the event controller
(chapters 15 and 16). -/

namespace Sys2Proof.Machine

/-- A fault record (Table 15.8). -/
structure FaultRec where
  time : Nat
  unit : Nat
  cls : Nat
  resp : Nat
  count : Nat := 1
  addr : Nat := 0
  number : Nat
  detail : Nat := 0
  deriving DecidableEq, Repr

/-- A privileged unit (R341): running, in warm reset since a time, or held. -/
structure Unit3 where
  warmSince : Option Nat := none
  held : Bool := false
  /-- Times of its recent warm resets (R345). -/
  times : List Nat := []
  deriving DecidableEq, Repr

/-- The per-unit history of one tracked unit (R355, R356): events, stressed failures, permanent. Times are powered time in ns. -/
structure History where
  events : List Nat := []
  stressed : List Nat := []
  permanent : Bool := false
  /-- A monitor or fuse decision took the unit out (R357). -/
  byMonitor : Bool := false
  deriving DecidableEq, Repr

/-- The state of fault handling. -/
structure Flt where
  fifo : List FaultRec := []
  /-- Records dropped since space last returned (R350). -/
  dropped : Nat := 0
  nextNumber : Nat := 0
  /-- `GLB_FAULT_LAST`. -/
  last : Option FaultRec := none
  xlt : Unit3 := {}
  lve : Unit3 := {}
  evc : Unit3 := {}
  /-- `E_STALE` answers released at the end of the warm reset of a unit (R342). -/
  stale : List (PrivUnit × Requester × Cpl) := []
  /-- Powered time before the last reset, ns: history time is this and `DEV_TIME` (R355). -/
  base : Nat := 0
  /-- Per-unit history by `UNIT` word (Table 15.8). -/
  history : Assoc Nat History := []
  /-- The last 4,096 fault records (R355). -/
  ringRecs : List FaultRec := []
  /-- Corrected errors since the last summary: `UNIT` word, count, and the time of the last summary (R350). -/
  corrected : Assoc Nat (Nat × Nat) := []
  /-- Extents beneath a poisoned metadata frame, which stay allocated (R336), and their bytes. -/
  strandedHomes : List Home := []
  stranded : Nat := 0
  /-- The metadata frame whose two copies were uncorrectable, read again at the restart (R336). -/
  warmFrame : Option FrameId := none
  /-- Times of the corrected errors of each HBM row in the last day (R356). -/
  rowErrs : Assoc Nat (List Nat) := []
  /-- T0 extents held out of the pool (R337): address in 512-byte units and bytes. -/
  retired : List (Nat × Nat) := []
  /-- Unverified freed extents that carry poison from an HBM error are retired when freed: their addresses. -/
  badT0 : List Nat := []
  -- field tests (R352 to R354)
  /-- The cluster under test, and the items that have run. -/
  testCluster : Option Nat := none
  testItem : Nat := 0
  /-- The epoch of the last item. -/
  testEpoch : Option Nat := none
  /-- A trigger or an abandoned test makes the next test due at once. -/
  testDue : Bool := false
  testNext : Nat := 0
  /-- Whether the test in progress applies stress, and started 24 h late. -/
  testStress : Bool := false
  testLate : Bool := false
  /-- `LOCKSTEP` was written during the test (R353). -/
  testAbandon : Bool := false
  /-- Cores 0 to 15, and merge unit 16, that failed an item of the test of `testLast`. -/
  testFails : List Nat := []
  testLast : Nat := 0
  lastTest : Nat := 0
  /-- Cores that leave dispatch for one item after a check failure (R354). -/
  retest : List Nat := []
  deriving DecidableEq, Repr

/-- The state of a hold-off group (R365). -/
inductive GroupState where
  | idle
  | holding (due : Nat)
  | released
  deriving DecidableEq, Repr

/-- The state of the event controller. Pending bits of groups 0 to 4 are those of the pages (R360). -/
structure Evc where
  /-- Software sources pending: numbers 512 to 1023. -/
  soft : List Nat := []
  /-- Hold-off state of the groups that are not idle. -/
  groups : Assoc Nat GroupState := []
  /-- Running-priority stacks by target: 0 to 2047 host vectors, 2048 Toluo. -/
  running : Assoc Nat (List Nat) := []
  /-- Sources whose wait for a full stack has been counted (Table 16.2). -/
  waiting : List Nat := []
  deriving DecidableEq, Repr

end Sys2Proof.Machine
end

