-- ==== Sys2Proof/Machine/LveUnit.lean ====
section
/-! DEFINITION. Machine/LveUnit.lean: the state of Levee and of the audit log (chapter 14). -/

namespace Sys2Proof.Machine

/-- The states of Table 14.1. -/
inductive DomState where
  | free | created | active | teardown
  deriving DecidableEq, Repr

/-- The key slots of a domain (Table 14.5). -/
structure Keys where
  /-- K_T0 to K_T3. -/
  tier : List (List Byte)
  pfx : List Byte
  chk : List Byte
  kcv : Nat
  /-- PRK_P, from which `PREFIX_ROTATE` derives anew (R313). -/
  prk : List Byte
  deriving DecidableEq, Repr

/-- A teardown in progress (R316): whether step 4 has completed, and who completes with it (R402). -/
structure Teardown where
  erased : Bool := false
  joined : List Requester := []
  deriving DecidableEq, Repr

/-- A row of the domain table. -/
structure Domain where
  st : DomState := .free
  conf : Bool := false
  /-- The owner anchor, one DER certificate. -/
  anchor : List Byte := []
  seqRsv : Nat := 0
  modelRsv : Nat := 0
  objRsv : Nat := 0
  listRsv : Nat := 0
  ringRsv : Nat := 0
  t3Pend : Bool := false
  pfxGen : Nat := 0
  keys : Option Keys := none
  /-- Causeway trust anchors (R314). -/
  anchors : List (List Byte) := []
  teardown : Option Teardown := none
  deriving DecidableEq, Repr

/-- The life-cycle states of Table 14.15. -/
inductive LcState where
  | blank | tested | provisioned | field | ret | fin
  deriving DecidableEq, Repr

/-- The fuse words of Table 14.14, by the reads that can be marginal. -/
inductive FuseWord where
  /-- A word of kind exact: RS, serial, variant, MAC address, and the hashes of the certificates and anchors. -/
  | exact (n : Nat)
  | policy | intent | state
  deriving DecidableEq, Repr

/-- A word whose six reads do not all decode and agree (R323): copies 0, 1 and 2, each at the low and then at the high
margin; none where a read is uncorrectable. -/
structure FuseRead where
  word : FuseWord
  reads : List (Option Nat)
  deriving DecidableEq, Repr

/-- What Levee finds in the fuses at a reset: the words listed, every other word as it was fused, and the number of reads that
SECDED corrected. -/
structure FuseScan where
  words : List FuseRead := []
  corrected : Nat := 0
  deriving DecidableEq, Repr

/-- A key operation in progress (R314): its domain, the session that waits for its result, and the response. -/
structure KeyOp where
  num : Nat := 0
  domain : Nat
  /-- The operation was writing this domain's key slot (R327). -/
  writesSlot : Bool
  /-- Who waits for the result, and the result. -/
  req : Requester
  resp : List Byte
  deriving DecidableEq, Repr

/-- The monitors of Table 14.17. -/
inductive Monitor where
  | voltage | clock | temperature
  deriving DecidableEq, Repr

/-- The state of Levee. -/
structure Lve where
  doms : Assoc Nat Domain := []
  sole : Option Nat := none
  /-- The life-cycle state and intent, as resolved at the last reset and advanced since (R323, R325). -/
  lc : LcState := .field
  intent : LcState := .field
  /-- The same as the fuses hold them: the highest blown byte of each word (R324). -/
  lcFuse : LcState := .field
  intentFuse : LcState := .field
  lcMarginal : Bool := false
  lcCompleted : Bool := false
  marginal : Nat := 0
  corrected : Nat := 0
  /-- The debug policy as resolved: bit 0, TAP open at `BLANK` and `TESTED`; bit 1, vendor tokens accepted (Table 14.14). -/
  tapEarly : Bool := true
  tokens : Bool := true
  /-- The debug policy word as fused. -/
  policyFuse : Nat := 3
  safe : Bool := false
  cause : Nat := 0
  lastTrip : Nat := 0
  keysHeld : Bool := false
  /-- Trips since reset, and the times of the recent ones (R327). -/
  trips : Nat := 0
  tripTimes : List Nat := []
  /-- The monitor out of range and since when. -/
  tripping : Option (Monitor × Nat) := none
  keyOps : List KeyOp := []
  /-- The number of the next key operation. -/
  nextKey : Nat := 0
  /-- Expiry, in flash time, of an accepted debug token (R311). -/
  debugUntil : Option Nat := none
  /-- SHA-384 of the operator anchor, fused at `FIELD`; of the service anchor, fused at `PROVISIONED`. -/
  operatorAnchor : Option (List Byte) := none
  serviceAnchor : Option (List Byte) := none
  /-- The stored identity certificate matches the fused hash (R310). -/
  chainOk : Bool := true
  /-- Counter sets of the confidential domains (R320): (domain, register offset) and value. -/
  counters : Assoc (Nat × Nat) Nat := []
  deriving DecidableEq, Repr

/-- An audit entry (Table 14.20), with the 16-byte hashes of the old and the new value. -/
structure AuditEntry where
  time : Nat
  number : Nat
  domain : Nat
  origin : Nat
  kind : Nat
  originId : Nat
  target : Nat
  old : List Byte
  new : List Byte
  chain : List Byte
  deriving DecidableEq, Repr

/-- A sealed segment (R330). -/
structure Segment where
  number : Nat
  entries : List AuditEntry
  flags : Nat
  prev : List Byte
  time : Nat
  digest : List Byte
  signature : List Byte
  /-- The segment is in the flash area (SEGMENT_WRITTEN). -/
  written : Bool := false
  deriving DecidableEq, Repr

/-- A persistent change that waits until its segment is in the flash area (R330). -/
inductive Persist where
  | lcAdvance (target : LcState) (anchorHash : List Byte) (req : Requester)
  | debugUnlock (until_ : Nat) (req : Requester)
  | fwUpdate (session : Nat)
  | calCommit
  | format
  deriving DecidableEq, Repr

/-- The state of the audit log. -/
structure Aud where
  nextEntry : Nat := 0
  nextSegment : Nat := 0
  acked : Nat := 0
  open_ : List AuditEntry := []
  segments : List Segment := []
  /-- Digest of the last sealed segment. -/
  lastDigest : List Byte := []
  /-- Entries reserved for the step-6 entries of teardowns in progress (R316). -/
  reserved : Nat := 0
  /-- Persistent changes that wait, with the number of the segment that holds their entry. -/
  waiting : List (Nat × Persist) := []
  /-- The full state has been signalled. -/
  full : Bool := false
  deriving DecidableEq, Repr

end Sys2Proof.Machine
end

