-- ==== Sys2Proof/Machine/GlbUnit.lean ====
section
/-! DEFINITION. Machine/GlbUnit.lean: the state of reset and start-up, the NOR flash, calibration and the pins (chapters
2, 17 and 18). -/

namespace Sys2Proof.Machine

/-- Where the device is between reset and operation. -/
inductive DevPhase where
  /-- In reset: PWRGOOD is low (R388, R390). -/
  | off
  /-- Start-up runs (R371). -/
  | startup
  /-- `GLB` reads `READY`. -/
  | ready
  /-- `SAFE` (R328). -/
  | safe
  /-- No slot holds an image that verifies (R372). -/
  | noImage
  deriving DecidableEq, Repr

/-- A device reset that waits for its checkpoint (R370): cause of GLB_RSTCAUSE and time of the request. -/
structure ResetReq where
  cause : Nat
  noflush : Bool
  since : Nat
  /-- The checkpoint has been written. -/
  flushed : Bool := false
  deriving DecidableEq, Repr

/-- `GLB_CAL_CTL.CSTATE`. -/
inductive CalState where
  | idle | staged | committing | failed
  deriving DecidableEq, Repr

/-- The state of the `GLB` block, the NOR flash and the pins. -/
structure Glb where
  variant : Variant := .a8x4
  phase : DevPhase := .startup
  -- GLB_RSTCAUSE
  cause : Nat := 0
  flushed : Bool := false
  wasSafe : Bool := false
  calDefault : Bool := false
  fallback : Bool := false
  resetReq : Option ResetReq := none
  /-- GLB_REFUSE_ADDR and GLB_REFUSE_INFO: valid, offset, origin, code (R37). -/
  refValid : Bool := false
  refAddr : Nat := 0
  refOrigin : Nat := 0
  refCode : Nat := 0
  -- NOR flash: images, selector (R374)
  slotA : Option Image := none
  slotB : Option Image := none
  active : Nat := 0
  pendingSlot : Option Nat := none
  tried : Bool := false
  /-- The slot whose image runs. -/
  running : Option Nat := none
  -- calibration (R375, R376)
  calStored : List Byte := []
  calStaged : Assoc Nat Word := []
  calState : CalState := .idle
  calSince : Nat := 0
  -- pins (chapter 18)
  pwrgood : Bool := true
  /-- STEPMARK_OUT is high, until this time (R393). -/
  smoutUntil : Option Nat := none
  thermtrip : Bool := false
  /-- ELS modules present, by number. -/
  els : List Nat := [0, 1, 2, 3, 4, 5, 6, 7]
  deriving DecidableEq, Repr

end Sys2Proof.Machine
end

