-- ==== Sys2Proof/Machine/CwyUnit.lean ====
section
/-! DEFINITION. Machine/CwyUnit.lean: the state of the Causeway ports and sessions (chapter 11), and the received message
as a command carries it. -/

namespace Sys2Proof.Machine

/-- A message as it arrives: the port and virtual channel, the 32 header bytes of Table 11.6, the body (decrypted when
`ENC` = 1), what the cryptographic checks of the message found (`tagOk`: the GCM tag inside a session; outside one, the
certificates, signature, trust and MAC that the body is judged by, R246 to R251), whether `BODY_LEN` agrees with the
flits, and how many flits it took. -/
structure RxMsg where
  port : Nat
  vc : Nat
  hdr : List Byte
  body : List Byte
  tagOk : Bool
  lenOk : Bool
  flits : Nat
  /-- `ACK` of the last flit, and the credits returned for each virtual channel by the message's flits (Table 11.2). -/
  ack : Nat := 0
  cr : List Nat := []
  deriving DecidableEq, Repr

/-- What any received flit carries for the link (Table 11.2): `ACK`, and the credits returned for each virtual channel. -/
structure FlitTail where
  ack : Nat
  cr : List Nat := []
  deriving DecidableEq, Repr

/-- A message handed to a port: its virtual channel, its bytes with header and tag, and its flits that have left (R237). -/
structure TxItem where
  vc : Nat
  len : Nat
  sent : Nat := 0
  deriving DecidableEq, Repr

/-- A message that the device sends: Table 11.6 without the fields that its port fills in. -/
structure TxMsg where
  mtype : Nat
  vc : Nat
  body : List Byte
  retryUs : Nat := 0
  report : Bool := false
  deriving DecidableEq, Repr

/-- A copy kept until the peer's `ACK_MSN` covers it (R239). -/
structure Copy where
  msn : Nat
  port : Nat
  msg : TxMsg
  deriving DecidableEq, Repr

/-- `CWY_PORT_STAT.PSTATE`. -/
inductive PortState where
  | off | down | training | linked | ready | retrain | failed
  deriving DecidableEq, Repr

/-- `CWY_PORT_STAT.POWER`. -/
inductive PortPower where
  | active | quiet | sleep
  deriving DecidableEq, Repr

/-- A handshake (R247, R248). -/
structure Handshake where
  id : Nat
  initiator : Bool
  domain : Nat
  role : Nat
  ringId : Nat
  /-- Whether it holds one of the four handshake slots. -/
  slot : Bool := true
  malformed : Bool := false
  /-- Every condition of R248 that the `HELLO` decides holds. -/
  granted : Bool := false
  sessionId : Nat := 0
  /-- The body of the `HELLO`, and the draw of the device's own key shares. -/
  helloBody : List Byte := []
  draw : Nat := 0
  /-- The transcript hash TH (R247), or the body of a `JOIN`, over which the MAC of the `DONE` is taken. -/
  th : List Byte := []
  /-- PRK of R249. -/
  prk : List Byte := []
  /-- When `ACCEPT` is due, and when it was sent. -/
  acceptDue : Nat := 0
  acceptSent : Option Nat := none
  /-- When `DONE` is due, and the status it carries. -/
  doneDue : Option Nat := none
  status : Status := .ok
  /-- A JOIN to a session, by index. -/
  join : Option Nat := none
  /-- The `ACCEPT` that waits for the dispatch of its verification (R290). -/
  accept : Option RxMsg := none
  deriving DecidableEq, Repr

/-- `CWY_SESSn_A.STATE` of a session that is not free. -/
inductive SessState where
  | handshake | attached | detaching
  deriving DecidableEq, Repr

/-- One direction of one virtual channel of one port of a session: the next `CTR` and `KPHASE` (R249, R250). -/
structure CtrKey where
  ctr : Nat := 0
  kphase : Bool := false
  /-- Key and salt, 36 bytes (R249). -/
  key : List Byte := []
  deriving DecidableEq, Repr

/-- A session (R255). -/
structure Session where
  st : SessState
  domain : Nat
  role : Nat := 0
  ringId : Nat := 0
  sessionId : Nat := 0
  /-- The device is the initiator. -/
  initiator : Bool := false
  /-- `ID_HASH` of the peer. -/
  peer : List Byte := []
  prk : List Byte := []
  /-- Ports of the session and the `SID` on each. -/
  ports : Assoc Nat Nat := []
  /-- Ports unusable for the session until they are `READY` again (R252). -/
  unusable : List Nat := []
  /-- Last `MSN` sent, and the peer's `ACK_MSN`. -/
  txMsn : Nat := 0
  peerAck : Nat := 0
  /-- Own `ACK_MSN`, and the numbers delivered above it. -/
  ackMsn : Nat := 0
  delivered : List Nat := []
  /-- Deliveries since `ACK_MSN` was last sent, and the time of the oldest. -/
  unsentAcks : Nat := 0
  ackOldest : Nat := 0
  copies : List Copy := []
  /-- Messages that wait for space in the retransmit store or for a usable port: port asked for and message. -/
  sendq : List (Nat × TxMsg) := []
  /-- Send and receive counters by (port, virtual channel). -/
  txKeys : Assoc (Nat × Nat) CtrKey := []
  rxKeys : Assoc (Nat × Nat) CtrKey := []
  /-- `DEV_TIME` of the last message sent and received on each port (R253). -/
  lastTx : Assoc Nat Nat := []
  lastRx : Assoc Nat Nat := []
  /-- `MSN`s of requests that have not been answered. -/
  openReqs : List Nat := []
  /-- DETACH: request sent, the peer's `LAST_MSN`, own and the peer's DONE (R254). -/
  detachSent : Bool := false
  peerLast : Option Nat := none
  doneSent : Bool := false
  doneRecv : Option Nat := none
  detachSince : Nat := 0
  reason : Nat := 0
  /-- Ports on which a `JOIN` of the device was refused (R251). -/
  noJoin : List Nat := []
  kaSeq : Nat := 0
  deriving DecidableEq, Repr

/-- One Causeway port. -/
structure Port where
  st : PortState := .off
  power : PortPower := .active
  lanes : Nat := 0
  /-- Half operation on lanes 4 to 7 (true) or 0 to 3. -/
  upper : Bool := false
  peerDev : Bool := false
  /-- Of the peer's last valid DISCOVER: ID_HASH, NONCE, MAX_BODY, leaf certificate chain. -/
  peerHash : List Byte := []
  peerNonce : List Byte := []
  peerMax : Nat := 0
  peerChain : List Byte := []
  /-- The DISCOVER that the device sent, its NONCE, and the one it received. -/
  nonce : List Byte := []
  discoverTx : List Byte := []
  discoverRx : List Byte := []
  handshakes : List Handshake := []
  -- link layer (R230 to R233)
  txSeq : Nat := 0
  rxSeq : Nat := 0
  /-- DATA flits sent and not covered by an ACK, oldest first, as runs: how many, and when they were last sent (R232). -/
  flight : List (Nat × Nat) := []
  /-- Messages handed to the port whose flits have not all left. -/
  txq : List TxItem := []
  /-- For each virtual channel, since when it has a flit ready and no credit (R235). -/
  starved : List (Option Nat) := []
  /-- `DEV_TIME` of the last flit received (R235). -/
  lastFlit : Nat := 0
  /-- Flit slots since the last one given to RESULT and to PAGE (R233). -/
  slot16 : Nat := 0
  /-- Credits of freed receive buffers not yet returned, at most the pools of Table 11.3. -/
  owed : List Nat := [0, 0, 0, 0]
  /-- A NAK for the present fault has been sent (R231). -/
  naked : Bool := false
  credits : List Nat := [0, 0, 0, 0]
  /-- Flits accepted since an ACK was last sent, and the time of the oldest (R232). -/
  unsentAck : Nat := 0
  ackSince : Nat := 0
  /-- Replays without ACK progress (R235). -/
  replays : Nat := 0
  retrainFails : Nat := 0
  /-- Start of the present state, for training, retrain and failed (R234). -/
  since : Nat := 0
  /-- Training is not tried again before this time. -/
  retryAt : Nat := 0
  /-- Lanes unusable under R228, and lanes out of service for good (R356). -/
  badLanes : List Nat := []
  deadLanes : List Nat := []
  /-- Lanes that lost their signal or lock since the port last locked (R235, R356). -/
  lostLanes : List Nat := []
  /-- The retrain in progress is that of a wake (R236, R253). -/
  woken : Bool := false
  /-- Times and lanes of FAILED entries (R356). -/
  failures : List (Nat × Nat) := []
  /-- Laser input of each wavelength, received OMA and heater power, as last monitored. -/
  laser : List Int := []
  oma : List Int := []
  heater : List Nat := []
  /-- `DEV_TIME` of the last DATA flit of QUERY, RESULT or PAGE, and of the last session or handshake (R236). -/
  lastData : Nat := 0
  lastUse : Nat := 0
  /-- An LCTL REQ that awaits its answer: true QUIET, false SLEEP, and when it was last sent. -/
  lctlReq : Option (Bool × Nat) := none
  deriving DecidableEq, Repr

/-- The states of a ring slot (Table 6.2). -/
inductive SlotState where
  | free | forming | ready | degraded | leaving
  deriving DecidableEq, Repr

/-- A chain record that a slot holds for a stripe not yet bound, or for its own hand-offs (R127, R128). -/
structure ChainRec where
  rsid : Nat
  j : Nat
  hash : DWord
  /-- Of a record to send: 0 sent and not answered, 1 to be sent again at `since`, 2 to be sent again when the slot is
  `READY`, 3 refused. -/
  last : Nat := 0
  since : Nat := 0
  deriving DecidableEq, Repr

/-- A ring slot (R121, R122). -/
structure RingSlot where
  st : SlotState := .free
  domain : Nat := 0
  ringId : Nat := 0
  n : Nat := 0
  index : Nat := 0
  predPorts : Nat := 0
  succPorts : Nat := 0
  /-- Sessions to the predecessor and the successor, by session index. -/
  pred : Option Nat := none
  succ : Option Nat := none
  /-- Chain records held for sequences not bound yet (R128). -/
  store : List ChainRec := []
  /-- CHAIN records that the device has to send, or that were refused with a retry (R127, R128). -/
  toSend : List ChainRec := []
  /-- Forwarded ring steps held for the predecessor (R244). -/
  forwarding : List Nat := []
  /-- When the device last sent a `HELLO` to the successor. -/
  helloAt : Option Nat := none
  /-- `STEP_ID`s given to ring steps originated here. -/
  nextStep : Nat := 0
  deriving DecidableEq, Repr

/-- The state of the Causeway fabric and of ring membership. -/
structure Cwy where
  ports : Assoc Nat Port := []
  sessions : Assoc Nat Session := []
  slots : Assoc Nat RingSlot := []
  nextHs : Nat := 0
  /-- The model's own number of the next session. -/
  nextSess : Nat := 0
  /-- The domains of sessions that have closed, by number: a late result counts for its partner's domain (R25). -/
  closed : Assoc Nat Nat := []
  /-- `ERROR`s with `E_DENIED` and other uniform refusals that wait for release (R240): session or port, message, due. -/
  refusals : List (Option Nat × Nat × TxMsg × Nat) := []
  deriving DecidableEq, Repr

end Sys2Proof.Machine
end

