-- ==== Sys2Proof/Machine/RbdUnit.lean ====
section
/-! DEFINITION. Machine/RbdUnit.lean: the state of Reedbed: rows of entries, per-domain limits, breaks, scans, searches
and hash lists (chapter 7). -/

namespace Sys2Proof.Machine

/-- An entry of a row (Table 7.2). The frame of the table is the block descriptor number. -/
structure Entry where
  hash : DWord
  check : Word
  domain : Nat
  tag : Nat
  valid : Bool := true
  writing : Bool := false
  lo : Nat
  hi : Nat
  bd : Nat
  refs : Nat := 0
  deriving DecidableEq, Repr

/-- A break (R151). -/
structure Break where
  domain : Nat
  block : Nat
  hash : DWord
  hi : Nat
  deriving DecidableEq, Repr

/-- What a scan does (Table 7.6, R152). -/
inductive ScanKind where
  /-- The sweep after `PREFIX_FLOOR`; it waits for the searches admitted before the new floor (R144). -/
  | floor (floor : Nat)
  /-- The sweep that empties a domain. -/
  | purge
  /-- Clears `INDEXED` of the block descriptors of one lost row. -/
  | repair (row : Nat)
  | resolve
  deriving DecidableEq, Repr

/-- A scan that runs, or a floor sweep that waits. -/
structure Scan where
  kind : ScanKind
  /-- The domains it covers. -/
  domains : List Nat
  /-- Admission number of the first search that it does not wait for. -/
  before : Nat := 0
  /-- Domains that became linear before it started and leave linear when it ends (R151). -/
  linear : List Nat := []
  deriving DecidableEq, Repr

/-- A search from admission to the write of its last touch (R144, R145), with the probes it still has to issue. -/
structure Search where
  /-- Admission number. -/
  num : Nat
  domain : Nat
  /-- Probes not yet granted a slot (R161): rows, in issue order. -/
  probes : List Nat
  /-- Where the result goes, and the result itself, once every probe is granted. -/
  req : Requester
  result : Cpl
  /-- Touches to write after the result (R145): new `RANGE_HI`, and row and BD number of each hit in block order. -/
  touchHi : Nat := 0
  touches : List (Nat × Nat) := []
  /-- Cost admitted (Table 13.1), and whether it counts as a galloping lookup. -/
  cost : Nat := 0
  gallop : Bool := false
  deriving DecidableEq, Repr

/-- A hash list (R157). -/
structure HashList where
  domain : Nat
  tag : Nat
  /-- Block index of its first block. -/
  start : Nat := 0
  /-- Hash and check word of consecutive blocks. -/
  blocks : List (DWord × Word) := []
  /-- Its frames in the page-table region. -/
  frames : List Home := []
  deriving DecidableEq, Repr

/-- Per-domain state. -/
structure RbdDom where
  floor : Nat := 0
  /-- `RBD_DOM_QUOTA`; 0 means no limit. -/
  quota : Nat := 0
  /-- `RBD_DOM_HOT.LINES`. -/
  hot : Nat := 0
  lo : Nat := 0
  hi : Nat := 0xFFFFFFFF
  purging : Bool := false
  linear : Bool := false
  /-- Rows of its hot-row lines, least recently used first (R158). -/
  lines : List Nat := []
  deriving DecidableEq, Repr

/-- The state of Reedbed. -/
structure Rbd where
  placed : Bool := false
  /-- Rows by number, each a finite map from slot to entry. -/
  rows : Assoc Nat (Assoc Nat Entry) := []
  doms : Assoc Nat RbdDom := []
  breaks : List Break := []
  scans : List Scan := []
  searches : List Search := []
  /-- Number of searches admitted. -/
  admitted : Nat := 0
  lists : Assoc Nat HashList := []
  /-- Search-macro temperature as last sampled, °C, and `RATE_SHIFT` (R160). -/
  temp : Int := 0
  rateShift : Nat := 0
  /-- The probe round of R161: the domain that holds it and the slots it has taken. -/
  rrDom : Nat := 0
  rrSlots : Nat := 0
  /-- Slots granted in the current group of 16, and how many of them to scans. -/
  slot16 : Nat := 0
  scan16 : Nat := 0
  /-- The domain of the last probe (Table 14.9). -/
  lastDom : Option Nat := none
  /-- Rows whose layout awaits restoration (R142). -/
  dirtyRows : List Nat := []
  deriving DecidableEq, Repr

end Sys2Proof.Machine
end

