-- ==== Sys2Proof/Machine/PeaUnit.lean ====
section
/-! DEFINITION. Machine/PeaUnit.lean: the state of Peat: the map, the write buffer, blocks and stripes, the trim journal,
segments and checkpoints (chapter 9, R377 to R379). -/

namespace Sys2Proof.Machine

/-- `PEA_STAT.PSTATE`. -/
inductive PeatState where
  | noFlash | recovering | ready | formatting | rebuilding | readOnly | failed
  deriving DecidableEq, Repr

/-- The device geometry (R189). -/
structure Geometry where
  targets : Nat := 256
  luns : Nat := 5
  planes : Nat := 4
  pages : Nat := 512
  blocks : Nat := 8192
  qlc : Bool := false
  deriving DecidableEq, Repr

/-- The write streams (R194). -/
inductive WStream where
  | hot | cold | gc | wear
  deriving DecidableEq, Repr

/-- A coarse map entry (Table 9.3). -/
inductive Coarse where
  | row (pua : Nat)
  | fine (group : Nat)
  deriving DecidableEq, Repr

/-- One programmed 4 KiB slot with its part of the out-of-band header (Table 9.7). -/
structure Slot where
  wseq : Nat
  sector : Nat
  coarse : Bool
  stream : WStream := .cold
  src : Option Nat := none
  ftime : Nat := 0
  temp : Int := 0
  data : List Byte
  deriving DecidableEq, Repr

/-- What the headers of a programmed row share (Table 9.7); a row that holds no sector has one as well. -/
structure RowHdr where
  wseq : Nat
  ftime : Nat
  temp : Int
  deriving DecidableEq, Repr

/-- The states of a Peat block in the block table. -/
inductive BlkState where
  | free | opened | closed | verified | retired
  deriving DecidableEq, Repr

/-- A block table record (before R198). -/
structure Blk where
  st : BlkState := .free
  stream : WStream := .cold
  pe : Nat := 0
  firstTime : Nat := 0
  lastTime : Nat := 0
  firstTemp : Int := 0
  lastTemp : Int := 0
  reads : Nat := 0
  step : Nat := 0
  /-- Next row to program. -/
  next : Nat := 0
  /-- Garbage collection or wear levelling has copied its live sectors away. -/
  victim : Bool := false
  deriving DecidableEq, Repr

/-- A row of the stripe row being programmed: position in the stripe, number of the buffer unit, and its sectors. -/
structure RowFill where
  pos : Nat
  buf : Nat
  sectors : List Nat
  deriving DecidableEq, Repr

/-- A parity row: the row of the stripe that it covers, the PUAs of that row's 16 rows, its `WSEQ`, and its place in pSLC (R194).
Its content is the XOR of those rows (`Pea.parityImage`). -/
structure ParityRow where
  row : Nat
  puas : List Nat
  wseq : Nat
  place : Nat
  deriving DecidableEq, Repr

/-- A stripe: 16 blocks on 16 channels, written row by row (R194). -/
structure PStripe where
  id : Nat
  stream : WStream
  blocks : List Nat
  row : Nat := 0
  fill : List RowFill := []
  parity : List ParityRow := []
  /-- Once it has closed: the blocks that have not verified, for whose sake its parity rows are kept (R196). -/
  unverified : List Nat := []
  deriving DecidableEq, Repr

/-- A unit that gathers in the write buffer (R192). -/
structure BufUnit where
  id : Nat
  unit : Nat
  stream : WStream
  /-- Sectors of the unit that have arrived. -/
  sectors : Assoc Nat (List Byte)
  since : Nat
  /-- Relocation sources of the sectors (Table 9.7, SRC). -/
  srcs : Assoc Nat Nat := []
  /-- The rows have been issued to a stripe. -/
  issued : Bool := false
  /-- The whole unit is rewritten to a new row, its other sectors as they are or as zeros (R191). -/
  rmw : Bool := false
  /-- Sectors trimmed after the rows were issued (Table 9.11). -/
  trimmed : List Nat := []
  /-- The stripe whose program failed: the rows go to another (R197). -/
  avoid : Option Nat := none
  deriving DecidableEq, Repr

/-- A T3 write that Sluice waits for (R195): its number, the move (or `OBJ_WRITE`) and the sectors not yet
acknowledged. -/
structure PWrite where
  id : Nat
  move : Nat
  left : List Nat
  deriving DecidableEq, Repr

/-- A trim record (R192). -/
structure TrimRec where
  wseq : Nat
  first : Nat
  count : Nat
  since : Nat
  deriving DecidableEq, Repr

/-- The saved copy of a map segment (R205): its cut, and the entries that it holds. -/
structure SegCopy where
  cut : Nat
  coarse : Assoc Nat Coarse
  fine : Assoc Nat (List (Option Nat))
  blocks : Assoc Nat Blk
  deriving DecidableEq, Repr

/-- A park record of one sequence or object (R377): what reinstatement needs. -/
inductive ParkRec where
  | seq (idx : Nat) (d : Seq)
  | obj (num : Nat) (o : Obj)
  | bd (num : Nat) (b : Bd)
  | model (tag : Nat) (m : Model)
  | frame (f : FrameId) (m : MetaFrame)
  deriving DecidableEq, Repr

/-- A record of the park set: the domain and its `KCV` in clear, and what they cover (R377). -/
structure Park where
  domain : Nat
  kcv : Nat
  body : ParkRec
  deriving DecidableEq, Repr

/-- The used fields of a checkpoint record, with the segment copies that its directory names (Table 9.8). -/
structure CkRec where
  cut : Nat
  rstart : Nat
  ftime : Nat
  trimStart : Nat
  /-- Open stripes and their blocks. -/
  stripes : List PStripe
  /-- Cursors of the hot and the cold stream. -/
  cursors : Nat × Nat
  dir : Assoc Nat SegCopy
  reserve : List Nat
  deriving DecidableEq, Repr

/-- One copy of a checkpoint as recovery finds it: whether its `CRC` is correct and its `VERSION` known, whether every segment copy
that its `DIR` names matches the CRC given, its used fields where they are not those that were written, and the bytes other than 0
of its unused fields, by offset (R207, R208). -/
structure CkCopy where
  valid : Bool := true
  dirOk : Bool := true
  used : Option CkRec := none
  unused : List (Nat × Byte) := []
  deriving DecidableEq, Repr

/-- A checkpoint in the log (Table 9.8). -/
structure Ckpt where
  seq : Nat
  body : CkRec
  park : List Park
  a : CkCopy := {}
  b : CkCopy := {}
  deriving DecidableEq, Repr

/-- Where a read finds a sector: the entry that is current when the read is issued (Table 9.11). -/
inductive SectorSrc where
  /-- In the write buffer. -/
  | held (data : List Byte)
  | flash (psa : Nat)
  | unmapped
  deriving DecidableEq, Repr

/-- A read that Sluice waits for (R202): the move or delivery, the sectors with where each was found, the steps of the ladder that
have failed, the sectors that have not decoded, and the first threshold offset chosen for each block. -/
structure PRead where
  move : Nat
  sectors : List Nat
  src : List SectorSrc
  step : Nat := 0
  left : List Nat
  offsets : Assoc Nat Nat := []
  deriving DecidableEq, Repr

/-- The state of Peat. -/
structure Pea where
  pstate : PeatState := .recovering
  geom : Geometry := {}
  /-- Targets excluded at start-up (R189), and targets taken out of service since (R348): channel × 8 + chip enable. -/
  excluded : List Nat := []
  silent : List Nat := []
  /-- Targets that no package answers for. -/
  absent : List Nat := []
  /-- `OP_PCT` and `META_GIB` of the format in the flash, and spare blocks at that format. -/
  opPct : Nat := 20
  metaGib : Nat := 192
  spareFmt : Nat := 0
  /-- `WSEQ` at that format. -/
  fmtCut : Nat := 0
  /-- The format under way takes these settings. -/
  fmtOp : Nat := 20
  fmtMeta : Nat := 192
  /-- Flash time in seconds, and `DEV_TIME` at which its present second began. -/
  ftime : Nat := 0
  ftimeAt : Nat := 0
  life : Nat := 0
  /-- The cursors of the hot and of the cold stream (R190). -/
  hotCur : Nat := 0
  coldCur : Nat := 0
  coarse : Assoc Nat Coarse := []
  fine : Assoc Nat (List (Option Nat)) := []
  /-- Sectors whose slot holds a packed block, with its wire length (R217, R220). -/
  packed : Assoc Nat Nat := []
  /-- Programmed slots by PSA. -/
  flash : Assoc Nat Slot := []
  /-- Programmed rows by PUA. -/
  rows : Assoc Nat RowHdr := []
  /-- Blocks that are not free and as worn as `peBase`. -/
  blocks : Assoc Nat Blk := []
  peBase : Nat := 0
  stripes : List PStripe := []
  nextStripe : Nat := 0
  /-- Closed stripes whose parity rows are held (R196). -/
  closedStripes : List PStripe := []
  /-- The blocks that allocation takes next (R206). -/
  reserve : List Nat := []
  /-- Blocks opened, in opening order, with the `WSEQ` of the last row of each. -/
  opened : List (Nat × Nat) := []
  buffer : List BufUnit := []
  nextBuf : Nat := 0
  writes : List PWrite := []
  /-- T3 writes not yet accepted (R200, R205): move, home, bytes. -/
  waiting : List (Nat × Home × List Byte) := []
  /-- Waiting writes whose wait has been counted. -/
  waitCounted : List Nat := []
  nextWrite : Nat := 0
  reads : List PRead := []
  wseq : Nat := 0
  -- trim journal
  journal : List TrimRec := []
  journalPend : List TrimRec := []
  journalPos : Nat := 0
  /-- T3 extents that Sluice has released and Peat has not yet trimmed: first sector and count. -/
  released : List (Nat × Nat) := []
  /-- Sectors released and not to be allocated again before a checkpoint of the number given, or a higher one, has been
  written in both copies (R377). -/
  quarantine : List (Nat × Nat × Nat) := []
  /-- Trimmed sectors that stay live in their unit's block (R192). -/
  residue : List Nat := []
  /-- Dirty segments: oldest unsaved change (`WSEQ`) and the `DEV_TIME` of it. -/
  dirty : Assoc Nat (Nat × Nat) := []
  saved : Assoc Nat SegCopy := []
  ckpts : List Ckpt := []
  ckptDue : Nat := 0
  ckptAsked : Bool := false
  nextCk : Nat := 0
  /-- Relocations of static wear levelling in the present second (R199). -/
  wlSecond : Nat := 0
  wlCount : Nat := 0
  /-- Reads and retries over the last 10 s (R212): time, reads, retries. -/
  rrLog : List (Nat × Nat × Nat) := []
  /-- T3 has become read-only: a reset does not change that (R201). -/
  readOnly : Bool := false
  /-- What recovery found where it must rebuild the map: rows that fail, rows that they damaged, and the risk (R210). -/
  foundBad : List Nat := []
  foundHurt : List Nat := []
  foundRisk : Bool := false
  /-- Conditions that hold, so that an event is set only when one newly arises (R200, R212). -/
  spareLow : Bool := false
  retryRise : Bool := false
  gcHard : Bool := false
  -- parking (R377 to R379)
  /-- Park records of the checkpoint that recovery used, not yet reinstated or discarded. -/
  parked : List Park := []
  /-- Retained extents: first sector and count. -/
  retained : List (Nat × Nat) := []
  /-- Blocks that hold trimmed sectors of a torn-down domain and are still to be erased (Table 14.8). -/
  erasing : Assoc Nat (List Nat) := []
  deriving DecidableEq, Repr

end Sys2Proof.Machine
end

