-- ==== Sys2Proof/Machine/SdgUnit.lean ====
section
/-! DEFINITION. Machine/SdgUnit.lean: the state of Sedge: the input queue, its lines and the per-domain permissions
(chapter 10). -/

namespace Sys2Proof.Machine

/-- A block in the input queue (R224). -/
structure SdgBlock where
  /-- The move, or the `OBJ_WRITE`, by its number. -/
  owner : Nat
  domain : Nat
  line : Nat
  /-- Destination frame, and index of the block in it. -/
  dst : Home
  index : Nat
  data : List Byte
  /-- `DEV_TIME` at which it entered the queue. -/
  since : Nat := 0
  deriving DecidableEq, Repr

/-- `SDG_DOM_CFG` of a domain. -/
structure SdgDom where
  en : Bool := true
  confOk : Bool := false
  deriving DecidableEq, Repr

/-- The state of Sedge. -/
structure Sdg where
  queue : List SdgBlock := []
  doms : Assoc Nat SdgDom := []
  /-- Places of T1 and T2 that hold a packed block, by tier and byte address, with its wire length (R217, R220). -/
  packed : Assoc (Nat × Nat) Nat := []
  /-- Queue use is at or above `HIGH_PCT`. -/
  high : Bool := false
  /-- Thousandths of a nanosecond of busy time not yet counted (R225). -/
  busyPs : Nat := 0
  deriving DecidableEq, Repr

end Sys2Proof.Machine
end

