-- ==== Sys2Proof/Syntax.lean ====
section
/-! DEFINITION. Syntax.lean: the commands that the block takes from outside, with what each carries. -/

namespace Sys2Proof

open Sys2Proof.Machine

/-- A register write: its origin, byte enables (bit i for byte i) and value (R27, R28). -/
structure RegWrite where
  origin : Origin
  be : Nat := 15
  value : Word
  deriving DecidableEq, Repr

/-- One SPDM message that Levee receives on the management network: the session that carries it (0: none), its
code, and what follows the header, decrypted; of a vendor-defined request, its payload (R311). `verified` says
whether the authentication and the signatures that it carries succeed. `dmk` is what the key unwrap of a
`KEY_LOAD` gives, none where its integrity check fails (R312). -/
structure SpdmMsg where
  session : Nat
  code : Nat
  body : List Byte
  verified : Bool := true
  dmk : Option (List Byte) := none
  deriving DecidableEq, Repr

/-- How a task ends (R101, R117, R120, R338): normally, by a check that failed, by an uncorrectable error in the
core store or in its spill-pool data, or by partials of a lockstep pair that differ. -/
inductive TaskResult where
  | good | checkFailed | storeError | spillError | lockstepDiffers
  deriving DecidableEq, Repr

/-- Why a privileged unit takes a warm reset (R341): an error in its control state, or two bad copies of a
metadata frame (R336). -/
inductive WarmCause where
  | control
  | metadata (f : FrameId)
  deriving DecidableEq, Repr

/-- What patrol scrub finds at a word of T0 (R340): nothing, a corrected error, an uncorrectable one, or a
sequence descriptor whose two halves are both uncorrectable (R336). -/
inductive Scrubbed where
  | clean | corrected | uncorrectable
  | descriptor (seq : Nat)
  deriving DecidableEq, Repr

/-- What discovery of a CXL expander found (R272). -/
structure CxlFound where
  notType3 : Bool := false
  mld : Bool := false
  switch : Bool := false
  mediaReady : Bool
  gib : Nat
  serial : Nat
  deriving DecidableEq, Repr

/-- The parameter page of a NAND target (R188, R189). -/
structure TargetPage where
  luns : Nat := 5
  planes : Nat := 4
  pages : Nat := 512
  blocks : Nat := 8192
  qlc : Bool := false
  pageBytes : Nat := 16384
  spare : Nat := 1872
  lpddr4 : Bool := true
  deriving DecidableEq, Repr

/-- What recovery finds in the flash (R189, R207 to R209): the parameter page of each target, channel by
channel, where one answers; the copies A and B of checkpoints that are not as they were written; rows whose
header or codewords fail; paired rows that their program damaged; and whether an assumed time without power
raises the risk of a block. -/
structure PeatFound where
  targets : List (Option TargetPage) := List.replicate 256 (some {})
  copies : List (Nat × CkCopy × CkCopy) := []
  badRows : List Nat := []
  paired : List Nat := []
  risk : Bool := false
  deriving DecidableEq, Repr

/-- A fetch of a ring entry (R267): what the host's memory gives, and whether it refuses the completion write of
the ring (R265). -/
structure FetchResult where
  entry : HostRead
  cqFailed : Bool := false
  deriving DecidableEq, Repr

/-- The input buffer of a `CMD_KV_APPEND`, and whether an uncorrectable error meets the record in the append
datapath (R85). -/
structure AppendInput where
  inp : HostRead
  ue : Bool := false
  deriving DecidableEq, Repr

/-- A `KV_APPEND` message, and whether an uncorrectable error meets the record in the append datapath (R85). -/
structure AppendMsg where
  msg : RxMsg
  ue : Bool := false
  deriving DecidableEq, Repr

/-- The layer whose first held record is written, and whether an uncorrectable error meets it in the append
datapath (R85). -/
structure HeldLayer where
  layer : Nat
  ue : Bool := false
  deriving DecidableEq, Repr

/-- A `PAGE_READ` message, and what the media do to the blocks that it reads. -/
structure ReadMsg where
  msg : RxMsg
  media : MediaRead
  deriving DecidableEq, Repr

/-- A sample of the package power monitor (R288): the energy in µJ, none where the reading fails its self-check;
and, where a parity error meets the scheduler's credits (Table 15.1), the domains whose buckets it hit. -/
structure PowerSample where
  microJ : Option Nat
  parity : Option (List Nat) := none
  deriving DecidableEq, Repr

/-- A flit without data that a port receives: the port, and the `ACK` and credits that the flit carries (R230). -/
structure PortFlit where
  port : Nat
  tail : FlitTail
  deriving DecidableEq, Repr

/-- An `IDLE` flit of a port: one that the other side sent, or none where the port's own timer ends (R232). -/
structure IdleFlit where
  port : Nat
  rx : Option FlitTail := none
  deriving DecidableEq, Repr

/-- A `SetEventReceiver` command: the SPDM session it came in, and the receiver it names (R275, R277). -/
structure PldmReceiver where
  session : Nat
  receiver : Nat
  deriving DecidableEq, Repr
/-- The commands of the block: one constructor for each row of the command table. -/
inductive Instr where
  /-- `POWER_ON` (R390): PWRGOOD rises, or stays low for at least 1 µs, and the device takes a power-on reset and
  begins start-up. -/
  | powerOn (fuses : FuseScan)
  /-- `PWRGOOD_FALL` (R388): PWRGOOD falls and the device enters reset at once without writing a checkpoint. -/
  | pwrgoodFall
  /-- `STARTUP_READY` (R371): The start-up sequence finishes, GLB reads READY and epoch 0 begins, unless R372 ends
  start-up short of READY. -/
  | startupReady
  /-- `DEVICE_RESET_REQUEST` (R370): A write of GLB_RSTCTL.DEV with KEY 0x7840 requests a device reset, first writing
  a Peat checkpoint unless NOFLUSH is set. -/
  | deviceResetRequest (w : RegWrite)
  /-- `DEVICE_RESET` (R369): The device resets once the requested checkpoint is written or 100 ms have passed,
  clearing the state that Table 17.2 lists. -/
  | deviceReset (fuses : FuseScan)
  /-- `TOLUO_RESTART` (R351): GLB_RSTCTL.TOLUO, or the 100 ms Toluo watchdog, restarts Toluo firmware and loses the
  management sessions. -/
  | toluoRestart (w : Option RegWrite)
  /-- `LINK_RESET` (R368): A PCIe conventional or hot reset acts as a function-level reset of every function and
  resets configuration space. -/
  | linkReset
  /-- `FUNCTION_LEVEL_RESET` (R268): An FLR of one function disables its rings, discards the outputs of its commands
  in flight and completes within 1 ms. -/
  | functionLevelReset (fn : Nat)
  /-- `WARM_RESET` (R341): Parity in control state, a double metadata error or a unit watchdog starts the warm reset
  of a privileged unit. -/
  | warmReset (u : PrivUnit) (cause : WarmCause)
  /-- `UNIT_WATCHDOG_EXPIRY` (R341): A privileged unit with work pending and no progress for 10 µs triggers its warm
  reset. -/
  | unitWatchdogExpiry (u : PrivUnit)
  /-- `WARM_RESET_DONE` (R342): The warm reset completes its rebuild and self-check, releases its E_STALE answers and
  returns the unit to READY, or holds it under R345. -/
  | warmResetDone (u : PrivUnit) (selfCheck reread : Bool)
  /-- `AUTORST` (R345): With AUTORST set, Toluo issues a device reset within 100 ms of a unit being held, after it
  has sent the fault records. -/
  | autorst
  /-- `MONITOR_TRIP` (R327): A voltage, clock or temperature monitor trips, and the device responds as its activity
  at the trip requires. -/
  | monitorTrip (m : Monitor)
  /-- `MONITOR_IN_RANGE` (R327): After a trip, a monitor that reads in range for 1 ms lets Levee accept key
  operations again. -/
  | monitorInRange
  /-- `MONITOR_PERSISTENT` (R327): A trip condition lasting 10 ms, or three trips within 1 s, leads to SAFE. -/
  | monitorPersistent
  /-- `THERMTRIP` (R399): A monitor sensor reading above 120 °C asserts and latches THERMTRIP_N. -/
  | thermtrip (tenthC : Int)
  /-- `KEY_STORE_UE` (R305): An uncorrectable key-store error zeroises the slot, and its domain leaves ACTIVE. -/
  | keyStoreUe (dom slot : Nat)
  /-- `NOP` (R266): The NOP command completes with OK. -/
  | nop (q : CmdRef)
  /-- `SQ_DOORBELL` (R263): A write to the submission doorbell sets a new SQ tail, or faults the ring. -/
  | sqDoorbell (fn ring value : Nat)
  /-- `CQ_DOORBELL` (R263): A write to the completion doorbell sets a new CQ head, or faults the ring. -/
  | cqDoorbell (fn ring value : Nat)
  /-- `COMMAND_FETCH` (R267): The ring engine fetches and checks an available command in ring order, within the CQ's
  free slots. -/
  | commandFetch (fn ring : Nat) (got : FetchResult)
  /-- `RING_ENABLE` (R262): Setting DOM_RING_CFG.EN enables the ring, or refuses a layout that breaks the rules. -/
  | ringEnable (fn : Nat) (w : RegWrite)
  /-- `RING_DISABLE` (R268): Clearing DOM_RING_CFG.EN stops fetching and drains the ring to DISABLED. -/
  | ringDisable (fn : Nat) (w : RegWrite)
  /-- `RING_DRAINED` (R268): The last command in flight of a DRAINING ring completes, and the ring becomes DISABLED. -/
  | ringDrained (fn ring : Nat)
  /-- `HOST_READ_TIMEOUT` (R259): A host read for a command's input that gets no completion within 10 ms completes
  the command with E_TIMEOUT. -/
  | hostReadTimeout (q : CmdRef)
  /-- `MODEL_REGISTER` (R405): Registers a model layout in the domain after the ordered checks. -/
  | modelRegister (q : CmdRef) (inp : HostRead)
  /-- `MODEL_RELEASE` (R53): Removes a model registration that no live sequence or block uses. -/
  | modelRelease (q : CmdRef)
  /-- `SEQ_CREATE` (R54): Creates a sequence on a free index and returns its handle. -/
  | seqCreate (q : CmdRef)
  /-- `SEQ_RETIRE` (R57): Moves a sequence to DRAINING, so that new work completes with E_UNAVAILABLE. -/
  | seqRetire (q : CmdRef)
  /-- `SEQ_RETIRED` (R57): A DRAINING sequence with no work in flight and no pin is unmapped, becomes RETIRED, and
  its retire completes. -/
  | seqRetired (seq : Nat)
  /-- `SEQ_TRUNCATE` (R58): Unmaps pages at and above a position, or is held while the sequence has work in flight. -/
  | seqTruncate (q : CmdRef)
  /-- `TRUNCATE_RELEASE` (R58): A held truncate runs once work in flight completes, and the records queued behind it
  are then checked. -/
  | truncateRelease (seq : Nat)
  /-- `SEQ_QUERY` (R59): Returns the state, length, model tag and first poisoned position of a sequence. -/
  | seqQuery (q : CmdRef)
  /-- `SEQ_MAP_PREFIX` (R64): Maps a list of block descriptors as the first pages of an empty sequence, all or none. -/
  | seqMapPrefix (q : CmdRef) (inp : HostRead)
  /-- `SEQ_PREEMPT` (R179): Reserves T2 space and starts demoting the eligible frames of a sequence to T2. -/
  | seqPreempt (q : CmdRef)
  /-- `PREEMPT_DEMOTE` (R179): Once work in flight completes, each eligible frame of a pre-emption is demoted to T2. -/
  | preemptDemote (seq : Nat)
  /-- `SEQ_RESTORE` (R180): Promotes the T2 frames of a PREEMPTED sequence and releases its held work when the last
  one commits. -/
  | seqRestore (q : CmdRef)
  /-- `SEQ_PCLASS` (R181): Sets the pre-emption class of a sequence. -/
  | seqPclass (q : CmdRef)
  /-- `SEQ_STRIPE` (R123): Binds an empty sequence to a ring slot as one stripe. -/
  | seqStripe (q : CmdRef)
  /-- `CMD_KV_APPEND` (R82): The ring command carries an append record to the append unit and completes at acceptance
  or failure. -/
  | cmdKvAppend (q : CmdRef) (a : AppendInput)
  /-- `ATTEND` (R96): The ring command carries a query record as a step and writes the result record to OUT_ADDR. -/
  | attend (q : CmdRef) (inp : HostRead)
  /-- `CMD_PREFIX_LOOKUP` (R165): The ring command carries a lookup record and writes the result record to OUT_ADDR. -/
  | cmdPrefixLookup (q : CmdRef) (inp : HostRead)
  /-- `SLC_PLACE` (R170): Checks a placement command and expands it into one frame request per frame in its scope. -/
  | slcPlace (q : CmdRef)
  /-- `SLC_WAIT` (R173): Waits for the move named by a ticket to commit or abort. -/
  | slcWait (q : CmdRef)
  /-- `OBJ_CREATE` (R186): Creates an unsealed object with no page mapped. -/
  | objCreate (q : CmdRef)
  /-- `OBJ_WRITE` (R186): Copies object pages from host memory into new extents in a tier. -/
  | objWrite (q : CmdRef) (inp : HostRead)
  /-- `OBJ_SEAL` (R186): Makes an object immutable and readable by PAGE_READ. -/
  | objSeal (q : CmdRef)
  /-- `OBJ_RELEASE` (R186): Refuses new reads of an object and frees its pages once no delivery is in flight. -/
  | objRelease (q : CmdRef)
  /-- `PREFIX_SET_RANGE` (R143): Sets the requested range of a sequence, or the domain's default. -/
  | prefixSetRange (q : CmdRef)
  /-- `PREFIX_FLOOR` (R144): Raises a domain's floor, so that entries below it stop matching. -/
  | prefixFloor (q : CmdRef)
  /-- `FLOOR_SWEEP` (R144): Once the searches admitted before a floor change have completed, a sweep physically
  withdraws the entries below the floor. -/
  | floorSweep (dom : Nat)
  /-- `PREFIX_EVICT` (R150): Withdraws the Reedbed entries of a sequence's blocks from an index, tail first. -/
  | prefixEvict (q : CmdRef)
  /-- `PREFIX_PURGE` (R149): Withdraws every Reedbed entry of the domain and marks the domain purging until the sweep
  ends. -/
  | prefixPurge (q : CmdRef)
  /-- `PURGE_SWEEP_END` (R149): A purge sweep ends, and the domain leaves the purging state. -/
  | purgeSweepEnd (dom : Nat)
  /-- `RING_JOIN` (R121): Opens a ring slot and starts attachment to both neighbours. -/
  | ringJoin (q : CmdRef)
  /-- `RING_LEAVE` (R122): Moves a ring slot to LEAVING. -/
  | ringLeave (q : CmdRef)
  /-- `RING_SLOT_FREE` (R122): A LEAVING slot with no ring step in flight detaches its sessions and becomes free. -/
  | ringSlotFree (slot : Nat)
  /-- `LVE_SPDM` (R311): Carries one SPDM message from a ring to Levee and returns Levee's response. -/
  | lveSpdm (q : CmdRef) (inp : HostRead)
  /-- `SPDM_REQUEST` (R276): Levee answers a standard SPDM request (certificate, challenge, measurements, key
  exchange, heartbeat, key update). -/
  | spdmRequest (msg : SpdmMsg)
  /-- `DOM_CREATE` (R306): Creates a domain with its owner anchor, reservations and confidential flag. -/
  | domCreate (q : CmdRef) (inp : HostRead)
  /-- `DOM_TEARDOWN` (R402): Starts the teardown of a domain. -/
  | domTeardown (q : CmdRef)
  /-- `TEARDOWN_CRYPTO_ERASE` (R316): Once the domain's work in flight has ended, every key slot of the domain is
  zeroised and the teardown command completes. -/
  | teardownCryptoErase (dom : Nat)
  /-- `TEARDOWN_SCRUB_DONE` (R318): The T0, T1 and T2 extents of the domain have been overwritten and released, and
  the domain becomes FREE. -/
  | teardownScrubDone (dom : Nat)
  /-- `T3_ERASURE_DONE` (R318): Peat finishes erasing the blocks of a torn-down domain, and T3_PEND clears. -/
  | t3ErasureDone (dom : Nat)
  /-- `DOM_STATUS` (R307): Returns a domain's state, flags, KCV and anchor hash. -/
  | domStatus (q : CmdRef)
  /-- `DEV_MODE` (R308): Switches the device between SHARED and SOLE modes. -/
  | devMode (q : CmdRef)
  /-- `AUD_EXPORT` (R403): Copies whole, unacknowledged sealed audit segments to host memory. -/
  | audExport (q : CmdRef)
  /-- `AUD_ACK` (R403): Frees the slots of sealed segments at or below the number named. -/
  | audAck (q : CmdRef)
  /-- `KEY_LOAD` (R312): Unwraps a domain master key, derives the domain's keys and makes the domain ACTIVE. -/
  | keyLoad (msg : SpdmMsg)
  /-- `KEY_DESTROY` (R402): Starts the teardown of the tenant's domain. -/
  | keyDestroy (msg : SpdmMsg)
  /-- `ANCHOR_SET` (R314): Replaces the domain's Causeway trust anchors and closes its sessions. -/
  | anchorSet (msg : SpdmMsg)
  /-- `PREFIX_ROTATE` (R313): Re-derives the prefix and check keys at a higher generation, which purges the domain's
  Reedbed entries. -/
  | prefixRotate (msg : SpdmMsg)
  /-- `CONF_SEDGE` (R223): Sets or clears SDG_DOM_CFG.CONF_OK for the tenant's domain. -/
  | confSedge (msg : SpdmMsg)
  /-- `COUNTER_READ` (R320): Returns records from the confidential domain's own counter set. -/
  | counterRead (msg : SpdmMsg)
  /-- `DOM_REPORT` (R311): Returns a signed report of the domain state, KCV, anchor hash and firmware measurement. -/
  | domReport (msg : SpdmMsg)
  /-- `OPERATOR_CMD` (R311): Runs a Carulo command for the operator inside an SPDM session. -/
  | operatorCmd (msg : SpdmMsg)
  /-- `LC_ADVANCE` (R325): Blows the intent word and then the state word of a life-cycle transition. -/
  | lcAdvance (msg : SpdmMsg)
  /-- `DEBUG_UNLOCK` (R311): Accepts a vendor debug token naming the serial and an expiry. -/
  | debugUnlock (msg : SpdmMsg)
  /-- `KEY_OPERATION_DONE` (R314): A key operation dispatched as KEY work completes, or is aborted by a trip. -/
  | keyOperationDone (abort : Bool)
  /-- `REINSTATE` (R378): After KEY_LOAD, once Peat is ready, the domain's parked sequences and objects are restored
  in the background. -/
  | reinstate (dom : Nat)
  /-- `PLDM_SET_EVENT_RECEIVER` (R277): Sets the single receiver of PLDM event messages. -/
  | pldmSetEventReceiver (receiver : PldmReceiver)
  /-- `PLDM_PLATFORM_EVENT_SEND` (R277): Toluo sends a waiting event to the receiver, first an overflow count when
  events were dropped. -/
  | pldmPlatformEventSend
  /-- `REQUEST_UPDATE` (R278): Starts a PLDM Type 5 update of the Yilloth image, unless the audit area is full. -/
  | requestUpdate (session : Nat)
  /-- `APPLY_COMPLETE` (R278): The verified image is written to the inactive NOR slot and marked pending. -/
  | applyComplete
  /-- `PTP_SYNC` (R280): A PTP Sync exchange updates the offset estimate, records T_OFF at first lock and steers the
  rate of DEV_TIME. -/
  | ptpSync (offset rate : Int) (grandmaster : Int)
  /-- `PTP_HOLDOVER` (R280): Sync messages absent for 3 s hold the rate at its last value. -/
  | ptpHoldover
  /-- `DEV_TIME_ALARM` (R301): DEV_TIME reaches CLK_ALARM, which wakes the device when enabled. -/
  | devTimeAlarm
  /-- `KV_APPEND` (R82): The Causeway append record is checked, advances the expected position and is accepted or
  held. -/
  | kvAppend (a : AppendMsg)
  /-- `HELD_RECORD_WRITE` (R83): A held append record is written and accepted once its tail is back in T0, the
  pre-emption ends or the pin is released. -/
  | heldRecordWrite (seq : Nat) (a : HeldLayer)
  /-- `CHAIN_RETRY` (R128): The CHAIN record is sent again after RETRY_US, or when the slot returns to READY. -/
  | chainRetry (slot : Nat)
  /-- `Q_SUBMIT` (R96): A query record is checked, held or admitted as a decode step. -/
  | qSubmit (m : RxMsg)
  /-- `Q_HOLD_RELEASE` (R21): A held step is released to the scheduler when the append of position C − 1 is accepted. -/
  | qHoldRelease (step : Nat)
  /-- `Q_HOLD_TIMEOUT` (R21): A step held one epoch length without the append it needs completes with E_TIMEOUT. -/
  | qHoldTimeout (step : Nat)
  /-- `DISPATCH` (R290): The scheduler dispatches the next item that fits and that its domain's shaper admits,
  whenever an engine can take work. -/
  | dispatch
  /-- `STALL_END` (R182): The awaited frame reaches T0, and the stalled work resumes. -/
  | stallEnd (stall : Nat)
  /-- `STALL_TIMEOUT` (R183): A stall that reaches the stall limit completes its step or record with E_TIMEOUT. -/
  | stallTimeout (stall : Nat)
  /-- `CORE_TAKE_TASK` (R106): A free core takes the oldest latency task, or the head of a bucket FIFO. -/
  | coreTakeTask (core : Nat)
  /-- `TASK_PREEMPT` (R108): A latency task pre-empts a throughput task at the next page boundary of its pass. -/
  | taskPreempt (core : Nat)
  /-- `TASK_END` (R101): A task ends, its partial is merged, and the last merge of a step forms and sends the result. -/
  | taskEnd (core : Nat) (result : TaskResult)
  /-- `SPILL_WAIT_RELEASE` (R103): A step waiting for spill pool space takes it when enough space is freed, in order
  of arrival. -/
  | spillWaitRelease (step : Nat)
  /-- `LOCKSTEP_WRITE` (R118): A write that changes LOCKSTEP stops new dispatch and sets LS_PENDING. -/
  | lockstepWrite (w : RegWrite)
  /-- `LS_SWITCHED` (R118): Once running tasks complete, every cluster switches, LS_ACTIVE takes the new value and
  dispatch resumes. -/
  | lsSwitched
  /-- `PAGE_READ` (R242): Delivers sequence or object pages to the partner, one PAGE_DATA per page. -/
  | pageRead (a : ReadMsg)
  /-- `PREFIX_LOOKUP` (R165): The Causeway lookup record hashes or searches blocks and returns PREFIX_RESULT. -/
  | prefixLookup (m : RxMsg)
  /-- `PROBE_GRANT` (R161): Probe slots are granted to scans and to domains in weighted rounds at the device probe
  rate. -/
  | probeGrant
  /-- `REEDBED_INSERT` (R147): The update engine inserts a handed-off block, with the outcome of Table 7.5. -/
  | reedbedInsert
  /-- `ROW_MOVE` (R142): The update engine restores the row layout rule by moving entries one slot at a time. -/
  | rowMove (row : Nat)
  /-- `ROW_UE` (R152): An uncorrectable error in a row burst withdraws the row and starts a repair scan. -/
  | rowUe (row : Nat)
  /-- `REPAIR_SCAN` (R152): A repair scan clears INDEXED in the BDs whose hash maps to the lost row, then resolves. -/
  | repairScan
  /-- `RESOLVE_SCAN` (R152): A resolve scan withdraws entries whose predecessor no longer matches, and it clears the
  breaks when it ends. -/
  | resolveScan
  /-- `PROBE_RATE_SAMPLE` (R160): The search-macro sensor, sampled every 10 µs, steps the probe rate down, or back up
  with hysteresis. -/
  | probeRateSample (tenthC : Int)
  /-- `RING_QUERY_STEP` (R130): A STEP record is resolved, checked, forwarded to the predecessor and computed over
  the member's stripe. -/
  | ringQueryStep (m : RxMsg)
  /-- `RING_QUERY_CHAIN` (R128): A CHAIN record stores the running hash at the stripe base, is held in the chain
  store, or is refused. -/
  | ringQueryChain (m : RxMsg)
  /-- `RING_PARTIAL` (R132): A received ring partial is merged with the member's own and sent up, or completes the
  step at the originator. -/
  | ringPartial (m : RxMsg)
  /-- `RING_STEP_HOLD_RELEASE` (R131): A member's held ring step proceeds once its stripe's appends up to C are
  accepted, or times out after one epoch. -/
  | ringStepHoldRelease (step : Nat)
  /-- `RING_TIMEOUT` (R135): No partial reaches the originator within the ring timeout, and the step completes
  E_TIMEOUT. -/
  | ringTimeout (step : Nat)
  /-- `STEP_MARK` (R243): A STEP_MARK message from a timing session is time-stamped and applied as a Step Mark, or
  refused. -/
  | stepMark (m : RxMsg)
  /-- `STEPMARK_IN` (R284): A rising edge on the STEPMARK_IN land is time-stamped and matched to a window as a mark,
  or acts as a test trigger. -/
  | stepmarkIn
  /-- `WINDOW_CLOSE` (R285): A Step Mark window that closes without a mark increments PWR_SM_MISS. -/
  | windowClose
  /-- `EPOCH_BOUNDARY` (R281): An epoch ends by time, the next begins with its grant, and buckets are refilled. -/
  | epochBoundary
  /-- `POWER_MONITOR_SAMPLE` (R288): Every 10 µs, measured energy less the charges is booked as residual. -/
  | powerMonitorSample (a : PowerSample)
  /-- `THERMAL_SAMPLE` (R289): Every 10 µs the thermal allowance A is recomputed from the hottest package sensor. -/
  | thermalSample (tenthC : List Int)
  /-- `QUEUE_SAMPLE` (R297): Every 1 µs each sampled queue adds one to its depth and delay histograms. -/
  | queueSample
  /-- `AUTO_DVFS_DOWN` (R304): With AUTO set, A below 1 for 100 µs steps CCLK down one step on both dies. -/
  | autoDvfsDown
  /-- `AUTO_DVFS_UP` (R304): With AUTO set, A at 1 for 1 ms and over 10 % of the grant lapsed steps CCLK up one step. -/
  | autoDvfsUp
  /-- `CLK_CSYN_WRITE` (R303): A write of N_TARGET starts stepping a die's core clock, or is refused while AUTO is 1. -/
  | clkCsynWrite (die : Nat) (w : RegWrite)
  /-- `CSYN_STEP_DONE` (R303): One core-clock step completes, and the next begins until N_TARGET is reached. -/
  | csynStepDone (die : Nat)
  /-- `ISLAND_ON_REQUEST` (R298): A PWR_ISL_REQ for ON powers an OFF island up, or returns a DRAINING island to ON. -/
  | islandOnRequest (w : RegWrite)
  /-- `ISLAND_OFF_REQUEST` (R298): A PWR_ISL_REQ for OFF moves an ON island to DRAINING, or ends its power-up. -/
  | islandOffRequest (w : RegWrite)
  /-- `ISLAND_POWER_UP_DONE` (R299): An island finishes powering up with its stores scrubbed and reaches ON. -/
  | islandPowerUpDone (island : Nat)
  /-- `ISLAND_DRAINED` (R298): A DRAINING island completes its accepted work and reports OFF. -/
  | islandDrained (island : Nat)
  /-- `STANDBY_REQUEST` (R300): PWR_STANDBY.REQ starts quiesce, or is refused. -/
  | standbyRequest (w : RegWrite)
  /-- `STANDBY_COMMIT` (R300): Once quiesce completes, the device enters self-refresh and powers off islands in one
  cycle. -/
  | standbyCommit
  /-- `SLEEP_ABORTED` (R302): An enabled wake source during quiesce or commit aborts the sleep request. -/
  | sleepAborted (source : Nat)
  /-- `WAKE` (R301): An enabled wake source in STANDBY starts the exit. -/
  | wake (source : Nat)
  /-- `STANDBY_EXIT_DONE` (R301): HBM leaves self-refresh, the islands return ON and admission resumes. -/
  | standbyExitDone
  /-- `LIGHT_DETECTED` (R234): Light on lane 0 of an enabled DOWN port starts full training. -/
  | lightDetected (port : Nat)
  /-- `TRAINING_DONE` (R234): Training ends, credits are exchanged and DISCOVER is sent. -/
  | trainingDone (port : Nat) (badLanes credits : List Nat)
  /-- `TRAINING_TIMEOUT` (R234): Lanes not locked within 2 ms return the port to DOWN. -/
  | trainingTimeout (port : Nat)
  /-- `LINK_FAULT` (R235): A link fault on a READY port starts a retrain and fails its sessions over. -/
  | linkFault (port cause : Nat) (lanes : List Nat)
  /-- `RETRAIN_DONE` (R234): Lanes and alignment are regained, and replay resumes from the last ACK. -/
  | retrainDone (port : Nat) (badLanes : List Nat) (peerAck : Nat)
  /-- `RETRAIN_FAIL` (R234): A failed retrain is retried, and the third consecutive failure takes the port to FAILED. -/
  | retrainFail (port : Nat)
  /-- `FAILED_RETRY` (R234): RETRY_MS after FAILED, the port returns to DOWN. -/
  | failedRetry (port : Nat)
  /-- `LASER_MONITOR_SAMPLE` (R228): Every 10 µs the laser input is compared with the warn and alarm thresholds. -/
  | laserMonitorSample (els : Nat) (laser : List Int) (rx : List (List Int × List Nat))
  /-- `FLIT_DISCARD` (R231): A DATA flit with a bad CRC, an FEC error or an unexpected SEQ is discarded and a NAK
  sent. -/
  | flitDiscard (port : Nat) (cause : Nat)
  /-- `NAK` (R232): A received NAK replays every unacknowledged flit. -/
  | nak (port : Nat) (f : FlitTail)
  /-- `REPLAY_TIMER` (R232): An unacknowledged flit that waits REPLAY_T starts a replay. -/
  | replayTimer (port : Nat)
  /-- `IDLE_ACK_TIMER` (R232): After 64 flits or 0.5 µs without one, an IDLE flit carries the latest ACK. -/
  | idleAckTimer (f : IdleFlit)
  /-- `QUIET_REQ` (R236): An LCTL QUIET_REQ is answered with QUIET_ACK, and the port enters QUIET. -/
  | quietReq (f : PortFlit)
  /-- `QUIET_ACK` (R236): An LCTL QUIET_ACK completes entry to QUIET. -/
  | quietAck (f : PortFlit)
  /-- `RESUME` (R236): An LCTL RESUME relights the lanes of a QUIET port. -/
  | resume (f : PortFlit)
  /-- `SLEEP_REQ` (R236): An LCTL SLEEP_REQ is answered and the port enters SLEEP. -/
  | sleepReq (f : PortFlit)
  /-- `SLEEP_ACK` (R236): An LCTL SLEEP_ACK completes entry to SLEEP. -/
  | sleepAck (f : PortFlit)
  /-- `QUIET_IDLE_TIMER` (R236): No QUERY, RESULT or PAGE flit for QUIET_US starts a QUIET request. -/
  | quietIdleTimer (port : Nat)
  /-- `SLEEP_IDLE_TIMER` (R236): No session and no handshake for 1 ms starts a SLEEP request. -/
  | sleepIdleTimer (port : Nat)
  /-- `CAUSEWAY_WAKE` (R236): Light on lane 0 of a sleeping port is detected, and the port retrains. -/
  | causewayWake (port : Nat)
  /-- `DISCOVER` (R246): A DISCOVER is validated, and the port becomes READY or goes DOWN. -/
  | discover (m : RxMsg)
  /-- `HELLO` (R248): An ATTACH HELLO takes a handshake slot and starts the checks of the attachment. -/
  | hello (m : RxMsg)
  /-- `ACCEPT` (R247): The device sends ACCEPT 250 µs after the HELLO's last flit. -/
  | accept (port hs : Nat)
  /-- `ACCEPT_RECEIVED` (R248): The initiating device verifies ACCEPT and sends FINISH, or counts a failure. -/
  | acceptReceived (m : RxMsg)
  /-- `FINISH` (R248): A FINISH MAC is checked and the attachment's STATUS decided. -/
  | finish (m : RxMsg)
  /-- `DONE_SEND` (R248): The DONE leaves 2.0 µs after FINISH or JOIN, installing traffic keys on OK. -/
  | doneSend (port hs : Nat)
  /-- `DONE_RECEIVED` (R255): The initiating device receives DONE, and the session attaches or is refused. -/
  | doneReceived (m : RxMsg)
  /-- `HANDSHAKE_TIMEOUT` (R248): No FINISH within 1 ms of ACCEPT abandons the handshake. -/
  | handshakeTimeout (port hs : Nat)
  /-- `JOIN` (R251): A JOIN adds a READY port to an existing session. -/
  | join (m : RxMsg)
  /-- `DETACH_REQUEST` (R254): A DETACH REQUEST drains the session, or removes one port. -/
  | detachRequest (m : RxMsg)
  /-- `DETACH_DONE` (R255): A DETACH DONE, with every message received, closes the session. -/
  | detachDone (m : RxMsg)
  /-- `INTEGRITY_FAIL` (R254): A bad CTR or GCM tag closes the session with DETACH reason 4. -/
  | integrityFail (m : RxMsg)
  /-- `KEEPALIVE` (R253): A received KEEPALIVE keeps the port in the session and carries ACK_MSN. -/
  | keepalive (m : RxMsg)
  /-- `KEEPALIVE_SEND` (R253): A side with nothing to send sends KEEPALIVE every KA_US. -/
  | keepaliveSend (session port : Nat)
  /-- `KEEPALIVE_EXPIRY` (R253): A port silent for four intervals leaves the session. -/
  | keepaliveExpiry (session port : Nat)
  /-- `ACK_MSN_TIMER` (R239): After 64 deliveries or 2 µs, the receiver sends its ACK_MSN. -/
  | ackMsnTimer (session : Nat)
  /-- `ERROR` (R238): An ERROR message from a peer is received. -/
  | error (m : RxMsg)
  /-- `REFUSAL_RELEASE` (R321): An E_DENIED reply is released at arrival + 2,000 ns. -/
  | refusalRelease
  /-- `HOST_LINK_UP` (R258): The PCIe link trains in FLIT mode, or stays down. -/
  | hostLinkUp (rate width : Nat) (flit : Bool)
  /-- `HOST_LINK_DOWN` (R270): The host link goes down, rings go to ERROR, and T2 access stops answering. -/
  | hostLinkDown
  /-- `TIER_TIMEOUT` (R174): A T1 or T2 source or destination silent for 1,000 µs aborts the move with E_TIMEOUT. -/
  | tierTimeout (move : Nat)
  /-- `T2_ABANDON` (R270): Poisons every T2 frame, releases the T2 pool and aborts moves to or from T2. -/
  | t2Abandon (w : RegWrite)
  /-- `HIF_VF_BIND` (R260): Binds or unbinds a VF to a domain with its ring pairs. -/
  | hifVfBind (addr : Nat) (w : RegWrite)
  /-- `HIF_T2_WINDOW_WRITE` (R269): A write of HIF_T2_BASE or HIF_T2_SIZE sets the T2 window, or is refused while
  extents are allocated. -/
  | hifT2WindowWrite (addr : Nat) (w : RegWrite)
  /-- `CXL_LINK_UP` (R272): A CXL link-up starts discovery of the expander. -/
  | cxlLinkUp (port width rate : Nat)
  /-- `CXL_DISCOVERY_DONE` (R272): Discovery ends with the port READY, or REFUSED on a failed check or a 60 s media
  timeout. -/
  | cxlDiscoveryDone (port : Nat) (found : CxlFound)
  /-- `CXL_LINK_DOWN` (R273): A port holding extents becomes HELD, and an empty port returns to discovery. -/
  | cxlLinkDown (port : Nat)
  /-- `RESUME_PORT` (R273): CXP_CTL.RESUME returns a HELD port to READY with its extents. -/
  | resumePort (port : Nat) (w : RegWrite)
  /-- `ABANDON` (R273): CXP_CTL.ABANDON abandons a port's frames and capacity. -/
  | abandon (port : Nat) (w : RegWrite)
  /-- `CXP_CFG_EN_WRITE` (R273): A write of CXP_CFG.EN enables or disables a port, and is refused while extents are
  held. -/
  | cxpCfgEnWrite (port : Nat) (w : RegWrite)
  /-- `MOVE_READ` (R174): A free channel with staging space and admitted MOVE work issues a queued move's source
  reads. -/
  | moveRead (move : Nat)
  /-- `MOVE_WRITE` (R174): Source reads complete in staging, and the destination writes are issued. -/
  | moveWrite (move : Nat) (media : MediaRead)
  /-- `MOVE_COMMIT_START` (R174): Destination writes are acknowledged and, once no pin holds a demotion, invalidation
  starts. -/
  | moveCommitStart (move : Nat) (failed : Bool)
  /-- `MOVE_COMMIT` (R174): Invalidation completes, and the frame's home, generation and state are updated. -/
  | moveCommit (move : Nat)
  /-- `SEDGE_COMPRESS` (R218): The compressor takes a queued block and emits it packed or raw. -/
  | sedgeCompress (ue : Bool)
  /-- `UNMAP` (R65): An unmap that waited for a pin clears the PTE and frees the frame under the freeing rule. -/
  | unmap (seq layer hg page : Nat)
  /-- `PATROL_SCRUB` (R340): Patrol scrub reads T0 once every PATROL_H hours as SCRUB work. -/
  | patrolScrub (addr : Nat) (found : Scrubbed)
  /-- `PEAT_WRITE` (R195): Peat accepts a T3 write into its write buffer, or makes it wait while GC or the flusher
  lags. -/
  | peatWrite (move : Nat)
  /-- `COALESCE_EXPIRY` (R192): All 16 sectors arrive or COALESCE_US passes, and the unit is written. -/
  | coalesceExpiry (unit : Nat)
  /-- `STRIPE_ROW_PROGRAMMED` (R195): Rows and parity report program success, and the write is acknowledged to
  Sluice. -/
  | stripeRowProgrammed (stripe : Nat)
  /-- `PROGRAM_FAIL` (R197): A failed program retires the block and rewrites the row elsewhere. -/
  | programFail (stripe index : Nat)
  /-- `ERASE_FAIL` (R197): A failed erase retires the block. -/
  | eraseFail (blk : Nat)
  /-- `BLOCK_VERIFY` (R196): A closed block is verified as SCRUB work, and failing rows are rebuilt from parity. -/
  | blockVerify (blk : Nat) (badRows : List Nat)
  /-- `PEAT_READ` (R202): A T3 read climbs the read ladder until it decodes, or is reported uncorrectable. -/
  | peatRead (move fails : Nat) (left : List Nat)
  /-- `TRIM` (R192): Sluice releases a T3 extent, and Peat trims its sectors in the map. -/
  | trim
  /-- `JOURNAL_PAGE_PROGRAM` (R192): A trim journal page is programmed at 16 KiB of records, or 1 ms after the
  oldest. -/
  | journalPageProgram
  /-- `GC` (R200): Garbage collection copies a victim's live sectors as GC work and erases the victim. -/
  | gc
  /-- `WEAR_LEVEL` (R199): A spread above PEA_WL.SPREAD relocates the least-worn block's data at the limited rate. -/
  | wearLevel
  /-- `RETENTION_RELOCATE` (R203): A block at its retention or read-disturb limit is relocated as SCRUB work. -/
  | retentionRelocate (blk : Nat) (byAge late : Bool)
  /-- `SEGMENT_FLUSH` (R205): The flusher writes a dirty map segment to pSLC as of its cut. -/
  | segmentFlush
  /-- `CKPT_NOW` (R206): PEA_CTL.CKPT_NOW requests a checkpoint at once. -/
  | ckptNow (w : RegWrite)
  /-- `CHECKPOINT` (R206): At the interval, or on a short reserve list, Peat writes a checkpoint with its park set,
  copy A then copy B. -/
  | checkpoint
  /-- `PEAT_RECOVERY` (R209): After a device reset, Peat chooses a checkpoint and replays headers and trims up to
  READY. -/
  | peatRecovery (found : PeatFound)
  /-- `FULL_REBUILD` (R210): With no usable checkpoint, Peat rebuilds the map from every row header. -/
  | fullRebuild
  /-- `FORMAT` (R193): PEA_CTL.FORMAT erases all blocks and rebuilds an empty T3, or is refused. -/
  | format (w : RegWrite)
  /-- `FORMAT_DONE` (R201): A format completes, and Peat leaves FORMATTING or READONLY. -/
  | formatDone
  /-- `NAND_TARGET_SILENT` (R348): A NAND target silent for 100 ms is taken out of service. -/
  | nandTargetSilent (target : Nat)
  /-- `SEGMENT_WRITTEN` (R330): A sealed segment reaches a flash slot, releasing waiting changes and persistent
  effects. -/
  | segmentWritten
  /-- `TOLUO_FAULT_REPORT` (R350): Toluo writes each fault record to the history, sends it over PLDM and loads
  GLB_FAULT_LAST. -/
  | toluoFaultReport
  /-- `CE_SUMMARY` (R350): Each unit emits at most one corrected-error summary every CE_S seconds. -/
  | ceSummary (unit count : Nat)
  /-- `FIELD_TEST_DUE` (R352): The field test of the next cluster comes due, and the cluster stops receiving tasks. -/
  | fieldTestDue (cluster : Nat)
  /-- `TEST_ITEM` (R352): A 40 µs TEST item runs on the cluster under test. -/
  | testItem (tenthC : Int) (fails : List Nat)
  /-- `FIELD_TEST_END` (R354): The test ends, failures are retested and judged, and the cluster returns to dispatch. -/
  | fieldTestEnd (bad : List Nat)
  /-- `TST_TRIG` (R353): A TEST_TRIG edge or TST_TRIG write makes the next field test due at once. -/
  | tstTrig (w : Option RegWrite)
  /-- `RESTORE` (R357): TST_HIST_CTL.RESTORE returns the selected unit to service and clears its counts. -/
  | restore (w : RegWrite)
  /-- `EVC_DELIVER` (R363): Each FCLK cycle, the highest-priority eligible source of each target is delivered and
  pushed. -/
  | evcDeliver (target : Nat)
  /-- `HOLDOFF_EXPIRY` (R365): A holding group's timer expires and the group is released. -/
  | holdoffExpiry (group : Nat)
  /-- `EVC_EOI` (R364): Pops the running-priority stack of the named target. -/
  | evcEoi (w : RegWrite)
  /-- `EVC_SWSET` (R360): Sets a software source pending. -/
  | evcSwset (w : RegWrite)
  /-- `EVC_PEND_CLEAR` (R360): A W1C write of EVC_PEND clears software sources. -/
  | evcPendClear (group : Nat) (w : RegWrite)
  /-- `EVC_ROUTE_WRITE` (R362): Writes a source's route, or refuses a change involving the Toluo target. -/
  | evcRouteWrite (source : Nat) (w : RegWrite)
  /-- `EVC_HOLD_WRITE` (R366): Writes a group's hold-off or chain setting for its next start. -/
  | evcHoldWrite (group : Nat) (w : RegWrite)
  /-- `LOCK` (R35): Writing PG_CTRL.LOCK locks every RWL field of the instance. -/
  | lock (addr : Nat) (w : RegWrite)
  /-- `REGISTER_WRITE` (R37): A write to a register without a row of its own takes effect, or is refused and
  recorded. -/
  | registerWrite (addr : Nat) (w : RegWrite)
  /-- `LOW_WORD_READ` (R28): A read of a 64-bit register's low word latches its high word for that origin. -/
  | lowWordRead (o : Origin) (addr be : Nat)
  /-- `XLT_PTR_BASE_WRITE` (R47): Places the page-table region, or refuses an overlapping or busy placement. -/
  | xltPtrBaseWrite (addr : Nat) (w : RegWrite)
  /-- `XLT_PTR_SIZE_WRITE` (R47): Sizes the page-table region, or refuses the write. -/
  | xltPtrSizeWrite (w : RegWrite)
  /-- `RBD_BASE_WRITE` (R47): Places the Reedbed region, or refuses the write. -/
  | rbdBaseWrite (addr : Nat) (w : RegWrite)
  /-- `ATC_SPILL_POOL_WRITE` (R103): Resizes the spill pool at its lower end, or refuses the write. -/
  | atcSpillPoolWrite (w : RegWrite)
  /-- `RBD_CFG_EN_WRITE` (R47): Enables or disables Reedbed, and refuses enabling before its region is placed. -/
  | rbdCfgEnWrite (w : RegWrite)
  /-- `SLC_STAGE_WRITE` (R185): Divides the staging buffer, or is refused while space is held. -/
  | slcStageWrite (w : RegWrite)
  /-- `SLC_DOM_T0_QUOTA_WRITE` (R167): Sets a domain's T0 quota, or leaves it unchanged when the quota rules would
  break. -/
  | slcDomT0QuotaWrite (w : RegWrite)
  /-- `PWR_EPOCH_CFG_WRITE` (R282): A new epoch length or Step Mark source takes effect at the next boundary. -/
  | pwrEpochCfgWrite (w : RegWrite)
  /-- `PWR_HIST_CLR` (R297): PWR_HIST_SEL with CLR zeroes the selected histogram. -/
  | pwrHistClr (w : RegWrite)
  /-- `COMMIT` (R376): GLB_CAL_CTL.COMMIT checks and reprograms the staged calibration set. -/
  | commit (w : RegWrite)
  /-- `CAL_COMMIT_DONE` (R376): The calibration region is reprogrammed and read back within 40 s. -/
  | calCommitDone (ok : Bool)
  /-- `DISCARD` (R376): GLB_CAL_CTL.DISCARD empties the staged copy. -/
  | discard (w : RegWrite)
  /-- `CAL_WDATA_WRITE` (R376): A word written to GLB_CAL_WDATA fills the staged copy and advances ADDR. -/
  | calWdataWrite (w : RegWrite)
  /-- `CAL_RDATA_READ` (R376): A read of GLB_CAL_RDATA returns a stored word and advances ADDR. -/
  | calRdataRead (o : Origin)
  /-- `RELEASE` (R379): GLB_T3_CTL.RELEASE trims unclaimed retained T3 sectors and discards park records not yet
  reinstated. -/
  | release (w : RegWrite)
  /-- `UNKNOWN_MTYPE` (R238): A received message of unknown MTYPE, or of a type not permitted for the sender's role
  or on the wrong virtual channel, is refused with E_FORMAT. -/
  | unknownMtype (m : RxMsg)
  /-- `RING_IRQ_TIMER` (R265): The DOM_RING_IRQ timer runs out after the oldest unsignalled completion, and the
  ring's MSI-X vector fires anyway. -/
  | ringIrqTimer (fn ring : Nat)
  /-- `POWER_UP_STOPPED` (R298): A power-up cancelled by a request for OFF stops, and PWR_EVT.ISLAND is set. -/
  | powerUpStopped (island : Nat)
  /-- `LCTL_REQ_REPEAT` (R235): An LCTL QUIET_REQ or SLEEP_REQ that has received no answer is repeated after 1 µs. -/
  | lctlReqRepeat (port : Nat)
  /-- `STEPMARK_OUT_PULSE_END` (R393): STEPMARK_OUT falls once its pulse width of (SMOUT_W + 1) × 10 ns has run out. -/
  | stepmarkOutPulseEnd
  /-- `TAP_RESET_INSTRUCTION` (R368): The TAP reset instruction, where the TAP is open, requests a device reset. -/
  | tapResetInstruction
  /-- `DEBUG_TOKEN_EXPIRY` (R311): Flash time passes the expiry named in an accepted vendor debug token, and the
  debug unlock lapses. -/
  | debugTokenExpiry
  /-- `SPDM_HEARTBEAT_EXPIRY` (R276): An SPDM session with HBEAT whose heartbeat period passes without traffic is
  terminated by the responder. -/
  | spdmHeartbeatExpiry (session : Nat)
  /-- `VERIFY_COMPLETE` (R278): Toluo finishes receiving the Yilloth image and verifying its signature, and reports
  VerifyComplete. -/
  | verifyComplete (image : Image)
  deriving DecidableEq, Repr

end Sys2Proof
end

