-- ==== Sys2Proof/Machine/State.lean ====
section
/-! DEFINITION. Machine/State.lean: the whole state of the device as plain data, and the device right after reset. -/

namespace Sys2Proof.Machine

/-- Why the machine stops. -/
inductive Fault where
  /-- A register access at an offset outside every BAR and every BAR2 window (R26). Raised by `REGISTER_WRITE` and
  `LOW_WORD_READ`. Safe: the manual gives no such address an effect. -/
  | noSuchAddress
  deriving DecidableEq, Repr

/-- Why a command has no meaning. -/
inductive Refusal where
  /-- The command has no meaning in this model yet. Raised by `exec` alone. Safe. -/
  | notModelled (mnemonic : String)
  deriving DecidableEq, Repr

/-- The pins that the device drives (chapter 18). -/
inductive Pin where
  | alertN | stepmarkOut | thermtripN | cxlPerstN | onfiWpN | coreVid0 | coreVid1
  /-- `GPIO`[15:12]. -/
  | gpioHi
  deriving DecidableEq, Repr

/-- What the device gives to the outside. -/
inductive Out where
  /-- A completion written to a slot of a CQ (R264). -/
  | cqe (fn ring slot : Nat) (c : Completion)
  /-- Bytes written to host memory by a function. -/
  | hostWrite (fn addr : Nat) (bytes : List Byte)
  /-- An MSI-X message of a function. -/
  | msix (fn vector : Nat)
  /-- Toluo's interrupt input (R363). -/
  | toluoIrq (source : Nat)
  /-- The data returned by a register read. -/
  | regData (o : Origin) (addr : Nat) (v : Word)
  /-- A Causeway message: port, session (none at port scope), header and body before encryption. -/
  | cwy (port : Nat) (session : Option Nat) (hdr body : List Byte)
  /-- A Causeway IDLE flit or link-layer signal: kind and value. -/
  | link (port kind value : Nat)
  /-- The header of a flit that a port sends for the first time (Table 11.2). -/
  | flit (port hdr : Nat)
  /-- A PLDM message: receiver or session, kind and data. -/
  | pldm (dest kind : Nat) (data : List Nat)
  /-- An SPDM response. -/
  | spdm (session : Nat) (resp : List Byte)
  /-- A level on a pin. -/
  | pin (p : Pin) (level : Nat)
  deriving DecidableEq, Repr

/-- The state of the device. -/
structure State where
  /-- Commands that wait, first in, first out. -/
  pending : List Instr := []
  /-- `DEV_TIME`, in ns (R19). -/
  now : Nat := 0
  /-- Bytes of tiers T0, T1 and T2: key `tier * 2 ^ 56 + address`. -/
  mem : List Host.Cell := []
  /-- Registers that do not hold their reset value: BAR0 by offset, BAR2 by `0x0400_0000 + function * 0x8000 + offset`. -/
  regs : Assoc Nat Word := []
  /-- The 64-bit counters of the register pages, by the offset of the low word. -/
  ctrs : Assoc Nat Nat := []
  /-- The high word latched for each origin: offset of the high word and its value (R28). -/
  latches : Assoc Origin (Nat × Word) := []
  /-- What the device has given to the outside, newest first. -/
  outs : List Out := []
  /-- The model's own counter of free values drawn. -/
  fresh : Nat := 0
  glb : Glb := {}
  xlt : Xlt := {}
  slc : Slc := {}
  att : Att := {}
  pwr : Pwr := {}
  hif : Hif := {}
  mgmt : Mgmt := {}
  flt : Flt := {}
  evc : Evc := {}
  lve : Lve := {}
  aud : Aud := {}
  cwy : Cwy := {}
  rbd : Rbd := {}
  pea : Pea := {}
  sdg : Sdg := {}
  deriving DecidableEq, Repr

/-- The image that slot A holds in `State.reset` (log entry 2). -/
def firstImage : Image := { version := 0x01000000, test := false, good := true, meas := [] }

/-- The device right after a power-on reset and before start-up has ended: every register at its reset value, nothing in flight,
and an image running from slot A. -/
def State.reset : State := { glb := { slotA := some firstImage, running := some 0 } }

end Sys2Proof.Machine
end

