-- ==== Sys2Proof/Machine/Ops.lean ====
section
/-! DEFINITION. Machine/Ops.lean: the named operations over memory, registers, counters and free values, and the frame
of every command. -/

namespace Sys2Proof.Machine

/-! ### Memory -/

/-- The canonical form of memory: addresses strictly rising, and no entry equal to what an unlisted address reads as. -/
abbrev Memory.wf (m : List Host.Cell) : Prop := m.Pairwise (fun a b => a.1 < b.1) ∧ ∀ c ∈ m, c.2 ≠ 0#8

/-- What an unlisted byte reads as: T0 is zero-filled at start-up (R371), and T1 and T2 are not readable before they are
written (log entry 1). -/
def Memory.unlisted : Byte := 0#8

/-- The byte at an address. -/
def Memory.read (m : List Host.Cell) (a : Nat) : Byte :=
  match m with
  | [] => Memory.unlisted
  | (k, b) :: rest => if k = a then b else Memory.read rest a

/-- Memory with one byte changed, in canonical form. -/
def Memory.write (m : List Host.Cell) (a : Nat) (b : Byte) : List Host.Cell :=
  match m with
  | [] => if b = Memory.unlisted then [] else [(a, b)]
  | (k, c) :: rest =>
    if a < k then (if b = Memory.unlisted then (k, c) :: rest else (a, b) :: (k, c) :: rest)
    else if a = k then (if b = Memory.unlisted then rest else (a, b) :: rest)
    else (k, c) :: Memory.write rest a b

/-- The cells listed again in canonical form. -/
def Memory.canon (m : List Host.Cell) : List Host.Cell := m.foldr (fun c acc => Memory.write acc c.1 c.2) []

/-- The key of a byte of tier `t` (R15: tiers have separate address spaces). -/
def memKey (tier addr : Nat) : Nat := tier * 2 ^ 56 + addr

/-- The cells that bytes written from an address on make. -/
def cellsAt (a : Nat) : List Byte → List Host.Cell
  | [] => []
  | b :: bs => if b = Memory.unlisted then cellsAt (a + 1) bs else (a, b) :: cellsAt (a + 1) bs

/-- Bytes of a tier. -/
def State.memRead (s : State) (tier addr n : Nat) : List Byte :=
  let k := memKey tier addr
  let cells := s.mem.filter fun c => decide (k ≤ c.1) && decide (c.1 < k + n)
  (List.range n).map fun i => Memory.read cells (k + i)

/-- A run of bytes written to a tier. -/
def State.memWrite (s : State) (tier addr : Nat) (bs : List Byte) : State :=
  let k := memKey tier addr
  { s with mem := s.mem.filter (fun c => decide (c.1 < k)) ++ cellsAt k bs
      ++ s.mem.filter (fun c => decide (k + bs.length ≤ c.1)) }

/-! ### Registers -/

/-- The blocks of Table 2.1: number, base, instances, stride. -/
def blockMap : List (Nat × Nat × Nat × Nat) := [
  (0x01, 0x000000, 1, 0x10000), (0x02, 0x010000, 1, 0x10000), (0x03, 0x020000, 1, 0x10000),
  (0x04, 0x030000, 1, 0x10000), (0x05, 0x040000, 1, 0x10000), (0x06, 0x050000, 1, 0x10000),
  (0x07, 0x060000, 2, 0x8000), (0x08, 0x070000, 1, 0x10000), (0x09, 0x080000, 1, 0x10000),
  (0x0A, 0x090000, 1, 0x10000), (0x0B, 0x0A0000, 1, 0x10000), (0x10, 0x100000, 16, 0x10000),
  (0x20, 0x200000, 32, 0x8000), (0x30, 0x300000, 1, 0x10000), (0x31, 0x310000, 4, 0x4000),
  (0x38, 0x380000, 8, 0x4000), (0x3F, 0x3F0000, 1, 0x10000)]

/-- Where the BAR2 window of function 0 stands in the register numbering of the model; windows are 32 KiB apart. -/
def domBase : Nat := 0x04000000

/-- The address of a register of the `DOM` page of a function. -/
def domReg (fn off : Nat) : Nat := domBase + fn * 0x8000 + off

/-- A register page as an offset names it: block, instance, page and offset in the page. -/
structure RegPlace where
  block : Nat
  inst : Nat
  page : Nat
  off : Nat
  deriving DecidableEq, Repr

/-- The place of an offset (R29, Table 2.6). An offset of BAR0 below 0x0040_0000 that Table 2.1 gives to no block has none, and
its accesses are those of a reserved offset (log entry 98). -/
def placeOf (a : Nat) : Option RegPlace :=
  if domBase ≤ a then
    let d := a - domBase
    if d / 0x8000 ≤ 256 then some ⟨0x40, d / 0x8000, (d % 0x8000) / 0x1000, d % 0x1000⟩ else none
  else
    match blockMap.find? fun b => decide (b.2.1 ≤ a) && decide (a < b.2.1 + b.2.2.1 * b.2.2.2) with
    | some (n, base, _, stride) =>
      let d := a - base
      some ⟨n, d / stride, (d % stride) / 0x1000, d % 0x1000⟩
    | none => none

/-- The register specification at a place, if the manual puts a register there. -/
def specAt (p : RegPlace) : Option RegSpec :=
  (regsOf p.block).find? fun r =>
    r.page == p.page && decide (r.off ≤ p.off) && (p.off - r.off) % r.stride == 0 && decide ((p.off - r.off) / r.stride < r.n)

/-- The reset value that the fields of a register give. -/
def resetWord (r : RegSpec) : Nat := r.fields.foldl (fun acc f => acc + f.reset * 2 ^ f.lo) 0

/-- The reset value at an offset. -/
def resetAt (a : Nat) : Nat :=
  match placeOf a with
  | some p => if p.off < 0x40 then 0 else ((specAt p).map resetWord).getD 0
  | none => 0

/-- The reference envelope of a variant, W (Table 13.2), the reset value of `PWR_ENVELOPE.WATTS`. -/
def Variant.envelope : Variant → Nat
  | .a8x4 => 700 | .a8x2 => 640 | .a4x2 => 470 | .c8x4 => 430 | .a8x4n => 660

/-- The stored value of a register. -/
def State.reg (s : State) (a : Nat) : Nat :=
  match s.regs.get? a with
  | some v => v.toNat
  | none => if a = Reg.pwrEnvelope then resetAt a + s.glb.variant.envelope else resetAt a

/-- Bits `[hi:lo]` of a number. -/
def bits (v hi lo : Nat) : Nat := (v / 2 ^ lo) % 2 ^ (hi + 1 - lo)

/-- One bit of a number. -/
def bit (v i : Nat) : Bool := v.testBit i

/-- A number with bits `[hi:lo]` replaced. -/
def setBits (v hi lo x : Nat) : Nat :=
  let w := 2 ^ (hi + 1 - lo)
  v - bits v hi lo * 2 ^ lo + (x % w) * 2 ^ lo

/-- A field of a stored register. -/
def State.fld (s : State) (a hi lo : Nat) : Nat := bits (s.reg a) hi lo

/-- A register with a new stored value. -/
def State.setReg (s : State) (a v : Nat) : State := { s with regs := s.regs.set a (BitVec.ofNat 32 v) }

/-- A field of a register with a new value. -/
def State.setFld (s : State) (a hi lo v : Nat) : State := s.setReg a (setBits (s.reg a) hi lo v)

/-- One 64-bit counter increased, modulo 2^64. -/
def State.bump (s : State) (c : Nat) (n : Nat := 1) : State :=
  { s with ctrs := s.ctrs.set c ((s.ctrs.getD c 0 + n) % 2 ^ 64) }

/-- Whether a domain is confidential and not `FREE` (R319). -/
def State.conf (s : State) (d : Nat) : Bool :=
  match s.lve.doms.get? d with
  | some r => (r.conf || s.lve.sole == some d) && decide (r.st ≠ .free)
  | none => false

/-- An aggregate counter increased for a domain: a confidential domain counts in its own set alone (R320, Table 14.11). -/
def State.bumpD (s : State) (d c : Nat) (n : Nat := 1) : State :=
  if s.conf d then
    { s with lve := { s.lve with counters := s.lve.counters.set (d, c) ((s.lve.counters.getD (d, c) 0 + n) % 2 ^ 64) } }
  else s.bump c n

/-- Something given to the outside. -/
def State.emit (s : State) (o : Out) : State := { s with outs := o :: s.outs }

/-- Draw a free value: the next index of the model's counter. -/
def State.draw (s : State) : Nat × State := (s.fresh, { s with fresh := s.fresh + 1 })

/-! ### Scopes -/

/-- The parts of the state that an operation may change: registers, counters, outputs, the counter of free values and the units. -/
structure Scope where
  regs : Bool := false
  ctrs : Bool := false
  latches : Bool := false
  outs : Bool := false
  fresh : Bool := false
  glb : Bool := false
  xlt : Bool := false
  slc : Bool := false
  att : Bool := false
  pwr : Bool := false
  hif : Bool := false
  mgmt : Bool := false
  flt : Bool := false
  evc : Bool := false
  lve : Bool := false
  /-- The counter sets of the confidential domains, of Levee's state alone. -/
  counts : Bool := false
  aud : Bool := false
  cwy : Bool := false
  rbd : Bool := false
  pea : Bool := false
  sdg : Bool := false
  deriving DecidableEq, Repr

/-- The state after an operation that may change the parts in its scope and no other. -/
def State.only (s : State) (c : Scope) (t : State) : State :=
  { s with
    regs := bif c.regs then t.regs else s.regs
    ctrs := bif c.ctrs then t.ctrs else s.ctrs
    latches := bif c.latches then t.latches else s.latches
    outs := bif c.outs then t.outs else s.outs
    fresh := bif c.fresh then t.fresh else s.fresh
    glb := bif c.glb then t.glb else s.glb
    xlt := bif c.xlt then t.xlt else s.xlt
    slc := bif c.slc then t.slc else s.slc
    att := bif c.att then t.att else s.att
    pwr := bif c.pwr then t.pwr else s.pwr
    hif := bif c.hif then t.hif else s.hif
    mgmt := bif c.mgmt then t.mgmt else s.mgmt
    flt := bif c.flt then t.flt else s.flt
    evc := bif c.evc then t.evc else s.evc
    lve := bif c.lve then t.lve else { s.lve with counters := bif c.counts then t.lve.counters else s.lve.counters }
    aud := bif c.aud then t.aud else s.aud
    cwy := bif c.cwy then t.cwy else s.cwy
    rbd := bif c.rbd then t.rbd else s.rbd
    pea := bif c.pea then t.pea else s.pea
    sdg := bif c.sdg then t.sdg else s.sdg }

/-! ### The variant -/

/-- Attention cores are present (R2). -/
def Variant.hasAttn : Variant → Bool
  | .c8x4 => false
  | _ => true

/-- Peat and T3 are present (R6). -/
def Variant.hasFlash : Variant → Bool
  | .a8x4n => false
  | _ => true

/-- Causeway ports (R4). -/
def Variant.ports : Variant → Nat
  | .a8x2 => 16 | .a4x2 => 16 | _ => 32

/-- HBM stacks present, as a mask. -/
def Variant.hbmMask : Variant → Nat
  | .a4x2 => 0x33 | _ => 0xFF

/-- HBM stacks of a variant, in order (R5). -/
def Variant.stacks (v : Variant) : List Nat := (List.range 8).filter v.hbmMask.testBit

/-- The stack that holds a T0 address, one of those that are present (R5). Which one is left open (log entry 45). -/
def Variant.stackAt (v : Variant) (addr : Nat) : Nat := v.stacks.getD (Config.stackOf addr % v.stacks.length) 0

/-- T0 capacity in GiB. -/
def Variant.t0Gib : Variant → Nat
  | .a4x2 => 192 | _ => 384

/-- Whether an instance is present on a variant. -/
def Variant.hasInst (v : Variant) (block inst : Nat) : Bool :=
  match block with
  | 0x10 => v.hasAttn && decide (inst < 16)
  | 0x20 => decide (inst < v.ports)
  | 0x0B => v.hasFlash
  | 0x38 => v.hbmMask.testBit inst
  | _ => true

/-! ### Lists of records -/

/-- Replace the first element that a test selects. -/
def updFirst {α : Type} (p : α → Bool) (f : α → α) : List α → List α
  | [] => []
  | x :: xs => if p x then f x :: xs else x :: updFirst p f xs

/-- Run a change over the state for each element of a list, in order. -/
def State.forEach {α : Type} (s : State) (l : List α) (f : α → State → State) : State := l.foldl (fun t x => f x t) s

/-- Microseconds and milliseconds in ns. -/
def usNs (n : Nat) : Nat := n * 1000
/-- Milliseconds in ns. -/
def msNs (n : Nat) : Nat := n * 1000000
/-- Seconds in ns. -/
def secNs (n : Nat) : Nat := n * 1000000000

/-! ### Histograms of the pending queues (R297) -/

/-- The depth and delay histograms of a domain: of each class of pending work, and of the queues of the device. -/
def histSets (d : Nat) : List (Nat × Nat × Nat × Nat) :=
  [0, 1].flatMap fun k =>
    ((List.range 6).map fun c => (k, c, 0, d)) ++ (List.range 20).map fun q => (k, 7, q, d)

/-- A bin of a histogram, as the registers show it. -/
def State.histRead (s : State) (k c q d b : Nat) : Nat :=
  if b = 0 then
    s.pwr.samples - s.pwr.histBase.getD (k, c, q, d) 0
      - sumNat ((List.range 15).map fun i => s.pwr.hist.getD (k, c, q, d, i + 1) 0)
  else s.pwr.hist.getD (k, c, q, d, b) 0

/-- The measurement of the running image. -/
def State.measurement (s : State) : List Byte :=
  ((match s.glb.running with
    | some 0 => s.glb.slotA
    | some _ => s.glb.slotB
    | none => none).map Image.meas).getD []

end Sys2Proof.Machine
end

