-- ==== Sys2Proof/Machine/Clock.lean ====
section
/-! DEFINITION. Machine/Clock.lean: a tick of the service clock (R18, R19). -/

namespace Sys2Proof.Machine

/-- One SCLK cycle: `DEV_TIME` advances by one nanosecond. Under PTP discipline the rate correction gathers in `phase`, and each
whole nanosecond of it adds one count or withholds one, so that `DEV_TIME` never moves backwards (R19, R280). The clock stands
while PWRGOOD is low. -/
def State.tick (s : State) : State :=
  if s.glb.phase = .off then s
  else if bit (s.reg Reg.clkPtpCfg) 31 then
    let p := s.pwr.phase + s.pwr.rate
    if 1000000000 ≤ p then { s with now := s.now + 2, pwr := { s.pwr with phase := p - 1000000000 } }
    else if p ≤ -1000000000 then { s with pwr := { s.pwr with phase := p + 1000000000 } }
    else { s with now := s.now + 1, pwr := { s.pwr with phase := p } }
  else { s with now := s.now + 1 }

end Sys2Proof.Machine
end

