-- ==== Sys2Proof/Machine/Numerics.lean ====
section
/-! DEFINITION. Machine/Numerics.lean: the exact and rounded arithmetic of the attention engine and the append unit
(R73, R76, R97 to R101). Finite values are dyadic: an integer times a power of two. -/

namespace Sys2Proof.Machine

/-- An exact finite value, `m * 2^e`. -/
structure Dyadic where
  m : Int
  e : Int
  deriving DecidableEq, Repr

/-- Two to a natural power, as an integer. -/
def pow2 (n : Nat) : Int := (2 : Int) ^ n

/-- The exact sum of two dyadic values. -/
def Dyadic.add (a b : Dyadic) : Dyadic :=
  if a.e ≤ b.e then ⟨a.m + b.m * pow2 (b.e - a.e).toNat, a.e⟩
  else ⟨a.m * pow2 (a.e - b.e).toNat + b.m, b.e⟩

/-- The exact product. -/
def Dyadic.mul (a b : Dyadic) : Dyadic := ⟨a.m * b.m, a.e + b.e⟩

/-- The exact difference. -/
def Dyadic.sub (a b : Dyadic) : Dyadic := a.add ⟨-b.m, b.e⟩

/-- `exact` of a sum (the definitions before R97). -/
def exactSum (l : List Dyadic) : Dyadic := l.foldl Dyadic.add ⟨0, 0⟩

/-- Strict order of dyadic values. -/
def Dyadic.lt (a b : Dyadic) : Bool := decide ((a.sub b).m < 0)

/-- Round the positive value `a / b * 2^e` to `p` significant bits with the least exponent `emin`, to nearest with ties
to even; the answer is the bit pattern of exponent and fraction fields of a binary format with `p - 1` fraction bits. -/
def roundPos (p : Nat) (emin : Int) (a b : Nat) (e : Int) : Nat :=
  if a = 0 ∨ b = 0 then 0 else
  let l0 : Int := (a.log2 : Int) - b.log2 + e
  -- whether a / b * 2^e ≥ 2^l0
  let sh := l0 - e
  let ge := if 0 ≤ sh then decide (b * 2 ^ sh.toNat ≤ a) else decide (b ≤ a * 2 ^ (-sh).toNat)
  let fl := if ge then l0 else l0 - 1
  let t := max emin (fl - ((p : Int) - 1))
  let num : Nat := if t ≤ e then a * 2 ^ (e - t).toNat else a
  let den : Nat := if t ≤ e then b else b * 2 ^ (t - e).toNat
  let q : Nat := num / den
  let r : Nat := num % den
  let q : Nat := if den < 2 * r ∨ (2 * r = den ∧ q % 2 = 1) then q + 1 else q
  if q < 2 ^ (p - 1) then q
  else (t - emin + 1).toNat * 2 ^ (p - 1) + (q - 2 ^ (p - 1))

/-- Bit pattern of infinity of binary32. -/
def f32Inf : Nat := 0x7F800000

/-- `rn` of the quotient `n / d * 2^e` (R97): round to FP32. A real zero gives +0 (log entry 20). -/
def rnQuot (n : Int) (d : Nat) (e : Int) : F32 :=
  let bits := min f32Inf (roundPos 24 (-149) n.natAbs d e)
  BitVec.ofNat 32 (if n < 0 then 0x80000000 + bits else bits)

/-- `rn` of a dyadic value. -/
def rn (a : Dyadic) : F32 := rnQuot a.m 1 a.e

/-- Whether a binary32 value is finite. -/
def f32Finite (x : F32) : Bool := (x.toNat / 2 ^ 23) % 256 != 255

/-- The exact value of a finite binary32 value. -/
def f32Val (x : F32) : Dyadic :=
  let ex : Nat := (x.toNat / 2 ^ 23) % 256
  let f : Nat := x.toNat % 2 ^ 23
  let m : Int := if ex = 0 then f else f + 2 ^ 23
  let e : Int := if ex = 0 then -149 else (ex : Int) - 150
  ⟨if x.msb then -m else m, e⟩

/-- A bf16 value as binary32 (R73: BF16 is the upper 16 bits of binary32). -/
def bf16ToF32 (x : Bf16) : F32 := BitVec.ofNat 32 (x.toNat * 2 ^ 16)

/-- The exact value of a finite bf16 value. -/
def bf16Val (x : Bf16) : Dyadic := f32Val (bf16ToF32 x)

/-- Whether a bf16 value is finite (R75). -/
def bf16Finite (x : Bf16) : Bool := f32Finite (bf16ToF32 x)

/-- Round binary32 to bf16, to nearest with ties to even; infinities stay infinite and the sign is kept. -/
def toBf16 (x : F32) : Bf16 :=
  let mag := x.toNat % 2 ^ 31
  let q := mag / 2 ^ 16
  let r := mag % 2 ^ 16
  let q := if 2 ^ 15 < r ∨ (r = 2 ^ 15 ∧ q % 2 = 1) then q + 1 else q
  BitVec.ofNat 16 (if x.msb then 2 ^ 15 + q else q)

/-- An infinity with the sign of a product. -/
def infOf (a b : F32) : F32 := if a.msb == b.msb then 0x7F800000#32 else 0xFF800000#32

/-- Rounded sum. An infinity stays, and two of opposite sign have no sum (log entry 40). -/
def fAdd (a b : F32) : F32 :=
  if f32Finite a && f32Finite b then rn ((f32Val a).add (f32Val b))
  else if f32Finite b then a
  else if f32Finite a || a == b then b
  else Config.invalidF32 a b

/-- Rounded difference. -/
def fSub (a b : F32) : F32 := fAdd a (b ^^^ 0x80000000#32)

/-- Rounded product. -/
def fMul (a b : F32) : F32 :=
  if f32Finite a && f32Finite b then rn ((f32Val a).mul (f32Val b))
  else if (f32Val a).m = 0 ∨ (f32Val b).m = 0 then Config.invalidF32 a b
  else infOf a b

/-- Rounded quotient; the divisor is not zero where it is used. -/
def fDiv (a b : F32) : F32 :=
  if f32Finite a && f32Finite b then
    let x := f32Val a
    let y := f32Val b
    rnQuot (if y.m < 0 then -x.m else x.m) y.m.natAbs (x.e - y.e)
  else if f32Finite a then 0
  else if f32Finite b then infOf a b
  else Config.invalidF32 a b

/-- The larger of two binary32 values that are finite or −∞. -/
def fMax (a b : F32) : F32 :=
  if a = 0xFF800000#32 then b else if b = 0xFF800000#32 then a
  else if (f32Val a).lt (f32Val b) then b else a

/-- Negative infinity, the maximum of an empty partial (R101). -/
def negInf : F32 := 0xFF800000#32

/-- Round a dyadic value to the nearest integer, ties to even. -/
def Dyadic.rint (n : Int) (d : Nat) (e : Int) : Int :=
  let num : Nat := if 0 ≤ e then n.natAbs * 2 ^ e.toNat else n.natAbs
  let den : Nat := if 0 ≤ e then d else d * 2 ^ (-e).toNat
  let q : Nat := num / den
  let r : Nat := num % den
  let q : Nat := if den < 2 * r ∨ (2 * r = den ∧ q % 2 = 1) then q + 1 else q
  if n < 0 then -(q : Int) else q

/-- The exact value of an FP8E4M3 code that is not NaN (R73): bias 7, subnormals. -/
def fp8Val (x : Fp8) : Dyadic :=
  let ex : Nat := (x.toNat / 8) % 16
  let f : Nat := x.toNat % 8
  let m : Int := if ex = 0 then f else f + 8
  let e : Int := if ex = 0 then -9 else (ex : Int) - 10
  ⟨if x.msb then -m else m, e⟩

/-- Whether the magnitude of a value is above 448, the largest FP8E4M3 magnitude (R73, R77). -/
def aboveFp8 (a : Dyadic) : Bool := Dyadic.lt ⟨448, 0⟩ ⟨a.m.natAbs, a.e⟩

/-- `fp8_rne` (R77): round to FP8E4M3, saturating at ±448. The sign is that of the value it came from. -/
def toFp8 (neg : Bool) (a : Dyadic) : Fp8 :=
  let bits := if aboveFp8 a then 0x7E else roundPos 4 (-9) a.m.natAbs 1 a.e
  BitVec.ofNat 8 (if neg then 0x80 + bits else bits)

/-- The value of an INT4 code, two's complement (R73; a reader decodes 0x8 as −8). -/
def int4Val (q : Nat) : Int := if q % 16 < 8 then ((q % 16 : Nat) : Int) else ((q % 16 : Nat) : Int) - 16

/-- The quantised group of R76: the bf16 scale and the 4-bit codes. `outl` marks the outlier channels of format 0x4. -/
def int4Group (x : List (Bf16 × Bool)) : Bf16 × List Nat :=
  let amax := x.foldl (fun m p => if p.2 then m else max m (p.1.toNat % 2 ^ 15)) 0
  let a := bf16Val (BitVec.ofNat 16 amax)
  let s := toBf16 (rnQuot a.m 7 a.e)
  if s = 0 then (0#16, x.map fun _ => 0) else
  let sv := bf16Val s
  (s, x.map fun p =>
    if p.2 then 0 else
    let v := bf16Val p.1
    let q := f32Val (rnQuot v.m sv.m.natAbs (v.e - sv.e))
    let r := Dyadic.rint q.m 1 q.e
    let r := min (max r (-7)) 7
    (r % 16).toNat)

/-- `psum` and `merge` share one tree (R101): split at the largest power of two below the length. -/
def pairTree {α : Type} (f : α → α → α) : Nat → List α → Option α
  | 0, _ => none
  | _ + 1, [] => none
  | _ + 1, [x] => some x
  | fuel + 1, xs =>
    let k := 2 ^ ((xs.length - 1).log2)
    match pairTree f fuel (xs.take k), pairTree f fuel (xs.drop k) with
    | some a, some b => some (f a b)
    | a, none => a
    | none, b => b

/-- `psum` (before R97) of FP32 values; the sum of none is +0. -/
def psum (xs : List F32) : F32 := (pairTree fAdd (xs.length + 1) xs).getD 0

/-- `e^y` for `y = num / 2^200`, as a numerator over 2^200, by 40 terms of the series at `y / 256` and eight squarings. -/
def expFixed (y : Nat) : Nat :=
  let one := 2 ^ 200
  let z := y / 256
  let step := fun (acc : Nat × Nat) (k : Nat) =>
    let term := acc.1 * z / one / (k + 1)
    (term, acc.2 + term)
  let v := ((List.range 40).foldl step (one, one)).2
  (List.range 8).foldl (fun v _ => v * v / one) v

/-- `exp32` (R98). The values R98 fixes are fixed: 1 at 0, +0 at −∞ and below 2^−126. Elsewhere the free value of Config
is taken where it lies within 2 ulp of `e^x`, and otherwise the nearest FP32 value, so the bound always holds (log entry
7). -/
def exp32 (x : F32) : F32 :=
  if x.toNat % 2 ^ 31 = 0 then 0x3F800000#32
  else if x = negInf then 0
  else if !x.msb ∨ !f32Finite x then Config.exp32 x
  else
    let v := f32Val x
    if Dyadic.lt v ⟨-88, 0⟩ then 0 else
    -- y = |x| as a numerator over 2^200
    let y := v.m.natAbs * 2 ^ (v.e + 200).toNat
    let ey := expFixed y
    -- e^x = 2^200 / ey
    if ey > 2 ^ 326 then 0 else
    let near := rnQuot (2 ^ 200) ey 0
    let c := Config.exp32 x
    let ulp := (near.toNat / 2 ^ 23 : Nat)  -- biased exponent; one ulp is 2^(ulp - 150)
    -- |c − e^x| ≤ 2 ulp, compared as integers over ey * 2^150
    let cv := f32Val c
    let cn : Nat := cv.m.natAbs * 2 ^ (cv.e + 150).toNat * ey
    let en : Nat := 2 ^ 350
    let diff := if cn < en then en - cn else cn - en
    if f32Finite c ∧ !c.msb ∧ diff ≤ 2 * 2 ^ ulp * ey then c else near

/-- `1 / √D` rounded to FP32, the default `SCALE` of R94. -/
def defaultScale (d : Nat) : F32 := rnQuot (Nat.sqrt (2 ^ 200 / max d 1)) 1 (-100)

end Sys2Proof.Machine
end

