-- ==== Sys2Proof/Machine/Flags.lean ====
section
/-! DEFINITION. Machine/Flags.lean: the error and event bits of the register pages, the event-controller sources that
they assert, and the hold-off groups (chapters 2 and 16). -/

namespace Sys2Proof.Machine

/-- Set a bit of the `PG_ERR` of a page, of the instance `off` bytes further on. -/
def State.setErr (s : State) (e : Nat × Nat) (off : Nat := 0) : State :=
  let a := e.1 + off + 0x10
  s.setReg a (s.reg a ||| 2 ^ e.2)

/-- Set a bit of the `PG_EVT` of a page. -/
def State.setEvt (s : State) (e : Nat × Nat) (off : Nat := 0) : State :=
  let a := e.1 + off + 0x18
  s.setReg a (s.reg a ||| 2 ^ e.2)

/-- An error that a request sets: a confidential domain's requests do not set it (Table 14.11). -/
def State.setErrD (s : State) (d : Nat) (e : Nat × Nat) (off : Nat := 0) : State :=
  if s.conf d then s else s.setErr e off

/-- The first source of an instance: its error source, with the event source one above (Table 16.1). -/
def sourceOf (block inst : Nat) : Option Nat :=
  match block with
  | 0x01 => some 0 | 0x02 => some 2 | 0x03 => some 4 | 0x04 => some 6 | 0x05 => some 8 | 0x06 => some 10
  | 0x08 => some 12 | 0x09 => some 14 | 0x0A => some 16 | 0x0B => some 18 | 0x30 => some 20 | 0x3F => some 22
  | 0x07 => if inst < 2 then some (24 + 2 * inst) else none
  | 0x40 => if inst = 0 then some 28 else none
  | 0x10 => if inst < 16 then some (32 + 2 * inst) else none
  | 0x20 => if inst < 32 then some (64 + 2 * inst) else none
  | 0x31 => if inst < 4 then some (128 + 2 * inst) else none
  | 0x38 => if inst < 8 then some (136 + 2 * inst) else none
  | _ => none

/-- The source that a stored register asserts, if it is a `PG_ERR` or a `PG_EVT` with an unmasked bit (R32, R359). -/
def State.assertedBy (s : State) (a : Nat) (v : Word) : Option Nat :=
  let off := a % 0x1000
  if off = 0x10 ∨ off = 0x18 then
    let mask := s.reg (a + 4)
    if v &&& ~~~ (BitVec.ofNat 32 mask) = 0 then none
    else match placeOf a with
      | some p => if s.glb.variant.hasInst p.block p.inst then
          (sourceOf p.block p.inst).map fun b => if off = 0x18 then b + 1 else b
        else none
      | none => none
  else none

/-- The pending sources (R360). -/
def State.pendingSources (s : State) : List Nat :=
  (s.regs.filterMap fun r => s.assertedBy r.1 r.2).eraseDups ++ s.evc.soft

/-- The hold-off time of a group in ns (R365, R366). -/
def State.holdNs (s : State) (g : Nat) : Nat :=
  let h := fun (i : Nat) => s.fld (Reg.evcHold + 4 * i) 15 0
  if g % 2 = 1 && bit (s.reg (Reg.evcHold + 4 * (g - 1))) 31 then 0
  else if g % 2 = 0 && bit (s.reg (Reg.evcHold + 4 * g)) 31 then usNs (h (g + 1) * 65536 + h g)
  else usNs (h g)

/-- The state of one group once its pending sources are known (R365): the first source starts the timer, the last to go
returns the group to idle. -/
def State.groupNext (s : State) (pend : List Nat) (g : Nat) : GroupState :=
  if pend.any fun n => n / 32 == g then
    match s.evc.groups.getD g .idle with
    | .idle => if s.holdNs g = 0 then .released else .holding (s.now + s.holdNs g)
    | x => x
  else .idle

/-- Bring the hold-off groups up to date with the pending sources; none runs during a warm reset of the controller. -/
def State.settle (s : State) : State :=
  let pend := if s.flt.evc.warmSince.isSome then [] else s.pendingSources
  let gs := (pend.map (· / 32) ++ s.evc.groups.keys).eraseDups
  let groups := (gs.map fun g => (g, s.groupNext pend g)).filter fun p => decide (p.2 ≠ GroupState.idle)
  { s with evc := { s.evc with groups := groups } }

/-! ### The frame of a command -/

/-- The state after a command that stores nothing to memory: the queue and the time stand, the groups follow. -/
def State.after (s t : State) : State :=
  ({ t with pending := s.pending, now := s.now, mem := s.mem } : State).settle

/-- The scope of Peat's own work on the flash. -/
def Scope.flash : Scope :=
  { regs := true, ctrs := true, glb := true, pwr := true, mgmt := true, flt := true, pea := true }

/-- The scope of the budget scheduler, the clocks and the sensors. -/
def Scope.budget : Scope :=
  { regs := true, ctrs := true, outs := true, pwr := true }

/-- The scope of epochs and Step Mark. -/
def Scope.mark : Scope :=
  { regs := true, ctrs := true, outs := true, glb := true, pwr := true, flt := true, counts := true, cwy := true }

/-- The scope of the NOR flash, the pins and the management sessions. -/
def Scope.board : Scope :=
  { outs := true, glb := true, mgmt := true }

/-- The scope of the host link, the functions and the event controller. -/
def Scope.host : Scope :=
  { regs := true, ctrs := true, outs := true, pwr := true, hif := true
    flt := true, evc := true }

/-- The scope of a command that only answers. -/
def Scope.answer : Scope :=
  { regs := true, ctrs := true, outs := true, hif := true
    flt := true, counts := true, cwy := true }

/-- The scope of Levee's own events. -/
def Scope.levee : Scope := { Scope.answer with lve := true }

/-- The scope of Causeway and the rings. -/
def Scope.link : Scope :=
  { regs := true, ctrs := true, outs := true, fresh := true, xlt := true, att := true, pwr := true, hif := true
    flt := true, counts := true
    aud := true, cwy := true }

/-- The scope of Reedbed's own work on its rows. -/
def Scope.index : Scope :=
  { regs := true, ctrs := true, xlt := true, flt := true, counts := true, rbd := true }

/-- The scope of field tests, reports and the attention cores. -/
def Scope.tests : Scope :=
  { regs := true, ctrs := true, att := true, pwr := true, mgmt := true, flt := true, counts := true }

/-- The scope of the stores, the table of sequences and the attention engine. -/
def Scope.engine : Scope :=
  { regs := true, ctrs := true, outs := true, xlt := true, slc := true, att := true, pwr := true, hif := true
    flt := true, counts := true, cwy := true, pea := true, sdg := true }

/-- The scope of what stores bytes in a tier. -/
def Scope.store : Scope := { Scope.engine with fresh := true, aud := true }

/-- The scope of the index over the stores. -/
def Scope.search : Scope :=
  { regs := true, ctrs := true, outs := true, xlt := true, slc := true, att := true, pwr := true, hif := true
    flt := true, counts := true, cwy := true, rbd := true, pea := true, sdg := true }

/-- The scope of what searches or fills the index from a requester. -/
def Scope.lookup : Scope := { Scope.search with fresh := true, aud := true }

/-- The scope of a command on the tables of models, sequences, objects and slots, or on the audit log. -/
def Scope.command : Scope :=
  { regs := true, ctrs := true, outs := true, fresh := true, xlt := true, pwr := true, hif := true, flt := true, counts := true
    aud := true, cwy := true }

/-- The scope of the command forms of Levee's requests. -/
def Scope.trust : Scope :=
  { regs := true, ctrs := true, outs := true, fresh := true, slc := true, pwr := true, hif := true, mgmt := true, flt := true
    lve := true, aud := true, cwy := true }

/-- The scope of a request on the Levee channel, of a teardown and of the loss of a key. -/
def Scope.channel : Scope := { Scope.store with mgmt := true, rbd := true, lve := true }

/-- The scope of the erasure of T3 blocks after a teardown. -/
def Scope.erasure : Scope := { Scope.flash with lve := true }

/-- The scope of an update request. -/
def Scope.update : Scope := { Scope.budget with aud := true }

/-- The scope of the end of start-up. -/
def Scope.startup : Scope := { Scope.flash with att := true, aud := true, cwy := true }

/-- The scope of a write of a register: the register, the refusal record, the audit log, and the units whose events follow a
write. -/
def Scope.row : Scope :=
  { regs := true, ctrs := true, outs := true, glb := true, pwr := true, hif := true, aud := true }

/-- The scope of a write that stops an engine or gives up a tier. -/
def Scope.rowEngine : Scope := { Scope.engine with glb := true, aud := true, rbd := true }

/-- The scope of what may reach every unit: all but the words that register reads have latched. -/
def Scope.device : Scope := { Scope.channel with glb := true, evc := true }

/-- The scope of a register read. -/
def Scope.reading : Scope :=
  { regs := true, latches := true, outs := true, fresh := true }

/-- The state after a command that stores nothing and changes the parts of a scope alone. -/
def State.afterIn (s : State) (c : Scope) (t : State) : State := s.after (s.only c t)

/-- The state after a command that stores to memory. -/
def State.afterMem (s t : State) : State :=
  ({ t with pending := s.pending, now := s.now, mem := Memory.canon t.mem } : State).settle

/-- The state after a command that stores to memory and changes the parts of a scope alone. -/
def State.afterMemIn (s : State) (c : Scope) (t : State) : State := s.afterMem { s.only c t with mem := t.mem }

/-- The state after a reset, which starts `DEV_TIME` anew and leaves memory as `m`. -/
def State.afterReset (s t : State) : State :=
  ({ t with pending := s.pending, mem := Memory.canon t.mem } : State).settle

end Sys2Proof.Machine
end

