-- ==== Sys2Proof/Machine/Credit.lean ====
section
/-! DEFINITION. Machine/Credit.lean: energy credits, shapers and admission (R287 to R295), as the other units use them. -/

namespace Sys2Proof.Machine

/-- The index of a class in Table 13.2. -/
def WorkClass.index : WorkClass → Nat
  | .key => 0 | .att => 1 | .move => 2 | .gc => 3 | .scrub => 4 | .test => 5

/-- Quotient rounded up. A term of Table 13.1 is rounded up to a whole credit (log entry 30). -/
def upTo (n d : Nat) : Nat := ceilDiv n d

/-- `ATTN` cost: T0 bytes, multiply-accumulates and Causeway bytes (Table 13.1). -/
def State.attnCost (s : State) (t0 mac opt : Nat) : Nat :=
  upTo (t0 * s.fld Reg.pwrCoef0 31 16) 16000000 + upTo (mac * s.fld Reg.pwrCoef0 15 0) 64000000
    + upTo (opt * s.fld Reg.pwrCoef1 15 0) 16000000

/-- `MOVE` cost: bytes, and NAND rows read or programmed (Table 13.1, R288). -/
def State.moveCost (s : State) (bytes rowsRd rowsPg : Nat) : Nat :=
  upTo (bytes * (s.fld Reg.pwrCoef0 31 16 + s.fld Reg.pwrCoef1 31 16)) 16000000
    + rowsRd * s.fld Reg.pwrCoef2 31 24 + rowsPg * s.fld Reg.pwrCoef2 23 16

/-- `GC` and `SCRUB` cost. -/
def State.rowCost (s : State) (rowsRd rowsPg t0 : Nat) : Nat :=
  rowsRd * s.fld Reg.pwrCoef2 31 24 + rowsPg * s.fld Reg.pwrCoef2 23 16 + upTo (t0 * s.fld Reg.pwrCoef0 31 16) 16000000

/-- `KEY` cost. -/
def State.keyCost (s : State) : Nat := s.fld Reg.pwrCoef2 15 8

/-- The spendable credits S (R289). -/
def State.spendable (s : State) : Int :=
  let p := s.pwr
  let left : Int := if s.now < p.planned then ((p.planned - s.now : Nat) : Int) else 0
  (((p.aNum : Int) * p.grant * 1000000) / (max p.aDen 1 : Nat) - p.spent * 1000000 - p.rhat * left) / 1000000

/-- The reserve (R289). -/
def State.reserve (s : State) : Int :=
  let pm := min (s.fld Reg.pwrEnvelope 23 16) 200
  max 0 (s.pwr.grant * pm / 1000 - s.pwr.reserveSpent)

/-- The credits available to an item: `KEY` items and latency-mode work draw on the reserve, other work does not. -/
def State.available (s : State) (cls : WorkClass) (latency : Bool) : Int :=
  if cls = .key then s.spendable
  else if s.pwr.aNum = 0 then 0
  else if cls = .att && latency then s.spendable
  else s.spendable - s.reserve

/-- A domain's budget. -/
def State.budget (s : State) (d : Nat) : DomBudget := s.pwr.doms.getD d {}

/-- A domain's budget changed. -/
def State.setBudget (s : State) (d : Nat) (f : DomBudget → DomBudget) : State :=
  { s with pwr := { s.pwr with doms := s.pwr.doms.set d (f (s.budget d)) } }

/-- `WEIGHT`, of which 0 acts as 1. -/
def DomBudget.w (b : DomBudget) : Nat := max b.weight 1

/-- The weights of the domains in state `ACTIVE`, domain 0 not counted (R294). -/
def State.weightSum (s : State) : Nat :=
  sumNat ((s.lve.doms.filter fun p => decide (p.2.st = .active) && decide (p.1 ≠ 0)).map fun p => (s.budget p.1).w)

/-- The limit BL of a domain (R294). -/
def State.limit (s : State) (d : Nat) : Nat :=
  let w := (s.budget d).w
  let ep := max (s.fld Reg.pwrAdmit 31 28) 1
  max (s.fld Reg.pwrAdmit 7 0 * 256) (ep * s.pwr.grant.toNat * w / max s.weightSum 1)

/-- `LOW_PCT` in effect. -/
def State.lowPct (s : State) : Nat := min 100 (max 10 (s.fld Reg.pwrAdmit 27 21))

/-- The retry-after hint in µs (R295). -/
def State.retryHint (s : State) (d : Nat) : Nat :=
  let b := s.budget d
  let excess := 100 * b.backlog - s.limit d * s.lowPct
  let us : Nat :=
    if b.donePrev = 0 then upTo (excess * max s.weightSum 1) (100 * b.w * max s.pwr.watts 1)
    else upTo (excess * s.pwr.prevLen) (100 * b.donePrev * 1000)
  min 65535 (max (s.fld Reg.pwrAdmit 15 8) us)

/-- Whether admission refuses work of a cost (R294): `REFUSING` holds until the backlog is below the lower mark. -/
def State.admitRefuses (s : State) (d cost : Nat) : Bool :=
  let b := s.budget d
  let still := b.refusing && !decide (b.backlog * 100 < s.limit d * s.lowPct)
  still || decide (s.limit d < b.backlog + cost)

/-- Book a refusal by admission. -/
def State.refuseAdmission (s : State) (d : Nat) : State :=
  let first := !(s.budget d).refusing
  let s := (s.setBudget d fun b => { b with refusing := true }).bump Reg.pwrAdmitRefuseLo
  if first then s.setEvt Evt.pwrRefusing else s

/-- Admit work: its cost joins the backlog. -/
def State.admitWork (s : State) (d cost : Nat) : State :=
  let low := decide ((s.budget d).backlog * 100 < s.limit d * s.lowPct)
  s.setBudget d fun b => { b with backlog := b.backlog + cost, refusing := b.refusing && !low }

/-- Admitted work completes: its cost leaves the backlog. -/
def State.release (s : State) (d cost : Nat) : State :=
  let s := s.setBudget d fun b => { b with backlog := b.backlog - cost, doneNow := b.doneNow + cost }
  if (s.budget d).backlog * 100 < s.limit d * s.lowPct then s.setBudget d fun b => { b with refusing := false } else s

/-- Charge a dispatched cost to the epoch, the domain's bucket and the class (R288, R290, R292). -/
def State.charge (s : State) (d : Nat) (cls : WorkClass) (latency : Bool) (cost : Nat) : State :=
  let p := s.pwr
  let eligible := decide (cls = .key) || (decide (cls = .att) && latency)
  let p := { p with
    spent := p.spent + cost
    charged := p.charged + cost
    reserveSpent := if eligible then p.reserveSpent + cost else p.reserveSpent
    classSpent := p.classSpent.set cls.index (p.classSpent.getD cls.index 0 + cost) }
  ({ s with pwr := p } : State).setBudget d fun b => if b.rate = 0 then b else { b with bucket := b.bucket - cost }

/-- The state of an island; all are `OFF` until powered (R298). -/
def State.island (s : State) (n : Nat) : Island := s.pwr.islands.getD n .off

/-- Whether the engines of an island run: it is `ON`, and the device is not in `SAFE` (R328). -/
def State.islandOn (s : State) (n : Nat) : Bool := decide (s.island n = .on) && decide (s.glb.phase ≠ .safe)

/-- An island in a new state. -/
def State.setIsland (s : State) (n : Nat) (i : Island) : State :=
  { s with pwr := { s.pwr with islands := s.pwr.islands.set n i } }

/-- Whether an island is present on a variant. -/
def Variant.hasIsland (v : Variant) (n : Nat) : Bool :=
  if n < 16 then v.hasAttn else if n < 20 then decide ((n - 16) * 8 < v.ports) else if n = 21 then v.hasFlash else decide (n < 23)

/-- Queue an item for the scheduler (before R290). -/
def State.enqueue (s : State) (it : Item) : State := { s with pwr := { s.pwr with items := s.pwr.items ++ [it] } }

/-- A privileged unit's state. -/
def State.unit3 (s : State) (u : PrivUnit) : Unit3 :=
  match u with | .xlt => s.flt.xlt | .lve => s.flt.lve | .evc => s.flt.evc

/-- Whether a privileged unit serves: it is neither in warm reset nor held. -/
def State.serves (s : State) (u : PrivUnit) : Bool := (s.unit3 u).warmSince.isNone && !(s.unit3 u).held

/-! ### The pending items of the scheduler (R290 to R292) -/

/-- The length of an epoch in ns, as R21 counts it: that of the epoch that runs at the time-out. DESIGN CHOICE: R21 does not say
which length bounds a hold whose epochs differ (log entry 94). -/
def State.epochNs (s : State) : Nat := usNs s.pwr.len

/-- Credits of an empty epoch. -/
def State.emptyGrant (s : State) : Nat := s.pwr.watts * s.pwr.len

/-- The parts into which an item is split (R291). -/
def State.partsOf (s : State) (it : Item) : Nat :=
  if 1 < it.parts then it.parts
  else max 1 (max (ceilDiv it.cost (max 1 s.emptyGrant)) (ceilDiv it.dur (max 1 s.epochNs)))

/-- Items that fit by their cost alone: `KEY` items, latency-mode steps, lookups, append records and `PAGE_READ` (R291). -/
def Item.byCost (it : Item) : Bool :=
  it.latency || (match it.work with | .step _ | .move _ | .write _ => false | _ => true)

/-- Whether the engine of an item can take it: no lockstep switch holds the cores, and the translation unit serves. -/
def State.engineTakes (s : State) (it : Item) : Bool :=
  match it.work with
  | .step _ => !s.att.lsPending && s.serves .xlt
  | .read _ | .write _ => s.serves .xlt
  | _ => true

/-- Whether an item, or its next part, fits (R291) and its domain's shaper admits it (R292). While A = 0 only `KEY` items are
dispatched (R289). -/
def State.fitsItem (s : State) (it : Item) : Bool :=
  let n := s.partsOf it
  let b := s.budget it.domain
  (decide (b.rate = 0) || decide (0 < b.bucket)) && (decide (it.cls = .key) || decide (s.pwr.aNum ≠ 0))
    && decide ((ceilDiv it.cost n : Int) ≤ s.available it.cls it.latency)
    && (it.byCost || decide (s.now + ceilDiv it.dur n ≤ s.pwr.planned))
    && (decide (n = 1) || decide (it.lastEpoch ≠ some s.pwr.epoch))
    && s.engineTakes it

/-- Whether a stalled step, record or read waits for the move of an item (R176). -/
def State.stalledMove (s : State) (it : Item) : Bool :=
  match it.work with
  | .move n => (s.slc.moves.find? fun m => m.seqNo == n).any fun m =>
      m.tier == 0 && s.slc.stalls.any fun x => x.frame == some m.frame
  | _ => false

/-- The place of an item in the order of R290: `KEY` items, latency-mode steps and lookups, other `ATTN` items, moves on which a
stalled step waits, other moves. -/
def State.placeIn (s : State) (it : Item) : Nat :=
  match it.cls with
  | .key => 0
  | .att => if it.latency then 1 else 2
  | _ => if s.stalledMove it then 3 else 4

/-- The queue of an item: its domain and its place in the order. -/
def State.queueOf (s : State) (it : Item) : Nat × Nat := (it.domain, s.placeIn it)

/-- An item put before the latency items that arrived after it. -/
def byArrival (it : Item) : List Item → List Item
  | [] => [it]
  | x :: xs => if it.arrived < x.arrived then it :: x :: xs else x :: byArrival it xs

/-- Latency-mode work first, in order of arrival (R108, R290), and the other items as they were queued. -/
def State.itemOrder (s : State) : List Item :=
  let lat := s.pwr.items.filter fun it => s.placeIn it == 1
  lat.foldl (fun l it => byArrival it l) [] ++ s.pwr.items.filter fun it => s.placeIn it != 1

/-- The head item of each queue. -/
def State.headItems (s : State) : List Item :=
  (s.itemOrder.foldl (fun (acc : List (Nat × Nat) × List Item) it =>
    let k := s.queueOf it
    if acc.1.contains k then acc else (k :: acc.1, acc.2 ++ [it])) ([], [])).2

/-- The item that a round-robin over domains takes next from some heads, with its turns (R290). -/
def State.turnOf (s : State) (l : List Item) : Option Item :=
  let p := s.pwr
  let same := l.find? fun it => it.domain == p.rrDom && decide (p.rrTurns < (s.budget p.rrDom).w)
  same.orElse fun _ =>
    l.foldl (fun (b : Option Item) it =>
      let key := fun (x : Item) => (x.domain + 4096 - (p.rrDom + 1) % 4096) % 4096
      match b with
      | some y => if key it < key y then some it else b
      | none => some it) none

/-- The first item that the order of R290 finds, and whether it takes a turn of its domain. -/
def State.nextItem (s : State) : Option (Item × Bool) :=
  let heads := s.headItems.filter s.fitsItem
  let of := fun (lo hi : Nat) => heads.filter fun it => decide (lo ≤ s.placeIn it) && decide (s.placeIn it ≤ hi)
  let head := fun (k : Nat) => (of k k).head?.map fun it => (it, false)
  (head 0).orElse fun _ => (head 1).orElse fun _ =>
    ((s.turnOf (of 2 3)).map fun it => (it, true)).orElse fun _ => (s.turnOf (of 4 4)).map fun it => (it, true)

/-- Whether some work waits for its dispatch. -/
def State.waits (s : State) (w : Work) : Bool := s.pwr.items.any fun it => it.work == w

/-- Whether what an item stands for is still there. -/
def State.itemLive (s : State) (it : Item) : Bool :=
  match it.work with
  | .step _ | .move _ => true
  | .key n => s.lve.keyOps.any fun k => k.num == n
  | .sign n => s.aud.segments.any fun g => g.number == n
  | .phase p h => ((s.cwy.ports.get? p).map Port.handshakes).any fun l => l.any fun x => x.id == h && x.accept.isSome
  | .search n => s.rbd.searches.any fun x => x.num == n
  | .read n => s.slc.pageReads.any fun x => x.id == n
  | .record i l p => (s.xlt.seqs.get? i).any fun q => q.held.any fun h => h.rc.layer == l && h.rc.pos == p
  | .write r => s.slc.spaceCmds.any fun c => c.req == r

/-- The pending queues without what has ended before its dispatch. -/
def State.pruned (s : State) : State := { s with pwr := { s.pwr with items := s.pwr.items.filter s.itemLive } }

/-- Work leaves the pending queues as it is dispatched; of a key operation the epoch is kept (R291). -/
def State.unqueue (s : State) (w : Work) : State :=
  let s := { s with pwr := { s.pwr with items := s.pwr.items.filter fun x => x.work != w } }
  match w with
  | .key k => { s with pwr := { s.pwr with keyEpochs := s.pwr.keyEpochs.set k s.pwr.epoch } }
  | _ => s

/-- An item, or one part of it, is dispatched: its charge, its turn, and its way out of its queue after the last part. -/
def State.chargeItem (s : State) (it : Item) (turn : Bool) : State :=
  let n := s.partsOf it
  let s := s.charge it.domain it.cls it.latency (ceilDiv it.cost n)
  let turns := if s.pwr.rrDom = it.domain then s.pwr.rrTurns + 1 else 1
  let s := if turn then { s with pwr := { s.pwr with rrDom := it.domain, rrTurns := turns } } else s
  let s := if 1 < n ∧ it.done = 0 then s.bump Reg.pwrSplitLo else s
  if it.done + 1 < n then
    let part := fun (x : Item) => { x with parts := n, done := x.done + 1, lastEpoch := some s.pwr.epoch }
    { s with pwr := { s.pwr with items := updFirst (fun x => x.work == it.work) part s.pwr.items } }
  else s.unqueue it.work

/-- Work that needs no preparation arrives. It is dispatched at once where the order of R290 finds it first, and where no epoch
runs; otherwise it waits in its queue. -/
def State.offer (s : State) (it : Item) : State :=
  let t := s.pruned.enqueue it
  if !t.pwr.live then (t.charge it.domain it.cls it.latency it.cost).unqueue it.work
  else match t.nextItem with
    | some (x, turn) => if x.work == it.work && decide (t.partsOf it = 1) then t.chargeItem it turn else t
    | none => t

/-- The item of a `KEY` task of a domain (Table 13.1). -/
def State.keyItem (s : State) (d : Nat) (w : Work) : Item :=
  { domain := d, cls := .key, cost := s.keyCost, dur := 0, arrived := s.now, work := w }

/-- Whether a handshake phase that the device begins itself may run now: its `KEY` item fits (R291). -/
def State.keyRuns (s : State) (d : Nat) : Bool := !s.pwr.live || s.fitsItem (s.keyItem d (.phase 0 0))

/-- Whether a class of the device's own work has received less than its share of the grant in this epoch (`PWR_CLASS_MIN`). -/
def State.belowShare (s : State) (cls : WorkClass) : Bool :=
  let pm := match cls with
    | .gc => s.fld Reg.pwrClassMin 23 16
    | .scrub => s.fld Reg.pwrClassMin 15 8
    | .test => s.fld Reg.pwrClassMin 7 0
    | _ => 0
  decide (((s.pwr.classSpent.getD cls.index 0 * 1000 : Nat) : Int) < pm * s.pwr.grant)

/-- Whether the order of R290 finds work of the device itself before any pending item: below its share it goes after `KEY` and
latency-mode work alone, and otherwise after every item that fits. -/
def State.backgroundTurn (s : State) (cls : WorkClass) : Bool :=
  match s.nextItem with
  | none => true
  | some (it, _) => decide (2 ≤ s.placeIn it) && s.belowShare cls

/-- Whether the device takes new work: it is up, and neither quiescing, in `STANDBY` nor waking (R300, R301). -/
def State.takesWork (s : State) : Bool := decide (s.glb.phase = .ready) && decide (s.pwr.standby = .running)

end Sys2Proof.Machine
end

