-- ==== Sys2Proof/Machine/Der.lean ====
section
/-! DEFINITION. Machine/Der.lean: the X.509 certificates in DER that a `DISCOVER` carries (R246, Table 11.12a), as far as the
device reads them: the elements of the chain, its leaf, and the kind of the leaf's key. -/

namespace Sys2Proof.Machine

/-- A big-endian number. -/
def beNat (b : List Byte) : Nat := b.foldl (fun n x => n * 256 + x.toNat) 0

/-- The DER element at the front of a list: its tag, its content and what follows. -/
def derItem (b : List Byte) : Option (Nat × List Byte × List Byte) :=
  let l := u8 b 1
  let k := if l < 128 then 0 else l - 128
  let n := if l < 128 then l else beNat ((b.drop 2).take k)
  let minimal := decide (l < 128) || (decide (1 ≤ k) && decide (k ≤ 4) && decide (128 ≤ n) && decide (256 ^ (k - 1) ≤ n))
  if 2 + k + n ≤ b.length && decide (2 ≤ b.length) && minimal then
    some (u8 b 0, (b.drop (2 + k)).take n, b.drop (2 + k + n))
  else none

/-- The DER elements that a list consists of, at most `fuel` of them; none where it does not. -/
def derItems : Nat → List Byte → Option (List (Nat × List Byte))
  | _, [] => some []
  | 0, _ :: _ => none
  | n + 1, b :: bs => (derItem (b :: bs)).bind fun x => (derItems n x.2.2).map fun r => (x.1, x.2.1) :: r

/-- Whether the content of an element is that of a certificate: what is signed, the algorithm and the signature. -/
def isCert (b : List Byte) : Bool := (derItems 4 b).map (List.map Prod.fst) == some [0x30, 0x30, 0x03]

/-- Whether a chain parses: one certificate or more, and nothing else. -/
def chainParses (b : List Byte) : Bool :=
  match derItems 64 b with
  | some l => !l.isEmpty && l.all fun x => x.1 == 0x30 && isCert x.2
  | none => false

/-- The leaf certificate of a chain, its first element. -/
def derLeaf (b : List Byte) : List Byte :=
  match derItem b with
  | some x => b.take (b.length - x.2.2.length)
  | none => []

/-- Whether a certificate carries a P-384 key: its `SubjectPublicKeyInfo`, after the version, serial, algorithm, issuer, validity
and subject, names `id-ecPublicKey` and `secp384r1`. -/
def keyIsP384 (cert : List Byte) : Bool :=
  let into := fun (b : List Byte) (fuel i : Nat) => ((derItems fuel b).bind fun l => l[i]?).map Prod.snd
  let tbs := (into cert 1 0).bind fun c => into c 4 0
  let fields := (tbs.bind (derItems 16)).map fun l => if (l.head?.map Prod.fst) == some 0xA0 then l.drop 1 else l
  let alg := ((fields.bind fun l => l[5]?).map Prod.snd).bind fun k => into k 3 0
  (alg.bind (derItems 3)) == some [(0x06, [0x2A, 0x86, 0x48, 0xCE, 0x3D, 0x02, 0x01]), (0x06, [0x2B, 0x81, 0x04, 0x00, 0x22])]

end Sys2Proof.Machine
end

