-- ==== Sys2Proof/Machine/Links.lean ====
section
/-! DEFINITION. Machine/Links.lean: sending and receiving on Causeway: flits with credits and replay, messages, sessions
(R230 to R255), as every command that sends or takes a message uses them. -/

namespace Sys2Proof.Machine

/-- The code of a life-cycle state (Table 14.15). -/
def LcState.code : LcState → Nat
  | .blank => 0 | .tested => 1 | .provisioned => 2 | .field => 3 | .ret => 4 | .fin => 5

/-- The certificate chain of slot 0, leaf first: the alias certificate leads it, or in `RETURN` the identity certificate is the
whole of it (R310, Table 14.16). -/
def State.slot0 (s : State) : List Byte := (Config.certChain (decide (s.lve.lc.code ≤ 3))).take 12288

/-- The certificate chain that the device presents, if any (R310). -/
def State.chain (s : State) : Option (List Byte) := if s.lve.chainOk then some s.slot0 else none

/-- The distance from one instance of `CWY` to the next. -/
def cwyOff (port : Nat) : Nat := port * 0x8000

/-- A port's state. -/
def State.port (s : State) (p : Nat) : Port := s.cwy.ports.getD p {}

/-- A port changed. -/
def State.setPort (s : State) (p : Nat) (f : Port → Port) : State :=
  { s with cwy := { s.cwy with ports := s.cwy.ports.set p (f (s.port p)) } }

/-- A session changed. -/
def State.setSess (s : State) (i : Nat) (f : Session → Session) : State :=
  { s with cwy := { s.cwy with sessions := s.cwy.sessions.modify i f } }

/-- A ring slot. -/
def State.slot (s : State) (k : Nat) : RingSlot := s.cwy.slots.getD k {}

/-- A ring slot changed. -/
def State.setSlot (s : State) (k : Nat) (f : RingSlot → RingSlot) : State :=
  { s with cwy := { s.cwy with slots := s.cwy.slots.set k (f (s.slot k)) } }

/-- The virtual channels in the order in which the next flit is chosen (R233). -/
def vcOrder (slot : Nat) : List Nat :=
  if slot % 16 = 14 then [2, 0, 1, 3] else if slot % 16 = 15 then [3, 0, 1, 2] else [0, 1, 2, 3]

/-! ### Flits (R230 to R233) -/

/-- The header of a flit (Table 11.2): types 0 `IDLE`, 1 `DATA`, 2 `NAK`, 3 `LCTL`. -/
def flitHeader (seq ack vc type : Nat) (som eom : Bool) (bytes crVc crCnt : Nat) : Nat :=
  seq % 4096 * 2 ^ 52 + ack % 4096 * 2 ^ 40 + vc % 4 * 2 ^ 38 + type % 4 * 2 ^ 36 + (if som then 2 ^ 35 else 0)
    + (if eom then 2 ^ 34 else 0) + bytes % 256 * 2 ^ 26 + crVc % 4 * 2 ^ 24 + crCnt % 1024 * 2 ^ 14

/-- The device's receive pools, in flits (Table 11.3). -/
def devicePool : List Nat := [64, 1024, 512, 1024]

/-- Flits of a message. -/
def TxItem.flits (x : TxItem) : Nat := upTo x.len 244

/-- DATA flits sent and not covered by an `ACK`. -/
def Port.unacked (p : Port) : Nat := sumNat (p.flight.map Prod.fst)

/-- When the oldest of them was last sent. -/
def Port.unackedSince (p : Port) : Nat := (p.flight.head?.map Prod.snd).getD 0

/-- A flit joins the runs of those in flight. -/
def addFlight (l : List (Nat × Nat)) (now : Nat) : List (Nat × Nat) :=
  match l.getLast? with
  | some (n, t) => if t = now then l.dropLast ++ [(n + 1, t)] else l ++ [(1, now)]
  | none => [(1, now)]

/-- The oldest flits leave the runs. -/
def dropFlight : List (Nat × Nat) → Nat → List (Nat × Nat)
  | [], _ => []
  | (c, t) :: r, n => if n < c then (c - n, t) :: r else dropFlight r (n - c)

/-- The credits that the next flit returns: of a channel whose pool is spent, or of the first channel with any; one flit carries
at most 1,023 of one channel (Table 11.2, log entry 104). -/
def Port.takeReturn (p : Port) : (Nat × Nat) × Port :=
  let spent := (List.range 4).find? fun v => decide (devicePool.getD v 0 ≤ p.owed.getD v 0)
  match spent.orElse fun _ => (List.range 4).find? fun v => decide (0 < p.owed.getD v 0) with
  | some v =>
    let n := min (p.owed.getD v 0) 1023
    ((v, n), { p with owed := p.owed.set v (p.owed.getD v 0 - n) })
  | none => ((0, 0), p)

/-- The header of the next flit: every flit carries the latest `ACK` and returns credits (R232, R233). -/
def Port.stamp (p : Port) (vc type : Nat) (som eom : Bool) (bytes : Nat) : Nat × Port :=
  let r := p.takeReturn
  (flitHeader p.txSeq (p.rxSeq + 4095) vc type som eom bytes r.1.1 r.1.2, { r.2 with unsentAck := 0 })

/-- Send one flit of the first virtual channel that has a flit and a credit; the head of each channel goes first. -/
def Port.sendFlit (p : Port) (now : Nat) : Option (Nat × Port) :=
  if 2047 ≤ p.unacked then none
  else
    match (vcOrder p.slot16).find? fun v => p.txq.any (fun q => q.vc == v) && decide (0 < p.credits.getD v 0) with
    | none => none
    | some v =>
      (p.txq.find? fun q => q.vc == v).map fun q =>
        let r := p.stamp v 1 (q.sent == 0) (q.sent + 1 == q.flits) (min 244 (q.len - 244 * q.sent))
        (r.1, { r.2 with
          txq := (updFirst (fun q => q.vc == v) (fun q => { q with sent := q.sent + 1 }) p.txq).filter fun q => decide (q.sent < q.flits)
          credits := p.credits.set v (p.credits.getD v 0 - 1)
          slot16 := p.slot16 + 1
          txSeq := (p.txSeq + 1) % 4096
          flight := addFlight p.flight now
          lastData := if v = 0 then p.lastData else now })

/-- Send flits while credits, the replay buffer and the queue allow: at most `fuel` of them. Their headers, oldest first. -/
def Port.pump (now : Nat) : Nat → Port → List Nat × Port
  | 0, p => ([], p)
  | n + 1, p =>
    match p.sendFlit now with
    | none => ([], p)
    | some (h, q) => let r := Port.pump now n q; (h :: r.1, r.2)

/-- The virtual channels that have a flit ready and no credit, and since when (R235). -/
def Port.noteStarved (p : Port) (now : Nat) : Port :=
  { p with starved := (List.range 4).map fun v =>
      if p.txq.any (fun q => q.vc == v) && decide (p.credits.getD v 0 = 0) then some ((p.starved.getD v none).getD now) else none }

/-- A port sends what it can (R232, R233). -/
def State.pump (s : State) (port : Nat) : State :=
  let p := s.port port
  if p.st = .ready ∨ p.st = .linked then
    let r := p.pump s.now (min 2047 (sumNat (p.txq.map fun q => q.flits - q.sent)))
    let s := s.setPort port fun _ => r.2.noteStarved s.now
    if r.1.isEmpty then s
    else (s.forEach r.1 fun h t => t.emit (.flit port h)).bump (Reg.cwyFlitTxLo + cwyOff port) r.1.length
  else s

/-- Link-layer signals, by kind, as `Out.link` shows them. -/
def linkIdle : Nat := 0
/-- A `NAK` flit. -/
def linkNak : Nat := 2
/-- An `LCTL` flit, whose value is its opcode (R235). -/
def linkLctl : Nat := 3
/-- Light on lane 0. -/
def linkLight : Nat := 4
/-- A replay of the unacknowledged flits. -/
def linkReplay : Nat := 5

/-- A flit other than `DATA`, of the type `kind` (Table 11.2): it uses no `SEQ` and no credit. -/
def State.linkFlit (s : State) (port kind value : Nat) : State :=
  let r := (s.port port).stamp 0 kind false false 0
  ((s.setPort port fun _ => r.2).emit (.flit port r.1)).emit (.link port kind value)

/-- `ACK` as the next flit carries it. -/
def Port.ackNow (p : Port) : Nat := (p.rxSeq + 4095) % 4096

/-- A port retrains (R235, R236): the `SEQ` state, the replay buffers, the credits and the sessions are kept. -/
def State.startRetrain (s : State) (port : Nat) (woken : Bool) : State :=
  ((s.setPort port fun p => { p with
      st := .retrain, since := s.now, power := .active, naked := false, replays := 0, woken := woken }).setErr
    Err.cwyRetrain (cwyOff port)).bump (Reg.cwyRetrainLo + cwyOff port)

/-- Hand a message to a port: a sleeping port lights lane 0 and retrains, a quiet one resumes for a flit of QUERY, RESULT
or PAGE (R236). -/
def State.portSend (s : State) (port vc len : Nat) : State :=
  let p := s.port port
  let s := s.setPort port fun p => { p with txq := p.txq ++ [{ vc := vc, len := len }] }
  if p.power = .sleep ∧ p.st = .ready then (s.emit (.link port linkLight 0)).startRetrain port true
  else
    let s := if p.power = .quiet ∧ vc ≠ 0 then
        (s.linkFlit port linkLctl 0x03).setPort port fun p => { p with power := .active } else s
    s.pump port

/-- The 32 bytes of a message header (Table 11.6). -/
def msgHeader (mtype flags sid len msn ack ctr retry : Nat) : List Byte :=
  leBytes 1 mtype ++ leBytes 1 flags ++ leBytes 1 sid ++ leBytes 1 0 ++ leBytes 4 len ++ leBytes 4 msn ++ leBytes 4 ack
    ++ leBytes 8 ctr ++ leBytes 4 retry ++ leBytes 4 0

/-- A message outside any session: `SID` = 0, not encrypted. -/
def State.sendPlain (s : State) (port : Nat) (m : TxMsg) : State :=
  let hdr := msgHeader m.mtype 0 0 m.body.length 0 0 0 m.retryUs
  ((s.emit (.cwy port none hdr m.body)).bump (Reg.cwyMsgTxLo + cwyOff port)).portSend port m.vc (32 + m.body.length)

/-- The next message sequence number: modulo 2^32, skipping 0 (R239). -/
def nextMsn (n : Nat) : Nat := if n + 1 ≥ 2 ^ 32 then 1 else n + 1

/-- The key that replaces a key (R250). -/
def CtrKey.update (k : CtrKey) : CtrKey := { ctr := 0, kphase := !k.kphase, key := hkdfExpand k.key (ascii "cwy upd") 36 }

/-- The key after one message (R249, R250). -/
def CtrKey.next (k : CtrKey) : CtrKey := if k.ctr + 1 < 2 ^ 32 then { k with ctr := k.ctr + 1 } else k.update

/-- The key by which a message is received: `KPHASE` toggled together with `CTR` = 0 asks for the update (R250). -/
def CtrKey.follow (k : CtrKey) (ctr : Nat) (kphase : Bool) : CtrKey := if ctr = 0 ∧ kphase ≠ k.kphase then k.update else k

/-- Whether a session may use one of its ports. -/
def State.usable (s : State) (x : Session) (port : Nat) : Bool :=
  x.ports.has port && !x.unusable.contains port && decide ((s.port port).st = .ready)

/-- The port on which a message leaves: the one asked for, or another of the session (R25, R252). -/
def State.choosePort (s : State) (x : Session) (want : Nat) : Option Nat :=
  if s.usable x want then some want else x.ports.keys.find? (s.usable x)

/-- Bytes that the copies of all sessions take in the retransmit store of a port (R239). -/
def State.storeUsed (s : State) (port : Nat) : Nat :=
  sumNat (s.cwy.sessions.values.map fun x =>
    sumNat ((x.copies.filter fun c => c.port == port).map fun c => 48 + c.msg.body.length))

/-- How far a sequence number lies beyond another; the numbers run from 1 to 2^32 - 1, and 0 stands before 1 (R239). -/
def msnAhead (n base : Nat) : Nat := (n + (2 ^ 32 - 1) - base) % (2 ^ 32 - 1)

/-- Put a message of a session on a port under an `MSN` (Table 11.6, R249). -/
def State.transmit (s : State) (i port msn : Nat) (resent : Bool) (m : TxMsg) : State :=
  match s.cwy.sessions.get? i with
  | none => s
  | some x =>
    let k := x.txKeys.getD (port, m.vc) {}
    let flags := 1 + (if m.report then 2 else 0) + (if k.kphase then 4 else 0) + (if resent then 8 else 0)
    let hdr := msgHeader m.mtype flags (x.ports.getD port 0) m.body.length msn x.ackMsn k.ctr m.retryUs
    let s := s.setSess i fun x => { x with
      txKeys := x.txKeys.set (port, m.vc) k.next
      lastTx := x.lastTx.set port s.now
      unsentAcks := 0 }
    ((s.emit (.cwy port (some i) hdr m.body)).bumpD x.domain (Reg.cwyMsgTxLo + cwyOff port)).portSend port m.vc
      (48 + m.body.length)

/-- Whether a message may be sent now: a usable port, room in the window of 4,095 and in the retransmit store (R239). -/
def State.sendNow (s : State) (x : Session) (want : Nat) (m : TxMsg) : Option Nat :=
  if 4095 ≤ msnAhead x.txMsn x.peerAck then none
  else (s.choosePort x want).bind fun p =>
    if s.storeUsed p + 48 + m.body.length ≤ 8388608 then some p else none

/-- Send a message in a session; it waits in the session where no port, window or store space is free. -/
def State.cwySend (s : State) (i want : Nat) (m : TxMsg) : State :=
  match s.cwy.sessions.get? i with
  | none => s
  | some x =>
    match (if x.sendq.isEmpty then s.sendNow x want m else none) with
    | none => s.setSess i fun x => { x with sendq := x.sendq ++ [(want, m)] }
    | some p =>
      let msn := nextMsn x.txMsn
      (s.setSess i fun x => { x with txMsn := msn, copies := x.copies ++ [{ msn := msn, port := p, msg := m }] }).transmit
        i p msn false m

/-- Send what waits in a session, in order, as far as it can go. -/
def State.drainSendq (s : State) (i : Nat) : Nat → State
  | 0 => s
  | n + 1 =>
    match s.cwy.sessions.get? i with
    | none => s
    | some x =>
      match x.sendq with
      | [] => s
      | (want, m) :: rest =>
        match s.sendNow x want m with
        | none => s
        | some p =>
          let msn := nextMsn x.txMsn
          let s := s.setSess i fun x => { x with
            sendq := rest, txMsn := msn, copies := x.copies ++ [{ msn := msn, port := p, msg := m }] }
          (s.transmit i p msn false m).drainSendq i n

/-- Space in the retransmit stores is free again: what waits in any session is sent (R239). -/
def State.drainAll (s : State) : State :=
  s.forEach (s.cwy.sessions.filter fun e => !e.2.sendq.isEmpty) fun e t => t.drainSendq e.1 e.2.sendq.length

/-- The peer acknowledges every message up to an `MSN`: the copies are given up and what waits is sent. -/
def State.peerAcks (s : State) (i ack : Nat) : State :=
  match s.cwy.sessions.get? i with
  | none => s
  | some x =>
    if msnAhead x.txMsn ack < 2 ^ 31 ∧ msnAhead ack x.peerAck < 2 ^ 31 then
      (s.setSess i fun x => { x with
        peerAck := ack, copies := x.copies.filter fun c => decide (msnAhead c.msn ack < 2 ^ 31) && decide (c.msn ≠ ack) }).drainAll
    else s

/-- The session on a port under a `SID`. -/
def State.sessionOf (s : State) (port sid : Nat) : Option Nat :=
  (s.cwy.sessions.find? fun e => e.2.st ≠ .handshake && e.2.ports.get? port == some sid).map Prod.fst

/-- A ring slot loses a neighbour (Table 6.2). -/
def State.slotLosesSession (s : State) (i : Nat) : State :=
  s.forEach (s.cwy.slots.filter fun e => e.2.pred == some i || e.2.succ == some i) fun e t =>
    let u := t.setSlot e.1 fun r => { r with
      pred := if r.pred == some i then none else r.pred
      succ := if r.succ == some i then none else r.succ
      toSend := if r.succ == some i then r.toSend.map fun c => { c with last := 2 } else r.toSend
      st := if r.st = .ready ∨ r.st = .degraded then .degraded else r.st }
    if e.2.st = .ready then (u.setEvt Evt.cwyRingDegraded).setErr Err.cwyRingNeighbour else u

/-- Remove a session: its keys are zeroised, what it had to send is discarded (Table 11.15). -/
def State.freeSession (s : State) (i : Nat) : State :=
  match s.cwy.sessions.get? i with
  | none => s
  | some x =>
    let lost := (x.sendq.filter fun q => q.2.mtype == 0x12).length
    let s := { s with cwy := { s.cwy with sessions := s.cwy.sessions.erase i, closed := s.cwy.closed.set i x.domain } }
    let s := s.forEach x.ports.keys fun p t => (t.setEvt Evt.cwySessionDown (cwyOff p)).setPort p fun q => { q with lastUse := t.now }
    ((if lost = 0 then s else s.bumpD x.domain Reg.atcDiscardLo lost).slotLosesSession i).drainAll

/-- The domain of a session, live or closed. -/
def State.sessDomain (s : State) (i : Nat) : Nat :=
  (((s.cwy.sessions.get? i).map Session.domain).orElse fun _ => s.cwy.closed.get? i).getD 0

/-- The last `MSN` that a message sent now follows: those that wait take theirs first. -/
def Session.lastMsn (x : Session) : Nat := x.sendq.foldl (fun n _ => nextMsn n) x.txMsn

/-- The body of a `DETACH` (Table 11.14). -/
def detachBody (phase scope reason last sessionId : Nat) : List Byte :=
  leBytes 1 phase ++ leBytes 1 scope ++ leBytes 1 reason ++ leBytes 1 0 ++ leBytes 4 last ++ leBytes 8 sessionId

/-- Close the session when both `DONE`s have been exchanged and every message has been received (Table 11.15). -/
def State.detachClose (s : State) (i : Nat) : State :=
  match s.cwy.sessions.get? i with
  | some x =>
    match x.doneRecv with
    | some last => if x.doneSent && decide (msnAhead x.ackMsn last < 2 ^ 31) then s.freeSession i else s
    | none => s
  | none => s

/-- Send `DONE` once every message up to the peer's `LAST_MSN` has arrived and been answered (R254, step 3). -/
def State.detachStep (s : State) (i : Nat) : State :=
  match s.cwy.sessions.get? i with
  | some x =>
    match x.peerLast with
    | some last =>
      if !x.doneSent && x.openReqs.isEmpty && decide (msnAhead x.ackMsn last < 2 ^ 31) then
        let p := (x.ports.keys.head?).getD 0
        let s := s.cwySend i p { mtype := 0x03, vc := 0, body := detachBody 1 0 x.reason x.lastMsn x.sessionId }
        (s.setSess i fun x => { x with doneSent := true }).detachClose i
      else s.detachClose i
    | none => s
  | none => s

/-- Start a session-scope `DETACH` (R254). -/
def State.detach (s : State) (i reason : Nat) : State :=
  match s.cwy.sessions.get? i with
  | some x =>
    if x.detachSent then s
    else
      let p := (x.ports.keys.head?).getD 0
      let s := s.cwySend i p { mtype := 0x03, vc := 0, body := detachBody 0 0 reason x.lastMsn x.sessionId }
      s.setSess i fun x => { x with st := .detaching, detachSent := true, reason := reason, detachSince := s.now }
  | none => s

/-- Messages of a lost port that stand above the peer's `ACK_MSN` move to another port, marked `RESENT` (R252). -/
def State.moveCopies (s : State) (i port : Nat) : State :=
  match s.cwy.sessions.get? i with
  | none => s
  | some x =>
    match s.choosePort x port with
    | none => s
    | some q =>
      if q = port then s
      else
        let mine := x.copies.filter fun c => c.port == port
        let s := s.setSess i fun x => { x with copies := x.copies.map fun c => if c.port == port then { c with port := q } else c }
        s.forEach mine fun c t => t.transmit i q c.msn true c.msg

/-- A port leaves a session; a session without ports closes (R253, Table 11.15). -/
def State.leaveSession (s : State) (i port : Nat) : State :=
  match s.cwy.sessions.get? i with
  | none => s
  | some x =>
    if x.ports.has port then
      if x.ports.length = 1 then s.freeSession i
      else
        let s := s.setSess i fun x => { x with unusable := port :: x.unusable }
        let s := s.moveCopies i port
        (s.setSess i fun x => { x with
          ports := x.ports.erase port, unusable := x.unusable.filter (· != port)
          txKeys := x.txKeys.filter fun k => k.1.1 != port, rxKeys := x.rxKeys.filter fun k => k.1.1 != port }).setPort port
          fun q => { q with lastUse := s.now }
    else s

/-- Sessions that use a port, by index. -/
def State.sessionsOn (s : State) (port : Nat) : List Nat :=
  (s.cwy.sessions.filter fun e => e.2.st ≠ .handshake && e.2.ports.has port).map Prod.fst

/-- Sessions, and handshakes that hold a session slot, of a port (R248, R255). -/
def State.portSlots (s : State) (p : Nat) : Nat :=
  (s.sessionsOn p).length + ((s.port p).handshakes.filter fun h => h.slot && h.join.isNone).length

/-- Whether a session slot is free on the port (16) and on the device (512). -/
def State.slotFree (s : State) (p : Nat) : Bool :=
  decide (s.portSlots p < 16)
    && decide (s.cwy.sessions.length + sumNat (s.cwy.ports.values.map fun q =>
      (q.handshakes.filter fun h => h.slot && h.join.isNone).length) < 512)

/-- Whether one of the four handshake slots of a port is free. -/
def State.hsFree (s : State) (p : Nat) : Bool := decide (((s.port p).handshakes.filter fun h => h.slot).length < 4)

/-- Every session fails over away from a port (R252). -/
def State.failOver (s : State) (port : Nat) : State :=
  s.forEach (s.sessionsOn port) fun i t =>
    match t.cwy.sessions.get? i with
    | none => t
    | some x =>
      let t := t.setSess i fun x => { x with unusable := port :: x.unusable }
      if (t.choosePort x port).any (fun q => q != port) then
        ((t.moveCopies i port).bumpD x.domain (Reg.cwyFailoverLo + cwyOff port)).setEvt Evt.cwyFailover (cwyOff port)
      else t

/-! ### Replies -/

/-- The reply type and channel of a request type (Table 11.7, R241). -/
def replyType (mtype : Nat) : Nat × Nat :=
  match mtype with
  | 0x11 => (0x12, 2) | 0x18 => (0x19, 3) | 0x20 => (0x21, 2) | 0x28 => (0x29, 2) | _ => (0x3F, 0)

/-- The body of an `ERROR` (Table 11.9). -/
def errorBody (msn mtype code layer handle pos : Nat) : List Byte :=
  leBytes 4 msn ++ leBytes 1 mtype ++ leBytes 1 code ++ leBytes 2 layer ++ leBytes 4 handle ++ leBytes 4 pos

/-- Send a message of a request's session, or outside it, on the port of arrival. -/
def State.sendReply (s : State) (i : Option Nat) (port : Nat) (m : TxMsg) (code : Status) : State :=
  let d := ((i.bind s.cwy.sessions.get?).map Session.domain).getD 0
  let s := if code = .ok then s else s.bumpD d (Reg.cwyRefuseLo + cwyOff port)
  match i with
  | some i => s.cwySend i port m
  | none => s.sendPlain port m

/-- Send, or, with `E_DENIED`, keep until arrival + 2,000 ns (R240, R321). -/
def State.replyOr (s : State) (i : Option Nat) (port : Nat) (m : TxMsg) (code : Status) : State :=
  if code = .denied then
    ({ s with cwy := { s.cwy with refusals := s.cwy.refusals ++ [(i, port, m, s.now + 2000)] } } : State).bump Reg.lveDeniedLo
  else if code = .stale && s.flt.lve.warmSince.isSome then
    { s with cwy := { s.cwy with refusals := s.cwy.refusals ++ [(i, port, m, s.now)] } }
  else s.sendReply i port m code

/-- Answer a request of a session: its own reply record, or an `ERROR` for a `KV_APPEND` that failed or carried `REPORT`
(R241). Once answered, it no longer holds up a `DETACH`. -/
def State.answer (s : State) (i port msn mtype : Nat) (report : Bool) (layer handle pos : Nat) (c : Cpl) : State :=
  let body := if (replyType mtype).1 = 0x3F then errorBody msn mtype c.status.code layer handle pos else c.out
  let m : TxMsg := { mtype := (replyType mtype).1, vc := (replyType mtype).2, retryUs := c.retryUs, body := body }
  let silent := decide (mtype = 0x10) && decide (c.status = .ok) && !report
  let s := if s.cwy.sessions.has i then (if silent then s else s.replyOr (some i) port m c.status)
    else if mtype = 0x11 then s.bumpD (s.sessDomain i) Reg.atcDiscardLo else s
  (s.setSess i fun x => { x with openReqs := x.openReqs.filter (· != msn) }).detachStep i

/-! ### Receiving -/

/-- The fields of a received header. -/
structure RxHdr where
  mtype : Nat
  flags : Nat
  sid : Nat
  len : Nat
  msn : Nat
  ack : Nat
  ctr : Nat
  retry : Nat
  deriving DecidableEq, Repr

/-- The header of a message. -/
def RxMsg.head (m : RxMsg) : RxHdr :=
  { mtype := u8 m.hdr 0, flags := u8 m.hdr 1, sid := u8 m.hdr 2, len := u32 m.hdr 4, msn := u32 m.hdr 8
    ack := u32 m.hdr 12, ctr := u64 m.hdr 16, retry := u32 m.hdr 24 }

/-- The virtual channel of a message type (Table 11.3); none for an unknown type. -/
def vcOf (mtype : Nat) : Option Nat :=
  match mtype with
  | 0x01 | 0x02 | 0x03 | 0x04 | 0x30 | 0x3F => some 0
  | 0x10 | 0x11 | 0x18 | 0x20 | 0x28 => some 1
  | 0x12 | 0x21 | 0x29 => some 2
  | 0x19 => some 3
  | _ => none

/-- Whether a peer of a role may send a type (Table 11.7). `STEP_MARK` is judged by R243. -/
def roleSends (role mtype : Nat) : Bool :=
  match mtype with
  | 0x10 | 0x11 | 0x18 | 0x20 => role == 0
  | 0x28 | 0x29 => role == 1
  | 0x12 | 0x19 | 0x21 => false
  | _ => true

/-- Whether a sender of a role, or of one that no session tells, may send a type. A `C` variant answers a `RING_QUERY` of any
sender, with `E_ABSENT` (R2, R3). -/
def State.maySend (s : State) (role : Option Nat) (mtype : Nat) : Bool :=
  (decide (mtype = 0x28) && !s.glb.variant.hasAttn) ||
    match role with
    | some r => roleSends r mtype
    | none => roleSends 0 mtype || roleSends 1 mtype

/-- A session of domain 0 is a timing session (R248). -/
def Session.timing (x : Session) : Bool := x.domain == 0

/-- An `ACK` of the link layer: the flits up to it are given up (R232). -/
def Port.linkAck (p : Port) (ack : Nat) : Port :=
  let left := (p.txSeq + 4096 - 1 - ack % 4096) % 4096
  if left < p.unacked then { p with flight := dropFlight p.flight (p.unacked - left), replays := 0 } else p

/-- A port takes what a received flit carries for the link: its `ACK` and the credits it returns (R232, R233). -/
def Port.takeTail (p : Port) (f : FlitTail) (now : Nat) : Port :=
  { p.linkAck f.ack with credits := (List.range 4).map fun v => p.credits.getD v 0 + f.cr.getD v 0, lastFlit := now }

/-- The peer has no credit left beyond the device's pool: `IDLE` flits return what a long message has freed (R233). -/
def State.returnOver (s : State) (port vc : Nat) : Nat → State
  | 0 => s
  | n + 1 =>
    if (s.port port).owed.getD vc 0 ≤ devicePool.getD vc 0 then s
    else (s.linkFlit port linkIdle (s.port port).ackNow).returnOver port vc n

/-- The link layer takes the flits of a message (R231, R232, R233). -/
def State.linkTake (s : State) (m : RxMsg) : State :=
  let s := s.setPort m.port fun p =>
    let p := p.takeTail { ack := m.ack, cr := m.cr } s.now
    { p with
      rxSeq := (p.rxSeq + m.flits) % 4096, naked := false
      ackSince := if p.unsentAck = 0 then s.now else p.ackSince
      unsentAck := p.unsentAck + m.flits
      owed := p.owed.set m.vc (p.owed.getD m.vc 0 + m.flits)
      lastData := if m.vc = 0 then p.lastData else s.now }
  ((s.bump (Reg.cwyFlitRxLo + cwyOff m.port) m.flits).returnOver m.port m.vc (m.flits / 64 + 4)).pump m.port

/-- Check 1 of Table 11.8, but for the role. -/
def RxMsg.wellFormed (m : RxMsg) : Bool :=
  let h := m.head
  m.lenOk && decide (m.hdr.length = 32) && decide (h.len ≤ 33554432) && decide (m.body.length = h.len)
    && decide (h.flags < 16) && zeros m.hdr 3 1 && zeros m.hdr 28 4 && decide (vcOf h.mtype = some m.vc)
    && (decide (h.sid = 0) == decide (h.flags % 2 = 0))

/-- The outcome of the checks of Table 11.8. -/
inductive RxOutcome where
  /-- The message ends here. -/
  | done
  /-- Steps 6 and 7: a request that is answered with this code and hint. -/
  | refuse (i : Nat) (st : Status) (retry : Nat)
  /-- It goes to the chapter that owns its body. -/
  | pass (i : Nat)
  /-- A message outside any session. -/
  | plain
  deriving DecidableEq, Repr

/-- An `ERROR` about a message, to its session where it is live. -/
def State.errorFor (s : State) (m : RxMsg) (i : Option Nat) (st : Status) : State :=
  let h := m.head
  let app := decide (h.mtype = 0x10) && decide (12 < m.body.length)
  let body := errorBody h.msn h.mtype st.code (if app then u16 m.body 4 else 0) (if app then u32 m.body 0 else 0)
    (if app then u32 m.body 8 else 0)
  s.replyOr i m.port { mtype := 0x3F, vc := 0, body := body } st

/-- Take an `MSN`: the numbers delivered above `ACK_MSN`, and `ACK_MSN` itself, advance (R239). -/
def advanceAck (delivered : List Nat) (ack : Nat) : Nat → Nat × List Nat
  | 0 => (ack, delivered)
  | n + 1 =>
    let m := nextMsn ack
    if delivered.contains m then advanceAck (delivered.filter (· != m)) m n else (ack, delivered)

/-- A message is delivered: window, acknowledgement, keepalive and counters (R239, R253). -/
def State.deliver (s : State) (i : Nat) (m : RxMsg) : State :=
  let h := m.head
  match s.cwy.sessions.get? i with
  | none => s
  | some x =>
    let r := advanceAck (h.msn :: x.delivered) x.ackMsn (x.delivered.length + 1)
    let s := s.setSess i fun x => { x with
      ackMsn := r.1, delivered := r.2
      ackOldest := if x.unsentAcks = 0 then s.now else x.ackOldest
      unsentAcks := x.unsentAcks + 1
      lastRx := x.lastRx.set m.port s.now }
    ((s.bumpD x.domain (Reg.cwyMsgRxLo + cwyOff m.port)).peerAcks i h.ack).setPort m.port fun p => { p with lastUse := s.now }

/-- Close a session after a failed integrity check (R254, reason 4). -/
def State.integrityClose (s : State) (i port : Nat) : State :=
  match s.cwy.sessions.get? i with
  | none => s
  | some x =>
    let s := s.cwySend i port { mtype := 0x03, vc := 0, body := detachBody 0 0 4 x.lastMsn x.sessionId }
    ((s.freeSession i).setErr Err.cwyIntegrity (cwyOff port)).bumpD x.domain (Reg.cwyIntegrityLo + cwyOff port)

/-- The port group of a port, an island of Table 13.3. -/
def portGroup (port : Nat) : Nat := 16 + port / 8

/-- A request of QUERY that meets a sleeping, quiescing or waking device (R300 to R302). -/
def State.abortSleep (s : State) (source : Nat) : State :=
  if s.pwr.standby = .quiescing && bit (s.reg Reg.pwrWakeEn) source then
    ({ s with pwr := { s.pwr with standby := .running, result := 2 } } : State).bump Reg.pwrSleepAbortLo
  else s

/-- The checks of Table 11.8, in its order. `cost` is the estimated cost of the request in its domain, where admission
judges the type (R294). -/
def State.receive (s : State) (m : RxMsg) (cost : Option (State → Nat → Nat)) : State × RxOutcome :=
  let h := m.head
  let s := s.linkTake m
  let live := if h.sid = 0 then none else s.sessionOf m.port h.sid
  let role := (live.bind s.cwy.sessions.get?).map Session.role
  let timing := ((live.bind s.cwy.sessions.get?).map Session.timing).getD false
  if !m.wellFormed || !s.maySend role h.mtype then (s.errorFor m live .format, .done)
  else if h.sid = 0 then
    if h.mtype = 0x01 ∨ h.mtype = 0x02 ∨ h.mtype = 0x3F then (s, .plain) else (s.errorFor m none .denied, .done)
  else
    match live with
    | none => (s.errorFor m none .denied, .done)
    | some i =>
      match s.cwy.sessions.get? i with
      | none => (s, .done)
      | some x =>
        if timing && !(h.mtype == 0x30 || h.mtype == 0x04 || h.mtype == 0x03 || h.mtype == 0x3F) then
          (s.errorFor m none .denied, .done)
        else
          let k := (x.rxKeys.getD (m.port, m.vc) {}).follow h.ctr (bit h.flags 2)
          if !m.tagOk || decide (h.ctr ≠ k.ctr) || decide (bit h.flags 2 ≠ k.kphase) then (s.integrityClose i m.port, .done)
          else
            let s := s.setSess i fun x => { x with rxKeys := x.rxKeys.set (m.port, m.vc) k.next }
            let ahead := msnAhead h.msn x.ackMsn
            if decide (h.msn = 0) then (s.errorFor m (some i) .format, .done)
            else if decide (ahead = 0) || decide (2 ^ 31 ≤ ahead) || x.delivered.contains h.msn then
              (s.bumpD x.domain (Reg.cwyDupLo + cwyOff m.port), .done)
            else if 4096 < ahead then (s.errorFor m (some i) .format, .done)
            else
              let s := s.deliver i m
              if m.vc ≠ 1 then (s, .pass i)
              else
                let s := s.abortSleep 1
                let s := s.setSess i fun x => { x with openReqs := x.openReqs ++ [h.msn] }
                let past := match x.peerLast with
                  | some last => decide (0 < msnAhead h.msn last) && decide (msnAhead h.msn last < 2 ^ 31)
                  | none => false
                if s.island (portGroup m.port) ≠ .on || past || !s.takesWork then (s, .refuse i .unavailable 0)
                else
                  match cost with
                  | some f =>
                    if s.admitRefuses x.domain (f s x.domain) then
                      (s.refuseAdmission x.domain, .refuse i .busyRetry (s.retryHint x.domain))
                    else (s, .pass i)
                  | none => (s, .pass i)

/-- The requester that a received request makes. -/
def RxMsg.requester (m : RxMsg) (i : Nat) : Requester :=
  let h := m.head
  let app := decide (h.mtype = 0x10) && decide (12 ≤ m.body.length)
  .cwy i m.port h.msn h.mtype (bit h.flags 1) (if app then u16 m.body 4 else 0) (if app then u32 m.body 0 else 0)
    (if app then u32 m.body 8 else 0)

end Sys2Proof.Machine
end

