-- ==== Sys2Proof/Machine/Rings.lean ====
section
/-! DEFINITION. Machine/Rings.lean: the Carulo rings and the completion of requests (R262 to R268, R321), as every command
that answers a request uses them. -/

namespace Sys2Proof.Machine

/-- A function's state; PF0 is bound to domain 0 from every reset, with 16 ring pairs (R43, Table 12.10). -/
def State.func (s : State) (fn : Nat) : Func :=
  s.hif.funcs.getD fn (if fn = 0 then { bound := true, rings := 16 } else {})

/-- A function changed. -/
def State.setFunc (s : State) (fn : Nat) (f : Func → Func) : State :=
  { s with hif := { s.hif with funcs := s.hif.funcs.set fn (f (s.func fn)) } }

/-- A ring of a function. -/
def State.ring (s : State) (fn k : Nat) : Ring := (s.func fn).ringTab.getD k {}

/-- A ring changed. -/
def State.setRing (s : State) (fn k : Nat) (f : Ring → Ring) : State :=
  s.setFunc fn fun g => { g with ringTab := g.ringTab.set k (f (s.ring fn k)) }

/-- Whether a function serves its domain: a VF bound to a domain that is not `ACTIVE` acts as though it were unbound
(R305). -/
def State.bound (s : State) (fn : Nat) : Bool :=
  let f := s.func fn
  f.bound && (fn == 0 || decide ((s.lve.doms.get? f.domain).map Domain.st = some .active))

/-- A function's MSI-X message, or its bit in the pending-bit array where the vector is masked (Table 16.2). -/
def State.msix (s : State) (fn vector : Nat) : State :=
  let f := s.func fn
  if f.masked.contains vector || !f.busMaster || f.d3hot || !s.hif.linkUp then
    s.setFunc fn fun f => { f with pba := if f.pba.contains vector then f.pba else vector :: f.pba }
  else s.emit (.msix fn vector)

/-- The output address of a command (Table 12.4, Table 14.3). -/
def outAddr (opcode : Nat) (ops : List Byte) : Nat :=
  match opcode with
  | 0x0B => u64 ops 8
  | 0x4B => u64 ops 8
  | _ => u64 ops 0

/-- A ring fault of Table 12.5: no further fetch, `DOM_ERR.RING_FAULT`, and the cause of `DOM_RING_STAT`. -/
def State.ringFault (s : State) (fn k cause : Nat) : State :=
  let s := s.setRing fn k fun r => if r.st = .active then { r with st := .error, cause := cause } else r
  s.setErr Err.domRingFault (domBase + fn * 0x8000)

/-- Signal a ring's vector (R265). -/
def State.ringSignal (s : State) (fn k : Nat) : State :=
  let r := s.ring fn k
  (s.setRing fn k fun r => { r with unsignalled := 0 }).msix fn r.vector

/-- Post a completion: first the bytes the command writes, then the entry, then the vector (R264, R265). -/
def State.postCpl (s : State) (q : CmdRef) (c : Cpl) : State :=
  let r := s.ring q.func q.ring
  match r.inflight.find? fun f => f.num == q.num with
  | none => s
  | some f =>
    let s := s.setRing q.func q.ring fun r => { r with inflight := r.inflight.filter fun f => f.num != q.num }
    let s := s.bump Reg.hifCmdLo
    let s := if c.status = .ok then s else s.bump Reg.hifCmdFailLo
    if f.discard || !s.hif.linkUp then s
    else
      let s := if c.out.isEmpty || decide (c.status = .denied) then s
        else s.emit (.hostWrite q.func (outAddr f.opcode f.ops) c.out)
      let e : Completion := {
        result := c.result, detail := c.detail, sqHead := f.sqHead, cid := f.cid, status := c.status, phase := r.phase
        retryUs := if c.status = .busyRetry then min c.retryUs 65535 else 0 }
      let s := s.emit (.cqe q.func q.ring r.cqTail e)
      let size := 2 ^ r.cqLog2
      let s := s.setRing q.func q.ring fun r => { r with
        cqTail := (r.cqTail + 1) % size
        phase := if r.cqTail + 1 = size then !r.phase else r.phase
        unread := r.unread + 1
        oldest := if r.unsignalled = 0 then s.now else r.oldest
        unsignalled := r.unsignalled + 1 }
      if max r.irqCount 1 ≤ r.unsignalled + 1 then s.ringSignal q.func q.ring else s

/-- The 16 bytes of a completion that `OPERATOR_CMD` returns (Table 12.3, Table 14.6). -/
def cplBytes (c : Cpl) : List Byte :=
  leBytes 4 c.result ++ leBytes 4 c.detail ++ leBytes 2 0 ++ leBytes 2 0 ++ leBytes 1 c.status.code ++ leBytes 1 0
    ++ leBytes 2 (if c.status = .busyRetry then min c.retryUs 65535 else 0)

/-- A Levee response: `OP`, status, `DOMAIN`, body (R311). -/
def leveeResp (op code domain : Nat) (body : List Byte) : List Byte :=
  leBytes 1 op ++ leBytes 1 code ++ leBytes 2 domain ++ body

/-- The SPDM `ERROR` that carries a code of Table 0.5. -/
def spdmError (code : Nat) : List Byte := leBytes 1 0x13 ++ leBytes 1 0x7F ++ leBytes 1 0xFF ++ leBytes 1 code

/-- An SPDM response leaves: on the management network, or as the output of the `LVE_SPDM` that carried the request, which
fails where it is longer than `OUT_LEN`. -/
def State.spdmOut (s : State) (sess : Nat) (via : Option CmdRef) (resp : List Byte) : State :=
  match via with
  | none => s.emit (.spdm sess resp)
  | some q =>
    let room := (((s.ring q.func q.ring).inflight.find? fun f => f.num == q.num).map fun f => u32 f.ops 8).getD 0
    if room < resp.length then s.postCpl q { status := .format } else s.postCpl q { result := resp.length, out := resp }

/-- Deliver the outcome of a request now. -/
def State.deliverCpl (s : State) (r : Requester) (c : Cpl) : State :=
  match r with
  | .ring q => s.postCpl q c
  | .cwy i port msn mtype report layer handle pos => s.answer i port msn mtype report layer handle pos c
  | .op sess via =>
    s.spdmOut sess via (if c.status = .stale then spdmError c.status.code else leveeResp 0x10 c.status.code 0 (cplBytes c ++ c.out))
  | .lve sess op d via =>
    s.spdmOut sess via (if c.status = .denied ∨ c.status = .stale ∨ op = 0 then spdmError c.status.code
      else leveeResp op c.status.code d c.out)
  | .device => s

/-- `DEV_TIME` at which a command was fetched. -/
def State.fetchedAt (s : State) (q : CmdRef) : Nat :=
  (((s.ring q.func q.ring).inflight.find? fun f => f.num == q.num).map InFlight.arrived).getD s.now

/-- `DEV_TIME` at which a request arrived. -/
def State.arrivalOf (s : State) (r : Requester) : Nat :=
  match r with
  | .ring q => s.fetchedAt q
  | .op _ (some q) => s.fetchedAt q
  | .lve _ _ _ (some q) => s.fetchedAt q
  | _ => s.now

/-- Complete a request. Every `E_DENIED` waits for arrival + 2,000 ns, carries nothing but its fixed form and writes no
output (R321). An `E_STALE` of a warm reset of the translation unit leaves at its end (Table 15.3). -/
def State.completeNow (s : State) (r : Requester) (c : Cpl) : State :=
  if c.status = .stale && s.flt.xlt.warmSince.isSome then { s with flt := { s.flt with stale := s.flt.stale ++ [(.xlt, r, c)] } }
  else if c.status = .denied then
    match r with
    | .cwy _ _ _ _ _ _ _ _ => s.deliverCpl r c
    | .device => s
    | _ =>
      ({ s with hif := { s.hif with refusals := s.hif.refusals ++ [(r, { status := .denied }, s.arrivalOf r + 2000)] } } :
        State).bump Reg.lveDeniedLo
  else s.deliverCpl r c

/-- Complete a request: an answer changes no store, no engine and no table. -/
def State.complete (s : State) (r : Requester) (c : Cpl) : State :=
  s.only { regs := true, ctrs := true, outs := true, hif := true, flt := true, counts := true, cwy := true } (s.completeNow r c)

/-- Complete a request with a code alone. -/
def State.fail (s : State) (r : Requester) (st : Status) : State := s.complete r { status := st }

/-- Complete where the outcome is known now. -/
def State.completeOpt (s : State) (r : Requester) (c : Option Cpl) : State :=
  match c with
  | some c => s.complete r c
  | none => s

/-- The domain in which a requester acts. -/
def State.domainOf (s : State) (r : Requester) : Nat :=
  match r with
  | .ring q => (s.func q.func).domain
  | .cwy i _ _ _ _ _ _ _ => s.sessDomain i
  | _ => 0

/-- A command in flight that may start: fetched, with the row's opcode, after the commands before it on its ring, which the engine
checks in ring order (R267), and, with `FENCE`, once every one of those has posted its completion. Commands of a ring before its
reset do not hold back those after it (log entry 116). -/
def State.startable (s : State) (q : CmdRef) (opcode : Nat) : Option InFlight :=
  let r := s.ring q.func q.ring
  match r.inflight.find? fun f => f.num == q.num with
  | none => none
  | some f =>
    let waits := r.inflight.any fun g => decide (g.num < f.num) && g.discard == f.discard && (f.fence || !g.started)
    if f.started || decide (f.opcode ≠ opcode) || waits || decide (s.glb.phase = .safe) then none else some f

/-- A command in flight marked as started. -/
def State.markStarted (s : State) (q : CmdRef) : State :=
  s.setRing q.func q.ring fun r => { r with
    inflight := updFirst (fun g => g.num == q.num) (fun g => { g with started := true }) r.inflight }

/-- Start a command: it is marked, and its meaning runs on its operand area in its function's domain. The ring command
waits where it is not the fetched command that the row names. -/
def State.runCmd (s : State) (q : CmdRef) (opcode : Nat) (f : State → Requester → Nat → List Byte → State) : State :=
  match s.startable q opcode with
  | none => s
  | some c =>
    let s := s.markStarted q
    f s (.ring q) (s.func q.func).domain c.ops

/-- Start a command that has input: a failed host read completes it with `E_FORMAT` (R259). -/
def State.runCmdIn (s : State) (q : CmdRef) (opcode : Nat) (inp : HostRead)
    (f : State → Requester → Nat → List Byte → List Byte → State) : State :=
  match s.startable q opcode with
  | none => s
  | some c =>
    match inp with
    | .failed => ((s.runCmd q opcode fun s r _ _ => s.fail r .format).setErr Err.hifDma).setErr Err.domDma (domBase + q.func * 0x8000)
    | .bytes bs => if bs.length = c.inLen then s.runCmd q opcode fun s r d ops => f s r d ops bs else s

/-- Whether a domain may take one more entry of a pool (R307). `owners` lists the domain of each entry in use. -/
def State.mayTake (s : State) (total : Nat) (rsv : Domain → Nat) (owners : List Nat) (d : Nat) : Bool :=
  let own := fun (e : Nat) => ((s.lve.doms.get? e).map rsv).getD 0
  if owners.count d < own d then true
  else if s.conf d then false
  else
    let excess := sumNat (owners.eraseDups.map fun e => owners.count e - own e)
    decide (sumNat (s.lve.doms.map fun e => rsv e.2) + excess < total)

/-- The next free value of a kind. -/
def State.drawFrom (s : State) (f : Nat → Nat) : Nat × State := (f s.fresh, s.draw.2)

end Sys2Proof.Machine
end

