-- ==== Sys2Proof/Machine/Audit.lean ====
section
/-! DEFINITION. Machine/Audit.lean: the audit log as every privileged change uses it (R329 to R331). -/

namespace Sys2Proof.Machine

/-- `ORIGIN` and `ORIGIN_ID` of an entry (Table 14.20). -/
structure Who where
  origin : Nat
  id : Nat
  deriving DecidableEq, Repr

/-- The device itself. -/
def Who.device : Who := { origin := 5, id := 0 }

/-- Who issued a request. -/
def State.whoReq (s : State) (r : Requester) : Who :=
  match r with
  | .ring q => { origin := 1, id := q.func * 65536 + q.ring % 65536 }
  | .cwy i port _ _ _ _ _ _ =>
    { origin := 2, id := port * 2 ^ 24 + (((s.cwy.sessions.get? i).map Session.sessionId).getD 0) % 2 ^ 24 }
  | .op sess _ => { origin := 4, id := sess }
  | .lve sess _ _ _ => { origin := 4, id := sess }
  | .device => .device

/-- Who wrote a register. -/
def Origin.who : Origin → Who
  | .pf0 => { origin := 0, id := 0 }
  | .vf n => { origin := 0, id := n + 1 }
  | .toluo => { origin := 3, id := 0 }
  | .jtag => { origin := 6, id := 0 }

/-- Segment slots of the flash area (R331). -/
def Variant.auditSlots (v : Variant) : Nat := if v.hasFlash then 256 else 64

/-- Free slots. -/
def State.auditFree (s : State) : Nat := s.glb.variant.auditSlots - s.aud.segments.length

/-- Whether the log can take entries beyond those it holds and has reserved (R331, R316). -/
def State.auditTakes (s : State) (n : Nat := 1) : Bool :=
  decide (s.aud.reserved + n ≤ s.auditFree * 4096 + (4096 - s.aud.open_.length))

/-- Whether the log can take a persistent change, which needs an early seal (R330, R331). -/
def State.auditSeals (s : State) : Bool := decide (1 ≤ s.auditFree) && s.auditTakes

/-- SHA-384 truncated to 16 bytes (R329). -/
def valueHash (v : List Byte) : List Byte := (sha384 v).take 16

/-- The 64 bytes of an entry (Table 14.20). -/
def AuditEntry.bytes (e : AuditEntry) : List Byte :=
  leBytes 8 e.time ++ leBytes 4 e.number ++ leBytes 2 e.domain ++ leBytes 1 e.origin ++ leBytes 1 e.kind
    ++ leBytes 4 e.originId ++ leBytes 4 e.target ++ e.old ++ e.new ++ e.chain

/-- The 128-byte header of a segment (R330). -/
def segHeader (number first count flags : Nat) (prev : List Byte) (time : Nat) : List Byte :=
  leBytes 8 number ++ leBytes 8 first ++ leBytes 4 count ++ leBytes 4 flags ++ (prev ++ List.replicate 48 0#8).take 48
    ++ leBytes 8 time ++ List.replicate 48 0#8

/-- Seal the open segment where it holds entries and a slot is free (R330). -/
def State.sealSegment (s : State) (flags : Nat) : State :=
  let a := s.aud
  if a.open_.isEmpty || s.auditFree == 0 then s
  else
    let first := (a.open_.head?.map AuditEntry.number).getD 0
    let digest := sha384 (segHeader a.nextSegment first a.open_.length flags a.lastDigest s.now
      ++ a.open_.flatMap AuditEntry.bytes)
    let seg : Segment := {
      number := a.nextSegment, entries := a.open_, flags := flags, prev := a.lastDigest, time := s.now, digest := digest
      signature := signature 2 digest }
    let low := s.fld Reg.audCfg 8 0
    let s := { s with aud := { a with
      nextSegment := a.nextSegment + 1, open_ := [], segments := a.segments ++ [seg], lastDigest := digest } }
    let s := (s.offer (s.keyItem 0 (.sign seg.number))).setEvt Evt.audSealed
    if s.auditFree + 1 = low then s.setEvt Evt.audLowSpace else s

/-- Put one entry in the ring; a segment of 4,096 entries is sealed, one that waited for a slot before the entry that follows
it, and the full state is signalled when it begins. -/
def State.auditEntry (s : State) (domain : Nat) (w : Who) (kind target : Nat) (old new : List Byte) : State :=
  let s := if 4096 ≤ s.aud.open_.length then s.sealSegment 0 else s
  let a := s.aud
  let chain := match a.open_.getLast? with
    | some e => (sha384 e.bytes).take 8
    | none => a.lastDigest.take 8
  let e : AuditEntry := {
    time := s.now, number := a.nextEntry, domain := domain, origin := w.origin, kind := kind, originId := w.id
    target := target, old := valueHash old, new := valueHash new, chain := chain }
  let s := { s with aud := { a with nextEntry := a.nextEntry + 1, open_ := a.open_ ++ [e] } }
  let s := if s.aud.open_.length = 4096 then s.sealSegment 0 else s
  if !s.auditTakes && !s.aud.full then ({ s with aud := { s.aud with full := true } } : State).setEvt Evt.audFull else s

/-- An entry of the audit log: it changes the log, the events of its page and the budget. -/
def State.audit (s : State) (domain : Nat) (w : Who) (kind target : Nat) (old new : List Byte) : State :=
  s.only { regs := true, pwr := true, aud := true } (s.auditEntry domain w kind target old new)

/-- A persistent change: its entry, an early seal, and its effect once the segment is in the flash area (R330). -/
def State.auditPersist (s : State) (domain : Nat) (w : Who) (kind target : Nat) (old new : List Byte) (p : Persist) : State :=
  let n := s.aud.nextSegment
  let s := (s.audit domain w kind target old new)
  let s := if s.aud.nextSegment = n then s.sealSegment 1 else s
  { s with aud := { s.aud with waiting := s.aud.waiting ++ [(n, p)] } }

/-- A privileged change is refused with `E_LOG_FULL` (R331). -/
def State.auditRefuse (s : State) : State := (s.bump Reg.audRefusedLo).setErr Err.audLogFull

/-- Run a privileged change that a request asks for, or refuse it. -/
def State.privileged (s : State) (r : Requester) (domain kind target : Nat) (new : List Byte) (f : State → State) : State :=
  if s.auditTakes then f (s.audit domain (s.whoReq r) kind target [] new) else s.auditRefuse.fail r .logFull

end Sys2Proof.Machine
end

