-- ==== Sys2Proof/Machine/Frames.lean ====
section
/-! DEFINITION. Machine/Frames.lean: page layouts, the space of the tiers, and the frames that sequences, block
descriptors, objects and translation tables hold (chapters 3 and 8). -/

namespace Sys2Proof.Machine

/-- Bytes in a GiB. -/
def gib : Nat := 2 ^ 30

/-! ### Page layouts -/

/-- Data bytes of a page of `g` heads (Table 3.4). -/
def dataBytes (fmt g d : Nat) : Nat := match fmt with | 1 => 64 * g * d | 2 => 32 * g * d | _ => 16 * g * d

/-- Sidecar bytes of a page of `g` heads (Table 3.4). -/
def sideBytes (fmt g d : Nat) : Nat :=
  match fmt with | 1 => 0 | 2 => 8 * g | 3 => 2 * g * d | _ => 2 * g * d + 128 * g

/-- The smallest frame class that holds some bytes (R50). -/
def classFor (bytes : Nat) : Option Nat := (List.range 7).find? fun n => decide (bytes ≤ 4096 * 2 ^ n)

/-- Extent of a frame of a class with a sidecar (R50). -/
def extentOf (fc side : Nat) : Nat := 4096 * 2 ^ fc + ceilDiv side 512 * 512

/-- The number of head groups of R51, up to 16. -/
def splitOf (kv d fmt : Nat) : Option Nat :=
  ((List.range 16).map (· + 1)).find? fun n =>
    let g := ceilDiv kv n
    decide (g ≤ 16) && (classFor (dataBytes fmt g d)).isSome

/-- Head groups of a model (R51). -/
def Model.groups (m : Model) : Nat := (splitOf m.kvHeads m.headDim m.format).getD 1
/-- KV heads of a full head group. -/
def Model.g (m : Model) : Nat := ceilDiv m.kvHeads m.groups
/-- Frame class of the model's pages. -/
def Model.fc (m : Model) : Nat := (classFor (dataBytes m.format m.g m.headDim)).getD 6
/-- Extent of the model's frames in bytes. -/
def Model.ext (m : Model) : Nat := extentOf m.fc (sideBytes m.format m.g m.headDim)
/-- Slots of a block descriptor of the model (R62). -/
def Model.slots (m : Model) : Nat := m.layers * m.groups

/-- Frame class of the page of a block descriptor (R48, R62). -/
def bdClass (slots : Nat) : Nat := (classFor (64 + 16 * slots)).getD 6

/-! ### Sequences, objects and block descriptors by name -/

/-- The sequence descriptor of an index. -/
def State.seq? (s : State) (i : Nat) : Option Seq := s.xlt.seqs.get? i

/-- A sequence descriptor changed. -/
def State.setSeq (s : State) (i : Nat) (f : Seq → Seq) : State :=
  { s with xlt := { s.xlt with seqs := s.xlt.seqs.modify i f } }

/-- A block descriptor changed. -/
def State.setBd (s : State) (b : Nat) (f : Bd → Bd) : State :=
  { s with xlt := { s.xlt with bds := s.xlt.bds.modify b f } }

/-- An object changed. -/
def State.setObj (s : State) (n : Nat) (f : Obj → Obj) : State :=
  { s with xlt := { s.xlt with objs := s.xlt.objs.modify n f } }

/-- A model of a domain. -/
def State.model? (s : State) (d tag : Nat) : Option Model := s.xlt.models.get? (d, tag)

/-- The model of a sequence; it stays registered while the sequence lives (R53). -/
def State.modelOf (s : State) (q : Seq) : Model :=
  (s.model? q.domain q.model).getD { layers := 1, kvHeads := 1, qHeads := 1, headDim := 32, format := 1, maxHg := 0 }

/-- The model of a block descriptor. -/
def State.modelOfBd (s : State) (b : Bd) : Model :=
  (s.model? b.domain b.tag).getD { layers := 1, kvHeads := 1, qHeads := 1, headDim := 32, format := 1, maxHg := 0 }

/-- A handle (R54, R186). -/
def handleOf (tag idx : Nat) : Nat := tag * 2 ^ 24 + idx

/-- The sequence that a handle of a domain names (R55); a parked one answers `E_BUSY_RETRY` (R378). -/
def State.findSeq (s : State) (d h : Nat) : Except Status (Nat × Seq) :=
  let i := h % 2 ^ 24
  match s.seq? i with
  | some q => if q.st ≠ .retired ∧ q.tag = h / 2 ^ 24 ∧ q.domain = d then .ok (i, q) else .error .denied
  | none =>
    if s.pea.parked.any (fun p => match p.body with
      | .seq j q => j == i && q.tag == h / 2 ^ 24 && q.domain == d
      | _ => false) then .error .busyRetry else .error .denied

/-- The object that a handle of a domain names. -/
def State.findObj (s : State) (d h : Nat) : Except Status (Nat × Obj) :=
  let i := h % 2 ^ 16
  let named := decide (bits h 23 16 = 0)
  match s.xlt.objs.get? i with
  | some o => if named && o.live && o.tag == h / 2 ^ 24 && o.domain == d then .ok (i, o) else .error .denied
  | none =>
    if named && s.pea.parked.any (fun p => match p.body with
      | .obj j o => j == i && o.tag == h / 2 ^ 24 && o.domain == d
      | _ => false) then .error .busyRetry else .error .denied

/-- A live block descriptor of a domain (R55). -/
def State.findBd (s : State) (d b : Nat) : Option Bd := (s.xlt.bds.get? b).filter fun x => x.domain == d

/-- The expected position of a layer (R81). -/
def Seq.nextPos (q : Seq) (l : Nat) : Nat := q.next.getD l q.base

/-- One above the highest accepted position of a layer (R21). -/
def Seq.accPos (q : Seq) (l : Nat) : Nat := q.acc.getD l q.base

/-- The length: the smallest expected position (R81). -/
def State.lengthOf (s : State) (q : Seq) : Nat :=
  ((List.range (s.modelOf q).layers).map q.nextPos).foldl min (2 ^ 24)

/-! ### Placed regions of T0 (R47) -/

/-- T0 capacity in bytes. -/
def State.t0Bytes (s : State) : Nat := s.glb.variant.t0Gib * gib
/-- The Peat region. -/
def State.peatRegion (s : State) : Nat := if s.glb.variant.hasFlash then 24 * gib else 0
/-- Size of the spill pool. -/
def State.spillBytes (s : State) : Nat := if s.glb.variant.hasAttn then s.reg Reg.atcSpillPool * gib else 0
/-- Base of the page-table region. -/
def State.ptrBase (s : State) : Nat := s.reg Reg.xltPtrBaseHi * 2 ^ 32 + s.reg Reg.xltPtrBaseLo
/-- Size of the page-table region. -/
def State.ptrBytes (s : State) : Nat := s.fld Reg.xltPtrSize 5 0 * gib
/-- Base of the Reedbed region. -/
def State.rbdBase (s : State) : Nat := s.reg Reg.rbdBaseHi * 2 ^ 32 + s.reg Reg.rbdBaseLo

/-- The page-table region and the Reedbed region where they are placed: base and size. -/
def State.movableRegions (s : State) : List (Nat × Nat) :=
  (if s.xlt.placed then [(s.ptrBase, s.ptrBytes)] else []) ++ (if s.rbd.placed then [(s.rbdBase, 8 * gib)] else [])

/-- Every placed region: base and size. -/
def State.t0Regions (s : State) : List (Nat × Nat) :=
  let low := s.t0Bytes - s.peatRegion - s.spillBytes
  [(low, s.t0Bytes - low)] ++ s.movableRegions

/-- Whether an address of T0 lies in the page-table region. -/
def State.inPtr (s : State) (a : Nat) : Bool := s.xlt.placed && decide (s.ptrBase ≤ a) && decide (a < s.ptrBase + s.ptrBytes)

/-! ### Pools (R166, R167) -/

/-- The lowest free address of a run of bytes within `[lo, hi)`. -/
def firstFit (lo hi n : Nat) (used : List (Nat × Nat)) : Option Nat :=
  let ok := fun a => decide (a + n ≤ hi) && used.all fun u => decide (a + n ≤ u.1) || decide (u.1 + u.2 ≤ a)
  let cands := (lo :: (used.map fun u => u.1 + u.2).filter fun a => decide (lo ≤ a)).filter ok
  cands.foldl (fun b a => some (match b with | some c => min a c | none => a)) none

/-- Occupied runs of a tier, in bytes. -/
def State.usedOf (s : State) (tier : Nat) : List (Nat × Nat) :=
  (s.slc.extents.filter fun e => e.1.tier == tier).map fun e => (e.1.addr * 512, e.2.1)

/-- T0 capacity in the pool. -/
def State.t0Pool (s : State) : Nat := s.t0Bytes - sumNat (s.t0Regions.map Prod.snd)

/-- T0 bytes of the pool that a domain holds. -/
def State.t0Use (s : State) (d : Nat) : Nat :=
  sumNat ((s.slc.extents.filter fun e => e.1.tier == 0 && e.2.2 == d && !s.inPtr (e.1.addr * 512)).map fun e => e.2.1)

/-- Quota of a domain in bytes. -/
def State.quotaOf (s : State) (d : Nat) : Nat := s.slc.quota.getD d 0 * gib

/-- Sum of the nonzero quotas in GiB. -/
def State.quotaSum (s : State) : Nat := sumNat s.slc.quota.values

/-- Free T0 bytes of a domain's share (R167). -/
def State.t0Share (s : State) (d : Nat) : Nat :=
  if s.quotaOf d ≠ 0 then s.quotaOf d - s.t0Use d
  else if s.conf d then 0
  else
    let open_ := sumNat ((s.slc.extents.filter fun e =>
      e.1.tier == 0 && s.slc.quota.getD e.2.2 0 == 0 && !s.inPtr (e.1.addr * 512)).map fun e => e.2.1)
    s.t0Pool - s.quotaSum * gib - open_

/-- Free bytes of the T0 pool. -/
def State.t0Free (s : State) : Nat :=
  s.t0Pool - sumNat ((s.slc.extents.filter fun e => e.1.tier == 0 && !s.inPtr (e.1.addr * 512)).map fun e => e.2.1)
    - sumNat (s.flt.retired.map Prod.snd)

/-- Ports of T1 with capacity in the pool: port and bytes (R272, R273). -/
def State.t1Ports (s : State) : List (Nat × Nat) :=
  (List.range 4).filterMap fun p =>
    match s.hif.cxl.get? p with
    | some c => if c.gib = 0 then none else some (p, min c.gib 2048 * gib)
    | none => none

/-- T2 window in bytes (R269). -/
def State.t2Bytes (s : State) : Nat := s.reg Reg.hifT2Size * gib

/-- The usable T3 capacity in GiB (R193, R166). -/
def State.t3Gib (s : State) : Nat :=
  let g := s.pea.geom
  let rows := (g.targets - s.pea.excluded.length - s.pea.absent.length) * g.luns * g.blocks * g.pages
  let raw := rows * g.planes * 16384
  raw * (100 - s.pea.opPct) / 100 / gib

/-- Whether the T3 pool is available (R166). -/
def State.t3Open (s : State) : Bool :=
  s.glb.variant.hasFlash && (decide (s.pea.pstate = .ready) || decide (s.pea.pstate = .readOnly))

/-- Record an extent. -/
def State.take (s : State) (h : Home) (bytes d : Nat) : State :=
  { s with slc := { s.slc with extents := s.slc.extents ++ [(h, bytes, d)] } }

/-- Free space of the pool of a tier other than T0, in bytes; 0 for an absent tier. -/
def State.lowerPool (s : State) (tier : Nat) : Nat :=
  match tier with
  | 1 => sumNat (s.t1Ports.map Prod.snd)
  | 2 => s.t2Bytes
  | _ => if s.t3Open then s.t3Gib * gib else 0

/-- Set `SLC_EVT.T0_LOW` where the free T0 pool has fallen below 5 % since a state. -/
def State.t0LowFrom (s t : State) : State :=
  if t.t0Pool ≤ s.t0Free * 20 ∧ t.t0Free * 20 < t.t0Pool then t.setEvt Evt.slcT0Low else t

/-- A T0 extent of the pool at the lowest free address (R166), within the domain's share. -/
def State.allocT0 (s : State) (d bytes : Nat) : Option (Home × State) :=
  if s.t0Share d < bytes then none
  else
    (firstFit 0 s.t0Bytes bytes (s.t0Regions ++ s.usedOf 0 ++ s.flt.retired.map fun r => (r.1 * 512, r.2))).map fun a =>
      let h : Home := { tier := 0, addr := a / 512 }
      (h, s.t0LowFrom (s.take h bytes d))

/-- A T1 extent: ports with space are taken round-robin (R166). -/
def State.allocT1 (s : State) (d bytes : Nat) : Option (Home × State) :=
  let used := s.usedOf 1
  ((List.range 4).map fun i => (s.slc.t1Next + i) % 4).findSome? fun p =>
    match s.t1Ports.find? fun x => x.1 == p with
    | none => none
    | some (_, cap) =>
      let base := p * 2048 * gib
      (firstFit base (base + cap) bytes used).map fun a =>
        let h : Home := { tier := 1, addr := a / 512 }
        let s := s.take h bytes d
        (h, { s with slc := { s.slc with t1Next := (p + 1) % 4 } })

/-- A T2 extent at the lowest free address of the window (log entry 32). -/
def State.allocT2 (s : State) (d bytes : Nat) : Option (Home × State) :=
  (firstFit 0 s.t2Bytes bytes (s.usedOf 2)).map fun a =>
    let h : Home := { tier := 2, addr := a / 512 }
    (h, s.take h bytes d)

/-- A T3 extent at its stream's cursor (R190, R191); retained and freshly released sectors are outside the pool (R377). -/
def State.allocT3 (s : State) (d bytes : Nat) (hot : Bool) : Option (Home × State) :=
  if !s.t3Open || decide (s.pea.pstate = .readOnly) then none
  else
    let unitAligned := decide (2 ^ 20 ≤ s.pea.fine.length)
    let align := if unitAligned then 65536 else 4096
    let n := ceilDiv bytes align * align
    let cur := (if hot then s.pea.hotCur else s.pea.coldCur) * 4096
    let used := s.usedOf 3 ++ (s.pea.retained ++ s.pea.released ++ s.pea.quarantine.map fun q => (q.1, q.2.1)).map
      fun r => (r.1 * 4096, r.2 * 4096)
    let used := if unitAligned then used.map fun u =>
        (u.1 / 65536 * 65536, ceilDiv (u.1 + u.2) 65536 * 65536 - u.1 / 65536 * 65536) else used
    let cap := s.t3Gib * gib
    let from_ := ceilDiv cur align * align
    ((firstFit from_ cap n used).orElse fun _ => firstFit 0 cap n used).map fun a =>
      let h : Home := { tier := 3, addr := a / 512 }
      let s := s.take h (ceilDiv bytes 4096 * 4096) d
      let c := (a + ceilDiv bytes 4096 * 4096) / 4096
      let c := if c = cap / 4096 then 0 else c
      (h, { s with pea := if hot then { s.pea with hotCur := c } else { s.pea with coldCur := c } })

/-- A T0 extent of the page-table region, past the 2 GiB sequence descriptor table (R46, log entry 33). -/
def State.allocMeta (s : State) (d bytes : Nat) : Option (Home × State) :=
  if !s.xlt.placed then none
  else
    (firstFit (s.ptrBase + 2 * gib) (s.ptrBase + s.ptrBytes) bytes (s.usedOf 0)).map fun a =>
      let h : Home := { tier := 0, addr := a / 512 }
      (h, s.take h bytes d)

/-- MiB of the page-table region in use (log entry 33). -/
def State.ptrUse (s : State) : Nat :=
  if s.xlt.placed then
    2048 + ceilDiv (sumNat ((s.slc.extents.filter fun e => e.1.tier == 0 && s.inPtr (e.1.addr * 512)).map fun e => e.2.1)) (2 ^ 20)
  else 0

/-- An extent in a tier for a data frame, or, in T0, for a metadata frame. -/
def State.alloc (s : State) (d tier bytes : Nat) (isMeta : Bool) : Option (Home × State) :=
  match tier with
  | 0 =>
    if isMeta then
      (s.allocMeta d bytes).map fun r =>
        let low := fun (t : State) => decide (t.reg Reg.xltPtrSize * 1024 * 9 < t.ptrUse * 10)
        (r.1, if low r.2 && !low s then r.2.setEvt Evt.xltPtrLow else r.2)
    else s.allocT0 d bytes
  | 1 => s.allocT1 d bytes
  | 2 => s.allocT2 d bytes
  | _ => s.allocT3 d bytes isMeta

/-- Release an extent. A T3 extent goes to Peat for its trim (R192), and a T0 extent that carries poison from an HBM error
stays out of the pool (R337). A stranded extent stays allocated (R336). -/
def State.freeExt (s : State) (h : Home) : State :=
  match s.slc.extents.find? fun e => e.1 == h with
  | none => s
  | some (_, bytes, _) =>
    if s.flt.strandedHomes.contains h then s else
    let s := { s with slc := { s.slc with extents := s.slc.extents.filter fun e => e.1 != h } }
    if h.tier = 3 then { s with pea := { s.pea with released := s.pea.released ++ [(h.addr / 8, bytes / 4096)] } }
    else if h.tier = 0 ∧ s.flt.badT0.contains h.addr then
      { s with flt := { s.flt with
        retired := s.flt.retired ++ [(h.addr, bytes)], badT0 := s.flt.badT0.filter (· != h.addr) } }
    else s

/-! ### Frames -/

/-- What a PTE, an FD or a metadata entry says of its frame. -/
structure FrameInfo where
  domain : Nat
  fc : Nat
  bytes : Nat
  gen : Nat
  home : Home
  /-- The entry's own `POISON`. -/
  poison : Bool
  moving : Bool
  isMeta : Bool := false
  /-- A sealed page's frame with more than one reference. -/
  shared : Bool := false
  deriving DecidableEq, Repr

/-- The entry of a frame, if it exists. -/
def State.frame? (s : State) (f : FrameId) : Option FrameInfo :=
  match f with
  | .page i l h p =>
    (s.seq? i).bind fun q => (q.ptes.get? (l, h, p)).bind fun e =>
      if e.share.isSome then none
      else some { domain := e.domain, fc := e.fc, bytes := (s.modelOf q).ext, gen := e.gen, home := e.home, poison := e.poison, moving := e.moving }
  | .slot b k =>
    (s.xlt.bds.get? b).bind fun x => (x.fds.get? k).map fun e =>
      { domain := e.domain, fc := e.fc, bytes := (s.modelOfBd x).ext, gen := e.gen, home := e.home, poison := e.poison
        moving := e.moving, shared := decide (1 < e.refs) }
  | .obj n p =>
    (s.xlt.objs.get? n).bind fun o => (o.map.get? p).map fun e =>
      { domain := e.domain, fc := e.fc, bytes := 4096 * 2 ^ e.fc, gen := e.gen, home := e.home, poison := e.poison, moving := e.moving }
  | f =>
    (s.xlt.metas.get? f).map fun e =>
      { domain := e.domain, fc := e.fc, bytes := 4096 * 2 ^ e.fc, gen := e.gen, home := e.home, poison := e.poison, moving := e.moving, isMeta := true }

/-- Write generation, home, poison and the moving state of a frame's entry. -/
def State.setFrame (s : State) (f : FrameId) (u : FrameInfo → FrameInfo) : State :=
  match s.frame? f with
  | none => s
  | some i =>
    let v := u i
    match f with
    | .page i l h p => s.setSeq i fun q => { q with ptes := q.ptes.modify (l, h, p) fun e =>
        { e with gen := v.gen, home := v.home, poison := v.poison, moving := v.moving } }
    | .slot b k => s.setBd b fun x => { x with fds := x.fds.modify k fun e =>
        { e with gen := v.gen, home := v.home, poison := v.poison, moving := v.moving } }
    | .obj n p => s.setObj n fun o => { o with map := o.map.modify p fun e =>
        { e with gen := v.gen, home := v.home, poison := v.poison, moving := v.moving } }
    | f => { s with xlt := { s.xlt with metas := s.xlt.metas.modify f fun e =>
        { e with gen := v.gen, home := v.home, poison := v.poison, moving := v.moving } } }

/-- The frame that serves a page of a sequence. -/
def Pte.frame (e : Pte) (i l h p : Nat) : FrameId :=
  match e.share with
  | some (b, k) => .slot b k
  | none => .page i l h p

/-- The low 32 bits of the DVA of a page (Table 3.1). -/
def pageKey (l h p : Nat) : Nat := l * 2 ^ 24 + h * 2 ^ 20 + p

/-- The four tables on the way to an entry (R45, R69). -/
def tablePath (r : TableRoot) (key : Nat) : List FrameId :=
  [.table r 1 0, .table r 2 (key / 2 ^ 24), .table r 3 (key / 2 ^ 16), .table r 4 (key / 2 ^ 8)]

/-- Whether a metadata frame is poisoned. -/
def State.metaPoison (s : State) (f : FrameId) : Bool := ((s.xlt.metas.get? f).map MetaFrame.poison).getD false

/-- The metadata frames that resolving a page of a sequence needs: its tables and, for a sealed page, its block
descriptor and that descriptor's tables. -/
def Pte.metaPath (e : Pte) (i l h p : Nat) : List FrameId :=
  tablePath (.seq i) (pageKey l h p) ++
    (match e.share with
     | some (b, _) => tablePath .bds b ++ [.bdPage b]
     | none => [])

/-- The effective poison of a page: its own, or that of a table or descriptor on its way (R63, R336). -/
def State.pagePoison (s : State) (i l h p : Nat) (e : Pte) : Bool :=
  ((s.frame? (e.frame i l h p)).map FrameInfo.poison).getD false || (e.metaPath i l h p).any s.metaPoison

/-- The first poisoned position of a sequence (R59). -/
def State.firstPoison (s : State) (i : Nat) (q : Seq) : Nat :=
  ((q.ptes.filter fun x => s.pagePoison i x.1.1 x.1.2.1 x.1.2.2 x.2).map fun x => x.1.2.2 * 16).foldl min 0xFFFFFFFF

/-- Whether a step or a page delivery pins a frame (R23). -/
def State.pinned (s : State) (f : FrameId) : Bool :=
  s.att.steps.any (fun t => t.pins.contains f) || s.slc.pageReads.any fun r => r.pins.contains f

/-- The move in progress of a frame. -/
def State.moveOf (s : State) (f : FrameId) : Option Move := s.slc.moves.find? fun m => m.frame == f && !m.freed

/-- Free a frame: at once, or, while it moves, when the move ends (R65). -/
def State.freeFrame (s : State) (f : FrameId) (home : Home) : State :=
  if (s.moveOf f).isSome then
    { s with slc := { s.slc with moves := updFirst (fun m => m.frame == f && !m.freed) (fun m => { m with freed := true }) s.slc.moves } }
  else s.freeExt home

/-- Free a metadata frame. -/
def State.freeMeta (s : State) (f : FrameId) : State :=
  match s.xlt.metas.get? f with
  | none => s
  | some e => ({ s with xlt := { s.xlt with metas := s.xlt.metas.erase f } } : State).freeFrame f e.home

/-- Add a metadata frame in T0; none where the region is full (R48). -/
def State.addMeta (s : State) (f : FrameId) (d fc : Nat) : Option State :=
  if s.xlt.metas.has f then some s
  else (s.alloc d 0 (4096 * 2 ^ fc) true).map fun r =>
    { r.2 with xlt := { r.2.xlt with metas := r.2.xlt.metas.set f { domain := d, fc := fc, home := r.1 } } }

/-- Add the tables on the way to an entry. -/
def State.addTables (s : State) (r : TableRoot) (key d : Nat) : Option State :=
  (tablePath r key).foldl (fun t f => t.bind fun t => t.addMeta f d 0) (some s)

/-- Free every table of a range. -/
def State.freeTables (s : State) (r : TableRoot) : State :=
  let fs := s.xlt.metas.keys.filter fun f => match f with | .table r' _ _ => r' == r | _ => false
  s.forEach fs fun f t => t.freeMeta f

/-- Free the tables of the range of block descriptors that lead to no descriptor (R46). -/
def State.freeBdTables (s : State) : State :=
  let used := (s.xlt.bds.keys.flatMap (tablePath .bds)).eraseDups
  let fs := s.xlt.metas.keys.filter fun f => match f with | .table .bds _ _ => !used.contains f | _ => false
  s.forEach fs fun f t => t.freeMeta f

/-- Whether an action still waits. -/
def State.waiting? (s : State) (w : Wait) : Bool :=
  match w with
  | .commit n => s.slc.moves.any fun m => m.seqNo == n
  | .unmap i k => (s.seq? i).any fun q => q.unmapping.any fun e => e.1 == k
  | .rescale i l => (s.seq? i).any fun q => q.held.any fun h => h.rc.layer == l && h.cause == .rescale
  | .truncate i => (s.seq? i).any fun q => q.trunc.isSome
  | .retire i => (s.seq? i).any fun q => q.st == .draining
  | .preempt i => s.slc.places.any fun p => !p.started && (match p.kind with | .preempt j _ => i == j | _ => false)

/-- An action begins to wait, or waits on (R406). -/
def State.awaits (s : State) (w : Wait) : State :=
  if s.slc.waits.contains w then s
  else { s with slc := { s.slc with waits := s.slc.waits.filter s.waiting? ++ [w] } }

/-- An action waits no longer. -/
def State.endWait (s : State) (w : Wait) : State :=
  { s with slc := { s.slc with waits := s.slc.waits.filter (· != w) } }

/-- A frame goes by a new name: the pins of the steps and deliveries that hold it follow (R23). -/
def State.renamePins (s : State) (old new : FrameId) : State :=
  let go := fun (f : FrameId) => if f = old then new else f
  { s with
    att := { s.att with steps := s.att.steps.map fun t => { t with pins := t.pins.map go } }
    slc := { s.slc with pageReads := s.slc.pageReads.map fun r => { r with pins := r.pins.map go } } }

/-- Free the frames of a block descriptor that nothing holds, and the descriptor once none is left (R65). A hand-off of the
freed descriptor goes with it, so that its number can be used again. -/
def State.sweepBd (s : State) (b : Nat) : State :=
  match s.xlt.bds.get? b with
  | none => s
  | some x =>
    if x.indexed then s
    else
      let gone := x.fds.filter fun e => e.2.refs == 0
      let s := s.forEach gone fun e t => t.freeFrame (.slot b e.1) e.2.home
      let s := s.setBd b fun x => { x with fds := x.fds.filter fun e => e.2.refs != 0 }
      if x.fds.all fun e => e.2.refs == 0 then
        let xlt := { s.xlt with bds := s.xlt.bds.erase b, handoffs := s.xlt.handoffs.filter fun h => h.bd != b }
        (({ s with xlt := xlt } : State).freeMeta (.bdPage b)).freeBdTables
      else s

/-- Give up one page's entry that has left its table: the direct frame is freed, or the reference dropped (Table 3.9). -/
def State.dropPte (s : State) (i : Nat) (key : Nat × Nat × Nat) (e : Pte) : State :=
  match e.share with
  | none => s.freeFrame (.page i key.1 key.2.1 key.2.2) e.home
  | some (b, k) =>
    (s.setBd b fun x => { x with fds := x.fds.modify k fun f => { f with refs := f.refs - 1 } }).sweepBd b

/-- Unmap a page of a sequence: at once, or, while a pin holds its frame, when the pin is released (R66). -/
def State.unmapPage (s : State) (i : Nat) (key : Nat × Nat × Nat) : State :=
  match (s.seq? i).bind fun q => q.ptes.get? key with
  | none => s
  | some e =>
    let held := s.pinned (e.frame i key.1 key.2.1 key.2.2)
    -- a moving direct frame keeps its name until the move ends: it is marked before the entry goes
    let s := if held || e.share.isSome then s else s.freeFrame (.page i key.1 key.2.1 key.2.2) e.home
    let s := s.setSeq i fun q => { q with
      ptes := q.ptes.erase key, unmapping := if held then q.unmapping ++ [(key, e)] else q.unmapping }
    if held then s.awaits (.unmap i key) else if e.share.isNone then s else s.dropPte i key e

/-- The block descriptor that holds the sealed pages of a block of a sequence. -/
def Seq.bdOf (q : Seq) (block : Nat) : Option Nat :=
  (q.ptes.findSome? fun x => if x.1.2.2 = block then x.2.share else none).map Prod.fst

/-! ### Work in flight (R56, R57) -/

/-- Accepted work of a sequence begins. -/
def State.workStarts (s : State) (i : Nat) : State :=
  s.setSeq i fun q => { q with
    inFlight := q.inFlight + 1, lastActive := s.now, st := if q.st = .idle then .active else q.st }

/-- Accepted work of a sequence completes. -/
def State.workEnds (s : State) (i : Nat) : State :=
  s.setSeq i fun q => { q with
    inFlight := q.inFlight - 1, lastActive := s.now, st := if q.st = .active ∧ q.inFlight ≤ 1 then .idle else q.st }

/-- Held work of a sequence proceeds after a restore: the sequence is `ACTIVE` while it is in flight (Table 3.6, R180). -/
def State.workResumes (s : State) (i : Nat) : State :=
  s.setSeq i fun q => { q with st := if q.st = .idle ∧ q.inFlight ≠ 0 then .active else q.st }

/-- Whether a translation that serves a domain meets an entry of another domain (R68): the PTE, or the FD of a sealed page. -/
def State.foreignPte (s : State) (d : Nat) (e : Pte) : Bool :=
  e.domain != d || (e.share.any fun x => ((s.xlt.bds.get? x.1).bind fun b => b.fds.get? x.2).any fun f => f.domain != d)

/-- The translation unit has met an entry of another domain (R68): counted, and its error bit set. -/
def State.domFault (s : State) (d i : Nat) : State :=
  (s.bumpD d (Reg.xltDomFaultLo + (i % 2) * 0x8000)).setErrD d Err.xltDom ((i % 2) * 0x8000)

/-- Work consumes a poisoned datum of a sequence (Table 3.6). -/
def State.poisonSeq (s : State) (i : Nat) : State :=
  s.setSeq i fun q => { q with st := if q.st = .active ∨ q.st = .idle then .poisoned else q.st }

/-! ### Contents -/

/-- The bytes of a frame whose home is T0, T1 or T2. -/
def State.frameBytes (s : State) (h : Home) (off n : Nat) : List Byte := s.memRead h.tier (h.addr * 512 + off) n

/-- Write bytes of a frame. -/
def State.putBytes (s : State) (h : Home) (off : Nat) (bs : List Byte) : State := s.memWrite h.tier (h.addr * 512 + off) bs

end Sys2Proof.Machine
end

