-- ==== Sys2Proof/Machine/PrefixOps.lean ====
section
/-! DEFINITION. Machine/PrefixOps.lean: Reedbed's hashes, rows, inserts, withdrawals and searches (R137 to R158), as the
append unit, poison and the prefix commands use them. -/

namespace Sys2Proof.Machine

/-! ### Hashes (R137) -/

/-- SipHash-2-4 under a 128-bit key given as its 16 bytes. -/
def sipKeyed (key msg : List Byte) : DWord :=
  sipHash (BitVec.ofNat 64 (u64 key 0)) (BitVec.ofNat 64 (u64 key 8)) msg

/-- The 76-byte message of Table 7.1. -/
def hashMsg (tokens : List Word) (tag : Nat) (prev : DWord) : List Byte :=
  (tokens.flatMap fun t => leBytes 4 t.toNat) ++ leBytes 2 tag ++ leBytes 2 0 ++ leBytes 8 prev.toNat

/-- The prefix key and the check key of a domain (R138). -/
def State.rbdKeys (s : State) (d : Nat) : Option (List Byte × List Byte) :=
  (s.lve.doms.get? d).bind fun x => x.keys.map fun k => (k.pfx, k.chk)

/-- Chained hash and check word of a block. -/
def blockHash (keys : List Byte × List Byte) (tokens : List Word) (tag : Nat) (prev : DWord) : DWord × Word :=
  let m := hashMsg tokens tag prev
  (sipKeyed keys.1 m, (sipKeyed keys.2 m).setWidth 32)

/-- Hashes and check words of consecutive blocks of 16 tokens each. -/
def chainHashes (keys : List Byte × List Byte) (tag : Nat) : Nat → List Word → DWord → List (DWord × Word)
  | 0, _, _ => []
  | n + 1, toks, prev =>
    let h := blockHash keys (toks.take 16) tag prev
    h :: chainHashes keys tag n (toks.drop 16) h.1

/-! ### Rows (R140 to R142, R148) -/

/-- The row of a hash (R141). -/
def rowOf (h : DWord) : Nat := h.toNat / 2 ^ 42

/-- An entry as the 256-bit word of Table 7.2. -/
def Entry.word (e : Entry) : Nat :=
  e.hash.toNat + e.check.toNat * 2 ^ 64 + e.domain % 2 ^ 12 * 2 ^ 96 + e.tag % 2 ^ 16 * 2 ^ 108 + e.valid.toNat * 2 ^ 124
    + e.writing.toNat * 2 ^ 125 + e.lo % 2 ^ 32 * 2 ^ 128 + e.hi % 2 ^ 32 * 2 ^ 160 + e.bd % 2 ^ 28 * 2 ^ 192
    + e.refs % 2 ^ 16 * 2 ^ 240

/-- The 32 bytes of an entry (R140). -/
def Entry.bytes (e : Entry) : List Byte := leBytes 32 e.word

/-- The entry that a word of Table 7.2 holds. -/
def readEntry (w : Nat) : Entry :=
  { hash := BitVec.ofNat 64 w, check := BitVec.ofNat 32 (w / 2 ^ 64), domain := w / 2 ^ 96 % 2 ^ 12, tag := w / 2 ^ 108 % 2 ^ 16
    valid := (w / 2 ^ 124).testBit 0, writing := (w / 2 ^ 125).testBit 0, lo := w / 2 ^ 128 % 2 ^ 32
    hi := w / 2 ^ 160 % 2 ^ 32, bd := w / 2 ^ 192 % 2 ^ 28, refs := w / 2 ^ 240 % 2 ^ 16 }

/-- Whether the fields of an entry fit Table 7.2. -/
def Entry.wf (e : Entry) : Bool :=
  decide (e.domain < 2 ^ 12) && decide (e.tag < 2 ^ 16) && decide (e.lo < 2 ^ 32) && decide (e.hi < 2 ^ 32)
    && decide (e.bd < 2 ^ 28) && decide (e.refs < 2 ^ 16)

/-- The T0 address of a row, and of a slot of it (R141). -/
def State.rowAddr (s : State) (row : Nat) : Nat := s.rbdBase + 2048 * row

/-- The T0 address of a slot (R141). -/
def State.slotAddr (s : State) (row slot : Nat) : Nat := s.rowAddr row + 32 * slot

/-- A row of the region. -/
def State.row (s : State) (n : Nat) : Assoc Nat Entry := s.rbd.rows.getD n []

/-- The bytes of a slot of the region: its entry, or a free slot, shown as zeros (log entry 107). -/
def State.slotBytes (s : State) (row slot : Nat) : List Byte :=
  match (s.row row).get? slot with
  | some e => e.bytes
  | none => List.replicate 32 0#8

/-- The 2,048 bytes of a row, which one burst reads (R141). -/
def State.rowBytes (s : State) (row : Nat) : List Byte := (List.range 64).flatMap (s.slotBytes row)

/-- A byte of T0: in the Reedbed region, what its rows spell; elsewhere, the stored byte. -/
def State.t0Byte (s : State) (a : Nat) : Byte :=
  if s.rbd.placed ∧ s.rbdBase ≤ a ∧ a < s.rbdBase + 8 * gib then
    let o := a - s.rbdBase
    (s.slotBytes (o / 2048) (o % 2048 / 32)).getD (o % 32) 0#8
  else (s.memRead 0 a 1).headD Memory.unlisted

/-- A row changed. -/
def State.setRow (s : State) (n : Nat) (r : Assoc Nat Entry) : State :=
  { s with rbd := { s.rbd with rows := if r.isEmpty then s.rbd.rows.erase n else s.rbd.rows.set n r } }

/-- Reedbed's state of a domain. -/
def State.rbdDom (s : State) (d : Nat) : RbdDom := s.rbd.doms.getD d {}

/-- Reedbed's state of a domain changed. -/
def State.setRbdDom (s : State) (d : Nat) (f : RbdDom → RbdDom) : State :=
  { s with rbd := { s.rbd with doms := s.rbd.doms.set d (f (s.rbdDom d)) } }

/-- The order of entries in a row (R142). -/
def Entry.before (a b : Entry) : Bool :=
  decide (a.hash.toNat < b.hash.toNat) || (a.hash == b.hash && (decide (a.domain < b.domain)
    || (a.domain == b.domain && decide (a.tag < b.tag))))

/-- Occupied slots of a row, in ascending order. -/
def slotsOf (r : Assoc Nat Entry) : List Nat := (List.range 64).filter fun k => r.has k

/-- The longest run of consecutive occupied slots. -/
def longestRun (r : Assoc Nat Entry) : Nat :=
  ((List.range 64).foldl (fun (best, cur) k => if r.has k then (max best (cur + 1), cur + 1) else (best, 0)) (0, 0)).1

/-- The bound of the layout rule for `n` occupied slots (R142). -/
def runBound (n : Nat) : Nat := ceilDiv n (65 - n)

/-- Whether a row obeys the layout rule. -/
def rowRule (r : Assoc Nat Entry) : Bool := decide (longestRun r ≤ runBound r.length)

/-- The slot of the i-th of `n` entries where the free slots are spread evenly: a layout that obeys the rule. -/
def evenSlot (n i : Nat) : Nat := i + i * (65 - n) / n

/-- An entry of a row copied to a free slot and its source invalidated (R148). -/
def moveSlot (r : Assoc Nat Entry) (src dst : Nat) : Assoc Nat Entry :=
  match r.get? src with
  | some e => (r.erase src).set dst e
  | none => r

/-- One move of one entry by one slot toward the even layout, if the rule does not hold yet (R142). -/
def restoreStep (r : Assoc Nat Entry) : Option (Assoc Nat Entry) :=
  if rowRule r then none
  else
    let sl := slotsOf r
    let n := sl.length
    let off := (List.range n).map fun i => (sl.getD i 0, evenSlot n i)
    match (off.reverse.find? fun x => decide (x.1 < x.2)) with
    | some (k, _) => some (moveSlot r k (k + 1))
    | none => (off.find? fun x => decide (x.2 < x.1)).map fun x => moveSlot r x.1 (x.1 - 1)

/-- Restore the layout rule of a row, counting the moves. -/
def restoreRow : Nat → Assoc Nat Entry → Nat × Assoc Nat Entry
  | 0, r => (0, r)
  | n + 1, r =>
    match restoreStep r with
    | none => (0, r)
    | some r => let x := restoreRow n r; (x.1 + 1, x.2)

/-- Enter an entry in a row that has room: into a free slot at its place in the order, or by shifting the run that it enters
toward the nearer free slot (R142). The result counts the moves. -/
def insertRow (r : Assoc Nat Entry) (e : Entry) : Nat × Assoc Nat Entry :=
  let sl := slotsOf r
  let lo := (sl.filter fun k => !(r.get? k).any fun x => e.before x).getLast?
  let hi := sl.find? fun k => (r.get? k).any fun x => e.before x
  let first := match lo with | some k => k + 1 | none => 0
  let last := match hi with | some k => k | none => 64
  if first < last then (0, r.set first e)
  else
    let down := (List.range first).reverse.find? fun k => !r.has k
    let up := (List.range 64).find? fun k => decide (last < k) && !r.has k
    let shiftDown := fun (k : Nat) =>
      (first - 1 - k, ((List.range (first - 1 - k)).foldl (fun t i => moveSlot t (k + 1 + i) (k + i)) r).set (first - 1) e)
    let shiftUp := fun (k : Nat) =>
      (k - last, ((List.range (k - last)).foldl (fun t i => moveSlot t (k - 1 - i) (k - i)) r).set last e)
    match down, up with
    | some a, some b => if first - 1 - a ≤ b - last then shiftDown a else shiftUp b
    | some a, none => shiftDown a
    | none, some b => shiftUp b
    | none, none => (0, r)

/-- Bring a row back to the layout rule before its next update (R142). -/
def State.restoreNow (s : State) (n : Nat) : State :=
  let x := restoreRow 4096 (s.row n)
  let s := if x.1 = 0 then s else (s.setRow n x.2).bump Reg.rbdMoveLo x.1
  { s with rbd := { s.rbd with dirtyRows := s.rbd.dirtyRows.filter (· != n) } }

/-- Note a row whose layout awaits restoration. -/
def State.noteRow (s : State) (n : Nat) : State :=
  if rowRule (s.row n) || s.rbd.dirtyRows.contains n then s
  else { s with rbd := { s.rbd with dirtyRows := s.rbd.dirtyRows ++ [n] } }

/-- Valid entries in all, or of a domain. -/
def State.entryCount (s : State) (p : Entry → Bool) : Nat :=
  sumNat (s.rbd.rows.map fun r => (r.2.filter fun e => p e.2).length)

/-! ### Matching (R139, R143, R146) -/

/-- The range predicate of Table 7.4. -/
def rangeOk (mode a b : Nat) (e : Entry) : Bool :=
  match mode with
  | 0 => true
  | 1 => decide (e.lo ≤ a) && decide (a ≤ e.hi)
  | 2 => decide (e.lo ≤ b) && decide (a ≤ e.hi)
  | _ => decide (a ≤ e.lo) && decide (e.hi ≤ b)

/-- A probe's operands. -/
structure Probe where
  domain : Nat
  tag : Nat
  mode : Nat
  a : Nat
  b : Nat
  floor : Nat
  deriving DecidableEq, Repr

/-- The entry that a probe for a hash and check word hits, if any (R139). -/
def State.probe (s : State) (p : Probe) (h : DWord × Word) : Option Entry :=
  ((s.row (rowOf h.1)).find? fun x =>
    let e := x.2
    e.valid && !e.writing && e.hash == h.1 && e.check == h.2 && e.domain == p.domain && e.tag == p.tag
      && decide (p.floor ≤ e.hi) && rangeOk p.mode p.a p.b e).map Prod.snd

/-- The predecessor entry of a block: slot and entry (R146). -/
def State.predEntry (s : State) (d tag : Nat) (h : DWord) : Option (Nat × Entry) :=
  let floor := (s.rbdDom d).floor
  let r := s.row (rowOf h)
  let cands := (slotsOf r).filterMap fun k => (r.get? k).map fun e => (k, e)
  let cands := cands.filter fun x =>
    let e := x.2
    e.valid && !e.writing && e.hash == h && e.domain == d && e.tag == tag && decide (floor ≤ e.hi)
  cands.foldl (fun best x => match best with
    | none => some x
    | some y => if y.2.hi < x.2.hi || (y.2.hi == x.2.hi && decide (x.2.lo < y.2.lo)) then some x else some y) none

/-- Update the entry of a block descriptor in its row, once the row obeys the layout rule again (R142). -/
def State.modEntry (s : State) (n bd : Nat) (f : Entry → Entry) : State :=
  let s := s.restoreNow n
  match (s.row n).find? fun e => e.2.bd == bd && e.2.valid with
  | some e => s.setRow n ((s.row n).modify e.1 f)
  | none => s

/-- The row, slot and entry of a block descriptor. -/
def State.entryOfBd (s : State) (b : Nat) : Option (Nat × Nat × Entry) :=
  (s.xlt.bds.get? b).bind fun x =>
    let n := rowOf x.hash
    ((s.row n).find? fun e => e.2.bd == b && e.2.valid).map fun e => (n, e.1, e.2)

/-! ### Breaks and scans (R151, R152) -/

/-- Start a resolve scan of some domains; the linear ones among them leave linear when it ends. -/
def State.startResolve (s : State) (ds linear : List Nat) : State :=
  { s with rbd := { s.rbd with scans := s.rbd.scans ++ [{ kind := .resolve, domains := ds, linear := linear }] } }

/-- Whether a resolve scan that covers a domain runs. -/
def State.resolving (s : State) (d : Nat) : Bool :=
  s.rbd.scans.any fun x => x.kind == .resolve && x.domains.contains d

/-- Record a break (R151). -/
def State.recordBreak (s : State) (b : Break) : State :=
  if 1024 ≤ s.rbd.breaks.length then
    let s := (s.setRbdDom b.domain fun d => { d with linear := true }).setErr Err.rbdBreakFull
    if s.resolving b.domain then s else s.startResolve [b.domain] [b.domain]
  else
    let s := { s with rbd := { s.rbd with breaks := s.rbd.breaks ++ [b] } }
    let s := s.bump Reg.rbdBreakLo
    let ds := (s.rbd.breaks.map Break.domain).eraseDups
    if s.rbd.breaks.length = 768 then s.startResolve ds (ds.filter fun d => (s.rbdDom d).linear) else s

/-! ### Inserting (R147, R148) -/

/-- A block is not entered: hand-off of its sequence breaks here (R88). -/
def State.noEntry (s : State) (h : Handoff) (block counter : Nat) : State :=
  let d := ((s.xlt.bds.get? h.bd).map Bd.domain).getD 0
  let s := s.bumpD d counter
  let off := (h.seq % 2) * 0x8000
  let first := ((s.seq? h.seq).map fun q => q.noIdx.isNone).getD false
  let s := s.setSeq h.seq fun q => { q with noIdx := some (match q.noIdx with | some b => min b block | none => block) }
  let s := s.bumpD d (Reg.xltAppNoidxLo + off)
  if first then s.setEvt Evt.xltAppIdxBreak off else s

/-- The macro's island (Table 13.3). -/
def searchIsland : Nat := 20

/-- Whether the macro carries out what it accepted: `DRAINING` completes it (Table 13.3). -/
def State.searchRuns (s : State) : Bool := s.islandOn searchIsland || decide (s.island searchIsland = .draining)

/-- Insert a block (Table 7.5). A hand-off that reached the macro before it drained is still carried out (R298); one that reaches
it later is not entered (`State.handOff`). -/
def State.rbdInsert (s : State) (h : Handoff) : State :=
  match s.xlt.bds.get? h.bd with
  | none => s
  | some b =>
    let d := b.domain
    let st := s.rbdDom d
    match s.rbdKeys d with
    | none => s.noEntry h b.block Reg.rbdNoentStateLo
    | some _ =>
      if !s.searchRuns || st.purging || !bit (s.reg Reg.rbdCfg) 31 then s.noEntry h b.block Reg.rbdNoentStateLo
      else
        let pred := if b.root then none else s.predEntry d b.tag b.pred
        if !b.root && pred.isNone then s.noEntry h b.block Reg.rbdNoentParentLo
        else
          let lo := max h.lo ((pred.map fun x => x.2.lo).getD 0)
          let hi := min h.hi ((pred.map fun x => x.2.hi).getD 0xFFFFFFFF)
          if hi < lo then s.noEntry h b.block Reg.rbdNoentRangeLo
          else
            let n := rowOf b.hash
            let eq := (s.row n).any fun x =>
              let e := x.2
              e.valid && !e.writing && e.hash == b.hash && e.check == b.check && e.domain == d && e.tag == b.tag
                && decide (st.floor ≤ e.hi)
            if eq then s.bump Reg.rbdDupLo
            else if st.quota ≠ 0 ∧ st.quota ≤ s.entryCount (fun e => e.domain == d) then s.noEntry h b.block Reg.rbdNoentQuotaLo
            else if 64 ≤ (s.row n).length then (s.noEntry h b.block Reg.rbdNoentRowfullLo).setEvt Evt.rbdRowFull
            else
              let s := s.restoreNow n
              let e : Entry := { hash := b.hash, check := b.check, domain := d, tag := b.tag, lo := lo, hi := hi, bd := h.bd }
              let x := insertRow (s.row n) e
              let before := s.entryCount fun _ => true
              let s := ((s.setRow n x.2).bump Reg.rbdMoveLo x.1).noteRow n
              let s := s.setBd h.bd fun b => { b with indexed := true }
              let s := match (if b.root then none else s.predEntry d b.tag b.pred) with
                | some (_, p) => s.modEntry (rowOf b.pred) p.bd fun e => { e with refs := min (e.refs + 1) 65535 }
                | none => s
              let s := s.bump Reg.rbdInsertLo
              if before = 201326592 then s.setEvt Evt.rbdFillHigh else s

/-! ### Withdrawal (R149, Table 7.6) -/

/-- Carry out the hand-offs of a domain that have arrived, in order, before another of its updates (R146, R156). Those past the
engine's queue of 4,096 wait in the append unit and have not arrived. -/
def State.arrivedFirst (s : State) (d : Nat) : State :=
  let mine := fun (h : Handoff) => ((s.xlt.bds.get? h.bd).map Bd.domain) == some d
  let queue := s.xlt.handoffs.take 4096
  let s := { s with xlt := { s.xlt with handoffs := (queue.filter fun h => !mine h) ++ s.xlt.handoffs.drop 4096 } }
  s.forEach (queue.filter mine) fun h t => t.rbdInsert h

/-- Withdraw the entry of a block physically, once its row obeys the layout rule again (R142): its slot is free, and its block's
frames follow R65. -/
def State.withdraw (s : State) (n bd : Nat) : State :=
  let s := s.restoreNow n
  match (s.row n).find? fun e => e.2.bd == bd && e.2.valid with
  | some x =>
    let s := (s.setRow n ((s.row n).erase x.1)).bump Reg.rbdWithdrawLo
    ((s.noteRow n).setBd bd fun b => { b with indexed := false }).sweepBd bd
  | none => s

/-- Withdraw the entry of a block for poison or eviction; an entry with successors leaves a break (R151). -/
def State.withdrawBlock (s : State) (bd : Nat) : State :=
  match s.entryOfBd bd, s.xlt.bds.get? bd with
  | some (n, _, e), some b =>
    let s := if e.refs = 0 then s else s.recordBreak { domain := e.domain, block := b.block, hash := e.hash, hi := e.hi }
    s.withdraw n bd
  | _, _ => s

/-- Withdraw the entry of a block for poison, after the updates of its domain that arrived before (R146, R156). -/
def State.withdrawPoison (s : State) (bd : Nat) : State :=
  match s.xlt.bds.get? bd with
  | some b => (s.arrivedFirst b.domain).withdrawBlock bd
  | none => s

/-- Withdraw every entry that a test selects. -/
def State.withdrawAll (s : State) (p : Entry → Bool) : State :=
  let hit := s.rbd.rows.flatMap fun r => (r.2.filter fun e => p e.2).map fun e => (r.1, e.2.bd)
  s.forEach hit fun x t => t.withdraw x.1 x.2

/-! ### Poison (R63) -/

/-- Poison the frame of an entry; a Reedbed entry that holds the block is withdrawn (R63, R336). -/
def State.raisePoison (s : State) (f : FrameId) : State :=
  let s := s.setFrame f fun i => { i with poison := true }
  match f with
  | .slot b _ => s.withdrawPoison b
  | .bdPage b => s.withdrawPoison b
  | _ => s

/-! ### Searching (R153 to R155) -/

/-- Number of leading blocks that hit, and the hits. -/
def linearHits (hit : DWord × Word → Option Entry) : List (DWord × Word) → List Entry
  | [] => []
  | h :: hs =>
    match hit h with
    | some e => e :: linearHits hit hs
    | none => []

/-- The first part of the galloping search: blocks 0, 1, 3, 7, … below `n`. -/
def gallopUp (hit : Nat → Bool) (n : Nat) : Nat → Nat → Nat → Nat × Nat
  | 0, lo, _ => (lo, n)
  | f + 1, lo, j => if n ≤ j then (lo, n) else if hit j then gallopUp hit n f (j + 1) (2 * j + 1) else (lo, j)

/-- The bisection. -/
def bisect (hit : Nat → Bool) : Nat → Nat → Nat → Nat
  | 0, lo, _ => lo
  | f + 1, lo, hi =>
    if lo < hi then
      let mid := lo + (hi - lo) / 2
      if hit mid then bisect hit f (mid + 1) hi else bisect hit f lo mid
    else lo

/-- `gallop` of R155. -/
def gallop (hit : Nat → Bool) (n : Nat) : Nat :=
  let x := gallopUp hit n 64 0 0
  bisect hit 64 x.1 x.2

/-- The blocks that some levels of the bisection can need. -/
def bisectProbes : Nat → Nat → Nat → List Nat
  | 0, _, _ => []
  | f + 1, lo, hi =>
    if lo < hi then
      let mid := lo + (hi - lo) / 2
      mid :: (bisectProbes f (mid + 1) hi ++ bisectProbes f lo mid)
    else []

/-- The probes of the later rounds, three levels of the bisection in each. -/
def laterProbes (hit : Nat → Bool) : Nat → Nat → Nat → List Nat
  | 0, _, _ => []
  | f + 1, lo, hi =>
    if lo < hi then
      let x := (List.range 3).foldl (fun (x : Nat × Nat) _ =>
        if x.1 < x.2 then
          let mid := x.1 + (x.2 - x.1) / 2
          if hit mid then (mid + 1, x.2) else (x.1, mid)
        else x) (lo, hi)
      bisectProbes 3 lo hi ++ laterProbes hit f x.1 x.2
    else []

/-- Every probe of a galloping search, round by round (R155). -/
def gallopProbes (hit : Nat → Bool) (n : Nat) : List Nat :=
  let first := ((List.range 64).map fun j => 2 ^ j - 1).filter fun b => decide (b < n)
  let x := gallopUp hit n 64 0 0
  first ++ laterProbes hit 32 x.1 x.2

end Sys2Proof.Machine
end

