-- ==== Sys2Proof/Machine/FaultOps.lean ====
section
/-! DEFINITION. Machine/FaultOps.lean: fault records, the per-unit history and the gates of the privileged units, as every
chapter uses them (R341 to R356). -/

namespace Sys2Proof.Machine

/-! ### Reports to the management network -/

/-- Queue an event for the PLDM receiver: beyond 256 the oldest is dropped and counted (R277). -/
def State.pldmEvent (s : State) (kind : Nat) (data : List Nat) : State :=
  let q := s.mgmt.events ++ [(kind, data)]
  if 256 < q.length then { s with mgmt := { s.mgmt with events := q.drop 1, dropped := s.mgmt.dropped + 1 } }
  else { s with mgmt := { s.mgmt with events := q } }

/-- A `UNIT` word (Table 15.8). -/
def unitWord (block inst : Nat) (sub elem : Nat := 0) : Nat := block * 2 ^ 24 + inst * 2 ^ 16 + sub * 2 ^ 8 + elem

/-- Put a record in the fault FIFO, or drop it where the FIFO is full (R350). -/
def State.fault (s : State) (unit cls resp : Nat) (addr detail : Nat := 0) (count : Nat := 1) : State :=
  let n := s.flt.nextNumber
  let r : FaultRec := {
    time := s.now, unit := unit, cls := cls, resp := resp, count := min count 65535, addr := addr, number := n, detail := detail }
  let s := { s with flt := { s.flt with nextNumber := n + 1 } }
  if 256 ≤ s.flt.fifo.length then
    (({ s with flt := { s.flt with dropped := s.flt.dropped + 1 } } : State).bump Reg.glbFifoDropLo).setErr Err.glbFifoOvf
  else { s with flt := { s.flt with fifo := s.flt.fifo ++ [r] } }

/-- Thirty days and one day in ns. -/
def days30 : Nat := secNs 2592000
/-- One day in ns. -/
def day1 : Nat := secNs 86400

/-- History time: powered time in ns (R355). -/
def State.histNow (s : State) : Nat := s.flt.base + s.now

/-- The history of a unit. -/
def State.history (s : State) (unit : Nat) : History := s.flt.history.getD unit {}

/-- The history of a unit changed. -/
def State.setHistory (s : State) (unit : Nat) (f : History → History) : State :=
  { s with flt := { s.flt with history := s.flt.history.set unit (f (s.history unit)) } }

/-- Declare a unit permanent (R356). -/
def State.declarePermanent (s : State) (unit : Nat) : State :=
  if (s.history unit).permanent then s
  else ((s.setHistory unit fun h => { h with permanent := true }).fault unit 0x09 5).setEvt Evt.glbPermanent

/-- Events of a unit within a window. -/
def recent (now window : Nat) (ts : List Nat) : List Nat := ts.filter fun t => decide (now ≤ t + window)

/-- A privileged unit changed. -/
def State.setUnit3 (s : State) (u : PrivUnit) (f : Unit3 → Unit3) : State :=
  match u with
  | .xlt => { s with flt := { s.flt with xlt := f s.flt.xlt } }
  | .lve => { s with flt := { s.flt with lve := f s.flt.lve } }
  | .evc => { s with flt := { s.flt with evc := f s.flt.evc } }

/-- An answer of `E_STALE` that waits for the end of a warm reset (R342). -/
def State.addStale (s : State) (u : PrivUnit) (r : Requester) (c : Cpl) : State :=
  { s with flt := { s.flt with stale := s.flt.stale ++ [(u, r, { c with status := .stale })] } }

/-- A request that needs a privileged unit: refused while the unit is held (R345), answered with `E_STALE` at the end of a
warm reset under way (Table 15.4), and otherwise carried out. -/
def State.gate (s : State) (u : PrivUnit) (r : Requester) (c : Status → Cpl) (f : State → State) : State :=
  if (s.unit3 u).held then s.complete r (c .unavailable)
  else if (s.unit3 u).warmSince.isSome then s.addStale u r (c .stale)
  else f s

/-- A completion that carries a code alone. -/
def Status.cpl (st : Status) : Cpl := { status := st }

/-! ### Causeway ports that fail (R228, R234, R356) -/

/-- Lanes on which a port can run, given the lanes that are unusable: eight, or the half that holds none of them (R227,
R228); none when both halves hold one. -/
def lanesFor (half : Bool) (bad : List Nat) : Option (Nat × Bool) :=
  let low := bad.any fun l => decide (l < 4)
  let high := bad.any fun l => decide (4 ≤ l)
  if !half && !low && !high then some (8, false)
  else if !low then some (4, false)
  else if !high then some (4, true)
  else none

/-- Lanes of a port that cannot be used: by their light, or out of service for good. -/
def Port.unusableLanes (p : Port) : List Nat := p.badLanes ++ p.deadLanes

/-- A port leaves every session and drops its handshakes (Table 11.15). -/
def State.dropPort (s : State) (p : Nat) : State :=
  let s := s.forEach (s.sessionsOn p) fun i t => t.leaveSession i p
  let lost := (s.port p).handshakes
  let s := s.setPort p fun q => { q with handshakes := [], lctlReq := none, txq := [], flight := [], starved := [], woken := false }
  s.forEach lost fun h t => t.bumpD h.domain (Reg.cwyAttachFailLo + cwyOff p)

/-- The `UNIT` word of a lane of a port. -/
def laneUnit (port lane : Nat) : Nat := unitWord 0x20 port lane

/-- A port goes to `FAILED` (Table 11.4): a path fault; a lane named by a third entry within 24 h leaves service (R356). -/
def State.portFailed (s : State) (p : Nat) : State :=
  let s := s.dropPort p
  let bad := ((s.port p).badLanes ++ (s.port p).lostLanes).eraseDups
  let mask := sumNat (bad.map (2 ^ ·))
  let s := (s.setPort p fun q => { q with
    st := .failed, since := s.now, power := .active, retrainFails := 0
    failures := (q.failures.filter fun f => decide (s.histNow ≤ f.1 + day1)) ++ [(s.histNow, mask)] }).setErr Err.cwyFailed (cwyOff p)
  let s := s.fault (unitWord 0x20 p) 0x07 5
  let gone := bad.filter fun l => decide (3 ≤ ((s.port p).failures.filter fun f => f.2.testBit l).length)
  s.forEach gone fun l t =>
    (t.declarePermanent (laneUnit p l)).setPort p fun q => { q with
      deadLanes := if q.deadLanes.contains l then q.deadLanes else l :: q.deadLanes }

/-- A retraining port whose halves each hold an unusable lane goes to `FAILED` (R228). -/
def State.blindPorts (s : State) : State :=
  s.forEach ((List.range 32).filter fun p => decide ((s.port p).st = .retrain) && (lanesFor false (s.port p).unusableLanes).isNone)
    fun p t => t.portFailed p

end Sys2Proof.Machine
end

