-- ==== Sys2Proof/Machine/SluiceOps.lean ====
section
/-! DEFINITION. Machine/SluiceOps.lean: frame requests, moves, placements, pre-emption and stalls (R168 to R186), as every
command that meets Sluice uses them. -/

namespace Sys2Proof.Machine

/-! ### Staging (R185) -/

/-- 4 KiB lines of the staging buffer: the Sluice partition, then the Sedge partition. -/
def stagingLines : Nat := 16384

/-- Lines of the Sluice partition. -/
def State.slcLines (s : State) : Nat := s.fld Reg.slcStage 5 0 * 256

/-- Lines that moves hold. -/
def State.linesHeld (s : State) : List Nat := s.slc.moves.flatMap Move.lines

/-- Free space of the Sluice partition in lines. -/
def State.linesFree (s : State) : Nat := s.slcLines - s.linesHeld.length

/-- Take `n` free lines for a domain; a line that another domain held last is zeroed first. -/
def State.takeLines (s : State) (d n : Nat) : List Nat × State :=
  let held := s.linesHeld
  let ls := ((List.range (held.length + n)).filter fun l => !held.contains l).take n
  let dirty := (ls.filter fun l => (s.slc.lines.get? l).any fun o => o != d).length
  let s := { s with slc := { s.slc with lines := ls.foldl (fun m l => m.set l d) s.slc.lines } }
  (ls, if dirty = 0 then s else s.bump Reg.lveScrubLo dirty)

/-- Lines leave a move; a confidential domain's are zeroed on release. -/
def State.dropLines (s : State) (d : Nat) (ls : List Nat) : State :=
  if s.conf d && !ls.isEmpty then
    ({ s with slc := { s.slc with lines := ls.foldl (fun m l => m.erase l) s.slc.lines } } : State).bump Reg.lveScrubLo ls.length
  else s

/-! ### Placements and tickets -/

/-- Change one placement. -/
def State.modPlace (s : State) (id : Nat) (f : Placement → Placement) : State :=
  { s with slc := { s.slc with places := updFirst (fun p => p.id == id) f s.slc.places } }

/-- Frame requests end (R171); one that ends with `E_CONFLICT` is counted. -/
def State.endReqs (s : State) (ids : List Nat) (e : ReqEnd) : State :=
  let s := { s with slc := { s.slc with places := s.slc.places.map fun p =>
    { p with reqs := p.reqs.map fun r => if ids.contains r.id && r.res == .pending then { r with res := e } else r } } }
  match e with
  | .failed .conflict _ =>
    s.forEach ids fun id t =>
      match t.slc.places.find? fun p => p.reqs.any fun r => r.id == id with
      | some p => (t.bumpD p.domain Reg.slcConflictLo).setEvt Evt.slcConflict
      | none => t
  | _ => s

/-- `SLC_WAIT` commands on a ticket complete (R173). -/
def State.endWaiters (s : State) (d ticket : Nat) (st : Status) (detail : Nat) : State :=
  let mine := s.slc.waiters.filter fun w => w.2.1 == d && w.2.2 == ticket
  let s := { s with slc := { s.slc with waiters := s.slc.waiters.filter fun w => !(w.2.1 == d && w.2.2 == ticket) } }
  s.forEach mine fun w t => t.complete w.1 { status := st, detail := detail }

/-- The next ticket of a domain: from 1 up, skipping 0 (R173). -/
def State.newTicket (s : State) (d : Nat) : Nat × State :=
  let t := s.slc.tickets.getD d 1
  (t, { s with slc := { s.slc with tickets := s.slc.tickets.set d (if t + 1 = 2 ^ 32 then 1 else t + 1) } })

/-! ### Moves -/

/-- NAND rows that a move reads or programs, at one row for each 64 KiB. -/
def State.nandRows (s : State) (home : Home) (bytes : Nat) : Nat :=
  if home.tier = 3 then ceilDiv bytes (s.pea.geom.planes * 16384) else 0

/-- Whether access to a home answers now (R270, R273). -/
def State.answers (s : State) (h : Home) : Bool :=
  match h.tier with
  | 1 => ((s.hif.cxl.get? (h.addr / (2 ^ 32))).map fun c => decide (c.st = .ready)).getD false
  | 2 => s.hif.linkUp
  | _ => true

/-- The Peat island. -/
def peatIsland : Nat := 21
/-- The Sedge island. -/
def sedgeIsland : Nat := 22

/-- Accept a move: ticket, destination, `MOVING`, and an item for the scheduler (Table 8.2). A pre-emption brings its
destination with it. -/
def State.startMove (s : State) (f : FrameId) (i : FrameInfo) (promo evict : Bool) (tier : Nat) (reqs : List Nat)
    (ticket : Option Nat) (reserved : Option Home) : Except Status State :=
  if (tier = 3 ∨ i.home.tier = 3) ∧ !s.islandOn peatIsland then .error .unavailable
  else
    match (match reserved with | some h => some (h, s) | none => s.alloc i.domain tier i.bytes i.isMeta) with
    | none => .error .noSpace
    | some (dst, s) =>
      let t := match ticket with | some t => (t, s) | none => s.newTicket i.domain
      let s := t.2
      let n := s.slc.nextMove
      let m : Move := {
        domain := i.domain, ticket := t.1, frame := f, promo := promo, tier := tier, src := i.home, dst := dst, bytes := i.bytes
        evict := evict, reqs := reqs, since := s.now, seqNo := n }
      let s := { s with slc := { s.slc with moves := s.slc.moves ++ [m], nextMove := n + 1 } }
      let s := s.setFrame f fun i => { i with moving := true }
      let cost := s.moveCost i.bytes (s.nandRows i.home i.bytes) (s.nandRows dst i.bytes)
      .ok (s.enqueue { domain := i.domain, cls := .move, cost := cost, dur := i.bytes / 8 + 450, arrived := s.now, work := .move n })

/-- Blocks of the Sedge queue are discarded (R226), and their lines released. -/
def State.dropBlocks (s : State) (p : SdgBlock → Bool) : State :=
  let t := s.forEach (s.sdg.queue.filter p) fun b t => t.dropLines b.domain [b.line]
  s.only { ctrs := true, slc := true, sdg := true } { t with sdg := { t.sdg with queue := t.sdg.queue.filter fun b => !p b } }

/-- Every line that a domain held last is zeroed (R226). -/
def State.zeroLines (s : State) (d : Nat) : State :=
  let n := (s.slc.lines.filter fun x => x.2 == d).length
  if n = 0 then s
  else ({ s with slc := { s.slc with lines := s.slc.lines.filter fun x => x.2 != d } } : State).bump Reg.lveScrubLo n

/-- A move leaves the list: its lines, its queued blocks, its item and its Peat requests go with it. -/
def State.dropMove (s : State) (m : Move) : State :=
  let s := (s.dropLines m.domain m.lines).dropBlocks fun b => b.owner == m.seqNo
  { s with
    slc := { s.slc with moves := s.slc.moves.filter fun x => x.seqNo != m.seqNo }
    pwr := { s.pwr with items := s.pwr.items.filter fun i => i.work != .move m.seqNo }
    pea := { s.pea with
      reads := s.pea.reads.filter fun r => r.move != m.seqNo
      waiting := s.pea.waiting.filter fun w => w.1 != m.seqNo
      writes := s.pea.writes.filter fun w => w.move != m.seqNo } }

/-- A move aborts (Table 8.2): the old home stays, and its requests and waiters end with a code and a ticket. A chained
move ends with it (log entry 36). A frame that was freed releases its source as well. -/
def State.abortMove (s : State) (m : Move) (st : Status) (ticket : Nat) : State :=
  let s := (s.dropMove m).freeExt m.dst
  let s := if m.freed then s.freeExt m.src else s.setFrame m.frame fun i => { i with moving := false }
  let s := s.bumpD m.domain Reg.slcAbortLo
  let s := if m.freed then s.endReqs m.reqs .satisfied else s.endReqs m.reqs (.failed st ticket)
  let s := s.endWaiters m.domain m.ticket (if m.freed then .ok else st) (if st = .conflict then ticket else 0)
  match m.chain with
  | none => s
  | some c =>
    if m.freed then (s.endReqs c.reqs .satisfied).endWaiters m.domain c.ticket .ok 0
    else (s.endReqs c.reqs (.failed st ticket)).endWaiters m.domain c.ticket st (if st = .conflict then ticket else 0)

/-! ### Space by pre-emption (R168, R181) -/

/-- Whether a pre-emption of a sequence is in progress. -/
def State.preempting (s : State) (i : Nat) : Bool :=
  s.slc.places.any fun p => match p.kind with | .preempt j _ => i == j | _ => false

/-- The eligible frames of a sequence (R179): its own, in T0 or T1, and the pages of block descriptors that no other
sequence maps. -/
def State.eligible (s : State) (i : Nat) (q : Seq) : List FrameId :=
  let own := (q.ptes.filterMap fun x =>
    let f := x.2.frame i x.1.1 x.1.2.1 x.1.2.2
    (s.frame? f).bind fun v => if v.home.tier ≤ 1 && !v.shared then some f else none)
  let bds := (q.ptes.filterMap fun x => x.2.share.map Prod.fst).eraseDups
  let bds := bds.filter fun b => match s.xlt.bds.get? b with
    | some x => x.fds.all fun e => decide (e.2.refs ≤ 1)
    | none => false
  own ++ (bds.map FrameId.bdPage).filter fun f => ((s.frame? f).map fun v => decide (v.home.tier ≤ 1)).getD false

/-- Sequences of a domain that R181 may choose, best first: highest class, then least recently active. -/
def State.candidates (s : State) (d : Nat) : List Nat :=
  let ok := s.xlt.seqs.filter fun x =>
    x.2.domain == d && x.2.st == .idle && decide (0 < x.2.pclass) && !s.preempting x.1
      && !(x.2.ptes.any fun e => s.pinned (e.2.frame x.1 e.1.1 e.1.2.1 e.1.2.2))
  let ord := ok.mergeSort fun a b => decide (b.2.pclass < a.2.pclass)
    || (a.2.pclass == b.2.pclass && decide (a.2.lastActive ≤ b.2.lastActive))
  ord.map Prod.fst

/-- T0 bytes that the pre-emption of a sequence would release: of the pool, or, for metadata, of the page-table region. -/
def State.releases (s : State) (i : Nat) (isMeta : Bool) : Nat :=
  match s.seq? i with
  | none => 0
  | some q => sumNat ((s.eligible i q).filterMap fun f =>
      (s.frame? f).bind fun v => if v.home.tier == 0 && v.isMeta == isMeta then some v.bytes else none)

/-- T0 bytes that pre-emptions in progress of a domain have yet to release. -/
def State.releasing (s : State) (d : Nat) (isMeta : Bool) : Nat :=
  sumNat (s.slc.places.filterMap fun p => match p.kind with
    | .preempt i _ => if p.domain == d then some (s.releases i isMeta) else none
    | _ => none)

/-- Whether a T0 request of a domain is covered: by its free share, or by room in the page-table region for a metadata frame,
together with what pre-emptions in progress release (R168). -/
def State.covered (s : State) (d bytes : Nat) (isMeta : Bool) : Bool :=
  if isMeta then (s.allocMeta d bytes).isSome || decide (bytes ≤ s.releasing d true)
  else decide (bytes ≤ s.t0Share d + s.releasing d false)

/-- Reserve a T2 extent for each of some frames; none where the space does not exist. -/
def State.reserveT2 (s : State) (d : Nat) : List Nat → Option (List (Home × Nat) × State)
  | [] => some ([], s)
  | b :: bs => (s.allocT2 d b).bind fun x => (x.2.reserveT2 d bs).map fun y => ((x.1, b) :: y.1, y.2)

/-- Start a pre-emption (R179, steps 1 and 2). -/
def State.startPreempt (s : State) (i : Nat) (q : Seq) (auto : Bool) (r : Requester) : Option State :=
  let sizes := (s.eligible i q).filterMap fun f => (s.frame? f).map FrameInfo.bytes
  (s.reserveT2 q.domain sizes).map fun x =>
    let s := x.2
    let p : Placement := {
      id := s.slc.nextPlace, req := r, domain := q.domain, kind := .preempt i auto, reqs := [], started := false, reserve := x.1 }
    let s := { s with slc := { s.slc with places := s.slc.places ++ [p], nextPlace := s.slc.nextPlace + 1 } }
    let s := (s.setSeq i fun q => { q with held := q.held.map fun h => { h with before := true } }).awaits (.preempt i)
    let s := { s with att := { s.att with steps := s.att.steps.map fun t => if t.seq = i then { t with before := true } else t } }
    if auto then (s.bumpD q.domain Reg.slcAutopreLo).setEvt Evt.slcAutoPreempt else s

/-- Pre-empt sequences of a domain by class until a request is covered, while fewer than `limit` placements are in progress. -/
def State.preemptFor (s : State) (d bytes : Nat) (isMeta : Bool) (limit : Nat) : List Nat → State
  | [] => s
  | i :: is =>
    if s.covered d bytes isMeta || decide (limit ≤ s.slc.places.length) then s
    else
      match s.seq? i with
      | none => s.preemptFor d bytes isMeta limit is
      | some q => ((s.startPreempt i q true .device).getD s).preemptFor d bytes isMeta limit is

/-- Pre-empt by class for a T0 request (R181). An automatic pre-emption waits, as a command does, while 256 are in progress
(R172). -/
def State.autoPreempt (s : State) (d bytes : Nat) (isMeta : Bool) : State :=
  s.preemptFor d bytes isMeta 256 (s.candidates d)

/-- Whether a T0 request that is not covered now fits all the same (R168): the pre-emptions that can start, each with its space
in T2, would cover it. -/
def State.fitsLater (s : State) (d bytes : Nat) (isMeta : Bool) : Bool :=
  let cs := s.candidates d
  (s.preemptFor d bytes isMeta (s.slc.places.length + cs.length + 1) cs).covered d bytes isMeta

/-! ### Frame requests (R177) -/

/-- Start a move for a request, or end the request (R168, R171). A promotion into T0 that fits waits for a pre-emption. -/
def State.tryMove (s : State) (r : FrameReq) (i : FrameInfo) : State :=
  match s.startMove r.frame i r.promo r.evict r.tier [r.id] none none with
  | .ok t => t
  | .error .noSpace =>
    if r.tier = 0 ∧ s.fitsLater i.domain i.bytes i.isMeta then
      let s := { s with slc := { s.slc with spaceWait := if s.slc.spaceWait.contains r.id then s.slc.spaceWait else s.slc.spaceWait ++ [r.id] } }
      s.autoPreempt i.domain i.bytes i.isMeta
    else
      let s := if r.tier = 0 ∧ i.isMeta then s.setErr Err.xltPtrFull else s
      s.endReqs [r.id] (.failed .noSpace 0)
  | .error st => s.endReqs [r.id] (.failed st 0)

/-- Change one move. -/
def State.modMove (s : State) (n : Nat) (f : Move → Move) : State :=
  { s with slc := { s.slc with moves := updFirst (fun m => m.seqNo == n) f s.slc.moves } }

/-- Start a chained move on its frame (Table 8.2, R168): where its promotion into T0 fits but is not covered yet, it waits. -/
def State.startChain (s : State) (f : FrameId) (d : Nat) (c : Chain) : State :=
  let ends := fun (s : State) (e : ReqEnd) (st : Status) => (s.endReqs c.reqs e).endWaiters d c.ticket st 0
  let waits := fun (s : State) => ({ s with slc := { s.slc with chainWait := s.slc.chainWait ++ [(f, d, c)] } } : State)
  match s.frame? f with
  | none => ends s .satisfied .ok
  | some i =>
    if i.home.tier ≤ c.tier then ends s .satisfied .ok
    else if (s.moveOf f).isSome then waits s
    else
      match s.startMove f i true false c.tier c.reqs (some c.ticket) none with
      | .ok t => t
      | .error st =>
        if st = .noSpace ∧ c.tier = 0 ∧ s.fitsLater i.domain i.bytes i.isMeta then
          (waits s).autoPreempt i.domain i.bytes i.isMeta
        else ends (if st = .noSpace ∧ c.tier = 0 ∧ i.isMeta then s.setErr Err.xltPtrFull else s) (.failed st 0) st

/-- The destination and ticket of a frame's last pending move. -/
def Move.last (m : Move) : Nat × Nat :=
  match m.chain with
  | some c => (c.tier, c.ticket)
  | none => (m.tier, m.ticket)

/-- Decide a frame request by Table 8.3. The request is already listed in its placement. -/
def State.decideReq (s : State) (r : FrameReq) : State :=
  match s.frame? r.frame with
  | none => s.endReqs [r.id] .satisfied
  | some i =>
    let pend := s.moveOf r.frame
    let target := match pend with | some m => m.last.1 | none => i.home.tier
    let r := { r with promo := decide (r.tier < target) }
    let join := fun (s : State) => s.bumpD i.domain Reg.slcJoinLo
    match pend with
    | none =>
      if r.tier = i.home.tier then s.endReqs [r.id] .satisfied
      else if r.promo then s.tryMove r i
      else if r.scopeSeq && i.shared then s.endReqs [r.id] (.failed .conflict 0)
      else s.tryMove r i
    | some m =>
      if r.tier = m.tier then join (s.modMove m.seqNo fun m => { m with reqs := m.reqs ++ [r.id] })
      else if (m.chain.map Chain.tier) = some r.tier then
        join (s.modMove m.seqNo fun m => { m with chain := m.chain.map fun c => { c with reqs := c.reqs ++ [r.id] } })
      else if r.promo then
        if !m.promo && decide (m.st ≠ .commit) && m.chain.isNone then
          -- row 3: the demotion is aborted; its requests learn the ticket of the move that starts, if one does
          let home := i.home.tier
          if home ≤ r.tier then (s.abortMove m .conflict 0).endReqs [r.id] .satisfied
          else
            let t := s.slc.tickets.getD i.domain 1
            let u := s.abortMove m .conflict t
            match u.startMove r.frame i true r.evict r.tier [r.id] none none with
            | .ok v => v
            | .error _ => ((s.abortMove m .conflict 0).tryMove r i)
        else
          match m.chain with
          | some _ => s.modMove m.seqNo fun m => { m with chain := m.chain.map fun c => { c with tier := r.tier, reqs := c.reqs ++ [r.id] } }
          | none =>
            let t := s.newTicket i.domain
            (t.2.modMove m.seqNo fun m => { m with chain := some { ticket := t.1, tier := r.tier, reqs := [r.id] } }).bumpD i.domain
              Reg.slcChainLo
      else s.endReqs [r.id] (.failed .conflict m.last.2)

/-- Expand a placement into frame requests, in order, and decide each. -/
def State.issue (s : State) (pid : Nat) (frames : List FrameId) (tier : Nat) (evict scopeSeq : Bool) : State :=
  s.forEach frames fun f t =>
    let r : FrameReq := { id := t.slc.nextReq, frame := f, tier := tier, evict := evict, scopeSeq := scopeSeq }
    let t := { t with slc := { t.slc with nextReq := t.slc.nextReq + 1 } }
    (t.modPlace pid fun p => { p with reqs := p.reqs ++ [r] }).decideReq r

/-! ### Pre-emption and its frames (R179) -/

/-- A reservation of a size, and the reservations without it. -/
def takeReserve (l : List (Home × Nat)) (bytes : Nat) : Option (Home × List (Home × Nat)) :=
  (takeFirst (fun x => x.2 == bytes) l).map fun r => (r.1.1, r.2)

/-- Demote the frames of a started pre-emption that are not yet moving and not yet done: each into space reserved for it. A
frame that has left T0 and T1, or that is gone, is done. -/
def State.pumpPreempt (s : State) (pid : Nat) : State :=
  match s.slc.places.find? fun p => p.id == pid with
  | none => s
  | some p =>
    if !p.started || !(match p.kind with | .preempt _ _ => true | _ => false) then s
    else
      s.forEach (p.reqs.filter fun r => r.res == .pending && !s.slc.moves.any fun m => m.reqs.contains r.id) fun r t =>
        match t.frame? r.frame with
        | none => t.endReqs [r.id] .satisfied
        | some i =>
          if 2 ≤ i.home.tier then t.endReqs [r.id] .satisfied
          else if (t.moveOf r.frame).isSome then t
          else
            let p := (t.slc.places.find? fun p => p.id == pid).getD p
            match takeReserve p.reserve i.bytes with
            | some (h, rest) =>
              match t.startMove r.frame i false false 2 [r.id] none (some h) with
              | .ok u => u.modPlace pid fun p => { p with reserve := rest }
              | .error st => t.endReqs [r.id] (.failed st 0)
            | none =>
              match t.startMove r.frame i false false 2 [r.id] none none with
              | .ok u => u
              | .error st => t.endReqs [r.id] (.failed st 0)

/-! ### Completion of placements (R171, R179, R180) -/

/-- The status of decided requests: the first failure in order, a conflict of a pre-emption counting as done. -/
def Placement.status (p : Placement) : Status :=
  let bad := p.reqs.findSome? fun r => match r.res with
    | .failed .conflict _ => if (match p.kind with | .preempt _ _ => true | _ => false) then none else some Status.conflict
    | .failed st _ => some st
    | _ => none
  bad.getD .ok

/-- The completion of a placement command (R171). -/
def Placement.result (p : Placement) : Cpl :=
  let okN := (p.reqs.filter fun r => r.res == .satisfied).length
  let tick := (p.reqs.findSome? fun r => match r.res with | .failed .conflict t => some t | _ => none).getD 0
  match p.kind with
  | .place => { status := p.status, result := min okN 0xFFFFFFFF, detail := tick }
  | _ => { status := p.status }

/-- Complete one placement whose requests have all been decided. -/
def State.finishPlace (s : State) (p : Placement) : State :=
  if !p.started || p.reqs.any (fun r => r.res == .pending) then s
  else
    let s := { s with slc := { s.slc with places := s.slc.places.filter fun x => x.id != p.id } }
    let c : Cpl := p.result
    let s := s.forEach p.reserve fun x t => t.freeExt x.1
    let s : State := match p.kind with
      | .place => s
      | .preempt i auto =>
        if c.status = .ok then
          let s := s.setSeq i fun q => { q with st := if q.st = .idle ∨ q.st = .active then .preempted else q.st }
          if auto then s else s.bumpD p.domain Reg.slcPreemptLo
        else s
      | .restore i =>
        if c.status = .ok then
          (s.setSeq i fun q => { q with st := if q.st = .preempted then .idle else q.st }).bumpD p.domain Reg.slcRestoreLo
        else s
    s.forEach (p.req :: p.joined) fun r t => t.complete r c

/-! ### Placement commands -/

/-- Operands of Table 8.1. -/
structure PlaceOps where
  scope : Nat
  tier : Nat
  flags : Nat
  handle : Nat
  lo : Nat
  hi : Nat
  mask : Nat
  pageLo : Nat
  pageHi : Nat
  deriving DecidableEq, Repr

/-- Read the operands of `SLC_PLACE`. -/
def placeOps (o : List Byte) : PlaceOps :=
  { scope := u8 o 0, tier := u8 o 1, flags := u16 o 2, handle := u32 o 4, lo := u16 o 8, hi := u16 o 10, mask := u16 o 12
    pageLo := u32 o 16, pageHi := u32 o 20 }

/-- Whether a head group is selected. -/
def PlaceOps.takes (p : PlaceOps) (l h : Nat) : Bool :=
  decide (p.lo ≤ l) && decide (l ≤ p.hi) && (p.mask == 0 || p.mask.testBit h)

/-- The pages of a sequence in DVA order: layer, head group, page. -/
def Seq.inOrder (q : Seq) : Assoc (Nat × Nat × Nat) Pte :=
  q.ptes.mergeSort fun a b => decide (pageKey a.1.1 a.1.2.1 a.1.2.2 ≤ pageKey b.1.1 b.1.2.1 b.1.2.2)

/-- The frames in the scope of a placement, in DVA order (R170); none where the handle is refused. -/
def State.placeFrames (s : State) (d : Nat) (p : PlaceOps) : Except Status (List FrameId) :=
  let withMeta := bit p.flags 1
  match p.scope with
  | 0 =>
    match s.findSeq d p.handle with
    | .error e => .error e
    | .ok (i, q) =>
      let sel := q.inOrder.filter fun x => p.takes x.1.1 x.1.2.1 && decide (p.pageLo ≤ x.1.2.2) && decide (x.1.2.2 ≤ p.pageHi)
      let tabs := (sel.flatMap fun x => tablePath (.seq i) (pageKey x.1.1 x.1.2.1 x.1.2.2)).eraseDups
      .ok ((sel.map fun x => x.2.frame i x.1.1 x.1.2.1 x.1.2.2) ++ (if withMeta then tabs else []))
  | 1 =>
    match s.findBd d p.handle with
    | none => .error .denied
    | some b =>
      let g := (s.modelOfBd b).groups
      let sel := (List.range b.slots).filter fun k => b.fds.has k && p.takes (k / g) (k % g)
      .ok (sel.map (FrameId.slot p.handle) ++ (if withMeta then [.bdPage p.handle] else []))
  | _ =>
    match s.findObj d p.handle with
    | .error e => .error e
    | .ok (n, o) =>
      let pages := (o.map.keys.filter fun k => decide (p.pageLo ≤ k) && decide (k ≤ p.pageHi)).mergeSort fun a b => decide (a ≤ b)
      .ok (pages.map (FrameId.obj n))

/-- The last layer that `LAYER_HI` names, where the model is known. -/
def State.placeLast (s : State) (d : Nat) (p : PlaceOps) : Nat :=
  if p.hi ≠ 0xFFFF then p.hi
  else
    match p.scope with
    | 0 => match s.findSeq d p.handle with | .ok (_, q) => (s.modelOf q).layers - 1 | .error _ => 0xFFFF
    | 1 => match s.findBd d p.handle with | some b => (s.modelOfBd b).layers - 1 | none => 0xFFFF
    | _ => 0xFFFF

/-- `SLC_PLACE` (R170). -/
def State.placeCmd (s : State) (r : Requester) (d : Nat) (o : List Byte) : State :=
  let p := placeOps o
  let p := { p with hi := s.placeLast d p }
  let bad := decide (2 < p.scope) || decide (3 < p.tier) || decide (3 < p.flags) || !zeros o 14 2 || !zeros o 24 8
    || decide (p.hi < p.lo) || decide (p.pageHi < p.pageLo)
  if bad then s.fail r .format
  else
    match s.placeFrames d p with
    | .error e => s.fail r e
    | .ok fs =>
      if p.tier = 3 ∧ !s.glb.variant.hasFlash then s.fail r .absent
      else
        let id := s.slc.nextPlace
        let pl : Placement := { id := id, req := r, domain := d, kind := .place, reqs := [] }
        let s := { s with slc := { s.slc with places := s.slc.places ++ [pl], nextPlace := id + 1 } }
        s.issue id fs p.tier (bit p.flags 0) (p.scope == 0)

/-- `SEQ_PREEMPT` (R179). -/
def State.preemptCmd (s : State) (r : Requester) (d : Nat) (o : List Byte) : State :=
  match s.findSeq d (u32 o 0) with
  | .error e => s.fail r e
  | .ok (i, q) =>
    match q.st with
    | .draining => s.fail r .unavailable
    | .retired => s.fail r .unavailable
    | .poisoned => s.fail r .poisoned
    | .preempted => s.complete r {}
    | _ =>
      if s.preempting i then
        { s with slc := { s.slc with places := s.slc.places.map fun p => match p.kind with
          | .preempt j _ => if i == j then { p with joined := p.joined ++ [r] } else p
          | _ => p } }
      else
        match s.startPreempt i q false r with
        | none => s.fail r .noSpace
        | some t => t

/-- `SEQ_RESTORE` (R180). -/
def State.restoreCmd (s : State) (r : Requester) (d : Nat) (o : List Byte) : State :=
  if 1 < u8 o 4 then s.fail r .format
  else
    match s.findSeq d (u32 o 0) with
    | .error e => s.fail r e
    | .ok (i, q) =>
      if q.st ≠ .preempted then s.fail r .format
      else
        let own := q.inOrder.map fun x => x.2.frame i x.1.1 x.1.2.1 x.1.2.2
        let bds := (q.inOrder.filterMap fun x => x.2.share.map fun y => FrameId.bdPage y.1).eraseDups
        let fs := (bds ++ own).filter fun f => ((s.frame? f).map fun v => v.home.tier == 2).getD false
        let id := s.slc.nextPlace
        let pl : Placement := { id := id, req := r, domain := d, kind := .restore i, reqs := [] }
        let s := { s with slc := { s.slc with places := s.slc.places ++ [pl], nextPlace := id + 1 } }
        s.issue id fs (u8 o 4) false false

/-- Start a placement command by its opcode. -/
def State.startPlace (s : State) (r : Requester) (d opcode : Nat) (o : List Byte) : State :=
  match opcode with
  | 0x20 => s.placeCmd r d o
  | 0x0D => s.preemptCmd r d o
  | _ => s.restoreCmd r d o

/-- Chained promotions that wait for T0 space are tried again (R168). -/
def State.retryChains (s : State) : State :=
  let l := s.slc.chainWait
  ({ s with slc := { s.slc with chainWait := [] } } : State).forEach l fun x t => t.startChain x.1 x.2.1 x.2.2

/-- Retry the requests that wait for T0 space; one that no longer fits ends with `E_NOSPACE` (R168). -/
def State.retrySpace (s : State) : State :=
  let ids := s.slc.spaceWait
  let s := { s with slc := { s.slc with spaceWait := [] } }
  s.forEach ids fun id t =>
    match t.slc.places.findSome? fun p => p.reqs.find? fun r => r.id == id && r.res == .pending with
    | none => t
    | some r => t.decideReq r

/-- Complete every placement that has been decided, pump pre-emptions, and start commands that waited for one of the 256
places (R172). -/
def State.settlePlaces (s : State) : Nat → State
  | 0 => s
  | n + 1 =>
    let s := s.forEach (s.slc.places.map Placement.id) fun id t => t.pumpPreempt id
    let before := s.slc.places.length
    let s := s.forEach s.slc.places fun p t => t.finishPlace p
    if s.slc.places.length < 256 then
      match s.slc.queue with
      | (r, op, o) :: rest =>
        let s := { s with slc := { s.slc with queue := rest } }
        (s.startPlace r (s.domainOf r) op o).settlePlaces n
      | [] => if s.slc.places.length < before then s.settlePlaces n else s
    else s

/-- Bring placements up to date after any event. -/
def State.sluice (s : State) : State := s.only .engine (s.retrySpace.retryChains.settlePlaces 600)

/-- A placement command arrives: it starts, or it waits while 256 are in progress (R172). -/
def State.placeOrWait (s : State) (r : Requester) (d opcode : Nat) (o : List Byte) : State :=
  if s.slc.places.length < 256 ∧ s.slc.queue.isEmpty then (s.startPlace r d opcode o).sluice
  else { s with slc := { s.slc with queue := s.slc.queue ++ [(r, opcode, o)] } }

/-! ### Commit -/

/-- The next generation of a frame (R67). -/
def State.nextGen (s : State) (g : Nat) : Nat × State :=
  if g + 1 = 2 ^ 24 then (0, (s.bump Reg.xltGenWrapLo).setEvt Evt.xltGenWrap) else (g + 1, s)


/-- Commit a move (Table 8.2): home, generation and state of the entry, the source extent, the requests, the chain. -/
def State.commitMove (s : State) (m : Move) : State :=
  let s := s.dropMove m
  let s := s.bumpD m.domain Reg.slcMoveLo
  let s := if m.evict && !m.promo then s.bumpD m.domain Reg.slcEvictLo else s
  let s := match s.frame? m.frame with
    | some i =>
      if m.freed then (s.freeExt m.src).freeExt m.dst
      else
        let g := s.nextGen i.gen
        (g.2.setFrame m.frame fun i => { i with gen := g.1, home := m.dst, moving := false }).freeExt m.src
    | none => (s.freeExt m.src).freeExt m.dst
  let s := (s.endReqs m.reqs .satisfied).endWaiters m.domain m.ticket .ok 0
  match m.chain with
  | none => s
  | some c => if m.freed then (s.endReqs c.reqs .satisfied).endWaiters m.domain c.ticket .ok 0 else s.startChain m.frame m.domain c

/-! ### Stalls (R182 to R184) -/

/-- Index of a cause in the counters of Table 8.9. -/
def StallCause.index : StallCause → Nat
  | .t1Late => 0 | .t2Late => 1 | .t3Late => 2 | .t3ReadRetry => 3 | .stagingFull => 4 | .translationMiss => 5

/-- The cause of a stall on a frame (Table 8.6). The table names no cause for a home in T0, as of a frame whose demotion is in
`COMMIT` or of a tail that moves out of T0: DESIGN CHOICE, it is counted as `T1_LATE` (log entry 93). -/
def State.stallCause (s : State) (preempted : Bool) (metaOut : Bool) (f : FrameId) : StallCause :=
  let m := s.moveOf f
  let toT0 := m.any fun m => m.tier == 0
  let home := ((s.frame? f).map fun i => i.home.tier).getD 1
  if metaOut then .translationMiss
  else if toT0 && m.any (fun m => m.st == .queued && m.admitted && decide (s.linesFree < ceilDiv m.bytes 4096)) then .stagingFull
  else if toT0 && m.any (fun m => m.st == .read && m.t3Retry) then .t3ReadRetry
  else if preempted then .t2Late
  else match home with | 3 => .t3Late | 2 => .t2Late | _ => .t1Late

/-- A stall begins: it is counted under its cause for the device and for its domain. -/
def State.beginStall (s : State) (who : Staller) (d : Nat) (cause : StallCause) (f : Option FrameId) (pre : Bool := false) : State :=
  let s := s.bumpD d (Reg.slcStallT1Lo + 16 * cause.index)
  let n := s.slc.domStalls.getD (d, cause.index) (0, 0)
  { s with slc := { s.slc with
    stalls := s.slc.stalls ++ [{ who := who, domain := d, cause := cause, frame := f, since := s.now, pre := pre }]
    domStalls := s.slc.domStalls.set (d, cause.index) (n.1 + 1, n.2) } }

/-- A stall ends: its time accrues to its cause. -/
def State.endStall (s : State) (who : Staller) : State :=
  match s.slc.stalls.find? fun x => x.who == who with
  | none => s
  | some x =>
    let ns := s.now - x.since
    let n := s.slc.domStalls.getD (x.domain, x.cause.index) (0, 0)
    let s := { s with slc := { s.slc with
      stalls := s.slc.stalls.filter fun y => y.who != who
      domStalls := s.slc.domStalls.set (x.domain, x.cause.index) (n.1, n.2 + ns) } }
    if ns = 0 then s else s.bumpD x.domain (Reg.slcStallT1NsLo + 16 * x.cause.index) ns

/-- The stall limit in ns (R183). -/
def State.stallLimit (s : State) : Nat := usNs (max (s.fld Reg.slcCfg 31 16) 250)

/-- A stall that reached the limit is counted (R183). -/
def State.stallTimedOut (s : State) (who : Staller) (d : Nat) : State :=
  ((s.endStall who).bumpD d Reg.slcStallTimeoutLo).setErr Err.slcStallTimeout

/-- The first frame of some that is outside T0, with whether it is a metadata frame. -/
def State.firstOut (s : State) (fs : List FrameId) : Option FrameId :=
  fs.find? fun f => ((s.frame? f).map fun i => i.home.tier != 0).getD false

end Sys2Proof.Machine
end

