-- ==== Sys2Proof/Machine/AppendOps.lean ====
section
/-! DEFINITION. Machine/AppendOps.lean: append records: checks, quantisation, sealing and the hand-off to Reedbed (R71 to
R89, R127). -/

namespace Sys2Proof.Machine

/-- Distance from the registers of `XLT` instance 0 to those of the instance that serves a sequence (R89). -/
def xltOff (i : Nat) : Nat := (i % 2) * 0x8000

/-! ### Writing one page -/

/-- The part of a record that falls in one page: first position in the page, and the positions' K and V vectors in order,
each as the list of its heads' channel vectors. -/
structure Segment16 where
  page : Nat
  t0 : Nat
  ks : List (List (List Bf16))
  vs : List (List (List Bf16))
  deriving DecidableEq, Repr

/-- Cut a list in pieces of a length. -/
def chunks {α : Type} (n : Nat) : Nat → List α → List (List α)
  | 0, _ => []
  | k + 1, l => l.take n :: chunks n k (l.drop n)

/-- What a quantiser reports. -/
structure QuantStat where
  sat : Nat := 0
  rescales : Nat := 0
  deriving DecidableEq, Repr

/-- Bytes written at an offset of a frame. -/
abbrev Patch := Nat × List Byte

/-- The largest magnitude of a vector, as a bf16 code. -/
def maxMag (x : List Bf16) : Bf16 := BitVec.ofNat 16 (x.foldl (fun m v => max m (v.toNat % 2 ^ 15)) 0)

/-- Emin(a) of R77: the least E with a ≤ 448 · 2^E. -/
def eMin (a : Bf16) : Int :=
  let v := bf16Val a
  let l : Int := (v.m.natAbs.log2 : Int) + v.e
  if Dyadic.lt ⟨448, l - 8⟩ ⟨v.m.natAbs, v.e⟩ then l - 7 else l - 8

/-- The exponent of a new scale (R77, rules 2 and 3). -/
def newExp (a : Bf16) (head : Nat) : Int := min 127 (max (-126) (eMin a + head))

/-- The FP32 code of 2^E. -/
def pow2F32 (e : Int) : Nat := ((e + 127).toNat) * 2 ^ 23

/-- The exponent of a stored scale; none for +0. -/
def expOfScale (w : Nat) : Option Int := if w = 0 then none else some ((w / 2 ^ 23 : Nat) - 127)

/-- One position of one head and half in format 0x2: the scale, the codes of the earlier positions and its own (R77). DESIGN
CHOICE: a rescale counts once for each head, half and position at which it happens (log entry 102). -/
def fp8Step (head : Nat) (sc : Option Int) (old : List (List Byte)) (x : List Bf16) (st : QuantStat) :
    Option Int × List (List Byte) × QuantStat :=
  let a := maxMag x
  let big := fun (e : Int) => Dyadic.lt ⟨448, e⟩ ⟨(bf16Val a).m.natAbs, (bf16Val a).e⟩
  let z := decide (a.toNat = 0)
  let r := match sc with
    | none => if z then (none, old, st) else (some (newExp a head), old, st)
    | some e =>
      if big e then
        let e' := newExp a head
        let re := fun (b : Byte) => let v := fp8Val b; toFp8 b.msb ⟨v.m, v.e + e - e'⟩
        (some e', old.map (List.map re), { st with rescales := st.rescales + 1 })
      else (some e, old, st)
  match r.1 with
  | none => (none, r.2.1 ++ [x.map fun _ => 0#8], r.2.2)
  | some e =>
    let codes := x.map fun v => let d := bf16Val v; (toFp8 v.msb ⟨d.m, d.e - e⟩, aboveFp8 ⟨d.m, d.e - e⟩)
    (some e, r.2.1 ++ [codes.map Prod.fst], { r.2.2 with sat := r.2.2.sat + (codes.filter Prod.snd).length })

/-- Positions of one head and half of a format 0x2 page: patches of the half from position 0 on, and the scale. -/
def fp8Half (head : Nat) (sc : Option Int) (old : List (List Byte)) (xs : List (List Bf16)) (st : QuantStat) :
    Option Int × List (List Byte) × QuantStat :=
  xs.foldl (fun r x => fp8Step head r.1 r.2.1 x r.2.2) (sc, old, st)

/-- A byte for each pair of 4-bit codes (Table 4.1). -/
def packNibbles : List Nat → List Byte
  | a :: b :: rest => BitVec.ofNat 8 (a % 16 + 16 * (b % 16)) :: packNibbles rest
  | _ => []

/-- One vector of one position and head in formats 0x3 and 0x4: codes, scales and outlier bytes (R76, R79). -/
def int4Vec (outl : List Nat) (x : List Bf16) (st : QuantStat) : List Byte × List Byte × List Byte × QuantStat :=
  let used := outl.filter (· ≠ 0xFF)
  let marked := (List.range x.length).map fun c => (x.getD c 0, used.contains c)
  let gs := (chunks 32 (x.length / 32) marked).map int4Group
  let outs := outl.map fun c => if c = 0xFF then (0#8, false) else
    let v := x.getD c 0
    (toFp8 v.msb (bf16Val v), aboveFp8 (bf16Val v))
  (packNibbles (gs.flatMap Prod.snd), gs.flatMap fun g => leBytes 2 g.1.toNat, outs.map Prod.fst,
    { st with sat := st.sat + (outs.filter Prod.snd).length })

/-- The patches that one segment makes in the frame of one head group, and what quantisation reports. `fill` is the page's
fill before; `read` reads the frame. -/
def segPatches (m : Model) (layer hg head : Nat) (read : Nat → Nat → List Byte) (seg : Segment16) : List Patch × QuantStat :=
  let d := m.headDim
  let g := m.g
  let side := 4096 * 2 ^ m.fc
  let heads := (List.range g).filter fun h => decide (hg * g + h < m.kvHeads)
  let pos := List.range seg.ks.length
  let vecs := fun (half h : Nat) => (if half = 0 then seg.ks else seg.vs).map fun p => p.getD (hg * g + h) []
  match m.format with
  | 1 =>
    (([0, 1].flatMap fun half => heads.flatMap fun h => pos.map fun a =>
      (half * 32 * g * d + 2 * ((h * 16 + seg.t0 + a) * d), ((vecs half h).getD a []).flatMap fun v => leBytes 2 v.toNat)), {})
  | 2 =>
    let go := fun (r : List Patch × QuantStat) (x : Nat × Nat) =>
      let base := x.1 * 16 * g * d + x.2 * 16 * d
      let so := side + 8 * x.2 + 4 * x.1
      let old := (List.range seg.t0).map fun t => read (base + t * d) d
      let y := fp8Half head (expOfScale (ofLe (read so 4))) old (vecs x.1 x.2) r.2
      (r.1 ++ [(base, y.2.1.flatten), (so, leBytes 4 ((y.1.map pow2F32).getD 0))], y.2.2)
    ([0, 1].flatMap fun half => heads.map fun h => (half, h)).foldl go ([], {})
  | f =>
    let go := fun (r : List Patch × QuantStat) (x : Nat × Nat × Nat) =>
      let half := x.1; let h := x.2.1; let t := seg.t0 + x.2.2
      let tabAt := 4 * (layer * m.kvHeads + hg * g + h)
      let outl := if f = 4 then ((m.outliers.drop tabAt).take 4).map BitVec.toNat else []
      let y := int4Vec outl ((vecs half h).getD x.2.2 []) r.2
      let row := h * 16 + t
      (r.1 ++ [(half * 8 * g * d + row * d / 2, y.1), (side + half * g * d + 2 * (row * (d / 32)), y.2.1)]
        ++ (if f = 4 then [(side + 2 * g * d + half * 64 * g + row * 4, y.2.2.1)] else []), y.2.2.2)
    ([0, 1].flatMap fun half => heads.flatMap fun h => pos.map fun a => (half, h, a)).foldl go ([], {})

/-- Whether a segment needs a rescale of a format 0x2 page (R77, rule 3). -/
def segRescales (m : Model) (hg head : Nat) (read : Nat → Nat → List Byte) (seg : Segment16) : Bool :=
  decide (m.format = 2) && decide (0 < (segPatches m 0 hg head read seg).2.rescales)

/-! ### Records -/

/-- The fixed part of an append record passes check 1 of Table 4.5. -/
def appendShape (b : List Byte) : Bool :=
  decide (12 ≤ b.length) && decide (1 ≤ u8 b 6) && decide (u8 b 6 ≤ 16) && zeros b 7 1

/-- Read `n` bf16 values. -/
def readBf16 (b : List Byte) (off n : Nat) : List Bf16 :=
  (chunks 2 n ((b.drop off).take (2 * n))).map fun x => BitVec.ofNat 16 (ofLe x)

/-- Read an append record of a model (Table 4.4). -/
def appendRec (m : Model) (b : List Byte) : AppendRec :=
  let n := u8 b 6
  let e := n * m.kvHeads * m.headDim
  { handle := u32 b 0, layer := u16 b 4, count := n, pos := u32 b 8
    tokens := (List.range n).map fun i => BitVec.ofNat 32 (u32 b (12 + 4 * i))
    k := readBf16 b (12 + 4 * n) e, v := readBf16 b (12 + 4 * n + 2 * e) e }

/-- The parts of a record by page. -/
def AppendRec.segments (r : AppendRec) (m : Model) : List Segment16 :=
  let per := m.kvHeads * m.headDim
  let vec := fun (l : List Bf16) => (chunks per r.count l).map fun p => chunks m.headDim m.kvHeads p
  let first := min r.count (16 - r.pos % 16)
  let ks := vec r.k
  let vs := vec r.v
  let a : Segment16 := { page := r.pos / 16, t0 := r.pos % 16, ks := ks.take first, vs := vs.take first }
  if first = r.count then [a]
  else [a, { page := r.pos / 16 + 1, t0 := 0, ks := ks.drop first, vs := vs.drop first }]

/-- The frames of the tail that a record writes into: those of its first page, where it is mapped. -/
def State.tailFrames (s : State) (i : Nat) (q : Seq) (layer page : Nat) : List FrameId :=
  ((List.range (s.modelOf q).groups).filter fun h => q.ptes.has (layer, h, page)).map fun h => FrameId.page i layer h page

/-! ### Sealing (R86 to R88) -/

/-- The body of a `RING_QUERY` of kind `CHAIN` (Table 6.4). -/
def chainBody (c : ChainRec) : List Byte :=
  leBytes 4 c.rsid ++ leBytes 2 0 ++ leBytes 1 0 ++ leBytes 1 1 ++ leBytes 4 c.j ++ leBytes 4 0 ++ leBytes 2 0 ++ leBytes 1 0
    ++ leBytes 1 0 ++ leBytes 4 0 ++ leBytes 4 0 ++ leBytes 4 0 ++ leBytes 8 c.hash.toNat

/-- Send a `CHAIN` record to the successor; the sender keeps it until it is answered (R128). While the slot is not `READY`
it waits. -/
def State.sendChain (s : State) (slot : Nat) (c : ChainRec) : State :=
  let r := s.slot slot
  let mark := fun (n : Nat) (t : State) => t.setSlot slot fun r => { r with
    toSend := r.toSend.map fun x => if x.rsid == c.rsid && x.j == c.j then { x with last := n } else x }
  match r.succ with
  | some i =>
    if r.st = .ready ∧ ((s.cwy.sessions.get? i).any fun x => !x.detachSent) then
      let p := (((s.cwy.sessions.get? i).map fun x => (x.ports.keys.head?).getD 0)).getD 0
      (mark 0 s).cwySend i p { mtype := 0x28, vc := 1, body := chainBody c }
    else mark 2 s
  | none => mark 2 s

/-- The base block of a stripe above stripe 0, and block 0, are roots (R146). -/
def Seq.isRoot (q : Seq) (block : Nat) : Bool :=
  block == 0 || (q.stripe.any fun x => decide (0 < x.k)) && decide (block * 16 = q.base)

/-- Hand a completed block to Reedbed, or count it as not entered (R88). -/
def State.handOff (s : State) (i bd : Nat) : State :=
  match s.seq? i, s.xlt.bds.get? bd with
  | some q, some b =>
    let out := q.st == .poisoned || q.st == .draining || q.st == .retired || q.noIdx.any fun n => decide (n ≤ b.block)
    let r := q.range.getD (0, 0xFFFFFFFF)
    let h : Handoff := { bd := bd, seq := i, lo := r.1, hi := r.2, since := s.now }
    if out then
      let first := q.noIdx.isNone
      let s := s.setSeq i fun q => { q with noIdx := some (match q.noIdx with | some n => min n b.block | none => b.block) }
      let s := s.bumpD b.domain (Reg.xltAppNoidxLo + xltOff i)
      if first then s.setEvt Evt.xltAppIdxBreak (xltOff i) else s
    else if !s.islandOn searchIsland then s.noEntry h b.block Reg.rbdNoentStateLo
    else { s with xlt := { s.xlt with handoffs := s.xlt.handoffs ++ [h] } }
  | _, _ => s

/-- Whether a block of a sequence has sealed in every slot. -/
def Bd.whole (b : Bd) : Bool := decide (b.slots ≤ b.sealedCount)

/-- Compute the chained hash of a block from its tokens and the running hash (R87). -/
def State.hashBlock (s : State) (i block : Nat) (tokens : List Word) : State :=
  match s.seq? i with
  | none => s
  | some q =>
    match q.bdOf block with
    | none => s
    | some b =>
      let keys := (s.rbdKeys q.domain).getD (List.replicate 16 0#8, List.replicate 16 0#8)
      let h := blockHash keys tokens q.model q.run
      let s := s.setBd b fun x => { x with hash := h.1, check := h.2, pred := q.run, hashed := true }
      let s := s.setSeq i fun q => { q with run := h.1 }
      match q.stripe with
      | some t =>
        if (block + 1) * 16 = q.base + 2 ^ t.log ∧ 1 < (s.slot t.slot).n then
          let c : ChainRec := { rsid := t.rsid, j := t.k + 1, hash := h.1, since := s.now }
          (s.setSlot t.slot fun r => { r with toSend := r.toSend ++ [c] }).sendChain t.slot c
        else s
      | none => s

/-- Numbers of block descriptors in use, live or named by the park set (R377). -/
def State.usedBds (s : State) : List Nat :=
  s.xlt.bds.keys ++ s.pea.parked.filterMap fun p => match p.body with | .bd b _ => some b | _ => none

/-- Seal one page: its frame moves into its block descriptor, which is created for the first page of the block (Table 3.9,
R62). None where the page-table region has no room for the descriptor. -/
def State.sealPage (s : State) (i : Nat) (key : Nat × Nat × Nat) : Option State :=
  match s.seq? i with
  | none => some s
  | some q =>
    match q.ptes.get? key with
    | none => some s
    | some e =>
      let m := s.modelOf q
      let block := key.2.2
      let made : Option (Nat × State) := match q.bdOf block with
        | some b => some (b, s)
        | none =>
          let x := s.drawFrom Config.bdNumber
          (chooseFree s.usedBds 0 (2 ^ 28) x.1).bind fun b =>
            ((x.2.addTables .bds b q.domain).bind fun t => t.addMeta (.bdPage b) q.domain (bdClass m.slots)).map fun t =>
              let bd : Bd := { block := block, tag := q.model, domain := q.domain, slots := m.slots, root := q.isRoot block }
              (b, { t with xlt := { t.xlt with bds := t.xlt.bds.set b bd } })
      made.map fun x =>
        let slot := key.1 * m.groups + key.2.1
        let fd : Fd := { domain := e.domain, poison := e.poison, format := e.format, fc := e.fc, gen := e.gen, home := e.home }
        let s := x.2.setBd x.1 fun b => { b with fds := b.fds.set slot fd, sealedCount := b.sealedCount + 1 }
        let s := s.setSeq i fun q => { q with ptes := q.ptes.set key { e with share := some (x.1, slot), fill := 16, poison := false } }
        let s := s.renamePins (.page i key.1 key.2.1 key.2.2) (.slot x.1 slot)
        s.bumpD q.domain (Reg.xltAppSealLo + xltOff i)

/-- A stripe whose first block is complete while its running hash has not come and its predecessor is lost stays unindexed:
each block that is complete counts as not entered (R127, R88). -/
def State.chainLostAt (s : State) (i : Nat) : State :=
  match s.seq? i with
  | none => s
  | some q =>
    let lost := q.stripe.any fun z => decide ((s.slot z.slot).st = .degraded) && (s.slot z.slot).pred.isNone
    let first := q.base / 16
    let whole := fun (n : Nat) => ((q.bdOf n).bind s.xlt.bds.get?).any Bd.whole
    if !q.runKnown && q.noIdx.isNone && lost && whole first then
      let n := (q.unhashed.filter fun u => whole u.1).length
      let s := (s.setSeq i fun q => { q with noIdx := some first }).setErrD q.domain Err.cwyRingChainLost
      (s.bumpD q.domain (Reg.xltAppNoidxLo + xltOff i) n).setEvt Evt.xltAppIdxBreak (xltOff i)
    else s

/-- After every head group of a page has sealed: the hash of a layer-0 block, and the hand-off of a whole block. A block that
waits for its running hash is not handed off; once the stripe is unindexed it counts as not entered. -/
def State.afterSeal (s : State) (i layer block : Nat) : State :=
  match s.seq? i with
  | none => s
  | some q =>
    let s := if layer = 0 then
        if q.runKnown then (s.hashBlock i block (q.tokens.take 16)).setSeq i fun q => { q with tokens := q.tokens.drop 16 }
        else s.setSeq i fun q => { q with unhashed := q.unhashed ++ [(block, q.tokens.take 16)], tokens := q.tokens.drop 16 }
      else s
    match q.bdOf block with
    | none => s
    | some b =>
      let out := q.noIdx.any fun n => decide (n ≤ block)
      if ((s.xlt.bds.get? b).map fun x => x.whole && (x.hashed || out)).getD false then s.handOff i b else s.chainLostAt i

/-! ### Writing a record -/

/-- Map a page that is not mapped: tables and a zeroed frame in T0 (Table 3.9, R72). -/
def State.mapPage (s : State) (i : Nat) (q : Seq) (key : Nat × Nat × Nat) : Option State :=
  if q.ptes.has key then some s
  else
    let m := s.modelOf q
    let mapped := (q.ptes.filter fun x => x.1.1 == key.1 && x.1.2.1 == key.2.1).length
    if 262144 ≤ mapped then none
    else
      (s.addTables (.seq i) (pageKey key.1 key.2.1 key.2.2) q.domain).bind fun s =>
        (s.allocT0 q.domain m.ext).map fun x =>
          let s := x.2.putBytes x.1 0 (List.replicate m.ext 0#8)
          let e : Pte := { domain := q.domain, format := m.format, fc := m.fc, home := x.1, head := s.fld Reg.xltAppCfg 1 0 }
          s.setSeq i fun q => { q with ptes := q.ptes.set key e }

/-- Write one segment into one head group's page, and seal it at 16 positions. -/
def State.writeSeg (s : State) (i layer hg : Nat) (seg : Segment16) : Option State :=
  match s.seq? i with
  | none => none
  | some q =>
    (s.mapPage i q (layer, hg, seg.page)).bind fun s =>
      match (s.seq? i).bind fun q => q.ptes.get? (layer, hg, seg.page) with
      | none => none
      | some e =>
        let m := s.modelOf q
        let x := segPatches m layer hg e.head (fun o n => s.frameBytes e.home o n) seg
        let s := x.1.foldl (fun t p => t.putBytes e.home p.1 p.2) s
        let fill := e.fill + seg.ks.length
        let s := s.setSeq i fun q => { q with ptes := q.ptes.modify (layer, hg, seg.page) fun e => { e with fill := fill } }
        let s := if x.2.sat = 0 then s else (s.bumpD q.domain (Reg.xltAppSatLo + xltOff i) x.2.sat).setEvt Evt.xltAppSat (xltOff i)
        let s := if x.2.rescales = 0 then s else s.bumpD q.domain (Reg.xltAppRescaleLo + xltOff i) x.2.rescales
        if 16 ≤ fill then s.sealPage i (layer, hg, seg.page) else some s

/-- Write one segment into every head group; a full page seals before the next is written (R86). -/
def State.writeSegAll (s : State) (i layer : Nat) (seg : Segment16) : Option State :=
  match s.seq? i with
  | none => none
  | some q =>
    let g := (s.modelOf q).groups
    ((List.range g).foldl (fun t h => t.bind fun t => t.writeSeg i layer h seg) (some s)).map fun t =>
      if seg.t0 + seg.ks.length = 16 then t.afterSeal i layer seg.page else t

/-- Write a whole record (R83): none where T0 or the page-table region has no room. -/
def State.writeRecord (s : State) (i : Nat) (r : AppendRec) : Option State :=
  match s.seq? i with
  | none => none
  | some q =>
    let segs := r.segments (s.modelOf q)
    let s := if r.layer = 0 then s.setSeq i fun q => { q with tokens := q.tokens ++ r.tokens } else s
    segs.foldl (fun t g => t.bind fun t => t.writeSegAll i r.layer g) (some s)

/-- The record is accepted: counters, the highest accepted position, and the request completes (R83). -/
def State.acceptRecord (s : State) (i : Nat) (req : Requester) (r : AppendRec) : State :=
  let d := ((s.seq? i).map Seq.domain).getD 0
  let s := (s.bumpD d (Reg.xltAppRecLo + xltOff i)).bumpD d (Reg.xltAppPosLo + xltOff i) r.count
  let s := s.setSeq i fun q => { q with acc := q.acc.set r.layer (r.pos + r.count) }
  ((s.complete req {}).workEnds i)

/-- A refused or failed record: counted, and kept as the last refusal (R82, XLT_APP_LAST_INFO). -/
def State.refuseRecord (s : State) (d inst : Nat) (req : Requester) (layer pos count : Nat) (st : Status) : State :=
  let off := (inst % 2) * 0x8000
  let s := s.bumpD d (Reg.xltAppRefuseLo + off)
  let s := if s.conf d || (s.xlt.lastRef.get? (inst % 2)).isSome then s
      else
      let x : LastRef := { domain := d, layer := layer % 256, code := st.code, count := count % 32, pos := pos % 2 ^ 24 }
      { s with xlt := { s.xlt with lastRef := s.xlt.lastRef.set (inst % 2) x } }
  let s := match st with
    | .order => s.setErrD d Err.xltAppOrder off
    | .noSpace => s.setErrD d Err.xltAppNospace off
    | .poisoned => s.setErr Err.xltAppPoison off
    | _ => s
  s.complete req st.cpl

/-! ### Checks and holds (R82, R83) -/

/-- Some entry of a page of a layer, over its head groups, satisfies a test. -/
def State.anyGroup (s : State) (q : Seq) (layer page : Nat) (p : Nat → Pte → Bool) : Bool :=
  (List.range (s.modelOf q).groups).any fun h => (q.ptes.get? (layer, h, page)).any (p h)

/-- The tail page of a layer is poisoned (Table 4.5, step 4). -/
def State.tailPoisoned (s : State) (i : Nat) (q : Seq) (layer : Nat) : Bool :=
  let p := q.nextPos layer / 16
  s.anyGroup q layer p fun h e => s.pagePoison i layer h p e

/-- An entry of the tail page of a layer is of another domain (R68). -/
def State.tailForeign (s : State) (q : Seq) (layer page : Nat) : Bool :=
  s.anyGroup q layer page fun _ e => s.foreignPte q.domain e

/-- The metadata frames that a record needs: the tables of every page it writes or opens, and, where it completes a page, the
block descriptor that the page seals into, with that descriptor's tables (R48, R62). -/
def State.recordMetas (s : State) (i : Nat) (q : Seq) (r : AppendRec) : List FrameId :=
  let m := s.modelOf q
  (r.segments m).flatMap fun g =>
    ((List.range m.groups).flatMap fun h => tablePath (.seq i) (pageKey r.layer h g.page)) ++
      (if g.t0 + g.ks.length = 16 then
         match q.bdOf g.page with
         | some b => tablePath .bds b ++ [.bdPage b]
         | none => ((chooseFree s.usedBds 0 (2 ^ 28) (Config.bdNumber s.fresh)).map (tablePath .bds)).getD []
       else [])

/-- Why a record must wait before it is written (R83, R63, R78); none where it can be written now. A record accepted before a
pre-emption is not held for it. -/
def State.holdCause (s : State) (i : Nat) (q : Seq) (r : AppendRec) (before : Bool) : Option HoldCause :=
  let m := s.modelOf q
  let page := r.pos / 16
  let tail := s.tailFrames i q r.layer page
  let away := s.firstOut tail
  let moving := tail.find? fun f => ((s.frame? f).map FrameInfo.moving).getD false
  let metaOut := s.firstOut (s.recordMetas i q r)
  let pre := q.st == .preempted || (s.preempting i && !before)
  if metaOut.isSome then some (.stall .translationMiss)
  else if pre then some (.stall (s.stallCause true false (tail.headD (.bdPage 0))))
  else if away.isSome then some (.stall (s.stallCause false false (away.getD (.bdPage 0))))
  else if moving.isSome then some (.stall (s.stallCause false false (moving.getD (.bdPage 0))))
  else
    let seg := (r.segments m).head?
    let resc := seg.any fun g => (List.range m.groups).any fun h =>
      match q.ptes.get? (r.layer, h, page) with
      | some e => segRescales m h e.head (fun o n => s.frameBytes e.home o n) g && s.pinned (.page i r.layer h page)
      | none => false
    if resc then some .rescale else none

/-- The first held record of a layer waits for a pin with a rescale (R78). -/
def State.rescaleHold (s : State) (i d layer : Nat) : State :=
  ((s.bumpD d (Reg.xltAppRescaleHoldLo + xltOff i)).setEvt Evt.xltAppRescaleHold (xltOff i)).awaits (.rescale i layer)

/-- Hold a record (R83): a stall runs for the first held record of its layer (R182). One that waits for its dispatch alone is not
counted as held. -/
def State.holdRecord (s : State) (i : Nat) (req : Requester) (r : AppendRec) (c : HoldCause) : State :=
  let d := ((s.seq? i).map Seq.domain).getD 0
  let s := s.setSeq i fun q => { q with held := q.held ++ [{ req := req, rc := r, cause := c, since := s.now }] }
  let s := if c = .credit then s else s.bumpD d (Reg.xltAppHoldLo + xltOff i)
  match c with
  | .stall k =>
    let f := ((s.seq? i).bind fun q => (s.tailFrames i q r.layer (r.pos / 16)).head?)
    s.beginStall (.held i r.layer) d k f (((s.seq? i).any fun q => q.st == .preempted) || s.preempting i)
  | .rescale => s.rescaleHold i d r.layer
  | _ => s

/-- The bytes of T0 that the new tail frames of a record take. -/
def State.newTailBytes (s : State) (q : Seq) (r : AppendRec) : Nat :=
  let m := s.modelOf q
  let pages := ((r.segments m).map Segment16.page).filter fun p => !q.ptes.has (r.layer, 0, p)
  pages.length * m.groups * m.ext

/-- Whether R56 refuses a record: the pages mapped for its layer, those of the records held before it, and its own. -/
def State.overR56 (s : State) (q : Seq) (r : AppendRec) : Bool :=
  let m := s.modelOf q
  let held := (q.held.filter fun h => h.rc.layer == r.layer).flatMap fun h => h.rc.segments m
  let new := (((held ++ r.segments m).map Segment16.page).filter fun p => !q.ptes.has (r.layer, 0, p)).eraseDups.length
  decide (262144 < (q.ptes.filter fun x => x.1.1 == r.layer && x.1.2.1 == 0).length + new)

/-- Whether the metadata that a record needs fits the page-table region: tried on a copy in which T0 space is no limit. -/
def State.metaFits (s : State) (i : Nat) (q : Seq) (r : AppendRec) : Bool :=
  let m := s.modelOf q
  let keys := (r.segments m).flatMap fun g => (List.range m.groups).map fun h => pageKey r.layer h g.page
  let t := keys.foldl (fun t k => t.bind fun (t : State) => t.addTables (.seq i) k q.domain) (some s)
  let seals := (r.segments m).filter fun g => decide (g.t0 + g.ks.length = 16) && (q.bdOf g.page).isNone
  (seals.foldl (fun t g => t.bind fun (t : State) => t.addMeta (.bdPage (2 ^ 28 + g.page)) q.domain (bdClass m.slots)) t).isSome

/-- Bytes of the metadata frames that a record needs and that do not exist yet. -/
def State.metaNeed (s : State) (i : Nat) (q : Seq) (r : AppendRec) : Nat :=
  let new := (s.recordMetas i q r).eraseDups.filter fun f => !s.xlt.metas.has f
  let seals := (r.segments (s.modelOf q)).any fun g => decide (g.t0 + g.ks.length = 16) && (q.bdOf g.page).isNone
  4096 * new.length + (if seals then 4096 * 2 ^ bdClass (s.modelOf q).slots else 0)

/-- Whether the T0 space of a record can be had: now, or by pre-emption (R168): of the pool, and of the page-table region. -/
def State.recordFits (s : State) (i : Nat) (q : Seq) (r : AppendRec) : Bool × Bool :=
  let bytes := s.newTailBytes q r
  (decide (bytes ≤ s.t0Share q.domain) || s.fitsLater q.domain bytes false,
   s.metaFits i q r || s.fitsLater q.domain (s.metaNeed i q r) true)

/-- The first held record of a layer waits for T0 space, and Sluice pre-empts by class for it (R168, R181). -/
def State.awaitSpace (s : State) (i : Nat) (q : Seq) (r : AppendRec) : State :=
  let s := if decide (s.newTailBytes q r ≤ s.t0Share q.domain) then s else s.autoPreempt q.domain (s.newTailBytes q r) false
  if s.metaFits i q r then s else s.autoPreempt q.domain (s.metaNeed i q r) true

/-- An uncorrectable error in the append datapath (R85): the tail page that the record was writing is poisoned, the record
completes with `E_POISONED`, and the expected position returns to its own. -/
def State.datapathUe (s : State) (i : Nat) (req : Requester) (r : AppendRec) : State :=
  match s.seq? i with
  | none => s
  | some q =>
    let page := r.pos / 16
    let groups := List.range (s.modelOf q).groups
    let s := (groups.foldl (fun t h => t.bind fun (t : State) => t.mapPage i ((t.seq? i).getD q) (r.layer, h, page)) (some s)).getD s
    let s := s.forEach groups fun h t => t.raisePoison (.page i r.layer h page)
    let s := (s.setErr Err.xltAppUe (xltOff i)).setSeq i fun q => { q with next := q.next.set r.layer r.pos }
    (s.refuseRecord q.domain i req r.layer r.pos r.count .poisoned).workEnds i

/-- The item of an append record (Table 13.1): the T0 bytes of its positions, and the bytes that it brought over Causeway. -/
def State.recordItem (s : State) (i : Nat) (q : Seq) (req : Requester) (r : AppendRec) : Item :=
  let m := s.modelOf q
  let opt := match req with | .cwy _ _ _ _ _ _ _ _ => 44 + r.count * (4 + 4 * m.kvHeads * m.headDim) | _ => 0
  { domain := q.domain, cls := .att, cost := s.attnCost (ceilDiv (r.count * m.ext) 16 * m.groups) 0 opt, dur := 0, arrived := s.now
    work := .record i r.layer r.pos }

/-- A record that passed the checks is written once it is dispatched, or held in order behind what its layer holds. `ue`: an uncorrectable error
meets it in the datapath. -/
def State.takeRecord (s : State) (i : Nat) (req : Requester) (r : AppendRec) (ue : Bool) : State :=
  match s.seq? i with
  | none => s
  | some q =>
    let s := (s.setSeq i fun q => { q with next := q.next.set r.layer (r.pos + r.count) }).workStarts i
    let s := s.offer (s.recordItem i q req r)
    if q.held.any fun h => h.rc.layer == r.layer then s.holdRecord i req r .behind
    else if s.waits (.record i r.layer r.pos) then s.holdRecord i req r .credit
    else
      match s.holdCause i q r false with
      | some c => s.holdRecord i req r c
      | none =>
        if ue then s.datapathUe i req r
        else
          match s.writeRecord i r with
          | some t => t.acceptRecord i req r
          | none => (s.holdRecord i req r .space).awaitSpace i q r

/-- Checks 4 to 7 of Table 4.5, and what follows. -/
def State.checkRecord (s : State) (i : Nat) (q : Seq) (req : Requester) (b : List Byte) (ue : Bool) : State :=
  let d := q.domain
  let layer := u16 b 4
  let pos := u32 b 8
  let n := u8 b 6
  let m := s.modelOf q
  let no := fun (s : State) (st : Status) => s.refuseRecord d i req layer pos n st
  if q.st = .poisoned then no s .poisoned
  else if decide (layer < m.layers) && s.tailPoisoned i q layer then no (s.poisonSeq i) .poisoned
  else if decide (b.length ≠ 12 + 4 * n + 4 * n * m.kvHeads * m.headDim) || decide (m.layers ≤ layer) || decide (2 ^ 24 < pos + n) then
    no s .format
  else
    let r := appendRec m b
    if !(r.k.all bf16Finite && r.v.all bf16Finite) then
      no ((s.bumpD d (Reg.xltAppNonfinLo + xltOff i)).setErrD d Err.xltAppNonfin (xltOff i)) .format
    else if pos ≠ q.nextPos layer then no s .order
    else
      let past := q.stripe.any fun t => decide (q.base + 2 ^ t.log < pos + n)
      let fits := s.recordFits i q r
      if s.tailForeign q layer (pos / 16) then no (s.domFault d i) .denied
      else if past || s.overR56 q r || !fits.1 then no s .noSpace
      else if !fits.2 then no (s.setErr Err.xltPtrFull) .noSpace
      else s.takeRecord i req r ue

/-- An append record arrives (R82): checks 1 to 3, the wait behind a held truncate (R58), and the rest. -/
def State.appendArrives (s : State) (req : Requester) (d : Nat) (b : List Byte) (ue : Bool := false) : State :=
  let layer := if b.length < 12 then 0 else u16 b 4
  let pos := if b.length < 12 then 0 else u32 b 8
  let n := if b.length < 12 then 0 else u8 b 6
  let inst := if b.length < 4 then 0 else u32 b 0 % 2
  match (if b.length < 4 then .error .format else s.findSeq d (u32 b 0)) with
  | .ok (i, q) =>
    let s := if (s.xlt.lastDom.get? (i % 2)).any fun o => o != d then s.bump Reg.lveScrubLo else s
    let s := { s with xlt := { s.xlt with lastDom := s.xlt.lastDom.set (i % 2) d } }
    if q.trunc.isSome then s.setSeq i fun q => { q with waiting := q.waiting ++ [.append req b] }
    else if !appendShape b then s.refuseRecord d i req layer pos n .format
    else if q.st = .draining then s.refuseRecord d i req layer pos n .unavailable
    else s.checkRecord i q req b ue
  | .error st =>
    s.refuseRecord d inst req layer pos n (if appendShape b then st else .format)

/-- The records held behind one that failed complete with `E_ORDER` (R83). -/
def State.failBehind (s : State) (i layer : Nat) (hs : List HeldRec) : State :=
  let d := ((s.seq? i).map Seq.domain).getD 0
  let s := s.setSeq i fun q => { q with held := q.held.filter fun h => h.rc.layer != layer }
  s.forEach hs fun h t => (t.refuseRecord d i h.req layer h.rc.pos h.rc.count .order).workEnds i

/-- A held record fails: it completes with a code, every record of its layer behind it with `E_ORDER`, and the expected
position returns (R83). -/
def State.failHeld (s : State) (i layer : Nat) (st : Status) (rest : Status) : State :=
  match s.seq? i with
  | none => s
  | some q =>
    let mine := q.held.filter fun h => h.rc.layer == layer
    match mine with
    | [] => s
    | h :: hs =>
      let s := (s.setSeq i fun q => { q with
        held := q.held.filter fun h => h.rc.layer != layer, next := q.next.set layer h.rc.pos }).endStall (.held i layer)
      let s := ((s.refuseRecord q.domain i h.req layer h.rc.pos h.rc.count st).workEnds i)
      s.forEach hs fun h t => (t.refuseRecord q.domain i h.req layer h.rc.pos h.rc.count rest).workEnds i

/-- The first held record of a layer is held for a cause: where it is a new one, a stall begins or ends, and a hold for a
rescale is counted (R78, R182). -/
def State.reholdFirst (s : State) (i : Nat) (q : Seq) (h : HeldRec) (c : HoldCause) : State :=
  let layer := h.rc.layer
  let set := fun (s : State) => s.setSeq i fun q =>
    { q with held := updFirst (fun h => h.rc.layer == layer) (fun h => { h with cause := c }) q.held }
  let pre := q.st == .preempted || (s.preempting i && !h.before)
  let s := if h.cause = .credit ∧ c ≠ .credit then s.bumpD q.domain (Reg.xltAppHoldLo + xltOff i) else s
  match h.cause, c with
  | .stall _, .stall _ => s
  | _, .stall k => (set s).beginStall (.held i layer) q.domain k (s.tailFrames i q layer (h.rc.pos / 16)).head? pre
  | .rescale, .rescale => s
  | _, .rescale => ((set s).endStall (.held i layer)).rescaleHold i q.domain layer
  | _, _ => (set s).endStall (.held i layer)

/-- Try to write the first held record of a layer, and then those behind it (R83). `ue`: an uncorrectable error in the
datapath meets the first that is written. -/
def State.drainHeld (s : State) (i layer : Nat) (ue : Bool) : Nat → State
  | 0 => s
  | n + 1 =>
    match s.seq? i with
    | none => s
    | some q =>
      match q.held.find? fun h => h.rc.layer == layer with
      | none => s
      | some h =>
        let tail := s.tailFrames i q layer (h.rc.pos / 16)
        let bad := tail.any fun f => match f with
          | .page _ l g p => ((q.ptes.get? (l, g, p)).map fun e => s.pagePoison i l g p e).getD false
          | _ => false
        if q.st ≠ .preempted ∧ bad then (s.poisonSeq i).failHeld i layer .poisoned .order
        else if s.tailForeign q layer (h.rc.pos / 16) then (s.domFault q.domain i).failHeld i layer .denied .order
        else if s.waits (.record i layer h.rc.pos) then s.reholdFirst i q h .credit
        else
          match s.holdCause i q h.rc h.before with
          | some c => s.reholdFirst i q h c
          | none =>
            let s := s.workResumes i
            let take := fun (s : State) => ((s.setSeq i fun q => { q with
              held := ((takeFirst (fun (x : HeldRec) => x.rc.layer == layer) q.held).map Prod.snd).getD q.held }).endStall
                (.held i layer)).endWait (.rescale i layer)
            if ue then
              let rest := q.held.filter fun x => x.rc.layer == layer
              let s := (take s).datapathUe i h.req h.rc
              s.failBehind i layer (rest.drop 1)
            else
              match s.writeRecord i h.rc with
              | some t => ((take t).acceptRecord i h.req h.rc).drainHeld i layer false n
              | none =>
                let fits := s.recordFits i q h.rc
                if fits.1 && fits.2 then (s.reholdFirst i q h .space).awaitSpace i q h.rc
                else (if fits.1 then s.setErr Err.xltPtrFull else s).failHeld i layer .noSpace .order

end Sys2Proof.Machine
end

