-- ==== Sys2Proof/Machine/AttNum.lean ====
section
/-! DEFINITION. Machine/AttNum.lean: kept sets, the partition of a step into tasks, and the numerics of a task (R90 to R92,
R97 to R105, R107, R112). -/

namespace Sys2Proof.Machine

/-! ### Kept sets and pages (R92, R93) -/

/-- The kept positions of a query within `[lo, hi)`, as disjoint ranges in order. -/
def Query.kept (q : Query) (lo hi : Nat) : List (Nat × Nat) :=
  let c := q.ctx
  let all :=
    if q.window = 0 ∨ c - q.window ≤ min q.sinks c then [(0, c)]
    else [(0, min q.sinks c), (c - q.window, c)]
  (all.map fun r => (max r.1 lo, min r.2 hi)).filter fun r => decide (r.1 < r.2)

/-- Whether a position lies in one of some ranges. -/
def inRanges (rs : List (Nat × Nat)) (t : Nat) : Bool := rs.any fun r => decide (r.1 ≤ t) && decide (t < r.2)

/-- Positions in some disjoint ranges. -/
def countRanges (rs : List (Nat × Nat)) : Nat := sumNat (rs.map fun r => r.2 - r.1)

/-- The pages that ranges touch, in order, from a page on. -/
def pagesFrom : List (Nat × Nat) → Nat → List Nat
  | [], _ => []
  | (a, b) :: rest, p =>
    let lo := max (a / 16) p
    let hi := (b + 15) / 16
    (List.range (hi - lo)).map (lo + ·) ++ pagesFrom rest (max hi p)

/-- The kept positions of a page, as positions in the page. -/
def keptIn (rs : List (Nat × Nat)) (page : Nat) : List Nat := (List.range 16).filter fun t => inRanges rs (page * 16 + t)

/-- The low stripe of a query: the stripe of its smallest kept position. -/
def Query.lowStripe (q : Query) (log : Nat) : Nat := (((q.kept 0 q.ctx).head?.map Prod.fst).getD 0) / 2 ^ log

/-! ### The partition (R104, R105, R107, R112) -/

/-- Consecutive slices of pages, the first ones a page longer (R105, step 2). -/
def splitPages (pages : List Nat) : Nat → Nat → List (List Nat)
  | _, 0 => []
  | extra, n + 1 =>
    -- `extra` slices take one page more; the length that remains is shared by `n + 1` slices
    let k := (pages.length - extra) / (n + 1) + (if extra = 0 then 0 else 1)
    pages.take k :: splitPages (pages.drop k) (extra - 1) n

/-- `N` slices of some pages. -/
def slicesOf (pages : List Nat) (n : Nat) : List (List Nat) := splitPages pages (pages.length % n) n

/-- The least power of two not below a number. -/
def ceilPow2 (n : Nat) : Nat := if n ≤ 1 then 1 else 2 ^ ((n - 1).log2 + 1)

/-- The bucket of a kept set (R104). -/
def bucketOf (kept : Nat) : Nat := max 512 (ceilPow2 kept)

/-- Query heads of one KV head (R91). -/
def Model.r (m : Model) : Nat := m.qHeads / max m.kvHeads 1

/-- The query heads of consecutive KV heads. -/
def Model.rows (m : Model) (v n : Nat) : List Nat := (List.range (n * m.r)).map (v * m.r + ·)

/-- The units of work of one slice, with the number of KV heads that a unit may take and whether it stays in a head group
(R105 steps 1 and 3, R107 step 3). -/
def Model.units (m : Model) (k : Nat) (inGroup : Bool) : List (List Nat) :=
  if 64 < m.r then
    (List.range m.kvHeads).flatMap fun v => chunks 64 (ceilDiv m.r 64) (m.rows v 1)
  else
    let runs := if inGroup then (List.range m.groups).map fun h => (h * m.g, min m.g (m.kvHeads - h * m.g)) else [(0, m.kvHeads)]
    runs.flatMap fun r => (List.range (ceilDiv r.2 (max k 1))).map fun j => m.rows (r.1 + j * max k 1) (min (max k 1) (r.2 - j * max k 1))

/-- How a step is cut: its slices, the units of each, and its bucket. -/
structure Cut where
  slices : List (List Nat)
  units : List (List Nat)
  bucket : Nat
  deriving DecidableEq, Repr

/-- The heads that one task of an unsplit throughput step takes (R105, step 3). -/
def headsPerTask (nr bucket : Nat) : Nat :=
  let k := min (min 4 (max 1 (4096 / bucket))) (64 / nr)
  max 1 (min k (98304 / (nr * bucket)))

/-- Cut a step: `nc` cores in service, the canonical slice length for a deterministic sequence, and the range of positions
that this device holds. -/
def cutStep (m : Model) (latency : Bool) (det : Option Nat) (nc lo hi : Nat) (kept : List (Nat × Nat)) : Cut :=
  let pages := pagesFrom kept 0
  let nr := max 1 (min m.r 64)
  let b := bucketOf (countRanges kept)
  match det with
  | some ds =>
    let first := lo / ds
    { slices := (List.range (ceilDiv hi ds - first)).map fun j => pages.filter fun p => p * 16 / ds == first + j
      units := m.units (64 / nr) false, bucket := b }
  | none =>
    if latency then { slices := slicesOf pages (max 1 (min nc pages.length)), units := m.units (64 / nr) false, bucket := b }
    else
      let pt := min 65536 (2 ^ (98304 / nr).log2)
      let f := max 1 (b / pt)
      { slices := slicesOf pages f, units := m.units (if f = 1 then headsPerTask nr b else 1) true, bucket := b }

/-- Scores of a task that R102 sends to the spill pool: rows, kept positions of its slice. -/
def spillOf (latency : Bool) (nr n : Nat) : Nat :=
  let part := if latency then 32768 else 98304
  nr * (n - min 65536 (16 * (part / (16 * max nr 1))))

/-- Kept positions of a slice. -/
def sliceKept (kept : List (Nat × Nat)) (pages : List Nat) : Nat := sumNat (pages.map fun p => (keptIn kept p).length)

/-- The spill need of a cut, in bytes (R102). -/
def Cut.spillNeed (c : Cut) (latency : Bool) (kept : List (Nat × Nat)) : Nat :=
  4 * sumNat (c.slices.map fun p =>
    let n := sliceKept kept p
    sumNat (c.units.map fun u => spillOf latency u.length n))

/-! ### Elements (R74) -/

/-- One key or value vector as stored: element values before scales, scales, and outliers by channel. -/
structure ElemVec where
  f : List Dyadic
  sc : List Dyadic
  outl : List (Nat × Dyadic)
  deriving DecidableEq, Repr

/-- The used outlier slots of a head: slot and channel (R79). -/
def Model.outlierSlots (m : Model) (layer kv : Nat) : List (Nat × Nat) :=
  if m.format = 4 then
    ((((m.outliers.drop (4 * (layer * m.kvHeads + kv))).take 4).map BitVec.toNat).zipIdx.filter fun x => x.1 != 0xFF).map
      fun x => (x.2, x.1)
  else []

/-- The vector of one position: half 0 is K, 1 is V; `h` is the head's index in its group. -/
def elemVec (m : Model) (layer kv half h t : Nat) (read : Nat → Nat → List Byte) : ElemVec :=
  let d := m.headDim
  let g := m.g
  let side := 4096 * 2 ^ m.fc
  let row := h * 16 + t
  match m.format with
  | 1 => { f := (readBf16 (read (half * 32 * g * d + 2 * (row * d)) (2 * d)) 0 d).map bf16Val, sc := [], outl := [] }
  | 2 =>
    { f := (read (half * 16 * g * d + row * d) d).map fp8Val
      sc := [f32Val (BitVec.ofNat 32 (ofLe (read (side + 8 * h + 4 * half) 4)))], outl := [] }
  | _ =>
    let codes := (read (half * 8 * g * d + row * d / 2) (d / 2)).flatMap fun b => [b.toNat % 16, b.toNat / 16]
    let outs := read (side + 2 * g * d + half * 64 * g + row * 4) 4
    { f := codes.map fun n => ⟨int4Val n, 0⟩
      sc := (readBf16 (read (side + half * g * d + 2 * (row * (d / 32))) (d / 16)) 0 (d / 32)).map bf16Val
      outl := (m.outlierSlots layer kv).map fun x => (x.2, fp8Val (outs.getD x.1 0#8)) }

/-! ### The three passes (R97 to R100) -/

/-- `rn`, or none where the rounded result is infinite (R100). -/
def rnFin (x : Dyadic) : Option Dyadic :=
  let y := rn x
  if f32Finite y then some (f32Val y) else none

/-- The same, as an FP32 value. -/
def rnFin32 (x : Dyadic) : Option F32 :=
  let y := rn x
  if f32Finite y then some y else none

/-- An exact sum of products. -/
def exactDot (a b : List Dyadic) : Dyadic := exactSum (List.zipWith Dyadic.mul a b)

/-- `dot` of a query row and a key (Table 5.6). -/
def dotOf (m : Model) (q : List Dyadic) (k : ElemVec) : Option Dyadic :=
  match m.format with
  | 1 => rnFin (exactDot q k.f)
  | 2 => (rnFin (exactDot q k.f)).bind fun x => rnFin ((k.sc.headD ⟨0, 0⟩).mul x)
  | _ =>
    let groups := List.zip (chunks 32 k.sc.length q) (chunks 32 k.sc.length k.f)
    let acc := (List.zip groups k.sc).foldl (fun (a : Option Dyadic) g =>
      a.bind fun a => (rnFin (exactDot g.1.1 g.1.2)).bind fun x => (rnFin (g.2.mul x)).bind fun y => rnFin (a.add y)) (some ⟨0, 0⟩)
    if m.format = 4 then
      acc.bind fun a => (rnFin (exactSum (k.outl.map fun o => (q.getD o.1 ⟨0, 0⟩).mul o.2))).bind fun x => rnFin (a.add x)
    else acc

/-- A score (R97). -/
def scoreOf (m : Model) (scale : F32) (q : List Dyadic) (k : ElemVec) : Option F32 :=
  (dotOf m q k).bind fun x => rnFin32 (x.mul (f32Val scale))

/-- `psum`, or none where a rounded sum is infinite. -/
def psumFin (xs : List F32) : Option F32 :=
  match pairTree (fun (a b : Option F32) => a.bind fun a => b.bind fun b => rnFin32 ((f32Val a).add (f32Val b)))
      (xs.length + 1) (xs.map some) with
  | some r => r
  | none => some 0

/-- The page values of all channels for one query row (Table 5.7): the kept vectors of the page with their weights. -/
def pageValue (m : Model) (vs : List (ElemVec × F32)) : Option (List F32) :=
  (List.range m.headDim).mapM fun c =>
    let fs := vs.map fun v => v.1.f.getD c ⟨0, 0⟩
    let slot := fun (v : ElemVec) => v.outl.find? fun o => o.1 == c
    match m.format with
    | 1 => rnFin32 (exactDot (vs.map fun v => bf16Val (toBf16 v.2)) fs)
    | 2 =>
      let σ := ((vs.head?.map fun v => v.1.sc.headD ⟨0, 0⟩).getD ⟨0, 0⟩)
      (rnFin (exactDot (vs.map fun v => bf16Val (toBf16 v.2)) fs)).bind fun x => rnFin32 (σ.mul x)
    | _ =>
      if (vs.head?.bind fun v => slot v.1).isSome then
        (vs.mapM fun v => rnFin32 ((f32Val v.2).mul (((slot v.1).map Prod.snd).getD ⟨0, 0⟩))).bind psumFin
      else
        let w := vs.map fun v => bf16Val (toBf16 (rn ((f32Val v.2).mul (v.1.sc.getD (c / 32) ⟨0, 0⟩))))
        rnFin32 (exactDot w fs)

/-- The empty partial (R101). -/
def emptyPartial (d : Nat) : Partial := { m := negInf, l := 0, o := List.replicate d 0 }

/-- `merge` (R101). -/
def mergePartial (a b : Partial) : Partial :=
  if a.m = negInf then b
  else if b.m = negInf then a
  else
    let m := fMax a.m b.m
    let fa := exp32 (fSub a.m m)
    let fb := exp32 (fSub b.m m)
    { m := m, l := fAdd (fMul fa a.l) (fMul fb b.l)
      o := List.zipWith (fun x y => fAdd (fMul fa x) (fMul fb y)) a.o b.o }

/-- The partials of slices merged in the tree of `psum`. -/
def mergeTree (d : Nat) (ps : List Partial) : Partial :=
  (pairTree mergePartial (ps.length + 1) ps).getD (emptyPartial d)

/-- The partial of one query head over pages of a slice (R97 to R99); none on overflow (R100). `read` reads the frame of a
page. -/
def headPartial (m : Model) (q : Query) (layer : Nat) (kept : List (Nat × Nat)) (pages : List Nat)
    (read : Nat → Nat → Nat → List Byte) (head : Nat) : Option Partial :=
  let kv := head / max m.r 1
  let h := kv % m.g
  let row := ((q.q.drop (head * m.headDim)).take m.headDim).map bf16Val
  let scale := if q.scale = 0 then defaultScale m.headDim else q.scale
  let at_ : List (Nat × List Nat) := pages.map fun p => (p, keptIn kept p)
  if at_.all fun x => x.2.isEmpty then some (emptyPartial m.headDim)
  else
    (at_.mapM fun (x : Nat × List Nat) => x.2.mapM fun t => scoreOf m scale row (elemVec m layer kv 0 h t (read x.1))).bind fun scores =>
      let mx := scores.flatten.foldl fMax negInf
      let ps := scores.map fun l => l.map fun s => exp32 (fSub s mx)
      let l := psum ps.flatten
      let vals := (List.zip at_ ps).filter fun x => !x.2.isEmpty
      (vals.mapM fun (x : (Nat × List Nat) × List F32) => pageValue m ((List.zip x.1.2 x.2).map fun y => (elemVec m layer kv 1 h y.1 (read x.1.1), y.2))).bind fun pvs =>
        ((List.range m.headDim).mapM fun c => psumFin (pvs.map fun v => v.getD c 0)).map fun o => { m := mx, l := l, o := o }

/-- The bytes of an output head (R101). -/
def outBytes (fp32 : Bool) (p : Partial) : List Byte :=
  p.o.flatMap fun x => let y := fDiv x p.l; if fp32 then leBytes 4 y.toNat else leBytes 2 (toBf16 y).toNat

/-- A result record (Table 5.4): header, output heads, and `M` and `L` where they are asked for. -/
def resultRecord (q : Query) (st : Status) (determ lockstep : Bool) (rows : List Partial) : List Byte :=
  let ok := decide (st = .ok)
  let flags := if ok then (if q.outFp32 then 1 else 0) + (if q.retPart then 2 else 0) + (if determ then 4 else 0)
    + (if lockstep then 8 else 0) else 0
  leBytes 4 q.handle ++ leBytes 2 q.layer ++ leBytes 1 st.code ++ leBytes 1 flags ++ leBytes 4 q.ctx ++ leBytes 4 q.stepTag
    ++ (if ok then
          rows.flatMap (outBytes q.outFp32)
            ++ (if q.retPart then (rows.flatMap fun p => leBytes 4 p.m.toNat) ++ (rows.flatMap fun p => leBytes 4 p.l.toNat) else [])
        else [])

/-- Bytes of the result record of a query on a model. -/
def Query.resultLen (q : Query) (m : Model) : Nat :=
  16 + m.qHeads * m.headDim * (if q.outFp32 then 4 else 2) + (if q.retPart then 8 * m.qHeads else 0)

/-- The header of a query record (Table 5.3); the heads are read once the model is known. -/
def readQuery (b : List Byte) : Query :=
  let mode := u8 b 6
  { handle := u32 b 0, layer := u16 b 4, latency := bit mode 0, outFp32 := bit mode 2, retPart := bit mode 3
    ctx := u32 b 8, window := u32 b 12, sinks := u16 b 16, scale := BitVec.ofNat 32 (u32 b 20), stepTag := u32 b 24, q := [] }

/-- `SCALE` of a record: not negative, not NaN and not infinite. -/
def scaleOk (x : F32) : Bool := !x.msb && f32Finite x

/-- Check 2 of Table 5.5. -/
def queryShape (b : List Byte) : Bool :=
  let q := readQuery b
  decide (28 ≤ b.length) && decide (u8 b 6 % 4 < 2) && decide (u8 b 6 < 16) && zeros b 7 1 && zeros b 18 2
    && decide (1 ≤ q.ctx) && decide (q.ctx ≤ 2 ^ 24) && decide (q.window ≤ 2 ^ 24) && scaleOk q.scale

end Sys2Proof.Machine
end

