-- ==== Sys2Proof/Machine/AttendOps.lean ====
section
/-! DEFINITION. Machine/AttendOps.lean: query records, steps, tasks and ring steps, from arrival to the result (chapters 5
and 6). -/

namespace Sys2Proof.Machine

/-! ### Cores (R107) -/

/-- A core. -/
def State.core (s : State) (c : Nat) : Core := s.att.cores.getD c {}

/-- A core changed. -/
def State.setCore (s : State) (c : Nat) (f : Core → Core) : State :=
  { s with att := { s.att with cores := s.att.cores.set c (f (s.core c)) } }

/-- Distance from the registers of `ATC` instance 0 to those of a core's cluster. -/
def atcOff (core : Nat) : Nat := core / 16 * 0x10000

/-- The `UNIT` word of a core, and of the merge unit of its cluster (Table 15.8). -/
def coreUnit (c : Nat) : Nat := unitWord 0x10 (c / 16) (c % 16)
/-- The merge unit of a cluster. -/
def mergeUnit (cluster : Nat) : Nat := unitWord 0x10 cluster 0 0x80

/-- Whether a core is out of service for good: itself, or through the merge unit of its cluster (R356). -/
def State.coreOut (s : State) (c : Nat) : Bool := (s.history (coreUnit c)).permanent || (s.history (mergeUnit (c / 16))).permanent

/-- Whether a core is in service: present, its cluster `ON`, not taken by a field test, not out of service. -/
def State.coreServes (s : State) (c : Nat) : Bool :=
  s.glb.variant.hasAttn && decide (c < 256) && s.islandOn (c / 16) && decide (s.flt.testCluster ≠ some (c / 16))
    && decide ((s.core c).st ≠ .off) && !s.coreOut c

/-- The cores in service, or in lockstep the even cores of the pairs in service. -/
def State.workers (s : State) : List Nat :=
  (List.range 256).filter fun c => s.coreServes c && (!s.att.lsActive || (c % 2 == 0 && s.coreServes (c + 1)))

/-- N_c of R107. -/
def State.inService (s : State) : Nat := s.workers.length

/-- Whether any attention cluster is `ON` (Table 5.5, check 8). -/
def State.anyCluster (s : State) : Bool := s.glb.variant.hasAttn && (List.range 16).any s.islandOn

/-! ### Ranges, cuts and costs -/

/-- The positions of a context that this device holds for a sequence (R123). -/
def Seq.held? (q : Seq) (c : Nat) : Nat × Nat :=
  match q.stripe with
  | some t => (q.base, min c (q.base + 2 ^ t.log))
  | none => (0, c)

/-- The kept set of a query on this device. -/
def Seq.keptOf (s : Seq) (q : Query) : List (Nat × Nat) := q.kept (s.held? q.ctx).1 (s.held? q.ctx).2

/-- The canonical slice length (R112). -/
def State.detSlice (s : State) : Nat := let v := s.fld Reg.atcGcfg 19 16; 256 * 2 ^ (if v ≤ 6 then v else 0)

/-- The cut of a query as it stands now. -/
def State.cutOf (s : State) (x : Seq) (q : Query) : Cut :=
  let r := x.held? q.ctx
  cutStep (s.modelOf x) q.latency (if x.determ then some s.detSlice else none) s.inService r.1 r.2 (x.keptOf q)

/-- Estimated cost of a step (Table 13.1): frames read once, two multiply-accumulates for each kept position, channel and
query head, and Causeway bytes. -/
def State.stepCost (s : State) (m : Model) (kept : List (Nat × Nat)) (opt : Nat) : Nat :=
  s.attnCost ((pagesFrom kept 0).length * m.groups * m.ext) (2 * countRanges kept * m.qHeads * m.headDim) opt

/-- The cost of a `Q_SUBMIT` as admission judges it on arrival. -/
def State.queryCost (b : List Byte) (s : State) (d : Nat) : Nat :=
  let q := readQuery b
  match s.findSeq d q.handle with
  | .ok (_, x) => let m := s.modelOf x; s.stepCost m (x.keptOf q) (b.length + q.resultLen m)
  | .error _ => s.attnCost 0 0 b.length

/-- Estimated duration of a step in ns: its frames at 18.12 TB/s, and 1 µs (Table 5.8, R8; log entry 42). -/
def stepNs (m : Model) (kept : List (Nat × Nat)) : Nat :=
  1000 + (pagesFrom kept 0).length * m.groups * m.ext / 18120

/-! ### Steps -/

/-- A step by its number. -/
def State.step? (s : State) (id : Nat) : Option Step := s.att.steps.find? fun t => t.id == id

/-- A step changed. -/
def State.modStep (s : State) (id : Nat) (f : Step → Step) : State :=
  { s with att := { s.att with steps := updFirst (fun t => t.id == id) f s.att.steps } }

/-- The own work of a step has ended: its tasks go, its spill space, its pins and its admitted cost are released, and the
clusters' query buffers are scrubbed (R23, R103, Table 14.9). -/
def State.endWork (s : State) (t : Step) : State :=
  let s := s.endStall (.step t.id)
  let ran := decide (t.phase = .running)
  let s := { s with
    att := { s.att with tasks := s.att.tasks.filter fun k => k.step != t.id, spillUsed := s.att.spillUsed - t.spillOwned }
    pwr := { s.pwr with items := s.pwr.items.filter fun i => i.work != Work.step t.id } }
  let s := s.modStep t.id fun t => { t with pins := [], spillOwned := 0, cost := 0 }
  let s := if ran then s.bump Reg.lveScrubLo else s
  s.release t.domain t.cost

/-- A result is counted (Table 5.11). -/
def State.countResult (s : State) (d : Nat) (latency : Bool) (st : Status) : State :=
  if !s.glb.variant.hasAttn then s
  else if st ≠ .ok then s.bumpD d Reg.atcQFailLo
  else s.bumpD d (if latency then Reg.atcQLatLo else Reg.atcQThrLo)

/-- A query record is refused with a header-only result (R95, R241). -/
def State.refuseQuery (s : State) (d : Nat) (r : Requester) (b : List Byte) (st : Status) (retry : Nat := 0) : State :=
  let q := readQuery b
  (s.countResult d q.latency st).complete r { status := st, retryUs := retry, out := resultRecord q st false false [] }

/-- A step completes: its result goes to its requester, and it leaves the device. -/
def State.completeStep (s : State) (t : Step) (st : Status) (rows : List Partial) : State :=
  let s := { s with att := { s.att with steps := s.att.steps.filter fun x => x.id != t.id } }
  let s := s.countResult t.domain t.q.latency st
  let s := s.complete t.req { status := st, out := resultRecord t.q st t.determ t.lockstep rows }
  s.workEnds t.seq

/-! ### Ring records (R129 to R134) -/

/-- The body of a ring partial record (Table 6.5). -/
def ringPartial (rsid layer : Nat) (st : Status) (ringStep hi : Nat) (determ : Bool) (es : List PartEntry) : List Byte :=
  let es := if st = .ok then es else []
  leBytes 4 rsid ++ leBytes 2 layer ++ leBytes 1 st.code ++ leBytes 1 es.length ++ leBytes 4 ringStep ++ leBytes 1 hi
    ++ leBytes 1 (if determ then 1 else 0) ++ leBytes 2 0
    ++ es.flatMap fun e => leBytes 1 e.lo ++ leBytes 1 e.hi ++ List.replicate 6 0#8
        ++ e.rows.flatMap fun p => leBytes 4 p.m.toNat ++ leBytes 4 p.l.toNat ++ p.o.flatMap fun x => leBytes 4 x.toNat

/-- Read the partials of a ring partial record on a model. -/
def readPartials (m : Model) (b : List Byte) : List PartEntry :=
  let d := m.headDim
  let one := 8 + m.qHeads * (8 + 4 * d)
  (chunks one (u8 b 7) (b.drop 16)).map fun e =>
    { lo := u8 e 0, hi := u8 e 1
      rows := (chunks (8 + 4 * d) m.qHeads (e.drop 8)).map fun p =>
        { m := BitVec.ofNat 32 (u32 p 0), l := BitVec.ofNat 32 (u32 p 4)
          o := (List.range d).map fun c => BitVec.ofNat 32 (u32 p (8 + 4 * c)) } }

/-- Whether `[a, c)` is a node of the tree of `psum` over `[lo, hi)` that splits at `b` (R133). -/
def nodeSplit : Nat → Nat → Nat → Nat → Nat → Nat → Bool
  | 0, _, _, _, _, _ => false
  | n + 1, lo, hi, a, b, c =>
    if hi - lo < 2 then false
    else
      let k := 2 ^ (hi - lo - 1).log2
      if a = lo ∧ c = hi then b == lo + k
      else if c ≤ lo + k then nodeSplit n lo (lo + k) a b c
      else if lo + k ≤ a then nodeSplit n (lo + k) hi a b c
      else false

/-- Merge the top of a stack of partials while it holds siblings (R133); the last entry is the top. -/
def detSettle (m : Nat) : Nat → List PartEntry → List PartEntry
  | 0, l => l
  | n + 1, l =>
    match l.reverse with
    | y :: x :: rest =>
      if nodeSplit 64 0 m x.lo x.hi y.hi then
        detSettle m n (rest.reverse ++ [{ lo := x.lo, hi := y.hi, rows := List.zipWith mergePartial x.rows y.rows }])
      else l
    | _ => l

/-- `det_push` (R133). -/
def detPush (l : List PartEntry) (p : List Partial) (k m : Nat) : List PartEntry :=
  detSettle m 8 (l ++ [{ lo := k, hi := k + 1, rows := p }])

/-- The partials that a member holds once its own work is done: its own pushed on what came from below (R132, R133). -/
def ringStack (determ : Bool) (m : Model) (r : RingRole) (below : List PartEntry) (own : List Partial) : List PartEntry :=
  if determ then
    let empty := (List.range m.qHeads).map fun _ => emptyPartial m.headDim
    let start := if r.k = r.low then (List.range r.low).foldl (fun l j => detPush l empty j (r.tail + 1)) [] else below
    detPush start own r.k (r.tail + 1)
  else
    match below with
    | b :: _ => [{ lo := r.low, hi := r.k + 1, rows := List.zipWith mergePartial b.rows own }]
    | [] => [{ lo := r.low, hi := r.k + 1, rows := own }]

/-- Book the end of a ring step at its originator: failures, the slow-step event and the longest step (R135). -/
def State.endRing (s : State) (t : Step) (st : Status) : State :=
  let ns := s.now - t.arrived
  let slow := s.fld Reg.cwyRingCfg 15 0
  let s := if st = .ok then s else s.bumpD t.domain Reg.cwyRingFailLo
  let s := if slow ≠ 0 ∧ usNs slow < ns then s.setEvt Evt.cwyRingSlow else s
  if s.conf t.domain || decide (ns ≤ s.reg Reg.cwyRingLatMax) then s else s.setReg Reg.cwyRingLatMax (min ns (2 ^ 32 - 1))

/-- Answer a ring step at a lower member, or complete it at the originator, once what R134 waits for is known. -/
def State.ringCombine (s : State) (id : Nat) : State :=
  match s.step? id with
  | none => s
  | some t =>
    match t.ring with
    | none => s
    | some r =>
      let below : Option (Status × List PartEntry) := if r.k = r.low then some (.ok, []) else r.received
      match r.own, below with
      | some own, some inc =>
        let st := if inc.1 ≠ .ok then inc.1 else own.1
        let m := ((s.seq? t.seq).map s.modelOf).getD { layers := 1, kvHeads := 1, qHeads := 1, headDim := 32, format := 1, maxHg := 0 }
        let es := if st = .ok then ringStack t.determ m r inc.2 own.2 else []
        let s := s.setSlot r.slot fun x => { x with forwarding := x.forwarding.filter (· != id) }
        if r.origin then
          let s := if r.low < r.tail then s.endRing t st else s
          s.completeStep t st ((es.head?.map PartEntry.rows).getD [])
        else
          let s := { s with att := { s.att with steps := s.att.steps.filter fun x => x.id != id } }
          (s.complete t.req { status := st, out := ringPartial r.rsid t.q.layer st r.ringStep (r.k + 1) t.determ es }).workEnds t.seq
      | _, _ => s

/-- The own work of a step ends with a status and, where it is `OK`, the merged partials of every query head. -/
def State.finishWork (s : State) (id : Nat) (st : Status) (rows : List Partial) : State :=
  match s.step? id with
  | none => s
  | some t =>
    let s := s.endWork t
    match t.ring with
    | none => s.completeStep t st rows
    | some _ => (s.modStep id fun t => { t with ring := t.ring.map fun r => { r with own := some (st, rows) } }).ringCombine id

/-- A step fails: at once where none of its tasks is on a core, otherwise when those have ended (R107). -/
def State.failStep (s : State) (id : Nat) (st : Status) : State :=
  let onCore := s.att.tasks.any fun k => k.step == id && (match k.st with | .running _ | .suspended _ => true | _ => false)
  if onCore then
    let s := { s with att := { s.att with tasks := s.att.tasks.filter fun k => !(k.step == id && k.st == TaskState.waiting) } }
    s.modStep id fun t => { t with fail := match t.fail with | some f => some f | none => some st }
  else s.finishWork id st []

/-! ### Resolution and cutting -/

/-- The pages of one slice that a task of a step reads, as entries: layer, head group, page. -/
def stepKeys (m : Model) (layer : Nat) (pages : List Nat) : List (Nat × Nat × Nat) :=
  (List.range m.groups).flatMap fun h => pages.map fun p => (layer, h, p)

/-- The pages that a step needs: key, entry and frame. A page that is not mapped has none. -/
def State.stepPages (s : State) (t : Step) : List ((Nat × Nat × Nat) × Pte × FrameId) :=
  match s.seq? t.seq with
  | none => []
  | some x =>
    (stepKeys (s.modelOf x) t.q.layer (pagesFrom (x.keptOf t.q) 0)).filterMap fun k =>
      (x.ptes.get? k).map fun e => (k, e, e.frame t.seq k.1 k.2.1 k.2.2)

/-- Whether a frame can be read in place: its home is T0 and no move of it is past the wait for pins. -/
def State.inT0 (s : State) (f : FrameId) : Bool :=
  ((s.frame? f).map fun i => decide (i.home.tier = 0)).getD false && !(s.moveOf f).any fun m => m.st == .commit

/-- Cut a resolved step into tasks; they join the latency queue or the FIFO of their bucket (R104 to R107, R112). -/
def State.cutTasks (s : State) (t : Step) : State :=
  match s.seq? t.seq with
  | none => s.failStep t.id .internal
  | some x =>
    let kept := x.keptOf t.q
    let c := s.cutOf x t.q
    let need := c.spillNeed t.q.latency kept
    if kept.isEmpty then
      let m := s.modelOf x
      s.finishWork t.id .ok ((List.range m.qHeads).map fun _ => emptyPartial m.headDim)
    else if !s.anyCluster || s.inService == 0 then s.failStep t.id .unavailable
    else if s.spillBytes < need then s.failStep t.id .noSpace
    else
      let cells := c.slices.zipIdx.flatMap fun sl => c.units.map fun u => (sl.2, sl.1, u)
      let cells := cells.filter fun x => decide (0 < sliceKept kept x.2.1)
      let tasks := cells.zipIdx.map fun x =>
        ({ id := s.att.nextTask + x.2, step := t.id, domain := t.domain, slice := x.1.1, heads := x.1.2.2, latency := t.q.latency
           bucket := c.bucket, since := s.now, spill := spillOf t.q.latency x.1.2.2.length (sliceKept kept x.1.2.1) } : Task)
      let s := { s with att := { s.att with tasks := s.att.tasks ++ tasks, nextTask := s.att.nextTask + tasks.length } }
      let s := if need = 0 then s
        else (s.bumpD t.domain Reg.atcSpillSteps).bumpD t.domain Reg.atcSpillMib (ceilDiv need (2 ^ 20))
      s.modStep t.id fun t => { t with phase := .running, slices := c.slices, spillNeed := need, lockstep := s.att.lsActive }

/-- Resolve a step's pages: stall while the sequence is pre-empted, refuse an entry of another domain, consume poison, stall on
the first page that is not in T0 or whose translation misses, or pin and cut (R23, R24, R68, R93). -/
def State.resolveStep (s : State) (id : Nat) : State :=
  match s.step? id with
  | none => s
  | some t =>
    match s.seq? t.seq with
    | none => s.failStep id .internal
    | some x =>
      let ps := s.stepPages t
      -- a member with an empty kept set translates and reads nothing (R130)
      let pre := (x.st == .preempted || (s.preempting t.seq && !t.before)) && !(x.keptOf t.q).isEmpty
      let metaAway := fun (p : (Nat × Nat × Nat) × Pte × FrameId) =>
        (s.firstOut (p.2.1.metaPath t.seq p.1.1 p.1.2.1 p.1.2.2)).isSome
      let first := ps.find? fun p => metaAway p || !s.inT0 p.2.2
      let stall := fun (s : State) =>
        let p := first.orElse fun _ => ps.head?
        let f := (p.map fun p => p.2.2).getD (.bdPage 0)
        let s := s.modStep id fun t => { t with
          phase := .stalled, pins := if pre then [] else (ps.filter fun p => s.inT0 p.2.2).map fun p => p.2.2 }
        if s.slc.stalls.any fun y => y.who == .step id then s
        else s.beginStall (.step id) t.domain (s.stallCause pre (first.any metaAway) f) (some f) pre
      if pre then stall s
      else if ps.any fun p => s.foreignPte t.domain p.2.1 then (s.domFault t.domain t.seq).failStep id .denied
      else if ps.any fun p => s.pagePoison t.seq p.1.1 p.1.2.1 p.1.2.2 p.2.1 then (s.poisonSeq t.seq).failStep id .poisoned
      else if first.isSome then stall s
      else
          let s := (s.workResumes t.seq).endStall (.step id)
          let s := s.modStep id fun t => { t with pins := ps.map fun p => p.2.2 }
          match s.step? id with
          | some t => s.cutTasks t
          | none => s

/-! ### Admission and holds (R21, R131, R294) -/

/-- Queue a step for the scheduler. -/
def State.queueStep (s : State) (id : Nat) : State :=
  match s.step? id with
  | none => s
  | some t =>
    let m := ((s.seq? t.seq).map fun x => stepNs (s.modelOf x) (x.keptOf t.q)).getD 1000
    let s := s.modStep id fun t => { t with phase := .pending }
    s.enqueue { domain := t.domain, cls := .att, latency := t.q.latency, cost := t.cost, dur := m, arrived := t.arrived, work := .step id }

/-- The last position of the step's context that this device holds has been accepted (R21, R131). -/
def State.ready? (s : State) (t : Step) : Bool :=
  match s.seq? t.seq with
  | none => true
  | some x => decide ((x.held? t.q.ctx).2 ≤ x.accPos t.q.layer)

/-- Add a step whose record passed the checks: it is held, or it goes to the scheduler. -/
def State.addStep (s : State) (t : Step) : State :=
  let s := { s with att := { s.att with steps := s.att.steps ++ [t], nextStep := t.id + 1 } }
  let s := (s.admitWork t.domain t.cost).workStarts t.seq
  if s.ready? t then s.queueStep t.id
  else
    let s := if t.ring.any fun r => !r.origin then s else s.bumpD t.domain Reg.atcQholdLo
    if t.ring.isSome then s.bumpD t.domain Reg.cwyRingHoldLo else s

/-! ### Ring steps: sending (R129, R130) -/

/-- The ring slot of a sequence, where it is a stripe. -/
def State.slotOfSeq (s : State) (x : Seq) : Option (Nat × RingSlot) := x.stripe.map fun t => (t.slot, s.slot t.slot)

/-- The body of a `RING_QUERY` of kind `STEP` (Table 6.4). -/
def ringQueryBody (rsid : Nat) (q : Query) (low tail ringStep : Nat) (scale : F32) : List Byte :=
  let mode := (if q.latency then 1 else 0) + (if q.outFp32 then 4 else 0) + (if q.retPart then 8 else 0)
  leBytes 4 rsid ++ leBytes 2 q.layer ++ leBytes 1 mode ++ leBytes 1 0 ++ leBytes 4 q.ctx ++ leBytes 4 q.window
    ++ leBytes 2 q.sinks ++ leBytes 1 low ++ leBytes 1 tail ++ leBytes 4 scale.toNat ++ leBytes 4 ringStep ++ leBytes 4 0
    ++ q.q.flatMap fun v => leBytes 2 v.toNat

/-- Whether the device may still send QUERY messages in a session: it has sent no `DETACH` (R254). -/
def State.queriesOn (s : State) (i : Nat) : Bool := ((s.cwy.sessions.get? i).map fun x => !x.detachSent).getD false

/-- Whether a step may be forwarded to the predecessor of a slot now. -/
def State.slotPasses (s : State) (r : RingSlot) : Bool :=
  (decide (r.st = .ready) || decide (r.st = .degraded)) && r.pred.any s.queriesOn

/-- Send a query of a step to the predecessor and keep it in the forwarding store (R244). -/
def State.sendRingQuery (s : State) (slot id : Nat) (body : List Byte) : State :=
  match (s.slot slot).pred with
  | none => s
  | some i =>
    let p := (((s.cwy.sessions.get? i).map fun x => (x.ports.keys.head?).getD 0)).getD 0
    let s := s.setSlot slot fun r => { r with forwarding := r.forwarding ++ [id] }
    let s := s.modStep id fun t => { t with ring := t.ring.map fun r => { r with forwarded := some s.now } }
    s.cwySend i p { mtype := 0x28, vc := 1, body := body }

/-! ### A query record arrives (R96) -/

/-- Bytes that a requester has room for in its output. -/
def State.outRoom (s : State) (r : Requester) : Nat :=
  match r with
  | .ring q => (((s.ring q.func q.ring).inflight.find? fun f => f.num == q.num).map fun f => u32 f.ops 8).getD 0
  | _ => 2 ^ 32

/-- Causeway bytes of a request and its reply, for the cost. -/
def causewayBytes (r : Requester) (n : Nat) : Nat := match r with | .cwy _ _ _ _ _ _ _ _ => n | _ => 0

/-- Checks 5 to 9 of Table 5.5 and the routing of R129, and what follows. -/
def State.checkQuery (s : State) (i : Nat) (x : Seq) (r : Requester) (b : List Byte) (arrived : Nat) : State :=
  let d := x.domain
  let m := s.modelOf x
  let h := readQuery b
  let n := m.qHeads * m.headDim
  let no := fun (s : State) (st : Status) => s.refuseQuery d r b st
  if x.st = .poisoned then no s .poisoned
  else if decide (b.length ≠ 28 + 2 * n) || decide (m.layers ≤ h.layer) || decide (s.outRoom r < h.resultLen m) then no s .format
  else
    let q := { h with q := readBf16 b 28 n }
    let c := s.cutOf x q
    let off := decide (q.ctx - 1 < x.base) || (x.stripe.any fun t => decide (x.base + 2 ^ t.log ≤ q.ctx - 1))
    if !q.q.all bf16Finite then no s .format
    else if x.accPos q.layer + 15 < q.ctx then no s .order
    else if !s.anyCluster then no s .unavailable
    else if s.spillBytes < c.spillNeed q.latency (x.keptOf q) then no s .noSpace
    else if x.stripe.isSome && off then
      no ((s.bumpD d Reg.cwyRingMisrouteLo).setErrD d Err.cwyRingMisroute) .format
    else
      let cost := s.stepCost m (x.keptOf q) (causewayBytes r (b.length + q.resultLen m))
      let t : Step := {
        id := s.att.nextStep, req := r, domain := d, seq := i, q := q, determ := x.determ, arrived := arrived, phase := .held, cost := cost }
      match r, s.admitRefuses d cost with
      | .ring _, true => (s.refuseAdmission d).refuseQuery d r b .busyRetry (s.retryHint d)
      | _, _ =>
        match x.stripe with
        | none => s.addStep t
        | some z =>
          let low := q.lowStripe z.log
          let slot := s.slot z.slot
          if slot.st = .leaving then no s .unavailable
          else if z.k ≤ low then
            s.addStep { t with ring := some { slot := z.slot, rsid := z.rsid, origin := true, ringStep := 0, k := z.k, low := z.k, tail := z.k } }
          else if !s.slotPasses slot then no (s.bumpD d Reg.cwyRingFailLo) .unavailable
          else if 64 ≤ slot.forwarding.length then no (s.bumpD d Reg.cwyRingFailLo) .busyRetry
          else
            let num := slot.nextStep + 1
            let num := if 2 ^ 32 ≤ num then 1 else num
            let role : RingRole := { slot := z.slot, rsid := z.rsid, origin := true, ringStep := num, k := z.k, low := low, tail := z.k }
            let s := s.setSlot z.slot fun r => { r with nextStep := num }
            let s := (s.bumpD d Reg.cwyRingOrigLo).addStep { t with ring := some role }
            let scale := if q.scale = 0 then defaultScale m.headDim else q.scale
            s.sendRingQuery z.slot t.id (ringQueryBody z.rsid q low z.k num scale)

/-- A query record arrives: checks 1 to 4 of Table 5.5, the wait behind a held truncate (R58), and the rest. -/
def State.queryArrives (s : State) (r : Requester) (d : Nat) (b : List Byte) (arrived : Nat) : State :=
  if !s.glb.variant.hasAttn then s.refuseQuery d r b .absent
  else if !queryShape b then s.refuseQuery d r b .format
  else
    match s.findSeq d (u32 b 0) with
    | .error st => s.refuseQuery d r b st
    | .ok (i, x) =>
      if x.trunc.isSome then s.setSeq i fun x => { x with waiting := x.waiting ++ [.query r b arrived] }
      else if x.st = .draining then s.refuseQuery d r b .unavailable
      else s.checkQuery i x r b arrived

/-! ### A ring query arrives (R130) -/

/-- The query that a `STEP` record carries, but for its heads. -/
def readRingQuery (b : List Byte) : Query :=
  let mode := u8 b 6
  { handle := 0, layer := u16 b 4, latency := bit mode 0, outFp32 := bit mode 2, retPart := bit mode 3, ctx := u32 b 8
    window := u32 b 12, sinks := u16 b 16, scale := BitVec.ofNat 32 (u32 b 20), stepTag := 0, q := [] }

/-- The form of a `STEP` record (Table 6.4). -/
def ringShape (b : List Byte) : Bool :=
  let q := readRingQuery b
  decide (32 ≤ b.length) && decide (u8 b 6 % 4 < 2) && decide (u8 b 6 < 16) && decide (u8 b 7 = 0) && zeros b 28 4
    && decide (1 ≤ q.ctx) && decide (q.ctx ≤ 2 ^ 24) && decide (q.window ≤ 2 ^ 24) && scaleOk q.scale && decide (q.scale ≠ 0)
    && decide (u8 b 18 ≤ u8 b 19) && decide (u8 b 19 < 64)

/-- The header-only answer to a ring query. -/
def ringHeader (b : List Byte) (st : Status) (hi : Nat) (ringStep : Nat) : List Byte :=
  ringPartial (u32 b 0) (u16 b 4) st ringStep hi false []

/-- Answer a ring query with a code. -/
def State.refuseRing (s : State) (r : Requester) (b : List Byte) (st : Status) (hi : Nat) (retry : Nat := 0) : State :=
  s.complete r { status := st, retryUs := retry, out := ringHeader b st hi (u32 b 24) }

/-- The live stripe sequence that an `RSID` of a slot names (R123, R128). -/
def State.liveStripe (s : State) (slot rsid : Nat) : Option (Nat × Seq) :=
  s.xlt.seqs.find? fun e => decide (e.2.st ≠ .retired) && decide (e.2.domain = (s.slot slot).domain)
    && e.2.stripe.any fun t => t.slot == slot && t.rsid == rsid

/-- The stripe sequence that an `RSID` of a slot names (R130): a live one, or one that has retired and whose binding stands while
the slot is open. -/
def State.stripeSeq (s : State) (slot rsid : Nat) : Option (Nat × Seq) :=
  (s.liveStripe slot rsid).orElse fun _ => s.xlt.seqs.find? fun e => decide (e.2.domain = (s.slot slot).domain)
    && e.2.stripe.any fun t => t.slot == slot && t.rsid == rsid

/-- A `STEP` record at a member whose stripe has been resolved. -/
def State.checkRingStep (s : State) (slot i : Nat) (x : Seq) (z : Stripe) (r : Requester) (b : List Byte) (arrived : Nat) : State :=
  let d := x.domain
  let m := s.modelOf x
  let n := m.qHeads * m.headDim
  let h := readRingQuery b
  let no := fun (s : State) (st : Status) => s.refuseRing r b st (z.k + 1)
  let low := u8 b 18
  let tail := u8 b 19
  if !(decide (low ≤ z.k) && decide (z.k < tail)) then no ((s.bumpD d Reg.cwyRingMisrouteLo).setErrD d Err.cwyRingMisroute) .format
  else if x.st = .draining ∨ x.st = .retired then no s .unavailable
  else if x.st = .poisoned then no s .poisoned
  else if decide (b.length ≠ 32 + 2 * n) || decide (m.layers ≤ h.layer) then no s .format
  else
    let q := { h with q := readBf16 b 32 n }
    let rs := s.slot slot
    if !q.q.all bf16Finite then no s .format
    else if rs.st = .leaving ∨ (low < z.k ∧ !s.slotPasses rs) then no s .unavailable
    else if low < z.k ∧ 64 ≤ rs.forwarding.length then
      let port := match r with | .cwy _ p _ _ _ _ _ _ => p | _ => 0
      (s.bumpD d (Reg.cwyRingBusyLo + cwyOff port)).refuseRing r b .busyRetry (z.k + 1) (s.retryHint d)
    else
      let cost := s.stepCost m (x.keptOf q) (b.length + 16)
      let role : RingRole := { slot := slot, rsid := z.rsid, origin := false, ringStep := u32 b 24, k := z.k, low := low, tail := tail }
      let t : Step := {
        id := s.att.nextStep, req := r, domain := d, seq := i, q := q, determ := x.determ, arrived := arrived, phase := .held
        cost := cost, ring := some role }
      let s := (s.bumpD d Reg.cwyRingMemberLo).addStep t
      if low < z.k then s.sendRingQuery slot t.id b else s

/-- A `STEP` record of a slot arrives (R130). -/
def State.ringStepArrives (s : State) (slot : Nat) (r : Requester) (b : List Byte) (arrived : Nat) : State :=
  if !s.glb.variant.hasAttn then s.refuseRing r b .absent 0
  else if !ringShape b then s.refuseRing r b .format 0
  else
    match s.stripeSeq slot (u32 b 0) with
    | none => s.refuseRing r b .denied 0
    | some (i, x) =>
      match x.stripe with
      | none => s.refuseRing r b .denied 0
      | some z =>
        if x.trunc.isSome then s.setSeq i fun x => { x with waiting := x.waiting ++ [.ringQuery r slot b arrived] }
        else s.checkRingStep slot i x z r b arrived

/-! ### Truncation (R58, R87, R88) -/

/-- The running hash and the token IDs after a truncate to a position at or below layer 0's expected position (R87). At a
stripe's base, the hash is the one received for it. -/
def State.runAfter (s : State) (q : Seq) (p : Nat) : DWord :=
  if p = 0 then 0
  else if p ≤ q.base then (((q.bdOf (p / 16)).bind s.xlt.bds.get?).bind fun b => if b.hashed then some b.pred else none).getD q.run
  else (((q.bdOf (p / 16 - 1)).bind s.xlt.bds.get?).bind fun b => if b.hashed then some b.hash else none).getD q.run

/-- Unmap every page from a position on, in every layer and head group, and set each expected position to min(n, P) (R58, R81);
on a stripe a position below its base is no exception. -/
def State.cutSeq (s : State) (i : Nat) (q : Seq) (p : Nat) : State :=
  let layers := List.range (s.modelOf q).layers
  let run := if p ≤ q.nextPos 0 then s.runAfter q (max p q.base) else q.run
  let gone := (q.ptes.filter fun e => decide (p / 16 ≤ e.1.2.2)).map Prod.fst
  let s := s.forEach gone fun k t => t.unmapPage i k
  s.setSeq i fun x => { x with
    next := layers.map fun l => (l, min (q.nextPos l) p), acc := layers.map fun l => (l, min (q.accPos l) p)
    run := run, tokens := if p ≤ q.nextPos 0 then [] else x.tokens
    unhashed := x.unhashed.filter fun u => decide (u.1 < p / 16)
    noIdx := if x.noIdx.any fun n => decide (p / 16 ≤ n) then none else x.noIdx
    st := if x.st = .poisoned then .idle else x.st, lastActive := s.now }

/-- `SEQ_TRUNCATE` (R58): refused, held while work is in flight, or carried out. -/
def State.truncateArrives (s : State) (r : Requester) (i p : Nat) : State :=
  match s.seq? i with
  | none => s.fail r .denied
  | some q =>
    if q.trunc.isSome then s.setSeq i fun q => { q with waiting := q.waiting ++ [.truncate r p] }
    else if q.st = .draining then s.fail r .unavailable
    else if q.st = .poisoned ∧ s.firstPoison i q < p then s.fail r .poisoned
    else if q.inFlight ≠ 0 then (s.setSeq i fun q => { q with trunc := some (r, p) }).awaits (.truncate i)
    else (s.cutSeq i q p).complete r {}

/-! ### Waits for pins and for work in flight (R406) -/

/-- Whether nothing holds a `DRAINING` sequence any more (R57, R66). -/
def State.drained (s : State) (i : Nat) (q : Seq) : Bool :=
  decide (q.inFlight = 0) && q.unmapping.isEmpty && q.held.isEmpty && q.trunc.isNone && q.waiting.isEmpty
    && !(q.ptes.any fun e => s.pinned (e.2.frame i e.1.1 e.1.2.1 e.1.2.2))

/-- Whether work of a sequence that was in flight before its pre-emption has not completed (R179, step 3). -/
def State.executing (s : State) (i : Nat) : Bool :=
  s.att.steps.any (fun t => t.seq == i && t.before) || s.slc.pageReads.any (fun r => !r.obj && r.target == i)
    || (s.seq? i).any fun q => q.held.any HeldRec.before

/-- The first held record of a layer. -/
def Seq.firstHeld (q : Seq) (layer : Nat) : Option HeldRec := q.held.find? fun h => h.rc.layer == layer

/-- What an action waits for. -/
def State.waitEvents (s : State) (w : Wait) : List WaitEvent :=
  match w with
  | .commit n => ((s.slc.moves.find? fun m => m.seqNo == n).map fun m => WaitEvent.pin m.frame).toList
  | .unmap i k =>
    (((s.seq? i).bind fun q => q.unmapping.find? fun e => e.1 == k).map fun e =>
      WaitEvent.pin (e.2.frame i k.1 k.2.1 k.2.2)).toList
  | .rescale i l =>
    match s.seq? i with
    | some q => ((q.firstHeld l).map fun h => (s.tailFrames i q l (h.rc.pos / 16)).map WaitEvent.pin).getD []
    | none => []
  | .truncate i => [.work i]
  | .retire i =>
    WaitEvent.work i :: (((s.seq? i).map fun q => q.ptes.map fun e => WaitEvent.pin (e.2.frame i e.1.1 e.1.2.1 e.1.2.2)).getD [])
  | .preempt i => [.work i]

/-- Whether nothing holds back an action that waits: what it waited for has happened. -/
def State.waitOver (s : State) (w : Wait) : Bool :=
  s.waiting? w &&
  match w with
  | .commit n => (s.slc.moves.find? fun m => m.seqNo == n).any fun m => decide (m.st = .write) && !s.pinned m.frame
  | .unmap i k =>
    ((s.seq? i).bind fun q => q.unmapping.find? fun e => e.1 == k).any fun e => !s.pinned (e.2.frame i k.1 k.2.1 k.2.2)
  | .rescale i l => (s.seq? i).any fun q => (q.firstHeld l).any fun h => (s.holdCause i q h.rc h.before).isNone
  | .truncate i => (s.seq? i).any fun q => decide (q.inFlight = 0)
  | .retire i => (s.seq? i).any fun q => s.drained i q
  | .preempt i => !s.executing i

/-- Whether an action may begin: every action that began to wait for the same event before it, and that nothing holds back
any more, has begun (R406). -/
def State.mayBegin (s : State) (w : Wait) : Bool :=
  let mine := s.waitEvents w
  (s.slc.waits.takeWhile (· != w)).all fun y => !(s.waitEvents y).any mine.contains || !s.waitOver y

/-- The sequence and the arrival of what stalls: a step, or the first held record of a layer. -/
def State.stallerArrival (s : State) (w : Staller) : Option (Nat × Nat) :=
  match w with
  | .step id => (s.step? id).map fun t => (t.seq, t.arrived)
  | .held i l => ((s.seq? i).bind fun q => q.firstHeld l).map fun h => (i, h.since)
  | .read _ => none

/-- Whether nothing stalls a step or a held record any more. -/
def State.stallOver (s : State) (w : Staller) : Bool :=
  match w with
  | .step id => (s.step? id).any fun t => (s.seq? t.seq).any fun x => x.st != .preempted && !s.preempting t.seq
      && (s.stepPages t).all fun p => s.inT0 p.2.2 && (s.firstOut (p.2.1.metaPath t.seq p.1.1 p.1.2.1 p.1.2.2)).isNone
  | .held i l => (s.seq? i).any fun q => (q.firstHeld l).any fun h => (s.holdCause i q h.rc h.before).isNone
  | .read _ => false

/-- Whether held work of a sequence may go on after a restore: what arrived before it and waits no longer has gone (R180). -/
def State.releaseTurn (s : State) (w : Staller) : Bool :=
  let before := s.slc.stalls.takeWhile fun x => x.who != w
  match s.slc.stalls.find? fun x => x.who == w, s.stallerArrival w with
  | some x, some (i, a) => !x.pre || s.slc.stalls.all fun y =>
      y.who == w || !y.pre || (s.stallerArrival y.who).all fun z =>
        z.1 != i || decide (a < z.2) || (decide (a = z.2) && !before.contains y) || !s.stallOver y.who
  | _, _ => true

/-- What waited behind a truncate is checked now, in arrival order (R58). -/
def State.resumeWaiting (s : State) (i : Nat) : State :=
  match s.seq? i with
  | none => s
  | some x =>
    let s := s.setSeq i fun x => { x with waiting := [] }
    s.forEach x.waiting fun w t => match w with
      | .append r b => t.appendArrives r x.domain b
      | .truncate r p => t.truncateArrives r i p
      | .query r b at_ => t.queryArrives r x.domain b at_
      | .ringQuery r slot b at_ => t.ringStepArrives slot r b at_

/-! ### Losses (R135) -/

/-- Stripes whose running hash has not come and whose predecessor is lost stay unindexed (R127). -/
def State.chainLost (s : State) : State := s.forEach s.xlt.seqs.keys fun i t => t.chainLostAt i

/-- Steps forwarded to a predecessor that is lost, with no partial yet, take `E_UNAVAILABLE` from there (Table 6.8). -/
def State.ringLosses (s : State) : State :=
  let gone := s.att.steps.filter fun t => t.ring.any fun r =>
    r.forwarded.isSome && r.received.isNone && decide (r.low < r.k) && (s.slot r.slot).pred.isNone
  let s := s.forEach gone fun t u =>
    (u.modStep t.id fun t => { t with ring := t.ring.map fun r => { r with received := some (.unavailable, []) } }).ringCombine t.id
  s.chainLost

/-- Whether the device, as the member whose successor is the other end, should send a `HELLO` for a slot: it has no
successor session, no handshake for it runs, a handshake slot and a session slot are free on a port, and `RETRY_MS` has passed since the last one (R247, log entry 43). -/
def State.helloPort (s : State) (r : RingSlot) : Option Nat :=
  let wait := msNs (max (s.fld Reg.cwyGcfg 7 0) 1)
  let ports := (List.range 32).filter fun p =>
    r.succPorts.testBit p && decide ((s.port p).st = .ready) && s.hsFree p && s.slotFree p
  let busy := (List.range 32).any fun p => (s.port p).handshakes.any fun h => h.initiator && h.domain == r.domain && h.ringId == r.ringId
  if (r.st = .forming ∨ r.st = .degraded) ∧ r.succ.isNone ∧ !busy ∧ (r.helloAt.all fun t => decide (t + wait ≤ s.now))
  then ports.head? else none

/-- Send the `HELLO`s that are due (R121, Table 11.13). -/
def State.ringHellos (s : State) : State :=
  s.forEach s.cwy.slots fun e t =>
    match t.helloPort (t.slot e.1) with
    | none => t
    | some p =>
      let r := t.slot e.1
      let body := leBytes 1 0 ++ leBytes 1 1 ++ leBytes 2 r.domain ++ leBytes 2 r.ringId ++ leBytes 2 0 ++ leBytes 8 0
        ++ keyShares t.fresh ++ leBytes 3 0
      let body := body ++ signature 1 (sha384 ((t.port p).peerNonce ++ body))
      let h : Handshake := {
        id := t.cwy.nextHs, initiator := true, domain := r.domain, role := 1, ringId := r.ringId, helloBody := body, draw := t.fresh }
      let t := { t with fresh := t.fresh + 1, cwy := { t.cwy with nextHs := t.cwy.nextHs + 1 } }
      let t := t.setPort p fun q => { q with handshakes := q.handshakes ++ [h], lastUse := t.now }
      (t.setSlot e.1 fun r => { r with helloAt := some t.now }).sendPlain p { mtype := 0x02, vc := 0, body := body }

/-- The ports on which a session that the device initiated should send a `JOIN`: `READY` ports toward the same neighbour that
carry its `ID_HASH` and are not of the session yet (R121, R251). -/
def State.joinPorts (s : State) (r : RingSlot) (i : Nat) : List Nat :=
  match s.cwy.sessions.get? i with
  | none => []
  | some x =>
    if x.initiator && decide (x.st = .attached) then
      ((List.range 32).filter fun p => r.succPorts.testBit p && decide ((s.port p).st = .ready) && !x.ports.has p
        && !x.noJoin.contains p && (s.port p).peerHash == x.peer && s.hsFree p && decide (s.portSlots p < 16)
        && !(s.port p).handshakes.any fun h => h.initiator && h.join == some i).take (8 - x.ports.length)
    else []

/-- Send a `JOIN` (R247, R251). -/
def State.sendJoin (s : State) (i port : Nat) : State :=
  match s.cwy.sessions.get? i with
  | none => s
  | some x =>
    let head := leBytes 1 4 ++ leBytes 1 x.role ++ leBytes 2 x.domain ++ leBytes 2 x.ringId ++ leBytes 2 0 ++ leBytes 8 x.sessionId
      ++ nonce32 s.fresh
    let body := head ++ finMac x.prk "cwy join" (head ++ (s.port port).peerNonce)
    let h : Handshake := {
      id := s.cwy.nextHs, initiator := true, domain := x.domain, role := x.role, ringId := x.ringId, sessionId := x.sessionId
      th := body, prk := x.prk, acceptSent := some s.now, join := some i }
    let s := { s with fresh := s.fresh + 1, cwy := { s.cwy with nextHs := s.cwy.nextHs + 1 } }
    (s.setPort port fun q => { q with handshakes := q.handshakes ++ [h], lastUse := s.now }).sendPlain port
      { mtype := 0x02, vc := 0, body := body }

/-- Send the `JOIN`s that make the links to successors multipath (R121). -/
def State.ringJoins (s : State) : State :=
  s.forEach s.cwy.slots fun e t =>
    match (t.slot e.1).succ with
    | none => t
    | some i => t.forEach (t.joinPorts (t.slot e.1) i) fun p u => u.sendJoin i p

/-- Sessions that are closing by `DETACH` send `DONE`, or close, once nothing is missing (R254). -/
def State.detachSteps (s : State) : State :=
  s.forEach (s.cwy.sessions.filter fun e => decide (e.2.st = .detaching)) fun e t => t.detachStep e.1

/-- The audit entries of sessions attached and closed between two states (Table 14.19, kind 0x04). A close is no request
that could be refused: it leaves no entry where the log is full (log entry 44). -/
def State.sessionAudit (s t : State) : State :=
  let who := fun (x : Session) => ({ origin := 2, id := ((x.ports.keys.head?).getD 0) * 2 ^ 24 + x.sessionId % 2 ^ 24 } : Who)
  let closed := s.cwy.sessions.filter fun e => !t.cwy.sessions.has e.1
  let opened := t.cwy.sessions.filter fun e => !s.cwy.sessions.has e.1
  let t := t.forEach closed fun e u => if u.auditTakes then u.audit e.2.domain (who e.2) 0x04 0x03 (leBytes 8 e.2.sessionId) [] else u
  t.forEach opened fun e u => if u.auditTakes then u.audit e.2.domain (who e.2) 0x04 0x02 [] (leBytes 8 e.2.sessionId) else u

/-- What follows a command that may open or close sessions: ports that no lane serves fail, closing sessions go on, ring losses,
the entries of the log, and the `HELLO`s and `JOIN`s that are due. -/
def State.cwyFollow (s t : State) : State :=
  t.only { regs := true, ctrs := true, outs := true, fresh := true, xlt := true, att := true, pwr := true, hif := true
           flt := true, counts := true, aud := true, cwy := true } ((s.sessionAudit t.blindPorts.detachSteps.ringLosses).ringHellos).ringJoins

/-- The frame of a command that may open or close sessions and changes the parts of a scope alone. -/
def State.afterCwyIn (s : State) (c : Scope) (t : State) : State := s.afterIn c (s.cwyFollow t)

/-- The frame of a command of Causeway or of a ring. -/
def State.afterLink (s t : State) : State := s.afterIn .link (s.cwyFollow t)

/-- No cluster is left: steps that still have a task to dispatch complete with `E_UNAVAILABLE` (R107). -/
def State.clustersGone (s : State) : State :=
  if s.anyCluster then s
  else
    let ids := (s.att.steps.filter fun t => decide (t.phase = .running ∨ t.phase = .spillWait) && t.fail.isNone
      && s.att.tasks.any fun k => k.step == t.id && k.st == TaskState.waiting).map Step.id
    s.forEach ids fun id t => t.failStep id .unavailable

/-! ### Tasks (R101, R103, R106, R108) -/

/-- A task changed. -/
def State.modTask (s : State) (id : Nat) (f : Task → Task) : State :=
  { s with att := { s.att with tasks := updFirst (fun k => k.id == id) f s.att.tasks } }

/-- A task by its number. -/
def State.task? (s : State) (id : Nat) : Option Task := s.att.tasks.find? fun k => k.id == id

/-- The cores that run a task together: a pair in lockstep. -/
def State.team (s : State) (core : Nat) : List Nat := if s.att.lsActive then [core, core + 1] else [core]

/-- Whether a task may run on a core: its second run avoids the first core or pair while another is in service (R120), and, after
a mismatch in lockstep, the first cluster while another has a pair in service (R117). -/
def State.mayRun (s : State) (k : Task) (core : Nat) : Bool :=
  match k.avoid with
  | none => true
  | some a =>
    if k.avoidCluster && s.workers.any (fun w => w / 16 != a / 16) then decide (core / 16 ≠ a / 16)
    else decide (core ≠ a) || !(s.workers.any (· != a))

/-- Whether a task waits for its core: one of a step that waits for spill space does not. -/
def State.offered (s : State) (k : Task) (core : Nat) : Bool :=
  decide (k.st = .waiting) && s.mayRun k core
    && !(decide (0 < k.spill) && ((s.step? k.step).map fun t => decide (t.phase = .spillWait)).getD false)

/-- The oldest latency task (R106, step 1). -/
def State.latencyTask (s : State) (core : Nat) : Option Task := s.att.tasks.find? fun k => k.latency && s.offered k core

/-- The throughput task that a core takes (R106, step 2): the oldest head, or the oldest other head of the domain that the T
partitions hold within the affinity window. The oldest head stands where it is of that domain itself (log entry 103). -/
def State.throughputTask (s : State) (core : Nat) : Option Task :=
  let heads := (List.range 14).filterMap fun j => s.att.tasks.find? fun k => !k.latency && k.bucket == 512 * 2 ^ j && s.offered k core
  let oldest := heads.foldl (fun (b : Option Task) k => match b with
    | some x => if k.since < x.since ∨ (k.since = x.since ∧ k.id < x.id) then some k else b
    | none => some k) none
  oldest.map fun o =>
    let aff := usNs (s.fld Reg.atcGcfg 15 8)
    match (s.core core).tDomain with
    | some d =>
      if o.domain = d then o
      else (heads.foldl (fun (b : Option Task) k =>
        if k.domain = d ∧ k.since < o.since + aff ∧ b.all (fun x => decide (k.since < x.since)) then some k else b) none).getD o
    | none => o

/-- Give a step its spill space, or make it wait in order of arrival (R103). True where the task may go on. -/
def State.takeSpill (s : State) (t : Step) : Bool × State :=
  if t.spillOwned ≠ 0 ∨ t.spillNeed = 0 then (true, s)
  else
    let earlier := s.att.steps.any fun x => decide (x.phase = .spillWait) && x.id != t.id && decide (x.arrived ≤ t.arrived)
    if !earlier && decide (s.att.spillUsed + t.spillNeed ≤ s.spillBytes) then
      let used := s.att.spillUsed + t.spillNeed
      let s1 := { s with att := { s.att with spillUsed := used } }
      let s1 := s1.modStep t.id fun t => { t with spillOwned := t.spillNeed, phase := .running }
      let mib := ceilDiv used (2 ^ 20)
      let s1 := if s.conf t.domain || decide (mib ≤ s.fld Reg.atcSpillUse 31 16) then s1
        else s1.setFld Reg.atcSpillUse 31 16 (min mib 65535)
      let high := decide (s.att.spillUsed * 10 ≤ s.spillBytes * 9) && decide (s.spillBytes * 9 < used * 10)
      (true, if high then s1.setEvt Evt.atcSpillHigh else s1)
    else if t.phase = .spillWait then (false, s)
    else (false, ((s.modStep t.id fun t => { t with phase := .spillWait }).bumpD t.domain Reg.atcSpillWait).setEvt Evt.atcSpillWait)

/-- Put a task on a core, or on a pair. A throughput task of another domain waits for the scrub of the T partitions. -/
def State.startTask (s : State) (core : Nat) (k : Task) : State :=
  match s.step? k.step with
  | none => s
  | some t =>
    match (if k.spill = 0 then (true, s) else s.takeSpill t) with
    | (false, s) => s
    | (true, s) =>
      let s := s.modTask k.id fun k => { k with st := .running core }
      s.forEach (s.team core) fun c u =>
        let x := u.core c
        let scrub := !k.latency && x.tDomain.any fun d => d != k.domain
        let u := if scrub then (u.bumpD k.domain (Reg.atcScrubTLo + atcOff c)).bump Reg.lveScrubLo else u
        u.setCore c fun x =>
          if k.latency then
            { x with st := .latency, suspended := if x.st = .throughput then x.task else x.suspended, task := some k.id }
          else { x with st := .throughput, task := some k.id, tDomain := some k.domain }

/-- The core or pair of a task becomes free: a suspended throughput task goes on where it stopped (R108, R109). -/
def State.leaveCore (s : State) (core : Nat) (k : Task) : State :=
  let back := (s.core core).suspended
  let s := if k.latency then s.bump Reg.lveScrubLo (s.team core).length else s
  let s := s.forEach (s.team core) fun c u => u.setCore c fun x =>
    if k.latency ∧ back.isSome then { x with st := .throughput, task := back, suspended := none }
    else { x with st := .idle, task := none }
  match back with
  | some b => if k.latency then s.modTask b fun k => { k with st := .running core } else s
  | none => s

/-- The bytes of a page's frame. -/
def State.pageBytes (s : State) (i : Nat) (x : Seq) (key : Nat × Nat × Nat) (off n : Nat) : List Byte :=
  match (x.ptes.get? key).bind fun e => s.frame? (e.frame i key.1 key.2.1 key.2.2) with
  | some f => s.frameBytes f.home off n
  | none => List.replicate n 0#8

/-- The partials of a task, by query head; none on overflow. -/
def State.runTask (s : State) (t : Step) (x : Seq) (k : Task) : Option (List (Nat × Partial)) :=
  let m := s.modelOf x
  let pages := t.slices.getD k.slice []
  k.heads.mapM fun h =>
    let hg := h / max m.r 1 / m.g
    (headPartial m t.q t.q.layer (x.keptOf t.q) pages (fun p => s.pageBytes t.seq x (t.q.layer, hg, p)) h).map fun p => (h, p)

/-- The pages of a task's slice carry poison (R93). -/
def State.slicePoisoned (s : State) (t : Step) (x : Seq) (k : Task) : Bool :=
  (stepKeys (s.modelOf x) t.q.layer (t.slices.getD k.slice [])).any fun key =>
    match x.ptes.get? key with
    | some e => s.pagePoison t.seq key.1 key.2.1 key.2.2 e
    | none => false

/-- The last task of a step has ended: the partials of its slices are merged (R101). -/
def State.stepEnds (s : State) (id : Nat) : State :=
  match s.step? id with
  | none => s
  | some t =>
    if s.att.tasks.any fun k => k.step == id && k.st != TaskState.ended then s
    else
      match t.fail with
      | some st => s.finishWork id st []
      | none =>
        match s.seq? t.seq with
        | none => s.finishWork id .internal []
        | some x =>
          let m := s.modelOf x
          s.finishWork id .ok ((List.range m.qHeads).map fun h =>
            mergeTree m.headDim ((List.range t.slices.length).map fun j => t.parts.getD (j, h) (emptyPartial m.headDim)))

/-- A task ends with its partial (R101), or with an overflow or poison (R93, R100). -/
def State.taskGood (s : State) (core : Nat) (k : Task) : State :=
  match s.step? k.step with
  | none => s.leaveCore core k
  | some t =>
    let s := (s.leaveCore core k).bumpD k.domain (Reg.atcTasksLo + atcOff core)
    let s := s.modTask k.id fun k => { k with st := .ended }
    if t.fail.isSome then s.stepEnds t.id
    else
      match s.seq? t.seq with
      | none => (s.failStep t.id .internal).stepEnds t.id
      | some x =>
        if s.slicePoisoned t x k then ((s.poisonSeq t.seq).failStep t.id .poisoned).stepEnds t.id
        else
          match s.runTask t x k with
          | none => ((s.setErrD t.domain Err.atcOvf (atcOff core)).failStep t.id .format).stepEnds t.id
          | some ps =>
            (s.modStep t.id fun t => { t with parts := ps.foldl (fun m p => m.set (k.slice, p.1) p.2) t.parts }).stepEnds t.id

/-- A task whose partial is withheld runs once more elsewhere, or fails its step (R117, R120, R338). -/
def State.taskAgain (s : State) (core : Nat) (k : Task) (cluster : Bool) : State :=
  let s := s.leaveCore core k
  let failed := ((s.step? k.step).map fun t => t.fail.isSome).getD true
  if failed then (s.modTask k.id fun k => { k with st := .ended }).stepEnds k.step
  else if k.rerun then
    (((s.modTask k.id fun k => { k with st := .ended }).setErr Err.atcRecompFail (atcOff core)).failStep k.step .internal).stepEnds k.step
  else
    (s.bumpD k.domain (Reg.atcRecomputeLo + atcOff core)).modTask k.id fun k =>
      { k with st := .waiting, rerun := true, avoid := some core, avoidCluster := cluster }

end Sys2Proof.Machine
end

