-- ==== Sys2Proof/Machine/Host.lean ====
section
/-! DEFINITION. Machine/Host.lean: the commands of the host link, the Carulo ring engine, the CXL ports, management and
PTP (chapter 12). -/

namespace Sys2Proof.Machine

/-! ### Rings -/

/-- `NOP` completes with `OK` (R266). -/
def execNop (q : CmdRef) (s : State) : Host.Outcome State Fault Refusal :=
  .next (s.afterIn .answer (s.runCmd q 0x00 fun s r _ _ => s.complete r {}))

/-- A doorbell that reaches no usable ring is ignored and counted (R43, R263). -/
def State.doorbellDrop (s : State) (fn : Nat) : State := s.bump (domReg fn Reg.domDbdropLo)

/-- Whether a doorbell reaches a ring that may take it (R43, R263). -/
def State.doorbellLive (s : State) (fn k : Nat) : Bool :=
  s.bound fn && decide (k < (s.func fn).rings) &&
    (decide ((s.ring fn k).st = .active) || decide ((s.ring fn k).st = .error))

/-- A new SQ tail (R263): out of range is cause 1, past the head is cause 6. -/
def State.sqTail (s : State) (fn k tail : Nat) : State :=
  let r := s.ring fn k
  let size := 2 ^ r.sqLog2
  if r.st ≠ .active then s
  else if size ≤ tail then s.ringFault fn k 1
  else
    let ahead := (tail + size - r.sqTail) % size
    let room := (r.sqHead + 2 * size - r.sqTail - 1) % size
    if room < ahead then s.ringFault fn k 6 else s.setRing fn k fun r => { r with sqTail := tail }

/-- A wake source of Table 13.4 fires in `STANDBY` or during quiesce (R301, R302). -/
def State.wakeSource (s : State) (source : Nat) : State :=
  if bit (s.reg Reg.pwrWakeEn) source then
    match s.pwr.standby with
    | .standby => { s with pwr := { s.pwr with standby := .waking, wakeSrc := source } }
    | .quiescing => s.abortSleep source
    | _ => s
  else s

/-- A new CQ head (R263): outside the span up to the last posted completion is cause 5. -/
def State.cqHead (s : State) (fn k head : Nat) : State :=
  let r := s.ring fn k
  let size := 2 ^ r.cqLog2
  if r.st ≠ .active then s
  else
    let ahead := (head + size - r.cqHead) % size
    if size ≤ head ∨ r.unread < ahead then s.ringFault fn k 5
    else s.setRing fn k fun r => { r with cqHead := head, unread := r.unread - ahead }

/-- A doorbell write (R263). Bits [31:16] are reserved: 1s there set `RSVD_WR` of the function's `DOM` page (R34). -/
def State.doorbell (s : State) (fn k v : Nat) (cq : Bool) : State :=
  let e := domReg fn 0x10
  let s := if v < 65536 then s else s.setReg e (s.reg e ||| 2 ^ 30)
  if !s.doorbellLive fn k then s.doorbellDrop fn
  else if cq then (s.wakeSource 0).cqHead fn k (v % 65536)
  else (s.wakeSource 0).sqTail fn k (v % 65536)

/-- A write of the submission doorbell. -/
def execSqDoorbell (fn ring value : Nat) (s : State) : Host.Outcome State Fault Refusal :=
  .next (s.afterIn .host (s.doorbell fn ring value false))

/-- A write of the completion doorbell. -/
def execCqDoorbell (fn ring value : Nat) (s : State) : Host.Outcome State Fault Refusal :=
  .next (s.afterIn .host (s.doorbell fn ring value true))

/-- The shape that an opcode asks of its command: smallest and largest `IN_LEN`, the operand bytes in use, and the least
`OUT_LEN` with its offset (Table 12.4, Table 14.3). None for an opcode not listed. -/
structure CmdShape where
  inMin : Nat := 0
  inMax : Nat := 0
  /-- Ranges of operand bytes in use: offset and length. -/
  used : List (Nat × Nat) := []
  outAt : Option (Nat × Nat) := none
  deriving DecidableEq, Repr

/-- The shapes of the commands. The output length of `ATTEND`, `PREFIX_LOOKUP` and `LVE_SPDM` depends on the record and is
judged with it. -/
def cmdShape (opcode : Nat) : Option CmdShape :=
  match opcode with
  | 0x00 => some {}
  | 0x01 => some { used := [(0, 24)] }
  | 0x02 => some { used := [(0, 2)] }
  | 0x08 => some { used := [(0, 2), (4, 4)] }
  | 0x09 => some { used := [(0, 4)] }
  | 0x0A => some { used := [(0, 8)] }
  | 0x0B => some { used := [(0, 4), (8, 12)], outAt := some (16, 16) }
  | 0x0C => some { inMax := 4194304, used := [(0, 8)] }
  | 0x0D => some { used := [(0, 4)] }
  | 0x0E => some { used := [(0, 5)] }
  | 0x0F => some { used := [(0, 5)] }
  | 0x10 => some { used := [(0, 12)] }
  | 0x18 => some { inMax := 33554432 }
  | 0x19 => some { inMax := 33554432, used := [(0, 12)], outAt := some (8, 16) }
  | 0x1A => some { inMax := 33554432, used := [(0, 12)], outAt := some (8, 32) }
  | 0x20 => some { used := [(0, 32)] }
  | 0x21 => some { used := [(0, 4)] }
  | 0x28 => some { used := [(0, 2), (4, 4)] }
  | 0x29 => some { inMax := 4294967295, used := [(0, 13)] }
  | 0x2A => some { used := [(0, 4)] }
  | 0x2B => some { used := [(0, 4)] }
  | 0x30 => some { used := [(0, 12)] }
  | 0x31 => some { used := [(0, 4)] }
  | 0x32 => some { used := [(0, 8)] }
  | 0x33 => some {}
  | 0x38 => some { used := [(0, 12)] }
  | 0x39 => some { used := [(0, 2)] }
  | 0x48 => some { inMin := 1, inMax := 4294967295, used := [(0, 12)] }
  | 0x49 => some { inMin := 1, inMax := 4096, used := [(0, 16)] }
  | 0x4A => some { used := [(0, 2)] }
  | 0x4B => some { used := [(0, 2), (8, 12)], outAt := some (16, 64) }
  | 0x4C => some { used := [(0, 1), (2, 2)] }
  | 0x4D => some { used := [(0, 12)] }
  | 0x4E => some { used := [(0, 8)] }
  | _ => none

/-- Whether operand byte `i` is in use. -/
def CmdShape.uses (c : CmdShape) (i : Nat) : Bool := c.used.any fun u => decide (u.1 ≤ i) && decide (i < u.1 + u.2)

/-- The first checks of R266 on a command: lengths, reserved bytes, `OUT_LEN`. -/
def shapeOk (e : List Byte) (c : CmdShape) : Bool :=
  let ops := e.drop 16
  let inLen := u32 e 4
  decide (u8 e 1 < 2) && decide (c.inMin ≤ inLen) && decide (inLen ≤ c.inMax) && (decide (inLen ≠ 0) || decide (u64 e 8 = 0))
    && ((List.range 48).all fun i => c.uses i || decide (u8 ops i = 0))
    && (match c.outAt with | some (off, least) => decide (least ≤ u32 ops off) | none => true)

/-- The sole domain has been torn down, so that `DEV_MODE` may return the device to `SHARED` (R308, log entry 57). -/
def State.soleFree (s : State) : Bool := s.lve.sole.any fun d => decide ((s.lve.doms.get? d).map Domain.st ≠ some .active) &&
  decide ((s.lve.doms.get? d).map Domain.st ≠ some .created) && decide ((s.lve.doms.get? d).map Domain.st ≠ some .teardown)

/-- Whether `SOLE` mode refuses an opcode of the operator (Table 14.4). -/
def State.soleRefuses (s : State) (op : Nat) : Bool :=
  s.lve.sole.isSome && !(op == 0x00 || op == 0x4A || op == 0x4D || op == 0x4E || (op == 0x4C && s.soleFree))

/-- What the engine decides of a command before its own checks (R266, R309, Table 14.3): PF0 rings and the opcodes kept to
PF0 first, as a refusal must not depend on anything else (log entry 31). The commands of a function whose domain has lost its
keys end with `E_UNAVAILABLE` (Table 14.1). -/
def State.fetchCheck (s : State) (fn : Nat) (e : List Byte) : Option Status :=
  let op := u8 e 0
  if fn = 0 && !(op == 0x00 || (decide (0x48 ≤ op) && decide (op ≤ 0x4F))) then some .denied
  else if fn = 0 && s.soleRefuses op then some .denied
  else if fn ≠ 0 && !s.bound fn then some .unavailable
  else if fn ≠ 0 && (op == 0x49 || op == 0x4A || op == 0x4C || op == 0x4D || op == 0x4E) then some .denied
  else match cmdShape op with
    | none => some .format
    | some c => if shapeOk e c then (if s.takesWork then none else some .unavailable) else some .format

/-- Whether the engine may fetch from a ring: an entry waits in it, and its CQ has a slot that no completion takes (R267). -/
def Ring.fetchable (r : Ring) : Bool :=
  decide (r.st = .active) && r.sqHead != r.sqTail &&
    decide (r.unread + (r.inflight.filter fun f => !f.discard).length < 2 ^ r.cqLog2)

/-- The ring that the engine serves next: round-robin by function, then by ring (R267). -/
def State.ringTurn (s : State) : Option (Nat × Nat) :=
  let after := fun (last : Option Nat) (n x : Nat) => match last with
    | none => x
    | some l => (x + n - (l + 1) % n) % n
  let nearest := fun (last : Option Nat) (n : Nat) (l : List Nat) => l.foldl (fun (b : Option Nat) x => match b with
    | none => some x
    | some y => if after last n x < after last n y then some x else some y) none
  let waiting := fun (fn : Nat) => ((s.func fn).ringTab.filter fun r => r.2.fetchable).map Prod.fst
  (nearest s.hif.rrFunc 257 (s.hif.funcs.keys.filter fun fn => !(waiting fn).isEmpty)).bind fun fn =>
    (nearest (s.hif.rrRing.get? fn) 256 (waiting fn)).map fun k => (fn, k)

/-- The ring engine fetches one command: in ring order, while the CQ has a free slot for it (R267). A failed read of the
submission queue, or of a write to the completion queue since the last fetch, puts the ring into `ERROR` (R259, Table 12.5). In
`STANDBY`, and until the wake ends, nothing is fetched (R301), nor in `SAFE` (R328). -/
def State.fetch (s : State) (fn k : Nat) (entry : HostRead) (cqFailed : Bool) : State :=
  let r := s.ring fn k
  if cqFailed then (if r.st = .active then s.ringFault fn k 3 else s)
  else if s.ringTurn ≠ some (fn, k) || decide (s.pwr.standby = .standby) || decide (s.pwr.standby = .waking)
      || decide (s.glb.phase = .safe) then s
  else
    match entry with
    | .failed => (s.setErr Err.hifDma).ringFault fn k 2
    | .bytes e =>
      let head := (r.sqHead + 1) % 2 ^ r.sqLog2
      let c : InFlight := {
        num := r.nextNum, cid := u16 e 2, opcode := u8 e 0, fence := bit (u8 e 1) 0, inLen := u32 e 4, inAddr := u64 e 8
        ops := (e.drop 16).take 48, sqHead := head, arrived := s.now }
      let refused := s.fetchCheck fn e
      let s := s.setRing fn k fun r => { r with
        sqHead := head, nextNum := r.nextNum + 1
        inflight := r.inflight ++ [{ c with started := refused.isSome }] }
      let s := { s with hif := { s.hif with rrFunc := some fn, rrRing := s.hif.rrRing.set fn k } }
      match refused with
      | some st => s.fail (.ring ⟨fn, k, r.nextNum⟩) st
      | none => s

/-- The ring engine fetches the next entry of a ring. -/
def execCommandFetch (fn ring : Nat) (got : FetchResult) (s : State) : Host.Outcome State Fault Refusal :=
  .next (s.afterIn .answer (if s.hif.linkUp then s.fetch fn ring got.entry got.cqFailed else s))

/-- The last command in flight of a draining ring has completed (Table 12.5). -/
def execRingDrained (fn ring : Nat) (s : State) : Host.Outcome State Fault Refusal :=
  let r := s.ring fn ring
  .next (s.afterIn .host
    (if r.st = .draining ∧ (r.inflight.all fun f => f.discard) then s.setRing fn ring fun r => { r with st := .disabled, cause := 0 }
     else s))

/-- A host read for a command's input that gets no completion within 10 ms (R259). -/
def execHostReadTimeout (q : CmdRef) (s : State) : Host.Outcome State Fault Refusal :=
  .next (s.afterIn .answer
    (match (s.ring q.func q.ring).inflight.find? fun f => f.num == q.num with
     | some f =>
       if !f.started && decide (f.inLen ≠ 0) && decide (f.arrived + msNs 10 ≤ s.now) then
         (s.markStarted q).fail (.ring q) .timeout
       else s
     | none => s))

/-- The interrupt timer of a ring runs out after its oldest unsignalled completion (R265). -/
def execRingIrqTimer (fn ring : Nat) (s : State) : Host.Outcome State Fault Refusal :=
  let r := s.ring fn ring
  .next (s.afterIn .host
    (if 0 < r.unsignalled ∧ r.irqUs ≠ 0 ∧ r.oldest + usNs r.irqUs ≤ s.now then s.ringSignal fn ring else s))

/-- Whether refusals may leave now. -/
def State.refusalsMove (s : State) : Bool := s.flt.xlt.warmSince.isNone && s.flt.lve.warmSince.isNone

/-- Release the first refusal whose time has come (R321). While a unit that judges refusals is in warm reset they wait for its
end (Table 15.4). -/
def State.releaseRefusal (s : State) : State :=
  if !s.refusalsMove then s
  else match takeFirst (fun e : Requester × Cpl × Nat => decide (e.2.2 ≤ s.now)) s.hif.refusals with
  | some ((r, c, _), rest) => ({ s with hif := { s.hif with refusals := rest } } : State).deliverCpl r c
  | none =>
    match takeFirst (fun e : Option Nat × Nat × TxMsg × Nat => decide (e.2.2.2 ≤ s.now)) s.cwy.refusals with
    | some ((i, p, m, _), rest) => ({ s with cwy := { s.cwy with refusals := rest } } : State).sendReply i p m .denied
    | none => s

/-- An `E_DENIED` reply leaves at arrival + 2,000 ns. -/
def execRefusalRelease (s : State) : Host.Outcome State Fault Refusal := .next (s.afterIn .answer s.releaseRefusal)

/-! ### Resets of functions and of the link -/

/-- Every ring of a function is disabled; what its commands still give is discarded (Table 12.5). -/
def Func.disableRings (f : Func) : Func :=
  { f with ringTab := f.ringTab.mapVals fun _ r =>
      { st := .disabled, nextNum := r.nextNum, inflight := r.inflight.map fun c => { c with discard := true } } }

/-- What the commands in flight of a function still give is discarded. -/
def Func.dropOutputs (f : Func) : Func :=
  { f with ringTab := f.ringTab.mapVals fun _ r => { r with inflight := r.inflight.map fun c => { c with discard := true } } }

/-- An FLR (R43, R268, R369): rings disabled, `DOM` registers at reset; the binding and `LOCK` are kept. -/
def State.flr (s : State) (fn : Nat) : State :=
  let keep := s.regs.filter fun e => !(decide (domReg fn 0 ≤ e.1) && decide (e.1 < domReg fn 0x1000)) || e.1 == domReg fn 0x08
  let s := { s with regs := keep, ctrs := s.ctrs.erase (domReg fn Reg.domDbdropLo) }
  s.setFunc fn fun f => { f.disableRings with ringSel := 0, masked := [], pba := [], busMaster := true, d3hot := false }

/-- The reset of one function. -/
def execFunctionLevelReset (fn : Nat) (s : State) : Host.Outcome State Fault Refusal :=
  .next (s.afterIn .host (if fn ≤ 256 then s.flr fn else s))

/-- A link reset acts as an FLR of every function and resets configuration space (R368). -/
def execLinkReset (s : State) : Host.Outcome State Fault Refusal :=
  let s' := s.forEach (0 :: (s.hif.funcs.keys.filter (· != 0))) fun fn t => t.flr fn
  .next (s.afterIn .host { s' with hif := { s'.hif with vfsEnabled := 0 } })

/-- The link trains in FLIT mode, x8 or wider, or stays down (R258). A link that is up changes its width in L0p and stays trained
(log entry 119). -/
def execHostLinkUp (rate width : Nat) (flit : Bool) (s : State) : Host.Outcome State Fault Refusal :=
  .next (s.afterIn .host
    (if s.hif.linkUp then
       (if width = 8 ∨ width = 16 then { s with hif := { s.hif with l0p := decide (width < s.hif.linkWidth) } } else s)
     else if !flit || decide (width < 8) then s.setErr Err.hifLinkRefused
     else ({ s with hif := { s.hif with linkUp := true, linkRate := rate, linkWidth := min width 16, l0p := false } } :
       State).setEvt Evt.hifLinkUp))

/-- The link goes down: active rings go to `ERROR` (Table 12.5), and T2 stops answering (R270). No output of a command that was in
flight reaches the host once the link recovers (R268). -/
def execHostLinkDown (s : State) : Host.Outcome State Fault Refusal :=
  let s' := { s with hif := { s.hif with linkUp := false, linkRate := 0, linkWidth := 0 } }
  let s' := s'.forEach s.hif.funcs fun f t =>
    let t := t.forEach (f.2.ringTab.filter fun r => decide (r.2.st = .active)) fun r u => u.ringFault f.1 r.1 4
    t.setFunc f.1 Func.dropOutputs
  .next (s.afterIn .host (if s.hif.linkUp then ((s'.setErr Err.hifLinkDown).setEvt Evt.hifLinkDown).fault (unitWord 0x30 0) 0x07 0 else s))

/-! ### Effects of register writes -/

/-- Write of `DOM_RING_CFG` (R262, Table 12.5): the layout is taken only while the ring is `DISABLED`. -/
def State.ringCfg (s : State) (fn : Nat) (v : Nat) : State :=
  let f := s.func fn
  let k := f.ringSel
  let r := s.ring fn k
  let en := bit v 31
  let layout := decide (r.sqLog2 = bits v 25 21) && decide (r.cqLog2 = bits v 20 16) && decide (r.vector = bits v 10 0)
  if r.st = .disabled then
    let r' := { r with sqLog2 := bits v 25 21, cqLog2 := bits v 20 16, vector := bits v 10 0 }
    let okLog := decide (4 ≤ r'.sqLog2) && decide (r'.sqLog2 ≤ 16) && decide (r'.sqLog2 ≤ r'.cqLog2) && decide (r'.cqLog2 ≤ 16)
    let okVec := if fn = 0 then true else decide (r'.vector < 16)
    let okBase := decide (r.sqBase % 4096 = 0) && decide (r.cqBase % 4096 = 0)
    let s := s.setRing fn k fun _ => r'
    if en then
      if okLog && okVec && okBase && s.bound fn && decide (k < f.rings) then
        s.setRing fn k fun r => { r with
          st := .active, cause := 0, sqTail := 0, sqHead := 0, cqHead := 0, cqTail := 0, phase := true, unread := 0
          unsignalled := 0 }
      else s.setErr Err.domRingCfg (domBase + fn * 0x8000)
    else s
  else
    let s := if layout then s else s.setErr Err.domRingCfg (domBase + fn * 0x8000)
    if en then s else s.setRing fn k fun r => { r with st := .draining }

/-- Write of one of the queue base registers; left unchanged while the ring is not `DISABLED`. -/
def State.ringBase (s : State) (fn off v : Nat) : State :=
  let k := (s.func fn).ringSel
  let r := s.ring fn k
  if r.st ≠ .disabled then s.setErr Err.domRingCfg (domBase + fn * 0x8000)
  else s.setRing fn k fun r =>
    if off = Reg.domSqBaseLo then { r with sqBase := setBits r.sqBase 31 0 (v / 4096 * 4096) }
    else if off = Reg.domSqBaseHi then { r with sqBase := setBits r.sqBase 63 32 v }
    else if off = Reg.domCqBaseLo then { r with cqBase := setBits r.cqBase 31 0 (v / 4096 * 4096) }
    else { r with cqBase := setBits r.cqBase 63 32 v }

/-- Ring pairs allotted to all functions (`HIF_RING_USE`). -/
def State.ringsAllotted (s : State) : Nat :=
  16 + sumNat ((s.hif.funcs.filter fun f => f.1 ≠ 0 && f.2.bound).map fun f => f.2.rings)

/-- Write of `HIF_VF_BIND` for the selected VF (R260). `DOMAIN` and `RINGS` of a VF that is not bound are stored as written
(log entry 88). -/
def State.vfBind (s : State) (v : Nat) : State :=
  let fn := s.fld Reg.hifVfSel 7 0 + 1
  let f := s.func fn
  let d := bits v 27 16
  let n := bits v 8 0
  let active := decide ((s.lve.doms.get? d).map Domain.st = some .active)
  if bit v 31 then
    if f.bound then
      if d ≠ f.domain ∨ n ≠ f.rings then s.setErr Err.hifBind else s
    else if d = 0 ∨ !active ∨ 256 < n ∨ 4096 < s.ringsAllotted + n then s.setErr Err.hifBind
    else s.setFunc fn fun f => { f with bound := true, domain := d, rings := n }
  else if f.bound then
    if d ≠ f.domain ∨ n ≠ f.rings then s.setErr Err.hifBind
    else (s.flr fn).setFunc fn fun f => { f with bound := false }
  else if 256 < n then s.setErr Err.hifBind
  else (s.flr fn).setFunc fn fun f => { f with domain := d, rings := n }

/-! ### CXL ports -/

/-- A CXL port. -/
def State.cxl (s : State) (p : Nat) : Cxl := s.hif.cxl.getD p {}

/-- A CXL port changed. -/
def State.setCxl (s : State) (p : Nat) (f : Cxl → Cxl) : State :=
  { s with hif := { s.hif with cxl := s.hif.cxl.set p (f (s.cxl p)) } }

/-- The distance from one instance of `CXP` to the next. -/
def cxpOff (p : Nat) : Nat := p * 0x4000

/-- Units of 512 bytes of one port's 2 TiB of T1 addresses (Table 12.6). -/
def t1PortUnits : Nat := 2 ^ 41 / 512

/-- Whether a T1 home lies behind a port. -/
def onCxlPort (h : Home) (p : Nat) : Bool := h.tier == 1 && h.addr / t1PortUnits == p

/-- An access to a home was not answered: a CXL port counts it (Table 12.11). -/
def State.notAnswered (s : State) (h : Home) : State :=
  if h.tier = 1 then
    let off := cxpOff (h.addr / t1PortUnits)
    (s.bump (Reg.cxpTimeoutLo + off)).setErr Err.cxpTimeout off
  else s

/-- Whether any T1 extent is allocated on a port. -/
def State.cxlHolds (s : State) (p : Nat) : Bool := s.slc.extents.any fun e => onCxlPort e.1 p

/-- A CXL link-up starts discovery (R272), or returns a `HELD` port's link, on an enabled port. -/
def execCxlLinkUp (port width rate : Nat) (s : State) : Host.Outcome State Fault Refusal :=
  let c := s.cxl port
  let en := bit (s.reg (Reg.cxpCfg + cxpOff port)) 31
  let maxw := s.fld (Reg.cxpCfg + cxpOff port) 4 0
  let maxw : Nat := if maxw = 4 ∨ maxw = 8 then maxw else 16
  .next (s.afterIn .host
    (if port < 4 ∧ en ∧ (c.st = .down ∨ c.st = .held ∨ c.st = .refused) then
       s.setCxl port fun c => { c with st := .discovering, width := min width maxw, rate := rate, since := s.now }
     else s))

/-- Discovery ends (R272, R273): the first step that fails refuses the port; a port that held extents and finds the same
device stays `HELD`. Discovery waits for the media for 60 s. -/
def State.cxlFound (s : State) (p : Nat) (f : CxlFound) : State :=
  let c := s.cxl p
  let holds := s.cxlHolds p
  let refuse := fun (t : State) (e : Nat × Nat) => (t.setErr e (cxpOff p)).setCxl p fun c => { c with st := .refused }
  let ident := !f.notType3 && !f.mld && !f.switch
  if c.st ≠ .discovering ∨ (ident && !f.mediaReady && decide (s.now < c.since + secNs 60)) then s
  else if f.notType3 then refuse s Err.cxpNotType3
  else if f.mld then refuse s Err.cxpMld
  else if f.switch then refuse s Err.cxpSwitch
  else
    let s := if 2048 < f.gib then s.setEvt Evt.cxpCapOver (cxpOff p) else s
    if !f.mediaReady then refuse s Err.cxpTimeout
    else if holds && decide (f.serial ≠ c.serial) then refuse s Err.cxpSerial
    else if holds then (s.setCxl p fun c => { c with st := .held }).setEvt Evt.cxpHeld (cxpOff p)
    else (s.setCxl p fun c => { c with st := .ready, gib := min f.gib 2048, serial := f.serial }).setEvt Evt.cxpReady (cxpOff p)

/-- Discovery of an expander ends. -/
def execCxlDiscoveryDone (port : Nat) (found : CxlFound) (s : State) : Host.Outcome State Fault Refusal :=
  .next (s.afterIn .host (if port < 4 then s.cxlFound port found else s))

/-- A CXL link goes down (R273): a port holding extents becomes `HELD`, another returns to discovery. -/
def execCxlLinkDown (port : Nat) (s : State) : Host.Outcome State Fault Refusal :=
  let c := s.cxl port
  .next (s.afterIn .host
    (if port < 4 ∧ c.st ≠ .down then
       let t := (s.setEvt Evt.cxpDown (cxpOff port)).fault (unitWord 0x31 port) 0x07 0
       if s.cxlHolds port then (t.setCxl port fun c => { c with st := .held, width := 0 }).setEvt Evt.cxpHeld (cxpOff port)
       else t.setCxl port fun c => { c with st := .down, width := 0, gib := 0 }
     else s))

/-- `CXP_CTL.RESUME` in `HELD` (R273). DEDUCED: while the link is still down there is nothing to resume, and the write has no
effect (log entry 122). -/
def State.cxlResume (s : State) (p : Nat) : State :=
  if (s.cxl p).st = .held ∧ (s.cxl p).width ≠ 0 then (s.setCxl p fun c => { c with st := .ready }).setEvt Evt.cxpReady (cxpOff p) else s

/-! ### Management -/

/-- The single receiver of PLDM events (R277). The command is accepted only within an SPDM session (R275). -/
def execPldmSetEventReceiver (receiver : PldmReceiver) (s : State) : Host.Outcome State Fault Refusal :=
  .next (s.afterIn .board
    (if ((s.mgmt.sessions.get? receiver.session).map SpdmSession.established).getD false then
       { s with mgmt := { s.mgmt with receiver := some receiver.receiver } }
     else s))

/-- PLDM event kinds as `Out.pldm` shows them: an overflow count. -/
def pldmOverflow : Nat := 0xFF

/-- Toluo sends a waiting event; after a drop, one overflow event goes first (R277). -/
def execPldmPlatformEventSend (s : State) : Host.Outcome State Fault Refusal :=
  .next (s.afterIn .board
    (match s.mgmt.receiver with
     | none => s
     | some r =>
       if s.mgmt.dropped ≠ 0 then
         ({ s with mgmt := { s.mgmt with dropped := 0 } } : State).emit (.pldm r pldmOverflow [s.mgmt.dropped])
       else
         match s.mgmt.events with
         | [] => s
         | (k, d) :: rest => ({ s with mgmt := { s.mgmt with events := rest } } : State).emit (.pldm r k d)))

/-! ### PTP (R279, R280) -/

/-- A Sync exchange: offset estimate in ns, the servo's rate in 0.001 ppm (within ±976,562: one count in 1,024), and master time less
`DEV_TIME`. -/
def State.ptpSync (s : State) (offset rate master : Int) : State :=
  let p := s.pwr
  let close := decide (-1000 < offset) && decide (offset < 1000)
  let good : Nat := if close then p.goodSyncs + 1 else 0
  let lock := decide (16 ≤ good)
  let first := lock && p.tOff.isNone
  let p' := { p with
    offset := offset, goodSyncs := good, lock := lock, holdover := false, lastSync := s.now
    tOff := if first then some master else p.tOff
    rate := if first || p.tOff.isSome then max (-976562) (min 976562 rate) else p.rate }
  let s := { s with pwr := p' }
  if lock && !p.lock then s.setEvt Evt.clkPtpLock else s

/-- A Sync exchange, while `CLK_PTP_CFG.EN` is set. -/
def execPtpSync (offset rate : Int) (grandmaster : Int) (s : State) : Host.Outcome State Fault Refusal :=
  .next (s.afterIn .budget (if bit (s.reg Reg.clkPtpCfg) 31 then s.ptpSync offset rate grandmaster else s))

/-- Sync messages absent for 3 s hold the rate (R280). -/
def execPtpHoldover (s : State) : Host.Outcome State Fault Refusal :=
  .next (s.afterIn .budget
    (if bit (s.reg Reg.clkPtpCfg) 31 ∧ !s.pwr.holdover ∧ s.pwr.lastSync + secNs 3 ≤ s.now then
       ({ s with pwr := { s.pwr with holdover := true, goodSyncs := 0 } } : State).setEvt Evt.clkHoldover
     else s))

/-- `DEV_TIME` reaches `CLK_ALARM`: the event, and the wake when enabled (R301). -/
def execDevTimeAlarm (s : State) : Host.Outcome State Fault Refusal :=
  let alarm := s.reg Reg.clkAlarmLo + 2 ^ 32 * s.reg Reg.clkAlarmHi
  .next (s.afterIn .budget (if alarm ≠ 0 ∧ alarm ≤ s.now then (s.setEvt Evt.clkAlarm).wakeSource 4 else s))

end Sys2Proof.Machine
end

