-- ==== Sys2Proof/Machine/Causeway.lean ====
section
/-! DEFINITION. Machine/Causeway.lean: the commands of the Causeway ports, links and sessions (chapter 11). -/

namespace Sys2Proof.Machine

/-! ### Ports -/

/-- Whether a port is present on the variant (R4). -/
def State.hasPort (s : State) (p : Nat) : Bool := decide (p < s.glb.variant.ports)

/-- `CWY_GCFG.RETRY_MS`, of which 0 acts as 1, in ns. -/
def State.retryNs (s : State) : Nat := msNs (max (s.fld Reg.cwyGcfg 7 0) 1)

/-- `CWY_GCFG.KA_US`, of which values below 10 act as 10, in ns. -/
def State.kaNs (s : State) : Nat := usNs (max (s.fld Reg.cwyGcfg 15 8) 10)

/-- A link fault (R235): a `READY` port retrains and its sessions fail over; one still training goes `DOWN`. -/
def State.linkFault (s : State) (p : Nat) : State :=
  match (s.port p).st with
  | .ready =>
    let s := ((s.startRetrain p false).fault (unitWord 0x20 p) 0x07 7).failOver p
    if (lanesFor false (s.port p).unusableLanes).isNone then s.portFailed p else s
  | .training | .linked =>
    (s.dropPort p).setPort p fun q => { q with st := .down, since := s.now }
  | _ => s

/-- Light on lane 0 of an enabled `DOWN` port (Table 11.4). -/
def execLightDetected (port : Nat) (s : State) : Host.Outcome State Fault Refusal :=
  let p := s.port port
  .next (s.afterLink
    (if s.hasPort port ∧ p.st = .down ∧ bit (s.reg (Reg.cwyPortCfg + cwyOff port)) 31 ∧ p.retryAt ≤ s.now
        ∧ s.islandOn (portGroup port) then
       (s.dropPort port).setPort port fun p => { p with st := .training, since := s.now, power := .active }
     else s))

/-- The body of the device's `DISCOVER` (R245, Table 11.12a), with the chain that Levee presents and the hash of its leaf. -/
def State.discoverBody (s : State) (port : Nat) (nonce : List Byte) : List Byte :=
  let caps := (if s.glb.variant.hasAttn then 1 + 8 else 0) + 2 + 4 + 16
  let chain := s.chain.getD []
  leBytes 2 1 ++ leBytes 1 0 ++ leBytes 1 0 ++ leBytes 2 port ++ leBytes 2 0 ++ leBytes 4 caps ++ leBytes 4 chain.length
    ++ fit48 (sha384 (derLeaf s.slot0)) ++ nonce ++ leBytes 4 33554432 ++ leBytes 4 0 ++ chain

/-- Training ends, within 2 ms (Table 11.5): credits exchanged by `TRAIN` flits, `SEQ` 0 in both directions, `DISCOVER` sent. A partner must advertise at
least 32 flits for every channel (R233). -/
def execTrainingDone (port : Nat) (badLanes credits : List Nat) (s : State) : Host.Outcome State Fault Refusal :=
  let p := s.port port
  let half := bit (s.reg (Reg.cwyPortCfg + cwyOff port)) 0
  .next (s.afterLink
    (if s.hasPort port ∧ p.st = .training ∧ s.now ≤ p.since + msNs 2 ∧ credits.length = 4 ∧ credits.all (fun c => decide (32 ≤ c)) then
       match lanesFor half (badLanes ++ p.unusableLanes) with
       | none => s
       | some (n, up) =>
         let r := s.drawFrom fun i => i
         let nonce := nonce32 r.1
         let body := s.discoverBody port nonce
         let t := r.2.setPort port fun p => { p with
           st := .linked, since := s.now, lanes := n, upper := up, txSeq := 0, rxSeq := 0, flight := [], txq := []
           credits := credits, owed := [0, 0, 0, 0], starved := [], unsentAck := 0, naked := false, replays := 0, retrainFails := 0
           lostLanes := [], woken := false, nonce := nonce, discoverTx := body, lastUse := s.now, lastData := s.now, lastFlit := s.now }
         (t.emit (.link port linkLctl 0x10)).sendPlain port { mtype := 0x01, vc := 0, body := body }
     else s))

/-- Lanes not locked within 2 ms (Table 11.4). -/
def execTrainingTimeout (port : Nat) (s : State) : Host.Outcome State Fault Refusal :=
  let p := s.port port
  .next (s.afterLink
    (if p.st = .training ∧ p.since + msNs 2 ≤ s.now then
       s.setPort port fun p => { p with st := .down, retryAt := s.now + s.retryNs }
     else s))

/-- Whether the power state of a port lights a lane (R235). -/
def Port.activeLane (p : Port) (l : Nat) : Bool :=
  match p.power with
  | .active => if p.st = .training then decide (l < 8) else if p.lanes = 8 then decide (l < 8)
      else decide (l / 4 = (if p.upper then 1 else 0))
  | .quiet => l == 0
  | .sleep => false

/-- Whether what R235 calls a link fault holds on a port: 0 an active lane lost its signal or lock, 1 an unusable lane, 2 eight
replays without progress, 3 no flit for 1 µs, 4 credit starvation. -/
def State.isLinkFault (s : State) (port cause : Nat) (lanes : List Nat) : Bool :=
  let p := s.port port
  match cause with
  | 0 => lanes.any p.activeLane
  | 1 => !lanes.isEmpty && lanes.all fun l => decide (l < 8)
  | 2 => decide (8 ≤ p.replays)
  | 3 => decide (p.st ≠ .training) && decide (p.power ≠ .sleep) && decide (p.lastFlit + 1000 ≤ s.now)
  | 4 => p.starved.any fun t => t.any fun t => decide (t + usNs (max (s.fld (Reg.cwyLinkCfg + cwyOff port) 31 16) 100) ≤ s.now)
  | _ => false

/-- A link fault. `lanes` are the lanes that lost their signal or were found unusable. A sleeping port only records an unusable
lane. -/
def execLinkFault (port cause : Nat) (lanes : List Nat) (s : State) : Host.Outcome State Fault Refusal :=
  let s' := s.setPort port fun p =>
    if cause = 1 then { p with badLanes := (p.badLanes ++ lanes).eraseDups }
    else if cause = 0 then { p with lostLanes := (p.lostLanes ++ lanes.filter p.activeLane).eraseDups }
    else p
  let s' := if cause = 4 then (s'.setErr Err.cwyCreditStall (cwyOff port)).bump (Reg.cwyCreditStallLo + cwyOff port) else s'
  .next (s.afterLink
    (if s.hasPort port ∧ s.isLinkFault port cause lanes then
       if (s.port port).power = .sleep then (if cause = 1 then s' else s) else s'.linkFault port
     else s))

/-- The sessions of a port use it again, and what waited leaves (R252); after a wake the keepalive intervals count from now
(R253). -/
def State.portUsable (s : State) (p : Nat) (woken : Bool) : State :=
  s.forEach (s.sessionsOn p) fun i t =>
    let t := t.setSess i fun x => { x with
      unusable := x.unusable.filter (· != p), lastRx := if woken then x.lastRx.set p t.now else x.lastRx }
    t.drainSendq i (((t.cwy.sessions.get? i).map fun x => x.sendq.length).getD 0)

/-- Every unacknowledged flit is sent again, with the latest `ACK` (R232, log entry 104). -/
def State.resend (s : State) (port : Nat) : State :=
  (s.emit (.link port linkReplay (s.port port).unacked)).setPort port fun p =>
    { p with flight := [(p.unacked, s.now)], unsentAck := 0 }

/-- Lanes and alignment are regained within 30 µs: replay resumes from the last `ACK` (R235). -/
def execRetrainDone (port : Nat) (badLanes : List Nat) (peerAck : Nat) (s : State) : Host.Outcome State Fault Refusal :=
  let p := s.port port
  let half := bit (s.reg (Reg.cwyPortCfg + cwyOff port)) 0
  .next (s.afterLink
    (if s.hasPort port ∧ p.st = .retrain ∧ s.now ≤ p.since + usNs 30 then
       match lanesFor half (badLanes ++ p.unusableLanes) with
       | none => s
       | some (n, up) =>
         let t := s.setPort port fun p => { p.linkAck peerAck with
           st := .ready, since := s.now, lanes := n, upper := up, retrainFails := 0, power := .active, naked := false
           lostLanes := [], woken := false, lastUse := s.now, lastData := s.now, lastFlit := s.now }
         let t := if (t.port port).unacked = 0 then t else t.resend port
         ((t.setEvt Evt.cwyReady (cwyOff port)).pump port).portUsable port p.woken
     else s))

/-- A retrain has failed after 30 µs; the third consecutive failure takes the port to `FAILED` (Table 11.4). -/
def execRetrainFail (port : Nat) (s : State) : Host.Outcome State Fault Refusal :=
  let p := s.port port
  .next (s.afterLink
    (if p.st = .retrain ∧ p.since + usNs 30 ≤ s.now then
       if 2 ≤ p.retrainFails then s.portFailed port
       else s.setPort port fun p => { p with retrainFails := p.retrainFails + 1, since := s.now }
     else s))

/-- `RETRY_MS` after `FAILED` (Table 11.4). -/
def execFailedRetry (port : Nat) (s : State) : Host.Outcome State Fault Refusal :=
  let p := s.port port
  .next (s.afterLink
    (if p.st = .failed ∧ p.since + s.retryNs ≤ s.now then s.setPort port fun p => { p with st := .down, since := s.now }
     else s))

/-- A field of 16 bits as a signed number. -/
def signed16 (n : Nat) : Int := if n % 65536 < 32768 then (n % 65536 : Nat) else ((n % 65536 : Nat) : Int) - 65536

/-- The monitor of one ELS (R228): `laser` in 0.1 dBm by wavelength, and for each of its four ports the received OMA and
the heater powers. -/
def State.laserSample (s : State) (els : Nat) (laser : List Int) (rx : List (List Int × List Nat)) : State :=
  let warn := signed16 (s.fld Reg.cwyOptThr 31 16)
  let alarm := signed16 (s.fld Reg.cwyOptThr 15 0)
  let low := (List.range 8).filter fun k => decide (laser.getD k 0 < alarm)
  s.forEach (List.range 4) fun j t =>
    let p := els * 4 + j
    if t.hasPort p then
      let old := (t.port p).badLanes
      let t := t.setPort p fun q => { q with
        laser := laser, oma := (rx.getD j ([], [])).1, heater := (rx.getD j ([], [])).2, badLanes := low }
      let t := if laser.any fun v => decide (v < warn) then t.setEvt Evt.cwyLaserWarn (cwyOff p) else t
      if low.isEmpty then t
      else
        let t := t.setErr Err.cwyLaserAlarm (cwyOff p)
        if low.any (fun l => !old.contains l) && decide ((t.port p).power ≠ .sleep) then t.linkFault p else t
    else t

/-- The laser input of one ELS, sampled every 10 µs. -/
def execLaserMonitorSample (els : Nat) (laser : List Int) (rx : List (List Int × List Nat)) (s : State) :
    Host.Outcome State Fault Refusal :=
  .next (s.afterLink (if els < 8 ∧ laser.length = 8 then s.laserSample els laser rx else s))

/-! ### The link layer -/

/-- A flit is discarded (R231): a `DATA` flit for 0 bad CRC, 1 an FEC error or 2 an unexpected `SEQ`, with one `NAK` for each
fault, or 3 a flit of another type for its CRC. 4 is an FEC codeword that was corrected: nothing is discarded. -/
def execFlitDiscard (port cause : Nat) (s : State) : Host.Outcome State Fault Refusal :=
  let t := if cause = 0 ∨ cause = 3 then (s.setErr Err.cwyCrc (cwyOff port)).bump (Reg.cwyCrcLo + cwyOff port)
    else if cause = 1 then (s.setErr Err.cwyFecUe (cwyOff port)).bump (Reg.cwyFecUeLo + cwyOff port)
    else if cause = 4 then s.bump (Reg.cwyFecCorrLo + cwyOff port)
    else s
  .next (s.afterLink
    (if s.hasPort port ∧ ((s.port port).st = .ready ∨ (s.port port).st = .linked) then
       if (s.port port).naked ∨ cause = 3 ∨ cause = 4 then t
       else ((t.linkFlit port linkNak (s.port port).ackNow).setPort port fun p => { p with naked := true }).bump
         (Reg.cwyNakLo + cwyOff port)
     else s))

/-- A replay starts (R232). -/
def State.replay (s : State) (port : Nat) : State :=
  ((s.resend port).setPort port fun p => { p with replays := p.replays + 1 }).bump (Reg.cwyReplayLo + cwyOff port)

/-- A flit other than `DATA` is received: the link takes its `ACK` and credits. -/
def State.tailIn (s : State) (port : Nat) (f : FlitTail) : State := s.setPort port fun p => p.takeTail f s.now

/-- A received `NAK` (R232). -/
def execNak (port : Nat) (f : FlitTail) (s : State) : Host.Outcome State Fault Refusal :=
  let t := s.tailIn port f
  .next (s.afterLink
    (if (s.port port).st = .ready ∨ (s.port port).st = .linked then
       (if (t.port port).unacked = 0 then t else t.replay port).pump port
     else s))

/-- An unacknowledged flit has waited `REPLAY_T` (R232). -/
def execReplayTimer (port : Nat) (s : State) : Host.Outcome State Fault Refusal :=
  let p := s.port port
  let t := max (s.fld (Reg.cwyLinkCfg + cwyOff port) 15 8) 5 * 100
  .next (s.afterLink
    (if (p.st = .ready ∨ p.st = .linked) ∧ 0 < p.unacked ∧ p.unackedSince + t ≤ s.now then s.replay port else s))

/-- An `IDLE` flit: the device sends one after 64 flits or 0.5 µs without an `ACK` sent, or takes one that the other side sends
(R232). -/
def execIdleAckTimer (f : IdleFlit) (s : State) : Host.Outcome State Fault Refusal :=
  let p := s.port f.port
  .next (s.afterLink
    (if p.st = .ready ∨ p.st = .linked then
       match f.rx with
       | some tl => (s.tailIn f.port tl).pump f.port
       | none =>
         if 64 ≤ p.unsentAck ∨ (0 < p.unsentAck ∧ p.ackSince + 500 ≤ s.now) then s.linkFlit f.port linkIdle p.ackNow else s
     else s))

/-! ### Link power states (R236) -/

/-- Whether the port has flits of QUERY, RESULT or PAGE to send. -/
def Port.hasData (p : Port) : Bool := p.txq.any fun q => decide (q.vc ≠ 0)

/-- Whether a port carries a session or a handshake. -/
def State.inUse (s : State) (p : Nat) : Bool := !(s.sessionsOn p).isEmpty || !(s.port p).handshakes.isEmpty

/-- `QUIET_REQ` is answered with `QUIET_ACK`, unless `QUIET_US` = 0 disables `QUIET` or the device has such a flit to send. -/
def execQuietReq (f : PortFlit) (s : State) : Host.Outcome State Fault Refusal :=
  let p := s.port f.port
  .next (s.afterLink
    (if p.st = .ready then
       let t := (s.tailIn f.port f.tail).pump f.port
       if p.power = .active ∧ s.fld (Reg.cwyPortCfg + cwyOff f.port) 15 8 ≠ 0 ∧ !(t.port f.port).hasData then
         (t.linkFlit f.port linkLctl 0x02).setPort f.port fun p => { p with power := .quiet, lctlReq := none }
       else t
     else s))

/-- `QUIET_ACK` completes entry to `QUIET`. -/
def execQuietAck (f : PortFlit) (s : State) : Host.Outcome State Fault Refusal :=
  let p := s.port f.port
  .next (s.afterLink
    (if p.st = .ready then
       let t := (s.tailIn f.port f.tail).pump f.port
       if p.lctlReq.map Prod.fst = some true then
         t.setPort f.port fun p => { p with power := if p.hasData then p.power else .quiet, lctlReq := none }
       else t
     else s))

/-- `RESUME` relights the lanes of a quiet port. -/
def execResume (f : PortFlit) (s : State) : Host.Outcome State Fault Refusal :=
  let p := s.port f.port
  .next (s.afterLink
    (if p.st = .ready then
       let t := (s.tailIn f.port f.tail).pump f.port
       if p.power = .quiet then t.setPort f.port fun p => { p with power := .active, lastData := s.now } else t
     else s))

/-- `SLEEP_REQ` is answered and the port sleeps. -/
def execSleepReq (f : PortFlit) (s : State) : Host.Outcome State Fault Refusal :=
  let p := s.port f.port
  .next (s.afterLink
    (if p.st = .ready then
       let t := (s.tailIn f.port f.tail).pump f.port
       if p.power ≠ .sleep ∧ (t.port f.port).txq.isEmpty then
         (t.linkFlit f.port linkLctl 0x05).setPort f.port fun p => { p with power := .sleep, lctlReq := none }
       else t
     else s))

/-- `SLEEP_ACK` completes entry to `SLEEP`. -/
def execSleepAck (f : PortFlit) (s : State) : Host.Outcome State Fault Refusal :=
  let p := s.port f.port
  .next (s.afterLink
    (if p.st = .ready then
       let t := (s.tailIn f.port f.tail).pump f.port
       if p.lctlReq.map Prod.fst = some false then t.setPort f.port fun p => { p with power := .sleep, lctlReq := none } else t
     else s))

/-- Send an `LCTL` request and remember when. -/
def State.lctlRequest (s : State) (port : Nat) (quiet : Bool) : State :=
  (s.linkFlit port linkLctl (if quiet then 0x01 else 0x04)).setPort port fun p => { p with lctlReq := some (quiet, s.now) }

/-- No flit of QUERY, RESULT or PAGE for `QUIET_US`. -/
def execQuietIdleTimer (port : Nat) (s : State) : Host.Outcome State Fault Refusal :=
  let p := s.port port
  let q := s.fld (Reg.cwyPortCfg + cwyOff port) 15 8
  .next (s.afterLink
    (if p.st = .ready ∧ p.power = .active ∧ q ≠ 0 ∧ p.lctlReq.isNone ∧ p.lastData + usNs q ≤ s.now then s.lctlRequest port true
     else s))

/-- No session and no handshake for 1 ms. -/
def execSleepIdleTimer (port : Nat) (s : State) : Host.Outcome State Fault Refusal :=
  let p := s.port port
  .next (s.afterLink
    (if p.st = .ready ∧ p.power ≠ .sleep ∧ p.lctlReq.isNone ∧ !s.inUse port ∧ p.lastUse + msNs 1 ≤ s.now then
       s.lctlRequest port false
     else s))

/-- An `LCTL` request without an answer is repeated after 1 µs (R235). -/
def execLctlReqRepeat (port : Nat) (s : State) : Host.Outcome State Fault Refusal :=
  .next (s.afterLink
    (match (s.port port).lctlReq with
     | some (quiet, t) => if (s.port port).st = .ready ∧ t + 1000 ≤ s.now then s.lctlRequest port quiet else s
     | none => s))

/-- Light on lane 0 of a sleeping port: the event, the wake, and a retrain (R236). -/
def execCausewayWake (port : Nat) (s : State) : Host.Outcome State Fault Refusal :=
  let p := s.port port
  .next (s.afterLink
    (if p.st = .ready ∧ p.power = .sleep then
       ((s.setEvt Evt.cwyWake (cwyOff port)).startRetrain port true).wakeSource 1
     else s))

/-! ### Discovery and attachment -/

/-- A row takes a message: a port that is present and up, and the type the row names. -/
def State.takes (s : State) (m : RxMsg) (mtype : Nat) : Bool :=
  s.hasPort m.port && decide (m.head.mtype = mtype) && (decide ((s.port m.port).st = .ready) || decide ((s.port m.port).st = .linked))
    && decide ((s.port m.port).power ≠ .sleep)

/-- A `DISCOVER` is valid (R246): the chain parses, its leaf carries a P-384 key, and `ID_HASH` is that of the leaf. -/
def RxMsg.discoverValid (m : RxMsg) : Bool :=
  let b := m.body
  decide (104 ≤ b.length) && decide (u16 b 0 = 1) && decide (u32 b 12 ≤ 12288) && decide (b.length = 104 + u32 b 12)
    && decide (1048576 ≤ u32 b 96) && chainParses (b.drop 104) && keyIsP384 (derLeaf (b.drop 104))
    && (b.drop 16).take 48 == sha384 (derLeaf (b.drop 104))

/-- A `DISCOVER` makes a `LINKED` port `READY`, or takes it `DOWN` (Table 11.4). -/
def State.discover (s : State) (m : RxMsg) : State :=
  let b := m.body
  if (s.port m.port).st ≠ .linked then s
  else if m.discoverValid then
    let s := s.forEach s.cwy.sessions.keys fun i t => t.setSess i fun x => { x with noJoin := x.noJoin.filter (· != m.port) }
    (s.setPort m.port fun p => { p with
      st := .ready, since := s.now, discoverRx := b, peerDev := decide (u8 b 2 = 0), peerHash := (b.drop 16).take 48
      peerNonce := (b.drop 64).take 32, peerMax := u32 b 96, peerChain := b.drop 104, lastUse := s.now }).setEvt
      Evt.cwyReady (cwyOff m.port)
  else
    let s := s.sendReply none m.port { mtype := 0x3F, vc := 0, body := errorBody 0 0x01 Status.format.code 0 0 0 } .format
    (s.setErr Err.cwyDiscover (cwyOff m.port)).setPort m.port fun p => { p with st := .down, since := s.now, txq := [], flight := [] }

/-- A `DISCOVER` is received. -/
def execDiscover (m : RxMsg) (s : State) : Host.Outcome State Fault Refusal :=
  .next (s.afterLink
    (if s.takes m 0x01 then
       match s.receive m none with
       | (t, .plain) => t.discover m
       | (t, _) => t
     else s))

/-- The common 16 bytes of an `ATTACH` body (Table 11.13). -/
def attachHead (phase role domain ringId status sid sessionId : Nat) : List Byte :=
  leBytes 1 phase ++ leBytes 1 role ++ leBytes 2 domain ++ leBytes 2 ringId ++ leBytes 1 status ++ leBytes 1 sid
    ++ leBytes 8 sessionId

/-- Whether the common bytes of a received `ATTACH` are well formed; `sess` says whether `SESSION_ID` may be nonzero. -/
def attachHeadOk (b : List Byte) (sess : Bool) : Bool :=
  decide (u8 b 1 ≤ 1) && decide (u16 b 2 < 4096) && (decide (u8 b 1 = 1) || decide (u16 b 4 = 0)) && zeros b 6 2
    && (sess || zeros b 8 8)

/-- The ring slot of a domain and ring that names a port toward the predecessor (initiator) or the successor. For a `JOIN`, whose
session the slot has, a `READY` slot does as well (log entry 106). -/
def State.slotFor (s : State) (domain ringId port : Nat) (pred : Bool) (joining : Bool := false) : Option Nat :=
  (s.cwy.slots.find? fun e => decide (e.2.domain = domain) && decide (e.2.ringId = ringId)
    && (decide (e.2.st = .forming) || decide (e.2.st = .degraded) || (joining && decide (e.2.st = .ready)))
    && (if pred then e.2.predPorts else e.2.succPorts).testBit port).map Prod.fst

/-- The conditions of R248 that stand before the `FINISH`. `trusted` is the finding on the chain and the signature. -/
def State.attachOk (s : State) (port role domain ringId : Nat) (trusted joining : Bool) : Bool :=
  let cfg := s.reg (Reg.cwyPortCfg + cwyOff port)
  let d := s.lve.doms.get? domain
  let others := (s.sessionsOn port).filterMap fun i => (s.cwy.sessions.get? i).map Session.domain
  bit cfg 30 && (!bit cfg 29 || decide (bits cfg 27 16 = domain))
    && (if domain = 0 then decide (role = 0) && s.lve.operatorAnchor.isSome
        else match d with
          | some r => decide (r.st = .active) && r.keys.isSome && !r.anchors.isEmpty
          | none => false)
    && trusted
    && (if joining then decide (s.portSlots port < 16) else s.slotFree port)
    && (decide (role ≠ 1) || (s.slotFor domain ringId port true joining).isSome)
    && (others.all fun o => decide (o = domain) || (!s.conf o && !s.conf domain))

/-- A `HELLO` takes a handshake slot and is judged (R248). Its `ACCEPT` leaves 250 µs later whatever it holds. -/
def State.hello (s : State) (m : RxMsg) : State :=
  let b := m.body
  let bad := !(decide (b.length = 1812) && attachHeadOk b false && zeros b 1713 3)
  let free := s.hsFree m.port
  let role := u8 b 1
  let dom := u16 b 2 % 4096
  let h : Handshake := {
    id := s.cwy.nextHs, initiator := false, domain := dom, role := role, ringId := u16 b 4, slot := free, malformed := bad
    granted := free && !bad && s.attachOk m.port role dom (u16 b 4) m.tagOk false, helloBody := b
    acceptDue := s.now + usNs 250 }
  ({ s with cwy := { s.cwy with nextHs := s.cwy.nextHs + 1 } } : State).setPort m.port fun p => { p with
    handshakes := p.handshakes ++ [h], lastUse := s.now }

/-- A row takes an `ATTACH` of a phase; a warm reset of Levee leaves it without effect (Table 15.4). -/
def State.attachRow (s : State) (m : RxMsg) (phase : Nat) (f : State → State) : State :=
  if s.takes m 0x02 && decide (u8 m.body 0 = phase) && decide ((s.port m.port).st = .ready) then
    match s.receive m none with
    | (t, .plain) =>
      if t.serves .lve then f t else t.errorFor m none (if (t.unit3 .lve).held then .unavailable else .stale)
    | (t, _) => t
  else s

/-- A `HELLO` is received. -/
def execHello (m : RxMsg) (s : State) : Host.Outcome State Fault Refusal :=
  .next (s.afterLink (s.attachRow m 0 fun t => t.hello m))

/-- A handshake of a port. -/
def State.hs (s : State) (port id : Nat) : Option Handshake := (s.port port).handshakes.find? fun h => h.id == id

/-- A handshake changed. -/
def State.setHs (s : State) (port id : Nat) (f : Handshake → Handshake) : State :=
  s.setPort port fun p => { p with handshakes := updFirst (fun h => h.id == id) f p.handshakes, lastUse := s.now }

/-- A handshake ends. -/
def State.dropHs (s : State) (port id : Nat) : State :=
  s.setPort port fun p => { p with handshakes := p.handshakes.filter (fun h => h.id != id), lastUse := s.now }

/-- The device sends `ACCEPT` (R247), once the `KEY` work of its phase fits (R290): a session identifier, a nonce and its key shares are drawn. -/
def execAccept (port hs : Nat) (s : State) : Host.Outcome State Fault Refusal :=
  .next (s.afterLink
    (match s.hs port hs with
     | some h =>
       if !h.initiator ∧ h.join.isNone ∧ h.acceptSent.isNone ∧ h.acceptDue ≤ s.now ∧ s.keyRuns h.domain then
         let r := s.drawFrom fun n => Config.sessionId n % 2 ^ 64
         let body := attachHead 1 h.role h.domain h.ringId 0 0 r.1 ++ keyShares s.fresh ++ leBytes 3 0 ++ fit48 s.measurement
         let p := s.port port
         let th := sha384 (p.discoverTx ++ p.discoverRx ++ h.helloBody ++ body)
         ((r.2.charge h.domain .key false s.keyCost).setHs port hs fun h => { h with
           acceptSent := some s.now, sessionId := r.1, th := th
           prk := hkdfExtract th (Config.sharedSecret s.fresh h.helloBody) }).sendPlain port
           { mtype := 0x02, vc := 0, body := body ++ signature 1 th }
       else s
     | none => s))

/-- The device, as initiator, verifies an `ACCEPT` and sends `FINISH`, or counts a failure (R248). -/
def State.verifyAccept (s : State) (h : Handshake) (m : RxMsg) : State :=
  if decide (m.body.length = 1860) && attachHeadOk m.body true && zeros m.body 1713 3 && m.tagOk then
    let p := s.port m.port
    let th := sha384 (p.discoverRx ++ p.discoverTx ++ h.helloBody ++ m.body.take 1764)
    let prk := hkdfExtract th (Config.sharedSecret h.draw m.body)
    let t := s.setHs m.port h.id fun h => { h with
      acceptSent := some s.now, sessionId := u64 m.body 8, th := th, prk := prk, accept := none }
    let body := attachHead 2 h.role h.domain h.ringId 0 0 (u64 m.body 8) ++ finMac prk "cwy fin i" th
    t.sendPlain m.port { mtype := 0x02, vc := 0, body := body }
  else (s.dropHs m.port h.id).bumpD h.domain (Reg.cwyAttachFailLo + cwyOff m.port)

/-- An `ACCEPT` is received: its verification is `KEY` work, and waits for its dispatch (R290). -/
def execAcceptReceived (m : RxMsg) (s : State) : Host.Outcome State Fault Refusal :=
  .next (s.afterLink (s.attachRow m 1 fun t =>
    match (t.port m.port).handshakes.find? fun h => h.initiator && h.acceptSent.isNone && h.accept.isNone
        && decide (h.domain = u16 m.body 2) && decide (h.ringId = u16 m.body 4) with
    | some h =>
      let t := t.offer (t.keyItem h.domain (.phase m.port h.id))
      if t.waits (.phase m.port h.id) then t.setHs m.port h.id fun h => { h with accept := some m }
      else t.verifyAccept h m
    | none => t))

/-- A `FINISH` decides the `STATUS` of the `DONE` that leaves 2.0 µs later (R248). -/
def execFinish (m : RxMsg) (s : State) : Host.Outcome State Fault Refusal :=
  .next (s.afterLink (s.attachRow m 2 fun t =>
    match (t.port m.port).handshakes.find? fun h => !h.initiator && h.acceptSent.isSome && h.doneDue.isNone
        && decide (h.sessionId = u64 m.body 8) with
    | some h =>
      let bad := h.malformed || decide (m.body.length ≠ 64) || !attachHeadOk m.body true
      let st : Status := if bad then .format
        else if h.role = 1 ∧ !t.glb.variant.hasAttn then .absent
        else if h.granted && (m.body.drop 16 == finMac h.prk "cwy fin i" h.th) then (if t.auditTakes then .ok else .logFull) else .denied
      let t := if st = .logFull then t.auditRefuse else t
      t.setHs m.port h.id fun h => { h with doneDue := some (t.now + 2000), status := st }
    | none => t.errorFor m none .format))

/-- The lowest `SID` free on a port (Table 11.6). -/
def State.freeSid (s : State) (port : Nat) : Option Nat :=
  lowestFree (s.cwy.sessions.values.filterMap fun x => x.ports.get? port) 1 17

/-- The traffic keys of a port of a session (R249): `resp` is the responder's number of the port, `dir` the direction. -/
def trafficKeys (prk : List Byte) (port resp dir : Nat) : Assoc (Nat × Nat) CtrKey :=
  (List.range 4).map fun v => ((port, v), { key := hkdfExpand prk (ascii "cwy tk" ++ leBytes 1 resp ++ leBytes 1 dir ++ leBytes 1 v) 36 })

/-- The responder's number of a port: the device's own, or, where it is the initiator, the peer's `DISCOVER` `PORT`. -/
def State.respPort (s : State) (port : Nat) (initiator : Bool) : Nat :=
  if initiator then u16 (s.port port).discoverRx 4 else port

/-- A port joins a session under a `SID`, with its keys. -/
def State.addPort (s : State) (i port sid : Nat) : State :=
  s.setSess i fun x =>
    let r := s.respPort port x.initiator
    let out := if x.initiator then 0 else 1
    { x with
      ports := x.ports.set port sid
      txKeys := x.txKeys.filter (fun k => k.1.1 != port) ++ trafficKeys x.prk port r out
      rxKeys := x.rxKeys.filter (fun k => k.1.1 != port) ++ trafficKeys x.prk port r (1 - out)
      lastTx := x.lastTx.set port s.now, lastRx := x.lastRx.set port s.now }

/-- A session attaches (Table 11.15): traffic keys installed, `MSN` starts at 1. -/
def State.attach (s : State) (port sid : Nat) (h : Handshake) : State :=
  let i := s.cwy.nextSess
  let x : Session := {
    st := .attached, domain := h.domain, role := h.role, ringId := h.ringId, sessionId := h.sessionId
    initiator := h.initiator, peer := (s.port port).peerHash, prk := h.prk }
  let s := { s with cwy := { s.cwy with sessions := s.cwy.sessions.set i x, nextSess := i + 1 } }
  let s := ((s.addPort i port sid).setEvt Evt.cwySessionUp (cwyOff port)).bumpD h.domain (Reg.cwyAttachOkLo + cwyOff port)
  if h.role = 1 then
    match s.slotFor h.domain h.ringId port (!h.initiator) with
    | some k =>
      let s := s.setSlot k fun r =>
        let r := if h.initiator then { r with succ := some i } else { r with pred := some i }
        if r.pred.isSome && r.succ.isSome then { r with st := .ready } else r
      if (s.slot k).st = .ready then s.setEvt Evt.cwyRingReady else s
    | none => s
  else s

/-- Whether a session can still take the port of a `JOIN` (R251). -/
def State.joinable (s : State) (h : Handshake) : Bool :=
  match h.join with
  | none => true
  | some i => ((s.cwy.sessions.get? i).map fun x => decide (x.st = .attached) && decide (x.ports.length < 8)).getD false

/-- The `DONE` leaves (R248), once the `KEY` work of its phase fits (R290): on `OK` the session attaches, or, for a `JOIN`, the port joins (R251). -/
def execDoneSend (port hs : Nat) (s : State) : Host.Outcome State Fault Refusal :=
  .next (s.afterLink
    (match s.hs port hs with
     | some h =>
       match h.doneDue with
       | some due =>
         if due ≤ s.now ∧ !h.initiator ∧ s.keyRuns h.domain then
           let t := (s.charge h.domain .key false s.keyCost).dropHs port hs
           let sid := if h.status = .ok ∧ t.joinable h then t.freeSid port else none
           let st : Status := if h.status = .ok ∧ sid.isNone then .denied else h.status
           let mac := if st = .ok then finMac h.prk (if h.join.isSome then "cwy join" else "cwy fin r") (h.th ++ leBytes 1 st.code)
             else List.replicate 48 0
           let body := attachHead 3 h.role h.domain h.ringId st.code (sid.getD 0) h.sessionId ++ mac
           let t := t.sendPlain port { mtype := 0x02, vc := 0, body := body }
           match (if st = .ok then sid else none), h.join with
           | none, _ => (if st = .ok then t else t.bumpD h.domain (Reg.cwyRefuseLo + cwyOff port)).bumpD h.domain (Reg.cwyAttachFailLo + cwyOff port)
           | some sid, none => t.attach port sid h
           | some sid, some i => (t.addPort i port sid).bumpD h.domain (Reg.cwyAttachOkLo + cwyOff port)
         else s
       | none => s
     | none => s))

/-- Whether a `DONE` is the answer that a handshake of the device asks for: `OK`, its MAC, and a `SID` that no session of the port
holds (R247, R251, log entry 105). -/
def State.doneOk (s : State) (port : Nat) (h : Handshake) (b : List Byte) : Bool :=
  decide (b.length = 64) && decide (u8 b 6 = 0)
    && (b.drop 16 == finMac h.prk (if h.join.isSome then "cwy join" else "cwy fin r") (h.th ++ leBytes 1 0))
    && decide (1 ≤ u8 b 7) && decide (u8 b 7 ≤ 16) && (s.sessionOf port (u8 b 7)).isNone

/-- The initiating device receives `DONE` (R255): the session attaches, or the port of a `JOIN` joins it. -/
def execDoneReceived (m : RxMsg) (s : State) : Host.Outcome State Fault Refusal :=
  .next (s.afterLink (s.attachRow m 3 fun t =>
    match (t.port m.port).handshakes.find? fun h => h.initiator && h.acceptSent.isSome && decide (h.sessionId = u64 m.body 8) with
    | some h =>
      let ok := t.doneOk m.port h m.body && t.joinable h
      let t := t.dropHs m.port h.id
      match ok, h.join with
      | true, none => t.attach m.port (u8 m.body 7) h
      | true, some i => (t.addPort i m.port (u8 m.body 7)).bumpD h.domain (Reg.cwyAttachOkLo + cwyOff m.port)
      | false, some i => (t.setSess i fun x => { x with noJoin := m.port :: x.noJoin }).bumpD h.domain (Reg.cwyAttachFailLo + cwyOff m.port)
      | false, none => t.bumpD h.domain (Reg.cwyAttachFailLo + cwyOff m.port)
    | none => t))

/-- No `FINISH` within 1 ms of `ACCEPT` (R248). -/
def execHandshakeTimeout (port hs : Nat) (s : State) : Host.Outcome State Fault Refusal :=
  .next (s.afterLink
    (match s.hs port hs with
     | some h =>
       match h.acceptSent with
       | some t0 =>
         if h.doneDue.isNone ∧ !h.initiator ∧ t0 + msNs 1 ≤ s.now then
           (s.dropHs port hs).bumpD h.domain (Reg.cwyAttachFailLo + cwyOff port)
         else s
       | none => s
     | none => s))

/-- A `JOIN` is judged and answered by a `DONE` 2.0 µs later (R251). -/
def execJoin (m : RxMsg) (s : State) : Host.Outcome State Fault Refusal :=
  .next (s.afterLink (s.attachRow m 4 fun t =>
    let b := m.body
    let i := (t.cwy.sessions.find? fun e => decide (e.2.st = .attached) && decide (e.2.sessionId = u64 b 8) && !e.2.initiator).map Prod.fst
    let x := i.bind t.cwy.sessions.get?
    let bad := decide (b.length ≠ 96) || !attachHeadOk b true
    let mac := match x with
      | some x => b.drop 48 == finMac x.prk "cwy join" (b.take 48 ++ (t.port m.port).nonce)
      | none => false
    let ok := match x with
      | some x => decide (x.peer = (t.port m.port).peerHash) && decide (x.domain = u16 b 2) && decide (x.role = u8 b 1)
          && decide (x.ports.length < 8) && !x.ports.has m.port && t.attachOk m.port x.role x.domain x.ringId mac true
      | none => false
    let st : Status := if bad then .format else if u8 b 1 = 1 ∧ !t.glb.variant.hasAttn then .absent else if ok then .ok else .denied
    let h : Handshake := {
      id := t.cwy.nextHs, initiator := false, domain := u16 b 2 % 4096, role := u8 b 1, ringId := u16 b 4, slot := false
      sessionId := u64 b 8, th := b, prk := (x.map Session.prk).getD [], doneDue := some (t.now + 2000), status := st, join := i }
    ({ t with cwy := { t.cwy with nextHs := t.cwy.nextHs + 1 } } : State).setPort m.port fun p => { p with
      handshakes := p.handshakes ++ [h], lastUse := t.now }))

/-! ### Detaching, keepalive, errors -/

/-- Whether a `DETACH` body is well formed (Table 11.14). No check of the spec compares its `SESSION_ID` (log entry 84). -/
def detachOk (b : List Byte) : Bool :=
  decide (b.length = 16) && decide (u8 b 0 ≤ 1) && decide (u8 b 1 ≤ 1) && decide (u8 b 2 ≤ 7) && zeros b 3 1

/-- A `DETACH REQUEST` (R254). -/
def State.detachRequest (s : State) (i : Nat) (m : RxMsg) : State :=
  match s.cwy.sessions.get? i with
  | none => s
  | some x =>
    let b := m.body
    if !detachOk b then s.errorFor m (some i) .format
    else if u8 b 2 = 4 then s.freeSession i
    else if u8 b 1 = 1 ∧ 1 < x.ports.length then s.leaveSession i m.port
    else
      (s.setSess i fun x => { x with
        st := .detaching, peerLast := some (u32 b 4), detachSince := if x.detachSent then x.detachSince else s.now
        reason := if x.detachSent then x.reason else u8 b 2 }).detachStep i

/-- A `DETACH REQUEST` is received. -/
def execDetachRequest (m : RxMsg) (s : State) : Host.Outcome State Fault Refusal :=
  .next (s.afterLink
    (if s.takes m 0x03 && decide (u8 m.body 0 = 0) then
       match s.receive m none with
       | (t, .pass i) => t.detachRequest i m
       | (t, _) => t
     else s))

/-- A `DETACH DONE` closes the session once every message has been received (R255). -/
def execDetachDone (m : RxMsg) (s : State) : Host.Outcome State Fault Refusal :=
  .next (s.afterLink
    (if s.takes m 0x03 && decide (u8 m.body 0 = 1) then
       match s.receive m none with
       | (t, .pass i) =>
         match t.cwy.sessions.get? i with
         | some _ =>
           if detachOk m.body then
             (t.setSess i fun x => { x with doneRecv := some (u32 m.body 4), peerLast := some (x.peerLast.getD (u32 m.body 4)) }).detachStep i
           else t.errorFor m (some i) .format
         | none => t
       | (t, _) => t
     else s))

/-- A message whose `CTR` or tag fails closes the session (Table 11.8, check 3). -/
def execIntegrityFail (m : RxMsg) (s : State) : Host.Outcome State Fault Refusal :=
  let bad := match (s.sessionOf m.port m.head.sid).bind s.cwy.sessions.get? with
    | some x =>
      let k := (x.rxKeys.getD (m.port, m.vc) {}).follow m.head.ctr (bit m.head.flags 2)
      !m.tagOk || decide (m.head.ctr ≠ k.ctr) || decide (bit m.head.flags 2 ≠ k.kphase)
    | none => false
  .next (s.afterLink (if bad && s.takes m m.head.mtype then (s.receive m none).1 else s))

/-- A `KEEPALIVE` keeps the port in the session and carries `ACK_MSN` (R253). -/
def execKeepalive (m : RxMsg) (s : State) : Host.Outcome State Fault Refusal :=
  .next (s.afterLink
    (if s.takes m 0x04 then
       match s.receive m none with
       | (t, .pass i) => if m.body.length = 8 ∧ zeros m.body 4 4 then t else t.errorFor m (some i) .format
       | (t, _) => t
     else s))

/-- Send a `KEEPALIVE` in a session on a port. -/
def State.sendKeepalive (s : State) (i port : Nat) : State :=
  match s.cwy.sessions.get? i with
  | some x =>
    (s.setSess i fun x => { x with kaSeq := (x.kaSeq + 1) % 2 ^ 32 }).cwySend i port
      { mtype := 0x04, vc := 0, body := leBytes 4 x.kaSeq ++ leBytes 4 0 }
  | none => s

/-- Nothing sent on a port of a session for `KA_US` (R253). -/
def execKeepaliveSend (session port : Nat) (s : State) : Host.Outcome State Fault Refusal :=
  .next (s.afterLink
    (match s.cwy.sessions.get? session with
     | some x =>
       if s.usable x port ∧ (s.port port).power ≠ .sleep ∧ x.lastTx.getD port 0 + s.kaNs ≤ s.now then s.sendKeepalive session port
       else s
     | none => s))

/-- A port silent for four intervals leaves the session; so ends a detaching session (R253, Table 11.15). -/
def execKeepaliveExpiry (session port : Nat) (s : State) : Host.Outcome State Fault Refusal :=
  .next (s.afterLink
    (match s.cwy.sessions.get? session with
     | some x =>
       if x.st = .detaching ∧ x.detachSince + 4 * s.kaNs ≤ s.now then s.freeSession session
       else if x.ports.has port ∧ (s.port port).power ≠ .sleep ∧ !(s.port port).woken ∧ x.lastRx.getD port 0 + 4 * s.kaNs ≤ s.now then
         (s.leaveSession session port).bumpD x.domain (Reg.cwyKaExpireLo + cwyOff port)
       else s
     | none => s))

/-- `ACK_MSN` is sent after 64 deliveries or 2 µs (R239). -/
def execAckMsnTimer (session : Nat) (s : State) : Host.Outcome State Fault Refusal :=
  .next (s.afterLink
    (match s.cwy.sessions.get? session with
     | some x =>
       if 64 ≤ x.unsentAcks ∨ (0 < x.unsentAcks ∧ x.ackOldest + 2000 ≤ s.now) then
         s.sendKeepalive session ((x.ports.keys.head?).getD 0)
       else s
     | none => s))

/-- An `ERROR` from a peer is delivered; it asks nothing of the device. -/
def execError (m : RxMsg) (s : State) : Host.Outcome State Fault Refusal :=
  .next (s.afterLink (if s.takes m 0x3F then (s.receive m none).1 else s))

/-- Whether a message is of an unknown type, of a type not permitted for the sender's role, or on the wrong channel
(R238). -/
def State.badType (s : State) (m : RxMsg) : Bool :=
  let h := m.head
  let x := (if h.sid = 0 then none else s.sessionOf m.port h.sid).bind s.cwy.sessions.get?
  decide (vcOf h.mtype ≠ some m.vc) || !s.maySend (x.map Session.role) h.mtype

/-- Such a message is refused with `E_FORMAT` (R238, Table 11.8 check 1). -/
def execUnknownMtype (m : RxMsg) (s : State) : Host.Outcome State Fault Refusal :=
  .next (s.afterLink (if s.badType m && s.takes m m.head.mtype then (s.receive m none).1 else s))

end Sys2Proof.Machine
end

