-- ==== Sys2Proof/Machine/Budget.lean ====
section
/-! DEFINITION. Machine/Budget.lean: epochs, Step Marks, the power and thermal samples, histograms and core-clock steps
(chapter 13). -/

namespace Sys2Proof.Machine

/-! ### Epochs -/

/-- A credit amount that `WATTS` gives over a time in ns. -/
def wattNs (w : Nat) (ns : Int) : Int := (w : Int) * ns / 1000

/-- A domain's bucket at a boundary (R292): written values take effect, then the refill. -/
def DomBudget.refill (b : DomBudget) : DomBudget :=
  let depth := max b.nextDepth b.nextRate
  { b with
    rate := b.nextRate, depth := depth, weight := b.nextWeight
    bucket := min (b.bucket + b.nextRate) depth
    donePrev := b.doneNow, doneNow := 0 }

/-- `STEPMARK_OUT` rises at a boundary for its pulse width, where it is enabled (R393). -/
def State.pulse (s : State) (at_ : Nat) : State :=
  if bit (s.reg Reg.glbPinmux) 7 then
    let t := { s with glb := { s.glb with smoutUntil := some (at_ + (s.fld Reg.glbPinmux 11 8 + 1) * 10) } }
    if s.glb.smoutUntil.isSome then t else t.emit (.pin .stepmarkOut 1)
  else s

/-- End the running epoch at `at_` and begin the next, which is planned to end at `planned` (R281, R287, R288). -/
def State.boundary (s : State) (at_ : Nat) (byTime : Bool) (planned : Nat → Nat) : State :=
  let p := s.pwr
  let excess : Int := max 0 (p.spent - p.grant)
  let len : Nat := max (at_ - p.start) 1
  let l := s.fld Reg.pwrEpochCfg 26 16
  let w := s.fld Reg.pwrEnvelope 9 0
  let stop := planned l
  let p := { p with
    epoch := p.epoch + 1, start := at_, planned := stop, lenPrev := p.len, len := l, watts := w
    grant := wattNs w ((stop : Int) - at_) - excess
    prevLen := len, prevGrant := p.grant, prevSpent := p.spent
    rhat := p.residual * 1000000 / len
    spent := 0, residual := 0, reserveSpent := 0, classSpent := []
    startByTime := byTime, startMarked := !byTime, windowOpen := byTime
    doms := p.doms.mapVals fun _ b => b.refill }
  let s := ({ s with pwr := p } : State).pulse at_
  if 0 < excess then (s.bump Reg.pwrDeficitLo).setEvt Evt.pwrDeficit else s

/-- The boundary by time, where the planned end has come. -/
def State.boundaryDue (s : State) : State :=
  if s.pwr.live ∧ s.pwr.planned ≤ s.now then s.boundary s.pwr.planned true fun l => s.pwr.planned + usNs l else s

/-- An epoch ends by time. -/
def execEpochBoundary (s : State) : Host.Outcome State Fault Refusal := .next (s.afterIn .mark s.boundaryDue)

/-- The source of marks: 3 acts as 0 (R283). -/
def State.smSrc (s : State) : Nat := let v := s.fld Reg.pwrEpochCfg 1 0; if v = 3 then 0 else v

/-- A mark from the selected source at time `m`, processed now (R284 to R286). `num` is the epoch number of a message. -/
def State.mark (s : State) (m : Int) (num : Option Nat) : State :=
  let s := s.boundaryDue
  let p := s.pwr
  let judge := fun (t : State) (own : Nat) => match num with
    | some n => if n ≠ own then t.setErr Err.pwrSmNum else t
    | none => t
  let endOf := fun (l : Nat) => (m + usNs l).toNat
  if p.resync then
    let s := judge s (p.epoch + 1)
    let s := { s with pwr := { s.pwr with grant := s.pwr.grant + wattNs p.watts ((s.now : Int) - p.planned) } }
    let s := s.boundary s.now false endOf
    let n := match num with | some n => max n s.pwr.epoch | none => s.pwr.epoch
    (({ s with pwr := { s.pwr with epoch := n, run := 0, resync := false } } : State).bump Reg.pwrSmResyncLo).setEvt Evt.pwrResync
  else
    let first := p.startByTime && !p.startMarked && decide (m < (p.start : Int) + p.lenPrev * 100)
    let e : Int := if first then (p.start : Nat) else (p.planned : Nat)
    let tenth : Int := if first then (p.lenPrev * 100 : Nat) else (p.len * 100 : Nat)
    if e - tenth ≤ m ∧ m < e + tenth then
      let s := (judge s (if first then p.epoch else p.epoch + 1)).bump Reg.pwrSmInLo
      let s :=
        if first then
          let stop := endOf p.len
          { s with pwr := { s.pwr with
            planned := stop, grant := s.pwr.grant + wattNs p.watts ((stop : Int) - p.planned), startMarked := true
            windowOpen := false } }
        else
          let s := { s with pwr := { s.pwr with grant := s.pwr.grant + wattNs p.watts ((s.now : Int) - p.planned) } }
          s.boundary s.now false endOf
      { s with pwr := { s.pwr with smLast := m - e, run := 0 } }
    else
      let run := min (p.run + 1) 3
      ({ s with pwr := { s.pwr with run := run, resync := decide (run = 3) } } : State).bump Reg.pwrSmOutLo

/-- A mark that arrives (R283): one of a source that is not selected is counted and has no other effect. -/
def State.markFrom (s : State) (src : Nat) (m : Int) (num : Option Nat) : State :=
  if s.smSrc ≠ src then s.bump Reg.pwrSmOtherLo
  else (if s.pwr.live then s.mark m num else s).wakeSource 2

/-- A window around a boundary reached by time closes without a mark (R285). -/
def execWindowClose (s : State) : Host.Outcome State Fault Refusal :=
  let p := s.pwr
  .next (s.afterIn .budget
    (if p.windowOpen ∧ !p.startMarked ∧ p.start + p.lenPrev * 100 ≤ s.now then
       let t := { s with pwr := { p with windowOpen := false } }
       if s.smSrc = 0 then t else t.bump Reg.pwrSmMissLo
     else s))

/-- A `STEP_MARK` message (R243): only a timing session's, on the configured port. -/
def State.stepMark (s : State) (i : Nat) (m : RxMsg) : State :=
  let b := m.body
  let cfg := s.reg Reg.cwyGcfg
  let timing := ((s.cwy.sessions.get? i).map fun x => x.timing && decide (x.role = 0)).getD false
  if !(bit cfg 31 && decide (bits cfg 25 21 = m.port) && timing) then
    (s.errorFor m (some i) .denied).setEvt Evt.cwySmRefused (cwyOff m.port)
  else if b.length ≠ 24 ∨ !zeros b 6 2 ∨ !zeros b 20 4 then s.errorFor m (some i) .format
  else
    let t : Int := (s.now : Int) - u32 b 16 - s.fld Reg.cwyStepCfg 15 0
    ({ s with pwr := { s.pwr with srcTime := u64 b 8 } } : State).markFrom 2 t (some (field b 0 6))

/-- Whether check 2 of Table 11.8 refuses a message: it comes in no live session of its port. -/
def State.noSession (s : State) (m : RxMsg) : Bool :=
  m.wellFormed && (decide (m.head.sid = 0) || (s.sessionOf m.port m.head.sid).isNone)

/-- A `STEP_MARK` is received. One that check 2 refuses sets `SM_REFUSED` as well (R243). -/
def execStepMark (m : RxMsg) (s : State) : Host.Outcome State Fault Refusal :=
  .next (s.afterCwyIn { Scope.link with glb := true }
    (if s.takes m 0x30 then
       match s.receive m none with
       | (t, .pass i) => t.stepMark i m
       | (t, _) => if s.noSession m then t.setEvt Evt.cwySmRefused (cwyOff m.port) else t
     else s))

/-! ### Samples -/

/-- Parity in the credits or buckets of the scheduler is lost (Table 15.1). -/
def State.creditLoss (s : State) (ds : List Nat) : State :=
  let s := { s with pwr := { s.pwr with spent := s.pwr.grant } }
  (s.forEach ds fun d t => t.setBudget d fun b => { b with bucket := 0 }).fault (unitWord 0x03 0) 0x02 0

/-- The package power monitor, every 10 µs (R288): the residual joins the spending. A reading that fails its self-check is
taken as R̂. A parity error in the scheduler's credits, with the domains whose buckets it hit, leaves no credit to spend before the
next boundary (Table 15.1). -/
def execPowerMonitorSample (a : PowerSample) (s : State) : Host.Outcome State Fault Refusal :=
  let p := s.pwr
  let delta : Int := match a.microJ with
    | some e => (e : Int) - p.charged
    | none => p.rhat * 10 / 1000
  let t := { s with pwr := { p with spent := p.spent + delta, residual := p.residual + delta, charged := 0 } }
  let t := if a.microJ.isNone then t.setErr Err.pwrMonitor else t
  .next (s.afterIn { Scope.budget with flt := true } (match a.parity with | some ds => t.creditLoss ds | none => t))

/-- The hottest of a list of readings, with its index. -/
def hottest (l : List Int) : Int × Nat :=
  (l.zipIdx).foldl (fun acc x => if acc.1 < x.1 then x else acc) (l.headD 0, 0)

/-- The thermal allowance for a temperature in tenths of a °C (R289). -/
def State.allowance (s : State) (t : Int) : Nat × Nat :=
  let soft := s.fld Reg.pwrTherm 15 8 * 10
  let limit := s.fld Reg.pwrTherm 7 0 * 10
  if t ≤ soft then (1, 1) else if (limit : Int) ≤ t then (0, 1) else (((limit : Int) - t).toNat, limit - soft)

/-- The package sensors, every 10 µs (R289). -/
def execThermalSample (tenthC : List Int) (s : State) : Host.Outcome State Fault Refusal :=
  let h := hottest tenthC
  let a := s.allowance h.1
  let below := decide (a.1 < a.2)
  let was := decide (s.pwr.aNum < s.pwr.aDen)
  let t := { s with pwr := { s.pwr with
    hot := h.1, hotIdx := h.2, aNum := a.1, aDen := a.2
    belowSince := if below then (if was then s.pwr.belowSince else some s.now) else none
    fullSince := if below then none else (if was || s.pwr.fullSince.isNone then some s.now else s.pwr.fullSince) } }
  .next (s.afterIn .budget (if tenthC.length = 64 then (if below && !was then t.setEvt Evt.pwrThermal else t) else s))

/-- The bin of a value (R297): 0 for 0, k for [2^(k−1), 2^k), 15 from 2^14 on. -/
def histBin (n : Nat) : Nat := if n = 0 then 0 else min 15 (Nat.log2 n + 1)

/-- One queue as sampled: class, queue, domain, depth, age in ns. -/
structure QueueNow where
  cls : Nat
  queue : Nat
  domain : Nat
  depth : Nat
  age : Nat
  deriving DecidableEq, Repr

/-- The age of the oldest of some arrival times. -/
def oldestAge (now : Nat) (l : List Nat) : Nat := l.foldl (fun a t => max a (now - t)) 0

/-- The entries of a queue of the device, each with its domain and time, as Table 14.11 has them counted: those of a confidential
domain in its own set, and the others together. -/
def State.byOwner (s : State) (q : Nat) (l : List (Nat × Nat)) : List QueueNow :=
  let owner := fun (d : Nat) => if s.conf d then d else 0
  ((l.map fun x => owner x.1).eraseDups).map fun d =>
    let ts := (l.filter fun x => owner x.1 == d).map Prod.snd
    ⟨7, q, d, ts.length, oldestAge s.now ts⟩

/-- The queues of Table 13.2 that hold anything. A message is taken from its port's receive queue as it arrives, so those
queues are empty. -/
def State.queuesNow (s : State) : List QueueNow :=
  let all := s.pruned.pwr.items
  let items := (all.map fun i => (i.cls.index, i.domain)).eraseDups.map fun k =>
    let l := (all.filter fun i => decide (i.cls.index = k.1) && decide (i.domain = k.2)).map Item.arrived
    (⟨k.1, 0, k.2, l.length, oldestAge s.now l⟩ : QueueNow)
  let wait := s.att.tasks.filter fun t => decide (t.st = .waiting)
  let task := fun (t : Task) => (t.domain, t.since)
  let buckets := (List.range 14).flatMap fun k =>
    s.byOwner (k + 1) ((wait.filter fun t => !t.latency && decide (t.bucket = 512 * 2 ^ k)).map task)
  let held := fun (u : Nat) =>
    (s.xlt.seqs.filter fun e => decide (e.1 % 2 = u)).flatMap fun e => e.2.held.map fun h => (e.2.domain, h.since)
  items ++ s.byOwner 0 ((wait.filter Task.latency).map task) ++ buckets
    ++ s.byOwner 15 ((s.slc.moves.filter fun m => decide (m.st = .queued)).map fun m => (m.domain, m.since))
    ++ s.byOwner 16 (s.xlt.handoffs.map fun h => (((s.xlt.bds.get? h.bd).map Bd.domain).getD 0, h.since))
    ++ s.byOwner 17 (s.sdg.queue.map fun b => (b.domain, b.since)) ++ s.byOwner 18 (held 0) ++ s.byOwner 19 (held 1)

/-- Add one to a bin, but for bin 0, which is what the other bins leave. -/
def State.histAdd (s : State) (k c q d b : Nat) : State :=
  if b = 0 then s
  else { s with pwr := { s.pwr with hist := s.pwr.hist.set (k, c, q, d, b) (s.pwr.hist.getD (k, c, q, d, b) 0 + 1) } }

/-- Every queue is sampled for depth and for the age of its oldest item (R297). -/
def execQueueSample (s : State) : Host.Outcome State Fault Refusal :=
  let t := s.forEach s.queuesNow fun q t =>
    (t.histAdd 0 q.cls q.queue q.domain (histBin q.depth)).histAdd 1 q.cls q.queue q.domain (histBin (q.age / 1000))
  .next (s.afterIn .budget { t with pwr := { t.pwr with samples := t.pwr.samples + 1 } })

/-- Zero a histogram (R297). -/
def State.histClear (s : State) (k c q d : Nat) : State :=
  { s with pwr := { s.pwr with
    hist := s.pwr.hist.filter fun e => !(e.1.1 == k && e.1.2.1 == c && e.1.2.2.1 == q && e.1.2.2.2.1 == d)
    histBase := s.pwr.histBase.set (k, c, q, d) s.pwr.samples } }

/-! ### Core-clock steps (R303, R304) -/

/-- The synthesiser of a die. -/
def Pwr.csyn (p : Pwr) (die : Nat) : Csyn := if die = 0 then p.csyn0 else p.csyn1

/-- The synthesiser of a die changed. -/
def State.setCsyn (s : State) (die : Nat) (f : Csyn → Csyn) : State :=
  if die = 0 then { s with pwr := { s.pwr with csyn0 := f s.pwr.csyn0 } }
  else { s with pwr := { s.pwr with csyn1 := f s.pwr.csyn1 } }

/-- The code of a multiplier (Table 18.5), with the fused offset of the die. -/
def vidCode (die n : Nat) : Nat :=
  (match n with | 6 => 10 | 7 => 16 | 8 => 22 | 9 => 26 | 10 => 30 | _ => 40) + Config.vidOffset die % 5

/-- Request a multiplier of a die. -/
def State.csynTarget (s : State) (die n : Nat) : State :=
  s.setCsyn die fun c => { c with target := n, pending := decide (n ≠ c.now) }

/-- One step of `AUTO` on both dies, within `N_MIN` to `N_MAX`. -/
def State.autoStep (s : State) (up : Bool) : State :=
  let d := s.reg Reg.pwrDvfs
  let go := fun (t : State) (die : Nat) =>
    let c := t.pwr.csyn die
    let n := if up then min (c.now + 1) (max (bits d 11 8) c.now) else max (c.now - 1) (min (bits d 3 0) c.now)
    if c.pending then t else t.csynTarget die n
  go (go s 0) 1

/-- A below 1 for 100 µs steps down (R304). -/
def execAutoDvfsDown (s : State) : Host.Outcome State Fault Refusal :=
  .next (s.afterIn .budget
    (match s.pwr.belowSince with
     | some t0 =>
       if bit (s.reg Reg.pwrDvfs) 31 ∧ t0 + usNs 100 ≤ s.now then
         let t := s.autoStep false
         { t with pwr := { t.pwr with belowSince := some s.now } }
       else s
     | none => s))

/-- A at 1 for 1 ms, and more than 10 % of the last grant lapsed, steps up (R304). -/
def execAutoDvfsUp (s : State) : Host.Outcome State Fault Refusal :=
  .next (s.afterIn .budget
    (match s.pwr.fullSince with
     | some t0 =>
       if bit (s.reg Reg.pwrDvfs) 31 ∧ t0 + msNs 1 ≤ s.now ∧ s.pwr.prevGrant < 10 * (s.pwr.prevGrant - s.pwr.prevSpent) then
         let t := s.autoStep true
         { t with pwr := { t.pwr with fullSince := some s.now } }
       else s
     | none => s))

/-- One core-clock step of a die completes (R303): the multiplier moves by one, and the rail's code follows it. -/
def execCsynStepDone (die : Nat) (s : State) : Host.Outcome State Fault Refusal :=
  let c := s.pwr.csyn die
  let n := if c.now < c.target then c.now + 1 else c.now - 1
  .next (s.afterIn .budget
    (if die < 2 ∧ c.pending then
       let t := s.setCsyn die fun c => { c with now := n, pending := decide (n ≠ c.target) }
       let t := if t.glb.variant.hasAttn ∧ t.glb.phase = .ready then t.emit (.pin (if die = 0 then .coreVid0 else .coreVid1) (vidCode die n)) else t
       if n = c.target then t.setEvt Evt.clkCsynDone else t
     else s))

end Sys2Proof.Machine
end

