-- ==== Sys2Proof/Machine/Attention.lean ====
section
/-! DEFINITION. Machine/Attention.lean: the commands of the attention engine (chapter 5). -/

namespace Sys2Proof.Machine

/-! ### Query records -/

/-- A `Q_SUBMIT` message is received (R94 to R96). -/
def execQSubmit (m : RxMsg) (s : State) : Host.Outcome State Fault Refusal :=
  .next (s.afterLink
    (if s.takes m 0x11 then
       match s.receive m (some (State.queryCost m.body)) with
       | (t, .pass i) =>
         let r := m.requester i
         let no := fun (st : Status) => ({ status := st, out := resultRecord (readQuery m.body) st false false [] } : Cpl)
         t.gate .xlt r no fun t => t.queryArrives r (t.domainOf r) m.body t.now
       | (t, .refuse i st retry) => let r := m.requester i; t.refuseQuery (t.domainOf r) r m.body st retry
       | (t, _) => t
     else s))

/-- `ATTEND` (R96, Table 12.4). -/
def execAttend (q : CmdRef) (inp : HostRead) (s : State) : Host.Outcome State Fault Refusal :=
  .next (s.afterIn .engine (s.runCmdIn q 0x19 inp fun t r d _ b =>
    let no := fun (st : Status) => ({ status := st, out := resultRecord (readQuery b) st false false [] } : Cpl)
    t.gate .xlt r no fun t => t.queryArrives r d b (t.arrivalOf r)))

/-- A step by its number, where it is held under R21 on this device alone or at its originator. -/
def State.heldStep (s : State) (step : Nat) (origin : Bool) : Option Step :=
  (s.step? step).filter fun t => decide (t.phase = .held) && (t.ring.all fun r => r.origin) == origin

/-- The hold of R21 ends when the append is accepted. -/
def execQHoldRelease (step : Nat) (s : State) : Host.Outcome State Fault Refusal :=
  .next (s.afterIn .engine
    (match s.heldStep step true with
     | some t => if s.ready? t then s.queueStep step else s
     | none => s))

/-- The hold of R21 ends after one epoch length. -/
def execQHoldTimeout (step : Nat) (s : State) : Host.Outcome State Fault Refusal :=
  .next (s.afterIn .engine
    (match s.heldStep step true with
     | some t => if !s.ready? t ∧ t.arrived + s.epochNs ≤ s.now then s.failStep step .timeout else s
     | none => s))

/-! ### Tasks -/

/-- A core, or the pair that starts with it, is free to take a task. -/
def State.coreFree (s : State) (core : Nat) : Bool :=
  s.workers.contains core && !s.att.lsPending && (s.team core).all fun c => decide ((s.core c).st = .idle)

/-- Whether no free core below a core could take a latency task: slices go to cores in index order, cluster by cluster (R107). -/
def State.coreTurn (s : State) (core : Nat) (k : Task) : Bool :=
  (List.range core).all fun c => !(s.coreFree c && s.offered k c)

/-- A free core takes a task (R106): a slice of a latency step goes to the lowest free core. -/
def execCoreTakeTask (core : Nat) (s : State) : Host.Outcome State Fault Refusal :=
  .next (s.afterIn .tests
    (if s.coreFree core then
       match s.latencyTask core, s.throughputTask core with
       | some k, _ => if s.coreTurn core k then s.startTask core k else s
       | none, some k => s.startTask core k
       | none, none => s
     else s))

/-- A latency task suspends the throughput task of a core (R108). -/
def execTaskPreempt (core : Nat) (s : State) : Host.Outcome State Fault Refusal :=
  let x := s.core core
  .next (s.afterIn .tests
    (if s.workers.contains core ∧ !s.att.lsPending ∧ x.st = .throughput ∧ x.suspended.isNone then
       match s.latencyTask core, x.task with
       | some k, some old =>
         let t := s.startTask core k
         if (t.core core).task = some k.id then
           (t.modTask old fun k => { k with st := .suspended core }).bumpD k.domain (Reg.atcPreemptLo + atcOff core)
         else t
       | _, _ => s
     else s))

/-- A check of a core failed: its event in the history, its retest, and, on a third within 30 days, its end (R354, R356). -/
def State.coreEvent (s : State) (c cls : Nat) : State :=
  let u := coreUnit c
  let s := s.fault u cls 3
  let s := s.setHistory u fun h => { h with events := recent s.histNow days30 h.events ++ [s.histNow] }
  let s := { s with flt := { s.flt with retest := if s.flt.retest.contains c then s.flt.retest else s.flt.retest ++ [c] } }
  if 3 ≤ (s.history u).events.length then s.declarePermanent u else s

/-- A task ends (R101), or its partial is withheld (R117, R120, R338). -/
def execTaskEnd (core : Nat) (result : TaskResult) (s : State) : Host.Outcome State Fault Refusal :=
  .next (s.afterIn .engine
    (match (s.core core).task.bind s.task? with
     | none => s
     | some k =>
       if k.st ≠ .running core then s
       else
         let off := atcOff core
         match result with
         | .good => s.taskGood core k
         | .checkFailed => ((s.setErr Err.atcCheck off).coreEvent core 0x03).taskAgain core k false
         | .storeError => ((s.setErr Err.atcCsUe off).fault (coreUnit core) 0x02 3).taskAgain core k false
         | .spillError =>
           if k.spill = 0 then s else ((s.setErr Err.atcSpillUe off).fault (coreUnit core) 0x02 3).taskAgain core k false
         | .lockstepDiffers =>
           if !s.att.lsActive then s
           else
             let t := ((s.bumpD k.domain (Reg.atcLsMismatchLo + off)).setErr Err.atcLsMismatch off).setEvt Evt.atcLsMismatch off
             ((t.coreEvent core 0x03).coreEvent (core + 1) 0x03).taskAgain core k true))

/-- A step that waits for spill space takes it, in order of arrival (R103). -/
def execSpillWaitRelease (step : Nat) (s : State) : Host.Outcome State Fault Refusal :=
  .next (s.afterIn .engine
    (match s.step? step with
     | some t => if t.phase = .spillWait then (if s.spillBytes < t.spillNeed then s.failStep step .noSpace else (s.takeSpill t).2) else s
     | none => s))

/-- The switch of lockstep, once no task of the old setting is on a core (R118). -/
def execLsSwitched (s : State) : Host.Outcome State Fault Refusal :=
  let busy := s.att.tasks.any fun k => match k.st with | .running _ | .suspended _ => true | _ => false
  .next (s.afterIn .tests
    (if s.att.lsPending ∧ !busy then
       ({ s with att := { s.att with lsPending := false, lsActive := bit (s.reg Reg.atcGcfg) 31 } } : State).setEvt Evt.atcLsSwitched
     else s))

end Sys2Proof.Machine
end

