-- ==== Sys2Proof/Machine/RingSteps.lean ====
section
/-! DEFINITION. Machine/RingSteps.lean: the commands of rings of devices (chapter 6). -/

namespace Sys2Proof.Machine

/-! ### Slots (R121, R122) -/

/-- Ports of a mask that the variant has. -/
def State.portMask (s : State) : Nat := 2 ^ s.glb.variant.ports - 1

/-- The operands of `RING_JOIN` are in their valid sets (Table 6.1). -/
def State.joinOk (s : State) (o : List Byte) : Bool :=
  let n := u8 o 2
  let pp := u32 o 4
  let sp := u32 o 8
  let present := decide (pp ||| s.portMask = s.portMask) && decide (sp ||| s.portMask = s.portMask)
  decide (1 ≤ u16 o 0) && decide (1 ≤ n) && decide (n ≤ 64) && decide (u8 o 3 < n) && zeros o 12 20 && present
    && (if n = 1 then decide (pp = 0) && decide (sp = 0)
        else decide (pp ≠ 0) && decide (sp ≠ 0) && (decide (n = 2) || decide (pp &&& sp = 0)))

/-- The slot of a ring of a domain. -/
def State.ringSlot (s : State) (d ringId : Nat) : Option (Nat × RingSlot) :=
  s.cwy.slots.find? fun e => decide (e.2.st ≠ .free) && decide (e.2.domain = d) && decide (e.2.ringId = ringId)

/-- Slots that are not free. -/
def State.usedSlots (s : State) : List Nat := (s.cwy.slots.filter fun e => decide (e.2.st ≠ .free)).map Prod.fst

/-- `RING_JOIN` (R121). -/
def State.ringJoin (s : State) (r : Requester) (d : Nat) (o : List Byte) : State :=
  if !s.glb.variant.hasAttn then s.fail r .absent
  else if !s.joinOk o || (s.ringSlot d (u16 o 0)).isSome then s.fail r .format
  else
    let owners := (s.cwy.slots.filter fun e => decide (e.2.st ≠ .free)).map fun e => e.2.domain
    match (if s.mayTake 16 Domain.ringRsv owners d then lowestFree s.usedSlots 0 16 else none) with
    | none => s.fail r .noSpace
    | some k =>
      s.privileged r d 0x02 0x38 o fun s =>
        let one := decide (u8 o 2 = 1)
        let x : RingSlot := {
          st := if one then .ready else .forming, domain := d, ringId := u16 o 0, n := u8 o 2, index := u8 o 3
          predPorts := u32 o 4, succPorts := u32 o 8 }
        let s := s.setSlot k fun _ => x
        (if one then s.setEvt Evt.cwyRingReady else s).complete r {}

/-- Opens a ring slot and starts attachment to both neighbours. -/
def execRingJoin (q : CmdRef) (s : State) : Host.Outcome State Fault Refusal :=
  .next (s.afterLink (s.runCmd q 0x38 fun t r d o => t.ringJoin r d o))

/-- Stripe sequences bound to a slot that are not `RETIRED`. -/
def State.boundStripes (s : State) (k : Nat) : Nat :=
  (s.xlt.seqs.filter fun e => decide (e.2.st ≠ .retired) && e.2.stripe.any fun t => t.slot == k).length

/-- `RING_LEAVE` (R122). A ring that the domain does not have is refused as an operand is. DESIGN CHOICE: a `C` variant, which
cannot be a ring member, answers `E_ABSENT`, as it answers `RING_JOIN` (log entry 92). -/
def State.ringLeave (s : State) (r : Requester) (d : Nat) (o : List Byte) : State :=
  if !s.glb.variant.hasAttn then s.fail r .absent
  else
    match s.ringSlot d (u16 o 0) with
    | none => s.fail r .format
    | some (k, x) =>
      if x.st = .leaving ∨ s.boundStripes k ≠ 0 then s.fail r .format
      else s.privileged r d 0x02 0x39 o fun s => (s.setSlot k fun x => { x with st := .leaving }).complete r {}

/-- Moves a ring slot to `LEAVING`. -/
def execRingLeave (q : CmdRef) (s : State) : Host.Outcome State Fault Refusal :=
  .next (s.afterIn .command (s.runCmd q 0x39 fun t r d o => t.ringLeave r d o))

/-- Whether a ring step is in flight in a slot. -/
def State.slotBusy (s : State) (k : Nat) : Bool := s.att.steps.any fun t => t.ring.any fun r => r.slot == k

/-- A `LEAVING` slot with no ring step in flight detaches its sessions and becomes free (R122). -/
def execRingSlotFree (slot : Nat) (s : State) : Host.Outcome State Fault Refusal :=
  let x := s.slot slot
  .next (s.afterLink
    (if x.st = .leaving ∧ !s.slotBusy slot then
       let t := { s with
         cwy := { s.cwy with slots := s.cwy.slots.erase slot }
         xlt := { s.xlt with seqs := s.xlt.seqs.mapVals fun _ q =>
           { q with stripe := q.stripe.filter fun z => z.slot != slot } } }
       t.forEach ((x.pred.toList ++ x.succ.toList).eraseDups) fun i t => t.detach i 6
     else s))

/-! ### Stripes (R123, R128) -/

/-- A running hash reaches its stripe: the hashes of the blocks that sealed meanwhile follow (R127). Blocks that already count as
not entered stay so. -/
def State.giveRun (s : State) (i : Nat) (h : DWord) : State :=
  match s.seq? i with
  | none => s
  | some x =>
    if x.runKnown then s
    else
      let s := s.setSeq i fun x => { x with run := h, runKnown := true, unhashed := [] }
      s.forEach x.unhashed fun b t =>
        let t := t.hashBlock i b.1 b.2
        match (if x.noIdx.any fun n => decide (n ≤ b.1) then none else (t.seq? i).bind fun x => x.bdOf b.1) with
        | some n => if ((t.xlt.bds.get? n).map fun y => y.whole && y.hashed).getD false then t.handOff i n else t
        | none => t

/-- `SEQ_STRIPE` (R123). -/
def State.seqStripe (s : State) (r : Requester) (d : Nat) (o : List Byte) : State :=
  let k := u8 o 6
  let j := u8 o 7
  let rsid := u32 o 8
  match s.findSeq d (u32 o 0) with
  | .error st => s.fail r st
  | .ok (i, x) =>
    match s.ringSlot d (u16 o 4) with
    | none => s.fail r .format
    | some (n, slot) =>
      let ls := 2 ^ j
      let bad := decide (x.st ≠ .idle) || decide (s.lengthOf x ≠ 0) || decide (x.base ≠ 0) || x.stripe.isSome
        || decide (slot.st = .leaving) || decide (j < 12) || decide (22 < j) || decide (slot.n ≤ k) || decide (2 ^ 24 < (k + 1) * ls)
        || (s.liveStripe n rsid).isSome || (x.determ && decide (ls < s.detSlice))
      if bad then s.fail r .format
      else
        s.privileged r d 0x03 0x10 o fun s =>
          let s := s.setSeq i fun x => { x with
            stripe := some { slot := n, rsid := rsid, k := k, log := j }, base := k * ls, next := [], acc := []
            runKnown := decide (k = 0) }
          let mine := (s.slot n).store.filter fun c => c.rsid == rsid
          let s := s.setSlot n fun y => { y with store := y.store.filter fun c => c.rsid != rsid }
          let s := s.forEach mine fun c t =>
            if c.j = k then t.giveRun i c.hash
            else (t.bumpD d Reg.cwyRingMisrouteLo).setErrD d Err.cwyRingMisroute
          s.complete r {}

/-- Binds an empty sequence to a ring slot as one stripe. -/
def execSeqStripe (q : CmdRef) (s : State) : Host.Outcome State Fault Refusal :=
  .next (s.afterIn .command (s.runCmd q 0x10 fun t r d o => t.gate .xlt r Status.cpl fun t => t.seqStripe r d o))

/-! ### Ring records -/

/-- The slot that a session serves as successor. -/
def State.slotOfSucc (s : State) (i : Nat) : Option Nat := (s.cwy.slots.find? fun e => e.2.succ == some i).map Prod.fst
/-- The slot that a session serves as predecessor. -/
def State.slotOfPred (s : State) (i : Nat) : Option Nat := (s.cwy.slots.find? fun e => e.2.pred == some i).map Prod.fst

/-- The cost of a `STEP` record as admission judges it. -/
def State.ringCost (b : List Byte) (s : State) (d : Nat) : Nat :=
  match s.xlt.seqs.find? fun e => decide (e.2.st ≠ .retired) && decide (e.2.domain = d) && e.2.stripe.any fun t => t.rsid == u32 b 0 with
  | some (_, x) => s.stepCost (s.modelOf x) (x.keptOf (readRingQuery b)) (b.length + 16)
  | none => s.attnCost 0 0 b.length

/-- Whether a message is a `RING_QUERY` of a kind. -/
def RxMsg.ringKind (m : RxMsg) (kind : Nat) : Bool := decide (8 ≤ m.body.length) && decide (u8 m.body 7 = kind)

/-- A `STEP` record is received: it comes from the successor (R130). -/
def execRingQueryStep (m : RxMsg) (s : State) : Host.Outcome State Fault Refusal :=
  .next (s.afterLink
    (if s.takes m 0x28 ∧ !m.ringKind 1 then
       match s.receive m (some (State.ringCost m.body)) with
       | (t, .pass i) =>
         let r := m.requester i
         if !t.glb.variant.hasAttn then t.refuseRing r m.body .absent 0
         else match t.slotOfSucc i with
         | some k =>
           t.gate .xlt r (fun st => { status := st, out := ringHeader m.body st 0 (u32 m.body 24) }) fun t =>
             t.ringStepArrives k r m.body t.now
         | none =>
           let d := t.domainOf r
           ((t.bumpD d Reg.cwyRingMisrouteLo).setErrD d Err.cwyRingMisroute).refuseRing r m.body .format 0
       | (t, .refuse i st retry) =>
         let t := if st = .busyRetry then t.bump (Reg.cwyRingBusyLo + cwyOff m.port) else t
         t.refuseRing (m.requester i) m.body st 0 retry
       | (t, _) => t
     else s))

/-- The answer to a `CHAIN` record (R128). -/
def State.chainArrives (s : State) (k : Nat) (r : Requester) (b : List Byte) : State :=
  let d := (s.slot k).domain
  let j := u32 b 8
  let c : ChainRec := { rsid := u32 b 0, j := j, hash := BitVec.ofNat 64 (u64 b 32), since := s.now }
  if !s.glb.variant.hasAttn then s.refuseRing r b .absent 0
  else if decide (b.length ≠ 40) || !zeros b 12 6 || !zeros b 28 4 then s.refuseRing r b .format 0
  else
    match s.liveStripe k c.rsid with
    | some (i, x) =>
      if (x.stripe.map Stripe.k) = some j then
        (s.giveRun i c.hash).complete r { out := ringHeader b .ok 0 (u32 b 24) }
      else ((s.bumpD d Reg.cwyRingMisrouteLo).setErrD d Err.cwyRingMisroute).refuseRing r b .format 0
    | none =>
      if 64 ≤ (s.slot k).store.length then s.refuseRing r b .busyRetry 0 100
      else (s.setSlot k fun x => { x with store := x.store ++ [c] }).complete r { out := ringHeader b .ok 0 (u32 b 24) }

/-- A `CHAIN` record is received: it comes from the predecessor (R127). It is never refused by admission (R294). -/
def execRingQueryChain (m : RxMsg) (s : State) : Host.Outcome State Fault Refusal :=
  .next (s.afterLink
    (if s.takes m 0x28 ∧ m.ringKind 1 then
       match s.receive m none with
       | (t, .pass i) =>
         let r := m.requester i
         if !t.glb.variant.hasAttn then t.refuseRing r m.body .absent 0
         else match t.slotOfPred i with
         | some k =>
           t.gate .xlt r (fun st => { status := st, out := ringHeader m.body st 0 (u32 m.body 24) }) fun t => t.chainArrives k r m.body
         | none =>
           let d := t.domainOf r
           ((t.bumpD d Reg.cwyRingMisrouteLo).setErrD d Err.cwyRingMisroute).refuseRing r m.body .format 0
       | (t, .refuse i st retry) => t.refuseRing (m.requester i) m.body st 0 retry
       | (t, _) => t
     else s))

/-- The answer to a `CHAIN` record that this device sent (R128); none where the partial answers none. -/
def State.chainAnswer (s : State) (i : Nat) (b : List Byte) (retry : Nat) : Option State :=
  match s.slotOfSucc i with
  | none => none
  | some k =>
    match (s.slot k).toSend.find? fun c => c.rsid == u32 b 0 && decide (u32 b 8 = 0) && decide (c.last = 0) with
    | none => none
    | some c =>
      let upd := fun (f : ChainRec → ChainRec) => s.setSlot k fun x => { x with
        toSend := x.toSend.map fun y => if y.rsid == c.rsid && y.j == c.j then f y else y }
      some (match Status.ofCode (u8 b 6) with
        | .ok => s.setSlot k fun x => { x with toSend := x.toSend.filter fun y => !(y.rsid == c.rsid && y.j == c.j) }
        | .busyRetry => upd fun y => { y with last := 1, since := s.now + usNs retry }
        | .unavailable => upd fun y => { y with last := 2 }
        | _ => upd fun y => { y with last := 3 })

/-- Whether a ring partial record is well formed on a model. -/
def partialOk (m : Model) (b : List Byte) : Bool :=
  let n := u8 b 7
  let st := Status.ofCode (u8 b 6)
  decide (16 ≤ b.length) && zeros b 14 2 && decide (u8 b 13 ≤ 1)
    && (if st = .ok then decide (1 ≤ n) && decide (n ≤ 6) else decide (n = 0))
    && decide (b.length = 16 + n * (8 + m.qHeads * (8 + 4 * m.headDim)))

/-- A ring partial reaches the member that forwarded its step (R132, R134, R135). -/
def State.partialArrives (s : State) (i : Nat) (m : RxMsg) : State :=
  let b := m.body
  if b.length < 16 then s.errorFor m (some i) .format
  else
    match s.chainAnswer i b m.head.retry with
    | some t => t
    | none =>
      let d := ((s.cwy.sessions.get? i).map Session.domain).getD 0
      match s.att.steps.find? fun t => t.ring.any fun r =>
          r.ringStep == u32 b 8 && r.rsid == u32 b 0 && r.forwarded.isSome && r.received.isNone && (s.slot r.slot).pred == some i
            && t.q.layer == u16 b 4 with
      | none => (s.bumpD d Reg.cwyRingLateLo).setErrD d Err.cwyRingLatePartial
      | some t =>
        let md := ((s.seq? t.seq).map s.modelOf).getD { layers := 1, kvHeads := 1, qHeads := 1, headDim := 32, format := 1, maxHg := 0 }
        if !partialOk md b then s.errorFor m (some i) .format
        else
          let st := Status.ofCode (u8 b 6)
          let es := if st = .ok then readPartials md b else []
          (s.modStep t.id fun t => { t with ring := t.ring.map fun r => { r with received := some (st, es) } }).ringCombine t.id

/-- A ring partial is received. -/
def execRingPartial (m : RxMsg) (s : State) : Host.Outcome State Fault Refusal :=
  .next (s.afterLink
    (if s.takes m 0x29 then
       match s.receive m none with
       | (t, .pass i) => t.partialArrives i m
       | (t, .refuse i st _) => t.errorFor m (some i) st
       | (t, _) => t
     else s))

/-- A held ring step of a lower member proceeds, or times out after one epoch (R131). -/
def execRingStepHoldRelease (step : Nat) (s : State) : Host.Outcome State Fault Refusal :=
  .next (s.afterIn .engine
    (match s.heldStep step false with
     | some t =>
       if s.ready? t then s.queueStep step
       else if t.arrived + s.epochNs ≤ s.now then s.failStep step .timeout else s
     | none => s))

/-- No partial within the ring timeout (R135). -/
def execRingTimeout (step : Nat) (s : State) : Host.Outcome State Fault Refusal :=
  let limit := usNs (max (s.fld Reg.cwyRingCfg 31 16) 100)
  .next (s.afterIn .engine
    (match s.step? step with
     | some t =>
       match t.ring with
       | some r =>
         if r.origin ∧ r.received.isNone ∧ (r.forwarded.any fun t0 => decide (t0 + limit ≤ s.now)) then
           let s := (s.bumpD t.domain Reg.cwyRingTimeoutLo).setErrD t.domain Err.cwyRingTimeout
           let s := s.modStep step fun t => { t with ring := t.ring.map fun r => { r with received := some (.timeout, []) } }
           if r.own.isSome then s.ringCombine step else s.failStep step .timeout
         else s
       | none => s
     | none => s))

/-- `CHAIN` records are sent again: those whose `RETRY_US` has passed, and, in `READY`, those that waited for it (R128). -/
def execChainRetry (slot : Nat) (s : State) : Host.Outcome State Fault Refusal :=
  let x := s.slot slot
  let due := x.toSend.filter fun c => decide (c.last = 1 ∧ c.since ≤ s.now) || decide (c.last = 2)
  .next (s.afterIn .answer (if x.st = .ready then s.forEach due fun c t => t.sendChain slot c else s))

end Sys2Proof.Machine
end

