-- ==== Sys2Proof/Machine/Sequences.lean ====
section
/-! DEFINITION. Machine/Sequences.lean: the commands on models and sequences (chapter 3). -/

namespace Sys2Proof.Machine

/-! ### Models (R49 to R53, R405) -/

/-- The operands of `MODEL_REGISTER` as a registration. -/
def readModel (o : List Byte) : Model :=
  { layers := u16 o 2, kvHeads := u16 o 4, qHeads := u16 o 6, headDim := u16 o 8, format := u8 o 10, maxHg := u8 o 11
    outlierAddr := u64 o 16 }

/-- Step 2 of R405: the valid sets of Table 3.3. DESIGN CHOICE: `Q_HEADS` = 0 is outside its set, a multiple of `KV_HEADS`
(log entry 99). -/
def modelOk (o : List Byte) : Bool :=
  let m := readModel o
  decide (1 ≤ u16 o 0) && decide (1 ≤ m.layers) && decide (1 ≤ m.kvHeads) && decide (1 ≤ m.qHeads) && decide (m.qHeads % max m.kvHeads 1 = 0)
    && decide (m.qHeads ≤ 4096) && (decide (256 < m.headDim) || (decide (32 ≤ m.headDim) && decide (m.headDim % 32 = 0)))
    && decide (1 ≤ m.format) && decide (m.format ≤ 4) && decide (m.maxHg ≤ 16) && zeros o 12 4 && zeros o 24 24
    && (decide (m.format = 4) || decide (m.outlierAddr = 0))

/-- The first row of Table 3.5 that holds: `LIMIT` and `SUGGEST_HG`. -/
def Model.tooLarge (m : Model) : Option (Nat × Nat) :=
  if 256 < m.headDim then some (1, 0)
  else if 256 < m.kvHeads then some (2, 0)
  else if 256 < m.layers then some (3, 0)
  else
    let g := splitOf m.kvHeads m.headDim m.format
    if (if m.maxHg = 0 then 16 else m.maxHg) < g.getD 17 then some (4, g.getD 0) else none

/-- Whether an outlier table is usable (R79): indices below `HEAD_DIM`, none twice in a record. -/
def outliersOk (m : Model) (t : List Byte) : Bool :=
  (List.range (m.layers * m.kvHeads)).all fun k =>
    let used := (((t.drop (4 * k)).take 4).map BitVec.toNat).filter (· != 0xFF)
    used.all (fun c => decide (c < m.headDim)) && decide (used.Nodup)

/-- The result word of a registration (R52). -/
def Model.word (m : Model) : Nat := m.groups + m.fc * 256 + m.ext / 512 * 65536

/-- `MODEL_REGISTER` in the order of R405. `table` is what the read of the outlier table gave. -/
def State.modelRegister (s : State) (r : Requester) (d : Nat) (o : List Byte) (table : HostRead) : State :=
  let m := readModel o
  let tag := u16 o 0
  let size := 4 * m.layers * m.kvHeads
  let t : Option (List Byte) := if m.format ≠ 4 then some []
    else match table with
      | .bytes b => if size ≤ b.length ∧ outliersOk m (b.take size) then some (b.take size) else none
      | .failed => none
  if !s.xlt.placed then s.fail r .unavailable
  else if !modelOk o then s.fail r .format
  else
    match m.tooLarge with
    | some (lim, sug) => s.complete r { status := .tooLarge, result := sug + lim * 256 }
    | none =>
      match s.model? d tag with
      | some old =>
        if { old with outliers := [] } = m then s.complete r { result := m.word } else s.fail r .format
      | none =>
        match t with
        | none => s.fail r .format
        | some t =>
          if !s.mayTake 4096 Domain.modelRsv (s.xlt.models.map fun e => e.1.1) d then s.fail r .noSpace
          else
            s.privileged r d 0x02 0x01 o fun s =>
              ({ s with xlt := { s.xlt with models := s.xlt.models.set (d, tag) { m with outliers := t } } } : State).complete r
                { result := m.word }

/-- Registers a model's layout in the order of R405. -/
def execModelRegister (q : CmdRef) (inp : HostRead) (s : State) : Host.Outcome State Fault Refusal :=
  .next (s.afterIn .command (s.runCmd q 0x01 fun t r d o => t.gate .xlt r Status.cpl fun t => t.modelRegister r d o inp))

/-- `MODEL_RELEASE` (R53). -/
def State.modelRelease (s : State) (r : Requester) (d : Nat) (o : List Byte) : State :=
  let tag := u16 o 0
  let seqs := s.xlt.seqs.any fun e => decide (e.2.st ≠ .retired) && decide (e.2.domain = d) && decide (e.2.model = tag)
  let bds := s.xlt.bds.any fun e => decide (e.2.domain = d) && decide (e.2.tag = tag)
  if (s.model? d tag).isNone || seqs || bds then s.fail r .format
  else
    s.privileged r d 0x02 0x02 o fun s =>
      ({ s with xlt := { s.xlt with models := s.xlt.models.erase (d, tag) } } : State).complete r {}

/-- Removes a model's registration when nothing live uses it. -/
def execModelRelease (q : CmdRef) (s : State) : Host.Outcome State Fault Refusal :=
  .next (s.afterIn .command (s.runCmd q 0x02 fun t r d o => t.gate .xlt r Status.cpl fun t => t.modelRelease r d o))

/-! ### Sequences -/

/-- Sequence indices that are in use, live or parked (R378), with the domain of each. -/
def State.usedSeqs (s : State) : List (Nat × Nat) :=
  ((s.xlt.seqs.filter fun e => decide (e.2.st ≠ .retired)).map fun e => (e.1, e.2.domain))
    ++ s.pea.parked.filterMap fun p => match p.body with | .seq i q => some (i, q.domain) | _ => none

/-- `SEQ_CREATE` (R45, R54, R143). -/
def State.seqCreate (s : State) (r : Requester) (d : Nat) (o : List Byte) : State :=
  let tag := u16 o 0
  let flags := u32 o 4
  if !s.xlt.placed then s.fail r .unavailable
  else if 1 < flags ∨ (s.model? d tag).isNone then s.fail r .format
  else if flags = 1 ∧ !s.glb.variant.hasAttn then s.fail r .absent
  else if !s.mayTake (2 ^ 24) Domain.seqRsv (s.usedSeqs.map Prod.snd) d then s.fail r .noSpace
  else
    let x := s.drawFrom Config.seqIndex
    match chooseFree (s.usedSeqs.map Prod.fst) 0 (2 ^ 24) x.1 with
    | none => s.fail r .noSpace
    | some i =>
      let s := x.2
      let t := match s.seq? i with | some q => q.tag % 255 + 1 | none => 1
      let b := s.rbdDom d
      let q : Seq := { tag := t, st := .idle, domain := d, model := tag, determ := decide (flags = 1), range := some (b.lo, b.hi), lastActive := s.now }
      ({ s with xlt := { s.xlt with seqs := s.xlt.seqs.set i q } } : State).complete r { result := handleOf t i }

/-- Creates a sequence and returns its handle. -/
def execSeqCreate (q : CmdRef) (s : State) : Host.Outcome State Fault Refusal :=
  .next (s.afterIn .command (s.runCmd q 0x08 fun t r d o => t.gate .xlt r Status.cpl fun t => t.seqCreate r d o))

/-- Run a command on the sequence that a handle at offset 0 names (R55). -/
def State.onSeq (s : State) (r : Requester) (d : Nat) (o : List Byte) (f : Nat → Seq → State) : State :=
  match s.findSeq d (u32 o 0) with
  | .error st => s.fail r st
  | .ok (i, q) => f i q

/-- `SEQ_RETIRE` (R57). -/
def State.seqRetire (s : State) (r : Requester) (i : Nat) : State :=
  (s.setSeq i fun q => { q with st := .draining, retirers := q.retirers ++ [r] }).awaits (.retire i)

/-- Starts the retirement of a sequence, or joins one under way. -/
def execSeqRetire (q : CmdRef) (s : State) : Host.Outcome State Fault Refusal :=
  .next (s.afterIn { Scope.command with slc := true } (s.runCmd q 0x09 fun t r d o => t.gate .xlt r Status.cpl fun t => t.onSeq r d o fun i _ => t.seqRetire r i))

/-- Truncates a sequence to a block boundary, at once or after its work in flight. -/
def execSeqTruncate (q : CmdRef) (s : State) : Host.Outcome State Fault Refusal :=
  .next (s.afterIn .engine (s.runCmd q 0x0A fun t r d o => t.gate .xlt r Status.cpl fun t =>
    if u32 o 4 % 16 ≠ 0 then t.fail r .format else t.onSeq r d o fun i _ => t.truncateArrives r i (u32 o 4)))

/-- A held truncate proceeds once no work of its sequence is in flight, and what waited behind it is checked (R58). -/
def execTruncateRelease (seq : Nat) (s : State) : Host.Outcome State Fault Refusal :=
  .next (s.afterMemIn .lookup
    (match s.seq? seq with
     | some q =>
       match q.trunc with
       | some (r, p) =>
         if q.inFlight = 0 ∧ s.mayBegin (.truncate seq) ∧ s.serves .xlt then
           let s := (s.endWait (.truncate seq)).setSeq seq fun q => { q with trunc := none }
           let s := s.truncateArrives r seq p
           s.resumeWaiting seq
         else s
       | none => s
     | none => s))

/-- The number of a state in `SEQ_QUERY` (Table 12.4). -/
def SeqState.num : SeqState → Nat
  | .idle => 0 | .active => 1 | .preempted => 2 | .poisoned => 3 | .draining => 4 | .retired => 5

/-- `SEQ_QUERY` (R59). -/
def State.seqQuery (s : State) (r : Requester) (i : Nat) (q : Seq) : State :=
  let len := s.lengthOf q
  let fp := s.firstPoison i q
  s.complete r { result := len, detail := fp
                 out := leBytes 1 q.st.num ++ leBytes 1 0 ++ leBytes 2 q.model ++ leBytes 4 len ++ leBytes 4 fp ++ leBytes 4 0 }

/-- Returns a sequence's state, length, model and first poisoned position. -/
def execSeqQuery (q : CmdRef) (s : State) : Host.Outcome State Fault Refusal :=
  .next (s.afterIn .answer (s.runCmd q 0x0B fun t r d o => t.gate .xlt r Status.cpl fun t => t.onSeq r d o fun i x => t.seqQuery r i x))

/-- A `DRAINING` sequence becomes `RETIRED` (R57): its pages are unmapped, its tables freed, its handle invalid, and the
`SEQ_RETIRE` commands complete. The binding of a stripe stands while its slot is open (R130). -/
def execSeqRetired (seq : Nat) (s : State) : Host.Outcome State Fault Refusal :=
  .next (s.afterIn .engine
    (match s.seq? seq with
     | some q =>
       if q.st = .draining ∧ s.drained seq q ∧ s.mayBegin (.retire seq) ∧ s.serves .xlt then
         let t := (s.endWait (.retire seq)).forEach (q.ptes.map Prod.fst) fun k t => t.unmapPage seq k
         let t := t.freeTables (.seq seq)
         let t := t.setSeq seq fun q => {
           tag := q.tag, st := .retired, domain := q.domain, model := q.model, stripe := q.stripe }
         (t.forEach q.retirers fun r t => t.complete r {}).sluice
       else s
     | none => s))

/-! ### Prefixes (R64, R126) -/

/-- Map one block as a page of every layer and head group. -/
def State.mapBlock (s : State) (i d page bd : Nat) (b : Bd) : Option State :=
  (List.range b.slots).foldl (fun t k => t.bind fun t =>
    let m := t.modelOfBd b
    let key := (k / m.groups, k % m.groups, page)
    (t.addTables (.seq i) (pageKey key.1 key.2.1 key.2.2) d).map fun t =>
      let e : Pte := { domain := d, share := some (bd, k), format := m.format, fc := m.fc, home := { tier := 0, addr := 0 }, fill := 16 }
      let t := t.setSeq i fun q => { q with ptes := q.ptes.set key e }
      t.setBd bd fun b => { b with fds := b.fds.modify k fun f => { f with refs := f.refs + 1 } }) (some s)

/-- A command that needs metadata frames finds the page-table region full (R48, R168): it waits for a pre-emption where one can
release enough, and otherwise it fails with the answer given and sets `XLT_ERR.PTR_FULL`. -/
def State.spaceOr (s : State) (r : Requester) (d need : Nat) (c : SpaceCmd) (no : Cpl) : State :=
  if s.fitsLater d need true then
    ({ s with slc := { s.slc with spaceCmds := s.slc.spaceCmds ++ [c] } } : State).autoPreempt d need true
  else (s.setErr Err.xltPtrFull).complete r no

/-- A command that needs metadata frames finds the page-table region full, and fails with its header alone. -/
def State.spaceOrFail (s : State) (r : Requester) (d need : Nat) (c : SpaceCmd) : State :=
  s.spaceOr r d need c { status := .noSpace }

/-- `SEQ_MAP_PREFIX` (R64). DESIGN CHOICE: a count that would map more than 262,144 pages, or past the end of a stripe, is refused
with `E_FORMAT` (log entry 100), and length 0 asks that every layer be at its base (log entry 101). -/
def State.mapPrefix (s : State) (r : Requester) (i d : Nat) (q : Seq) (o inp : List Byte) : State :=
  let n := u32 o 4
  let bds := (List.range n).map fun k => u32 inp (4 * k)
  let found := bds.filterMap fun b => (s.findBd d b).map fun x => (b, x)
  let empty := (List.range (s.modelOf q).layers).all fun l => decide (q.nextPos l = q.base)
  if q.st = .draining then s.fail r .unavailable
  else if found.length ≠ n then s.fail r .denied
  else if !empty || decide (4194304 < 16 * n) || decide (2 ^ 24 < q.base + 16 * n) || q.stripe.any (fun z => decide (2 ^ z.log < 16 * n))
      || found.any fun x => decide (x.2.tag ≠ q.model) || !x.2.whole then s.fail r .format
  else if found.any fun x => x.2.fds.any (fun f => f.2.poison) || s.metaPoison (.bdPage x.1) then s.fail r .poisoned
  else if found.any fun x => x.2.fds.any fun f => decide (65535 < f.2.refs + (bds.count x.1)) then s.fail r .noSpace
  else
    match (found.zipIdx).foldl (fun t x => t.bind fun (t : State) => t.mapBlock i d (q.base / 16 + x.2) x.1.1 x.1.2) (some s) with
    | none =>
      let need := 4096 * (((found.zipIdx).flatMap fun x => (List.range x.1.2.slots).flatMap fun k =>
        let g := (s.modelOfBd x.1.2).groups
        tablePath (.seq i) (pageKey (k / g) (k % g) (q.base / 16 + x.2))).eraseDups.filter fun f => !s.xlt.metas.has f).length
      s.spaceOrFail r d need { req := r, opcode := 0x0C, ops := o, inp := inp }
    | some t =>
      let len := q.base + 16 * n
      let all := (List.range (s.modelOf q).layers).map fun l => (l, len)
      let t := t.setSeq i fun q => { q with next := all, acc := all, lastActive := s.now }
      let t := match found.getLast? with
        | some x => t.setSeq i fun q => { q with run := x.2.hash, runKnown := true }
        | none => t
      t.complete r {}

/-- Maps cached blocks into an empty sequence as its first pages. -/
def execSeqMapPrefix (q : CmdRef) (inp : HostRead) (s : State) : Host.Outcome State Fault Refusal :=
  .next (s.afterIn .engine (s.runCmdIn q 0x0C inp fun t r d o b =>
    t.gate .xlt r Status.cpl fun t =>
      if b.length ≠ 4 * u32 o 4 then t.fail r .format else t.onSeq r d o fun i x => t.mapPrefix r i d x o b))

/-- A page given up while a pin held its frame is unmapped once the pin is released (R66). -/
def execUnmap (seq layer hg page : Nat) (s : State) : Host.Outcome State Fault Refusal :=
  let key := (layer, hg, page)
  .next (s.afterIn .engine
    (match s.seq? seq with
     | some q =>
       match takeFirst (fun (e : (Nat × Nat × Nat) × Pte) => e.1 == key) q.unmapping with
       | some ((_, e), rest) =>
         if !s.pinned (e.frame seq layer hg page) ∧ s.mayBegin (.unmap seq key) ∧ s.serves .xlt then
           (((s.endWait (.unmap seq key)).setSeq seq fun q => { q with unmapping := rest }).dropPte seq key e).sluice
         else s
       | none => s
     | none => s))

/-! ### Pre-emption classes (R181) -/

/-- `SEQ_PCLASS` (R181). -/
def execSeqPclass (q : CmdRef) (s : State) : Host.Outcome State Fault Refusal :=
  .next (s.afterIn .store (s.runCmd q 0x0F fun t r d o => t.gate .xlt r Status.cpl fun t =>
    if 15 < u8 o 4 then t.fail r .format
    else t.onSeq r d o fun i _ =>
      t.privileged r d 0x03 0x0F o fun t => ((t.setSeq i fun q => { q with pclass := u8 o 4 }).complete r {}).sluice))

end Sys2Proof.Machine
end

