-- ==== Sys2Proof/Machine/Appends.lean ====
section
/-! DEFINITION. Machine/Appends.lean: the commands that bring append records, and the end of a hold (chapter 4). -/

namespace Sys2Proof.Machine

/-- A `KV_APPEND` message is received (R82). -/
def execKvAppend (a : AppendMsg) (s : State) : Host.Outcome State Fault Refusal :=
  let m := a.msg
  .next (s.afterMemIn .lookup (s.cwyFollow
    (if s.takes m 0x10 then
       match s.receive m none with
       | (t, .pass i) =>
         let r := m.requester i
         t.gate .xlt r Status.cpl fun t => (t.appendArrives r (t.domainOf r) m.body a.ue).sluice
       | (t, .refuse i st retry) => t.complete (m.requester i) { status := st, retryUs := retry }
       | (t, _) => t
     else s)))

/-- `KV_APPEND` as a ring command (Table 12.4). -/
def execCmdKvAppend (q : CmdRef) (a : AppendInput) (s : State) : Host.Outcome State Fault Refusal :=
  .next (s.afterMemIn .lookup (s.runCmdIn q 0x18 a.inp fun t r d _ b =>
    t.gate .xlt r Status.cpl fun t => (t.appendArrives r d b a.ue).sluice))

/-- The first held record of a layer is written once nothing holds it, and those behind it follow (R83). A record held for a pin
or by a pre-emption goes after what waited before it (R406, R180). -/
def execHeldRecordWrite (seq : Nat) (a : HeldLayer) (s : State) : Host.Outcome State Fault Refusal :=
  .next (s.afterMemIn .lookup
    (if s.serves .xlt ∧ s.mayBegin (.rescale seq a.layer) ∧ s.releaseTurn (.held seq a.layer) then
       (s.drainHeld seq a.layer a.ue (((s.seq? seq).map fun q => q.held.length + 1).getD 0)).sluice
     else s))

end Sys2Proof.Machine
end

