-- ==== Sys2Proof/Machine/PeatReads.lean ====
section
/-! DEFINITION. Machine/PeatReads.lean: the map of T3 as reads use it, and the issue of a read (R190, R191, R202, R214). -/

namespace Sys2Proof.Machine

/-- The PSA of a sector. -/
def Pea.psaOf (p : Pea) (sector : Nat) : Option Nat :=
  match p.coarse.get? (sector / 16) with
  | none => none
  | some (.row pua) => some (pua * 16 + sector % 16)
  | some (.fine g) => (p.fine.get? g).bind fun l => (l[sector % 16]?).join

/-- The data of a slot of the flash. -/
def Pea.slotData (p : Pea) (psa : Nat) : List Byte := ((p.flash.get? psa).map Slot.data).getD (List.replicate 4096 0#8)

/-- Where a sector stands now: in the write buffer, in the flash, or nowhere. -/
def Pea.find (p : Pea) (x : Nat) : SectorSrc :=
  match p.buffer.findSome? fun u => if u.srcs.has x || u.trimmed.contains x then none else u.sectors.get? x with
  | some d => .held d
  | none => match p.psaOf x with
    | some a => .flash a
    | none => .unmapped

/-- The bytes that a place of a sector holds; an unmapped sector reads as zeros (R202). -/
def Pea.bytesOf (p : Pea) : SectorSrc → List Byte
  | .held d => d
  | .flash a => p.slotData a
  | .unmapped => List.replicate 4096 0#8

/-- Issue a read of some sectors for a move or a delivery: each uses the entry current now (R214). -/
def State.issueRead (s : State) (move : Nat) (sectors : List Nat) : State :=
  { s with pea := { s.pea with
    reads := s.pea.reads ++ [{ move := move, sectors := sectors, src := sectors.map s.pea.find, left := sectors }] } }

end Sys2Proof.Machine
end

