-- ==== Sys2Proof/Machine/Tables.lean ====
section
/-! DEFINITION. Machine/Tables.lean: the bytes of translation tables and block descriptors, as the entries of State spell them
(R60 to R62). The entries have one home, the structures of State; these are the other view of them (log entry 82). -/

namespace Sys2Proof.Machine

/-- The fields that the entries of Tables 3.7 and 3.8 share: domain, poison, state, format, class, `VALID`, generation, tier and
frame. -/
def entryWord (domain : Nat) (poison : Bool) (state format fc gen tier frame : Nat) : Nat :=
  domain % 2 ^ 12 * 2 ^ 116 + poison.toNat * 2 ^ 114 + state % 4 * 2 ^ 112 + format % 16 * 2 ^ 108 + fc % 8 * 2 ^ 105 + 2 ^ 104
    + gen % 2 ^ 24 * 2 ^ 80 + tier % 4 * 2 ^ 78 + frame % 2 ^ 40

/-- A PTE of a page (Table 3.7). -/
def Pte.word (e : Pte) : Nat :=
  match e.share with
  | none => entryWord e.domain e.poison (if e.moving then 2 else 0) e.format e.fc e.gen e.home.tier e.home.addr + e.fill % 32 * 2 ^ 40
  | some (b, k) => entryWord e.domain false 1 e.format e.fc 0 0 (b * 4096 + k) + 2 ^ 115 + 16 * 2 ^ 40

/-- A frame descriptor (Table 3.8). -/
def Fd.word (f : Fd) (indexed : Bool) : Nat :=
  entryWord f.domain f.poison (if f.moving then 2 else 1) f.format f.fc f.gen f.home.tier f.home.addr + indexed.toNat * 2 ^ 115
    + f.refs % 2 ^ 16 * 2 ^ 48

/-- The entry that names a metadata frame: a table (R60), or the page of a block descriptor, whose format code the spec does not
give and which reads as `RAW` here (DESIGN CHOICE, log entry 109). -/
def MetaFrame.word (m : MetaFrame) (table : Bool) : Nat :=
  entryWord m.domain m.poison (if m.moving then 2 else if table then 1 else 0) (if table then 0xF else 0x8)
    (if table then 0 else m.fc) m.gen m.home.tier m.home.addr

/-- The bytes of a block descriptor (R62): the header, then the frame descriptor of each slot. -/
def Bd.bytes (b : Bd) : List Byte :=
  leBytes 4 (b.block % 2 ^ 20) ++ leBytes 2 b.tag ++ leBytes 2 (b.domain % 2 ^ 12) ++ leBytes 2 b.slots ++ leBytes 2 b.sealedCount
    ++ leBytes 1 b.root.toNat ++ leBytes 3 0 ++ leBytes 8 b.hash.toNat ++ leBytes 8 b.pred.toNat ++ List.replicate 32 0#8
    ++ (List.range b.slots).flatMap fun k => leBytes 16 (((b.fds.get? k).map fun f => f.word b.indexed).getD 0)

/-- The entry of a table at its last level for one key. -/
def State.leafWord (s : State) (r : TableRoot) (key : Nat) : Nat :=
  match r with
  | .seq i => (((s.xlt.seqs.get? i).bind fun q => q.ptes.get? (key / 2 ^ 24, key / 2 ^ 20 % 16, key % 2 ^ 20)).map Pte.word).getD 0
  | .obj n => (((s.xlt.objs.get? n).bind fun o => o.map.get? key).map Pte.word).getD 0
  | .bds => ((s.xlt.metas.get? (.bdPage key)).map fun m => m.word false).getD 0

/-- The bytes of a metadata frame: the 256 entries of a table, or a block descriptor. -/
def State.metaBytes (s : State) (f : FrameId) : List Byte :=
  match f with
  | .table r level pre => (List.range 256).flatMap fun j => leBytes 16 (
      if level < 4 then ((s.xlt.metas.get? (.table r (level + 1) (pre * 256 + j))).map fun m => m.word true).getD 0
      else s.leafWord r (pre * 256 + j))
  | .bdPage b => ((s.xlt.bds.get? b).map Bd.bytes).getD []
  | _ => []

end Sys2Proof.Machine
end

