-- ==== Sys2Proof/Machine/SedgeOps.lean ====
section
/-! DEFINITION. Machine/SedgeOps.lean: the forms of a block, the places of T1, T2 and T3, Sedge's input queue and what crosses a
link (chapter 10). -/

namespace Sys2Proof.Machine

/-! ### The packed form (R216 to R221) -/

/-- `MAGIC` (Table 10.1). -/
def packMagic : Nat := 0x5D0EA7C31B94F268

/-- The 512 words of a block. -/
def wordsOf (data : List Byte) : List (List Byte) := chunks 8 512 data

/-- Whether a word holds a nonzero byte. -/
def nonzeroWord (w : List Byte) : Bool := w.any fun x => x != 0#8

/-- Words of a block that hold a nonzero byte (R217). -/
def nonzeroWords (data : List Byte) : Nat := ((wordsOf data).filter nonzeroWord).length

/-- The wire length of a packed block of `w` nonzero words. -/
def wireLen (w : Nat) : Nat := ceilDiv (80 + 8 * w) 64 * 64

/-- Bits as bytes, bit 0 of a byte first. -/
def bitBytes : Nat → List Bool → List Byte
  | 0, _ => []
  | n + 1, bs => BitVec.ofNat 8 ((bs.take 8).foldr (fun b v => b.toNat + 2 * v) 0) :: bitBytes n (bs.drop 8)

/-- The bits of some bytes. -/
def byteBits (bs : List Byte) : List Bool := bs.flatMap fun b => (List.range 8).map b.getLsbD

/-- The packed form of a block, as long as its wire length (Table 10.1). -/
def packBlock (data : List Byte) : List Byte :=
  let ws := wordsOf data
  let nz := ws.filter nonzeroWord
  let body := leBytes 8 packMagic ++ leBytes 2 nz.length ++ leBytes 6 0 ++ bitBytes 64 (ws.map nonzeroWord) ++ nz.flatten
  body ++ List.replicate (wireLen nz.length - (80 + 8 * nz.length)) 0#8

/-- The seal test of a reader, on the first 16 bytes under the packed tweak (R220). -/
def sealTest (b : List Byte) : Bool := u64 b 0 == packMagic && zeros b 10 6 && decide (u16 b 8 ≤ 470)

/-- The words of a block from its map and its nonzero words. -/
def placeWords : List Bool → List (List Byte) → List Byte
  | [], _ => []
  | true :: m, w :: ws => w ++ placeWords m ws
  | true :: m, [] => List.replicate 8 0#8 ++ placeWords m []
  | false :: m, ws => List.replicate 8 0#8 ++ placeWords m ws

/-- The expander (R221): none where `MAP` and `NWORDS` disagree, or where the padding is not 0. -/
def expandBlock (b : List Byte) : Option (List Byte) :=
  let n := u16 b 8
  let map := byteBits ((b.drop 16).take 64)
  if map.count true ≠ n then none
  else if (b.drop (80 + 8 * n)).any fun x => x != 0#8 then none
  else some (placeWords map (chunks 8 n (b.drop 80)))

/-! ### Places (R216, R219, R220) -/

/-- Byte address of block `i` of a frame in its tier. -/
def placeAt (h : Home) (i : Nat) : Nat × Nat := (h.tier, h.addr * 512 + i * 4096)

/-- Bytes of block `i` of a frame in its raw form: in T3 a short block is a full one (R216). -/
def blockLen (tier bytes i : Nat) : Nat := if tier = 3 then 4096 else min 4096 (bytes - i * 4096)

/-- Whether block `i` of a frame of some bytes is short and rests raw (R216). -/
def shortBlock (tier bytes i : Nat) : Bool := decide (tier ≠ 3) && decide (bytes < (i + 1) * 4096)

/-- The wire length of the packed block that rests at a place, and none where a raw one does. What rests there was encrypted under
the packed tweak, so the seal test passes on it, and on no raw block (R220, log entry 110). A place of T3 keeps it with the
flash. -/
def State.wireAt (s : State) (p : Nat × Nat) : Option Nat := if p.1 = 3 then s.pea.packed.get? (p.2 / 4096) else s.sdg.packed.get? p

/-- The form that rests at a place from now on. -/
def State.markPlace (s : State) (p : Nat × Nat) (wire : Option Nat) : State :=
  if p.1 = 3 then
    { s with pea := { s.pea with packed := match wire with | some n => s.pea.packed.set (p.2 / 4096) n | none => s.pea.packed.erase (p.2 / 4096) } }
  else { s with sdg := { s.sdg with packed := match wire with | some n => s.sdg.packed.set p n | none => s.sdg.packed.erase p } }

/-- A block in its crossing form reaches its place (R219): T1 and T2 take exactly those bytes, and Peat fills the slot with
zeros. -/
def State.landBlock (s : State) (h : Home) (i : Nat) (form : List Byte) (packed : Bool) : State :=
  let p := placeAt h i
  let s := s.markPlace p (if packed then some form.length else none)
  if h.tier = 3 then
    let put := fun (b : List Byte) => b.take (i * 4096) ++ (form ++ List.replicate 4096 0#8).take 4096 ++ b.drop ((i + 1) * 4096)
    { s with pea := { s.pea with waiting := s.pea.waiting.map fun w => if w.2.1 = h then (w.1, w.2.1, put w.2.2) else w } }
  else s.memWrite h.tier p.2 form

/-- Bytes that the blocks of a frame cross a link with, as they rest (R219, R220). -/
def State.wireOf (s : State) (h : Home) (bytes : Nat) : Nat :=
  sumNat ((List.range (ceilDiv bytes 4096)).map fun i => (s.wireAt (placeAt h i)).getD (blockLen h.tier bytes i))

/-- The same bytes before Sedge. -/
def rawOf (h : Home) (bytes : Nat) : Nat := sumNat ((List.range (ceilDiv bytes 4096)).map (blockLen h.tier bytes))

/-- Bytes that a link carries: of T2 on the host link, of T1 on the CXL port of the home (Tables 12.9 and 12.11). -/
def State.countPort (s : State) (h : Home) (write : Bool) (wire : Nat) : State :=
  match h.tier with
  | 1 => s.bump ((if write then Reg.cxpWrBytesLo else Reg.cxpRdBytesLo) + h.addr / 2 ^ 32 * 0x4000) wire
  | 2 => s.bump (if write then Reg.hifT2WrBytesLo else Reg.hifT2RdBytesLo) wire
  | _ => s

/-- Bytes counted as moved to or from a lower tier, plain and as they crossed. -/
def State.countLink (s : State) (d : Nat) (h : Home) (write : Bool) (raw wire : Nat) : State :=
  ((s.bumpD d Reg.slcBytesRawLo raw).bumpD d Reg.slcBytesLinkLo wire).countPort h write wire

/-! ### Reading blocks (R220, R221) -/

/-- How the read of one block ends. -/
inductive BlockRead where
  /-- Raw bytes, with the poison flag of the beats that carried them (R333). -/
  | raw (data : List Byte) (poison : Bool)
  | expanded (data : List Byte)
  | malformed
  deriving DecidableEq, Repr

/-- The bytes that a block read hands on; a block that fails hands on zeros under its poison flag. -/
def BlockRead.data : BlockRead → List Byte
  | .raw d _ => d
  | .expanded d => d
  | .malformed => List.replicate 4096 0#8

/-- Whether a block read carries poison: a block that fails counts as an uncorrectable error (R221). -/
def BlockRead.poison : BlockRead → Bool
  | .raw _ p => p
  | .expanded _ => false
  | .malformed => true

/-- Read one block from its place. `stored` is what the place holds, and `media` what the medium does to it. -/
def State.readBlock (s : State) (h : Home) (bytes : Nat) (stored : List Byte) (media : MediaRead) (page i : Nat) : BlockRead :=
  let got := match media.altered.find? fun x => x.1 == (page, i) with
    | some x => (x.2 ++ List.replicate 4096 0#8).take 4096
    | none => stored
  let bad := media.bad.contains (page, i)
  match s.wireAt (placeAt h i) with
  | some n =>
    if bad then .raw (List.replicate 4096 0#8) true
    else if sealTest got then (match expandBlock (got.take n) with | some d => .expanded d | none => .malformed)
    else .raw got false
  | none => .raw (got.take (blockLen h.tier bytes i)) bad

/-- Read the blocks of a frame or of an object page that rest at its home, whose places hold `stored`: the link bytes, the blocks
expanded and the malformed ones are counted (R220, R221). -/
def State.readBlocks (s : State) (d : Nat) (h : Home) (bytes : Nat) (stored : List Byte) (media : MediaRead) (page : Nat) :
    List BlockRead × State :=
  let n := ceilDiv bytes 4096
  let got := (chunks 4096 n stored).zipIdx.map fun x => s.readBlock h bytes x.1 media page x.2
  if h.tier = 0 then (got, s)
  else
    let s := s.countLink d h false (rawOf h bytes) (s.wireOf h bytes)
    let s := s.bumpD d Reg.sdgBlkExpLo (got.filter fun x => match x with | .expanded _ => true | _ => false).length
    let m := (got.filter fun x => x == .malformed).length
    (got, if m = 0 then s else (s.bumpD d Reg.sdgMalformedLo m).setErr Err.sdgMalformed)

/-! ### The input queue (R222 to R226) -/

/-- Lines of the Sedge partition (R224). -/
def State.sdgCap (s : State) : Nat := (64 - s.fld Reg.slcStage 5 0) * 256

/-- Bring `HIGH_PCT` up to date. -/
def State.sdgLevel (s : State) : State :=
  let high := decide (s.sdgCap * s.fld Reg.sdgCfg 7 0 ≤ s.sdg.queue.length * 100)
  let t := { s with sdg := { s.sdg with high := high } }
  if high && !s.sdg.high then t.setEvt Evt.sdgQueueHigh else t

/-- `MOVE_PCT` in effect. -/
def State.movePct (s : State) : Nat := let v := s.fld Reg.sdgCfg 15 8; if v = 0 ∨ 100 < v then 100 else v

/-- Whether blocks of a domain may be packed now (R222), but for the queue's own admission. -/
def State.mayPack (s : State) (d : Nat) : Bool :=
  let c := s.sdg.doms.getD d {}
  s.islandOn sedgeIsland && bit (s.reg Reg.sdgCfg) 31 && c.en && (!s.conf d || c.confOk)

/-- A block crosses raw: in T3 a short one is completed with zeros (R216). -/
def State.crossRaw (s : State) (d : Nat) (h : Home) (i : Nat) (data : List Byte) : State :=
  let form := if h.tier = 3 then (data ++ List.replicate 4096 0#8).take 4096 else data
  (s.landBlock h i form false).countLink d h true form.length form.length

/-- A block crosses packed. -/
def State.crossPacked (s : State) (d : Nat) (h : Home) (i : Nat) (data : List Byte) : State :=
  let form := packBlock data
  (((s.landBlock h i form true).countLink d h true 4096 form.length).bumpD d Reg.sdgBlkPackedLo).bumpD d Reg.sdgBytesOutLo form.length

/-- A block enters the queue in a free line of the Sedge partition (R224), which follows Sluice's in the staging buffer: a line that
another domain held last is zeroed first (R185). -/
def State.enterQueue (s : State) (owner d : Nat) (h : Home) (i : Nat) (data : List Byte) : State :=
  let line := (lowestFree (s.sdg.queue.map SdgBlock.line) s.slcLines stagingLines).getD s.slcLines
  let dirty := (s.slc.lines.get? line).any fun o => o != d
  let b : SdgBlock := { owner := owner, domain := d, line := line, dst := h, index := i, data := data, since := s.now }
  let s := { s with sdg := { s.sdg with queue := s.sdg.queue ++ [b] }, slc := { s.slc with lines := s.slc.lines.set line d } }
  (if dirty then s.bump Reg.lveScrubLo else s).sdgLevel

/-- A block of a move leaves staging for a lower tier (R222, R224); one that carries a poisoned beat crosses raw (R333). -/
def State.moveBlock (s : State) (m : Move) (poison : Bool) (i : Nat) (data : List Byte) : State :=
  let full := if m.dst.tier = 3 then (data ++ List.replicate 4096 0#8).take 4096 else data
  if poison || !s.mayPack m.domain || shortBlock m.dst.tier m.bytes i then s.crossRaw m.domain m.dst i data
  else if s.sdg.queue.length * 100 < s.movePct * s.sdgCap then s.enterQueue m.seqNo m.domain m.dst i full
  else ((s.crossRaw m.domain m.dst i data).bumpD m.domain Reg.sdgBlkBypassLo).setEvt Evt.sdgBypass

/-- Blocks of `OBJ_WRITE` commands enter the queue while a line is free (R224). One that may not be packed any more crosses raw
(R226). -/
def State.fillQueue (s : State) : Nat → State
  | 0 => s
  | n + 1 =>
    match s.slc.objWrites.find? fun w => !w.blocks.isEmpty with
    | none => s
    | some w =>
      match w.blocks with
      | [] => s
      | (h, i, data) :: rest =>
        let t := { s with slc := { s.slc with
          objWrites := updFirst (fun x => x.id == w.id) (fun x => { x with blocks := rest }) s.slc.objWrites } }
        if !s.mayPack w.domain then (t.crossRaw w.domain h i data).fillQueue n
        else if s.sdgCap ≤ s.sdg.queue.length then s
        else (t.enterQueue w.id w.domain h i data).fillQueue n

/-- Compress the block at the head of the queue (R218, R225). -/
def State.compress (s : State) (b : SdgBlock) (ue : Bool) : State :=
  let w := nonzeroWords b.data
  let packs := decide (80 + 8 * w ≤ 3840) && !ue
  let s := s.dropBlocks fun x => x.line == b.line
  let ps := s.sdg.busyPs + 20480 + 85 * w
  let s := { s with sdg := { s.sdg with busyPs := ps % 1000 } }
  let s := (s.bumpD b.domain Reg.sdgBlkInLo).bumpD b.domain Reg.sdgBusyNsLo (ps / 1000)
  let s := if packs then s.crossPacked b.domain b.dst b.index b.data
    else (s.crossRaw b.domain b.dst b.index b.data).bumpD b.domain Reg.sdgBlkRawLo
  s.sdgLevel

end Sys2Proof.Machine
end

