-- ==== Sys2Proof/Machine/Moves.lean ====
section
/-! DEFINITION. Machine/Moves.lean: the phases of a move, the Sedge queue and compressor, and the placement commands
(chapters 8 and 10). -/

namespace Sys2Proof.Machine

/-! ### Uncorrectable errors -/

/-- The 512-byte unit of T0 at a byte address that no extent owns leaves the pool, where it lies in the pool and is not out of it
already (R337). -/
def State.holdOut (s : State) (addr : Nat) : State :=
  let out := s.t0Regions ++ s.flt.retired.map fun r => (r.1 * 512, r.2)
  if addr < s.t0Bytes && !(out.any fun r => decide (r.1 ≤ addr) && decide (addr < r.1 + r.2)) then
    { s with flt := { s.flt with retired := s.flt.retired ++ [(addr / 512, 512)] } }
  else s

/-- An uncorrectable burst at a byte address of T0: the record of its stack, the extent kept for R337, and the decision on the
stack (R337, R348, R356). Which stack holds an address is left open (log entry 45). -/
def State.t0Ue (s : State) (addr : Nat) : State :=
  let unit := unitWord 0x38 (s.glb.variant.stackAt addr)
  let s := s.fault unit 0x02 2 addr
  let s : State := match s.slc.extents.find? fun e => e.1.tier == 0 && decide (e.1.addr * 512 ≤ addr) && decide (addr < e.1.addr * 512 + e.2.1) with
    | some e =>
      if s.flt.badT0.contains e.1.addr then s
      else (({ s with flt := { s.flt with badT0 := s.flt.badT0 ++ [e.1.addr] } } : State).fault unit 0x09 5 addr).setEvt Evt.glbPermanent
    | none => s.holdOut addr
  let s := s.setHistory unit fun h => { h with events := s.histNow :: recent s.histNow (secNs 1) h.events }
  if 1024 < (s.history unit).events.length then s.declarePermanent unit else s

/-- An uncorrectable error in the source of a move or a delivery, by tier. A T3 read reports its own (R202). -/
def State.tierUe (s : State) (h : Home) : State :=
  match h.tier with
  | 0 => s.t0Ue (h.addr * 512)
  | 1 =>
    let p := h.addr / 2 ^ 32
    (((s.bump (Reg.cxpPoisonLo + p * 0x4000)).setErr Err.cxpPoison (p * 0x4000))).fault (unitWord 0x31 p) 0x02 2 (h.addr * 512)
  | 2 => s.fault (unitWord 0x30 0) 0x02 2
  | _ => s

/-! ### What waits for Sedge -/

/-- Free the pages of a released object once no delivery and no write of it is in flight. -/
def State.freeObj (s : State) (n : Nat) : State :=
  match s.xlt.objs.get? n with
  | none => s
  | some o =>
    if o.live && o.releasing && !(s.slc.pageReads.any fun r => r.obj && r.target == n) && !s.slc.objWrites.any fun w => w.obj == n then
      let s := s.forEach o.map fun e t => t.freeFrame (.obj n e.1) e.2.home
      let s := s.freeTables (.obj n)
      s.setObj n fun o => { o with live := false, map := [], releasing := false }
    else s

/-- Whether an `OBJ_WRITE` has pages that are not written. -/
def State.objBusy (s : State) (w : ObjWrite) : Bool :=
  !w.blocks.isEmpty || s.sdg.queue.any (fun b => b.owner == w.id) || s.pea.waiting.any (fun x => x.1 == w.id)
    || s.pea.writes.any fun x => x.move == w.id

/-- Complete the `OBJ_WRITE` commands whose pages have all been written. -/
def State.endObjWrites (s : State) : State :=
  let done := s.slc.objWrites.filter fun w => !s.objBusy w
  let s := { s with slc := { s.slc with objWrites := s.slc.objWrites.filter fun w => s.objBusy w } }
  s.forEach done fun w t => (t.complete w.req { result := w.count }).freeObj w.obj

/-- The frame for which a block is on its way. -/
def State.frameOfBlock (s : State) (b : SdgBlock) : Option FrameId :=
  match s.slc.moves.find? fun m => m.seqNo == b.owner with
  | some m => if m.freed then none else some m.frame
  | none =>
    (s.slc.objWrites.find? fun w => w.id == b.owner).bind fun w =>
      (s.xlt.objs.get? w.obj).bind fun o => (o.map.find? fun e => e.2.home == b.dst).map fun e => .obj w.obj e.1

/-- The compressor takes the next block (R218), once the blocks that waited for a free line have entered (R224). An uncorrectable
error in its line poisons it as in a source read (R226). -/
def execSedgeCompress (ue : Bool) (s : State) : Host.Outcome State Fault Refusal :=
  .next (s.afterMemIn .search
    (let s := s.fillQueue 65536
     match s.sdg.queue with
     | [] => s.endObjWrites
     | b :: _ =>
       if s.islandOn sedgeIsland ∨ s.island sedgeIsland = .draining then
         let s := if ue then
             let s := (s.setErr Err.sdgUe).fault (unitWord 0x09 0) 0x02 2
             match s.frameOfBlock b with
             | some f => s.raisePoison f
             | none => s
           else s
         ((s.compress b ue).fillQueue 65536).endObjWrites
       else s.endObjWrites))

/-! ### Service order (R176) -/

/-- The frames on which a stalled work waits. -/
def State.stallFrames (s : State) (x : Stall) : List FrameId :=
  let out := fun (l : List FrameId) => l.filter fun f => ((s.frame? f).map fun i => decide (i.home.tier ≠ 0)).getD false
  match x.who with
  | .step id =>
    match s.step? id with
    | some t => out (((s.stepPages t).map fun p => p.2.2)
        ++ (s.stepPages t).flatMap fun p => p.2.1.metaPath t.seq p.1.1 p.1.2.1 p.1.2.2)
    | none => []
  | .held i l =>
    match s.seq? i with
    | some q =>
      match q.held.find? fun h => h.rc.layer == l with
      | some h => out ((s.tailFrames i q l (h.rc.pos / 16)) ++ tablePath (.seq i) (pageKey l 0 (h.rc.pos / 16)))
      | none => []
    | none => []
  | .read _ => []

/-- Channels in use, at most. -/
def State.channels (s : State) : Nat := let v := s.fld Reg.slcCfg 6 0; if v = 0 ∨ 64 < v then 64 else v

/-- The moves of a domain that has lost its keys wait until it is loaded again (Table 14.1). -/
def State.movesWait (s : State) (d : Nat) : Bool := decide ((s.lve.doms.get? d).map Domain.st = some .created)

/-- The place of a move in its domain's order (R176): its command by order of arrival, and its frame by order of expansion. -/
def State.moveKey (s : State) (m : Move) : Nat × Nat :=
  let r := (m.reqs.head?).getD 0
  (((s.slc.places.find? fun p => p.reqs.any fun x => x.id == r).map Placement.id).getD 0, r)

/-- The queued move that a free channel takes next, among those that the scheduler has dispatched. -/
def State.nextMove (s : State) : Option Move :=
  let ready := s.slc.moves.filter fun m => decide (m.st = .queued) && m.admitted && !s.movesWait m.domain
  let stalled := s.slc.stalls.findSome? fun x =>
    let fs := s.stallFrames x
    ready.find? fun m => m.tier == 0 && fs.contains m.frame
  stalled.orElse fun _ =>
    let turn := fun (m : Move) => (m.domain + 4096 - (s.slc.rrDomain + 1) % 4096) % 4096
    let first := fun (a b : Move) =>
      let x := s.moveKey a
      let y := s.moveKey b
      decide (turn a < turn b) || (turn a == turn b && (decide (x.1 < y.1) || (x.1 == y.1 && decide (x.2 < y.2))))
    ready.foldl (fun b m => match b with
      | none => some m
      | some y => if first m y then some m else b) none

/-- The sectors of a source in T3. -/
def Move.sourceSectors (m : Move) : List Nat := (List.range (ceilDiv m.bytes 4096)).map (m.src.addr / 8 + ·)

/-- A channel takes a queued move: its source reads are issued (Table 8.2). -/
def State.moveRead (s : State) (m : Move) : State :=
  let x := s.takeLines m.domain (ceilDiv m.bytes 4096)
  let s := x.2.modMove m.seqNo fun m => { m with st := .read, lines := x.1, since := s.now }
  let s := { s with slc := { s.slc with rrDomain := m.domain } }
  if m.src.tier = 3 then s.issueRead m.seqNo m.sourceSectors else s

/-- A queued move is taken by a free channel. -/
def execMoveRead (move : Nat) (s : State) : Host.Outcome State Fault Refusal :=
  .next (s.afterIn .engine
    (match s.nextMove with
     | some m =>
       let busy := (s.slc.moves.filter fun m => decide (m.st ≠ .queued)).length
       if m.seqNo = move ∧ busy < s.channels ∧ ceilDiv m.bytes 4096 ≤ s.linesFree then s.moveRead m else s
     | none => s))

/-- A move by its number, in a state. -/
def State.moveIn (s : State) (n : Nat) (st : MoveState) : Option Move :=
  (s.slc.moves.find? fun m => m.seqNo == n).filter fun m => decide (m.st = st)

/-- The source of a move was read badly: the frame is poisoned and the move goes on (Table 8.2). -/
def State.sourceBad (s : State) (m : Move) : State :=
  let s := if m.freed then s else s.raisePoison m.frame
  s.setErr Err.slcSrcUe

/-- What the places of a frame hold: the bytes of a metadata frame, the sectors that Peat read, or stored bytes. -/
def State.storedAt (s : State) (f : FrameId) (h : Home) (bytes : Nat) (sectors : List Byte) : List Byte :=
  match h.tier with
  | 0 => if s.xlt.metas.has f then (s.metaBytes f ++ List.replicate bytes 0#8).take bytes else s.frameBytes h 0 bytes
  | 3 => sectors
  | _ => s.frameBytes h 0 (ceilDiv bytes 4096 * 4096)

/-- The source of a move stands in staging: it is read, expanded and counted, and the destination writes are issued. A block that
carries a poisoned beat crosses raw (R333). -/
def State.moveWrite (s : State) (m : Move) (media : MediaRead) : State :=
  let x := s.readBlocks m.domain m.src m.bytes (s.storedAt m.frame m.src m.bytes m.staged) media 0
  let bad := x.1.map fun b => b.poison || m.flagged
  let s := x.2
  let s := if media.bad.isEmpty then s else s.tierUe m.src
  let s := if x.1.any BlockRead.poison then s.sourceBad m else s
  let data := (x.1.flatMap BlockRead.data).take m.bytes
  let s := s.modMove m.seqNo fun m => { m with st := .write, staged := data, since := s.now }
  let s := if m.dst.tier = 3 then { s with pea := { s.pea with waiting := s.pea.waiting ++ [(m.seqNo, m.dst, data)] } } else s
  if m.dst.tier = 0 then s
  else s.forEach ((chunks 4096 (ceilDiv m.bytes 4096) data).zipIdx) fun x t => t.moveBlock m (bad.getD x.2 false) x.2 x.1

/-- The source reads of a move complete in staging. -/
def execMoveWrite (move : Nat) (media : MediaRead) (s : State) : Host.Outcome State Fault Refusal :=
  .next (s.afterMemIn .search
    (match s.moveIn move .read with
     | some m => if s.answers m.src && !s.movesWait m.domain && !(s.pea.reads.any fun x => x.move == move) then s.moveWrite m media else s
     | none => s))

/-- Every destination write of a move has been acknowledged (R195, R225). -/
def State.moveAcked (s : State) (m : Move) : Bool :=
  s.answers m.dst && !(s.sdg.queue.any fun b => b.owner == m.seqNo) && !(s.pea.waiting.any fun w => w.1 == m.seqNo)
    && !s.pea.writes.any fun w => w.move == m.seqNo

/-- The destination writes of a move are acknowledged: the CRC is compared (R339), and invalidation starts. -/
def State.moveCommitStart (s : State) (m : Move) (failed : Bool) : State :=
  if failed then
    if m.retried then (s.abortMove m .internal 0).sluice
    else
      let s := s.modMove m.seqNo fun m => { m with st := .read, staged := [], flagged := false, retried := true, since := s.now }
      if m.src.tier = 3 then s.issueRead m.seqNo m.sourceSectors else s
  else
    let s := if m.dst.tier ≠ 0 || s.xlt.metas.has m.frame then s else s.putBytes m.dst 0 (m.staged.take m.bytes)
    s.modMove m.seqNo fun m => { m with st := .commit, staged := [] }

/-- The destination writes of a move are acknowledged; a demotion waits for pins (R23), and begins after the actions that
waited for the same pin before it (R406). -/
def execMoveCommitStart (move : Nat) (failed : Bool) (s : State) : Host.Outcome State Fault Refusal :=
  .next (s.afterMemIn .store
    (match s.moveIn move .write with
     | some m =>
       if s.moveAcked m && !s.movesWait m.domain then
         if m.promo then s.moveCommitStart m failed
         else if s.pinned m.frame then s.awaits (.commit move)
         else if s.mayBegin (.commit move) then (s.endWait (.commit move)).moveCommitStart m failed
         else s
       else s
     | none => s))

/-! ### Placement commands -/

/-- `SEQ_PREEMPT` (R179). -/
def execSeqPreempt (q : CmdRef) (s : State) : Host.Outcome State Fault Refusal :=
  .next (s.afterIn .engine (s.runCmd q 0x0D fun t r d o => t.gate .xlt r Status.cpl fun t => t.placeOrWait r d 0x0D o))

/-- `SEQ_RESTORE` (R180). -/
def execSeqRestore (q : CmdRef) (s : State) : Host.Outcome State Fault Refusal :=
  .next (s.afterIn .engine (s.runCmd q 0x0E fun t r d o => t.gate .xlt r Status.cpl fun t => t.placeOrWait r d 0x0E o))

/-- `SLC_WAIT` (R173). -/
def execSlcWait (q : CmdRef) (s : State) : Host.Outcome State Fault Refusal :=
  .next (s.afterIn .engine (s.runCmd q 0x21 fun t r d o =>
    let n := u32 o 0
    let named := t.slc.moves.any fun m => decide (m.domain = d) && (m.ticket == n || m.chain.any fun c => c.ticket == n)
    let named := named || t.slc.chainWait.any fun x => x.2.1 == d && x.2.2.ticket == n
    if n ≠ 0 ∧ named then { t with slc := { t.slc with waiters := t.slc.waiters ++ [(r, d, n)] } } else t.complete r {}))

/-- The work in flight of a pre-empted sequence has completed: its eligible frames are demoted (R179, step 4). -/
def execPreemptDemote (seq : Nat) (s : State) : Host.Outcome State Fault Refusal :=
  .next (s.afterIn .engine
    (match s.slc.places.find? fun p => !p.started && (match p.kind with | .preempt i _ => i == seq | _ => false), s.seq? seq with
     | some p, some q =>
       if !s.executing seq ∧ s.mayBegin (.preempt seq) ∧ s.serves .xlt then
         let fs := s.eligible seq q
         let t := (s.endWait (.preempt seq)).forEach fs fun f t =>
           let r : FrameReq := { id := t.slc.nextReq, frame := f, tier := 2 }
           ({ t with slc := { t.slc with nextReq := t.slc.nextReq + 1 } } : State).modPlace p.id fun p => { p with reqs := p.reqs ++ [r] }
         (t.modPlace p.id fun p => { p with started := true }).sluice
       else s
     | _, _ => s))

end Sys2Proof.Machine
end

