-- ==== Sys2Proof/Machine/Objects.lean ====
section
/-! DEFINITION. Machine/Objects.lean: objects, page delivery, the end of stalls, and the abandonment of a tier (chapters 8, 11
and 12). -/

namespace Sys2Proof.Machine

/-! ### Objects (R186) -/

/-- Object numbers in use, live or parked, with the domain of each. -/
def State.usedObjs (s : State) : List (Nat × Nat) :=
  ((s.xlt.objs.filter fun e => e.2.live).map fun e => (e.1, e.2.domain))
    ++ s.pea.parked.filterMap fun p => match p.body with | .obj i o => some (i, o.domain) | _ => none

/-- `OBJ_CREATE`. -/
def State.objCreate (s : State) (r : Requester) (d : Nat) (o : List Byte) : State :=
  if !s.xlt.placed then s.fail r .unavailable
  else if 6 < u8 o 0 ∨ 1 < u8 o 1 ∨ u32 o 4 = 0 then s.fail r .format
  else if !s.mayTake 65536 Domain.objRsv (s.usedObjs.map Prod.snd) d then s.fail r .noSpace
  else
    let x := s.drawFrom Config.objNumber
    match chooseFree (s.usedObjs.map Prod.fst) 0 65536 x.1 with
    | none => s.fail r .noSpace
    | some n =>
      let tag := match s.xlt.objs.get? n with | some q => q.tag % 255 + 1 | none => 1
      let obj : Obj := { tag := tag, domain := d, fc := u8 o 0, pages := u32 o 4, sedge := decide (u8 o 1 = 1) }
      let s := x.2
      ({ s with xlt := { s.xlt with objs := s.xlt.objs.set n obj } } : State).complete r { result := handleOf tag n }

/-- Creates an object. -/
def execObjCreate (q : CmdRef) (s : State) : Host.Outcome State Fault Refusal :=
  .next (s.afterIn .command (s.runCmd q 0x28 fun t r d o => t.gate .xlt r Status.cpl fun t => t.objCreate r d o))

/-- Run a command on the object that a handle at offset 0 names (R55). -/
def State.onObj (s : State) (r : Requester) (d : Nat) (o : List Byte) (f : Nat → Obj → State) : State :=
  match s.findObj d (u32 o 0) with
  | .error st => s.fail r st
  | .ok (n, x) => f n x

/-- An extent for each of some pages of an object, with its tables; none where the space does not exist. -/
def State.mapPages (s : State) (n : Nat) (o : Obj) (tier : Nat) : List Nat → Option State
  | [] => some s
  | p :: ps =>
    (s.addTables (.obj n) p o.domain).bind fun s =>
      (s.alloc o.domain tier (4096 * 2 ^ o.fc) false).bind fun x =>
        let e : Pte := { domain := o.domain, format := 8, fc := o.fc, home := x.1 }
        (x.2.setObj n fun q => { q with map := q.map.set p e }).mapPages n o tier ps

/-- Write one page of an object to its home: T0 takes it as the write is issued, T1 and T2 block by block as they cross, and T3
through Peat. -/
def State.writePage (s : State) (id : Nat) (o : Obj) (h : Home) (data : List Byte) : State :=
  if h.tier = 0 then s.putBytes h 0 data
  else
    let s := if h.tier = 3 then { s with pea := { s.pea with waiting := s.pea.waiting ++ [(id, h, data)] } } else s
    let blocks := (chunks 4096 (data.length / 4096) data).zipIdx
    if o.sedge && s.mayPack o.domain then
      { s with slc := { s.slc with
        objWrites := updFirst (fun w => w.id == id) (fun w => { w with blocks := w.blocks ++ blocks.map fun b => (h, b.2, b.1) }) s.slc.objWrites } }
    else s.forEach blocks fun b t => t.crossRaw o.domain h b.2 b.1

/-- The item of an `OBJ_WRITE` (Table 13.1), with the duration that a move of as many bytes would have (log entry 42). -/
def State.objectItem (s : State) (r : Requester) (d count size tier : Nat) : Item :=
  let rows := if tier = 3 then count * s.nandRows { tier := 3, addr := 0 } size else 0
  { domain := d, cls := .move, cost := s.moveCost (count * size) 0 rows, dur := count * size / 8 + 450, arrived := s.now, work := .write r }

/-- `OBJ_WRITE`: `go` says that it has been dispatched. -/
def State.objWrite (s : State) (r : Requester) (d : Nat) (o inp : List Byte) (n : Nat) (x : Obj) (go : Bool) : State :=
  let first := u32 o 4
  let count := u32 o 8
  let tier := u8 o 12
  let size := 4096 * 2 ^ x.fc
  let pages := (List.range count).map (first + ·)
  if x.releasing then s.fail r .unavailable
  else if decide (3 < tier) || decide (inp.length ≠ count * size) || decide (x.pages < first + count) || x.isSealed
      || pages.any fun p => x.map.has p then s.fail r .format
  else if tier = 3 ∧ !s.glb.variant.hasFlash then s.fail r .absent
  else if tier = 3 ∧ !s.islandOn peatIsland then s.fail r .unavailable
  else
    let c : SpaceCmd := { req := r, opcode := 0x29, ops := o, inp := inp }
    let s := if go then s else s.offer (s.objectItem r d count size tier)
    if s.waits (.write r) then { s with slc := { s.slc with spaceCmds := s.slc.spaceCmds ++ [c] } }
    else
      match s.mapPages n x tier pages with
      | none =>
        let need := 4096 * ((pages.flatMap fun p => tablePath (.obj n) p).eraseDups.filter fun f => !s.xlt.metas.has f).length
        let tables := pages.foldl (fun t p => t.bind fun (t : State) => t.addTables (.obj n) p d) (some s)
        if tables.isNone then s.spaceOrFail r d need c else s.fail r .noSpace
      | some s =>
        let id := s.slc.nextMove
        let w : ObjWrite := { id := id, req := r, domain := d, obj := n, count := count }
        let s := { s with slc := { s.slc with nextMove := id + 1, objWrites := s.slc.objWrites ++ [w] } }
        let homes := ((s.xlt.objs.get? n).map Obj.map).getD []
        let s := s.forEach (pages.zip (chunks size count inp)) fun p t =>
          match homes.get? p.1 with
          | some e => t.writePage id x e.home p.2
          | none => t
        (s.fillQueue 65536).endObjWrites

/-- Copies pages of an object from host memory (Table 8.7). -/
def execObjWrite (q : CmdRef) (inp : HostRead) (s : State) : Host.Outcome State Fault Refusal :=
  .next (s.afterMemIn .store (s.runCmdIn q 0x29 inp fun t r d o b =>
    t.gate .xlt r Status.cpl fun t => t.onObj r d o fun n x => t.objWrite r d o b n x false))

/-! ### Objects: sealing and release -/

/-- Makes an object immutable and readable. -/
def execObjSeal (q : CmdRef) (s : State) : Host.Outcome State Fault Refusal :=
  .next (s.afterIn .command (s.runCmd q 0x2A fun t r d o => t.gate .xlt r Status.cpl fun t => t.onObj r d o fun n x =>
    if x.releasing then t.fail r .unavailable else (t.setObj n fun x => { x with isSealed := true }).complete r {}))

/-- Releases an object (Table 8.7). -/
def execObjRelease (q : CmdRef) (s : State) : Host.Outcome State Fault Refusal :=
  .next (s.afterIn .engine (s.runCmd q 0x2B fun t r d o => t.gate .xlt r Status.cpl fun t => t.onObj r d o fun n _ =>
    (((t.setObj n fun x => { x with releasing := true }).freeObj n).complete r {}).sluice))

/-! ### Page delivery (R187, R242) -/

/-- The numbers of T3 reads that serve a delivery begin here, above those of moves. -/
def readBase : Nat := 2 ^ 60

/-- The body of a `PAGE_DATA` (Table 11.11). -/
def pageData (tag : Nat) (st : Status) (fill index page : Nat) (data : List Byte) : List Byte :=
  leBytes 4 tag ++ leBytes 1 st.code ++ leBytes 1 fill ++ leBytes 2 index ++ leBytes 4 page ++ leBytes 4 data.length ++ data

/-- A `PAGE_READ` body passes its own checks (Table 11.10). -/
def pageReadShape (b : List Byte) : Bool :=
  decide (b.length = 24) && decide (u8 b 4 < 2) && (decide (u8 b 4 = 0) || (decide (u8 b 5 = 0) && decide (u16 b 6 = 0)))
    && decide (1 ≤ u16 b 12) && decide (u16 b 12 ≤ 64) && zeros b 14 2 && zeros b 20 4

/-- The answer to a `PAGE_READ` that fails before any page. -/
def pageReadFail (b : List Byte) (st : Status) : Cpl :=
  { status := st, out := pageData (u32 b 16) st 0 0 (u32 b 8) [] }

/-- One `PAGE_DATA` that is not the last of its request leaves. -/
def State.sendPage (s : State) (r : Requester) (st : Status) (body : List Byte) : State :=
  match r with
  | .cwy i port _ _ _ _ _ _ =>
    if s.cwy.sessions.has i then s.sendReply (some i) port { mtype := 0x19, vc := 3, body := body } st else s
  | _ => s

/-- A delivery by its number. -/
def State.pageRead? (s : State) (id : Nat) : Option PageRead := s.slc.pageReads.find? fun r => r.id == id

/-- A delivery ends with its last `PAGE_DATA`. -/
def State.endRead (s : State) (r : PageRead) (st : Status) (body : List Byte) : State :=
  let s := { s with
    slc := { s.slc with pageReads := s.slc.pageReads.filter fun x => x.id != r.id }
    pea := { s.pea with reads := s.pea.reads.filter fun x => x.move != readBase + r.id } }
  let s := (s.endStall (.read r.id)).release r.domain r.cost
  let s := s.complete r.req { status := st, out := body }
  if r.obj then s.freeObj r.target else s.workEnds r.target

/-- A page and every later page of the request fail with a code. -/
def State.failPages (s : State) (r : PageRead) (st : Status) : State :=
  let left := (List.range r.count).filter fun k => decide (r.next ≤ k)
  let body := fun (k : Nat) => pageData r.tag st 0 k (r.page + k) []
  let s := s.forEach (left.filter fun k => decide (k + 1 < r.count)) fun k t => t.sendPage r.req st (body k)
  s.endRead r st (body (r.count - 1))

/-- One page is delivered; the last one ends the request. -/
def State.deliverPage (s : State) (r : PageRead) (fill : Nat) (data : List Byte) : State :=
  let body := pageData r.tag .ok fill r.next (r.page + r.next) data
  if r.next + 1 < r.count then
    let s := s.sendPage r.req .ok body
    { s with slc := { s.slc with pageReads := updFirst (fun x => x.id == r.id) (fun x => { x with next := r.next + 1 }) s.slc.pageReads } }
  else s.endRead r .ok body

/-- Bytes that a page of a sequence delivers: the data part, with the sidecar at byte 4,096 × 2^FC (R71, log entry 85). -/
def Model.pageBytes (m : Model) : Nat := 4096 * 2 ^ m.fc + sideBytes m.format m.g m.headDim

/-- What a page of a sequence delivers. -/
def State.deliverBytes (s : State) (m : Model) (h : Home) : List Byte := s.frameBytes h 0 m.pageBytes

/-- Deliver the next page of a sequence, stall on it, or fail from it on. -/
def State.seqPage (s : State) (r : PageRead) : State :=
  match s.seq? r.target with
  | none => s.failPages r .unavailable
  | some q =>
    let m := s.modelOf q
    let p := r.page + r.next
    match (if r.layer < m.layers ∧ r.hg < m.groups then q.ptes.get? (r.layer, r.hg, p) else none) with
    | none => s.failPages r .format
    | some e =>
      let f := e.frame r.target r.layer r.hg p
      let metaOut := (s.firstOut (e.metaPath r.target r.layer r.hg p)).isSome
      if s.foreignPte r.domain e then (s.domFault r.domain r.target).failPages r .denied
      else if s.pagePoison r.target r.layer r.hg p e then (s.poisonSeq r.target).failPages r .poisoned
      else if metaOut || !s.inT0 f then
        if s.slc.stalls.any fun x => x.who == .read r.id then s
        else s.beginStall (.read r.id) r.domain (s.stallCause (q.st == .preempted) metaOut f) (some f)
      else
        let home := ((s.frame? f).map FrameInfo.home).getD e.home
        if r.media.bad.any fun x => x.1 == r.next then
          (((s.endStall (.read r.id)).tierUe home).raisePoison f |>.poisonSeq r.target).failPages r .poisoned
        else (s.endStall (.read r.id)).deliverPage r e.fill (s.deliverBytes m home)

/-- Deliver an object page from what its places hold: packed blocks are expanded, and a block that fails, or that the medium cannot
correct, poisons the page (R187, R221, R334). -/
def State.deliverObj (s : State) (r : PageRead) (h : Home) (size : Nat) (sectors : List Byte) : State :=
  let f : FrameId := .obj r.target (r.page + r.next)
  let x := s.readBlocks r.domain h size (s.storedAt f h size sectors) r.media r.next
  if x.1.any BlockRead.poison then
    let s := if r.media.bad.any fun b => b.1 == r.next then x.2.tierUe h else x.2
    (s.raisePoison f).failPages r .poisoned
  else x.2.deliverPage r 0 (x.1.flatMap BlockRead.data)

/-- Deliver the next page of an object from its home, or start its T3 read. -/
def State.objPage (s : State) (r : PageRead) : State :=
  match (s.xlt.objs.get? r.target).bind fun o => (o.map.get? (r.page + r.next)).map fun e => (o, e) with
  | none => s.failPages r .format
  | some (o, e) =>
    let size := 4096 * 2 ^ o.fc
    let away := s.firstOut (tablePath (.obj r.target) (r.page + r.next))
    if e.domain ≠ r.domain then (s.domFault r.domain r.target).failPages r .denied
    else if away.isSome then
      -- a translation that needs a metadata frame outside T0 stalls (R48, R182)
      if s.slc.stalls.any fun x => x.who == .read r.id then s
      else s.beginStall (.read r.id) r.domain .translationMiss away
    else if e.poison || (tablePath (.obj r.target) (r.page + r.next)).any s.metaPoison then s.failPages r .poisoned
    else if e.home.tier = 3 then
      if !s.islandOn peatIsland then s.failPages r .unavailable
      else if s.pea.reads.any fun x => x.move == readBase + r.id then s
      else
        (s.endStall (.read r.id)).issueRead (readBase + r.id) ((List.range (size / 4096)).map (e.home.addr / 8 + ·))
    else if !s.answers e.home then (s.notAnswered e.home).failPages r .timeout
    else (s.endStall (.read r.id)).deliverObj r e.home size []

/-- Deliver pages until the request ends, stalls, or waits for Peat; none before its dispatch. -/
def State.pumpRead (s : State) (id : Nat) : Nat → State
  | 0 => s
  | n + 1 =>
    match s.pageRead? id with
    | none => s
    | some r =>
      if s.waits (.read id) then s
      else
        let t := if r.obj then s.objPage r else s.seqPage r
        match t.pageRead? id with
        | some x => if x.next = r.next then t else t.pumpRead id n
        | none => t

/-- Peat ends the read of an object page (R202): its data, or none where it is uncorrectable. -/
def State.t3Page (s : State) (id : Nat) (data : Option (List Byte)) : State :=
  match s.pageRead? id with
  | none => s
  | some r =>
    let f : FrameId := .obj r.target (r.page + r.next)
    match data, s.frame? f with
    | some d, some i => (s.deliverObj r i.home i.bytes d).pumpRead id 65
    | none, _ => (s.raisePoison f).failPages r .poisoned
    | _, none => s.failPages r .format

/-- Estimated cost of a `PAGE_READ` (Table 13.1). -/
def State.readCost (b : List Byte) (s : State) (d : Nat) : Nat :=
  let n := u16 b 12
  let size := if u8 b 4 = 1 then
      match s.findObj d (u32 b 0) with | .ok (_, o) => 4096 * 2 ^ o.fc | .error _ => 0
    else
      match s.findSeq d (u32 b 0) with
      | .ok (_, q) => (s.modelOf q).pageBytes
      | .error _ => 0
  s.attnCost (n * size) 0 (n * (16 + size))

/-- The item of a `PAGE_READ` (Table 13.1). -/
def State.readItem (s : State) (d cost id : Nat) : Item :=
  { domain := d, cls := .att, cost := cost, dur := 0, arrived := s.now, work := .read id }

/-- A `PAGE_READ` is accepted: its pages are delivered once it is dispatched. -/
def State.startRead (s : State) (r : Requester) (d : Nat) (b : List Byte) (media : MediaRead) (obj : Bool) (target : Nat) : State :=
  let cost := s.readCost b d
  let x : PageRead := {
    id := s.slc.nextRead, media := media, req := r, domain := d, obj := obj, target := target, layer := u16 b 6, hg := u8 b 5, page := u32 b 8
    count := u16 b 12, tag := u32 b 16, cost := cost }
  let s := s.admitWork d cost
  let s := { s with slc := { s.slc with pageReads := s.slc.pageReads ++ [x], nextRead := x.id + 1 } }
  let s := s.offer (s.readItem d cost x.id)
  (if obj then s else s.workStarts target).pumpRead x.id 65

/-- A `PAGE_READ` passes the receive checks: its own checks, and delivery. -/
def State.readArrives (s : State) (r : Requester) (d : Nat) (b : List Byte) (media : MediaRead) : State :=
  if !pageReadShape b then s.complete r (pageReadFail b .format)
  else if u8 b 4 = 1 then
    match s.findObj d (u32 b 0) with
    | .error st => s.complete r (pageReadFail b st)
    | .ok (n, o) =>
      if o.releasing then s.complete r (pageReadFail b .unavailable)
      else if !o.isSealed then s.complete r (pageReadFail b .format)
      else s.startRead r d b media true n
  else
    match s.findSeq d (u32 b 0) with
    | .error st => s.complete r (pageReadFail b st)
    | .ok (i, q) =>
      if q.st = .draining then s.complete r (pageReadFail b .unavailable) else s.startRead r d b media false i

/-- A `PAGE_READ` message is received. -/
def execPageRead (a : ReadMsg) (s : State) : Host.Outcome State Fault Refusal :=
  let m := a.msg
  .next (s.afterCwyIn .lookup
    (if s.takes m 0x18 then
       match s.receive m (some (State.readCost m.body)) with
       | (t, .pass i) =>
         let r := m.requester i
         t.gate .xlt r (pageReadFail m.body) fun t => (t.readArrives r (t.domainOf r) m.body a.media).sluice
       | (t, .refuse i st retry) => t.complete (m.requester i) { pageReadFail m.body st with retryUs := retry }
       | (t, _) => t
     else s))

/-! ### Stalls (R182, R183) -/

/-- A stall ends when what it waited for has reached T0 and its sequence is not pre-empted. What a pre-emption held goes in order
of arrival (R180). -/
def execStallEnd (stall : Nat) (s : State) : Host.Outcome State Fault Refusal :=
  .next (s.afterMemIn .lookup
    (match s.slc.stalls[stall]? with
     | some x =>
       if s.serves .xlt ∧ s.releaseTurn x.who then
         (match x.who with
          | .step id => s.resolveStep id
          | .held i l => s.drainHeld i l false (((s.seq? i).map fun (q : Seq) => q.held.length + 1).getD 0)
          | .read id => s.pumpRead id 65).sluice
       else s
     | none => s))

/-- First held records that wait without a stall: for a rescale, or for T0 space (R78, R168). -/
def State.quietHolds (s : State) : List (Nat × Nat × Nat) :=
  s.xlt.seqs.flatMap fun e => e.2.held.filterMap fun h => match h.cause with
    | .rescale => some (e.1, h.rc.layer, h.since)
    | .space => some (e.1, h.rc.layer, h.since)
    | _ => none

/-- A stall reaches the limit (R183). A number past the stalls names a hold without one, which R83 bounds in the same way. -/
def execStallTimeout (stall : Nat) (s : State) : Host.Outcome State Fault Refusal :=
  .next (s.afterIn .engine
    (match s.slc.stalls[stall]? with
     | some x =>
       if x.since + s.stallLimit ≤ s.now then
         let t := s.stallTimedOut x.who x.domain
         (match x.who with
          | .step id => t.failStep id .timeout
          | .held i l => t.failHeld i l .timeout .order
          | .read id => match t.pageRead? id with | some r => t.failPages r .timeout | none => t).sluice
       else s
     | none =>
       match s.quietHolds[stall - s.slc.stalls.length]? with
       | some (i, l, since) => if since + s.stallLimit ≤ s.now then (s.failHeld i l .timeout .order).sluice else s
       | none => s))

/-! ### Abandonment (R270, R273) -/

/-- The home of a frame whose extent has been abandoned: no extent of the tier lies there (log entry 46). -/
def lostHome (tier : Nat) : Home := { tier := tier, addr := 2 ^ 43 }

/-- Every frame whose home a test selects. -/
def State.framesAt (s : State) (p : Home → Bool) : List FrameId :=
  (s.xlt.seqs.flatMap fun x => (x.2.ptes.filter fun e => e.2.share.isNone && p e.2.home).map fun e =>
      FrameId.page x.1 e.1.1 e.1.2.1 e.1.2.2)
    ++ (s.xlt.bds.flatMap fun x => (x.2.fds.filter fun e => p e.2.home).map fun e => FrameId.slot x.1 e.1)
    ++ (s.xlt.objs.flatMap fun x => (x.2.map.filter fun e => p e.2.home).map fun e => FrameId.obj x.1 e.1)
    ++ (s.xlt.metas.filter fun e => p e.2.home).map Prod.fst

/-- Abandon the extents that a test selects: moves to or from them abort, their frames are poisoned, and the pool is released.
A move in `COMMIT` keeps its destination. -/
def State.abandon (s : State) (p : Home → Bool) : State :=
  let open_ := s.slc.moves.filter fun m => decide (m.st ≠ .commit) && (p m.src || p m.dst)
  let s := s.forEach open_ fun m t => t.abortMove m (if p m.src then .poisoned else .unavailable) 0
  let s := s.forEach (s.framesAt p) fun f t => (t.raisePoison f).setFrame f fun i => { i with home := lostHome i.home.tier }
  let kept := s.slc.moves.map Move.dst
  let s := { s with slc := { s.slc with
    extents := (s.slc.extents.filter fun e => !p e.1 || kept.contains e.1)
    places := (s.slc.places.map fun (x : Placement) => { x with reserve := (x.reserve.filter fun y => !p y.1) }) } }
  s.sluice

/-- Abandon the frames and the capacity of a CXL port; the port returns to discovery. -/
def State.cxlAbandon (s : State) (port : Nat) : State :=
  let next := fun (c : Cxl) => if c.width = 0 then CxlState.down else CxlState.discovering
  (s.abandon fun h => onCxlPort h port).setCxl port fun c => { c with st := next c, gib := 0 }

end Sys2Proof.Machine
end

