-- ==== Sys2Proof/Machine/Prefixes.lean ====
section
/-! DEFINITION. Machine/Prefixes.lean: the commands of Reedbed: lookups, probe slots, inserts, sweeps and scans (chapter 7). -/

namespace Sys2Proof.Machine

/-! ### Work that the device runs for itself -/

/-- The item that work of the device itself makes, and the parts it is charged in. -/
def State.backgroundItem (s : State) (cls : WorkClass) (cost dur : Nat) : Item × Nat :=
  let it : Item := { domain := 0, cls := cls, cost := cost, dur := dur, arrived := s.now, work := .move 0 }
  (it, if cls = .test then 1 else s.partsOf it)

/-- Whether work of the device itself may run now (R289 to R292). -/
def State.backgroundFits (s : State) (cls : WorkClass) (cost dur : Nat) : Bool :=
  let n := (s.backgroundItem cls cost dur).2
  let b := s.budget 0
  (decide (b.rate = 0) || decide (0 < b.bucket)) && decide (s.pwr.aNum ≠ 0) && s.pwr.live
    && decide ((ceilDiv cost n : Nat) ≤ s.available cls false) && decide (s.now + ceilDiv dur n ≤ s.pwr.planned)
    && decide (s.pwr.standby ≠ .standby) && s.backgroundTurn cls

/-- Run work of class `GC`, `SCRUB` or `TEST`, which is charged to domain 0: it waits for the next attempt where it does not
fit, and an item that must be split is charged in whole by the command that ends it (R289 to R292, log entry 47). -/
def State.background (s : State) (cls : WorkClass) (cost dur : Nat) (f : State → State) : State :=
  let n := (s.backgroundItem cls cost dur).2
  if s.backgroundFits cls cost dur then f ((if 1 < n then s.bump Reg.pwrSplitLo else s).charge 0 cls false cost) else s

/-! ### Domain-wide changes -/

/-- Sequences of a domain take a range (R143). -/
def State.setRange (s : State) (r : Requester) (d : Nat) (o : List Byte) : State :=
  let lo := u32 o 4
  let hi := u32 o 8
  if hi < lo then s.fail r .format
  else if u32 o 0 = 0 then (s.setRbdDom d fun x => { x with lo := lo, hi := hi }).complete r {}
  else s.onSeq r d o fun i _ => (s.setSeq i fun q => { q with range := some (lo, hi) }).complete r {}

/-- `PREFIX_SET_RANGE`. -/
def execPrefixSetRange (q : CmdRef) (s : State) : Host.Outcome State Fault Refusal :=
  .next (s.afterIn .search (s.runCmd q 0x30 fun t r d o => t.gate .xlt r Status.cpl fun t => t.setRange r d o))

/-- Raise a floor (R144): entries below it stop matching, breaks below it clear, and a sweep waits for the searches admitted
before. -/
def State.raiseFloor (s : State) (d f : Nat) : State :=
  let s := s.setRbdDom d fun x => { x with floor := f }
  { s with rbd := { s.rbd with
    breaks := s.rbd.breaks.filter fun b => !(b.domain == d && decide (b.hi < f))
    scans := s.rbd.scans ++ [{ kind := .floor f, domains := [d], before := s.rbd.admitted }] } }

/-- `PREFIX_FLOOR`. -/
def execPrefixFloor (q : CmdRef) (s : State) : Host.Outcome State Fault Refusal :=
  .next (s.afterIn .search (s.runCmd q 0x31 fun t r d o =>
    if u32 o 0 < (t.rbdDom d).floor then t.fail r .format else ((t.arrivedFirst d).raiseFloor d (u32 o 0)).complete r {}))

/-- The bytes of the rows that hold an entry that a test selects: what a sweep reads (log entry 47). -/
def State.sweepBytes (s : State) (p : Entry → Bool) : Nat := 2048 * (s.rbd.rows.filter fun r => r.2.any fun e => p e.2).length

/-- Run a scan as `SCRUB` work. -/
def State.scanWork (s : State) (bytes : Nat) (f : State → State) : State :=
  s.background .scrub (s.rowCost 0 0 bytes) (bytes / 8) f

/-- The sweep after a floor change, once every search of the domain admitted before has completed. -/
def execFloorSweep (dom : Nat) (s : State) : Host.Outcome State Fault Refusal :=
  .next (s.afterIn .search
    (match takeFirst (fun (x : Scan) => (match x.kind with | .floor _ => true | _ => false) && x.domains.contains dom) s.rbd.scans with
     | some (x, rest) =>
       let f := match x.kind with | .floor f => f | _ => 0
       let low := fun (e : Entry) => e.domain == dom && decide (e.hi < f)
       if s.rbd.searches.any fun y => y.domain == dom && decide (y.num < x.before) then s
       else
         s.scanWork (s.sweepBytes low) fun t =>
           (((({ t with rbd := { t.rbd with scans := rest } } : State).arrivedFirst dom).withdrawAll low).setEvt Evt.rbdSweepDone).sluice
     | none => s))

/-- Lower the `REFS` of a block's entry (R150). A block whose own descriptor holds none is a duplicate (row 4 of Table 7.5): its
entry is the one that R146 finds as predecessor (DEDUCED, log entry 108). -/
def State.lowerRefs (s : State) (prev : Option Nat) (b : Bd) : State :=
  let own := (prev.bind s.entryOfBd).map fun x => (x.1, x.2.2.bd)
  let dup := if b.root then none else (s.predEntry b.domain b.tag b.pred).map fun x => (rowOf b.pred, x.2.bd)
  match own.orElse fun _ => dup with
  | some (n, bd) => s.modEntry n bd fun x => { x with refs := if x.refs = 65535 then x.refs else x.refs - 1 }
  | none => s

/-- Withdraw the entries of a sequence's blocks from the highest down (R150). `prev` gives the descriptor of a block of the
sequence by its index. The count is of entries withdrawn. -/
def State.evictFrom (s : State) (prev : Nat → Option Nat) : List Nat → Nat → Nat × State
  | [], n => (n, s)
  | bd :: rest, n =>
    match s.entryOfBd bd, s.xlt.bds.get? bd with
    | some _, some b => ((s.withdrawBlock bd).lowerRefs (if b.root then none else prev (b.block - 1)) b).evictFrom prev rest (n + 1)
    | _, _ => s.evictFrom prev rest n

/-- `PREFIX_EVICT` (R150), after the updates of the domain that arrived before (R146). -/
def State.prefixEvict (s : State) (r : Requester) (d e : Nat) (q : Seq) : State :=
  let s := s.arrivedFirst d
  let blocks := (q.ptes.filterMap fun x => x.2.share.map fun y => (x.1.2.2, y.1)).eraseDups
  let prev := fun (i : Nat) => (blocks.find? fun x => x.1 == i).map Prod.snd
  let named := (blocks.filter fun x => decide (e ≤ x.1)).mergeSort fun a b => decide (b.1 ≤ a.1)
  let bds := (named.map Prod.snd).filter fun b => ((s.xlt.bds.get? b).map Bd.indexed).getD false
  let x := s.evictFrom prev bds.eraseDups 0
  (x.2.complete r { result := x.1 }).sluice

/-- `PREFIX_EVICT`. -/
def execPrefixEvict (q : CmdRef) (s : State) : Host.Outcome State Fault Refusal :=
  .next (s.afterIn .search (s.runCmd q 0x32 fun t r d o => t.gate .xlt r Status.cpl fun t => t.onSeq r d o fun _ x => t.prefixEvict r d (u32 o 4) x))

/-- Free a hash list and its frames (R157). -/
def State.freeList (s : State) (id : Nat) : State :=
  match s.rbd.lists.get? id with
  | none => s
  | some l => l.frames.foldl State.freeExt { s with rbd := { s.rbd with lists := s.rbd.lists.erase id } }

/-- Purge a domain (R149): its entries stop matching, its lists and breaks go, and a sweep empties it. -/
def State.purgeDomain (s : State) (d : Nat) : State :=
  let running := (s.rbdDom d).purging
  let ids := (s.rbd.lists.filter fun e => e.2.domain == d).map Prod.fst
  let t := (ids.foldl State.freeList s).setRbdDom d fun x => { x with purging := true }
  let t := { t with rbd := { t.rbd with breaks := t.rbd.breaks.filter fun b => b.domain != d } }
  s.only { slc := true, flt := true, rbd := true, pea := true }
    (if running then t else { t with rbd := { t.rbd with scans := t.rbd.scans ++ [{ kind := .purge, domains := [d] }] } })

/-- `PREFIX_PURGE`. -/
def execPrefixPurge (q : CmdRef) (s : State) : Host.Outcome State Fault Refusal :=
  .next (s.afterIn .search (s.runCmd q 0x33 fun t r d _ => (((t.arrivedFirst d).purgeDomain d).complete r {}).sluice))

/-- A purge sweep ends, and the domain leaves purging. -/
def execPurgeSweepEnd (dom : Nat) (s : State) : Host.Outcome State Fault Refusal :=
  .next (s.afterIn .search
    (match takeFirst (fun (x : Scan) => x.kind == .purge && x.domains.contains dom) s.rbd.scans with
     | some (_, rest) =>
       let mine := fun (e : Entry) => e.domain == dom
       s.scanWork (s.sweepBytes mine) fun t =>
         let t := (({ t with rbd := { t.rbd with scans := rest } } : State).arrivedFirst dom).withdrawAll mine
         ((t.setRbdDom dom fun x => { x with purging := false }).setEvt Evt.rbdSweepDone).sluice
     | none => s))

/-! ### Inserts and rows -/

/-- The update engine takes the oldest hand-off (R146, R147). -/
def execReedbedInsert (s : State) : Host.Outcome State Fault Refusal :=
  .next (s.afterIn .index
    (match s.xlt.handoffs with
     | h :: rest =>
       if s.serves .xlt then ({ s with xlt := { s.xlt with handoffs := rest } } : State).rbdInsert h else s
     | [] => s))

/-- The update engine moves one entry of a row by one slot toward the layout rule (R142). -/
def execRowMove (row : Nat) (s : State) : Host.Outcome State Fault Refusal :=
  .next (s.afterIn .index
    (if s.rbd.dirtyRows.contains row then
       match restoreStep (s.row row) with
       | some r =>
         let t := (s.setRow row r).bump Reg.rbdMoveLo
         if rowRule r then { t with rbd := { t.rbd with dirtyRows := t.rbd.dirtyRows.filter (· != row) } } else t
       | none => { s with rbd := { s.rbd with dirtyRows := s.rbd.dirtyRows.filter (· != row) } }
     else s))

/-- An uncorrectable error in a row burst (R152): the row is lost and written back empty, and a repair scan starts. -/
def execRowUe (row : Nat) (s : State) : Host.Outcome State Fault Refusal :=
  .next (s.afterIn .index
    (if s.rbd.placed ∧ row < 2 ^ 22 then
       let t := (s.row row).foldl (fun t _ => t.bump Reg.rbdWithdrawLo) s
       let t := (t.setRow row []).t0Ue (s.rowAddr row)
       let t := { t with rbd := { t.rbd with
         dirtyRows := t.rbd.dirtyRows.filter (· != row), scans := t.rbd.scans ++ [({ kind := .repair row, domains := [] } : Scan)] } }
       t.setErr Err.rbdRowUe
     else s))

/-- The number of the first scan of a kind. -/
def State.takeScan (s : State) (p : ScanKind → Bool) : Option (Scan × List Scan) := takeFirst (fun x => p x.kind) s.rbd.scans

/-- Bytes of the headers of the live block descriptors. -/
def State.bdBytes (s : State) : Nat := 64 * s.xlt.bds.length

/-- A repair scan ends (R152): `INDEXED` is cleared in the descriptors whose hash maps to the lost row, and a resolve scan of
their domains starts. -/
def execRepairScan (s : State) : Host.Outcome State Fault Refusal :=
  .next (s.afterIn .search
    (match s.takeScan fun k => match k with | .repair _ => true | _ => false with
     | some (x, rest) =>
       let n := match x.kind with | .repair n => n | _ => 0
       let hit := s.xlt.bds.filter fun b => b.2.indexed && decide (rowOf b.2.hash = n)
       s.scanWork s.bdBytes fun t =>
         let t := { t with rbd := { t.rbd with scans := rest } }
         let t := t.forEach hit fun b t => (t.setBd b.1 fun b => { b with indexed := false }).sweepBd b.1
         let ds := (hit.map fun b => b.2.domain).eraseDups
         let t := if ds.isEmpty then t else t.startResolve ds (ds.filter fun d => (t.rbdDom d).linear)
         (t.setEvt Evt.rbdRepairDone).sluice
     | none => s))

/-- Withdraw the entry of an indexed block whose predecessor no longer matches (R152). -/
def State.resolveBd (s : State) (bd : Nat) : State :=
  match s.xlt.bds.get? bd with
  | none => s
  | some b =>
    if !b.indexed || b.root || (s.predEntry b.domain b.tag b.pred).isSome then s
    else
      match s.entryOfBd bd with
      | some (row, _, _) => s.withdraw row bd
      | none => (s.setBd bd fun b => { b with indexed := false }).sweepBd bd

/-- The indexed block descriptors of some domains, in ascending block index. -/
def State.indexedBds (s : State) (ds : List Nat) : Assoc Nat Bd :=
  (s.xlt.bds.filter fun b => ds.contains b.2.domain && b.2.indexed).mergeSort fun a b => decide (a.2.block ≤ b.2.block)

/-- A resolve scan ends (R151, R152), after the updates of its domains that arrived before (R146). -/
def execResolveScan (s : State) : Host.Outcome State Fault Refusal :=
  .next (s.afterIn .search
    (match s.takeScan fun k => k == .resolve with
     | some (x, rest) =>
       if s.islandOn searchIsland then
         s.scanWork (s.bdBytes + 2048 * (s.indexedBds x.domains).length) fun t =>
           let t := x.domains.foldl State.arrivedFirst ({ t with rbd := { t.rbd with scans := rest } } : State)
           let t := (t.indexedBds x.domains).foldl (fun t b => t.resolveBd b.1) t
           let t := { t with rbd := { t.rbd with breaks := t.rbd.breaks.filter fun b => !x.domains.contains b.domain } }
           let t := t.forEach x.linear fun d t => t.setRbdDom d fun y => { y with linear := false }
           (t.setEvt Evt.rbdRepairDone).sluice
       else s
     | none => s))

/-! ### Lookups (R153 to R165) -/

/-- A lookup record (Table 7.9). -/
structure Lookup where
  kind : Nat
  rmode : Nat
  tag : Nat
  touch : Bool
  keep : Bool
  list : Nat
  a : Nat
  b : Nat
  touchHi : Nat
  start : Nat
  hash : DWord
  count : Nat
  offset : Nat
  ltag : Nat
  tokens : List Word
  deriving DecidableEq, Repr

/-- Read a lookup record. -/
def readLookup (b : List Byte) : Lookup :=
  let kind := u8 b 0
  let count := u32 b 32
  { kind := kind, rmode := u8 b 1, tag := u16 b 2, touch := bit (u16 b 4) 0, keep := bit (u16 b 4) 1, list := u16 b 6
    a := u32 b 8, b := u32 b 12, touchHi := u32 b 16, start := u32 b 20, hash := BitVec.ofNat 64 (u64 b 24), count := count
    offset := u32 b 36, ltag := u32 b 40
    tokens := if kind = 0 then (List.range (min count 65536)).map fun i => BitVec.ofNat 32 (u32 b (48 + 4 * i)) else [] }

/-- A result record (Table 7.10). -/
def lookupResult (ltag : Nat) (st : Status) (flags list first hits : Nat) (last : DWord) (bds : List Nat) : List Byte :=
  leBytes 4 ltag ++ leBytes 1 st.code ++ leBytes 1 flags ++ leBytes 2 list ++ leBytes 4 first ++ leBytes 4 hits
    ++ leBytes 8 last.toNat ++ leBytes 4 bds.length ++ leBytes 4 0 ++ bds.flatMap fun b => leBytes 4 b

/-- The header-only answer to a lookup that fails. -/
def lookupFail (b : List Byte) (st : Status) : Cpl :=
  { status := st, out := lookupResult (if 44 ≤ b.length then u32 b 40 else 0) st 0 0 0 0 0 [] }

/-- Step 1 of R165. -/
def State.lookupShape (s : State) (d : Nat) (b : List Byte) : Bool :=
  let l := readLookup b
  let appends := l.keep && decide (l.list ≠ 0)
  decide (48 ≤ b.length) && decide (l.kind < 4) && decide (l.rmode < 4) && decide (u16 b 4 < 4) && (!l.keep || decide (l.kind = 0))
    && (decide (l.kind ≠ 0) || l.keep || decide (l.list = 0)) && (decide (l.rmode < 2) || decide (l.a ≤ l.b))
    && (match l.kind with
        | 0 => decide (l.count % 16 = 0) && decide (16 ≤ l.count) && decide (l.count ≤ 65536) && decide (b.length = 48 + 4 * l.count)
            && (appends || decide (l.start ≠ 0) || decide (l.hash = 0))
        | 2 => decide (1 ≤ l.count) && decide (l.count ≤ 4096) && decide (b.length = 48)
        | _ => decide (l.count = 0) && decide (b.length = 48))
    && zeros b 44 4 && (s.model? d l.tag).isSome

/-- The live list of a domain that a lookup names. -/
def State.listOf (s : State) (d id : Nat) : Option HashList := (s.rbd.lists.get? id).filter fun l => l.domain == d

/-- Whether a lookup names a list. -/
def Lookup.names (l : Lookup) : Bool := decide (l.kind ≠ 0) || (l.keep && decide (l.list ≠ 0))

/-- Whether searches of a domain run linearly (R152, R154). -/
def State.linearNow (s : State) (d : Nat) : Bool :=
  (s.rbdDom d).linear || s.rbd.scans.any fun x => match x.kind with
    | .repair _ => true
    | .resolve => x.domains.contains d
    | _ => false

/-- Frames of 4 KiB for a list of some blocks of 12 bytes, beyond those that it has; none where the page-table region is full. -/
def State.growList (s : State) (d : Nat) (l : HashList) : Option (HashList × State) :=
  let need := ceilDiv (12 * l.blocks.length) 4096 - l.frames.length
  (List.range need).foldl (fun x _ => x.bind fun x => (x.2.alloc d 0 4096 true).map fun y =>
    ({ x.1 with frames := x.1.frames ++ [y.1] }, y.2)) (some (l, s))

/-- What a search found: hits in block order, the blocks probed, whether it ran linearly, and whether a break cut it. -/
structure Found where
  hits : Nat
  entries : List Entry
  probes : List Nat
  linear : Bool
  cut : Bool
  deriving DecidableEq, Repr

/-- Search a run of hashes, the first of which is block `first` (R154, R155). -/
def State.searchRun (s : State) (d : Nat) (l : Lookup) (first : Nat) (hs : List (DWord × Word)) (mayGallop : Bool) : Found :=
  let x := s.rbdDom d
  let dead := x.purging || !bit (s.reg Reg.rbdCfg) 31
  let p : Probe := { domain := d, tag := l.tag, mode := l.rmode, a := l.a, b := l.b, floor := x.floor }
  let hit := fun (h : DWord × Word) => if dead then none else s.probe p h
  let linear := !mayGallop || l.rmode == 3 || s.linearNow d
  if dead then ⟨0, [], [], linear, false⟩
  else if linear then
    let es := linearHits hit hs
    let n := min (es.length + 1) hs.length
    ⟨es.length, es, (hs.take n).map fun h => rowOf h.1, true, false⟩
  else
    let at_ := fun (j : Nat) => hs.getD j (0, 0)
    let k := gallop (fun j => (hit (at_ j)).isSome) hs.length
    let k' := s.rbd.breaks.foldl (fun k b =>
      if b.domain = d ∧ first ≤ b.block ∧ b.block < first + k ∧ (at_ (b.block - first)).1 = b.hash then b.block - first else k) k
    let es := (hs.take k').filterMap hit
    ⟨k', es, (gallopProbes (fun j => (hit (at_ j)).isSome) hs.length).map fun j => rowOf (at_ j).1, false, decide (k' < k)⟩

/-- A search ends: its result leaves, then its touches are written (R145). -/
def State.endSearch (s : State) (x : Search) : State :=
  let s := { s with rbd := { s.rbd with searches := s.rbd.searches.filter fun y => y.num != x.num } }
  let s := (s.bump Reg.rbdLookupLo).release x.domain x.cost
  let s := if x.gallop then s.bump Reg.rbdGallopLo else s
  let s := s.complete x.req x.result
  let s := if x.touches.isEmpty then s else s.arrivedFirst x.domain
  s.forEach x.touches fun t s => s.modEntry t.1 t.2 fun e => { e with hi := max e.hi x.touchHi }

/-- The item of a prefix lookup, which goes with the latency-mode steps (R290). -/
def State.searchItem (s : State) (d cost num : Nat) : Item :=
  { domain := d, cls := .att, latency := true, cost := cost, dur := 0, arrived := s.now, work := .search num }

/-- Searches that have been dispatched, in order of arrival. -/
def State.searchesRun (s : State) : List Search := s.rbd.searches.filter fun x => !s.waits (.search x.num)

/-- A search that has been dispatched and has no row to probe ends. -/
def State.beginSearch (s : State) (n : Nat) : State :=
  match s.searchesRun.find? fun x => x.num == n && x.probes.isEmpty with
  | some x => s.endSearch x
  | none => s

/-- A search is admitted: once it is dispatched, its probes wait for slots. -/
def State.startSearch (s : State) (r : Requester) (d : Nat) (l : Lookup) (cost : Nat) (f : Found) (c : Cpl) : State :=
  let x : Search := {
    num := s.rbd.admitted, domain := d, probes := f.probes, req := r, result := c, touchHi := l.touchHi
    touches := if l.touch then f.entries.map fun e => (rowOf e.hash, e.bd) else [], cost := cost
    gallop := decide (l.kind = 1) && !f.linear }
  let s := s.admitWork d cost
  let s := { s with rbd := { s.rbd with admitted := x.num + 1, searches := s.rbd.searches ++ [x] } }
  (s.offer (s.searchItem d cost x.num)).beginSearch x.num

/-- Estimated cost of a lookup (Table 13.1, log entry 34): one row for each block that it may probe. -/
def State.lookupCost (b : List Byte) (s : State) (d : Nat) : Nat :=
  let l := readLookup b
  let n := match l.kind with
    | 0 => l.count / 16
    | 1 => min 70 (((s.listOf d l.list).map fun x => x.blocks.length).getD 0)
    | 2 => l.count
    | _ => 0
  s.attnCost (2048 * n) 0 (b.length + 32 + (if l.kind % 2 = 0 then 4 * n else 0))

/-- Carry out a lookup record that passed its checks. `base` is the list that it names. A list that finds the page-table region
full waits for a pre-emption that can release enough (R48, R168). -/
def State.runLookup (s : State) (r : Requester) (d : Nat) (rec : List Byte) (cost : Nat) (base : Option HashList) : State :=
  let l := readLookup rec
  let flags := fun (f : Found) => (if f.linear then 1 else 0) + (if f.cut then 2 else 0)
  match l.kind with
  | 0 =>
    match s.rbdKeys d with
    | none =>
      s.startSearch r d l cost ⟨0, [], [], true, false⟩ { out := lookupResult l.ltag .ok 1 0 l.start 0 0 [] }
    | some keys =>
      let first := match base with | some x => x.start + x.blocks.length | none => l.start
      let prev := match base with | some x => (x.blocks.getLast?.map Prod.fst).getD 0 | none => l.hash
      let hs := chainHashes keys l.tag (l.count / 16) l.tokens prev
      let last := (hs.getLast?.map Prod.fst).getD 0
      let done := fun (s : State) (id : Nat) =>
        let f := s.searchRun d l first hs false
        s.startSearch r d l cost f { out := lookupResult l.ltag .ok (flags f) id first f.hits last (f.entries.map Entry.bd) }
      if !l.keep then done s 0
      else
        let grown : HashList := match base with
          | some x => { x with blocks := x.blocks ++ hs }
          | none => { domain := d, tag := l.tag, start := first, blocks := hs }
        match s.growList d grown with
        | none =>
          let need := 4096 * (ceilDiv (12 * grown.blocks.length) 4096 - grown.frames.length)
          let c : SpaceCmd := { req := r, opcode := 0x1A, ops := [], inp := rec }
          s.spaceOr r d need c { status := .noSpace, out := lookupResult l.ltag .noSpace 0 0 0 0 0 [] }
        | some (x, t) =>
          let c := t.drawFrom Config.listId
          let id := if base.isSome then l.list else (chooseFree t.rbd.lists.keys 1 65536 c.1).getD 0
          let t := if base.isSome then t else c.2
          done { t with rbd := { t.rbd with lists := t.rbd.lists.set id x } } id
  | 1 =>
    let x := base.getD { domain := d, tag := l.tag }
    let f := s.searchRun d l x.start x.blocks true
    s.startSearch r d l cost f { out := lookupResult l.ltag .ok (flags f) l.list x.start f.hits 0 [] }
  | 2 =>
    let x := base.getD { domain := d, tag := l.tag }
    let f := s.searchRun d l (x.start + l.offset) ((x.blocks.drop l.offset).take l.count) false
    s.startSearch r d l cost f { out := lookupResult l.ltag .ok (flags f) l.list (x.start + l.offset) f.hits 0 (f.entries.map Entry.bd) }
  | _ =>
    (s.freeList l.list).startSearch r d l cost ⟨0, [], [], false, false⟩ { out := lookupResult l.ltag .ok 0 0 0 0 0 [] }

/-- A lookup record arrives (R165). `outLen` bounds the result of the ring form. -/
def State.lookupArrives (s : State) (r : Requester) (d : Nat) (b : List Byte) (outLen : Option Nat) : State :=
  let l := readLookup b
  let no := fun (s : State) (st : Status) => s.complete r (lookupFail b st)
  let base := if l.names then s.listOf d l.list else none
  let most := 32 + (match l.kind with | 0 => l.count / 4 | 2 => 4 * l.count | _ => 0)
  let cost := s.lookupCost b d
  let grows := l.keep && (s.rbdKeys d).isSome
  let size := (base.map fun x => x.blocks.length).getD 0 + l.count / 16
  let owners := s.rbd.lists.map fun x => x.2.domain
  if !s.lookupShape d b || (outLen.any fun n => decide (n < most)) then no s .format
  else if l.names && base.isNone then no s .denied
  else if base.any fun x => x.tag != l.tag then no s .format
  else if !s.islandOn searchIsland then no s .unavailable
  else if grows && (decide (2 ^ 20 < size) || (base.isNone && !s.mayTake 256 Domain.listRsv owners d)) then no s .noSpace
  else
    match r, s.admitRefuses d cost with
    | .ring _, true => (s.refuseAdmission d).complete r { lookupFail b .busyRetry with retryUs := s.retryHint d }
    | _, _ => s.runLookup r d b cost base

/-- A `PREFIX_LOOKUP` message is received. -/
def execPrefixLookup (m : RxMsg) (s : State) : Host.Outcome State Fault Refusal :=
  .next (s.afterCwyIn .lookup
    (if s.takes m 0x20 then
       match s.receive m (some (State.lookupCost m.body)) with
       | (t, .pass i) => let r := m.requester i; t.lookupArrives r (t.domainOf r) m.body none
       | (t, .refuse i st retry) => t.complete (m.requester i) { lookupFail m.body st with retryUs := retry }
       | (t, _) => t
     else s))

/-- `PREFIX_LOOKUP` as a ring command (Table 12.4). -/
def execCmdPrefixLookup (q : CmdRef) (inp : HostRead) (s : State) : Host.Outcome State Fault Refusal :=
  .next (s.afterIn .lookup (s.runCmdIn q 0x1A inp fun t r d o b => t.lookupArrives r d b (some (u32 o 8))))

/-! ### Probe slots (R158, R160, R161) -/

/-- The domain whose probe takes the next slot. -/
def State.probeTurn (s : State) : Option Nat :=
  let ready := ((s.searchesRun.filter fun x => !x.probes.isEmpty).map Search.domain).eraseDups
  if ready.contains s.rbd.rrDom && decide (s.rbd.rrSlots < (s.budget s.rbd.rrDom).w) then some s.rbd.rrDom
  else
    let key := fun (d : Nat) => (d + 4096 - (s.rbd.rrDom + 1) % 4096) % 4096
    ready.foldl (fun b d => match b with | none => some d | some y => if key d < key y then some d else b) none

/-- Issue one probe of a domain: its line or T0 (R158). -/
def State.probeRow (s : State) (d row : Nat) : State :=
  let x := s.rbdDom d
  let s := s.bump Reg.rbdProbeLo
  let s := if s.rbd.lastDom.any fun o => o != d then s.bump Reg.lveScrubLo else s
  let s := { s with rbd := { s.rbd with lastDom := some d } }
  let hit := x.lines.contains row
  let lines := (x.lines.filter (· != row)) ++ [row]
  let s := s.setRbdDom d fun x => { x with lines := lines.drop (lines.length - x.hot) }
  s.bumpD d (if hit && decide (x.hot ≠ 0) then Reg.rbdHotHitLo else Reg.rbdHotMissLo)

/-- One probe slot is granted: to scans within their share, and otherwise to the domain whose turn it is. -/
def execProbeGrant (s : State) : Host.Outcome State Fault Refusal :=
  let share := max 1 (s.fld Reg.rbdCfg 3 0)
  let scans := s.rbd.scans.any fun x => match x.kind with
    | .floor _ => !s.rbd.searches.any fun y => x.domains.contains y.domain && decide (y.num < x.before)
    | _ => true
  let wrap := decide (s.rbd.slot16 = 15)
  let base := fun (t : State) (scan : Nat) => { t with rbd := { t.rbd with
    slot16 := (if wrap then 0 else t.rbd.slot16 + 1), scan16 := (if wrap then 0 else t.rbd.scan16 + scan) } }
  .next (s.afterIn .search
    (if s.searchRuns then
       if scans && decide (s.rbd.scan16 < share) then (base s 1).bump Reg.rbdProbeLo
       else
         match s.probeTurn with
         | some d =>
           match s.searchesRun.find? fun x => x.domain == d && !x.probes.isEmpty with
           | some x =>
             let t := (base s 0).probeRow d (x.probes.headD 0)
             let slots := if t.rbd.rrDom = d then t.rbd.rrSlots + 1 else 1
             let t := { t with rbd := { t.rbd with
               rrDom := d, rrSlots := slots
               searches := updFirst (fun y => y.num == x.num) (fun y => { y with probes := y.probes.drop 1 }) t.rbd.searches } }
             if x.probes.length ≤ 1 then t.endSearch x else t
           | none => s
         | none => if scans then (base s 1).bump Reg.rbdProbeLo else s
     else s))

/-- The boundaries of Table 7.8, in tenths of a °C. -/
def probeBounds : List Int := [950, 980, 1010, 1040]

/-- `RATE_SHIFT` after a reading (R160): up at once above a boundary, and down where the reading has fallen by the hysteresis. -/
def nextShift (shift : Nat) (hyst : Nat) (t : Int) : Nat :=
  let up := (probeBounds.filter fun b => decide (b < t)).length
  let hold := (probeBounds.filter fun b => decide (b - 10 * (hyst : Int) < t)).length
  max up (min shift hold)

/-- The search macro's sensor, every 10 µs. -/
def execProbeRateSample (tenthC : Int) (s : State) : Host.Outcome State Fault Refusal :=
  let old := s.rbd.rateShift
  let new := nextShift old (s.fld Reg.rbdCfg 7 4) tenthC
  let t := { s with rbd := { s.rbd with temp := tenthC / 10, rateShift := new } }
  let t := if old = 0 then t else t.bump Reg.rbdThrottleUsLo 10
  .next (s.afterIn .index (if new = old then t else t.setEvt Evt.rbdThrottle))

end Sys2Proof.Machine
end

