-- ==== Sys2Proof/Machine/PeatOps.lean ====
section
/-! DEFINITION. Machine/PeatOps.lean: blocks, stripes, the map, the write buffer, segments, checkpoints and the replay, as the
commands of Peat use them (chapter 9, R377). -/

namespace Sys2Proof.Machine

/-! ### Geometry (R189) -/

/-- ⌈log2 n⌉ for n ≥ 1. -/
def bitsFor (n : Nat) : Nat := if n ≤ 1 then 0 else Nat.log2 (n - 1) + 1

/-- Bits of the row field of a PUA. -/
def Geometry.rowBits (g : Geometry) : Nat := bitsFor g.pages
/-- Bits of the Peat block field. -/
def Geometry.blkBits (g : Geometry) : Nat := bitsFor g.blocks
/-- Bits of the LUN field. -/
def Geometry.lunBits (g : Geometry) : Nat := bitsFor g.luns
/-- Bits of a PUA. -/
def Geometry.puaBits (g : Geometry) : Nat := 8 + g.lunBits + g.blkBits + g.rowBits
/-- Number of a Peat block: its PUA without the row. Target t is channel × 8 + chip enable. -/
def Geometry.blockId (g : Geometry) (t lun b : Nat) : Nat := (t * 2 ^ g.lunBits + lun) * 2 ^ g.blkBits + b
/-- The target of a Peat block. -/
def Geometry.targetOf (g : Geometry) (blk : Nat) : Nat := blk / 2 ^ (g.lunBits + g.blkBits)
/-- The channel of a Peat block. -/
def Geometry.channelOf (g : Geometry) (blk : Nat) : Nat := g.targetOf blk / 8
/-- 4 KiB slots of a row. -/
def Geometry.slots (g : Geometry) : Nat := 4 * g.planes
/-- Bytes of a Peat block. -/
def Geometry.blockBytes (g : Geometry) : Nat := g.planes * g.pages * 16384
/-- The Peat block of a PSA. -/
def Geometry.blockOf (g : Geometry) (psa : Nat) : Nat := psa / (16 * 2 ^ g.rowBits)

/-! ### Blocks (R193, R198, R200) -/

/-- A block record. -/
def Pea.blk (p : Pea) (b : Nat) : Blk := p.blocks.getD b { pe := p.peBase }

/-- Blocks of each LUN that hold data: the last blocks of each LUN make up the pSLC area (log entry 51). -/
def Pea.dataPerLun (p : Pea) : Nat :=
  p.geom.blocks - ceilDiv (ceilDiv (p.metaGib * gib) p.geom.blockBytes) (max 1 (p.geom.targets * p.geom.luns))

/-- Targets in service. -/
def Pea.targets (p : Pea) : List Nat :=
  (List.range p.geom.targets).filter fun t => !p.excluded.contains t && !p.absent.contains t && !p.silent.contains t

/-- Whether a block is on a target in service. -/
def Pea.served (p : Pea) (b : Nat) : Bool := p.targets.contains (p.geom.targetOf b)

/-- Data blocks on targets in service. -/
def Pea.total (p : Pea) : Nat := p.targets.length * p.geom.luns * p.dataPerLun

/-- Blocks with a state, on targets in service. -/
def Pea.countSt (p : Pea) (st : BlkState) : Nat := (p.blocks.filter fun b => b.2.st == st && p.served b.1).length

/-- Blocks that are free, spare blocks included. -/
def Pea.allFree (p : Pea) : Nat :=
  p.total - (p.blocks.filter fun b => b.2.st != .free && p.served b.1).length

/-- Spare blocks now: each retirement takes one (log entry 51). -/
def Pea.spareNow (p : Pea) : Nat := min (p.spareFmt - p.countSt .retired) p.allFree

/-- Free blocks, the spare ones not counted. -/
def Pea.free (p : Pea) : Nat := p.allFree - p.spareNow

/-- In-service data blocks. -/
def Pea.inService (p : Pea) : Nat := p.total - p.countSt .retired - p.spareNow

/-- The P/E counts of the blocks that are not retired, as (count, number of blocks). -/
def Pea.wear (p : Pea) : List (Nat × Nat) :=
  let listed := p.blocks.filter fun b => b.2.st != .retired && p.served b.1
  let rest := p.total - (p.blocks.filter fun b => p.served b.1).length
  (if rest = 0 then [] else [(p.peBase, rest)]) ++ listed.map fun b => (b.2.pe, 1)

/-- The P/E spread (R199). -/
def Pea.spread (p : Pea) : Nat :=
  match p.wear with
  | [] => 0
  | w :: ws => ws.foldl (fun m x => max m x.1) w.1 - ws.foldl (fun m x => min m x.1) w.1

/-- Rated endurance of the cells (Table 9.2). -/
def Pea.rated (p : Pea) : Nat := if p.geom.qlc then 1000 else 3000

/-- `PEA_LIFE_PCT` (R213). -/
def Pea.lifePct (p : Pea) : Nat :=
  let n := sumNat (p.wear.map Prod.snd)
  let worn := 100 * sumNat (p.wear.map fun w => w.1 * w.2) / max 1 (n * p.rated)
  let spares := if p.spareFmt = 0 then 0 else 100 * (p.spareFmt - p.spareNow) / p.spareFmt
  min 255 (max worn spares)

/-- Whether one block is taken before another: least worn, then lower PUA (R198). -/
def wornLess (a b : Nat × Nat) : Bool := decide (a.1 < b.1) || (a.1 == b.1 && decide (a.2 ≤ b.2))

/-- The free block of a target that the least-worn rule takes next, with its wear; some are excepted. -/
def Pea.bestOf (p : Pea) (except : List Nat) (t : Nat) : Option (Nat × Nat) :=
  let g := p.geom
  let d := p.dataPerLun
  let listed := (p.blocks.filter fun b => g.targetOf b.1 == t && b.2.st == .free && !except.contains b.1).map fun b => (b.2.pe, b.1)
  let idx := fun (b : Nat) => (b / 2 ^ g.blkBits % 2 ^ g.lunBits) * d + b % 2 ^ g.blkBits
  let used := ((p.blocks.keys ++ except).filter fun b => g.targetOf b == t).map idx
  let fresh := (lowestFree used 0 (g.luns * d)).map fun i => (p.peBase, g.blockId t (i / max 1 d) (i % max 1 d))
  (listed ++ fresh.toList).foldl (fun m x => match m with
    | none => some x
    | some y => some (if wornLess x y then x else y)) none

/-- The best free block of each channel, in the order of the least-worn rule. -/
def Pea.bestBlocks (p : Pea) (except : List Nat) : List Nat :=
  let per := (List.range 32).filterMap fun c =>
    ((p.targets.filter fun t => t / 8 == c).filterMap (p.bestOf except)).foldl (fun (m : Option (Nat × Nat)) x => match m with
      | none => some x
      | some y => some (if wornLess x y then x else y)) none
  (per.mergeSort wornLess).map Prod.snd

/-- Whether free and spare blocks can supply a stripe (R201). -/
def Pea.supplies (p : Pea) : Bool := decide (16 ≤ (p.bestBlocks []).length)

/-- The reserve list extended by whole stripes up to 2,048 blocks (R198, R206, log entry 51). -/
def Pea.extend (p : Pea) (l : List Nat) : Nat → List Nat
  | 0 => l
  | n + 1 =>
    if 2048 ≤ l.length then l
    else
      let next := (p.bestBlocks l).take 16
      if next.length < 16 then l else p.extend (l ++ next) n

/-- The first `n` blocks of a list on different channels, none of them among `busy`, and the rest of the list. -/
def pickChannels (g : Geometry) : Nat → List Nat → List Nat → List Nat × List Nat
  | 0, _, l => ([], l)
  | _, _, [] => ([], [])
  | n + 1, busy, b :: bs =>
    if busy.contains (g.channelOf b) then
      let r := pickChannels g (n + 1) busy bs
      (r.1, b :: r.2)
    else
      let r := pickChannels g n (g.channelOf b :: busy) bs
      (b :: r.1, r.2)

/-! ### State of Peat in the device -/

/-- Peat changed. -/
def State.setPea (s : State) (f : Pea → Pea) : State := { s with pea := f s.pea }

/-- Whether Peat works: its island is `ON` or drains. -/
def State.peaOn (s : State) : Bool :=
  s.glb.variant.hasFlash && (s.islandOn peatIsland || decide (s.island peatIsland = .draining))

/-- Whether T3 serves reads and trims. -/
def State.peaServes (s : State) : Bool := s.peaOn && (decide (s.pea.pstate = .ready) || decide (s.pea.pstate = .readOnly))

/-- Whether T3 takes writes and background work. -/
def State.peaWrites (s : State) : Bool := s.peaOn && decide (s.pea.pstate = .ready)

/-- Flash time now, s. -/
def State.ftimeNow (s : State) : Nat :=
  (if s.peaOn then s.pea.ftime + (s.now - s.pea.ftimeAt) / secNs 1 else s.pea.ftime) % 2 ^ 32

/-- The `UNIT` word of a Peat block: channel and chip enable. -/
def State.peaUnit (s : State) (b : Nat) : Nat :=
  let t := s.pea.geom.targetOf b
  unitWord 0x0B 0 (t / 8) (t % 8)

/-! ### Segments (R205) -/

/-- Segments of the coarse map. -/
def State.coarseSegs (s : State) : Nat := ceilDiv (s.t3Gib * 16384 * 5) (2 ^ 22)
/-- The segment of a unit. -/
def State.segOfUnit (_s : State) (u : Nat) : Nat := u * 5 / 2 ^ 22
/-- The segment of a fine group. -/
def State.segOfFine (s : State) (g : Nat) : Nat := s.coarseSegs + g * 128 / 2 ^ 22
/-- The segment of a block table record. -/
def State.segOfBlk (s : State) (b : Nat) : Nat :=
  let g := s.pea.geom
  let i := (b / 2 ^ g.blkBits / 2 ^ g.lunBits * g.luns + b / 2 ^ g.blkBits % 2 ^ g.lunBits) * g.blocks + b % 2 ^ g.blkBits
  s.coarseSegs + 32 + i * 32 / 2 ^ 22

/-- A segment becomes dirty with a change. -/
def State.touch (s : State) (seg : Nat) : State :=
  if s.pea.dirty.has seg then s else s.setPea fun p => { p with dirty := p.dirty.set seg (p.wseq, s.now) }

/-- A coarse entry changed. -/
def State.setUnit (s : State) (u : Nat) (c : Option Coarse) : State :=
  (s.setPea fun p => { p with coarse := match c with | some c => p.coarse.set u c | none => p.coarse.erase u }).touch (s.segOfUnit u)

/-- A fine group changed. -/
def State.setFine (s : State) (g : Nat) (l : Option (List (Option Nat))) : State :=
  (s.setPea fun p => { p with fine := match l with | some l => p.fine.set g l | none => p.fine.erase g }).touch (s.segOfFine g)

/-- A block record changed. -/
def State.setBlk (s : State) (b : Nat) (f : Blk → Blk) : State :=
  (s.setPea fun p => { p with blocks := p.blocks.set b (f (p.blk b)) }).touch (s.segOfBlk b)

/-! ### The map (R190, R191) -/

/-- The sectors that a unit maps, with their PSAs. -/
def Pea.unitMap (p : Pea) (u : Nat) : List (Nat × Nat) :=
  (List.range 16).filterMap fun i => (p.psaOf (u * 16 + i)).map fun a => (u * 16 + i, a)

/-- Every mapped sector with its PSA. -/
def Pea.mapped (p : Pea) : List (Nat × Nat) := p.coarse.flatMap fun c => p.unitMap c.1

/-- Live sectors of a block. -/
def Pea.liveOf (p : Pea) (b : Nat) : List (Nat × Nat) := p.mapped.filter fun x => p.geom.blockOf x.2 == b

/-- A free fine group. -/
def Pea.freeGroup (p : Pea) : Option Nat := lowestFree p.fine.keys 0 (2 ^ 20)

/-- The fine group of a unit, with its entries: its own, or a new one that takes over a coarse row. Trimmed sectors that had
stayed live leave the map as they become fine entries. -/
def State.toFine (s : State) (u : Nat) : Option (Nat × List (Option Nat) × State) :=
  match s.pea.coarse.get? u with
  | some (.fine g) => some (g, s.pea.fine.getD g (List.replicate 16 none), s)
  | c =>
    s.pea.freeGroup.map fun g =>
      let l := match c with
        | some (.row pua) => (List.range 16).map fun i => if s.pea.residue.contains (u * 16 + i) then none else some (pua * 16 + i)
        | _ => List.replicate 16 none
      let s := (s.setFine g (some l)).setUnit u (some (.fine g))
      (g, l, s.setPea fun p => { p with residue := p.residue.filter fun x => x / 16 != u })

/-- A unit loses its fine group, if it has one. -/
def State.dropGroup (s : State) (u : Nat) : State :=
  match s.pea.coarse.get? u with
  | some (.fine g) => s.setFine g none
  | _ => s

/-- A unit becomes unmapped. -/
def State.unmapUnit (s : State) (u : Nat) : State :=
  if s.pea.coarse.has u then
    ((s.dropGroup u).setUnit u none).setPea fun p => { p with residue := p.residue.filter fun x => x / 16 != u }
  else s

/-- Map programmed slots of one unit: sector, PSA and relocation source. A relocated slot applies only while the entry names
its source (R209, Table 9.11); a whole row by one write is a coarse entry (R191). A trimmed sector that stayed live leaves the
residue only where the write brought it (R192). -/
def State.mapSlots (s : State) (u : Nat) (slots : List (Nat × Nat × Option Nat)) (whole : Bool) (brought : List Nat) : State :=
  let ok := slots.filter fun x => match x.2.2 with | none => true | some a => s.pea.psaOf x.1 == some a
  match ok with
  | [] => s
  | x :: _ =>
    if whole && decide (ok.length = 16) then
      ((s.dropGroup u).setUnit u (some (.row (x.2.1 / 16)))).setPea fun p =>
        { p with residue := p.residue.filter fun y => !brought.contains y }
    else
      match s.toFine u with
      | none => s
      | some (g, l, s) =>
        s.setFine g (some (l.zipIdx.map fun e => match ok.find? fun x => x.1 % 16 == e.2 with | some x => some x.2.1 | none => e.1))

/-- Trim some sectors of a unit in the map (R192). -/
def State.trimUnit (s : State) (u : Nat) (sectors : List Nat) : State :=
  match s.pea.coarse.get? u with
  | none => s
  | some (.row _) =>
    let gone := ((s.pea.residue.filter fun x => x / 16 == u) ++ sectors).eraseDups
    if 16 ≤ gone.length then s.unmapUnit u
    else
      match s.toFine u with
      | some (g, l, s) => s.setFine g (some (l.zipIdx.map fun e => if sectors.contains (u * 16 + e.2) then none else e.1))
      | none =>
        let fresh := sectors.filter fun x => !s.pea.residue.contains x
        (s.setPea fun p => { p with residue := p.residue ++ fresh }).bump Reg.peaTrimResidueLo fresh.length
  | some (.fine g) =>
    let l := (s.pea.fine.getD g (List.replicate 16 none)).zipIdx.map fun e => if sectors.contains (u * 16 + e.2) then none else e.1
    if l.all Option.isNone then s.unmapUnit u else s.setFine g (some l)

/-- Trim a run of sectors in the map. -/
def State.trimMap (s : State) (first count : Nat) : State :=
  let units := (List.range (ceilDiv (first % 16 + count) 16)).map (first / 16 + ·)
  s.forEach units fun u t =>
    t.trimUnit u ((List.range 16).filterMap fun i =>
      let x := u * 16 + i
      if first ≤ x ∧ x < first + count then some x else none)

/-- Consecutive runs of a sorted list of sectors. -/
def runsOf : List Nat → List (Nat × Nat)
  | [] => []
  | x :: xs =>
    match runsOf xs with
    | (y, n) :: rest => if y = x + 1 then (x, n + 1) :: rest else (x, 1) :: (y, n) :: rest
    | [] => [(x, 1)]

/-! ### Happenings that pages report -/

/-- The PLDM kind of Peat's early warnings, as `Out.pldm` shows them (DESIGN CHOICE, log entry 120). -/
def pldmHealth : Nat := 0xF1

/-- An early warning: its event bit, and Toluo's report of it (R212). -/
def State.peaWarn (s : State) (e : Nat × Nat) : State := (s.setEvt e).pldmEvent pldmHealth [e.2]

/-- Conditions that the health registers report, as each newly arises (R201, R212, R213). -/
def State.peaCheck (s : State) : State :=
  let p := s.pea
  let low := decide (p.spareNow * 100 < s.fld Reg.peaHealth 31 24 * p.spareFmt)
  let s := if low && !p.spareLow then s.peaWarn Evt.peaSpareLow else s
  let life := p.lifePct
  let s := if life / 10 = p.life / 10 then s else s.setEvt Evt.peaLifeStep
  let hard := p.gcHard && !decide (s.fld Reg.peaGc 23 16 * p.inService < p.free * 1000)
  let s := s.setPea fun p => { p with spareLow := low, life := life, gcHard := hard }
  if p.pstate = .ready ∧ !p.supplies then
    (s.setPea fun p => { p with pstate := .readOnly, readOnly := true }).setEvt Evt.peaReadonly
  else s

/-- A block no longer needs the parity rows of its stripe: they are released once none of its blocks does (R196). -/
def State.releaseParity (s : State) (b : Nat) : State :=
  s.setPea fun p => { p with
    closedStripes := (p.closedStripes.map fun (x : PStripe) => { x with unverified := x.unverified.filter (· != b) }).filter
      fun x => !x.unverified.isEmpty }

/-- A block is retired for good (R197). -/
def State.retire (s : State) (b : Nat) : State :=
  ((s.releaseParity b).setBlk b fun x => { x with st := .retired }).bump Reg.peaRetiredLo

/-- Whether a read that has been issued still targets a block (R200, R214). -/
def Pea.readFrom (p : Pea) (b : Nat) : Bool :=
  p.reads.any fun r => r.src.any fun x => match x with | .flash a => p.geom.blockOf a == b | _ => false

/-- Blocks that have been copied away, hold nothing live and serve no read are free; each is erased when it is taken (log
entry 50). -/
def State.freeVictims (s : State) : State :=
  let done := s.pea.blocks.filter fun b => b.2.victim && (b.2.st == .closed || b.2.st == .verified) && (s.pea.liveOf b.1).isEmpty
    && (!s.pea.buffer.any fun u => u.srcs.any fun x => s.pea.geom.blockOf x.2 == b.1) && !s.pea.readFrom b.1
  s.forEach done fun b t => (t.releaseParity b.1).setBlk b.1 fun x => { x with st := .free, victim := false }

/-! ### The write buffer and relocation -/

/-- A sector as it stands: in the write buffer, in the flash, or unmapped. -/
def State.sectorNow (s : State) (x : Nat) : Option (List Byte) :=
  match s.pea.find x with
  | .unmapped => none
  | y => some (s.pea.bytesOf y)

/-- Put sectors of a unit in the buffer: with those of its stream that gather, or as a new unit (R192). -/
def State.gather (s : State) (u : Nat) (stream : WStream) (sectors : Assoc Nat (List Byte)) (srcs : Assoc Nat Nat) (front : Bool) :
    State :=
  let same := fun (b : BufUnit) => b.unit == u && b.stream == stream && !b.issued && b.srcs.isEmpty == srcs.isEmpty
  if s.pea.buffer.any same then
    s.setPea fun p => { p with buffer := updFirst same (fun b => { b with
      sectors := sectors.foldl (fun m x => m.set x.1 x.2) b.sectors
      srcs := srcs.foldl (fun m x => m.set x.1 x.2) b.srcs }) p.buffer }
  else
    let b : BufUnit := { id := s.pea.nextBuf, unit := u, stream := stream, sectors := sectors, since := s.now, srcs := srcs }
    s.setPea fun p => { p with buffer := if front then b :: p.buffer else p.buffer ++ [b], nextBuf := p.nextBuf + 1 }

/-- Copy live sectors to a stream (R196 to R200); the copies apply only while the map names their sources. -/
def State.relocate (s : State) (live : List (Nat × Nat)) (stream : WStream) (front : Bool) : State :=
  let busy := fun (a : Nat) => s.pea.buffer.any fun b => b.srcs.values.contains a
  let live := live.filter fun x => !busy x.2
  let units := (live.map fun x => x.1 / 16).eraseDups
  s.forEach units fun u t =>
    let mine := live.filter fun x => x.1 / 16 == u
    t.gather u stream (mine.map fun x => (x.1, t.pea.slotData x.2)) mine front

/-! ### Headers and parity (R194, R204) -/

/-- The code of a write stream in a header. -/
def WStream.code : WStream → Nat
  | .hot => 0 | .cold => 1 | .gc => 2 | .wear => 3

/-- A `SLOT` field (Table 9.7). -/
def Slot.word (x : Slot) : Nat :=
  2 ^ 63 + x.coarse.toNat * 2 ^ 62 + x.src.isSome.toNat * 2 ^ 61 + x.stream.code * 2 ^ 58 + x.sector % 2 ^ 37

/-- The out-of-band header of a page of a programmed row (Table 9.7). -/
def Pea.pageHeader (p : Pea) (pua plane : Nat) (h : RowHdr) : List Byte :=
  let slots := (List.range 4).map fun i => p.flash.get? (pua * 16 + plane * 4 + i)
  let body := leBytes 8 h.wseq ++ (slots.flatMap fun x => leBytes 8 ((x.map Slot.word).getD 0))
    ++ (slots.flatMap fun x => leBytes 8 ((x.bind Slot.src).getD 0)) ++ leBytes 4 h.ftime
    ++ [BitVec.ofInt 8 h.temp] ++ List.replicate 15 0#8
  body ++ leBytes 4 (crc32 body).toNat

/-- A programmed row: the four slots of each of its pages, and the page's header. -/
def Pea.rowImage (p : Pea) (pua : Nat) : List Byte :=
  (List.range p.geom.planes).flatMap fun pl =>
    ((List.range 4).flatMap fun i => p.slotData (pua * 16 + pl * 4 + i))
      ++ ((p.rows.get? pua).map (p.pageHeader pua pl)).getD (List.replicate 96 0#8)

/-- The content of a parity row: the XOR of its rows, headers included (R194). -/
def Pea.parityImage (p : Pea) (x : ParityRow) : List Byte :=
  (x.puas.map p.rowImage).foldl (fun acc r => if acc.isEmpty then r else List.zipWith (· ^^^ ·) acc r) []

/-- LUNs, by target and number, that a Peat block lies on. -/
def Geometry.lunOf (g : Geometry) (b : Nat) : Nat := b / 2 ^ g.blkBits

/-- A free row of the pSLC area on a LUN outside a stripe (R194): the first such LUN with room, as the model's own order (log
entry 112). -/
def Pea.parityPlace (p : Pea) (st : PStripe) : Nat :=
  let g := p.geom
  let busy := st.blocks.map g.lunOf
  let held := ((p.stripes ++ p.closedStripes).flatMap PStripe.parity).map ParityRow.place
  let d := p.dataPerLun
  let index := fun (a : Nat) => (a / 2 ^ g.rowBits % 2 ^ g.blkBits - d) * g.pages + a % 2 ^ g.rowBits
  ((p.targets.flatMap fun t => (List.range g.luns).map fun l => t * 2 ^ g.lunBits + l).findSome? fun u =>
    if busy.contains u then none
    else
      (lowestFree ((held.filter fun a => a / 2 ^ (g.rowBits + g.blkBits) == u).map index) 0 ((g.blocks - d) * g.pages)).map fun j =>
        (u * 2 ^ g.blkBits + d + j / max 1 g.pages) * 2 ^ g.rowBits + j % max 1 g.pages).getD 0

/-! ### Stripes (R194) -/

/-- A block is erased and opened. -/
def State.openBlock (s : State) (b : Nat) (stream : WStream) : State :=
  let g := s.pea.geom
  let s := s.setPea fun p => { p with
    flash := p.flash.filter fun x => g.blockOf x.1 != b
    rows := p.rows.filter fun x => x.1 / 2 ^ g.rowBits != b
    opened := p.opened ++ [(b, p.wseq)] }
  s.setBlk b fun x => { st := .opened, stream := stream, pe := x.pe + 1 }

/-- Open a stripe of a stream from the reserve list. -/
def State.openStripe (s : State) (stream : WStream) : Option State :=
  if 80 ≤ s.pea.stripes.length then none
  else
    let r := pickChannels s.pea.geom 16 [] s.pea.reserve
    if r.1.length < 16 then none
    else
      let st : PStripe := { id := s.pea.nextStripe, stream := stream, blocks := r.1 }
      let s := s.setPea fun p => { p with reserve := r.2, stripes := p.stripes ++ [st], nextStripe := p.nextStripe + 1 }
      some (s.forEach r.1 fun b t => t.openBlock b stream)

/-- Change one stripe. -/
def State.modStripe (s : State) (id : Nat) (f : PStripe → PStripe) : State :=
  s.setPea fun p => { p with stripes := updFirst (fun x => x.id == id) f p.stripes }

/-- A stripe closes: its parity rows are held until every block of it has verified (R196). -/
def State.closeStripe (s : State) (st : PStripe) : State :=
  s.setPea fun p => { p with
    closedStripes := p.closedStripes ++ (p.stripes.filter fun x => x.id == st.id).map fun x => { x with fill := [], unverified := x.blocks }
    stripes := p.stripes.filter fun x => x.id != st.id }

/-- The sectors that the rows of a unit program. -/
def BufUnit.written (b : BufUnit) : List Nat :=
  if b.rmw then (List.range 16).map (b.unit * 16 + ·) else (b.sectors.keys.mergeSort fun x y => decide (x ≤ y))

/-- Whether a unit has a fine group. -/
def Pea.isFine (p : Pea) (u : Nat) : Bool := match p.coarse.get? u with | some (.fine _) => true | _ => false

/-- Whether a unit holds a metadata frame, which is mapped fine while a group is free (R191). -/
def State.metaUnit (s : State) (b : BufUnit) : Bool :=
  b.stream == .hot || s.xlt.metas.any fun e =>
    let first := e.2.home.addr / 8
    e.2.home.tier == 3 && decide (first / 16 ≤ b.unit) && decide (b.unit ≤ (first + 2 ^ e.2.fc - 1) / 16)

/-- Issue a unit to the open row of a stripe of its stream; a stripe is opened where none has room. A row of fewer than 16 sectors
can carry no coarse unit: where no fine group is free, the unit waits for one (DESIGN CHOICE, log entry 111). -/
def State.issueUnit (s : State) (b : BufUnit) : State :=
  let p := s.pea
  let noGroup := p.freeGroup.isNone && !p.isFine b.unit
  let rmw := decide (b.sectors.length < 16) && noGroup && b.srcs.isEmpty && decide (16 ≤ p.geom.slots)
  if noGroup && decide (p.geom.slots < 16) then s
  else
    let b := { b with rmw := rmw }
    let rows := chunks p.geom.slots 16 b.written
    let rows := rows.filter fun r => !r.isEmpty
    let room := fun (x : PStripe) => x.stream == b.stream && decide (x.fill.length + rows.length ≤ 16) && b.avoid != some x.id
    let s' := if p.stripes.any room then some s else s.openStripe b.stream
    match s' with
    | none => s.peaCheck
    | some t =>
      match t.pea.stripes.find? room with
      | none => t
      | some x =>
        let free := (List.range 16).filter fun i => !x.fill.any fun f => f.pos == i
        let fills := (free.zip rows).map fun r => ({ pos := r.1, buf := b.id, sectors := r.2 } : RowFill)
        let t := t.modStripe x.id fun x => { x with fill := x.fill ++ fills }
        t.setPea fun p => { p with buffer := updFirst (fun y => y.id == b.id) (fun y => { y with issued := true, rmw := rmw }) p.buffer }

/-- Trim records for some sectors, each with a `WSEQ` of its own. -/
def State.journalTrims (s : State) (sectors : List Nat) : State :=
  s.forEach (runsOf (sectors.mergeSort fun a b => decide (a ≤ b))) fun r t => t.setPea fun p => { p with
    wseq := p.wseq + 1
    journalPend := p.journalPend ++ [{ wseq := p.wseq + 1, first := r.1, count := r.2, since := t.now }] }

/-- Program the rows of one buffer unit in a stripe row. A trim that came after the rows were issued is applied, and recorded,
after the program (Table 9.11). -/
def State.programUnit (s : State) (st : PStripe) (base ft : Nat) (temp : Int) (b : BufUnit) : State :=
  let g := s.pea.geom
  let fills := st.fill.filter fun f => f.buf == b.id
  let fine := s.metaUnit b && (s.pea.isFine b.unit || s.pea.freeGroup.isSome)
  let whole := decide (b.written.length = 16) && decide (fills.length = 1) && !fine
  let placed := fills.flatMap fun f =>
    let blk := (st.blocks[f.pos]?).getD 0
    let pua := blk * 2 ^ g.rowBits + (s.pea.blk blk).next
    f.sectors.zipIdx.map fun x => (x.1, pua * 16 + (if whole then x.1 % 16 else x.2), base + f.pos)
  let slot := fun (x : Nat) (w : Nat) => ({
    wseq := w, sector := x, coarse := whole, stream := b.stream, src := b.srcs.get? x, ftime := ft, temp := temp
    data := match b.sectors.get? x with
      | some d => d
      | none => ((s.pea.psaOf x).map s.pea.slotData).getD (List.replicate 4096 0#8) } : Slot)
  let s := s.setPea fun p => { p with flash := placed.foldl (fun m x => m.set x.2.1 (slot x.1 x.2.2)) p.flash }
  let s := if b.rmw && s.pea.coarse.has b.unit then s.bump Reg.peaRmwLo else s
  let s := s.mapSlots b.unit (placed.map fun x => (x.1, x.2.1, b.srcs.get? x.1)) whole (if b.srcs.isEmpty then b.sectors.keys else [])
  let s := (s.trimUnit b.unit b.trimmed).journalTrims b.trimmed
  s.setPea fun p => { p with
    buffer := p.buffer.filter fun y => y.id != b.id
    writes := (p.writes.map fun w => { w with left := w.left.filter fun x => !(b.sectors.has x && !b.srcs.has x) }).filter
      fun w => !w.left.isEmpty }

/-- A stripe row and its parity row report success (R194, R195): 17 items of the one sequence, the parity row last. -/
def State.programRow (s : State) (st : PStripe) : State :=
  let g := s.pea.geom
  let base := s.pea.wseq + 1
  let bufs := s.pea.buffer.filter fun b => st.fill.any fun f => f.buf == b.id
  let ft := s.ftimeNow
  let temp := Config.nandTemp s.fresh
  let puas := st.blocks.map fun b => b * 2 ^ g.rowBits + (s.pea.blk b).next
  let par : ParityRow := { row := st.row, puas := puas, wseq := base + 16, place := s.pea.parityPlace st }
  let s := s.draw.2
  let s := s.setPea fun p => { p with
    wseq := p.wseq + 17
    rows := puas.zipIdx.foldl (fun m x => m.set x.1 { wseq := base + x.2, ftime := ft, temp := temp }) p.rows }
  let s := s.forEach bufs fun b t => t.programUnit st base ft temp b
  let last := decide (g.pages ≤ st.row + 1)
  let s := s.forEach (st.blocks.zipIdx) fun x t =>
    (t.setBlk x.1 fun b => { b with
      next := b.next + 1
      firstTime := if b.next = 0 then ft else b.firstTime
      firstTemp := if b.next = 0 then temp else b.firstTemp
      lastTime := ft
      lastTemp := temp
      st := if last then .closed else b.st }).setPea fun p => { p with
        opened := p.opened.map fun o => if o.1 = x.1 then (o.1, base + x.2) else o }
  let s := s.bump Reg.peaNandSectLo (17 * g.slots)
  let s := s.modStripe st.id fun x => { x with row := x.row + 1, fill := [], parity := x.parity ++ [par] }
  let s := if last then s.closeStripe st else s
  s.freeVictims.endObjWrites.sluice

/-- Rows issued to some positions of a stripe are written again from the buffer, to another stripe (R197). -/
def State.reissue (s : State) (st : PStripe) (pos : List Nat) : State :=
  let bufs := (st.fill.filter fun f => pos.contains f.pos).map RowFill.buf
  let s := s.modStripe st.id fun x => { x with fill := x.fill.filter fun f => !bufs.contains f.buf }
  s.setPea fun p => { p with
    buffer := p.buffer.map fun (b : BufUnit) =>
      if bufs.contains b.id then { b with issued := false, rmw := false, avoid := some st.id } else b }

/-- A stripe continues on a replacement block from the reserve list (Table 9.11). Where none is left, it ends: what it had not
programmed goes back to the buffer, and its other blocks close. -/
def State.replaceBlock (s : State) (st : PStripe) (b : Nat) : State :=
  let g := s.pea.geom
  let busy := (st.blocks.filter fun x => x != b).map g.channelOf
  let r := pickChannels g 1 busy s.pea.reserve
  match r.1 with
  | [] =>
    let s := s.reissue st (List.range 16)
    let s := (s.modStripe st.id fun x => { x with blocks := x.blocks.filter (· != b) }).closeStripe st
    s.forEach (st.blocks.filter (· != b)) fun c t => t.setBlk c fun x => { x with st := .closed }
  | c :: _ =>
    let s := (s.setPea fun p => { p with reserve := r.2 }).openBlock c st.stream
    s.modStripe st.id fun x => { x with blocks := x.blocks.map fun y => if y = b then c else y }

/-! ### Parking (R377) -/

/-- Whether a frame rests in T3. -/
def State.rests (s : State) (f : FrameId) : Bool := ((s.frame? f).map fun i => i.home.tier == 3 && !i.moving).getD true

/-- The block descriptors that a sequence maps. -/
def Seq.bds (q : Seq) : List Nat := (q.ptes.filterMap fun x => x.2.share.map Prod.fst).eraseDups

/-- The metadata frames of a sequence: its tables, and the pages and tables of the block descriptors that it maps. -/
def State.metasOf (s : State) (i : Nat) (q : Seq) : List FrameId :=
  (q.ptes.flatMap fun x => x.2.metaPath i x.1.1 x.1.2.1 x.1.2.2).eraseDups.filter fun f => s.xlt.metas.has f

/-- Whether a sequence is parked. -/
def State.seqParked (s : State) (i : Nat) (q : Seq) : Bool :=
  decide (q.st ≠ .retired) && decide (q.st ≠ .draining)
    && (q.ptes.all fun x => s.rests (x.2.frame i x.1.1 x.1.2.1 x.1.2.2)) && (s.metasOf i q).all s.rests
    && q.bds.all fun b => ((s.xlt.bds.get? b).map fun x => x.fds.all fun e => s.rests (.slot b e.1)).getD true

/-- Tables of an object. -/
def State.objMetas (s : State) (n : Nat) (o : Obj) : List FrameId :=
  (o.map.flatMap fun e => tablePath (.obj n) e.1).eraseDups.filter fun f => s.xlt.metas.has f

/-- Whether an object is parked. -/
def State.objParked (s : State) (n : Nat) (o : Obj) : Bool :=
  o.live && o.isSealed && !o.releasing && (o.map.all fun e => s.rests (.obj n e.1)) && (s.objMetas n o).all s.rests

/-- A descriptor as a park record keeps it. -/
def Seq.parkedForm (q : Seq) : Seq :=
  { q with held := [], trunc := none, waiting := [], retirers := [], stripe := none, unmapping := [], inFlight := 0, st := .idle }

/-- The park set (R377). -/
def State.parkSet (s : State) : List Park :=
  let rec_ := fun (d : Nat) (b : ParkRec) => ((s.lve.doms.get? d).bind Domain.keys).map fun k =>
    ({ domain := d, kcv := k.kcv, body := b } : Park)
  let seqs := s.xlt.seqs.filter fun x => s.seqParked x.1 x.2
  let objs := s.xlt.objs.filter fun x => s.objParked x.1 x.2
  let metas := (seqs.flatMap fun x => s.metasOf x.1 x.2) ++ objs.flatMap fun x => s.objMetas x.1 x.2
  let bds := (seqs.flatMap fun x => x.2.bds).eraseDups
  let models := (seqs.map fun x => (x.2.domain, x.2.model)).eraseDups
  (models.filterMap fun k => (s.xlt.models.get? k).bind fun m => rec_ k.1 (.model k.2 m))
    ++ (seqs.filterMap fun x => rec_ x.2.domain (.seq x.1 x.2.parkedForm))
    ++ (bds.filterMap fun b => (s.xlt.bds.get? b).bind fun x => rec_ x.domain (.bd b x))
    ++ (objs.filterMap fun x => rec_ x.2.domain (.obj x.1 x.2))
    ++ metas.eraseDups.filterMap fun f => (s.xlt.metas.get? f).bind fun m => rec_ m.domain (.frame f m)

/-! ### Checkpoints (R206) -/

/-- The checkpoint interval in ns. -/
def State.ckptNs (s : State) : Nat := msNs (min 10000 (max 500 (s.fld Reg.peaCkpt 31 16)))

/-- Whether the flusher is behind its bound (R205). -/
def State.flushBehind (s : State) : Bool :=
  let n := min 32 (max 2 (s.fld Reg.peaCkpt 15 8))
  s.pea.dirty.any fun d => decide (d.2.2 + n * s.ckptNs < s.now)

/-- The saved copy of a segment; one that was never saved is as the format left it. -/
def Pea.segCopy (p : Pea) (seg : Nat) : SegCopy := p.saved.getD seg { cut := p.fmtCut, coarse := [], fine := [], blocks := [] }

/-- Save a segment as of now. -/
def State.saveSeg (s : State) (seg : Nat) : State :=
  let p := s.pea
  let c : SegCopy := {
    cut := p.wseq
    coarse := p.coarse.filter fun x => s.segOfUnit x.1 == seg
    fine := p.fine.filter fun x => s.segOfFine x.1 == seg
    blocks := p.blocks.filter fun x => s.segOfBlk x.1 == seg }
  s.setPea fun p => { p with saved := p.saved.set seg c, dirty := p.dirty.erase seg, wseq := p.wseq + 1 }

/-- Write a checkpoint, both copies (R206). The log keeps the last four. -/
def State.writeCkpt (s : State) : State :=
  let p := s.pea
  let rstart := (p.dirty.keys.map fun g => (p.segCopy g).cut).foldl min p.wseq
  let res := p.extend (p.reserve.filter fun b => (p.blk b).st == .free && p.served b) 200
  let opened := p.opened.filter fun o => decide (rstart < o.2) || (p.blk o.1).st == .opened
  let journal := p.journal
  let body : CkRec := {
    cut := p.wseq, rstart := rstart, ftime := s.ftimeNow
    trimStart := p.journalPos - (journal.filter fun r => decide (rstart < r.wseq)).length
    stripes := p.stripes, cursors := (p.hotCur, p.coldCur), dir := p.saved, reserve := opened.map Prod.fst ++ res }
  let c : Ckpt := { seq := p.nextCk, body := body, park := s.parkSet }
  let ckpts := (c :: p.ckpts).take 4
  let oldest := ckpts.foldl (fun m x => min m x.body.rstart) rstart
  let s := s.setPea fun p => { p with
    ckpts := ckpts, nextCk := p.nextCk + 1, reserve := res, opened := opened, ckptAsked := false, ckptDue := s.now + s.ckptNs
    journal := journal.filter fun r => decide (oldest < r.wseq)
    quarantine := p.quarantine.filter fun q => decide (c.seq < q.2.2) }
  let s := { s with glb := { s.glb with resetReq := s.glb.resetReq.map fun (r : ResetReq) => { r with flushed := true } } }
  s.bump Reg.peaCkptLo

/-! ### Replay (R207 to R210) -/

/-- An item of the replay, in `WSEQ` order. -/
inductive Replay where
  | row (psa : Nat) (x : Slot)
  | trim (r : TrimRec)
  deriving DecidableEq, Repr

/-- `WSEQ` of an item. -/
def Replay.wseq : Replay → Nat
  | .row _ x => x.wseq
  | .trim r => r.wseq

/-- Change the entries of a unit in its fine group alone, where the group's segment is not covered. -/
def State.fineOnly (s : State) (covered : Nat → Bool) (u : Nat) (f : Nat → Option Nat → Option Nat) : State :=
  match s.pea.coarse.get? u with
  | some (.fine g) =>
    if covered (s.segOfFine g) then s
    else s.setFine g (some ((s.pea.fine.getD g (List.replicate 16 none)).zipIdx.map fun e => f (u * 16 + e.2) e.1))
  | _ => s

/-- Apply the items of one `WSEQ`: the slots of a row, or a trim record. An item is skipped for each segment whose cut covers it
(R209, step 4): where the segment of a unit's coarse entry does and that of its fine group does not, only the group changes. -/
def State.replayAt (s : State) (covered : Nat → Bool) (items : List Replay) : State :=
  let rows := items.filterMap fun i => match i with | .row a x => some (a, x) | .trim _ => none
  let trims := items.filterMap fun i => match i with | .trim r => some r | .row _ _ => none
  let s := s.forEach ((rows.map fun x => x.2.sector / 16).eraseDups) fun u t =>
    let mine := rows.filter fun x => x.2.sector / 16 == u
    if covered (t.segOfUnit u) then
      t.fineOnly covered u fun x old => match mine.find? fun y => y.2.sector == x with
        | some y => if y.2.src.isNone || y.2.src == old then some y.1 else old
        | none => old
    else
      t.mapSlots u (mine.map fun x => (x.2.sector, x.1, x.2.src)) (decide (mine.length = 16) && mine.all fun x => x.2.coarse)
        (if mine.all fun x => x.2.src.isNone then mine.map fun x => x.2.sector else [])
  s.forEach trims fun r t =>
    t.forEach ((List.range (ceilDiv (r.first % 16 + r.count) 16)).map (r.first / 16 + ·)) fun u t =>
      let hit := fun (x : Nat) => decide (r.first ≤ x) && decide (x < r.first + r.count)
      if covered (t.segOfUnit u) then t.fineOnly covered u fun x old => if hit x then none else old
      else t.trimUnit u (((List.range 16).map (u * 16 + ·)).filter hit)

/-- Apply items in `WSEQ` order; fine groups that no unit names are free at the end. -/
def State.replayLog (s : State) (covered : Nat → Nat → Bool) (items : List Replay) : State :=
  let ws := ((items.map Replay.wseq).mergeSort fun a b => decide (a ≤ b)).eraseDups
  let s := s.forEach ws fun w t => t.replayAt (fun seg => covered seg w) (items.filter fun i => i.wseq == w)
  let named := s.pea.coarse.filterMap fun c => match c.2 with | .fine g => some g | .row _ => none
  s.forEach (s.pea.fine.keys.filter fun g => !named.contains g) fun g t => t.setFine g none

/-- Rows that are discarded (R209, step 5): those that fail, and every later row of their blocks. -/
def Pea.discarded (p : Pea) (bad : List Nat) (pua : Nat) : Bool :=
  let r := 2 ^ p.geom.rowBits
  bad.any fun b => decide (pua / r = b / r) && decide (b % r ≤ pua % r)

/-- The rows that fail leave the flash, with those after them in their blocks. -/
def State.discard (s : State) (bad : List Nat) : State :=
  s.setPea fun p => { p with
    flash := p.flash.filter fun x => !p.discarded bad (x.1 / 16), rows := p.rows.filter fun x => !p.discarded bad x.1 }

/-- The programmed rows of a block, by row number. -/
def Pea.rowsIn (p : Pea) (b : Nat) : List (Nat × RowHdr) :=
  (p.rows.filter fun x => x.1 / 2 ^ p.geom.rowBits == b).map fun x => (x.1 % 2 ^ p.geom.rowBits, x.2)

/-- The block table corrected from the headers read (R209, step 6). A block that was open, or that holds a row written since replay
start, is closed after its last row; an open block with no row is free again; a block that still holds only older rows has not
been erased, and stands as the table has it. -/
def State.correctBlocks (s : State) (rstart : Nat) (blks : List Nat) : State :=
  s.forEach blks fun b t =>
    let rows := t.pea.rowsIn b
    let live := rows.any fun x => decide (rstart < x.2.wseq)
    let open_ := decide ((t.pea.blk b).st = .opened)
    if rows.isEmpty then (if open_ then t.setBlk b fun x => { x with st := .free } else t)
    else if !live && !open_ then t
    else
      let last := rows.foldl (fun m x => if m.1 ≤ x.1 then x else m) (rows.headD (0, ⟨0, 0, 0⟩))
      let first := rows.foldl (fun m x => if x.1 < m.1 then x else m) (rows.headD (0, ⟨0, 0, 0⟩))
      let stream := (t.pea.flash.find? fun x => t.pea.geom.blockOf x.1 == b).map fun x => x.2.stream
      t.setBlk b fun x => if x.st = .retired ∨ x.st = .verified then x
        else { x with
          st := .closed, next := last.1 + 1, firstTime := first.2.ftime, firstTemp := first.2.temp, lastTime := last.2.ftime
          lastTemp := last.2.temp, stream := stream.getD x.stream }

/-- Every mapped sector is retained (R377). -/
def State.retainAll (s : State) : State :=
  let l := (s.pea.mapped.map Prod.fst).mergeSort fun a b => decide (a ≤ b)
  s.setPea fun p => { p with retained := runsOf l }

/-- Recovery or a rebuild ends: flash time, retained sectors, a new checkpoint, and the state read. -/
def State.peaReady (s : State) (risk : Bool) : State :=
  let assumed := decide (s.reg Reg.peaOfftime = 0xFFFFFFFF)
  let off := if assumed then 2592000 else s.reg Reg.peaOfftime
  let s := s.setPea fun p => { p with
    ftime := (p.ftime + off) % 2 ^ 32
    ftimeAt := s.now
    stripes := []
    pstate := if p.readOnly then .readOnly else .ready }
  let s := if assumed && risk then s.peaWarn Evt.peaRetention else s
  ((s.retainAll.writeCkpt).setEvt Evt.peaRecovered).peaCheck

end Sys2Proof.Machine
end

