-- ==== Sys2Proof/Machine/Peat.lean ====
section
/-! DEFINITION. Machine/Peat.lean: the commands of Peat (chapter 9, R348). Those that a register write begins stand with the
register writes. -/

namespace Sys2Proof.Machine

/-! ### Writing -/

/-- Whether a T3 write waits (R200, R205): below `HARD` until free blocks are back above it, or while the flusher is behind. -/
def State.writeHeld (s : State) : Bool :=
  let p := s.pea
  p.gcHard || decide (p.free * 1000 < s.fld Reg.peaGc 23 16 * p.inService)

/-- A write into a T3 that is read-only fails (R201). -/
def State.refuseWrite (s : State) (n : Nat) : State :=
  match s.slc.moves.find? fun m => m.seqNo == n with
  | some m => (s.abortMove m .noSpace 0).sluice
  | none =>
    match s.slc.objWrites.find? fun w => w.id == n with
    | none => s.setPea fun p => { p with waiting := p.waiting.filter fun w => w.1 != n }
    | some w =>
      let homes := (s.pea.waiting.filter fun x => x.1 == n).map fun x => x.2.1
      let s := (s.setPea fun p => { p with waiting := p.waiting.filter fun x => x.1 != n }).dropBlocks fun b => b.owner == n
      let s := { s with slc := { s.slc with objWrites := s.slc.objWrites.filter fun x => x.id != n } }
      let s := s.forEach homes fun h t =>
        (t.freeExt h).setObj w.obj fun o => { o with map := o.map.filter fun e => e.2.home != h }
      (s.fail w.req .noSpace).freeObj w.obj

/-- Accept a T3 write into the write buffer. -/
def State.acceptWrite (s : State) (n : Nat) (home : Home) (data : List Byte) : State :=
  let count := ceilDiv data.length 4096
  let first := home.addr / 8
  let owner := s.slc.moves.find? fun m => m.seqNo == n
  let isMeta := ((owner.bind fun m => s.frame? m.frame).map FrameInfo.isMeta).getD false
  let d := match owner with
    | some m => m.domain
    | none => ((s.slc.objWrites.find? fun w => w.id == n).map ObjWrite.domain).getD 0
  let sectors := (chunks 4096 count data).zipIdx.map fun x => (first + x.2, (x.1 ++ List.replicate 4096 0#8).take 4096)
  let s := s.setPea fun p => { p with
    waiting := p.waiting.filter fun w => !(w.1 == n && w.2.1 == home)
    waitCounted := p.waitCounted.filter (· != n)
    writes := p.writes ++ [{ id := p.nextWrite, move := n, left := sectors.map Prod.fst }]
    nextWrite := p.nextWrite + 1 }
  let s := s.bumpD d Reg.peaWrSectLo count
  let stream := if isMeta then WStream.hot else WStream.cold
  s.forEach ((sectors.map fun x => x.1 / 16).eraseDups) fun u t =>
    t.gather u stream (sectors.filter fun x => x.1 / 16 == u) [] false

/-- Peat takes a T3 write whose blocks have left Sedge. -/
def execPeatWrite (move : Nat) (s : State) : Host.Outcome State Fault Refusal :=
  .next (s.afterIn .engine
    (match s.pea.waiting.find? fun w => w.1 == move with
     | none => s
     | some (_, home, data) =>
       if !s.peaServes || s.sdg.queue.any (fun b => b.owner == move)
           || s.slc.objWrites.any (fun w => w.id == move && !w.blocks.isEmpty) then s
       else if s.pea.pstate = .readOnly then s.refuseWrite move
       else if s.writeHeld || s.flushBehind then
         let t := s.setPea fun p => { p with gcHard := s.writeHeld }
         let t := if s.writeHeld then t.setEvt Evt.peaGcHard else t
         if s.pea.waitCounted.contains move then t
         else (t.setPea fun p => { p with waitCounted := p.waitCounted ++ [move] }).bump Reg.peaWrWaitLo
       else s.acceptWrite move home data))

/-- A unit that can no longer be written leaves the buffer, and the writes that it serves fail (R201). -/
def State.failUnit (s : State) (b : BufUnit) : State :=
  let hit := s.pea.writes.filter fun w => b.srcs.isEmpty && w.left.any b.sectors.has
  let s := s.setPea fun p => { p with buffer := p.buffer.filter fun y => y.id != b.id, writes := p.writes.filter fun w => !hit.contains w }
  s.forEach ((hit.map PWrite.move).eraseDups) fun n t => t.refuseWrite n

/-- A unit whose 16 sectors have arrived, or whose window has passed, is written (R192). Once T3 is read-only, one that no open
stripe can take fails (R201). -/
def execCoalesceExpiry (unit : Nat) (s : State) : Host.Outcome State Fault Refusal :=
  .next (s.afterIn { Scope.engine with mgmt := true }
    (match s.pea.buffer.find? fun b => b.unit == unit && !b.issued
        && (decide (16 ≤ b.sectors.length) || decide (b.since + usNs (s.fld Reg.peaCfg 31 16) ≤ s.now)) with
     | some b =>
       if s.peaServes then
         let t := s.issueUnit b
         if t.pea.pstate = .readOnly ∧ t.pea.buffer.any (fun y => y.id == b.id && !y.issued) then t.failUnit b else t
       else s
     | none => s))

/-- A stripe row and its parity row have programmed (R195). -/
def execStripeRowProgrammed (stripe : Nat) (s : State) : Host.Outcome State Fault Refusal :=
  .next (s.afterIn .store
    (match s.pea.stripes.find? fun x => x.id == stripe with
     | some st => if s.peaServes && !st.fill.isEmpty then s.programRow st else s
     | none => s))

/-- A program fails: the block is retired, its row is written again from the buffer, and its programmed rows are relocated
first (R197). -/
def execProgramFail (stripe index : Nat) (s : State) : Host.Outcome State Fault Refusal :=
  .next (s.afterIn .flash
    (match s.pea.stripes.find? fun x => x.id == stripe with
     | none => s
     | some st =>
       match st.blocks[index]? with
       | none => s
       | some b =>
         if s.peaWrites && !st.fill.isEmpty then
           let s := ((s.setErr Err.peaProgFail).bump Reg.peaProgFailLo).fault (s.peaUnit b) 0x07 5
             (b * 2 ^ s.pea.geom.rowBits + (s.pea.blk b).next)
           let live := s.pea.liveOf b
           let s := ((s.reissue st [index]).retire b).replaceBlock st b
           let s := s.relocate live .wear true
           (s.bump Reg.peaWlSectLo live.length).peaCheck
         else s))

/-- The erase of a block that a stripe has just taken fails: the block is retired, and the stripe continues on another
(R197). -/
def execEraseFail (blk : Nat) (s : State) : Host.Outcome State Fault Refusal :=
  .next (s.afterIn .flash
    (match s.pea.stripes.find? fun x => x.blocks.contains blk with
     | none => s
     | some st =>
       if s.peaWrites && decide ((s.pea.blk blk).next = 0) && decide ((s.pea.blk blk).st = .opened) then
         let s := ((s.setErr Err.peaEraseFail).bump Reg.peaEraseFailLo).fault (s.peaUnit blk) 0x07 5
           (blk * 2 ^ s.pea.geom.rowBits)
         let index := (st.blocks.idxOf blk)
         (((s.reissue st [index]).retire blk).replaceBlock st blk).peaCheck
       else s))

/-- A closed block is verified; rows that fail are rebuilt from parity and written again (R196). -/
def execBlockVerify (blk : Nat) (badRows : List Nat) (s : State) : Host.Outcome State Fault Refusal :=
  .next (s.afterIn .flash
    (let b := s.pea.blk blk
     if s.peaWrites && decide (b.st = .closed) then
       let n := s.pea.geom.pages
       s.background .scrub (s.rowCost n 0 0) (n * 50000) fun t =>
         let r := 2 ^ t.pea.geom.rowBits
         let bad := badRows.eraseDups.filter fun x => decide (x < b.next)
         let live := (t.pea.liveOf blk).filter fun x => bad.contains (x.2 / 16 % r)
         let t := ((t.releaseParity blk).setBlk blk fun x => { x with st := .verified }).bump Reg.peaVerifyFailLo bad.length
         ((t.bump Reg.peaParityLo bad.length).relocate live .wear false).bump Reg.peaWlSectLo live.length
     else s))

/-! ### Reading (R202) -/

/-- Count reads and retries over the last 10 s, and signal a rate above the threshold as it newly arises (R212). -/
def State.countRetries (s : State) (reads retries : Nat) : State :=
  let log := (s.pea.rrLog ++ [(s.now, reads, retries)]).filter fun x => decide (s.now < x.1 + secNs 10)
  let n := sumNat (log.map fun x => x.2.1)
  let k := sumNat (log.map fun x => x.2.2)
  let high := decide (s.fld Reg.peaHealth 23 8 * n < k * 1000000)
  let s' := s.setPea fun p => { p with rrLog := log, retryRise := high }
  if high && !s.pea.retryRise then s'.peaWarn Evt.peaRetryRise else s'

/-- Hand the outcome of a read to the move or the delivery that waits for it. -/
def State.endT3Read (s : State) (r : PRead) (data : Option (List Byte)) : State :=
  let s := s.setPea fun p => { p with reads := p.reads.filter fun x => x.move != r.move }
  if readBase ≤ r.move then s.t3Page (r.move - readBase) data
  else
    match s.slc.moves.find? fun m => m.seqNo == r.move with
    | none => s
    | some m =>
      let s := s.modMove r.move fun m => { m with
        staged := data.getD (List.replicate (r.sectors.length * 4096) 0#8), flagged := data.isNone }
      if data.isNone then s.sourceBad m else s

/-- The domain that a read serves. -/
def State.readDomain (s : State) (r : PRead) : Nat :=
  if readBase ≤ r.move then ((s.pageRead? (r.move - readBase)).map PageRead.domain).getD 0
  else ((s.slc.moves.find? fun m => m.seqNo == r.move).map Move.domain).getD 0

/-- Rows that some live sectors lie in. -/
def rowsOf (live : List (Nat × Nat)) : Nat := ((live.map fun x => x.2 / 16).eraseDups).length

/-- The block that a sector of a read lies in. -/
def Pea.srcBlock (p : Pea) : SectorSrc → Option Nat
  | .flash a => some (p.geom.blockOf a)
  | _ => none

/-- Whether a block's rows can be rebuilt from parity: it has not verified (R196). -/
def Pea.hasParity (p : Pea) (b : Nat) : Bool := decide ((p.blk b).st = .opened) || decide ((p.blk b).st = .closed)

/-- Steps of the ladder for a block (Table 9.6). -/
def State.ladder (s : State) (b : Nat) : Nat :=
  1 + s.fld Reg.peaCfg 15 12 + (if bit (s.reg Reg.peaCfg) 11 then 1 else 0) + (if s.pea.hasParity b then 1 else 0)

/-- Whether no step is left for a block after some have failed. A target out of service answers no step but the rebuild from parity
(R348). -/
def State.exhausted (s : State) (step b : Nat) : Bool :=
  decide (s.ladder b ≤ step) || (!s.pea.served b && !s.pea.hasParity b)

/-- Whether a step can decode a sector of a block. -/
def State.canDecode (s : State) (step b : Nat) : Bool :=
  !s.exhausted step b && (s.pea.served b || decide (step + 1 = s.ladder b))

/-- The first threshold offset of a block: its learned step where it has one, and otherwise what the NAND tables give (R202). -/
def State.firstOffset (s : State) (temp : Int) (b : Nat) : Nat :=
  let x := s.pea.blk b
  if x.step ≠ 0 then x.step else Config.nandOffset (s.ftimeNow - x.lastTime) (temp - x.lastTemp) x.pe

/-- A read that no step has touched chooses the first offset of each of its blocks. -/
def State.chooseOffsets (s : State) (r : PRead) : PRead × State :=
  if r.step ≠ 0 || !r.offsets.isEmpty then (r, s)
  else
    let temp := Config.nandTemp s.fresh
    let blks := (r.src.filterMap s.pea.srcBlock).eraseDups
    ({ r with offsets := blks.map fun b => (b, s.firstOffset temp b) }, s.draw.2)

/-- `fails` more steps of a read have failed, and the next one decodes all that is left but some sectors (Table 9.6). -/
def State.climb (s : State) (r : PRead) (fails : Nat) (left : List Nat) : State :=
  let x := s.chooseOffsets r
  let r := x.1
  let s := x.2
  let pend := (r.sectors.zip r.src).filterMap fun y => if r.left.contains y.1 then (s.pea.srcBlock y.2).map fun b => (y.1, y.2, b) else none
  let gone := (pend.filter fun y => !s.pea.served y.2.2).map fun y => s.ladder y.2.2 - (if s.pea.hasParity y.2.2 then 1 else 0)
  let most := (pend.map fun y => s.ladder y.2.2).foldl max 0
  let step := min (max (r.step + fails) (gone.foldl max 0)) most
  let rest := pend.filter fun y => left.contains y.1 || !s.canDecode step y.2.2
  let now := pend.filter fun y => !(left.contains y.1 || !s.canDecode step y.2.2)
  let s := if r.step = 0 ∧ 0 < step then s.bumpD (s.readDomain r) Reg.peaRetryLo else s
  let s := s.countRetries 0 (step - r.step)
  let s := if 0 < step then s.modMove r.move fun m => { m with t3Retry := true } else s
  let rebuilt := now.filter fun y => s.pea.hasParity y.2.2 && decide (step + 1 = s.ladder y.2.2)
  let s := s.bumpD (s.readDomain r) Reg.peaParityLo (rowsOf (rebuilt.filterMap fun y => match y.2.1 with | .flash a => some (y.1, a) | _ => none))
  let soft := bit (s.reg Reg.peaCfg) 11 && decide (step = 1 + s.fld Reg.peaCfg 15 12) && decide (rebuilt.length < now.length)
  let s := if soft then s.bumpD (s.readDomain r) Reg.peaSoftLo else s
  let s := s.forEach ((now.map fun y => y.2.2).eraseDups) fun b t => t.setBlk b fun z => { z with step := if step = 0 then z.step else step }
  let blks := (r.src.filterMap s.pea.srcBlock).eraseDups
  let ends := fun (t : State) =>
    let t := (t.countRetries 1 0).bumpD (t.readDomain r) Reg.peaRdSectLo r.sectors.length
    t.forEach blks fun b t => t.setBlk b fun y => { y with reads := y.reads + 1 }
  match rest.find? fun y => s.exhausted step y.2.2 with
  | some y =>
    let s := ends s
    let s := if rest.any fun y => s.pea.hasParity y.2.2 then s.setErr Err.peaParityFail else s
    let pua := match y.2.1 with | .flash a => a / 16 | _ => 0
    let s := ((s.bumpD (s.readDomain r) Reg.peaReadUeLo).setErr Err.peaReadUe).fault (s.peaUnit y.2.2) 0x02 2 pua
    (s.endT3Read r none).freeVictims
  | none =>
    if rest.isEmpty then
      let s := ends s
      let n := (r.src.filter fun y => y == .unmapped).length
      let s := if n = 0 then s else (s.bumpD (s.readDomain r) Reg.peaUnmappedRdLo n).setErr Err.peaUnmapped
      (s.endT3Read r (some (r.src.flatMap s.pea.bytesOf))).freeVictims
    else
      let r := { r with step := step, left := rest.map Prod.fst }
      s.setPea fun p => { p with reads := updFirst (fun x => x.move == r.move) (fun _ => r) p.reads }

/-- A T3 read climbs the ladder (R202): `fails` more steps fail, and the next one decodes what is left but for the sectors
`left`. -/
def execPeatRead (move fails : Nat) (left : List Nat) (s : State) : Host.Outcome State Fault Refusal :=
  .next (s.afterIn { Scope.lookup with mgmt := true }
    (match s.pea.reads.find? fun r => r.move == move with
     | some r => if s.peaServes then (s.climb r fails left).sluice else s
     | none => s))

/-! ### Trims (R192) -/

/-- Sectors leave the write buffer, or are trimmed once the rows that carry them have programmed (Table 9.11). -/
def State.trimBuffer (s : State) (first count : Nat) : State :=
  let hit := fun (x : Nat) => decide (first ≤ x) && decide (x < first + count)
  s.setPea fun p => { p with
    buffer := (p.buffer.map fun (b : BufUnit) =>
      if b.issued then { b with trimmed := b.trimmed ++ (b.sectors.keys.filter fun x => hit x && !b.srcs.has x) }
      else { b with sectors := b.sectors.filter fun x => !hit x.1, srcs := b.srcs.filter fun x => !hit x.1 }).filter
        fun b => b.issued || !b.sectors.isEmpty
    writes := (p.writes.map fun w => { w with left := w.left.filter fun x => !hit x }).filter fun w => !w.left.isEmpty }

/-- Trim an extent: the buffer, the map, and the journal record; it leaves the pool until a later checkpoint (R377). -/
def State.trim (s : State) (first count : Nat) : State :=
  let s := (s.trimBuffer first count).trimMap first count
  let s := s.setPea fun p => { p with
    wseq := p.wseq + 1
    journalPend := p.journalPend ++ [{ wseq := p.wseq + 1, first := first, count := count, since := s.now }]
    quarantine := p.quarantine ++ [(first, count, p.nextCk)] }
  s.freeVictims

/-- Peat trims the oldest released extent. -/
def execTrim (s : State) : Host.Outcome State Fault Refusal :=
  .next (s.afterIn .flash
    (match s.pea.released with
     | (first, count) :: rest => if s.peaServes then ((s.setPea fun p => { p with released := rest }).trim first count).peaCheck else s
     | [] => s))

/-- A journal page is programmed: its records become persistent. -/
def execJournalPageProgram (s : State) : Host.Outcome State Fault Refusal :=
  .next (s.afterIn .flash
    (let due := decide (1024 ≤ s.pea.journalPend.length)
       || (s.pea.journalPend.head?.map fun r => decide (r.since + msNs 1 ≤ s.now)).getD false
     if s.peaServes && due then
       let page := s.pea.journalPend.take 1024
       s.setPea fun p => { p with
         journal := p.journal ++ page, journalPend := p.journalPend.drop 1024, journalPos := p.journalPos + page.length }
     else s))

/-! ### Garbage collection, wear and retention (R199, R200, R203) -/

/-- Whether one block comes before another: a measure, then the oldest by last program, then the lower PUA. -/
def beforeBy (f : Nat × Blk → Nat) (a b : Nat × Blk) : Bool :=
  decide (f a < f b) || (f a == f b && (decide (a.2.lastTime < b.2.lastTime) || (a.2.lastTime == b.2.lastTime && decide (a.1 ≤ b.1))))

/-- The best of some blocks. -/
def bestBy (f : Nat × Blk → Nat) (l : List (Nat × Blk)) : Option (Nat × Blk) :=
  l.foldl (fun m x => match m with
    | none => some x
    | some y => some (if beforeBy f x y then x else y)) none

/-- Copy a block's live sectors to a stream as work of a class. -/
def State.copyBlock (s : State) (cls : WorkClass) (b : Nat) (stream : WStream) (ctr : Nat) (f : State → State) : State :=
  let live := s.pea.liveOf b
  let n := rowsOf live
  s.background cls (s.rowCost n n 0) (n * 1650000) fun t =>
    let t := t.setBlk b fun x => { x with victim := true }
    (f ((t.relocate live stream false).bump ctr live.length)).freeVictims.peaCheck

/-- Garbage collection of one victim (R200). -/
def execGc (s : State) : Host.Outcome State Fault Refusal :=
  .next (s.afterIn .flash
    (let p := s.pea
     if s.peaWrites && decide (p.free * 1000 < s.fld Reg.peaGc 31 24 * p.inService) then
       match bestBy (fun x => (p.liveOf x.1).length) (p.blocks.filter fun x => x.2.st == .verified && !x.2.victim && p.served x.1) with
       | some v => s.copyBlock .gc v.1 .gc Reg.peaGcSectLo id
       | none => s
     else s.peaCheck))

/-- Static wear levelling of one block (R199). -/
def execWearLevel (s : State) : Host.Outcome State Fault Refusal :=
  .next (s.afterIn .flash
    (let p := s.pea
     let rate := s.fld Reg.peaWl 15 0
     let second := s.now / secNs 1
     let done := if p.wlSecond = second then p.wlCount else 0
     if s.peaWrites && decide (max 16 (s.fld Reg.peaWl 31 16) < p.spread) && decide (done < rate) then
       let live := p.blocks.filter fun x => (x.2.st == .closed || x.2.st == .verified) && !x.2.victim && p.served x.1
         && !(p.liveOf x.1).isEmpty
       match bestBy (fun x => x.2.pe) live with
       | some v => s.copyBlock .gc v.1 .wear Reg.peaWlSectLo fun t => t.setPea fun p => { p with wlSecond := second, wlCount := done + 1 }
       | none => s
     else s))

/-- A block at its retention limit less the margin, or at its read-disturb limit, as the NAND tables give them, is relocated
(R203). `byAge` says which of the two cases the row stands for; `late`, that the relocation still waits for its turn. One that is still
pending past its retention limit is signalled. -/
def execRetentionRelocate (blk : Nat) (byAge late : Bool) (s : State) : Host.Outcome State Fault Refusal :=
  .next (s.afterIn .flash
    (let b := s.pea.blk blk
     let age := (s.ftimeNow + 2 ^ 32 - b.lastTime) % 2 ^ 32
     let limit := Config.nandRetention b.pe b.lastTemp
     let due := if byAge then decide (limit ≤ age + s.fld Reg.peaHealth 7 0 * 86400) else decide (Config.nandDisturb b.pe ≤ b.reads)
     if s.peaWrites && (decide (b.st = .closed) || decide (b.st = .verified)) && !b.victim && due then
       let s := if byAge && decide (limit < age) then s.peaWarn Evt.peaRetention else s
       if late then s else s.copyBlock .scrub blk .wear Reg.peaWlSectLo id
     else s))

/-! ### Segments and checkpoints (R205, R206, R215) -/

/-- The flusher saves the dirty segment with the oldest unsaved change. -/
def execSegmentFlush (s : State) : Host.Outcome State Fault Refusal :=
  .next (s.afterIn .flash
    (if s.peaServes then
       match s.pea.dirty.foldl (fun (m : Option (Nat × Nat)) d => match m with
         | none => some (d.1, d.2.1)
         | some y => some (if d.2.1 < y.2 then (d.1, d.2.1) else y)) none with
       | some (seg, _) => s.saveSeg seg
       | none => s
     else s))

/-- Whether Peat has nothing accepted and unfinished (R215). -/
def State.peaIdle (s : State) : Bool :=
  let p := s.pea
  p.waiting.isEmpty && p.reads.isEmpty && p.writes.isEmpty && p.buffer.isEmpty && p.released.isEmpty && p.journalPend.isEmpty

/-- Whether the checkpoint at hand must leave no segment dirty: the island drains, or the device quiesces (R215, R300). -/
def State.ckptClean (s : State) : Bool := decide (s.island peatIsland = .draining) || decide (s.pwr.standby = .quiescing)

/-- A checkpoint is written (R206). -/
def execCheckpoint (s : State) : Host.Outcome State Fault Refusal :=
  .next (s.afterIn .flash
    (let p := s.pea
     let due := decide (p.ckptDue ≤ s.now) || p.ckptAsked || decide (p.reserve.length < 1024) || s.ckptClean
       || (s.glb.resetReq.map fun r => !r.flushed).getD false
     if s.peaServes && due && (!s.ckptClean || (s.peaIdle && p.dirty.isEmpty)) then s.writeCkpt.peaCheck else s))

/-! ### Recovery (R207 to R211) -/

/-- The copies of a checkpoint as recovery finds them. -/
def foundCopies (f : PeatFound) (c : Ckpt) : CkCopy × CkCopy :=
  match f.copies.find? fun x => x.1 == c.seq with
  | some x => x.2
  | none => (c.a, c.b)

/-- What Table 9.9 and R208 decide for one checkpoint: use a copy, with `CKPT_NORM` and `CKPT_DIFF` as found, or pass it over, or
find no valid copy. -/
inductive CkChoice where
  | use (copy : CkCopy) (norm diff : Bool)
  | pass
  | skip
  deriving DecidableEq, Repr

/-- Rows 1 to 5 of Table 9.9 for one checkpoint. -/
def chooseCopy (a b : CkCopy) : CkChoice :=
  let pick := fun (c : CkCopy) (norm diff : Bool) => if c.dirOk then CkChoice.use c norm diff else .pass
  if a.valid && b.valid then
    if a.used == b.used then pick a (a.unused != b.unused) false
    else if a.dirOk then .use a false true
    else pick b false true
  else if a.valid then pick a false false
  else if b.valid then pick b false false
  else .skip

/-- A checkpoint that recovery uses: the record of the copy chosen, whether a newer one was passed over, and what was found. -/
structure CkUse where
  ckpt : Ckpt
  body : CkRec
  older : Bool
  norm : Bool
  diff : Bool
  deriving DecidableEq, Repr

/-- The checkpoint to use, newest first (R207, R208). -/
def chooseCkpt (f : PeatFound) : List Ckpt → Bool → Option CkUse
  | [], _ => none
  | c :: cs, passed =>
    let x := foundCopies f c
    match chooseCopy x.1 x.2 with
    | .use k norm diff => some { ckpt := c, body := k.used.getD c.body, older := passed, norm := norm, diff := diff }
    | .pass => chooseCkpt f cs true
    | .skip => chooseCkpt f cs passed

/-- Whether any checkpoint of some was passed over for a failing directory. -/
def anyPassed (f : PeatFound) (l : List Ckpt) : Bool :=
  l.any fun c => let x := foundCopies f c; decide (chooseCopy x.1 x.2 = .pass)

/-- The map, block table and cursors of a checkpoint (R209, step 1). -/
def State.loadCkpt (s : State) (c : Ckpt) (k : CkRec) : State :=
  s.setPea fun p => { p with
    coarse := k.dir.flatMap fun x => x.2.coarse
    fine := k.dir.flatMap fun x => x.2.fine
    blocks := k.dir.flatMap fun x => x.2.blocks
    saved := k.dir, ftime := k.ftime, hotCur := k.cursors.1, coldCur := k.cursors.2, reserve := k.reserve, opened := []
    wseq := max p.wseq k.cut, nextCk := max p.nextCk (c.seq + 1), parked := c.park, dirty := [] }

/-- The greatest `WSEQ` that the rows, the parity rows and the journal hold. -/
def Pea.lastWseq (p : Pea) : Nat :=
  max (max (p.rows.foldl (fun m x => max m x.2.wseq) p.wseq) (p.journal.foldl (fun m x => max m x.wseq) 0))
    ((p.closedStripes.flatMap PStripe.parity).foldl (fun m x => max m x.wseq) 0)

/-- Earlier rows that the program of a failing row damaged are rebuilt from parity and written again through the wear stream (R209,
step 5). -/
def State.rebuildPaired (s : State) (paired : List Nat) : State :=
  let hurt := s.pea.mapped.filter fun x => paired.contains (x.2 / 16)
  (s.bump Reg.peaParityLo (rowsOf hurt)).relocate hurt .wear true

/-- A stripe of each write stream is opened from the reserve list (R209, step 7): how many, the manual does not say (DESIGN CHOICE,
log entry 113). -/
def State.openStreams (s : State) : State :=
  s.forEach [WStream.hot, .cold, .gc, .wear] fun w t => (t.openStripe w).getD t

/-- Recovery from a checkpoint (R208, R209). -/
def State.recoverFrom (s : State) (f : PeatFound) (u : CkUse) : State :=
  let c := u.body
  let s := (s.loadCkpt u.ckpt c).discard f.badRows
  let r := 2 ^ s.pea.geom.rowBits
  let g := s.pea.geom
  let fresh := (s.pea.rows.filter fun x => decide (x.1 % r = 0) && decide (c.rstart < x.2.wseq)).map fun x => x.1 / r
  let extra := if u.older then fresh.filter fun b => decide ((s.pea.blk b).st = .free) else []
  let blks := (c.reserve ++ c.stripes.flatMap PStripe.blocks ++ extra).eraseDups
  let covered := fun (seg w : Nat) => decide (w ≤ ((c.dir.get? seg).map SegCopy.cut).getD s.pea.fmtCut)
  let rows := (s.pea.flash.filter fun x => blks.contains (g.blockOf x.1) && decide (c.rstart < x.2.wseq)).map fun x => Replay.row x.1 x.2
  let trims := (s.pea.journal.filter fun r => decide (c.rstart < r.wseq)).map Replay.trim
  let s := (s.replayLog covered (rows ++ trims)).correctBlocks c.rstart blks
  let s := s.setPea fun p => { p with wseq := p.lastWseq + 1, reserve := p.reserve.filter fun b => (p.blk b).st == .free }
  ((s.rebuildPaired f.paired).peaReady f.risk).openStreams

/-- Recovery chooses a checkpoint and replays, or finds that the map must be rebuilt (Table 9.9). -/
def State.recover (s : State) (f : PeatFound) : State :=
  let s := s.setPea fun p => { p with
    coarse := [], fine := [], blocks := [], stripes := [], buffer := [], writes := []
    opened := [], journalPend := [], released := [], quarantine := [], residue := [], dirty := [], retained := [], parked := [] }
  match chooseCkpt f s.pea.ckpts false with
  | none =>
    let s := if anyPassed f s.pea.ckpts then s.setErr Err.peaCkptDiff else s
    (s.setPea fun p => { p with pstate := .rebuilding, foundBad := f.badRows, foundHurt := f.paired, foundRisk := f.risk }).setErr
      Err.peaCkptLost
  | some u =>
    let s := if u.norm then (s.setEvt Evt.peaCkptNorm).bump Reg.peaCkptNormLo else s
    let s := if u.diff || u.older then s.setErr Err.peaCkptDiff else s
    s.recoverFrom f u

/-- Whether Table 9.1 supports a target: NV-LPDDR4, 1 to 8 LUNs of 1, 2 or 4 planes, and pages of 16 KiB with 1,872 bytes spare
(R188). -/
def pageSupported (t : TargetPage) : Bool :=
  t.lpddr4 && decide (1 ≤ t.luns) && decide (t.luns ≤ 8) && [1, 2, 4].contains t.planes && decide (t.pageBytes = 16384)
    && decide (1872 ≤ t.spare)

/-- Whether a target has the device geometry (R189). -/
def pageSame (a b : TargetPage) : Bool :=
  a.qlc == b.qlc && a.pageBytes == b.pageBytes && a.planes == b.planes && a.luns == b.luns && a.blocks == b.blocks

/-- The geometry that the parameter pages give: the target of channel 0, chip enable 0, fixes it, and the targets that differ, or
that Table 9.1 does not support, are excluded (R188, R189). -/
def State.findTargets (s : State) (ts : List (Option TargetPage)) (g : TargetPage) : State :=
  let numbered := ts.zipIdx
  let bad := numbered.filterMap fun x => if x.1.any fun t => !(pageSame t g && pageSupported t) then some x.2 else none
  let gone := numbered.filterMap fun x => if x.1.isNone then some x.2 else none
  let s := s.setPea fun p => { p with
    geom := { targets := ts.length, luns := g.luns, planes := g.planes, pages := g.pages, blocks := g.blocks, qlc := g.qlc }
    excluded := bad, absent := gone }
  if bad.isEmpty then s else s.setErr Err.peaGeom

/-- Recovery after a device reset, once the island is `ON` (R189, R207 to R209). Where no target fixes a geometry that Table 9.1
supports, the geometry is refused (DEDUCED, log entry 114). -/
def execPeatRecovery (found : PeatFound) (s : State) : Host.Outcome State Fault Refusal :=
  .next (s.afterIn .flash
    (if s.peaOn && decide (s.pea.pstate = .recovering) then
       let ts := found.targets.take 256
       let refused := fun (t : State) => (t.setPea fun p => { p with pstate := .failed }).setErr Err.peaGeom
       if ts.all Option.isNone then s.setPea fun p => { p with pstate := .noFlash }
       else
         match (ts.head?).join with
         | none => refused s
         | some g =>
           if !pageSupported g then refused s
           else
             let t := s.findTargets ts g
             if 33 < t.pea.geom.puaBits then refused t else t.recover found
     else s))

/-- The map is rebuilt from every row header; no trim is honoured (R210). Wear is taken from the newest block table records in
the flash (log entry 52). -/
def State.rebuild (s : State) : State :=
  let s := s.setPea fun p => { p with
    coarse := [], fine := [], residue := [], parked := [], journal := []
    blocks := (p.saved.flatMap fun x => x.2.blocks).map fun x => (x.1, { x.2 with st := if x.2.st = .retired then .retired else .free })
    reserve := [], opened := [] }
  let s := s.discard s.pea.foundBad
  let s := s.replayLog (fun _ _ => false) (s.pea.flash.map fun x => Replay.row x.1 x.2)
  let s := s.correctBlocks 0 ((s.pea.rows.map fun x => x.1 / 2 ^ s.pea.geom.rowBits).eraseDups)
  let s := s.setPea fun p => { p with wseq := p.lastWseq + 1 }
  let s := s.forEach s.pea.dirty.keys fun seg t => t.saveSeg seg
  ((s.rebuildPaired s.pea.foundHurt).peaReady s.pea.foundRisk).setPea fun p => { p with foundBad := [], foundHurt := [] }

/-- A full rebuild ends. -/
def execFullRebuild (s : State) : Host.Outcome State Fault Refusal :=
  .next (s.afterIn .flash (if s.peaOn && decide (s.pea.pstate = .rebuilding) then s.rebuild else s))

/-! ### Format and health -/

/-- A format completes: an empty T3 with the settings that it took (R193, R201). -/
def State.formatted (s : State) : State :=
  let op := s.pea.fmtOp
  let mt := s.pea.fmtMeta
  let s := s.setPea fun p => { p with
    opPct := op, metaGib := mt, fmtCut := p.wseq + 1, wseq := p.wseq + 1, hotCur := 0, coldCur := 0, coarse := [], fine := []
    flash := [], packed := [], rows := [], closedStripes := [], readOnly := false
    blocks := p.blocks.map fun (b : Nat × Blk) =>
      (b.1, if b.2.st = .retired then b.2 else { pe := b.2.pe + 1 })
    peBase := p.peBase + 1, stripes := [], reserve := [], opened := [], buffer := [], writes := [], waiting := [], journal := []
    journalPend := [], released := [], quarantine := [], residue := [], dirty := [], saved := [], ckpts := [], parked := []
    retained := [], pstate := .ready, gcHard := false }
  let s := s.setPea fun p => { p with spareFmt := min (Config.spareAtFormat op mt) (p.allFree * op / 100) }
  s.writeCkpt.peaCheck

/-- A format completes. -/
def execFormatDone (s : State) : Host.Outcome State Fault Refusal :=
  .next (s.afterIn .flash (if s.peaOn && decide (s.pea.pstate = .formatting) then s.formatted else s))

/-- A NAND target answers nothing for 100 ms: it leaves service, and its open stripes continue on other blocks (R348). -/
def execNandTargetSilent (target : Nat) (s : State) : Host.Outcome State Fault Refusal :=
  .next (s.afterIn .flash
    (if s.peaOn && s.pea.targets.contains target then
       let g := s.pea.geom
       let s := s.fault (unitWord 0x0B 0 (target / 8) (target % 8)) 0x07 5
       let hit := s.pea.stripes.flatMap fun st => (st.blocks.filter fun b => g.targetOf b == target).map fun b => (st, b)
       let s := s.setPea fun p => { p with
         silent := p.silent ++ [target], reserve := p.reserve.filter fun b => g.targetOf b != target }
       (s.forEach hit fun x t => (t.reissue x.1 [x.1.blocks.idxOf x.2]).replaceBlock x.1 x.2).peaCheck
     else s))

end Sys2Proof.Machine
end

