-- ==== Sys2Proof/Machine/Parking.lean ====
section
/-! DEFINITION. Machine/Parking.lean: reinstatement of parked data, its release, and the erasure of a torn-down domain's T3
blocks (R377 to R379, R318). -/

namespace Sys2Proof.Machine

/-- Runs of sectors without those of one extent. -/
def subRun (l : List (Nat × Nat)) (a n : Nat) : List (Nat × Nat) :=
  l.flatMap fun r =>
    let lo := (r.1, min (r.1 + r.2) (max r.1 a) - r.1)
    let hi := (max r.1 (a + n), r.1 + r.2 - max r.1 (a + n))
    [lo, hi].filter fun x => decide (0 < x.2)

/-- A reinstated frame claims its extent; one with an unmapped sector is poisoned (R378). -/
def State.claim (s : State) (f : FrameId) : State :=
  match s.frame? f with
  | none => s
  | some i =>
    if i.home.tier ≠ 3 ∨ s.slc.extents.any fun e => e.1 == i.home then s
    else
      let first := i.home.addr / 8
      let n := ceilDiv i.bytes 4096
      let s := s.take i.home (n * 4096) i.domain
      let s := s.setPea fun p => { p with retained := subRun p.retained first n }
      if ((List.range n).map (first + ·)).any fun x => (s.pea.psaOf x).isNone then s.raisePoison f else s

/-- Records of a domain that its present keys open. -/
def State.parkedOf (s : State) (d : Nat) : List ParkRec :=
  match (s.lve.doms.get? d).bind Domain.keys with
  | some k => (s.pea.parked.filter fun p => p.domain == d && p.kcv == k.kcv).map Park.body
  | none => []

/-- Whether a record may be reinstated: its model tag is not registered with other operands. -/
def State.modelFits (s : State) (d : Nat) (recs : List ParkRec) (tag : Nat) : Bool :=
  let m := recs.findSome? fun r => match r with | .model t m => if t = tag then some m else none | _ => none
  match s.model? d tag with
  | some x => m == some x
  | none => m.isSome

/-- The records of a domain that reinstatement restores. -/
def State.restorable (s : State) (d : Nat) : List ParkRec :=
  let recs := s.parkedOf d
  let fits := fun (t : Nat) => s.modelFits d recs t
  let seqs := recs.filterMap fun r => match r with | .seq i q => if fits q.model then some (i, q) else none | _ => none
  let objs := recs.filterMap fun r => match r with | .obj n _ => some n | _ => none
  let bds := seqs.flatMap fun x => x.2.bds
  let owns := fun (root : TableRoot) => match root with
    | .seq i => seqs.any fun x => x.1 == i
    | .obj n => objs.contains n
    | .bds => !bds.isEmpty
  recs.filter fun r => match r with
    | .seq i _ => seqs.any fun x => x.1 == i
    | .obj _ _ => true
    | .bd b _ => bds.contains b
    | .model t _ => fits t && seqs.any fun x => x.2.model == t
    | .frame f _ => match f with
      | .table root _ _ => owns root
      | .bdPage b => bds.contains b
      | _ => false

/-- Whether reinstatement of a domain has work to do and may do it now (R378). -/
def State.reinstating (s : State) (d : Nat) : Bool :=
  s.peaServes && decide ((s.lve.doms.get? d).map Domain.st = some .active) && !(s.restorable d).isEmpty

/-- Put one record back. -/
def State.putBack (s : State) (d : Nat) (r : ParkRec) : State :=
  let x := s.xlt
  match r with
  | .model t m => { s with xlt := { x with models := x.models.set (d, t) m } }
  | .seq i q => { s with xlt := { x with seqs := x.seqs.set i { q with lastActive := s.now } } }
  | .obj n o => { s with xlt := { x with objs := x.objs.set n o } }
  | .bd b y => { s with xlt := { x with bds := x.bds.set b { y with indexed := false } } }
  | .frame f m => if x.metas.has f then s else { s with xlt := { x with metas := x.metas.set f m } }

/-- References of the slots of a block descriptor, counted from the restored entries. -/
def State.recount (s : State) (b : Nat) : State :=
  let refs := fun (k : Nat) => sumNat (s.xlt.seqs.map fun x => (x.2.ptes.filter fun e => e.2.share == some (b, k)).length)
  s.setBd b fun x => { x with fds := x.fds.mapVals fun k e => { e with refs := refs k } }

/-- Reinstate the parked sequences and objects of a domain (R378). -/
def State.reinstate (s : State) (d : Nat) : State :=
  let recs := s.restorable d
  let parked := s.pea.parked.filter fun x => !(x.domain == d && recs.contains x.body)
  let s := s.forEach recs fun r t => t.putBack d r
  let bds := recs.filterMap fun r => match r with | .bd b _ => some b | _ => none
  let s := s.forEach bds fun b t => t.recount b
  let frames := recs.flatMap fun r => match r with
    | .seq i q => q.ptes.filterMap fun x => if x.2.share.isNone then some (FrameId.page i x.1.1 x.1.2.1 x.1.2.2) else none
    | .bd b y => y.fds.map fun e => FrameId.slot b e.1
    | .obj n o => o.map.map fun e => FrameId.obj n e.1
    | .frame f _ => [f]
    | .model _ _ => []
  (s.forEach frames fun f t => t.claim f).setPea fun p => { p with parked := parked }

/-- The parked sequences and objects of a domain are restored. -/
def execReinstate (dom : Nat) (s : State) : Host.Outcome State Fault Refusal :=
  .next (s.afterIn .search (if s.reinstating dom && s.serves .xlt then s.reinstate dom else s))

/-- `GLB_T3_CTL.RELEASE` (R379): unclaimed retained sectors are trimmed, and the records not reinstated are discarded. -/
def State.t3Release (s : State) : State :=
  let runs := s.pea.retained
  let s := s.setPea fun p => { p with retained := [], parked := [] }
  s.forEach runs fun r t => t.trim r.1 r.2

/-- Blocks whose erasure a torn-down domain waits for: those that hold a sector it released (Table 14.8). -/
def State.markErase (s : State) (d : Nat) (runs : List (Nat × Nat)) : State :=
  let g := s.pea.geom
  let hit := (s.pea.flash.filter fun x => runs.any fun r => decide (r.1 ≤ x.2.sector) && decide (x.2.sector < r.1 + r.2)).map
    fun x => g.blockOf x.1
  s.setPea fun p => { p with erasing := p.erasing.set d ((p.erasing.getD d []) ++ hit).eraseDups }

/-- Relocate what is live in the blocks of a torn-down domain, or erase them once nothing is (Table 14.8). An open block is
erased once its stripe is full. -/
def State.eraseT3 (s : State) (d : Nat) : State :=
  let g := s.pea.geom
  let blks := s.pea.erasing.getD d []
  let live := blks.flatMap s.pea.liveOf
  if live.isEmpty then
    if blks.any fun b => (s.pea.blk b).st == .opened || s.pea.readFrom b then s
    else
      let s := s.setPea fun p => { p with
        erasing := p.erasing.erase d, flash := p.flash.filter fun x => !blks.contains (g.blockOf x.1)
        rows := p.rows.filter fun x => !blks.contains (x.1 / 2 ^ g.rowBits) }
      let s := s.forEach blks fun b t => (t.releaseParity b).setBlk b fun x => if x.st = .retired then x else { x with st := .free, victim := false }
      ({ s with lve := { s.lve with doms := s.lve.doms.modify d fun x => { x with t3Pend := false } } } : State).setEvt
        Evt.lveScrubDone
  else
    let n := rowsOf live
    s.background .scrub (s.rowCost n n 0) (n * 1650000) fun t => t.relocate live .wear false

/-- Peat erases the blocks of a torn-down domain. -/
def execT3ErasureDone (dom : Nat) (s : State) : Host.Outcome State Fault Refusal :=
  .next (s.afterIn .erasure
    (if s.peaWrites && s.pea.erasing.has dom && s.pea.released.isEmpty then (s.eraseT3 dom).peaCheck else s))

end Sys2Proof.Machine
end

