-- ==== Sys2Proof/Machine/LeveeOps.lean ====
section
/-! DEFINITION. Machine/LeveeOps.lean: domain keys, key operations, teardown, SPDM authority and `SAFE`, as the commands of
Levee use them (R305 to R328). -/

namespace Sys2Proof.Machine

/-! ### Domains -/

/-- A row of the domain table. -/
def State.dom (s : State) (d : Nat) : Domain := s.lve.doms.getD d {}

/-- A row of the domain table changed. -/
def State.setDom (s : State) (d : Nat) (f : Domain → Domain) : State :=
  { s with lve := { s.lve with doms := s.lve.doms.set d (f (s.dom d)) } }

/-- A domain moves to a state; the change is signalled (Table 14.1). -/
def State.moveDom (s : State) (d : Nat) (st : DomState) : State :=
  if (s.dom d).st = st then s else (s.setDom d fun x => { x with st := st }).setEvt Evt.lveDomState

/-- The code of a domain state in `LVE_DOM_STAT`. Domain 0 stands outside Table 14.1 and reads 0, the reset value there;
`DOM_MODE` of PF0 reads 2. -/
def State.domCode (s : State) (d : Nat) : Nat :=
  match (s.dom d).st with | .free => 0 | .created => 1 | .active => 2 | .teardown => 3

/-- Domains other than 0 that are not `FREE`. -/
def State.liveDoms (s : State) : List Nat := (s.lve.doms.filter fun e => decide (e.1 ≠ 0) && decide (e.2.st ≠ .free)).map Prod.fst

/-- Whether a confidential domain is not `FREE` (R319). -/
def State.confAny (s : State) : Bool := s.liveDoms.any s.conf

/-! ### Keys (R312 to R314) -/

/-- K_RS (Table 14.5). -/
def bindKey : List Byte := hkdfExpand Config.rootSecret (ascii "levee bind") 32

/-- The prefix and check keys of a generation. -/
def prefixKeys (prk : List Byte) (g : Nat) : List Byte × List Byte :=
  (hkdfExpand prk (ascii "levee pfx" ++ leBytes 1 g) 16, hkdfExpand prk (ascii "levee chk" ++ leBytes 1 g) 16)

/-- The keys that R313 derives from a domain master key. -/
def deriveKeys (d : Nat) (dmk : List Byte) : Keys :=
  let prkD := hkdfExtract (ascii "levee dev" ++ leBytes 8 Config.serial.toNat ++ leBytes 2 d) (dmk ++ bindKey)
  let prkP := hkdfExtract (ascii "levee pfx") dmk
  let p := prefixKeys prkP 0
  { tier := (List.range 4).map fun t => hkdfExpand prkD (ascii "levee t" ++ leBytes 1 t) 64
    pfx := p.1, chk := p.2, kcv := u64 (hkdfExpand prkP (ascii "levee kcv") 8) 0, prk := prkP }

/-- A key operation becomes `KEY` work; its result waits for its end (R314). -/
def State.keyOp (s : State) (d : Nat) (writes : Bool) (r : Requester) (out : List Byte) : State :=
  let n := s.lve.nextKey
  let k : KeyOp := { num := n, domain := d, writesSlot := writes, req := r, resp := out }
  let s := { s with lve := { s.lve with nextKey := n + 1, keyOps := s.lve.keyOps ++ [k] } }
  s.offer (s.keyItem d (.key n))

/-- Key operations that have been dispatched, oldest first. -/
def State.keysRun (s : State) : List KeyOp := s.lve.keyOps.filter fun k => !s.waits (.key k.num)

/-- A key operation leaves. -/
def State.dropKey (s : State) (n : Nat) : State :=
  { s with
    lve := { s.lve with keyOps := s.lve.keyOps.filter fun k => k.num != n }
    pwr := { s.pwr with keyEpochs := s.pwr.keyEpochs.erase n } }

/-- Held records of a sequence, its held truncate and what waits behind it end with a code. -/
def State.denySeq (s : State) (i : Nat) (st : Status) : State :=
  match s.seq? i with
  | none => s
  | some x =>
    let s := s.forEach ((x.held.map fun h => h.rc.layer).eraseDups) fun l t => t.failHeld i l st st
    let s := match x.trunc with
      | some (r, _) => s.fail r st
      | none => s
    let s := s.forEach x.waiting fun w t => match w with
      | .append r _ => t.fail r st
      | .query r b _ => t.refuseQuery x.domain r b st
      | .truncate r _ => t.fail r st
      | .ringQuery r _ b _ => t.refuseRing r b st 0
    s.setSeq i fun q => { q with trunc := none, waiting := [] }

/-- Accepted work of a domain that has not begun ends with a code: held records, held truncates and what waits behind them,
steps that are on no core, deliveries, and placements that wait. -/
def State.denyHeldNow (s : State) (d : Nat) (st : Status) : State :=
  let s := s.forEach (s.xlt.seqs.filter fun x => x.2.domain == d) fun x t => t.denySeq x.1 st
  let s := s.forEach (s.att.steps.filter fun x => x.domain == d) fun x t => t.failStep x.id st
  let s := s.forEach (s.slc.pageReads.filter fun r => r.domain == d) fun r t => t.failPages r st
  let mine := s.slc.queue.filter fun x => s.domainOf x.1 == d
  let s := { s with slc := { s.slc with queue := s.slc.queue.filter fun x => s.domainOf x.1 != d } }
  s.forEach mine fun x t => t.fail x.1 st

/-- Accepted work of a domain that has not begun ends: the stores and the engine change, and no table of Levee. -/
def State.denyHeld (s : State) (d : Nat) (st : Status) : State := s.only .engine (s.denyHeldNow d st)

/-- Refusals that a session waits to send leave now. -/
def State.flushRefusals (s : State) (i : Nat) : State :=
  let mine := s.cwy.refusals.filter fun x => x.1 == some i
  let s := { s with cwy := { s.cwy with refusals := s.cwy.refusals.filter fun x => x.1 != some i } }
  s.forEach mine fun x t => t.sendReply x.1 x.2.1 x.2.2.1 .denied

/-- Sessions of a domain. -/
def State.sessionsFor (s : State) (d : Nat) : List Nat := (s.cwy.sessions.filter fun e => e.2.domain == d).map Prod.fst

/-- Every session of a domain closes with a `DETACH` reason. -/
def State.closeSessions (s : State) (d reason : Nat) : State :=
  s.only .answer (s.forEach (s.sessionsFor d) fun i t => (t.flushRefusals i).detach i reason)

/-- The commands of a domain's functions that are fetched and not started. -/
def State.unstarted (s : State) (d : Nat) : List CmdRef :=
  (s.hif.funcs.filter fun e => decide (e.1 ≠ 0) && e.2.bound && e.2.domain == d).flatMap fun e =>
    e.2.ringTab.flatMap fun r => (r.2.inflight.filter fun c => !c.started && !c.discard).map fun c => ⟨e.1, r.1, c.num⟩

/-- The key slot of a domain is zeroised: an `ACTIVE` domain leaves that state, and its held work ends (Table 14.1). -/
def State.loseKeys (s : State) (d : Nat) : State :=
  let was := (s.dom d).st
  let s := s.setDom d fun x => { x with keys := none }
  if was = .active then
    let s := (s.moveDom d .created).denyHeld d .unavailable
    let s := s.forEach (s.unstarted d) fun q t => (t.markStarted q).fail (.ring q) .unavailable
    (s.closeSessions d 3).purgeDomain d
  else s

/-! ### `SAFE` (R328) -/

/-- An entry of the device itself about a domain, where the log can take it. -/
def State.auditFor (s : State) (d kind target : Nat) : State := if s.auditTakes then s.audit d .device kind target [] [] else s

/-- An entry of the device itself, where the log can take it. -/
def State.auditIf (s : State) (kind target : Nat) : State := s.auditFor 0 kind target

/-- Enter `SAFE`: keys are zeroised, engines stop, ports go `DOWN`, a warm reset
is abandoned (Table 15.5), and the state and its cause are recorded. -/
def State.enterSafe (s : State) (cause : Nat) : State :=
  if s.lve.safe then s
  else
    let pulse := s.glb.smoutUntil.isSome
    let s := s.auditIf 0x07 cause
    let s := s.forEach (s.liveDoms.filter fun d => (s.dom d).keys.isSome) fun d t => (t.auditFor d 0x04 0).loseKeys d
    let s := s.forEach (s.cwy.sessions.keys) fun i t => t.freeSession i
    let s := s.sealSegment 1
    let s := s.forEach (List.range 32) fun p t => if t.hasPort p then (t.dropPort p).setPort p fun q => { q with st := .down } else t
    let s := { s with
      lve := { s.lve with
        safe := true, cause := cause, keyOps := [] }
      mgmt := { s.mgmt with sessions := [] }
      att := { s.att with steps := [], tasks := [] }
      pwr := { s.pwr with items := [], live := false, standby := .running }
      rbd := { s.rbd with searches := [] }
      flt := { s.flt with
        xlt := { s.flt.xlt with warmSince := none }, lve := { s.flt.lve with warmSince := none }
        evc := { s.flt.evc with warmSince := none }, warmFrame := none, stale := [] }
      glb := { s.glb with phase := .safe, smoutUntil := none } }
    let s := if pulse then s.emit (.pin .stepmarkOut 0) else s
    let s := if cause = 6 then s
      else s.setHistory (unitWord 0x01 0 (if cause = 4 then 3 else 4)) fun h => { h with byMonitor := true }
    ((s.fault (unitWord 0x01 0 4) 0x0A 6).pldmEvent 1 [3])

/-! ### Teardown (R315, R316, R402) -/

/-- The rings of a function are unbound: what it has fetched and not started is dropped with its completion. -/
def Func.unbindRings (f : Func) : Func :=
  let g := f.disableRings
  { g with ringTab := g.ringTab.mapVals fun _ r => { r with inflight := r.inflight.filter fun c => c.started } }

/-- What a domain has waiting for T0 space ends with `E_DENIED`: frame requests, chained moves, commands (Table 8.4). -/
def State.denyWaiting (s : State) (d : Nat) : State :=
  let mine := s.slc.spaceWait.filter fun id => s.slc.places.any fun p => p.domain == d && p.reqs.any fun r => r.id == id
  let chains := s.slc.chainWait.filter fun x => x.2.1 == d
  let cmds := s.slc.spaceCmds.filter fun x => s.domainOf x.req == d
  let s := { s with slc := { s.slc with
    spaceWait := s.slc.spaceWait.filter fun id => !mine.contains id, chainWait := s.slc.chainWait.filter fun x => x.2.1 != d
    spaceCmds := s.slc.spaceCmds.filter fun x => !cmds.contains x } }
  let s := s.endReqs mine (.failed .denied 0)
  let s := s.forEach chains fun x t => (t.endReqs x.2.2.reqs (.failed .denied 0)).endWaiters d x.2.2.ticket .denied 0
  s.forEach cmds fun x t => t.fail x.req .denied

/-- Steps 1 and 2 of a teardown. -/
def State.startTeardown (s : State) (d : Nat) (w : Who) (kind target : Nat) (r : Requester) : State :=
  let s := s.audit d w kind target [] []
  let s := { s with aud := { s.aud with reserved := s.aud.reserved + 1 } }
  let s := (s.setDom d fun x => { x with teardown := some { joined := [r] } }).moveDom d .teardown
  let s := s.denyHeld d .denied
  let s := { s with
    hif := { s.hif with funcs := s.hif.funcs.mapVals fun fn f => if fn ≠ 0 ∧ f.bound ∧ f.domain = d then f.unbindRings else f }
    xlt := { s.xlt with handoffs := s.xlt.handoffs.filter fun h => ((s.xlt.bds.get? h.bd).map Bd.domain) != some d } }
  let s := s.closeSessions d 2
  let s := s.forEach (s.slc.moves.filter fun m => m.domain == d && m.st == .queued) fun m t => t.abortMove m .denied 0
  let s := s.denyWaiting d
  let s := (s.dropBlocks fun b => b.domain == d).zeroLines d
  let s := { s with slc := { s.slc with objWrites := s.slc.objWrites.map fun (w : ObjWrite) => if w.domain = d then { w with blocks := [] } else w } }
  (s.purgeDomain d).sluice.endObjWrites

/-- Whether the device can put on record both entries of a teardown (R316). -/
def State.teardown (s : State) (d : Nat) (kind target : Nat) (r : Requester) : State :=
  match (s.dom d).teardown with
  | some t =>
    if t.erased then s.complete r {}
    else s.setDom d fun x => { x with teardown := x.teardown.map fun t => { t with joined := t.joined ++ [r] } }
  | none => if s.auditTakes 2 then s.startTeardown d (s.whoReq r) kind target r else s.auditRefuse.fail r .logFull

/-- Work of a domain that is in flight. A partner that has not answered the `DETACH` of step 2 holds no later step back (R318,
log entry 86). -/
def State.domBusy (s : State) (d : Nat) : Bool :=
  s.slc.moves.any (fun m => m.domain == d) || s.att.steps.any (fun x => x.domain == d) || s.slc.pageReads.any (fun x => x.domain == d)
    || s.slc.objWrites.any (fun x => x.domain == d) || s.slc.places.any (fun x => x.domain == d)
    || s.rbd.searches.any (fun x => x.domain == d) || s.sdg.queue.any (fun x => x.domain == d)
    || s.lve.keyOps.any (fun x => x.domain == d)
    || s.hif.funcs.any fun f => decide (f.1 ≠ 0) && f.2.bound && f.2.domain == d && f.2.ringTab.any fun r => !r.2.inflight.isEmpty

/-- Step 4: the crypto-erase. Every request that waits for the teardown completes. -/
def State.cryptoErase (s : State) (d : Nat) : State :=
  let waiting := ((s.dom d).teardown.map Teardown.joined).getD []
  let s := s.setDom d fun x => { x with keys := none, anchors := [], teardown := some { erased := true } }
  s.forEach waiting fun r t => t.complete r {}

/-- Extents of a domain: home and bytes. -/
def State.extentsOf (s : State) (d : Nat) : List (Home × Nat) :=
  (s.slc.extents.filter fun e => e.2.2 == d).map fun e => (e.1, e.2.1)

/-- A run of bytes of a tier is overwritten with zeros. -/
def State.zeroRange (s : State) (tier addr n : Nat) : State :=
  let k := memKey tier addr
  { s with mem := s.mem.filter fun c => !(decide (k ≤ c.1) && decide (c.1 < k + n)) }

/-- Tables of the range of block descriptors that a domain made and that lead to a descriptor of another domain pass to that
domain (R46). -/
def State.handOverTables (s : State) (d : Nat) : State :=
  let others := s.xlt.bds.filter fun b => b.2.domain != d
  let mine := s.xlt.metas.filter fun e => e.2.domain == d && (match e.1 with | .table .bds _ _ => true | _ => false)
  s.forEach mine fun e t =>
    match others.find? fun b => (tablePath .bds b.1).contains e.1 with
    | none => t
    | some b => { t with
        xlt := { t.xlt with metas := t.xlt.metas.modify e.1 fun m => { m with domain := b.2.domain } }
        slc := { t.slc with extents := t.slc.extents.map fun x => if x.1 = e.2.home then (x.1, x.2.1, b.2.domain) else x } }

/-- Nothing in the tables of the device belongs to a domain any more; its indices keep their tags (R54). -/
def State.clearDomain (s : State) (d : Nat) : State :=
  let s := s.withdrawAll fun e => e.domain == d
  { s with
    xlt := { s.xlt with
      models := s.xlt.models.filter fun e => e.1.1 != d
      seqs := s.xlt.seqs.mapVals fun _ q => if q.domain = d then { tag := q.tag, st := .retired, domain := d, model := q.model } else q
      bds := s.xlt.bds.filter fun e => e.2.domain != d
      objs := s.xlt.objs.mapVals fun _ o => if o.domain = d then { o with live := false, map := [], releasing := false } else o
      metas := s.xlt.metas.filter fun e => e.2.domain != d }
    rbd := { s.rbd with
      doms := s.rbd.doms.erase d
      breaks := s.rbd.breaks.filter fun b => b.domain != d
      scans := s.rbd.scans.filter fun x => !(x.kind == .purge && x.domains == [d]) }
    slc := { s.slc with
      quota := s.slc.quota.erase d, tickets := s.slc.tickets.erase d, waiters := s.slc.waiters.filter fun w => w.2.1 != d
      domStalls := s.slc.domStalls.filter fun x => x.1.1 != d }
    cwy := { s.cwy with slots := s.cwy.slots.filter fun e => e.2.domain != d }
    sdg := { s.sdg with doms := s.sdg.doms.modify d fun x => { x with confOk := false } }
    lve := { s.lve with counters := s.lve.counters.filter fun e => e.1.1 != d }
    pwr := { s.pwr with
      hist := s.pwr.hist.filter fun e => !(s.conf d && e.1.2.2.2.1 == d)
      histBase := if s.conf d then (histSets d).foldl (fun m k => m.set k s.pwr.samples) s.pwr.histBase else s.pwr.histBase
      doms := s.pwr.doms.modify d fun b => { b with backlog := 0, refusing := false, doneNow := 0, donePrev := 0 } } }

/-- Steps 5 and 6: extents are overwritten and released, and the domain becomes `FREE` with the entry reserved for it. -/
def State.scrubDomain (s : State) (d : Nat) : State :=
  let s := s.handOverTables d
  let ext := s.extentsOf d
  let t3 := ext.filter fun e => e.1.tier == 3
  let runs := t3.map fun e => (e.1.addr / 8, e.2 / 4096)
  let s := if runs.isEmpty then s else s.markErase d runs
  let s := s.forEach ext fun e t =>
    let t := t.freeExt e.1
    if e.1.tier = 3 then t else t.zeroRange e.1.tier (e.1.addr * 512) e.2
  let s := s.forEach (s.sessionsFor d) fun i t => t.freeSession i
  let s := (s.clearDomain d).freeBdTables
  let s := { s with aud := { s.aud with reserved := s.aud.reserved - 1 } }
  let s := s.audit d .device 0x02 0x4A [] []
  let s := s.moveDom d .free
  ((s.setDom d fun _ => { t3Pend := !runs.isEmpty }).setEvt Evt.lveScrubDone).sluice

/-! ### SPDM sessions and authority (R276, R311) -/

/-- The session that carries a message. -/
def State.spdm? (s : State) (sess : Nat) : Option SpdmSession := s.mgmt.sessions.get? sess

/-- A session changed. -/
def State.setSpdm (s : State) (sess : Nat) (f : SpdmSession → SpdmSession) : State :=
  { s with mgmt := { s.mgmt with sessions := s.mgmt.sessions.modify sess f } }

/-- Tenant authority over a domain: the peer's chain ends at the domain's owner anchor. -/
def State.tenant (s : State) (sess d : Nat) : Bool :=
  decide (d ≠ 0) && decide ((s.dom d).st ≠ .free) && ((s.spdm? sess).bind SpdmSession.peer) == some (s.dom d).anchor

/-- Operator authority. -/
def State.operator (s : State) (sess : Nat) : Bool :=
  match (s.spdm? sess).bind SpdmSession.peer, s.lve.operatorAnchor with
  | some c, some h => sha384 c == h
  | _, _ => false

/-- Vendor authority. -/
def State.vendor (s : State) (sess : Nat) : Bool :=
  match (s.spdm? sess).bind SpdmSession.peer, s.lve.serviceAnchor with
  | some c, some h => sha384 c == h
  | _, _ => false

/-- Whether an input is one X.509 certificate in DER form of at most 4,096 bytes (log entry 58). -/
def certParses (b : List Byte) : Bool :=
  decide (b.length ≤ 4096) && (match derItem b with
    | some x => decide (x.1 = 0x30) && isCert x.2.1 && x.2.2.isEmpty
    | none => false)

/-- Whether an owner anchor parses: one certificate that carries a P-384 key (R306). -/
def anchorParses (b : List Byte) : Bool := certParses b && keyIsP384 b

end Sys2Proof.Machine
end

