-- ==== Sys2Proof/Machine/Levee.lean ====
section
/-! DEFINITION. Machine/Levee.lean: the commands of Levee: domains, keys, SPDM, the life cycle and the audit area (chapter 14,
R276). -/

namespace Sys2Proof.Machine

/-! ### Domains (R306 to R308, R402) -/

/-- Sum of a reservation over all domains. -/
def State.rsvSum (s : State) (f : Domain → Nat) : Nat := sumNat (s.lve.doms.map fun e => f e.2)

/-- `DOM_CREATE` in the order of R306. -/
def State.domCreate (s : State) (r : Requester) (o inp : List Byte) : State :=
  let d := u16 o 0
  let x : Domain := {
    st := .created, conf := bit (u8 o 2) 0, anchor := inp, seqRsv := u32 o 4, modelRsv := u16 o 8, objRsv := u16 o 10
    listRsv := u8 o 12, ringRsv := u8 o 13, t3Pend := (s.dom d).t3Pend }
  let t0 := u16 o 14
  if d = 0 ∨ 4095 < d ∨ (s.dom d).st ≠ .free ∨ 1 < u8 o 2 ∨ !zeros o 3 1 ∨ !zeros o 16 32 ∨ !anchorParses inp ∨ (x.conf ∧ t0 = 0) then
    s.fail r .format
  else if s.lve.sole.isSome then s.fail r .denied
  else if 16777216 < s.rsvSum Domain.seqRsv + x.seqRsv ∨ 4096 < s.rsvSum Domain.modelRsv + x.modelRsv
      ∨ 65536 < s.rsvSum Domain.objRsv + x.objRsv ∨ 256 < s.rsvSum Domain.listRsv + x.listRsv
      ∨ 16 < s.rsvSum Domain.ringRsv + x.ringRsv ∨ s.t0Pool < (s.quotaSum + t0) * gib then s.fail r .noSpace
  else
    s.privileged r d 0x02 0x49 inp fun s =>
      let s := (s.setDom d fun _ => x).setEvt Evt.lveDomState
      ({ s with slc := { s.slc with quota := if t0 = 0 then s.slc.quota.erase d else s.slc.quota.set d t0 } } : State).complete r {}

/-- `DOM_TEARDOWN` (R402). -/
def State.domTeardown (s : State) (r : Requester) (o : List Byte) : State :=
  let d := u16 o 0
  if d = 0 ∨ (s.dom d).st = .free then s.fail r .format else s.teardown d 0x02 0x4A r

/-- `DOM_STATUS` (Table 14.3). -/
def State.domStatus (s : State) (r : Requester) (own : Option Nat) (o : List Byte) : State :=
  let d := u16 o 0
  let x := s.dom d
  if own.any fun e => e != d then s.fail r .denied
  else if 4095 < d then s.fail r .format
  else
    let flags := (if x.conf then 1 else 0) + (if s.lve.sole = some d then 2 else 0)
    let kcv := (x.keys.map Keys.kcv).getD 0
    let hash := if x.anchor.isEmpty then List.replicate 48 0#8 else fit48 (sha384 x.anchor)
    s.complete r { out := leBytes 1 (s.domCode d) ++ leBytes 1 flags ++ leBytes 2 d ++ leBytes 4 0 ++ leBytes 8 kcv ++ hash }

/-- `DEV_MODE` (R308). -/
def State.devMode (s : State) (r : Requester) (o : List Byte) : State :=
  let d := u16 o 2
  let ok := match u8 o 0 with
    | 0 => match s.lve.sole with
      | some e => decide ((s.dom e).st = .free)
      | none => true
    | 1 => decide (s.liveDoms = [d]) && (s.dom d).conf
    | _ => false
  if !ok then s.fail r .format
  else
    s.privileged r d 0x01 0x4C o fun s =>
      ({ s with lve := { s.lve with sole := if u8 o 0 = 1 then some d else none } } : State).complete r {}

/-- Creates a domain. -/
def execDomCreate (q : CmdRef) (inp : HostRead) (s : State) : Host.Outcome State Fault Refusal :=
  .next (s.afterIn .trust (s.runCmdIn q 0x49 inp fun t r _ o b => t.gate .lve r Status.cpl fun t => t.domCreate r o b))

/-- Starts the teardown of a domain. -/
def execDomTeardown (q : CmdRef) (s : State) : Host.Outcome State Fault Refusal :=
  .next (s.afterCwyIn .channel (s.runCmd q 0x4A fun t r _ o => t.gate .lve r Status.cpl fun t => t.domTeardown r o))

/-- Returns a domain's state. -/
def execDomStatus (q : CmdRef) (s : State) : Host.Outcome State Fault Refusal :=
  .next (s.afterIn .answer (s.runCmd q 0x4B fun t r d o => t.gate .lve r Status.cpl fun t =>
    t.domStatus r (if q.func = 0 then none else some d) o))

/-- Switches between `SHARED` and `SOLE`. -/
def execDevMode (q : CmdRef) (s : State) : Host.Outcome State Fault Refusal :=
  .next (s.afterIn .trust (s.runCmd q 0x4C fun t r _ o => t.gate .lve r Status.cpl fun t => t.devMode r o))

/-- The crypto-erase of a teardown, once the domain's work in flight has ended (R316, step 4). -/
def execTeardownCryptoErase (dom : Nat) (s : State) : Host.Outcome State Fault Refusal :=
  .next (s.afterIn .levee
    (match (s.dom dom).teardown with
     | some t => if !t.erased && !s.domBusy dom && s.serves .lve then s.cryptoErase dom else s
     | none => s))

/-- The extents of a torn-down domain have been overwritten, and the domain becomes `FREE` (R316, R318). -/
def execTeardownScrubDone (dom : Nat) (s : State) : Host.Outcome State Fault Refusal :=
  .next (s.afterMemIn { Scope.search with lve := true, aud := true }
    (match (s.dom dom).teardown with
     | some t => if t.erased && (s.extentsOf dom).all fun e => s.answers e.1 then s.scrubDomain dom else s
     | none => s))

/-! ### The audit area (R330, R331, R403) -/

/-- The bytes of a segment as `AUD_EXPORT` copies it. -/
def Segment.bytes (g : Segment) : List Byte :=
  let first := (g.entries.head?.map AuditEntry.number).getD 0
  segHeader g.number first g.entries.length g.flags g.prev g.time ++ g.entries.flatMap AuditEntry.bytes
    ++ (g.signature ++ List.replicate 96 0#8).take 96

/-- Bytes that a segment occupies. -/
def Segment.size (g : Segment) : Nat := 224 + 64 * g.entries.length

/-- The whole segments that fit in some bytes, oldest first. -/
def fitSegments : Nat → List Segment → List Segment
  | _, [] => []
  | room, g :: gs => if g.size ≤ room then g :: fitSegments (room - g.size) gs else []

/-- `AUD_EXPORT` (R403). -/
def State.audExport (s : State) (r : Requester) (o : List Byte) : State :=
  let room := u32 o 8
  if room < 262368 then s.fail r .format
  else
    let s := s.sealSegment 1
    let l := fitSegments room s.aud.segments
    s.complete r {
      result := l.length, detail := ((l.head?.map Segment.number).getD 0) % 2 ^ 32, out := l.flatMap Segment.bytes }

/-- `AUD_ACK` (R403): cumulative. -/
def State.audAck (s : State) (r : Requester) (o : List Byte) : State :=
  let n := u64 o 0
  if s.aud.nextSegment ≤ n then s.fail r .format
  else
    let gone := (s.aud.segments.filter fun g => decide (g.number ≤ n)).length
    let s := { s with aud := { s.aud with
      segments := s.aud.segments.filter fun g => decide (n < g.number), acked := max s.aud.acked n } }
    let s := { s with aud := { s.aud with full := s.aud.full && !s.auditTakes } }
    s.complete r { result := gone }

/-- Copies sealed segments to host memory. -/
def execAudExport (q : CmdRef) (s : State) : Host.Outcome State Fault Refusal :=
  .next (s.afterIn .command (s.runCmd q 0x4D fun t r _ o => t.gate .lve r Status.cpl fun t => t.audExport r o))

/-- Frees the slots of sealed segments. -/
def execAudAck (q : CmdRef) (s : State) : Host.Outcome State Fault Refusal :=
  .next (s.afterIn .command (s.runCmd q 0x4E fun t r _ o => t.gate .lve r Status.cpl fun t => t.audAck r o))

/-! ### Tenant requests (Table 14.6) -/

/-- The domain that a request names, and its body. -/
def reqDomain (p : List Byte) : Nat := u16 p 2
/-- The body of a request. -/
def reqBody (p : List Byte) : List Byte := p.drop 4

/-- Whether a Levee request is answered for a domain in `TEARDOWN`: one that joins the teardown or reports on the domain, and one
that names no domain (R316, R402, log entry 118). -/
def inTeardown (op : Nat) : Bool := !([0x01, 0x03, 0x04, 0x05, 0x06].contains op)

/-- Run a Levee request: its session, the authority that it needs, and the unit. -/
def State.leveeReq (s : State) (sess : Nat) (via : Option CmdRef) (p : List Byte) (allowed : State → Bool)
    (f : State → Requester → Nat → List Byte → State) : State :=
  let d := reqDomain p
  let r : Requester := .lve sess (u8 p 0) d via
  match s.spdm? sess with
  | none => s
  | some _ =>
    let s := s.setSpdm sess fun x => { x with last := s.now }
    s.gate .lve r Status.cpl fun s =>
      if p.length < 4 then s.fail r .format
      else if !allowed s ∨ ((s.dom d).st = .teardown ∧ !inTeardown (u8 p 0)) then s.fail r .denied
      else if u8 p 1 ≠ 0 then s.fail r .format
      else f s r d (reqBody p)

/-- A privileged Levee request of kind 0x04: recorded, or refused. -/
def State.keyChange (s : State) (r : Requester) (d op : Nat) (old new : List Byte) (f : State → State) : State :=
  if s.auditTakes then f (s.audit d (s.whoReq r) 0x04 op old new) else s.auditRefuse.fail r .logFull

/-- `KEY_LOAD` in the order of R312. `dmk` is what the unwrap gives. -/
def State.keyLoad (s : State) (r : Requester) (d : Nat) (b : List Byte) (dmk : Option (List Byte)) : State :=
  if s.lve.keysHeld then s.fail r .unavailable
  else if s.lve.lc ≠ .field then s.fail r .denied
  else if (s.dom d).st ≠ .created ∨ b.length ≠ 40 then s.fail r .format
  else
    match dmk with
    | none => (s.setErr Err.lveWrapFail).fail r .format
    | some k =>
      let keys := deriveKeys d k
      s.keyChange r d 0x01 [] (leBytes 8 keys.kcv) fun s =>
        let s := (s.setDom d fun x => { x with keys := some keys, pfxGen := 0 }).moveDom d .active
        s.keyOp d true r (leBytes 8 keys.kcv)

/-- `KEY_DESTROY` (R402). -/
def State.keyDestroy (s : State) (r : Requester) (d : Nat) (b : List Byte) : State :=
  if b.isEmpty then s.teardown d 0x04 0x02 r else s.fail r .format

/-- The certificates of an `ANCHOR_SET` body. -/
def readAnchors : Nat → List Byte → Option (List (List Byte))
  | 0, b => if b.isEmpty then some [] else none
  | n + 1, b =>
    let len := u16 b 0
    let c := (b.drop 2).take len
    if b.length < 2 ∨ c.length < len ∨ !certParses c then none else (readAnchors n (b.drop (2 + len))).map (c :: ·)

/-- `ANCHOR_SET` (R314). -/
def State.anchorSet (s : State) (r : Requester) (d : Nat) (b : List Byte) : State :=
  let n := u8 b 0
  match (if 1 ≤ n ∧ n ≤ 4 ∧ b.length ≤ 8192 then readAnchors n (b.drop 1) else none) with
  | none => s.fail r .format
  | some l =>
    s.keyChange r d 0x03 ((s.dom d).anchors.flatten) l.flatten fun s =>
      ((s.setDom d fun x => { x with anchors := l }).closeSessions d 3).complete r {}

/-- `PREFIX_ROTATE` (R313). -/
def State.prefixRotate (s : State) (r : Requester) (d : Nat) (b : List Byte) : State :=
  let g := u8 b 0
  match (s.dom d).keys with
  | none => s.fail r .format
  | some k =>
    if s.lve.keysHeld then s.fail r .unavailable
    else if b.length ≠ 1 ∨ g ≤ (s.dom d).pfxGen ∨ (s.dom d).st ≠ .active then s.fail r .format
    else
      s.keyChange r d 0x04 (leBytes 1 (s.dom d).pfxGen) (leBytes 1 g) fun s =>
        let p := prefixKeys k.prk g
        let s := s.setDom d fun x => { x with pfxGen := g, keys := some { k with pfx := p.1, chk := p.2 } }
        (s.purgeDomain d).keyOp d true r []

/-- `CONF_SEDGE` (R223). -/
def State.confSedge (s : State) (r : Requester) (d : Nat) (b : List Byte) : State :=
  if b.length ≠ 1 ∨ 1 < u8 b 0 then s.fail r .format
  else
    let c := s.sdg.doms.getD d {}
    s.keyChange r d 0x05 (leBytes 1 (if c.confOk then 1 else 0)) b fun s =>
      ({ s with sdg := { s.sdg with doms := s.sdg.doms.set d { c with confOk := u8 b 0 == 1 } } } : State).complete r {}

/-- The counters of the device by which a counter set is indexed: the low words of the 64-bit counters of the pages that
chapters mark as readable only as Levee permits, in rising order (log entry 56). -/
def aggregateCounters : List Nat :=
  (blockMap.filter fun b => [0x07, 0x08, 0x0A, 0x0B, 0x10, 0x20].contains b.1).flatMap fun b =>
    (List.range b.2.2.1).flatMap fun i =>
      ((regsOf b.1).filter fun r => r.wide && r.fields.all fun f => f.acc == .ro).flatMap fun r =>
        (List.range r.n).map fun k => b.2.1 + i * b.2.2.2 + r.page * 0x1000 + r.off + k * r.stride

/-- The stall counts of a domain (R184), by the register offsets of the device's own. -/
def State.stallCounts (s : State) (d : Nat) : List (Nat × Nat) :=
  (List.range 6).flatMap fun c =>
    let n := s.slc.domStalls.getD (d, c) (0, 0)
    [(Reg.slcStallT1Lo + 16 * c, n.1), (Reg.slcStallT1NsLo + 16 * c, n.2)]

/-- The bins of a domain's histograms (R297, R320): those of its pending queues, and for a confidential domain those of its entries
in the queues of the device. -/
def State.histSet (s : State) (d : Nat) : List (Nat × Nat) :=
  ((histSets d).filter fun k => k.2.1 != 7 || s.conf d).flatMap fun k =>
    (List.range 16).map fun b => (Reg.pwrHistBinLo + 8 * b, s.histRead k.1 k.2.1 k.2.2.1 k.2.2.2 b)

/-- What `COUNTER_READ` reads of a domain: the counter set of a confidential one (R320); of any other, the stall counts that R184
keeps for it; and the histograms of either (log entry 56). -/
def State.counterSet (s : State) (d : Nat) : List (Nat × Nat) :=
  (if s.conf d then aggregateCounters.map fun a => (a, s.lve.counters.getD (d, a) 0) else s.stallCounts d) ++ s.histSet d

/-- `COUNTER_READ` (R184, R320). -/
def State.counterRead (s : State) (r : Requester) (d : Nat) (b : List Byte) : State :=
  if b.length ≠ 4 then s.fail r .format
  else
    let l := ((s.counterSet d).drop (u16 b 0)).take (u16 b 2)
    s.complete r { out := l.flatMap fun x => leBytes 4 x.1 ++ leBytes 8 x.2 }

/-- The first 144 bytes of a report (Table 14.7). -/
def State.reportBody (s : State) (d : Nat) (nonce : List Byte) : List Byte :=
  let x := s.dom d
  leBytes 2 d ++ leBytes 1 (s.domCode d) ++ leBytes 1 ((if x.conf then 1 else 0) + (if s.lve.sole = some d then 2 else 0))
    ++ leBytes 1 s.lve.lc.code ++ leBytes 3 0 ++ leBytes 8 ((x.keys.map Keys.kcv).getD 0)
    ++ fit48 (if x.anchor.isEmpty then [] else sha384 x.anchor) ++ fit48 s.measurement ++ nonce

/-- `DOM_REPORT` (R311). -/
def State.domReport (s : State) (r : Requester) (d : Nat) (b : List Byte) : State :=
  if s.lve.keysHeld then s.fail r .unavailable
  else if b.length ≠ 32 ∨ 4095 < d then s.fail r .format
  else
    let body := s.reportBody d b
    s.keyOp d false r (body ++ signature 1 (sha384 body))

/-! ### Operator and vendor requests -/

/-- `OPERATOR_CMD` (R311): the commands that Table 14.3 keeps to PF0, and `NOP`, with the checks of
R266 and R309 (log entry 57). -/
def State.operatorCmd (s : State) (sess : Nat) (via : Option CmdRef) (b : List Byte) : State :=
  let r : Requester := .op sess via
  let e := b.take 64
  let inp := b.drop 64
  let o := e.drop 16
  let op := u8 e 0
  match s.fetchCheck 0 e with
  | some st => s.fail r st
  | none =>
    if b.length < 64 ∨ inp.length ≠ u32 e 4 then s.fail r .format
    else match op with
      | 0x00 => s.complete r {}
      | 0x49 => s.domCreate r o inp
      | 0x4A => s.domTeardown r o
      | 0x4B => s.domStatus r none o
      | 0x4C => s.devMode r o
      | 0x4D => s.audExport r o
      | 0x4E => s.audAck r o
      | _ => s.fail r .denied

/-- The life-cycle state of a code. -/
def lcOf (n : Nat) : Option LcState :=
  match n with
  | 0 => some .blank | 1 => some .tested | 2 => some .provisioned | 3 => some .field | 4 => some .ret | 5 => some .fin | _ => none

/-- A token names the device: its first eight bytes are the serial (log entry 55). -/
def tokenNames (t : List Byte) : Bool := decide (8 ≤ t.length) && decide (u64 t 0 = Config.serial.toNat)

/-- What decides a transition (Table 14.16): the code that refuses it, or none. -/
def State.lcRefusal (s : State) (sess : Nat) (target : Option LcState) (b : List Byte) : Option Status :=
  let clear := s.liveDoms.isEmpty
  match s.lve.lc, target with
  | .fin, _ => some .format
  | _, some .fin => if !(s.operator sess || s.vendor sess) then some .denied else if clear then none else some .format
  | .tested, some .provisioned => if s.vendor sess then none else some .denied
  | .provisioned, some .field => if !s.vendor sess then some .denied else if b.length = 49 then none else some .format
  | .field, some .ret =>
    if !s.operator sess then some .denied else if !tokenNames (b.drop 1) then some .denied else if clear then none else some .format
  | .blank, some .tested => some .denied
  | _, _ => some .format

/-- `LC_ADVANCE` (R325): a persistent change. -/
def State.lcAdvance (s : State) (r : Requester) (sess : Nat) (b : List Byte) : State :=
  let target := lcOf (u8 b 0)
  match s.lcRefusal sess target b, target with
  | some st, _ => s.fail r st
  | none, none => s.fail r .format
  | none, some t =>
    if s.auditSeals then
      s.auditPersist 0 (s.whoReq r) 0x05 t.code (leBytes 1 s.lve.lc.code) (leBytes 1 t.code) (.lcAdvance t (b.drop 1) r)
    else s.auditRefuse.fail r .logFull

/-- `DEBUG_UNLOCK` (R311): a persistent change. -/
def State.debugUnlock (s : State) (r : Requester) (b : List Byte) : State :=
  if !s.lve.tokens ∨ !tokenNames b then s.fail r .denied
  else if b.length < 12 ∨ u32 b 8 ≤ s.ftimeNow then s.fail r .format
  else if s.auditSeals then s.auditPersist 0 (s.whoReq r) 0x05 0x12 [] b (.debugUnlock (u32 b 8) r)
  else s.auditRefuse.fail r .logFull

/-! ### Messages (R276, R311) -/

/-- A Levee request by its `OP` (Table 14.6). -/
def State.leveeOp (s : State) (sess : Nat) (via : Option CmdRef) (p : List Byte) (dmk : Option (List Byte)) : State :=
  let d := reqDomain p
  let tenant := fun (t : State) => t.tenant sess d
  match u8 p 0 with
  | 0x01 => s.leveeReq sess via p tenant fun t r d b => t.keyLoad r d b dmk
  | 0x02 => s.leveeReq sess via p tenant fun t r d b => t.keyDestroy r d b
  | 0x03 => s.leveeReq sess via p tenant fun t r d b => t.anchorSet r d b
  | 0x04 => s.leveeReq sess via p tenant fun t r d b => t.prefixRotate r d b
  | 0x05 => s.leveeReq sess via p tenant fun t r d b => t.confSedge r d b
  | 0x06 => s.leveeReq sess via p tenant fun t r d b => t.counterRead r d b
  | 0x07 => s.leveeReq sess via p (fun t => t.tenant sess d || t.operator sess) fun t r d b => t.domReport r d b
  | 0x10 => s.leveeReq sess via p (fun t => t.operator sess) fun t _ _ b => t.operatorCmd sess via b
  | 0x11 => s.leveeReq sess via p (fun t => t.operator sess || t.vendor sess) fun t r _ b => t.lcAdvance r sess b
  | 0x12 => s.leveeReq sess via p (fun t => t.vendor sess) fun t r _ b => t.debugUnlock r b
  | _ => s.leveeReq sess via p (fun _ => true) fun t r _ _ => t.fail r .format

/-- A message of one of the rows of Table 14.6: it is verified, and its `OP` is the row's. -/
def State.leveeRow (s : State) (op : Nat) (m : SpdmMsg) : State :=
  if m.verified && u8 m.body 0 == op then s.leveeOp m.session none m.body m.dmk else s

/-- Loads a domain's keys. -/
def execKeyLoad (msg : SpdmMsg) (s : State) : Host.Outcome State Fault Refusal := .next (s.afterIn .channel (s.leveeRow 0x01 msg))

/-- Starts the teardown of the tenant's domain. -/
def execKeyDestroy (msg : SpdmMsg) (s : State) : Host.Outcome State Fault Refusal := .next (s.afterCwyIn .channel (s.leveeRow 0x02 msg))

/-- Replaces the domain's Causeway trust anchors. -/
def execAnchorSet (msg : SpdmMsg) (s : State) : Host.Outcome State Fault Refusal := .next (s.afterCwyIn .channel (s.leveeRow 0x03 msg))

/-- Derives the prefix and check keys anew. -/
def execPrefixRotate (msg : SpdmMsg) (s : State) : Host.Outcome State Fault Refusal := .next (s.afterIn .channel (s.leveeRow 0x04 msg))

/-- Sets or clears `CONF_OK`. -/
def execConfSedge (msg : SpdmMsg) (s : State) : Host.Outcome State Fault Refusal := .next (s.afterIn .channel (s.leveeRow 0x05 msg))

/-- Returns counters of the domain's own set. -/
def execCounterRead (msg : SpdmMsg) (s : State) : Host.Outcome State Fault Refusal := .next (s.afterIn .channel (s.leveeRow 0x06 msg))

/-- Returns a signed report. -/
def execDomReport (msg : SpdmMsg) (s : State) : Host.Outcome State Fault Refusal := .next (s.afterIn .channel (s.leveeRow 0x07 msg))

/-- Runs a Carulo command for the operator. -/
def execOperatorCmd (msg : SpdmMsg) (s : State) : Host.Outcome State Fault Refusal := .next (s.afterCwyIn .channel (s.leveeRow 0x10 msg))

/-- Starts a life-cycle transition. -/
def execLcAdvance (msg : SpdmMsg) (s : State) : Host.Outcome State Fault Refusal := .next (s.afterIn .channel (s.leveeRow 0x11 msg))

/-- Accepts a vendor debug token. -/
def execDebugUnlock (msg : SpdmMsg) (s : State) : Host.Outcome State Fault Refusal := .next (s.afterIn .channel (s.leveeRow 0x12 msg))

/-- An SPDM response of a code with its parameters and what follows. -/
def spdmResp (code : Nat) (body : List Byte) : List Byte := leBytes 1 0x13 ++ leBytes 1 code ++ leBytes 2 0 ++ body

/-- The three measurement blocks (R276). -/
def State.measurements (s : State) : List Byte :=
  fit48 s.measurement ++ fit48 (sha384 s.glb.calStored) ++ fit48 (sha384 (leBytes 1 s.lve.lc.code))

/-- A key operation that answers a standard request: refused while key operations are held (R327). -/
def State.spdmKeyOp (s : State) (sess : Nat) (via : Option CmdRef) (resp : List Byte) : State :=
  if s.lve.keysHeld then s.spdmOut sess via (spdmError Status.unavailable.code)
  else s.keyOp 0 false (.lve sess 0 0 via) resp

/-- A key exchange opens a session, of at most 64. -/
def State.keyExchange (s : State) (sess : Nat) (via : Option CmdRef) : State :=
  if s.lve.keysHeld then s.spdmOut sess via (spdmError Status.unavailable.code)
  else if 64 ≤ s.mgmt.sessions.length then s.spdmOut sess via (leBytes 1 0x13 ++ leBytes 1 0x7F ++ leBytes 1 0x0A ++ leBytes 1 0)
  else
    let x := s.drawFrom fun n => (Config.freeWord n).toNat
    match chooseFree s.mgmt.sessions.keys 1 (2 ^ 32) x.1 with
    | none => s
    | some id =>
      let n : SpdmSession := { secret := Config.randomBytes x.2.fresh 48, hbeat := true, period := secNs Config.heartbeat, last := s.now }
      let s := x.2.draw.2
      let s := { s with mgmt := { s.mgmt with sessions := s.mgmt.sessions.set id n } }
      s.keyOp 0 false (.lve sess 0 0 via) (spdmResp 0x64 (leBytes 4 id ++ s.measurements ++ signature 1 s.measurements))

/-- A message inside a session counts as its traffic. -/
def State.inSession (s : State) (sess : Nat) (f : State → State) : State :=
  if s.mgmt.sessions.has sess then f (s.setSpdm sess fun x => { x with last := s.now }) else s

/-- Answer a standard SPDM request by its code (R276, log entry 53). -/
def State.spdmStandard (s : State) (sess : Nat) (via : Option CmdRef) (code : Nat) (b : List Byte) : State :=
  match code with
  | 0x84 => s.spdmOut sess via (spdmResp 0x04 (leBytes 1 0 ++ leBytes 1 2 ++ leBytes 2 0x1200 ++ leBytes 2 0x1300))
  | 0xE1 => s.spdmOut sess via (spdmResp 0x61 [])
  | 0xE3 => s.spdmOut sess via (spdmResp 0x63 [])
  | 0x81 => s.spdmOut sess via (spdmResp 0x01 ((s.chain.map sha384).getD []))
  | 0x82 => s.spdmOut sess via (match s.chain with | some c => spdmResp 0x02 c | none => spdmError Status.absent.code)
  | 0x83 => s.spdmKeyOp sess via (spdmResp 0x03 (signature 1 (b ++ s.measurements)))
  | 0xE0 => s.spdmKeyOp sess via (spdmResp 0x60 (s.measurements ++ signature 1 (b ++ s.measurements)))
  | 0xE4 => s.keyExchange sess via
  | 0xE5 => s.inSession sess fun t =>
      let t := (t.setSpdm sess fun x => { x with established := true, peer := if b.isEmpty then none else some b }).bump Reg.lveSpdmLo
      t.spdmOut sess via (spdmResp 0x65 [])
  | 0xE8 => s.inSession sess fun t => t.spdmOut sess via (spdmResp 0x68 [])
  | 0xE9 => s.inSession sess fun t => (t.setSpdm sess fun x => { x with keyUpdates := x.keyUpdates + 1 }).spdmOut sess via (spdmResp 0x69 [])
  | 0xEC => s.inSession sess fun t =>
      ({ t with mgmt := { t.mgmt with sessions := t.mgmt.sessions.erase sess } } : State).spdmOut sess via (spdmResp 0x6C [])
  | 0x85 => s.spdmOut sess via (spdmResp 0x05 [])
  | 0x86 => s.spdmOut sess via (spdmResp 0x06 [])
  | _ => s.spdmOut sess via (leBytes 1 0x13 ++ leBytes 1 0x7F ++ leBytes 1 0x07 ++ leBytes 1 (code % 256))

/-- A standard request on the management network. -/
def execSpdmRequest (msg : SpdmMsg) (s : State) : Host.Outcome State Fault Refusal :=
  .next (s.afterIn .trust
    (if msg.verified && (msg.session == 0 || s.mgmt.sessions.has msg.session) then
       s.gate .lve (.lve msg.session 0 0 none) Status.cpl fun t => t.spdmStandard msg.session none msg.code msg.body
     else s))

/-- One SPDM message from a ring: in clear, or secured by a session (R311). -/
def State.lveSpdm (s : State) (q : CmdRef) (b : List Byte) : State :=
  if u8 b 0 = 0x12 ∨ u8 b 0 = 0x13 then
    if u8 b 1 = 0xFE then s.fail (.lve 0 0 0 (some q)) .denied else s.spdmStandard 0 (some q) (u8 b 1) (b.drop 4)
  else
    let sess := u32 b 0
    match (s.spdm? sess).bind fun x => Config.openSealed x.secret [] (b.drop 4) with
    | none => s.spdmOut sess (some q) (spdmError Status.format.code)
    | some m =>
      if u8 m 1 = 0xFE then
        let p := m.drop 4
        let kw := hkdfExpand (((s.spdm? sess).map SpdmSession.secret).getD []) (ascii "levee wrap" ++ leBytes 2 (reqDomain p)) 32
        s.leveeOp sess (some q) p (Config.openSealed kw [] (reqBody p))
      else s.spdmStandard sess (some q) (u8 m 1) (m.drop 4)

/-- `LVE_SPDM` carries one SPDM message and returns Levee's response. -/
def execLveSpdm (q : CmdRef) (inp : HostRead) (s : State) : Host.Outcome State Fault Refusal :=
  .next (s.afterCwyIn .channel (s.runCmdIn q 0x48 inp fun t r _ _ b => t.gate .lve r Status.cpl fun t => t.lveSpdm q b))

/-- An SPDM session whose heartbeat period passes without traffic ends (R276). -/
def execSpdmHeartbeatExpiry (session : Nat) (s : State) : Host.Outcome State Fault Refusal :=
  .next (s.afterIn .board
    (match s.spdm? session with
     | some x =>
       if x.hbeat ∧ x.last + x.period ≤ s.now then
         { s with mgmt := { s.mgmt with sessions := s.mgmt.sessions.erase session } }
       else s
     | none => s))

/-! ### Key operations and monitors (R314, R327) -/

/-- The key operation in progress is aborted: its result is withheld, and the slot it was writing is zeroised. -/
def State.abortKeyOp (s : State) : State :=
  match s.keysRun with
  | [] => s
  | k :: _ =>
    let s := (s.dropKey k.num).setErr Err.lveKeyAbort
    let s := if k.writesSlot then
        (s.auditFor k.domain 0x04 0).loseKeys k.domain
      else s
    match k.req with
    | .lve _ _ _ (some q) => s.postCpl q { status := .unavailable }
    | .op _ (some q) => s.postCpl q { status := .unavailable }
    | _ => s

/-- The key operation in progress ends, or is aborted by a trip. One that ends in a later epoch than it was dispatched in ran
past the boundary (R291). -/
def execKeyOperationDone (abort : Bool) (s : State) : Host.Outcome State Fault Refusal :=
  .next (s.afterCwyIn .channel
    (match s.keysRun with
     | [] => s
     | k :: _ =>
       if abort then (if s.lve.tripping.isSome then s.abortKeyOp else s)
       else
         let late := decide (s.pwr.keyEpochs.getD k.num s.pwr.epoch ≠ s.pwr.epoch)
         let s := (s.dropKey k.num).bump Reg.lveKeyopsLo
         let s := if late then s.bump Reg.pwrKeyOverrunLo else s
         match k.req with
         | .lve sess 0 _ via => s.spdmOut sess via k.resp
         | r => s.complete r { out := k.resp }))

/-- The code of a monitor in `LVE_MON`. -/
def Monitor.code : Monitor → Nat
  | .voltage => 1 | .clock => 2 | .temperature => 3

/-- A monitor trips (Tables 14.17 and 14.18). -/
def State.trip (s : State) (m : Monitor) : State :=
  let s := (s.setErr Err.lveMonTrip).fault (unitWord 0x01 0 4) 0x0A 0
  let s := { s with lve := { s.lve with
    trips := min 65535 (s.lve.trips + 1), lastTrip := m.code, tripping := some (m, s.now)
    tripTimes := (s.lve.tripTimes.filter fun t => decide (s.now ≤ t + secNs 1)) ++ [s.now] } }
  if s.glb.phase ≠ .ready ∨ s.pwr.standby = .standby then s.enterSafe m.code
  else ({ s with lve := { s.lve with keysHeld := true } } : State).abortKeyOp

/-- A monitor trips. -/
def execMonitorTrip (m : Monitor) (s : State) : Host.Outcome State Fault Refusal :=
  .next (s.afterCwyIn .device (if s.glb.phase = .safe ∨ s.glb.phase = .off then s else s.trip m))

/-- The monitors have read in range for 1 ms: key operations are accepted again. -/
def execMonitorInRange (s : State) : Host.Outcome State Fault Refusal :=
  .next (s.afterIn .levee
    (match s.lve.tripping with
     | some (_, t) =>
       if t + msNs 1 ≤ s.now then { s with lve := { s.lve with tripping := none, keysHeld := false } } else s
     | none => s))

/-- A condition of 10 ms, or three trips within 1 s, lead to `SAFE`. -/
def execMonitorPersistent (s : State) : Host.Outcome State Fault Refusal :=
  .next (s.afterCwyIn .device
    (let long := match s.lve.tripping with | some (_, t) => decide (t + msNs 10 ≤ s.now) | none => false
     if long || decide (3 ≤ (s.lve.tripTimes.filter fun t => decide (s.now ≤ t + secNs 1)).length) then s.enterSafe 5 else s))

/-- An uncorrectable key-store error zeroises a slot, and its domain leaves `ACTIVE` (Table 14.1). -/
def execKeyStoreUe (dom slot : Nat) (s : State) : Host.Outcome State Fault Refusal :=
  .next (s.afterCwyIn .channel
    (if (s.dom dom).keys.isSome then
       ((s.setErr Err.lveKsUe).fault (unitWord 0x05 0 0 slot) 0x02 5).loseKeys dom
     else s))

end Sys2Proof.Machine
end

