-- ==== Sys2Proof/Machine/Islands.lean ====
section
/-! DEFINITION. Machine/Islands.lean: islands, draining and `STANDBY` (R257, R298 to R302). -/

namespace Sys2Proof.Machine

/-! ### Port groups (R257) -/

/-- A port leaves a session by a port-scope `DETACH` (R254): its messages move to another port of the session first. On the
session's last port it acts as session scope. -/
def State.portDetach (s : State) (i port reason : Nat) : State :=
  match s.cwy.sessions.get? i with
  | none => s
  | some x =>
    if !x.ports.has port then s
    else if x.ports.length = 1 then s.detach i reason
    else
      let s := s.setSess i fun x => { x with unusable := port :: x.unusable }
      let s := s.moveCopies i port
      let s := s.setSess i fun x => { x with unusable := x.unusable.filter (· != port) }
      let m : TxMsg := { mtype := 0x03, vc := 0, body := detachBody 0 1 reason x.lastMsn x.sessionId }
      let s := if s.usable x port && x.sendq.isEmpty then s.cwySend i port m else s
      (s.setSess i fun x => { x with
        ports := x.ports.erase port
        txKeys := x.txKeys.filter fun k => k.1.1 != port, rxKeys := x.rxKeys.filter fun k => k.1.1 != port }).setPort port
        fun q => { q with lastUse := s.now }

/-- The ports of a port group. -/
def groupPorts (island : Nat) : List Nat := (List.range 8).map fun k => (island - 16) * 8 + k

/-- One port of a draining group: it detaches the sessions whose accepted requests have been answered, and sleeps once it
carries none. -/
def State.drainPort (s : State) (p : Nat) : State :=
  let done := (s.sessionsOn p).filter fun i => ((s.cwy.sessions.get? i).map fun x => x.openReqs.isEmpty).getD false
  let s := s.forEach done fun i t => t.portDetach i p 1
  let q := s.port p
  if q.st = .ready ∧ q.power ≠ .sleep ∧ q.lctlReq.isNone ∧ !s.inUse p then s.lctlRequest p false else s

/-- The ports of a draining group (R257). -/
def State.drainGroup (s : State) (island : Nat) : State := s.forEach (groupPorts island) fun p t => t.drainPort p

/-! ### Islands (R298, R299) -/

/-- The cores of a cluster. -/
def clusterCores (c : Nat) : List Nat := (List.range 16).map (16 * c + ·)

/-- An island reaches `ON` or `OFF`. -/
def State.islandReached (s : State) (n : Nat) (st : Island) : State := (s.setIsland n st).setEvt Evt.pwrIsland

/-- What comes back with an island: a cluster's cores idle with scrubbed stores, a port group's ports `DOWN`, and Peat's flash
time. -/
def State.bringUp (s : State) (n : Nat) : State :=
  if n < 16 then s.forEach (clusterCores n) fun c t => t.setCore c fun _ => { st := .idle }
  else if n < 20 then s.forEach (groupPorts n) fun p t =>
    if t.hasPort p ∧ (t.port p).st = .off then t.setPort p fun q => { q with st := .down, since := t.now, retryAt := 0 } else t
  else if n = peatIsland then s.setPea fun p => { p with ftimeAt := s.now }
  else s

/-- What goes with an island. -/
def State.takeDown (s : State) (n : Nat) : State :=
  if n < 16 then
    ({ s with att := { s.att with cores := s.att.cores.filter fun e => decide (e.1 / 16 ≠ n) } } : State).clustersGone
  else if n < 20 then s.forEach (groupPorts n) fun p t =>
    if t.hasPort p then (t.dropPort p).setPort p fun q => { q with st := .off, power := .active } else t
  else if n = peatIsland then
    let t := s.ftimeNow
    s.setPea fun p => { p with ftime := t }
  else s

/-- A request for `ON` (R298). -/
def State.islandOnReq (s : State) (n : Nat) : State :=
  match s.island n with
  | .off => s.setIsland n .starting
  | .draining => s.islandReached n .on
  | _ => s

/-- A request for `OFF` (R298). -/
def State.islandOffReq (s : State) (n : Nat) : State :=
  match s.island n with
  | .on =>
    let s := s.setIsland n .draining
    if n < 16 then s.clustersGone else if n < 20 then s.drainGroup n else s
  | .starting => s.setIsland n .stopping
  | _ => s

/-- The effect of a write of `PWR_ISL_REQ`; a request for an absent island is ignored. -/
def State.islandReq (s : State) (v : Nat) : State :=
  let n := bits v 4 0
  if s.glb.variant.hasIsland n then (if bit v 31 then s.islandOnReq n else s.islandOffReq n) else s

/-- An island finishes powering up. -/
def execIslandPowerUpDone (island : Nat) (s : State) : Host.Outcome State Fault Refusal :=
  .next (s.afterCwyIn .store (if s.island island = .starting then (s.bringUp island).islandReached island .on else s))

/-- A power-up that a request for `OFF` ended stops. -/
def execPowerUpStopped (island : Nat) (s : State) : Host.Outcome State Fault Refusal :=
  .next (s.afterIn .budget (if s.island island = .stopping then s.islandReached island .off else s))

/-- Peat has completed what it accepted, and its last checkpoint covers every change (R215). With no flash, or failed, it has
nothing to write. -/
def State.peaSettled (s : State) : Bool :=
  let p := s.pea
  decide (p.pstate = .noFlash) || decide (p.pstate = .failed)
    || (s.peaServes && s.peaIdle && p.dirty.isEmpty && decide ((p.ckpts.head?.map fun c => c.body.cut) = some p.wseq))

/-- Whether a draining island has completed what it accepted (Table 13.3). -/
def State.islandDone (s : State) (n : Nat) : Bool :=
  if n < 16 then !s.att.cores.any fun e => decide (e.1 / 16 = n) && (e.2.task.isSome || e.2.suspended.isSome)
  else if n < 20 then (groupPorts n).all fun p => (s.sessionsOn p).isEmpty
  else if n = searchIsland then s.rbd.searches.isEmpty && s.xlt.handoffs.isEmpty
  else if n = peatIsland then s.peaSettled
  else s.sdg.queue.isEmpty && s.slc.objWrites.all fun w => w.blocks.isEmpty

/-- A draining island goes on draining, or reports `OFF`. -/
def State.islandDrain (s : State) (n : Nat) : State :=
  if s.island n ≠ .draining then s
  else
    let s := if 16 ≤ n ∧ n < 20 then s.drainGroup n else s
    if s.islandDone n then (s.takeDown n).islandReached n .off else s

/-- A draining island completes its accepted work. -/
def execIslandDrained (island : Nat) (s : State) : Host.Outcome State Fault Refusal := .next (s.afterCwyIn .store (s.islandDrain island))

/-! ### `STANDBY` (R300 to R302) -/

/-- Islands that `STANDBY` powers off: the clusters, the search macro, Peat and Sedge. -/
def sleepIslands : List Nat := List.range 16 ++ [searchIsland, peatIsland, sedgeIsland]

/-- Whether a request for `STANDBY` is refused (R300). `GLB` does not read `READY` while a unit is in warm reset (R346). -/
def State.standbyRefused (s : State) : Bool :=
  decide (s.glb.phase ≠ .ready) || !(s.serves .xlt && s.serves .lve && s.serves .evc) || decide (s.pwr.standby ≠ .running) || (List.range 23).any (fun n => decide (s.island n = .draining))
    || (s.glb.variant.hasFlash && decide (s.pea.pstate = .recovering)) || !s.auditSeals

/-- A write of `PWR_STANDBY.REQ` = 1. While the device quiesces, `REQ` stands and a further write adds nothing. -/
def State.standbyReq (s : State) : State :=
  if s.pwr.standby = .quiescing then s
  else if s.standbyRefused then { s with pwr := { s.pwr with result := 3 } }
  else { s with pwr := { s.pwr with standby := .quiescing } }

/-- Whether the accepted work of the device has completed. -/
def State.quiet (s : State) : Bool :=
  s.att.steps.isEmpty && s.slc.moves.isEmpty && s.slc.pageReads.isEmpty && s.slc.objWrites.isEmpty && s.slc.places.isEmpty
    && s.slc.queue.isEmpty && s.slc.spaceCmds.isEmpty && s.xlt.seqs.all (fun e => e.2.held.isEmpty && e.2.trunc.isNone)
    && s.rbd.searches.isEmpty && s.xlt.handoffs.isEmpty && s.sdg.queue.isEmpty && s.lve.keyOps.isEmpty
    && s.cwy.sessions.all (fun e => e.2.openReqs.isEmpty)
    && s.hif.funcs.all (fun f => f.2.ringTab.all fun r => r.2.inflight.all InFlight.discard)
    && (!s.peaOn || s.peaSettled)

/-- Commit of `STANDBY` (R300). An island that is powering up reads `OFF`, so it stays off, as after a request for `OFF`
(log entry 123). -/
def State.standbyCommit (s : State) : State :=
  let s := (s.auditIf 0x07 0).sealSegment 1
  let off := sleepIslands.filter fun n => !s.islandOn n
  let s := s.forEach (sleepIslands.filter fun n => decide (s.island n = .starting)) fun n t => t.setIsland n .stopping
  let s := s.forEach (sleepIslands.filter s.islandOn) fun n t => (t.takeDown n).setIsland n .off
  let s := s.forEach (List.range 32) fun p t => if (t.port p).st = .ready ∧ (t.port p).power ≠ .sleep then t.lctlRequest p false else t
  { s with pwr := { s.pwr with offBefore := off, result := 1, standby := .standby } }

/-- Quiesce completes and the device enters `STANDBY`. -/
def execStandbyCommit (s : State) : Host.Outcome State Fault Refusal :=
  .next (s.afterCwyIn .store (if s.pwr.standby = .quiescing && s.quiet then s.standbyCommit else s))

/-- An enabled wake source during quiesce, or in the cycle of commit, aborts the request (R302). -/
def execSleepAborted (source : Nat) (s : State) : Host.Outcome State Fault Refusal := .next (s.afterIn .budget (s.abortSleep source))

/-- An enabled wake source in `STANDBY` starts the exit (R301). -/
def execWake (source : Nat) (s : State) : Host.Outcome State Fault Refusal :=
  .next (s.afterIn .budget (if s.pwr.standby = .standby then s.wakeSource source else s))

/-- The islands return as they were, ports that sleep with a session are lit, and admission resumes (R301, R236). -/
def State.standbyExit (s : State) : State :=
  let back := sleepIslands.filter fun n => s.glb.variant.hasIsland n && !s.pwr.offBefore.contains n
  let s := s.forEach back fun n t =>
    if n = peatIsland then t.setIsland n .starting else (t.bringUp n).islandReached n .on
  let s := s.forEach (List.range 32) fun p t =>
    if (t.port p).power = .sleep ∧ (t.port p).st = .ready ∧ !(t.sessionsOn p).isEmpty then
      (t.emit (.link p linkLight 0)).startRetrain p true
    else t
  let s := (s.auditIf 0x07 1).setEvt Evt.pwrWoke
  { s with pwr := { s.pwr with standby := .running, offBefore := [] } }

/-- HBM leaves self-refresh and the exit from `STANDBY` ends. -/
def execStandbyExitDone (s : State) : Host.Outcome State Fault Refusal :=
  .next (s.afterCwyIn .store (if s.pwr.standby = .waking then s.standbyExit else s))

end Sys2Proof.Machine
end

