-- ==== Sys2Proof/Machine/Faults.lean ====
section
/-! DEFINITION. Machine/Faults.lean: warm resets of the privileged units, fault reports, patrol scrub and field tests (chapter
15). -/

namespace Sys2Proof.Machine

/-! ### Warm resets (R341 to R346) -/

/-- The block of a privileged unit (Table 2.1). -/
def PrivUnit.block : PrivUnit → Nat
  | .evc => 0x04 | .lve => 0x05 | .xlt => 0x07

/-- The counter of a unit's warm resets. -/
def PrivUnit.counter : PrivUnit → Nat
  | .evc => Reg.glbWarmEvcLo | .lve => Reg.glbWarmLveLo | .xlt => Reg.glbWarmXltLo

/-- A ring step that a member had accepted ends with `E_STALE` (Table 6.8). -/
def State.staleRing (s : State) (t : Step) : State :=
  let s := s.modStep t.id fun t => { t with ring := t.ring.map fun r => if r.k = r.low then r else { r with received := some (.stale, []) } }
  if (t.ring.bind RingRole.own).isNone then s.failStep t.id .stale else s.ringCombine t.id

/-- A placement command in progress ends with `E_STALE` and keeps the frames already moved (Table 8.4). -/
def State.stalePlace (s : State) (p : Placement) : State :=
  let s := { s with slc := { s.slc with places := s.slc.places.filter fun x => x.id != p.id } }
  let s := s.forEach p.reserve fun x t => t.freeExt x.1
  s.forEach (p.req :: p.joined) fun r t => t.complete r { p.result with status := .stale }

/-- What a warm reset of the translation unit does to its work (Table 15.4). Deliveries stand still and end with it. -/
def State.xltWarm (s : State) (cause : WarmCause) : State :=
  let s : State := match cause with
    | .metadata f => ({ s with flt := { s.flt with warmFrame := some f } } : State).setErr Err.xltWalkUe
    | .control => s
  let s := s.forEach s.att.steps fun t u =>
    if t.ring.isSome then u.staleRing t
    else if t.phase = .running ∨ t.phase = .spillWait then u
    else u.failStep t.id .stale
  let s := s.forEach s.xlt.seqs.keys fun i t => t.denySeq i .stale
  let s := s.forEach (s.slc.moves.filter fun m => m.st != .commit) fun m t => t.abortMove m .stale 0
  -- a chained move is not in COMMIT: it ends, and the move before it commits (Table 8.4)
  let chains := (s.slc.moves.filterMap fun m => m.chain.map fun c => (m.domain, c)) ++ s.slc.chainWait.map Prod.snd
  let s := { s with slc := { s.slc with moves := s.slc.moves.map fun (m : Move) => { m with chain := none }, chainWait := [] } }
  let s := s.forEach chains fun x t => (t.endReqs x.2.reqs (.failed .stale 0)).endWaiters x.1 x.2.ticket .stale 0
  let s := s.forEach s.slc.places fun p t => t.stalePlace p
  let waiting := s.slc.queue
  let cmds := s.slc.spaceCmds
  let s := { s with slc := { s.slc with queue := [], spaceWait := [], spaceCmds := [] } }
  let s := s.forEach waiting fun x t => t.fail x.1 .stale
  s.forEach cmds fun x t => t.fail x.req .stale

/-- Who asked for a persistent change that waits. -/
def Persist.requester : Persist → Option Requester
  | .lcAdvance _ _ r => some r
  | .debugUnlock _ r => some r
  | _ => none

/-- Persistent changes that wait for their segment are given up; an entry lists theirs (Table 15.4). -/
def State.dropWaiting (s : State) : State :=
  let w := s.aud.waiting
  if w.isEmpty then s
  else
    let numbers := w.filterMap fun x => ((s.aud.segments.find? fun g => g.number == x.1).bind fun g => g.entries.getLast?).map AuditEntry.number
    let s := { s with
      aud := { s.aud with waiting := [] }
      mgmt := if w.any fun x => (match x.2 with | .fwUpdate _ => true | _ => false) then { s.mgmt with update := .idle } else s.mgmt
      glb := if w.any fun x => x.2 == Persist.calCommit then { s.glb with calState := .staged } else s.glb }
    let s := if s.auditTakes then s.audit 0 .device 0x07 2 [] (numbers.flatMap (leBytes 4)) else s
    s.forEach (w.filterMap fun (x : Nat × Persist) => x.2.requester) fun r t => t.addStale .lve r {}

/-- What a warm reset of Levee does to its work (Table 15.4): key operations abort, and handshakes are abandoned. -/
def State.lveWarm (s : State) : State :=
  let ops := s.lve.keyOps
  let s := { s with
    lve := { s.lve with keyOps := [] }
    mgmt := { s.mgmt with sessions := s.mgmt.sessions.filter fun e => e.2.established } }
  let s := s.forEach ops fun k t =>
    let t := if k.writesSlot then (t.setErr Err.lveKeyAbort).loseKeys k.domain else t.setErr Err.lveKeyAbort
    t.addStale .lve k.req {}
  let s := s.forEach (List.range 32) fun p t =>
    let lost := (t.port p).handshakes
    if lost.isEmpty then t
    else (t.setPort p fun q => { q with handshakes := [], lastUse := t.now }).forEach lost fun h u =>
      u.bumpD h.domain (Reg.cwyAttachFailLo + cwyOff p)
  s.dropWaiting

/-- A warm reset of a unit begins: detection, the record, and what becomes of the unit's work (Tables 15.3 and 15.4). -/
def State.startWarm (s : State) (u : PrivUnit) (cause : WarmCause) : State :=
  if (s.unit3 u).held ∨ s.glb.phase ≠ .ready then s
  else
    let s := (s.fault (unitWord u.block 0) 0x04 4).setErr Err.glbWarm
    let s := s.setUnit3 u fun x => { x with warmSince := some s.now, times := recent s.now (secNs 1) x.times ++ [s.now] }
    match u with
    | .xlt => s.xltWarm cause
    | .lve => s.lveWarm
    | .evc => { s with evc := {} }

/-- A warm reset begins. -/
def execWarmReset (u : PrivUnit) (cause : WarmCause) (s : State) : Host.Outcome State Fault Refusal :=
  .next (s.afterCwyIn .device (s.startWarm u cause))

/-- A privileged unit makes no progress for 10 µs with work pending. -/
def execUnitWatchdogExpiry (u : PrivUnit) (s : State) : Host.Outcome State Fault Refusal :=
  .next (s.afterCwyIn .device (s.startWarm u .control))

/-- The metadata frames on the way to a metadata frame, itself included. -/
def metaPathOf (f : FrameId) : List FrameId :=
  match f with
  | .table r lv pre => (tablePath r (pre * 2 ^ (8 * (5 - lv)))).take lv
  | .bdPage b => tablePath .bds b ++ [.bdPage b]
  | _ => []

/-- Homes of the frames reached through a metadata frame. -/
def State.beneath (s : State) (f : FrameId) : List Home :=
  let pages := s.xlt.seqs.flatMap fun x => x.2.ptes.filterMap fun e =>
    let k := e.1
    if (e.2.metaPath x.1 k.1 k.2.1 k.2.2).contains f then (s.frame? (e.2.frame x.1 k.1 k.2.1 k.2.2)).map FrameInfo.home else none
  let slots := s.xlt.bds.flatMap fun x => if (metaPathOf (.bdPage x.1)).contains f then x.2.fds.map fun e => e.2.home else []
  let objs := s.xlt.objs.flatMap fun x => x.2.map.filterMap fun e =>
    if (tablePath (.obj x.1) e.1).contains f then some e.2.home else none
  let metas := s.xlt.metas.filterMap fun e => if e.1 != f && (metaPathOf e.1).contains f then some e.2.home else none
  (pages ++ slots ++ objs ++ metas).eraseDups

/-- Bytes of the extents at some homes. -/
def State.extBytes (s : State) (hs : List Home) : Nat :=
  sumNat ((s.slc.extents.filter fun e => hs.contains e.1).map fun e => e.2.1)

/-- Extents whose tables cannot be read are stranded (R336). -/
def State.strand (s : State) (hs : List Home) : State :=
  let new := hs.filter fun h => !s.flt.strandedHomes.contains h
  { s with flt := { s.flt with strandedHomes := s.flt.strandedHomes ++ new, stranded := s.flt.stranded + s.extBytes new } }

/-- A metadata frame that stays uncorrectable at the restart is poisoned, and what lies beneath it is stranded (R336). -/
def State.rereadFrame (s : State) (ok : Bool) : State :=
  match s.flt.warmFrame with
  | none => s
  | some f =>
    let s := { s with flt := { s.flt with warmFrame := none } }
    if ok then s else (s.raisePoison f).strand (s.beneath f)

/-- The offset of the status code in the body of a reply (Tables 5.4, 6.5, 7.8, 11.9, 11.10). -/
def statusAt (mtype : Nat) : Nat :=
  match mtype with | 0x3F => 5 | 0x12 => 6 | 0x29 => 6 | _ => 4

/-- A reply whose refusal has become `E_STALE`. -/
def TxMsg.stale (m : TxMsg) : TxMsg := { m with body := m.body.set (statusAt m.mtype) (BitVec.ofNat 8 Status.stale.code) }

/-- Refusals that awaited release leave as `E_STALE` (Table 15.4). -/
def State.staleRefusals (s : State) : State :=
  if !s.refusalsMove then s
  else
    let a := s.hif.refusals
    let b := s.cwy.refusals
    let s := { s with hif := { s.hif with refusals := [] }, cwy := { s.cwy with refusals := [] } }
    let s := s.forEach a fun x t => t.deliverCpl x.1 { status := .stale }
    s.forEach b fun x t => t.sendReply x.1 x.2.1 x.2.2.1.stale .stale

/-- The `E_STALE` answers of a unit leave. -/
def State.releaseStale (s : State) (u : PrivUnit) : State :=
  let mine := s.flt.stale.filter fun x => x.1 == u
  let s := { s with flt := { s.flt with stale := s.flt.stale.filter fun x => x.1 != u } }
  let s := s.forEach mine fun x t => t.deliverCpl x.2.1 { x.2.2 with status := .stale }
  if u = .evc then s else s.staleRefusals

/-- A warm reset ends (R342): the unit is `READY` again, or, at its third within 1 s, held (R345). A self-check that fails
begins the restart again (Table 15.5). -/
def State.endWarm (s : State) (u : PrivUnit) (selfCheck reread : Bool) : State :=
  if (s.unit3 u).warmSince.isNone then s
  else if 3 ≤ (s.unit3 u).times.length then
    let s := (s.setUnit3 u fun x => { x with warmSince := none, held := true }).bump u.counter
    (((s.fault (unitWord u.block 0) 0x06 5).setErr Err.glbHeld).releaseStale u)
  else if !selfCheck then s.startWarm u .control
  else
    let s := (s.setUnit3 u fun x => { x with warmSince := none }).bump u.counter
    let s := if u = .xlt then s.rereadFrame reread else s
    let s := ((s.fault (unitWord u.block 0) 0x05 4).setEvt Evt.glbWarmDone).releaseStale u
    if u = .xlt then (s.forEach s.slc.pageReads fun r t => t.failPages r .stale).sluice else s

/-- A warm reset completes. -/
def execWarmResetDone (u : PrivUnit) (selfCheck reread : Bool) (s : State) : Host.Outcome State Fault Refusal :=
  .next (s.afterCwyIn .device (s.endWarm u selfCheck reread))

/-! ### Fault records (R349, R350) -/

/-- The 32 bytes of a record (Table 15.8). -/
def FaultRec.bytes (r : FaultRec) : List Byte :=
  leBytes 8 r.time ++ leBytes 4 r.unit ++ leBytes 1 r.cls ++ leBytes 1 r.resp ++ leBytes 2 r.count ++ leBytes 8 r.addr
    ++ leBytes 4 r.number ++ leBytes 4 r.detail

/-- Toluo takes the first record: history, PLDM event and `GLB_FAULT_LAST`. Once the FIFO has space again, a record of what was
dropped goes in first. A write of the history that fails its read-back is made again in another place (Table 15.1);
whether it fails is a free value (log entry 121). -/
def State.reportFault (s : State) : State :=
  match s.flt.fifo with
  | [] => s
  | r :: rest =>
    let (n, s) := s.draw
    let s := if Config.flashWriteFails n then s.setErr Err.glbHistFail else s
    let s := { s with flt := { s.flt with
      fifo := rest, last := some r, ringRecs := (s.flt.ringRecs ++ [r]).drop (s.flt.ringRecs.length + 1 - 4096) } }
    let s := (s.pldmEvent 0xF0 (r.bytes.map BitVec.toNat)).setEvt Evt.glbFault
    let lost := s.flt.dropped
    if lost = 0 then s
    else ({ s with flt := { s.flt with dropped := 0 } } : State).fault (unitWord 0x01 0) 0x0B 0 0 0 lost

/-- Toluo reports a fault record. -/
def execToluoFaultReport (s : State) : Host.Outcome State Fault Refusal :=
  .next (s.afterIn .tests (s.reportFault))

/-- A unit's corrected errors are summarised, at most once every `CE_S` seconds. -/
def State.ceSummary (s : State) (unit count : Nat) : State :=
  let e := s.flt.corrected.get? unit
  let n := count + (e.map Prod.fst).getD 0
  let every := secNs (max (s.fld Reg.glbFaultCfg 23 16) 1)
  let due := match e with | some (_, t) => decide (t = 0 ∨ t + every ≤ s.now) | none => true
  if n = 0 ∨ !due then s
  else ({ s with flt := { s.flt with corrected := s.flt.corrected.set unit (0, max s.now 1) } } : State).fault unit 0x01 1 0 0 n

/-- A corrected-error summary. -/
def execCeSummary (unit count : Nat) (s : State) : Host.Outcome State Fault Refusal := .next (s.afterIn .tests (s.ceSummary unit count))

/-! ### Patrol scrub (R336, R340, R356) -/

/-- Every frame that the device holds. -/
def State.frames (s : State) : List FrameId :=
  (s.xlt.seqs.flatMap fun x => x.2.ptes.filterMap fun e =>
      if e.2.share.isNone then some (FrameId.page x.1 e.1.1 e.1.2.1 e.1.2.2) else none)
    ++ (s.xlt.bds.flatMap fun x => x.2.fds.map fun e => FrameId.slot x.1 e.1)
    ++ (s.xlt.objs.flatMap fun x => x.2.map.map fun e => FrameId.obj x.1 e.1)
    ++ s.xlt.metas.map Prod.fst

/-- The frame in T0 that covers a byte address. -/
def State.frameAt (s : State) (addr : Nat) : Option FrameId :=
  s.frames.find? fun f => ((s.frame? f).map fun i =>
    decide (i.home.tier = 0) && decide (i.home.addr * 512 ≤ addr) && decide (addr < i.home.addr * 512 + i.bytes)).getD false

/-- A corrected error of a row: more than 64 in a day make it permanent, and its extent stays out of the pool (R356). -/
def State.rowCorrected (s : State) (addr : Nat) : State :=
  let unit := unitWord 0x38 (s.glb.variant.stackAt addr)
  let row := Config.rowOf addr
  let times := recent s.histNow day1 (s.flt.rowErrs.getD row []) ++ [s.histNow]
  let n := s.flt.corrected.getD unit (0, 0)
  let s := { s with flt := { s.flt with
    rowErrs := s.flt.rowErrs.set row times, corrected := s.flt.corrected.set unit (n.1 + 1, n.2) } }
  if times.length = 65 then
    match s.slc.extents.find? fun e => e.1.tier == 0 && decide (e.1.addr * 512 ≤ addr) && decide (addr < e.1.addr * 512 + e.2.1) with
    | some e =>
      (({ s with flt := { s.flt with badT0 := if s.flt.badT0.contains e.1.addr then s.flt.badT0 else s.flt.badT0 ++ [e.1.addr] } } :
        State).fault unit 0x09 5 addr).setEvt Evt.glbPermanent
    | none => ((s.holdOut addr).fault unit 0x09 5 addr).setEvt Evt.glbPermanent
  else s

/-- An uncorrectable error at a T0 address: a frame's data is poisoned; a metadata frame is served from its other copy and
the bad copy is written again (R63, R335). -/
def State.scrubUe (s : State) (addr : Nat) : State :=
  let s' := s.t0Ue addr
  match s.frameAt addr with
  | some f => if s.xlt.metas.has f then s' else s'.raisePoison f
  | none => s'

/-- The two halves of a sequence descriptor are lost: its index is retired without advancing `TAG`, and what only it reached is
stranded (R336). -/
def State.loseSeq (s : State) (i : Nat) : State :=
  match s.seq? i with
  | none => s
  | some q =>
    let s := (s.fault (unitWord 0x07 (i % 2)) 0x02 5 i).denySeq i .unavailable
    let s := s.forEach (s.att.steps.filter fun t => t.seq == i) fun t u => u.failStep t.id .unavailable
    let mine := q.ptes.filterMap fun e => if e.2.share.isNone then some e.2.home else none
    let tables := s.xlt.metas.filterMap fun e => match e.1 with
      | .table (.seq j) _ _ => if j = i then some e.2.home else none
      | _ => none
    let s := s.strand (mine ++ tables)
    let s := s.forEach q.retirers fun r t => t.complete r {}
    s.setSeq i fun _ => { tag := q.tag, st := .retired, domain := q.domain, model := q.model }

/-- What patrol scrub finds at an address. -/
def State.patrol (s : State) (addr : Nat) (found : Scrubbed) : State :=
  match found with
  | .clean => s
  | .corrected => s.rowCorrected addr
  | .uncorrectable => s.scrubUe addr
  | .descriptor i => s.loseSeq i

/-- Patrol scrub reads one burst of T0. -/
def execPatrolScrub (addr : Nat) (found : Scrubbed) (s : State) : Host.Outcome State Fault Refusal :=
  .next (s.afterIn .search
    (if s.fld Reg.glbFaultCfg 15 8 ≠ 0 ∧ addr < s.t0Bytes ∧ s.glb.phase = .ready ∧ s.pwr.standby ≠ .standby then
       s.background .scrub (s.rowCost 0 0 64) 100 fun t => t.patrol addr found
     else s))

/-! ### Field tests (R352 to R354) -/

/-- The time between tests of successive clusters: each is tested once every `PERIOD_H` hours. -/
def State.testEvery (s : State) : Nat := secNs (max (s.fld Reg.tstFtCfg 23 16) 1 * 3600) / 16

/-- The next cluster to test: the first in order that is `ON`. -/
def State.testCandidate (s : State) : Option Nat :=
  ((List.range 16).map fun k => (s.flt.testNext + k) % 16).find? s.islandOn

/-- The test of the next cluster comes due: the cluster stops receiving tasks. -/
def State.testStart (s : State) (c : Nat) : State :=
  let due := s.flt.lastTest + s.testEvery
  if bit (s.reg Reg.tstFtCfg) 31 && s.glb.variant.hasAttn && s.takesWork && s.flt.testCluster.isNone
      && decide (s.testCandidate = some c) && (s.flt.testDue || decide (due ≤ s.now)) && !s.att.lsPending then
    ({ s with flt := { s.flt with
      testCluster := some c, testItem := 0, testEpoch := none, testDue := false, testAbandon := false, testFails := []
      testLast := c, testStress := bit (s.reg Reg.tstFtCfg) 0, testLate := decide (due + secNs 86400 ≤ s.now) } } : State).clustersGone
  else s

/-- A field test comes due. -/
def execFieldTestDue (cluster : Nat) (s : State) : Host.Outcome State Fault Refusal := .next (s.afterIn .engine (s.testStart cluster))

/-- The cores of a cluster hold no task. -/
def State.clusterIdle (s : State) (c : Nat) : Bool :=
  (clusterCores c).all fun n => (s.core n).task.isNone && (s.core n).suspended.isNone

/-- Whether a test is to be abandoned (R353). -/
def State.testStops (s : State) (c : Nat) : Bool := !s.islandOn c || decide (s.pwr.standby ≠ .running) || s.flt.testAbandon

/-- The cluster under test returns to dispatch with its cores scrubbed (Table 14.9). -/
def State.testLeave (s : State) (c : Nat) : State :=
  let s := { s with flt := { s.flt with testCluster := none } }
  (s.forEach (clusterCores c) fun n t => if t.islandOn c then t.setCore n fun _ => { st := .idle } else t).bump Reg.lveScrubLo

/-- A test is abandoned, and is due again at once. -/
def State.testAbandoned (s : State) (c : Nat) : State :=
  ({ s.testLeave c with flt := { (s.testLeave c).flt with testDue := true, testAbandon := false } } : State).bump Reg.tstAbandonLo

/-- Whether the test in progress is 24 h overdue (R352). -/
def State.overdue (s : State) : Bool := s.flt.testLate || decide (s.flt.lastTest + s.testEvery + secNs 86400 ≤ s.now)

/-- Whether the next item may run: one in each epoch, the first at `TMIN` or above, or 24 h late. -/
def State.itemReady (s : State) (tenthC : Int) : Bool :=
  decide (s.flt.testItem < 48) && decide (s.flt.testEpoch ≠ some s.pwr.epoch)
    && (decide (s.flt.testItem ≠ 0) || s.overdue || decide ((s.fld Reg.tstFtCfg 15 8 * 10 : Nat) ≤ tenthC))

/-- A core judged by a retest at nominal conditions: failing, it raises a record and is permanent (R354, R356). -/
def State.judgeRetest (s : State) (unit : Nat) (fails late : Bool) : State :=
  let s := s.bump Reg.tstRetestLo
  if fails then
    let s := s.fault unit 0x08 0 0 (if late then 1 else 0)
    (s.setHistory unit fun h => { h with events := recent s.histNow days30 h.events ++ [s.histNow] }).declarePermanent unit
  else s

/-- One `TEST` item runs on the cluster under test, or, where none is under test, on a core that a check failure sent to it. -/
def State.testItem (s : State) (tenthC : Int) (fails : List Nat) : State :=
  let cost := 40 * s.fld Reg.pwrCoef2 7 0
  match s.flt.testCluster with
  | some c =>
    if s.testStops c then s.testAbandoned c
    else if s.clusterIdle c && s.itemReady tenthC then
      s.background .test cost 40000 fun t => { t with flt := { t.flt with
        testItem := t.flt.testItem + 1, testEpoch := some t.pwr.epoch
        testLate := if t.flt.testItem = 0 then t.overdue else t.flt.testLate
        testFails := (t.flt.testFails ++ fails.filter fun n => decide (n ≤ 16)).eraseDups } }
    else s
  | none =>
    match s.flt.retest.find? fun n => (s.core n).task.isNone with
    | some n =>
      s.background .test cost 40000 fun t =>
        ({ t with flt := { t.flt with retest := t.flt.retest.filter (· != n) } } : State).judgeRetest (coreUnit n) (fails.contains n) false
    | none => s

/-- A `TEST` item runs. -/
def execTestItem (tenthC : Int) (fails : List Nat) (s : State) : Host.Outcome State Fault Refusal := .next (s.afterIn .tests (s.testItem tenthC fails))

/-- A unit of the cluster under test, by its number there. -/
def testUnit (c n : Nat) : Nat := if n = 16 then mergeUnit c else coreUnit (c * 16 + n)

/-- A unit that failed an item is judged (R354, Table 15.9): after a stressed test by its retest, otherwise at once. -/
def State.judge (s : State) (unit : Nat) (bad : Bool) : State :=
  let late := s.flt.testLate
  if s.flt.testStress then
    let s := s.judgeRetest unit bad late
    if bad then s
    else
      let s := s.setHistory unit fun h => { h with stressed := recent s.histNow days30 h.stressed ++ [s.histNow] }
      if 2 ≤ (s.history unit).stressed.length then s.declarePermanent unit else s
  else
    let s := s.fault unit 0x08 0 0 (if late then 1 else 0)
    let s := s.setHistory unit fun h => { h with events := recent s.histNow days30 h.events ++ [s.histNow] }
    if 3 ≤ (s.history unit).events.length then s.declarePermanent unit else s

/-- A test ends. `bad` are the units that fail the retest at nominal rail and clock. -/
def State.testEnd (s : State) (bad : List Nat) : State :=
  match s.flt.testCluster with
  | none => s
  | some c =>
    if s.flt.testItem < 48 then s
    else
      let fails := s.flt.testFails
      let s := s.forEach fails fun n t => t.judge (testUnit c n) (bad.contains n)
      let s := s.bump Reg.tstFtRunLo
      let s := if fails.isEmpty then s else (s.bump Reg.tstFtFailLo).setEvt Evt.glbTestFail
      let s := s.testLeave c
      { s with flt := { s.flt with testNext := (c + 1) % 16, lastTest := s.now } }

/-- A field test ends. -/
def execFieldTestEnd (bad : List Nat) (s : State) : Host.Outcome State Fault Refusal := .next (s.afterIn .tests (s.testEnd bad))

/-- A `TEST_TRIG` edge, or a write of `TST_TRIG`, makes the next test due at once (R353). -/
def State.testTrigger (s : State) : State := if s.glb.variant.hasAttn then { s with flt := { s.flt with testDue := true } } else s

/-- `TST_HIST_CTL.RESTORE` returns the selected unit to service and clears its counts (R357). -/
def State.restoreUnit (s : State) (unit : Nat) : State :=
  let s := { s with flt := { s.flt with history := s.flt.history.erase unit } }
  if unit / 2 ^ 24 = 0x20 then
    let p := unit / 2 ^ 16 % 256
    s.setPort p fun q => { q with deadLanes := q.deadLanes.filter (· != unit / 256 % 256) }
  else s

end Sys2Proof.Machine
end

