-- ==== Sys2Proof/Machine/Events.lean ====
section
/-! DEFINITION. Machine/Events.lean: delivery of interrupts and the running-priority stacks (chapter 16). -/

namespace Sys2Proof.Machine

/-- The route of a source. -/
structure Route where
  en : Bool
  toluo : Bool
  prio : Nat
  vector : Nat
  deriving DecidableEq, Repr

/-- The address of the route of a source: page 1 for sources 0 to 511, page 2 for the others. -/
def routeAddr (n : Nat) : Nat := 0x030000 + (if n < 512 then 0x1040 + 4 * n else 0x2040 + 4 * (n - 512))

/-- Fields of a route (`EVC_ROUTE`). -/
def readRoute (v : Nat) : Route := { en := bit v 31, toluo := bit v 30, prio := bits v 19 16, vector := bits v 10 0 }

/-- The route of a source as it stands. -/
def State.route (s : State) (n : Nat) : Route := readRoute (s.reg (routeAddr n))

/-- The number of Toluo among the targets; host vectors are 0 to 2047. -/
def toluoTarget : Nat := 2048

/-- The target of a route. -/
def Route.target (r : Route) : Nat := if r.toluo then toluoTarget else r.vector

/-- The running-priority stack of a target, top first. -/
def State.evcStack (s : State) (t : Nat) : List Nat := s.evc.running.getD t []

/-- Whether a target can take an interrupt (Table 16.2): PF0 issues MSI-X only with the link up, Bus Master Enable set and
outside D3hot. -/
def State.targetOpen (s : State) (t : Nat) : Bool :=
  t == toluoTarget || (s.hif.linkUp && (s.func 0).busMaster && !(s.func 0).d3hot)

/-- Sources of a target that are pending, enabled, released and above its running priority. -/
def State.contenders (s : State) (t : Nat) : List Nat :=
  s.pendingSources.filter fun n =>
    let r := s.route n
    r.en && r.target == t && s.evc.groups.getD (n / 32) .idle == GroupState.released
      && (match s.evcStack t with | [] => true | top :: _ => decide (top < r.prio))

/-- The source of highest priority, and among equals the lowest number (R363). -/
def State.firstSource (s : State) (l : List Nat) : Option Nat :=
  l.foldl (fun best n => match best with
    | none => some n
    | some m =>
      let p := (s.route n).prio
      let q := (s.route m).prio
      if q < p ∨ (q = p ∧ n < m) then some n else some m) none

/-- Sources that wait for a full stack are counted once for each wait. -/
def State.fullWait (s : State) (l : List Nat) : State :=
  let new := l.filter fun n => !s.evc.waiting.contains n
  if new.isEmpty then s
  else (({ s with evc := { s.evc with waiting := s.evc.waiting ++ new } } : State).bump Reg.evcFullWaitLo new.length).setEvt Evt.evcStackFull

/-- Deliver to one target: at most one eligible source (R363). -/
def State.evcDeliver (s : State) (t : Nat) : State :=
  let pend := s.pendingSources
  let s := { s with evc := { s.evc with waiting := s.evc.waiting.filter pend.contains } }
  let l := s.contenders t
  if 8 ≤ (s.evcStack t).length then s.fullWait l
  else
    match s.firstSource l with
    | none => s
    | some n =>
      let r := s.route n
      let s := ({ s with evc := { s.evc with
        running := s.evc.running.set t (r.prio :: s.evcStack t), waiting := s.evc.waiting.filter (· != n) } } : State).bump Reg.evcDelivLo
      if r.toluo then s.emit (.toluoIrq n) else s.msix 0 r.vector

/-- One FCLK cycle of delivery to one target. -/
def execEvcDeliver (target : Nat) (s : State) : Host.Outcome State Fault Refusal :=
  .next (s.afterIn .host (if target ≤ toluoTarget ∧ s.serves .evc ∧ s.targetOpen target then s.evcDeliver target else s))

/-- The timer of a holding group expires (R365). -/
def execHoldoffExpiry (group : Nat) (s : State) : Host.Outcome State Fault Refusal :=
  .next (s.afterIn .host
    (match s.evc.groups.get? group with
     | some (.holding due) =>
       if due ≤ s.now then { s with evc := { s.evc with groups := s.evc.groups.set group .released } } else s
     | _ => s))

/-- A write of `EVC_EOI` (R364); it is ignored while the controller is in warm reset (Table 15.4). -/
def State.eoi (s : State) (v : Nat) : State :=
  let t := if bit v 31 then toluoTarget else bits v 10 0
  if !s.serves .evc then s
  else
    match s.evcStack t with
    | [] => s.setErr Err.evcEoiEmpty
    | _ :: [] => { s with evc := { s.evc with running := s.evc.running.erase t } }
    | _ :: rest => { s with evc := { s.evc with running := s.evc.running.set t rest } }

/-- A write of `EVC_SWSET` (R360). -/
def State.swSet (s : State) (v : Nat) : State :=
  let n := bits v 9 0
  if n < 512 then s.setErr Err.evcSwset
  else { s with evc := { s.evc with soft := if s.evc.soft.contains n then s.evc.soft else s.evc.soft ++ [n] } }

/-- A `W1C` write of `EVC_PEND` of a software group (R360). -/
def State.pendClear (s : State) (g v : Nat) : State :=
  { s with evc := { s.evc with soft := s.evc.soft.filter fun n => !(n / 32 == g && bit v (n % 32)) } }

/-- The word that `EVC_PEND` of a group shows. -/
def State.pendWord (s : State) (g : Nat) : Nat :=
  sumNat ((s.pendingSources.filter fun n => n / 32 == g).map fun n => 2 ^ (n % 32))

/-- Whether R362 refuses a write of a route: one that changes a Toluo route, or sets `TARGET` to Toluo, not by Toluo. -/
def State.routeRefused (s : State) (o : Origin) (n v : Nat) : Bool :=
  o != .toluo && (bit v 30 || (s.route n).toluo) && decide (s.route n ≠ readRoute v)

end Sys2Proof.Machine
end

