-- ==== Sys2Proof/Machine/Startup.lean ====
section
/-! DEFINITION. Machine/Startup.lean: device resets, fuses, the choice of an image, start-up, updates, calibration and the pins
(chapters 17 and 18, R278, R323 to R325, R330). -/

namespace Sys2Proof.Machine

/-! ### Fuses (R323 to R325) -/

/-- A life-cycle word as fused: one blown byte for each state reached. -/
def LcState.word (c : LcState) : Nat := sumNat ((List.range c.code).map fun i => 255 * 2 ^ (8 * i))

/-- The state of a life-cycle word: that of the highest blown byte (R324). -/
def lcOfWord (v : Nat) : LcState :=
  if v / 2 ^ 32 % 256 ≠ 0 then .fin else if v / 2 ^ 24 % 256 ≠ 0 then .ret else if v / 2 ^ 16 % 256 ≠ 0 then .field
  else if v / 2 ^ 8 % 256 ≠ 0 then .provisioned else if v % 256 ≠ 0 then .tested else .blank

/-- The later of two states. -/
def LcState.later (a b : LcState) : LcState := if a.code < b.code then b else a

/-- The reads that decode. -/
def FuseRead.decoded (f : FuseRead) : List Nat := f.reads.filterMap id

/-- Whether a word is marginal: its six reads do not all decode and agree. -/
def FuseRead.marginal (f : FuseRead) : Bool :=
  decide (f.reads.length = 6) && !(decide (f.decoded.length = 6) && decide (f.decoded.eraseDups.length = 1))

/-- The values of the copies whose two reads decode and agree. -/
def FuseRead.firm (f : FuseRead) : List Nat :=
  (List.range 3).filterMap fun c =>
    match f.reads.getD (2 * c) none, f.reads.getD (2 * c + 1) none with
    | some a, some b => if a = b then some a else none
    | _, _ => none

/-- Whether a marginal word of kind exact resolves: it has a firm copy, and its firm copies agree. -/
def FuseRead.exactOk (f : FuseRead) : Bool := decide (f.firm.eraseDups.length = 1)

/-- `restrict_merge` of a policy word: a bit is 1 only where every decoded read shows 1. -/
def FuseRead.policy (f : FuseRead) : Nat := if f.decoded.isEmpty then 0 else f.decoded.foldl (fun a b => a &&& b) (2 ^ 64 - 1)

/-- `restrict_merge` of a state word: the latest state that any decoded read names. -/
def FuseRead.state (f : FuseRead) : LcState :=
  if f.decoded.isEmpty then .fin else f.decoded.foldl (fun c v => c.later (lcOfWord v)) .blank

/-- The reads of a word, if it is marginal. -/
def FuseScan.find (f : FuseScan) (w : FuseWord) : Option FuseRead := f.words.find? fun r => r.word == w && r.marginal

/-- Levee reads the fuses: it resolves each word, completes a pending transition, and enters `SAFE` where an exact word does
not resolve or the state is `END` (R323 to R325, R372). -/
def State.readFuses (s : State) (f : FuseScan) : State :=
  let l := s.lve
  let st := ((f.find .state).map FuseRead.state).getD l.lcFuse
  let it := ((f.find .intent).map FuseRead.state).getD l.intentFuse
  let pol := ((f.find .policy).map FuseRead.policy).getD l.policyFuse
  let marg := f.words.filter FuseRead.marginal
  let completes := decide (st.code < it.code)
  let st' := st.later it
  let s := { s with lve := { l with
    lc := st', intent := it, lcFuse := if completes then l.lcFuse.later it else l.lcFuse, lcCompleted := completes
    lcMarginal := (f.find .state).isSome || (f.find .intent).isSome, marginal := marg.length, corrected := min 255 f.corrected
    tapEarly := bit pol 0, tokens := bit pol 1 } }
  let s := s.forEach marg fun _ t =>
    let u := unitWord 0x01 0 3
    ((t.setErr Err.lveFuseMargin).setHistory u fun h => { h with events := h.events ++ [t.histNow] }).auditIf 0x05 st'.code
  let bad := marg.any fun r => (match r.word with | .exact _ => !r.exactOk | _ => false)
  if bad then s.enterSafe 4 else if st' = .fin then s.enterSafe 6 else s

/-! ### Images (R372 to R374) -/

/-- A slot of the NOR flash. -/
def Glb.image (g : Glb) (slot : Nat) : Option Image := if slot = 0 then g.slotA else g.slotB

/-- Whether an image verifies under the key that suits a life-cycle state (R373, Table 14.15). -/
def Image.suits (m : Image) (c : LcState) : Bool :=
  m.good && (match c with | .blank => m.test | .tested => m.test | .fin => false | _ => !m.test)

/-- Whether a slot holds an image that verifies. -/
def State.verifies (s : State) (slot : Nat) : Bool := ((s.glb.image slot).map fun m => m.suits s.lve.lc).getD false

/-- The boot ROM starts the active slot's image, or else that of the other slot (R372). -/
def State.bootActive (s : State) : State :=
  let a := s.glb.active
  if s.verifies a then { s with glb := { s.glb with running := some a } }
  else if s.verifies (1 - a) then { s with glb := { s.glb with running := some (1 - a) } }
  else { s with glb := { s.glb with running := none, phase := .noImage } }

/-- The boot ROM chooses an image: a pending one that verifies and has not been tried, or else the active one (R374). -/
def State.boot (s : State) : State :=
  if s.glb.phase ≠ .startup then s
  else
    match s.glb.pendingSlot with
    | some k =>
      if !s.glb.tried && s.verifies k then { s with glb := { s.glb with running := some k, tried := true } }
      else
        let t := { s with glb := { s.glb with pendingSlot := none, tried := false, fallback := true } }
        t.bootActive
    | none => s.bootActive

/-! ### Resets (R369, Table 17.2) -/

/-- The audit state after a loss of power: what had not reached the flash area is lost (R330). -/
def Aud.unpowered (a : Aud) : Aud :=
  let kept := a.segments.filter Segment.written
  let firstOf := fun (l : List AuditEntry) => (l.head?.map AuditEntry.number).getD a.nextEntry
  match a.segments.find? fun g => !g.written with
  | some g => { nextEntry := firstOf g.entries, nextSegment := g.number, acked := a.acked, segments := kept, lastDigest := g.prev }
  | none => { nextEntry := firstOf a.open_, nextSegment := a.nextSegment, acked := a.acked, segments := kept, lastDigest := a.lastDigest }

/-- T0 held out of the pool after a reset: extents freed with poison, and those that carried it (R337). -/
def State.heldOut (s : State) : List (Nat × Nat) :=
  s.flt.retired ++ s.flt.badT0.filterMap fun a =>
    (s.slc.extents.find? fun e => e.1.tier == 0 && decide (e.1.addr = a)).map fun e => (a, e.2.1)

/-- What a device reset leaves: the volatile state is cleared, and what Table 17.2 keeps stands. `power` says that power was
lost too. -/
def State.cleared (s : State) (power : Bool) : State :=
  { ({} : State) with
    pending := s.pending, mem := s.mem.filter fun c => decide (2 ^ 56 ≤ c.1), outs := s.outs, fresh := s.fresh
    glb := {
      variant := s.glb.variant, phase := .startup, slotA := s.glb.slotA, slotB := s.glb.slotB, active := s.glb.active
      pendingSlot := s.glb.pendingSlot, tried := s.glb.tried, calStored := s.glb.calStored, els := s.glb.els
      pwrgood := s.glb.pwrgood, thermtrip := s.glb.thermtrip && !power }
    flt := {
      base := s.histNow, history := s.flt.history, ringRecs := s.flt.ringRecs, rowErrs := s.flt.rowErrs, retired := s.heldOut }
    lve := {
      lcFuse := s.lve.lcFuse, intentFuse := s.lve.intentFuse, policyFuse := s.lve.policyFuse, chainOk := s.lve.chainOk
      operatorAnchor := s.lve.operatorAnchor, serviceAnchor := s.lve.serviceAnchor }
    aud := if power then s.aud.unpowered else { s.aud with reserved := 0, waiting := [], full := false }
    cwy := { ports := s.cwy.ports.mapVals fun _ p => { deadLanes := p.deadLanes, failures := p.failures } }
    pea := {
      pstate := if s.glb.variant.hasFlash then .recovering else .noFlash
      geom := s.pea.geom, excluded := s.pea.excluded, absent := s.pea.absent, readOnly := s.pea.readOnly, opPct := s.pea.opPct, metaGib := s.pea.metaGib, spareFmt := s.pea.spareFmt
      fmtCut := s.pea.fmtCut, ftime := s.ftimeNow, life := s.pea.life, peBase := s.pea.peBase, wseq := s.pea.wseq
      journal := s.pea.journal, journalPos := s.pea.journalPos, nextCk := s.pea.nextCk, saved := s.pea.saved, packed := s.pea.packed
      closedStripes := s.pea.closedStripes ++ s.pea.stripes.map fun (x : PStripe) => { x with fill := [], unverified := x.blocks }
      rows := if s.pea.pstate = .formatting then [] else s.pea.rows
      flash := if s.pea.pstate = .formatting then [] else s.pea.flash
      ckpts := if s.pea.pstate = .formatting then [] else s.pea.ckpts } }

/-- A reset starts: what it clears, then the fuses and the image. -/
def State.restart (s : State) (power : Bool) (f : FuseScan) (g : Glb → Glb) : State :=
  let t := s.cleared power
  (({ t with glb := g t.glb } : State).readFuses f).boot

/-- `PWRGOOD` rises, or has stayed low for at least 1 µs. -/
def execPowerOn (fuses : FuseScan) (s : State) : Host.Outcome State Fault Refusal :=
  .next (s.afterReset (s.restart true fuses fun g => { g with pwrgood := true, cause := 0 }))

/-- `PWRGOOD` falls. -/
def execPwrgoodFall (s : State) : Host.Outcome State Fault Refusal :=
  let t := s.cleared true
  .next (s.afterReset { t with glb := { t.glb with pwrgood := false, phase := .off } })

/-- Whether a reset that was asked for takes place now: its checkpoint is written or was not wanted, or 100 ms have passed
(R370). -/
def State.resetDue (s : State) (r : ResetReq) : Bool := r.flushed || r.noflush || decide (r.since + msNs 100 ≤ s.now)

/-- The device resets. -/
def execDeviceReset (fuses : FuseScan) (s : State) : Host.Outcome State Fault Refusal :=
  .next
    (match s.glb.resetReq with
     | some r =>
       if s.resetDue r then
         s.afterReset (s.restart false fuses fun g => { g with cause := r.cause, flushed := r.flushed, wasSafe := s.lve.safe })
       else s.after s
     | none => s.after s)

/-- A device reset is asked for. A further request stands with the first. -/
def State.askReset (s : State) (cause : Nat) (noflush : Bool) : State :=
  let r : ResetReq := match s.glb.resetReq with
    | some r => { r with noflush := r.noflush || noflush }
    | none => { cause := cause, noflush := noflush, since := s.now }
  { s with glb := { s.glb with resetReq := some r } }

/-- A unit has been held with `AUTORST` set, and Toluo has sent the fault records (R345). -/
def execAutorst (s : State) : Host.Outcome State Fault Refusal :=
  let held := s.flt.xlt.held || s.flt.lve.held || s.flt.evc.held
  .next (s.afterIn .board
    (if held && bit (s.reg Reg.glbFaultCfg) 31 && s.flt.fifo.isEmpty && s.glb.resetReq.isNone then s.askReset 3 false else s))

/-- Whether the life cycle, the token and `LVE_DBG` open the TAP beyond `IDCODE` and `BYPASS` (Table 14.15). -/
def State.tapAllowed (s : State) : Bool :=
  let token := (s.lve.debugUntil.map fun t => decide (s.ftimeNow ≤ t)).getD false
  decide (s.glb.phase ≠ .off) && (match s.lve.lc with
    | .blank => s.lve.tapEarly
    | .tested => s.lve.tapEarly
    | .provisioned => token
    | .field => token && bit (s.reg Reg.lveDbg) 31
    | .ret => token
    | .fin => false)

/-- Whether the TAP is open beyond `IDCODE` and `BYPASS`: no confidential domain closes it (Tables 14.15 and 14.11). -/
def State.tapOpen (s : State) : Bool := s.tapAllowed && !s.confAny

/-- The reset instruction of the TAP. -/
def execTapResetInstruction (s : State) : Host.Outcome State Fault Refusal :=
  .next (s.afterIn .board (if s.tapOpen then s.askReset 4 false else s))

/-- Toluo's firmware restarts: management sessions are lost, and the history records it (R351). -/
def State.toluoRestarts (s : State) : State :=
  let s := { s with mgmt := { s.mgmt with sessions := [], update := .idle } }
  s.setHistory (unitWord 0x01 0 1) fun h => { h with events := h.events ++ [s.histNow] }

/-- The effect of a write of `GLB_RSTCTL` (R370). -/
def State.rstctl (s : State) (o : Origin) (v : Nat) : State :=
  if bits v 15 0 ≠ 0x7840 then s
  else
    let s := if bit v 29 then s.toluoRestarts else s
    if bit v 31 then s.askReset (match o with | .toluo => 2 | .jtag => 4 | _ => 1) (bit v 30) else s

/-! ### Calibration (R375, R376) -/

/-- Whether a calibration set passes the checks of R375. -/
def calValid (b : List Byte) : Bool :=
  let n := u32 b 8
  decide (u32 b 0 = 0x43414C31) && decide (u16 b 4 = 1) && decide (4 ≤ n) && decide (n ≤ 4194304) && decide (n ≤ b.length)
    && decide (u64 b 16 = Config.serial.toNat) && decide (u32 b (n - 4) = (crc32 (b.take (n - 4))).toNat)

/-- The staged copy as bytes; words that have not been written are 0. -/
def Glb.staged (g : Glb) : List Byte :=
  let w := fun (i : Nat) => leBytes 4 ((g.calStaged.getD (4 * i) 0#32).toNat)
  (List.range (ceilDiv (min 4194304 (g.calStaged.getD 8 0#32).toNat) 4)).flatMap w

/-- `GLB_CAL_CTL.ADDR`. -/
def State.calAddr (s : State) : Nat := s.fld Reg.glbCalCtl 21 2 * 4

/-- `ADDR` moves on by 4. -/
def State.calNext (s : State) : State := s.setFld Reg.glbCalCtl 21 2 (s.fld Reg.glbCalCtl 21 2 + 1)

/-- A word written to the staged copy; ignored while a commit runs. -/
def State.calWrite (s : State) (v : Nat) : State :=
  if s.glb.calState = .committing then s
  else
    ({ s with glb := { s.glb with
      calStaged := s.glb.calStaged.set s.calAddr (BitVec.ofNat 32 v), calState := .staged } } : State).calNext

/-- The staged copy is emptied. -/
def State.calDiscard (s : State) : State :=
  if s.glb.calState = .committing then s else { s with glb := { s.glb with calStaged := [], calState := .idle } }

/-- The staged copy is committed: a persistent change whose checks have passed. -/
def State.calCommit (s : State) (w : Who) : State :=
  let s := { s with glb := { s.glb with calState := .committing } }
  s.auditPersist 0 w 0x06 Reg.glbCalCtl s.glb.calStored s.glb.staged .calCommit

/-- Whether a commit waits for its audit entry. -/
def State.calWaits (s : State) : Bool := s.aud.waiting.any fun x => x.2 == Persist.calCommit

/-- The region has been reprogrammed and read back. -/
def execCalCommitDone (ok : Bool) (s : State) : Host.Outcome State Fault Refusal :=
  .next (s.afterIn .board
    (if s.glb.calState = .committing && !s.calWaits && decide (s.now ≤ s.glb.calSince + secNs 40) then
       { s with glb := if ok then { s.glb with calStored := s.glb.staged, calStaged := [], calState := .idle }
           else { s.glb with calStored := [], calState := .failed } }
     else s))

/-! ### Persistent changes (R330) -/

/-- Whether Peat can take a format: it is powered and not formatting already. -/
def State.formats (s : State) : Bool := s.peaOn && s.pea.pstate != .formatting && s.pea.pstate != .noFlash

/-- The effect of a persistent change whose segment has reached the flash area. -/
def State.persist (s : State) (p : Persist) : State :=
  match p with
  | .lcAdvance t h r =>
    let l := s.lve
    let l := { l with
      lc := t, intent := t, lcFuse := t, intentFuse := t
      operatorAnchor := if t = .field then some h else l.operatorAnchor
      serviceAnchor := if t = .provisioned then some h else l.serviceAnchor }
    let s := ({ s with lve := l } : State).setEvt Evt.lveLcChange
    let s := s.complete r {}
    if t = .fin then s.enterSafe 6 else s
  | .debugUnlock u r => ({ s with lve := { s.lve with debugUntil := some u } } : State).complete r {}
  | .fwUpdate _ => { s with mgmt := { s.mgmt with update := .receiving } }
  | .calCommit => { s with glb := { s.glb with calStored := [], calSince := s.now } }
  | .format =>
    if s.formats then
      s.setPea fun p => { p with
        pstate := .formatting, fmtOp := s.fld Reg.peaFmt 31 24, fmtMeta := s.fld Reg.peaFmt 15 0 }
    else s

/-- The oldest sealed segment that is not yet written reaches a slot of the flash area, after a failed write in another slot.
Whether a write fails is a free value (log entry 121). With none to write, a change whose segment the auditor has taken already
goes on. One whose signature waits for its dispatch is not written (Table 13.1). -/
def State.segmentWritten (s : State) : State :=
  match s.aud.segments.find? fun g => !g.written with
  | none =>
    let past := fun (w : Nat × Persist) => decide (w.1 < s.aud.nextSegment)
    let t := { s with aud := { s.aud with waiting := s.aud.waiting.filter fun w => !past w } }
    t.forEach ((s.aud.waiting.filter past).map Prod.snd) fun p t => t.persist p
  | some g =>
    if s.waits (.sign g.number) then s
    else
      let (n, s) := s.draw
      let s := if Config.flashWriteFails n then s.setErr Err.audWriteFail else s
      let ready := (s.aud.waiting.filter fun w => decide (w.1 ≤ g.number)).map Prod.snd
      let s := { s with aud := { s.aud with
        segments := updFirst (fun x => x.number == g.number) (fun x => { x with written := true }) s.aud.segments
        waiting := s.aud.waiting.filter fun w => !decide (w.1 ≤ g.number) } }
      s.forEach ready fun p t => t.persist p

/-- A sealed segment reaches the flash area. -/
def execSegmentWritten (s : State) : Host.Outcome State Fault Refusal :=
  .next (s.afterCwyIn .device (s.segmentWritten))

/-- Flash time passes the expiry of the debug token (R311). -/
def execDebugTokenExpiry (s : State) : Host.Outcome State Fault Refusal :=
  .next (s.afterIn .levee
    (match s.lve.debugUntil with
     | some t => if t < s.ftimeNow then { s with lve := { s.lve with debugUntil := none } } else s
     | none => s))

/-! ### Updates (R278) -/

/-- Commands of PLDM Type 5 and the completion codes that the device uses (DSP0267; log entry 53). -/
def pldmRequestUpdate : Nat := 0x10
/-- `VerifyComplete`. -/
def pldmVerifyComplete : Nat := 0x17
/-- `ApplyComplete`. -/
def pldmApplyComplete : Nat := 0x18
/-- `UNABLE_TO_INITIATE_UPDATE`. -/
def pldmUnable : Nat := 0x8A
/-- `ALREADY_IN_UPDATE_MODE`. -/
def pldmAlready : Nat := 0x81

/-- Whether an update may be asked for in a session: an SPDM session (R275), or none where the boot ROM serves (R372). -/
def State.updatePeer (s : State) (session : Nat) : Bool :=
  decide (s.glb.phase = .noImage) || ((s.mgmt.sessions.get? session).map SpdmSession.established).getD false

/-- `RequestUpdate`. -/
def State.requestUpdate (s : State) (session : Nat) : State :=
  if s.mgmt.update ≠ .idle ∨ s.aud.waiting.any (fun w => match w.2 with | .fwUpdate _ => true | _ => false) then
    s.emit (.pldm session pldmRequestUpdate [pldmAlready])
  else if !s.auditSeals then s.auditRefuse.emit (.pldm session pldmRequestUpdate [pldmUnable])
  else
    (s.auditPersist 0 { origin := 4, id := session } 0x06 pldmRequestUpdate [] [] (.fwUpdate session)).emit
      (.pldm session pldmRequestUpdate [0])

/-- An update of the Yilloth image is asked for. -/
def execRequestUpdate (session : Nat) (s : State) : Host.Outcome State Fault Refusal :=
  .next (s.afterIn .update (if s.updatePeer session then s.requestUpdate session else s))

/-- The image has been received and its signature verified, or has failed. -/
def execVerifyComplete (image : Image) (s : State) : Host.Outcome State Fault Refusal :=
  .next (s.afterIn .board
    (if s.mgmt.update = .receiving then
       ({ s with mgmt := { s.mgmt with update := if image.good then .verified image else .idle } } : State).emit
         (.pldm 0 pldmVerifyComplete [if image.good then 0 else 1])
     else s))

/-- The verified image is written to the inactive slot and marked pending. -/
def execApplyComplete (s : State) : Host.Outcome State Fault Refusal :=
  .next (s.afterIn .board
    (match s.mgmt.update with
     | .verified m =>
       let k := 1 - s.glb.active
       let g := s.glb
       let g := if k = 0 then { g with slotA := some m } else { g with slotB := some m }
       ({ s with glb := { g with pendingSlot := some k, tried := false }, mgmt := { s.mgmt with update := .idle } } : State).emit
         (.pldm 0 pldmApplyComplete [0])
     | _ => s))

/-! ### The end of start-up (R371) -/

/-- Post-package repair takes at most eight of the units held out on each stack (Table 17.3). -/
def repairRows (v : Variant) : Assoc Nat Nat → List (Nat × Nat) → List (Nat × Nat)
  | _, [] => []
  | used, r :: rs =>
    let k := v.stackAt (r.1 * 512)
    let n := used.getD k 0
    if n < 8 then repairRows v (used.set k (n + 1)) rs else r :: repairRows v used rs

/-- Epoch 0 begins, planned to run for its length (R281, R287). -/
def State.firstEpoch (s : State) : State :=
  let l := s.fld Reg.pwrEpochCfg 26 16
  let w := s.fld Reg.pwrEnvelope 9 0
  { s with pwr := { s.pwr with
    epoch := 0, start := s.now, planned := s.now + usNs l, len := l, lenPrev := l, watts := w, grant := wattNs w (usNs l : Nat)
    spent := 0, residual := 0, charged := 0, reserveSpent := 0, classSpent := [], live := true } }

/-- Every island of the variant is `ON`, with its ports `DOWN` and its cores idle. -/
def State.allOn (s : State) : State :=
  s.forEach ((List.range 23).filter s.glb.variant.hasIsland) fun n t => (t.bringUp n).setIsland n .on

/-- Start-up finishes: the tried image becomes active, calibration is checked, rows are repaired, the audit ring is sealed and
the start-up entry written, and epoch 0 begins. -/
def State.ready (s : State) : State :=
  let g := s.glb
  let g := match g.pendingSlot with
    | some k => if g.tried then { g with active := k, pendingSlot := none, tried := false } else g
    | none => g
  let good := calValid g.calStored
  let s := { s with glb := { g with calDefault := !good } }
  let s := if good then s else s.fault (unitWord 0x01 0 2) 0x02 0
  let s := { s with flt := { s.flt with retired := repairRows s.glb.variant [] s.flt.retired } }
  let s := (s.sealSegment 2).auditIf 0x07 s.glb.cause
  ({ s with glb := { s.glb with phase := .ready } } : State).firstEpoch.allOn

/-- `GLB` reads `READY`. -/
def execStartupReady (s : State) : Host.Outcome State Fault Refusal :=
  .next (s.afterIn .startup (if s.glb.phase = .startup then s.ready else s))

/-! ### Pins (chapter 18) -/

/-- A sensor of the monitors reads above 120 °C (R399). -/
def execThermtrip (tenthC : Int) (s : State) : Host.Outcome State Fault Refusal :=
  .next (s.afterIn .board
    (if 1200 < tenthC ∧ s.glb.phase ≠ .off ∧ !s.glb.thermtrip then
       ({ s with glb := { s.glb with thermtrip := true } } : State).emit (.pin .thermtripN 0)
     else s))

/-- A rising edge of `STEPMARK_IN` of at least 8 ns (Table 18.10). -/
def State.stepmarkEdge (s : State) : State :=
  if s.smSrc ≠ 1 ∧ bit (s.reg Reg.glbPinmux) 0 then s.testTrigger else s.markFrom 1 s.now none

/-- A rising edge on the `STEPMARK_IN` land. -/
def execStepmarkIn (s : State) : Host.Outcome State Fault Refusal :=
  .next (s.afterIn .mark (if s.glb.phase = .ready ∨ s.glb.phase = .safe then s.stepmarkEdge else s))

/-- `STEPMARK_OUT` falls. -/
def execStepmarkOutPulseEnd (s : State) : Host.Outcome State Fault Refusal :=
  .next (s.afterIn .board
    (match s.glb.smoutUntil with
     | some t =>
       if t ≤ s.now then ({ s with glb := { s.glb with smoutUntil := none } } : State).emit (.pin .stepmarkOut 0) else s
     | none => s))

/-- The code on `CORE_VID` of a die (R386, R384, Table 18.12). -/
def State.coreVid (s : State) (die : Nat) : Nat :=
  if !s.glb.variant.hasAttn then 30
  else match s.glb.phase with
    | .off => 30
    | .safe => 30
    | .noImage => vidCode die 10
    | .startup => vidCode die 10
    | .ready => vidCode die (s.pwr.csyn die).now

/-- Whether trace capture is active (`LVE_DBG.TRACE_ON`): it is asked for, and no confidential domain shuts it (Table 14.11). -/
def State.traceOn (s : State) : Bool := bit (s.reg Reg.lveDbg) 29 && !s.confAny && decide (s.glb.phase = .ready)

/-- The level of an output land (Table 18.12): a code for `CORE_VID`, one bit for each of `CXL_PERST_N`[3:0], where 1 is released,
and one for each of `GPIO`[15:12], which carry the trace, a free value, where `GPIO_HI` selects it (R394). What Toluo's firmware
drives on them is a free value too (log entry 124). -/
def State.pinLevel (s : State) (p : Pin) : Nat :=
  let high := fun (b : Bool) => if b then (1 : Nat) else 0
  match p with
  | .coreVid0 => s.coreVid 0
  | .coreVid1 => s.coreVid 1
  | .gpioHi =>
    if s.glb.phase = .off ∨ s.glb.phase = .startup ∨ s.glb.phase = .noImage then 0
    else if s.fld Reg.glbPinmux 3 2 = 1 then (if s.traceOn then Config.gpioHi s.now % 16 else 0)
    else Config.gpioHi s.now % 16
  | .thermtripN => high (!s.glb.thermtrip)
  | .stepmarkOut => high (decide (s.glb.phase = .ready) && (s.glb.smoutUntil.map fun t => decide (s.now < t)).getD false)
  | .alertN =>
    high (decide (s.glb.phase = .ready)
      && (decide (s.pwr.standby = .standby) || !(s.flt.xlt.held || s.flt.lve.held || s.flt.evc.held)))
  | .onfiWpN =>
    high (decide (s.glb.phase = .ready) && decide (s.pwr.standby ≠ .standby) && s.glb.variant.hasFlash && s.islandOn peatIsland)
  | .cxlPerstN =>
    if s.glb.phase = .ready then
      sumNat ((List.range 4).map fun i =>
        if s.pwr.standby = .standby ∨ bit (s.reg (Reg.cxpCfg + cxpOff i)) 31 then 2 ^ i else 0)
    else 0

end Sys2Proof.Machine
end

