-- ==== Sys2Proof/Machine/RegRead.lean ====
section
/-! DEFINITION. Machine/RegRead.lean: what a read of a register returns (chapter 2, and the register tables of chapters 3 to
18). Quantities in MiB, KiB or °C are rounded down (log entry 60). -/

namespace Sys2Proof.Machine

/-- A flag at a bit place. -/
def flagAt (i : Nat) (b : Bool) : Nat := if b then 2 ^ i else 0

/-- A value at a bit place, saturated to `n` bits. -/
def satAt (lo n v : Nat) : Nat := min v (2 ^ n - 1) * 2 ^ lo

/-- The two's-complement form of `n` bits. -/
def signedBits (n : Nat) (v : Int) : Nat := (v % 2 ^ n).toNat

/-- The saturated two's-complement form of `n` bits. -/
def satSigned (n : Nat) (v : Int) : Nat := signedBits n (max (-(2 ^ (n - 1) - 1)) (min v (2 ^ (n - 1) - 1)))

/-- Low or high word of a 64-bit value. -/
def wordOf (v : Nat) (high : Bool) : Nat := if high then v / 2 ^ 32 % 2 ^ 32 else v % 2 ^ 32

/-- Bytes in MiB. -/
def mib (n : Nat) : Nat := n / 2 ^ 20

/-! ### Pages and headers (R29 to R34, R401) -/

/-- `PG_CAP.NPAGE` and `BLOCK_CAP` of a block. -/
def blockCap (v : Variant) (block : Nat) : Nat × Nat :=
  match block with
  | 0x01 => (3, 0)
  | 0x02 => (0, 0x500A02)
  | 0x03 => (3, 0x174006)
  | 0x04 => (2, 0x200810)
  | 0x05 => (0, 0x0C0300)
  | 0x06 => (0, if v.hasFlash then 0x0C0100 else 0x0C0040)
  | 0x07 => (7, 0x104400)
  | 0x08 => (1, if v.hasFlash then 0x40400F else 0x404007)
  | 0x09 => (1, 0x1C1620)
  | 0x0A => (1, 0x300C0F)
  | 0x0B => (1, 0x200807)
  | 0x10 => (2, 0x100C10)
  | 0x20 => (7, 0x081070)
  | 0x30 => (1, 0x080C10)
  | 0x31 => (1, 0x100B00)
  | 0x3F => (1, 0x103028)
  | _ => (0, 0)

/-- Whether an instance holds a register: instance 0 alone holds the device-wide registers and the ring page of `CWY`. -/
def heldBy (inst : Nat) (r : RegSpec) : Bool := inst == 0 || !(r.dev || (r.block == 0x20 && r.page == 7))

/-- Whether an instance has `RWL` fields (`PG_CAP.LOCKABLE`). -/
def lockable (block inst : Nat) : Bool :=
  (regsOf block).any fun r => heldBy inst r && r.fields.any fun f => f.acc == Access.rwl

/-- Whether a place is on an implemented page of a present instance (R2, R401). -/
def State.presentAt (s : State) (p : RegPlace) : Bool :=
  s.glb.variant.hasInst p.block p.inst && decide (p.page ≤ (blockCap s.glb.variant p.block).1)

/-- The register at a place. The ring page belongs to `CWY` instance 0 alone. -/
def regAt (p : RegPlace) : Option RegSpec :=
  if p.off < 0x40 ∨ (p.block = 0x20 ∧ p.page = 7 ∧ p.inst ≠ 0) then none else specAt p

/-- The distance from instance 0 of a block. -/
def RegPlace.instOff (p : RegPlace) : Nat :=
  ((blockMap.find? fun b => b.1 == p.block).map fun b => p.inst * b.2.2.2).getD (p.inst * 0x8000)

/-- The address at which an instance holds `PG_CTRL`, which has instance scope (R30). -/
def RegPlace.ctrl (p : RegPlace) (a : Nat) : Nat := a - p.page * 0x1000 - p.off + 0x08

/-- Whether an instance is locked (R35). -/
def State.lockedAt (s : State) (p : RegPlace) (a : Nat) : Bool := bit (s.reg (p.ctrl a)) 31

/-- The privileged unit that a block belongs to (R341). -/
def unitOfBlock (block : Nat) : Option PrivUnit :=
  if block = 0x07 then some .xlt else if block = 0x05 then some .lve else if block = 0x04 then some .evc else none

/-- Whether a block's unit is in warm reset or held (R341, R345). `GLB` shows `WARM` with its units, and its own registers stay
readable and writable (log entry 95). -/
def State.warmAt (s : State) (block : Nat) : Bool := ((unitOfBlock block).map fun u => !s.serves u).getD false

/-- `PG_STAT.STATE` of a page (R43, R341, R404). -/
def State.pageState (s : State) (p : RegPlace) : Nat :=
  match s.glb.phase with
  | .ready =>
    if p.block = 0x40 then (if s.bound p.inst then 1 else 0)
    else if p.block = 0x01 then (if s.serves .xlt && s.serves .lve && s.serves .evc then 1 else 4)
    else if s.warmAt p.block then 4 else 1
  | .safe => if p.block = 0x01 then 5 else if p.block = 0x40 ∧ !s.bound p.inst then 0 else 1
  | _ => 0

/-- A word of a page header (Table 2.2). -/
def State.headerWord (s : State) (p : RegPlace) (a : Nat) : Nat :=
  let cap := blockCap s.glb.variant p.block
  match p.off with
  | 0x00 => p.block * 2 ^ 24 + (if p.block = 0x40 then 0 else p.inst * 2 ^ 16) + p.page * 2 ^ 8 + 1
  | 0x04 =>
    2 ^ 31 + flagAt 30 (lockable p.block p.inst) + flagAt 29 (sourceOf p.block p.inst).isSome + cap.1 * 2 ^ 24 + cap.2
  | 0x08 => flagAt 31 (s.lockedAt p a)
  | 0x0C => s.pageState p * 2 ^ 28 + flagAt 27 (s.lockedAt p a)
  | 0x10 => s.reg a
  | 0x14 => s.reg a
  | 0x18 => s.reg a
  | 0x1C => s.reg a
  | _ => 0

/-! ### Registers that show the state of a unit -/

/-- `LVE_LC`, of which `GLB_LCSTATE` is a copy. -/
def State.lcWord (s : State) : Nat :=
  s.lve.lc.code * 2 ^ 28 + s.lve.intent.code * 2 ^ 24 + flagAt 23 s.lve.lcMarginal + flagAt 22 s.lve.lcCompleted

/-- `GLB_VARIANT` (chapter 2). -/
def Variant.word : Variant → Nat
  | .a8x4 => 0x8400 | .a8x2 => 0x8200 | .a4x2 => 0x4200 | .c8x4 => 0x8401 | .a8x4n => 0x8402

/-- `GLB_FWVER`: the version of the running image, or 0 where none runs. -/
def State.fwVersion (s : State) : Nat :=
  match s.glb.running with
  | some k => ((s.glb.image k).map fun m => m.version / 4 % 2 ^ 30 * 4 + flagAt 1 m.test + flagAt 0 (k == 1)).getD 0
  | none => 0

/-- Four bytes of a list as a register word; bytes beyond its end are 0. -/
def wordAt (b : List Byte) (i : Nat) : Nat := u32 b (4 * i)

/-- Domains whose park records await reinstatement, and retained T3 that no reinstated record claims, in GiB. -/
def State.parkStat (s : State) : Nat :=
  satAt 20 12 ((s.pea.parked.map Park.domain).eraseDups.length) + satAt 0 20 (sumNat (s.pea.retained.map Prod.snd) * 4096 / gib)

/-- `GLB` registers that are computed. -/
def State.readGlb (s : State) (page off : Nat) : Option Nat :=
  let g := s.glb
  let v := g.variant
  let a := v.hasAttn
  let f := s.flt
  match page, off with
  | 0, 0x40 => some (0x7840 * 2 ^ 16 + Config.stepping.toNat * 2 ^ 8)
  | 0, 0x44 => some v.word
  | 0, 0x48 => some (wordOf Config.serial.toNat false)
  | 0, 0x4C => some (wordOf Config.serial.toNat true)
  | 0, 0x50 => some s.lcWord
  | 0, 0x54 => some s.fwVersion
  | 0, 0x58 => some (s.reg Reg.glbPinmux % 2 ^ 31 + flagAt 31 (bit (s.reg Reg.glbPinmux) 0 && s.smSrc == 1))
  | 0, 0x60 => some (g.refAddr % 2 ^ 26)
  | 0, 0x64 => some (flagAt 31 g.refValid + g.refOrigin * 2 ^ 20 + g.refCode)
  | 1, 0x40 => some (if a then 0xFFFF1000 else 0)
  | 1, 0x44 => some (v.hbmMask * 2 ^ 24 + v.t0Gib)
  | 1, 0x48 => some (2 ^ v.ports - 1)
  | 1, 0x4C => some ((if v.hasFlash then 32 else 0) * 2 ^ 16 + 4 * 2 ^ 8 + 16)
  | 1, 0x50 => some (12 * 2 ^ 24 + 24 * 2 ^ 16 + 28 * 2 ^ 8 + if a then 64 else 0)
  | 1, 0x54 => some (0xC4 + (if a then 0x39 else 0) + flagAt 1 v.hasFlash)
  | 2, 0x44 => some (flagAt 31 f.xlt.warmSince.isSome + flagAt 30 f.lve.warmSince.isSome + flagAt 29 f.evc.warmSince.isSome
      + flagAt 28 (f.xlt.held || f.lve.held || f.evc.held)
      + (if f.xlt.held then 1 else if f.lve.held then 2 else if f.evc.held then 3 else 0) * 2 ^ 26 + f.fifo.length % 512)
  | 2, 0x68 => some (mib f.stranded % 2 ^ 32)
  | 2, 0x6C => some (sumNat (f.retired.map Prod.snd) / 1024 % 2 ^ 32)
  | 3, 0x40 => some (g.cause * 2 ^ 28 + flagAt 27 g.flushed + flagAt 26 g.wasSafe + flagAt 25 g.calDefault + flagAt 24 g.fallback)
  | 3, 0x44 =>
    let c := match g.calState with | .idle => 0 | .staged => 1 | .committing => 2 | .failed => 3
    some (s.reg Reg.glbCalCtl % 2 ^ 22 + c * 2 ^ 28)
  | 3, 0x48 => some (u32 g.calStored s.calAddr)
  | 3, 0x50 => some (if calValid g.calStored then u32 g.calStored 8 else 0)
  | 3, 0x94 => some s.parkStat
  | 2, o => if 0x80 ≤ o ∧ o < 0xA0 then some ((f.last.map fun r => wordAt r.bytes ((o - 0x80) / 4)).getD 0) else none
  | 3, o =>
    if 0x60 ≤ o ∧ o < 0x90 then some (if calValid g.calStored then wordAt (sha384 g.calStored) ((o - 0x60) / 4) else 0)
    else none
  | _, _ => none

/-- `CLK` registers that are computed; the PLLs are locked from the end of start-up on (log entry 61). -/
def State.readClk (s : State) (off : Nat) : Option Nat :=
  let p := s.pwr
  let csyn := fun (c : Csyn) => flagAt 31 c.pending + c.now % 16 * 2 ^ 8 + c.target % 16
  let off64 := signedBits 64 (p.tOff.getD 0)
  match off with
  | 0x40 => some 0xF8000000
  | 0x44 => some (csyn p.csyn0)
  | 0x48 => some (csyn p.csyn1)
  | 0x50 => some (wordOf s.now false)
  | 0x54 => some (wordOf s.now true)
  | 0x64 => some (flagAt 31 p.lock + flagAt 30 p.holdover + flagAt 29 p.tOff.isSome + satSigned 16 p.offset)
  | 0x68 => some (wordOf off64 false)
  | 0x6C => some (wordOf off64 true)
  | 0x70 => some (signedBits 32 p.rate)
  | _ => none

/-- `PWR_ISL_STATE`: two bits for each island. -/
def State.islandWord (s : State) : Nat :=
  sumNat ((List.range 23).map fun n =>
    (if !s.glb.variant.hasIsland n then 3 else match s.island n with | .on => 1 | .draining => 2 | _ => 0) * 4 ^ n)

/-- `PWR` registers that are computed. -/
def State.readPwr (s : State) (page off : Nat) : Option Nat :=
  let p := s.pwr
  let d := s.fld Reg.pwrDomSel 11 0
  let b := s.budget d
  let shown := fun (v : Nat) => some (if s.conf d then 0 else v)
  match page, off with
  | 0, 0x48 => some (wordOf p.epoch false)
  | 0, 0x4C => some (wordOf p.epoch true % 2 ^ 16)
  | 0, 0x50 => some (signedBits 32 s.spendable)
  | 0, 0x58 => some (signedBits 8 (p.hot / 10) * 2 ^ 24 + p.hotIdx % 64 * 2 ^ 16 + p.aNum * 256 / p.aDen % 512)
  | 0, 0x68 => some (signedBits 32 p.smLast)
  | 0, 0x6C => some (flagAt 2 p.resync + p.run % 4)
  | 1, 0x44 => shown b.nextRate
  | 1, 0x48 => shown (b.nextWeight * 2 ^ 24 + b.nextDepth)
  | 1, 0x4C => shown (signedBits 32 b.bucket)
  | 1, 0x50 => shown (flagAt 31 b.refusing + satAt 0 31 b.backlog)
  | 1, 0x64 => some (wordOf s.islandWord false)
  | 1, 0x68 => some (wordOf s.islandWord true)
  | 1, 0x70 =>
    let st := match p.standby with | .running => 0 | .quiescing => 1 | .standby => 2 | .waking => 3
    some (flagAt 31 (p.standby == .quiescing) + st * 2 ^ 28 + p.result * 2 ^ 24 + p.wakeSrc % 8)
  | 3, o =>
    if 0x80 ≤ o then
      let v := s.reg Reg.pwrHistSel
      let dom := bits v 27 16
      let q := if bits v 10 8 = 7 then bits v 7 0 else 0
      let dq := if bits v 10 8 = 7 then 0 else dom
      let n := if s.confAny then 0 else s.histRead (bits v 31 31) (bits v 10 8) q dq ((o - 0x80) / 8)
      some (wordOf n ((o - 0x80) % 8 == 4))
    else none
  | _, _ => none

/-- `EVC` registers that are computed. -/
def State.readEvc (s : State) (page off : Nat) : Option Nat :=
  if page ≠ 0 then none
  else if off = 0x54 then
    let v := s.reg Reg.evcRunsel
    let st := s.evcStack (if bit v 31 then toluoTarget else bits v 10 0)
    some ((st.head?.getD 0) * 2 ^ 28 + st.length * 2 ^ 16)
  else if 0x80 ≤ off ∧ off < 0x100 then some (s.pendWord ((off - 0x80) / 4))
  else if 0x100 ≤ off ∧ off < 0x180 then
    let st := match s.evc.groups.getD ((off - 0x100) / 4) .idle with | .idle => 0 | .holding _ => 1 | .released => 2
    some (s.reg (0x30000 + off) + st * 2 ^ 29)
  else none

/-- `LVE_MODE.DEV_MODE` as a number. -/
def State.soleMode (s : State) : Nat := if s.lve.sole.isSome then 1 else 0

/-- `LVE` registers that are computed. -/
def State.readLve (s : State) (off : Nat) : Option Nat :=
  let l := s.lve
  match off with
  | 0x40 => some (s.soleMode * 2 ^ 30 + flagAt 29 s.confAny + l.sole.getD 0 * 2 ^ 16 + s.liveDoms.length)
  | 0x44 => some s.lcWord
  | 0x4C =>
    let d := s.fld Reg.lveDomSel 11 0
    let x := s.dom d
    some (s.domCode d * 2 ^ 28 + flagAt 27 (s.conf d) + flagAt 26 x.t3Pend + (if s.conf d then 0 else x.pfxGen % 256) * 2 ^ 16)
  | 0x50 => some (flagAt 31 l.safe + l.cause % 8 * 2 ^ 28 + l.lastTrip % 4 * 2 ^ 26 + flagAt 25 l.keysHeld + satAt 0 16 l.trips)
  | 0x54 => some (satAt 16 16 l.marginal + l.corrected % 256 * 2 ^ 8)
  | 0x58 =>
    let v := s.reg Reg.lveDbg
    some (flagAt 31 (bit v 31) + flagAt 30 s.tapOpen + flagAt 29 (bit v 29)
      + flagAt 28 s.traceOn)
  | _ => none

/-- `AUD` registers that are computed. -/
def State.readAud (s : State) (off : Nat) : Option Nat :=
  let a := s.aud
  match off with
  | 0x40 =>
    let st := if !s.auditTakes then 2 else if a.segments.any (fun g => !g.written) then 1 else 0
    some (st * 2 ^ 30 + a.open_.length * 2 ^ 16 + s.auditFree)
  | 0x48 => some (wordOf a.nextEntry false)
  | 0x4C => some (wordOf a.nextEntry true)
  | 0x50 => some (wordOf a.nextSegment false)
  | 0x54 => some (wordOf a.nextSegment true)
  | 0x58 => some (wordOf a.acked false)
  | 0x5C => some (wordOf a.acked true)
  | _ => none

/-- Sequences, blocks or models of domains that are not confidential (R320). -/
def State.countOpen {α : Type} (s : State) (dom : α → Nat) (l : List α) : Nat := (l.filter fun x => !s.conf (dom x)).length

/-- `XLT` registers that are computed, for instance `i`. A cache is not part of the model: its hits and misses, and the longest
walk, are free values (log entry 62). -/
def State.readXlt (s : State) (i page off : Nat) : Option Nat :=
  let mine := s.xlt.seqs.filter fun e => e.1 % 2 == i
  let held := sumNat (mine.map fun e => e.2.held.length)
  let free := (Config.freeWord s.fresh).toNat
  let last := s.xlt.lastRef.get? i
  match page, off with
  | 0, 0x50 => some (mib s.ptrUse % 2 ^ 16)
  | 0, 0x58 => some free
  | 0, 0x5C => some free
  | 0, 0x60 => some free
  | 0, 0x64 => some free
  | 0, 0x68 => some free
  | 0, 0x6C => some (s.countOpen (fun (e : Nat × Seq) => e.2.domain) (s.xlt.seqs.filter fun e => decide (e.2.st ≠ .retired)))
  | 0, 0x70 => some (s.countOpen (fun (e : Nat × Bd) => e.2.domain) s.xlt.bds)
  | 0, 0x74 => some (s.countOpen (fun (e : (Nat × Nat) × Model) => e.1.1) s.xlt.models)
  | 1, 0x44 => some (flagAt 31 (held == 0) + satAt 0 16 held)
  | 1, 0x48 =>
    let open_ := fun (q : Seq) => (q.ptes.filter fun e => e.2.share.isNone && decide (e.2.fill < 16)).length
    some (sumNat ((mine.filter fun e => decide (e.2.st ≠ .retired)).map fun e => open_ e.2))
  | 1, 0x4C => some ((last.map fun r => 2 ^ 31 + r.domain * 2 ^ 16 + r.layer % 256 * 2 ^ 8 + r.code).getD 0)
  | 1, 0x50 => some ((last.map fun r => r.count % 32 * 2 ^ 24 + r.pos % 2 ^ 24).getD 0)
  | _, _ => none

/-- `SLC` registers that are computed. -/
def State.readSlc (s : State) (off : Nat) : Option Nat :=
  let d := s.fld Reg.slcDomSel 11 0
  let shown := fun (v : Nat) => some (if s.conf d then 0 else v)
  match off with
  | 0x48 =>
    some ((s.slc.moves.filter fun m => decide (m.st ≠ .queued)).length % 128 * 2 ^ 25 + s.slc.places.length % 512 * 2 ^ 16
      + s.linesFree * 4 % 2 ^ 16)
  | 0x50 => shown (s.slc.quota.getD d 0)
  | 0x54 => shown (mib (s.t0Use d) % 2 ^ 19)
  | 0x58 =>
    let pre := (s.xlt.seqs.filter fun e => e.2.domain == d && decide (e.2.st = .preempted)).length
    shown (satAt 16 16 pre + satAt 0 16 (s.slc.moves.filter fun m => m.domain == d).length)
  | 0x60 => some (mib s.t0Pool)
  | 0x64 => some (mib (s.lowerPool 1))
  | 0x68 => some (mib (s.lowerPool 2))
  | 0x6C => some (mib (s.lowerPool 3))
  | 0x70 => some (mib s.t0Free)
  | o =>
    if o = 0x74 ∨ o = 0x78 ∨ o = 0x7C then
      let t := (o - 0x70) / 4
      some (mib (s.lowerPool t - sumNat ((s.usedOf t).map Prod.snd)))
    else none

/-- `RBD` registers that are computed. -/
def State.readRbd (s : State) (off : Nat) : Option Nat :=
  let d := s.fld Reg.rbdDomSel 11 0
  let x := s.rbdDom d
  let shown := fun (v : Nat) => some (if s.conf d then 0 else v)
  let scanning := fun (p : ScanKind → Bool) => s.rbd.scans.any fun c => p c.kind
  match off with
  | 0x4C =>
    let sweep := scanning fun k => match k with | .floor _ => true | .purge => true | _ => false
    let rep := scanning fun k => match k with | .repair _ => true | .resolve => true | _ => false
    some (signedBits 8 s.rbd.temp * 2 ^ 24 + s.rbd.rateShift % 8 * 2 ^ 21 + flagAt 20 sweep + flagAt 19 rep + s.rbd.breaks.length)
  | 0x50 => some (s.entryCount fun _ => true)
  | 0x58 => shown x.quota
  | 0x5C => shown x.hot
  | 0x60 =>
    let st := if x.purging then 2 else if (s.dom d).keys.isSome then 1 else 0
    shown (st * 2 ^ 30 + flagAt 29 x.linear + s.entryCount fun e => e.domain == d)
  | 0x64 => shown x.floor
  | _ => none

/-- `SDG` registers that are computed. -/
def State.readSdg (s : State) (off : Nat) : Option Nat :=
  let d := s.fld Reg.sdgDomSel 11 0
  let x := s.sdg.doms.getD d {}
  match off with
  | 0x44 => some (s.sdg.queue.length * 4 * 2 ^ 16 + s.sdgCap * 4)
  | 0x4C => some (if s.conf d then 0 else flagAt 1 x.confOk + flagAt 0 x.en)
  | _ => none

/-- `PEA_STAT.PSTATE` as a number. -/
def PeatState.code : PeatState → Nat
  | .noFlash => 0 | .recovering => 1 | .ready => 2 | .formatting => 3 | .rebuilding => 4 | .readOnly => 5 | .failed => 6

/-- `PEA` registers that are computed. -/
def State.readPea (s : State) (off : Nat) : Option Nat :=
  let p := s.pea
  match off with
  | 0x4C => some (p.pstate.code * 2 ^ 28 + flagAt 27 p.geom.qlc + satAt 16 8 p.excluded.length + satAt 8 8 p.stripes.length)
  | 0x60 => some (p.lifePct % 256)
  | 0x68 => some (if s.t3Open then s.t3Gib else 0)
  | 0x6C => some (p.spareFmt / 1000 % 2 ^ 16 * 2 ^ 16 + p.spareNow / 1000 % 2 ^ 16)
  | 0x70 => some p.fine.length
  | 0x74 => some p.spread
  | 0x78 => some (s.ftimeNow % 2 ^ 32)
  | _ => none

/-- `ATC_CORE_STAT` of a core. -/
def State.coreWord (s : State) (c : Nat) : Nat :=
  let k := s.core c
  let st :=
    if s.coreOut c then 6
    else if !s.islandOn (c / 16) then 5
    else if s.flt.testCluster = some (c / 16) then 4
    else match k.st with | .idle => 0 | .throughput => 1 | .latency => 2 | .off => 5
  st * 2 ^ 28 + (if s.confAny then 0 else k.tDomain.getD 0) * 2 ^ 16 + flagAt 15 (s.att.lsActive && s.coreServes c)
    + flagAt 14 k.suspended.isSome

/-- `ATC` registers that are computed, for instance `i`. -/
def State.readAtc (s : State) (i page off : Nat) : Option Nat :=
  let cores := clusterCores i
  let count := fun (p : Core → Bool) => (cores.filter fun c => p (s.core c)).length
  match page, off with
  | 0, 0x44 => some (flagAt 31 s.att.lsActive + flagAt 30 s.att.lsPending + s.inService % 512)
  | 0, 0x4C =>
    let used := sumNat ((s.att.steps.filter fun t => !s.conf t.domain).map Step.spillOwned)
    some (s.fld Reg.atcSpillUse 31 16 * 2 ^ 16 + satAt 0 16 (mib used))
  | 0, 0x50 =>
    some (sumNat ((cores.filter s.coreServes).map fun c => 2 ^ (16 + c % 16)) + count (fun k => k.st == .latency) * 2 ^ 8
      + count (fun k => k.st == .throughput) + count (fun k => k.suspended.isSome))
  | 2, o => if 0x40 ≤ o ∧ o < 0x80 then some (s.coreWord (16 * i + (o - 0x40) / 4)) else none
  | _, _ => none

/-- `CWY_PORT_STAT.PSTATE` and `POWER` as numbers. -/
def PortState.code : PortState → Nat
  | .off => 0 | .down => 1 | .training => 2 | .linked => 3 | .ready => 4 | .retrain => 5 | .failed => 6

/-- A lane's status word: the locks of a lane that is not usable are free values (log entry 63). -/
def State.laneWord (s : State) (port n : Nat) : Nat :=
  let q := s.port port
  let usable := q.st != .off && !q.unusableLanes.contains n
  let free := (Config.freeWord s.fresh).toNat
  let lock := fun (i : Nat) => flagAt i (usable || bit free i)
  lock 31 + lock 30 + flagAt 29 usable + (q.heater.getD n 0) % 256 * 2 ^ 8

/-- A mask of port numbers. -/
def maskOf (l : List Nat) : Nat := sumNat (l.map fun p => 2 ^ p)

/-- The handshake that entry `n` of the session table of a port shows: those that hold a slot stand in the free entries, in
order (R255, log entry 87). -/
def State.shownHs (s : State) (port n : Nat) : Option Handshake :=
  let used := s.cwy.sessions.values.filterMap fun x => x.ports.get? port
  let before := ((List.range n).filter fun k => !used.contains (k + 1)).length
  (((s.port port).handshakes.filter fun h => h.slot && h.join.isNone).drop before).head?

/-- A word of the session table of a port: entry `n` shows `SID` `n` + 1. -/
def State.sessWord (s : State) (port n k : Nat) : Nat :=
  match s.cwy.sessions.find? fun e => e.2.ports.get? port == some (n + 1) with
  | none =>
    match s.shownHs port n with
    | some h =>
      let hide := s.conf h.domain
      match k with
      | 0 => 2 ^ 28 + (if hide then 0 else h.domain) * 2 ^ 16 + h.role % 256 * 2 ^ 8
      | 1 => if hide then 0 else wordOf h.sessionId false
      | 2 => if hide then 0 else wordOf h.sessionId true
      | _ => 0
    | none => 0
  | some (_, x) =>
    let hide := s.conf x.domain
    let st := match x.st with | .handshake => 1 | .attached => 2 | .detaching => 3
    match k with
    | 0 => st * 2 ^ 28 + (if hide then 0 else x.domain) * 2 ^ 16 + x.role % 256 * 2 ^ 8 + x.ports.length % 16
    | 1 => if hide then 0 else wordOf x.sessionId false
    | 2 => if hide then 0 else wordOf x.sessionId true
    | _ => maskOf x.ports.keys

/-- `CWY` registers that are computed, for port `i`. -/
def State.readCwy (s : State) (i page off : Nat) : Option Nat :=
  let q := s.port i
  match page, off with
  | 0, 0x54 =>
    let pw := match q.power with | .active => 0 | .quiet => 1 | .sleep => 2
    some (q.st.code * 2 ^ 28 + pw * 2 ^ 26 + q.lanes % 16 * 2 ^ 22 + flagAt 21 q.peerDev + (s.sessionsOn i).length % 32 * 2 ^ 16
      + (q.handshakes.filter Handshake.slot).length % 8)
  | 7, 0x44 => some (sumNat (s.usedSlots.map fun k => 2 ^ k))
  | 0, o => if 0x60 ≤ o ∧ o < 0x90 then some (wordAt q.peerHash ((o - 0x60) / 4)) else none
  | 2, o =>
    let n := (o - 0x40) / 8
    if (o - 0x40) % 8 = 4 then some (s.laneWord i n)
    else some (signedBits 16 (q.laser.getD n 0) * 2 ^ 16 + signedBits 16 (q.oma.getD n 0))
  | 3, o => some (s.sessWord i ((o - 0x40) / 16) ((o - 0x40) % 16 / 4))
  | 7, o =>
    if 0x48 ≤ o ∧ o < 0xC8 then
      let n := (o - 0x48) / 8
      let r := s.slot n
      let hide := s.conf r.domain
      let st := match r.st with | .free => 0 | .forming => 1 | .ready => 2 | .degraded => 3 | .leaving => 4
      if r.st = .free then some 0
      else if (o - 0x48) % 8 = 0 then some (st * 2 ^ 28 + (if hide then 0 else r.domain) * 2 ^ 16 + r.n % 128 * 2 ^ 9 + r.index % 64 * 8)
      else some ((if hide then 0 else r.ringId % 2 ^ 16) * 2 ^ 16 + satAt 0 16 (s.boundStripes n))
    else none
  | _, _ => none

/-- `HIF` registers that are computed. -/
def State.readHif (s : State) (off : Nat) : Option Nat :=
  let h := s.hif
  let f := s.func (s.fld Reg.hifVfSel 7 0 + 1)
  match off with
  | 0x40 => some (flagAt 31 h.linkUp + h.linkRate % 8 * 2 ^ 28 + h.linkWidth % 32 * 2 ^ 23 + flagAt 22 h.l0p + h.vfsEnabled % 512)
  | 0x48 => some (flagAt 31 f.bound + f.domain * 2 ^ 16 + f.rings)
  | 0x5C => some s.ringsAllotted
  | _ => none

/-- `CXP` registers that are computed, for port `i`. -/
def State.readCxp (s : State) (i off : Nat) : Option Nat :=
  let c := s.cxl i
  match off with
  | 0x44 =>
    let st := match c.st with | .down => 0 | .training => 1 | .discovering => 2 | .ready => 3 | .held => 4 | .refused => 5
    some (st * 2 ^ 28 + c.width % 32 * 2 ^ 23 + c.rate % 8 * 2 ^ 20 + min c.gib 2048)
  | 0x4C => some (wordOf c.serial false)
  | 0x50 => some (wordOf c.serial true)
  | _ => none

/-- Whether Table 15.9, R323 or R351 tracks a unit. -/
def State.tracked (s : State) (unit : Nat) : Bool :=
  let b := unit / 2 ^ 24
  let i := unit / 2 ^ 16 % 256
  let sub := unit / 2 ^ 8 % 256
  s.flt.history.has unit || (decide (b = 0x10) && s.glb.variant.hasInst b i && decide (i < 16) && decide (sub < 16 ∨ sub = 0x80))
    || (decide (b = 0x20) && decide (i < s.glb.variant.ports) && decide (sub < 8)) || decide (b = 0x04 ∨ b = 0x05 ∨ b = 0x07)
    || (decide (b = 0x38) && decide (i < 8) && s.glb.variant.hasInst b i)

/-- Events of a unit within the window of Table 15.9. -/
def State.windowEvents (s : State) (unit : Nat) : Nat :=
  let b := unit / 2 ^ 24
  match unitOfBlock b with
  | some u => (recent s.now (secNs 1) (s.unit3 u).times).length
  | none =>
    if b = 0x20 then
      let l := (s.port (unit / 2 ^ 16 % 256)).failures.filter fun e => e.2 == unit / 2 ^ 8 % 256
      (recent s.histNow day1 (l.map Prod.fst)).length
    else (recent s.histNow (if b = 0x38 then day1 else days30) (s.history unit).events).length

/-- `TST_HIST_STAT` of a unit. -/
def State.histWord (s : State) (unit : Nat) : Nat :=
  let h := s.history unit
  let n := s.windowEvents unit
  if !s.tracked unit then 3 * 2 ^ 30
  else (if h.permanent then 2 else if n ≠ 0 then 1 else 0) * 2 ^ 30 + satAt 16 8 n
    + satAt 8 8 (recent s.histNow days30 h.stressed).length

/-- `TST` registers that are computed. -/
def State.readTst (s : State) (off : Nat) : Option Nat :=
  let f := s.flt
  match off with
  | 0x44 =>
    some (flagAt 31 f.testCluster.isSome + (f.testCluster.getD f.testLast) % 16 * 2 ^ 27 + f.testItem % 128 * 2 ^ 20
      + flagAt 19 (f.testFails.contains 16) + sumNat ((f.testFails.filter (· < 16)).eraseDups.map fun n => 2 ^ n))
  | 0x4C => some (s.histWord (s.reg Reg.tstHistSel))
  | _ => none

/-- `DOM_BUSY` of a function (R322): the work of its own domain. -/
def State.busyWord (s : State) (fn : Nat) : Nat :=
  let f := s.func fn
  let d := f.domain
  let stall := s.slc.stalls.any fun x => x.domain == d
  let n := sumNat (f.ringTab.map fun r => (r.2.inflight.filter fun c => !c.discard).length)
  if !s.bound fn then 0
  else flagAt 31 (s.budget d).refusing + flagAt 30 (s.slc.moves.any fun m => m.domain == d) + flagAt 29 stall + satAt 0 16 n

/-- `DOM_MODE` of a function. -/
def State.modeWord (s : State) (fn : Nat) : Nat :=
  let d := (s.func fn).domain
  let own :=
    if !s.bound fn then 0
    else flagAt 29 (s.conf d) + (if fn = 0 then 2 else s.domCode d) * 2 ^ 24 + (s.dom d).pfxGen % 256 * 2 ^ 8
      + flagAt 0 (s.sdg.doms.getD d {}).confOk
  s.soleMode * 2 ^ 30 + s.lve.lc.code * 2 ^ 20 + own

/-- `DOM` registers that are computed, for a function. -/
def State.readDom (s : State) (fn off : Nat) : Option Nat :=
  let f := s.func fn
  let r := s.ring fn f.ringSel
  match off with
  | 0x40 => some (flagAt 31 (s.bound fn) + (if s.bound fn then f.domain else 0) * 2 ^ 16 + fn)
  | 0x44 => some (if s.bound fn then f.rings else 0)
  | 0x48 => some (s.busyWord fn)
  | 0x4C => some (s.modeWord fn)
  | 0x60 => some f.ringSel
  | 0x64 => some (wordOf r.sqBase false)
  | 0x68 => some (wordOf r.sqBase true)
  | 0x6C => some (wordOf r.cqBase false)
  | 0x70 => some (wordOf r.cqBase true)
  | 0x74 => some (flagAt 31 (r.st == .active) + r.sqLog2 % 32 * 2 ^ 21 + r.cqLog2 % 32 * 2 ^ 16 + r.vector % 2048)
  | 0x78 => some (r.irqCount % 2 ^ 16 * 2 ^ 16 + r.irqUs % 2 ^ 16)
  | 0x7C =>
    let st := match r.st with | .disabled => 0 | .active => 1 | .draining => 2 | .error => 3
    some (st * 2 ^ 28 + r.cause % 16 * 2 ^ 24 + r.sqHead % 2 ^ 16)
  | _ => none

/-- The computed value of a register, where it has one. -/
def State.computed (s : State) (p : RegPlace) : Option Nat :=
  match p.block with
  | 0x01 => s.readGlb p.page p.off
  | 0x02 => s.readClk p.off
  | 0x03 => s.readPwr p.page p.off
  | 0x04 => s.readEvc p.page p.off
  | 0x05 => s.readLve p.off
  | 0x06 => s.readAud p.off
  | 0x07 => s.readXlt p.inst p.page p.off
  | 0x08 => if p.page = 0 then s.readSlc p.off else none
  | 0x09 => if p.page = 0 then s.readRbd p.off else none
  | 0x0A => if p.page = 0 then s.readSdg p.off else none
  | 0x0B => if p.page = 0 then s.readPea p.off else none
  | 0x10 => s.readAtc p.inst p.page p.off
  | 0x20 => s.readCwy p.inst p.page p.off
  | 0x30 => if p.page = 0 then s.readHif p.off else none
  | 0x31 => if p.page = 0 then s.readCxp p.inst p.off else none
  | 0x3F => if p.page = 0 then s.readTst p.off else none
  | 0x40 => s.readDom p.inst p.off
  | _ => none

/-- A stored register, or a 64-bit counter by its two words; the three counters of 32 bits saturate (Table 5.11). -/
def State.plain (s : State) (p : RegPlace) (r : RegSpec) (a : Nat) : Nat :=
  let ro := r.fields.all fun f => f.acc == Access.ro
  if p.block = 0x10 ∧ p.page = 1 ∧ 0xA8 ≤ p.off then min (s.ctrs.getD a 0) (2 ^ 32 - 1)
  else if ro && r.wide then wordOf (s.ctrs.getD a 0) false
  else if ro then wordOf (s.ctrs.getD (a - 4) 0) true
  else s.reg a

/-- Registers that only the field test of attention cores uses; `C` variants have none (R3). -/
def testOnly (p : RegPlace) : Bool :=
  p.block == 0x3F && (p.page == 1 || p.off == 0x40 || p.off == 0x44 || p.off == 0x54)

/-- Bits of the PBA of a function, from a vector on. -/
def Func.pbaWord (f : Func) (first : Nat) : Nat := sumNat ((f.pba.filter fun v => v / 32 == first / 32).map fun v => 2 ^ (v % 32))

/-- The MSI-X table entry word or PBA word at an address, by function (R261): vector and word, or first vector. -/
inductive MsixAt where
  | table (fn vector word : Nat)
  | pba (fn first : Nat)
  deriving DecidableEq, Repr

/-- The MSI-X structure at an address. -/
def msixAt (a : Nat) : Option MsixAt :=
  if 0x320000 ≤ a ∧ a < 0x328000 then some (.table 0 ((a - 0x320000) / 16) ((a - 0x320000) % 16 / 4))
  else if 0x328000 ≤ a ∧ a < 0x328100 then some (.pba 0 ((a - 0x328000) / 4 * 32))
  else if domBase + 0x8000 ≤ a then
    let fn := (a - domBase) / 0x8000
    let o := (a - domBase) % 0x8000
    if 256 < fn then none
    else if 0x800 ≤ o ∧ o < 0x900 then some (.table fn ((o - 0x800) / 16) ((o - 0x800) % 16 / 4))
    else if 0x900 ≤ o ∧ o < 0x908 then some (.pba fn ((o - 0x900) / 4 * 32))
    else none
  else none

/-- A word of an MSI-X structure. -/
def State.msixWord (s : State) (m : MsixAt) (a : Nat) : Nat :=
  match m with
  | .table fn v 3 => flagAt 0 ((s.func fn).masked.contains v)
  | .table _ _ _ => s.reg a
  | .pba fn v => (s.func fn).pbaWord v

/-- Whether an address lies in BAR0 or in a BAR2 window (R26, R42). -/
def addrExists (a : Nat) : Bool := decide (a < domBase + 257 * 0x8000)

/-- Whether an origin reaches an address (R26, R42): PF0 reaches BAR0 and its own window, a VF its own window, Toluo BAR0, and
JTAG BAR0 while the TAP is open. -/
def State.reaches (s : State) (o : Origin) (a : Nat) : Bool :=
  match o with
  | .pf0 => (s.glb.phase == .ready || s.glb.phase == .safe) && decide (a < domBase + 0x8000)
  | .vf n => (s.glb.phase == .ready || s.glb.phase == .safe) && decide (domReg (n + 1) 0 ≤ a) && decide (a < domReg (n + 2) 0)
  | .toluo => (s.glb.phase == .ready || s.glb.phase == .safe || s.glb.phase == .startup) && decide (a < domBase)
  | .jtag => s.tapOpen && decide (a < domBase)

/-- The word that a register reads as. -/
def State.readReg (s : State) (a : Nat) : Nat :=
  match msixAt a with
  | some m => s.msixWord m a
  | none =>
    match placeOf a with
    | none => 0
    | some p =>
      if !s.presentAt p then 0
      else if p.off < 0x40 then s.headerWord p a
      else
        match regAt p with
        | none => 0
        | some r =>
          let p := if r.dev then { p with inst := 0 } else p
          let a := if r.dev then a - ((placeOf a).map RegPlace.instOff).getD 0 else a
          if s.warmAt p.block || (s.glb.phase == .safe && !(p.block == 0x01 || p.block == 0x05)) then 0
          else if testOnly p && !s.glb.variant.hasAttn then 0
          else (s.computed p).getD (s.plain p r a)

end Sys2Proof.Machine
end

