-- ==== Sys2Proof/Machine/RegWrite.lean ====
section
/-! DEFINITION. Machine/RegWrite.lean: the write of any register: access types, locks, ranges, refusals in the order of Table
2.3, the audit log, and what the written value makes the device do (chapter 2, R329, R331). -/

namespace Sys2Proof.Machine

/-! ### Fields -/

/-- The bits of a field. -/
def FieldSpec.mask (f : FieldSpec) : Nat := (2 ^ (f.hi + 1 - f.lo) - 1) * 2 ^ f.lo

/-- The bits of some fields. -/
def maskOfFields (l : List FieldSpec) : Nat := l.foldl (fun m f => m ||| f.mask) 0

/-- Set a header bit of `PG_ERR` of the page of an address. -/
def State.pageErr (s : State) (p : RegPlace) (a b : Nat) : State :=
  let e := a - p.off + 0x10
  s.setReg e (s.reg e ||| 2 ^ b)

/-- `GLB_REFUSE_INFO.ORIGIN`. -/
def Origin.refuseCode : Origin → Nat
  | .toluo => 1
  | .jtag => 2
  | _ => 0

/-- Whether a write comes from a function of a confidential domain. -/
def State.confOrigin (s : State) (o : Origin) : Bool :=
  match o with
  | .vf n => s.conf (s.func (n + 1)).domain
  | _ => false

/-- A write is refused: `PG_ERR.REFUSED`, and the record unless one is held (R37) or the write is a confidential domain's
(Table 14.11). -/
def State.refuseWriteReg (s : State) (o : Origin) (p : RegPlace) (a : Nat) (code : Status) : State :=
  let s := s.pageErr p a 28
  if s.glb.refValid || s.confOrigin o then s
  else { s with glb := { s.glb with refValid := true, refAddr := a, refOrigin := o.refuseCode, refCode := code.code } }

/-- A privileged write is refused because the audit area is full (R331). -/
def State.refuseFull (s : State) (o : Origin) (p : RegPlace) (a : Nat) : State := (s.auditRefuse).refuseWriteReg o p a .logFull

/-! ### Ranges -/

/-- The fields, by their lowest bits, that a value leaves unchanged because it is out of range, and the error that it sets. -/
def State.outOfRange (s : State) (o : Origin) (p : RegPlace) (v : Nat) : List Nat × Option (Nat × Nat) :=
  let bad := fun (b : Bool) (l : List Nat) (e : Nat × Nat) => if b then (l, some e) else (([] : List Nat), (none : Option (Nat × Nat)))
  let within := fun (lo hi x : Nat) => decide (lo ≤ x) && decide (x ≤ hi)
  match p.block, p.page, p.off with
  | 0x02, 0, 0x44 => bad (!within (s.fld Reg.pwrDvfs 3 0) (s.fld Reg.pwrDvfs 11 8) (bits v 3 0)) [0] Err.clkRange
  | 0x02, 0, 0x48 => bad (!within (s.fld Reg.pwrDvfs 3 0) (s.fld Reg.pwrDvfs 11 8) (bits v 3 0)) [0] Err.clkRange
  | 0x03, 0, 0x40 => bad (!within 300 820 (bits v 9 0)) [0] Err.pwrRange
  | 0x03, 0, 0x44 => bad (!within 50 2000 (bits v 26 16)) [16] Err.pwrRange
  | 0x03, 0, 0x54 => bad (decide (bits v 7 0 ≤ bits v 15 8) || decide (104 < bits v 7 0)) [0, 8] Err.pwrRange
  | 0x03, 0, 0x5C =>
    let hi := decide (11 < bits v 11 8)
    let lo := decide (bits v 3 0 < 6)
    bad (hi || lo) ((if hi then [8] else []) ++ if lo then [0] else []) Err.pwrRange
  | 0x04, 1, off => bad (s.routeRefused o ((off - 0x40) / 4) v) [31, 30, 16, 0] Err.evcRoute
  | 0x04, 2, off => bad (s.routeRefused o ((off - 0x40) / 4 + 512) v) [31, 30, 16, 0] Err.evcRoute
  | 0x07, 0, 0x48 => bad (!within 4 32 (bits v 5 0)) [0] Err.xltRange
  | 0x08, 0, 0x44 => bad (!within 16 56 (bits v 5 0)) [0] Err.slcStage
  | 0x08, 0, 0x50 =>
    let d := s.fld Reg.slcDomSel 11 0
    let excess := decide (s.t0Pool < (s.quotaSum - s.slc.quota.getD d 0 + bits v 15 0) * gib)
    bad (excess || (s.conf d && bits v 15 0 == 0)) [0] Err.slcQuota
  | 0x09, 0, 0x5C =>
    let d := s.fld Reg.rbdDomSel 11 0
    let others := sumNat ((s.rbd.doms.filter fun e => e.1 != d).map fun e => e.2.hot)
    bad (decide (16384 < others + bits v 14 0)) [0] Err.rbdHotOver
  | 0x0B, 0, 0x44 =>
    let op := !within 7 50 (bits v 31 24)
    let mt := !within 64 4096 (bits v 15 0)
    bad (op || mt) ((if op then [24] else []) ++ if mt then [0] else []) Err.peaRange
  | 0x0B, 0, 0x58 => bad (decide (bits v 31 24 ≤ bits v 23 16)) [24, 16] Err.peaRange
  | 0x10, 0, 0x40 => bad (decide (6 < bits v 19 16)) [] Err.atcRange
  | 0x10, 0, 0x48 => bad (decide (64 < bits v 6 0)) [0] Err.atcRange
  | 0x30, 0, 0x54 => bad (decide (16384 < bits v 14 0)) [0] Err.hifRange
  | _, _, _ => ([], none)

/-! ### What R37 refuses -/

/-- Whether `SOLE` mode leaves a register to the operator (Table 14.4, R364). -/
def soleGrants (p : RegPlace) : Bool :=
  p.block == 0x06 ||
  [(0x03, 0, 0x40), (0x03, 0, 0x54), (0x03, 0, 0x5C), (0x03, 1, 0x60), (0x03, 1, 0x70), (0x02, 0, 0x44), (0x02, 0, 0x48),
    (0x01, 0, 0x5C), (0x04, 0, 0x48), (0x04, 0, 0x4C)].contains (p.block, p.page, p.off)

/-- Whether `SOLE` mode refuses a write of a register (R309). The window of a VF belongs to its domain and not to the operator;
that of PF0, at instance 0, is the operator's. -/
def State.soleDenies (s : State) (p : RegPlace) : Bool :=
  s.lve.sole.isSome && !(p.block == 0x40 && p.inst != 0) && !soleGrants p

/-- Whether Levee's mode excludes a write (R309, R357). -/
def State.deniedWrite (s : State) (p : RegPlace) (v : Nat) : Bool :=
  s.soleDenies p || (p.block == 0x3F && p.off == 0x50 && bit v 31 && (s.history (s.reg Reg.tstHistSel)).byMonitor)

/-- Whether two runs of bytes meet. -/
def meet (x y : Nat × Nat) : Bool := decide (x.1 < y.1 + y.2) && decide (y.1 < x.1 + x.2)

/-- Whether every two of the listed regions are apart. -/
def apart : List (Nat × Nat) → Bool
  | [] => true
  | x :: xs => xs.all (fun y => !meet x y) && apart xs

/-- Whether the placed regions of T0 are apart and within T0 (R47). -/
def State.regionsOk (s : State) : Bool :=
  apart (s.t0Regions.filter fun r => r.2 != 0) && s.t0Regions.all fun r => decide (r.1 + r.2 ≤ s.t0Bytes)

/-- Whether placed regions hold an extent of the T0 pool of the state `s` before the write. -/
def State.takesExtents (s t : State) : Bool :=
  (s.slc.extents.filter fun e => e.1.tier == 0 && !s.inPtr (e.1.addr * 512)).any fun e =>
    t.t0Regions.any fun r => meet r (e.1.addr * 512, e.2.1)

/-- Whether a place is one of the region registers of R47. -/
def isRegionReg (p : RegPlace) : Bool :=
  [(0x07, 0, 0x40), (0x07, 0, 0x44), (0x07, 0, 0x48), (0x09, 0, 0x40), (0x09, 0, 0x44), (0x10, 0, 0x48)].contains
    (p.block, p.page, p.off)

/-- The state in which a region register holds a value: a write of a base places its region (R47). -/
def State.withRegion (s : State) (p : RegPlace) (a v : Nat) : State :=
  let t := s.setReg a v
  if p.block = 0x07 ∧ p.off ≠ 0x48 then { t with xlt := { t.xlt with placed := true } }
  else if p.block = 0x09 then { t with rbd := { t.rbd with placed := true } }
  else t

/-- T0 bytes that the structures of a format with `OP_PCT` = `op` leave as working area (R193). -/
def State.workArea (s : State) (op : Nat) : Int :=
  let t := s.setPea fun p => { p with opPct := op }
  let g := s.pea.geom
  (24 * gib : Nat) - ((t.t3Gib * 16384 * 5 + 128 * 2 ^ 20 + g.targets * g.luns * g.blocks * 32 : Nat) : Int)

/-- Whether the chapter of a register refuses its value with `E_FORMAT` (Table 2.3, row 4). -/
def State.formatRefused (s : State) (p : RegPlace) (a v new : Nat) : Bool :=
  match p.block, p.page, p.off with
  | 0x0B, 0, 0x48 => bit v 31 && decide (s.workArea (s.fld Reg.peaFmt 31 24) < 256 * 2 ^ 20)
  | 0x01, 3, 0x44 => bit v 31 && !calValid s.glb.staged
  | 0x09, 0, 0x48 => bit v 31 && !s.rbd.placed
  | _, _, _ => isRegionReg p && !(s.withRegion p a new).regionsOk

/-- Whether anything lives in the page-table region (R47). -/
def State.ptrInUse (s : State) : Bool :=
  s.xlt.seqs.any (fun e => decide (e.2.st ≠ .retired)) || s.xlt.objs.any (fun e => e.2.live) || !s.xlt.models.isEmpty

/-- Whether the resource of a register is in use (Table 2.3, row 5). -/
def State.busyRefused (s : State) (p : RegPlace) (a v new : Nat) : Bool :=
  let t := s.withRegion p a new
  let changes := decide (s.reg a ≠ new) || t.xlt.placed != s.xlt.placed || t.rbd.placed != s.rbd.placed
  let tier := fun (n : Nat) => s.slc.extents.any fun e => e.1.tier == n
  match p.block, p.page, p.off with
  | 0x02, 0, 0x44 => bit (s.reg Reg.pwrDvfs) 31
  | 0x02, 0, 0x48 => bit (s.reg Reg.pwrDvfs) 31
  | 0x01, 3, 0x90 => bit v 31 && (s.pea.parked.map Park.domain).any s.reinstating
  | 0x07, 0, _ => isRegionReg p && ((changes && s.ptrInUse) || s.takesExtents t)
  | 0x09, 0, _ =>
    isRegionReg p && ((changes && (bit (s.reg Reg.rbdCfg) 31 || decide (0 < s.entryCount fun _ => true))) || s.takesExtents t)
  | 0x10, 0, 0x48 => decide (s.att.spillUsed ≠ 0) || s.takesExtents t
  | 0x08, 0, 0x44 => !s.linesHeld.isEmpty || !s.sdg.queue.isEmpty
  | 0x0B, 0, 0x48 => bit v 31 && (tier 3 || s.pea.pstate == .recovering)
  | 0x30, 0, 0x4C => tier 2
  | 0x30, 0, 0x50 => tier 2
  | 0x30, 0, 0x54 => tier 2
  | 0x31, 0, 0x40 => bit (s.reg a) 31 && !bit v 31 && s.cxlHolds p.inst
  | _, _, _ => false

/-! ### Privileged changes (Table 14.19) -/

/-- Selectors, `SCRATCH`, counter restarts, staging writes, acknowledgements and `GLB_RSTCTL`: their writes are not recorded. -/
def unrecorded (p : RegPlace) : Bool :=
  [(0x03, 1, 0x40), (0x03, 3, 0x40), (0x08, 0, 0x4C), (0x09, 0, 0x54), (0x0A, 0, 0x48), (0x05, 0, 0x48), (0x04, 0, 0x50),
    (0x30, 0, 0x44), (0x3F, 0, 0x48), (0x07, 0, 0x68), (0x10, 0, 0x4C), (0x20, 7, 0x138), (0x01, 3, 0x44), (0x01, 3, 0x4C),
    (0x04, 0, 0x48), (0x04, 0, 0x4C), (0x01, 0, 0x5C)].contains (p.block, p.page, p.off)
    || (p.block == 0x01 && p.page == 0 && decide (0x70 ≤ p.off))

/-- Registers that act on the 1s written and store nothing. -/
def actionReg (p : RegPlace) : Bool :=
  [(0x0B, 0, 0x48), (0x31, 0, 0x48), (0x30, 0, 0x58), (0x3F, 0, 0x50), (0x3F, 0, 0x54), (0x01, 3, 0x90)].contains
    (p.block, p.page, p.off)

/-- Whether a write commits a calibration set or formats T3: a persistent change, which the write itself records. -/
def State.persistent (s : State) (p : RegPlace) (v : Nat) : Bool :=
  bit v 31 && ((p.block == 0x01 && p.page == 3 && p.off == 0x44 && s.glb.calState != .committing)
    || (p.block == 0x0B && p.off == 0x48 && p.page == 0 && s.formats))

/-- The kind that the log gives a write of a register whose fields `takes` take the value, none where it is not privileged. -/
def State.kindOf (s : State) (p : RegPlace) (v : Nat) (takes : List FieldSpec) : Option Nat :=
  let sets := takes.any fun f => f.acc == Access.rw || f.acc == Access.rwl || f.acc == Access.wo
  if p.block = 0x40 ∨ !sets || unrecorded p then none
  else if p.block = 0x30 ∧ p.page = 0 ∧ p.off = 0x48 then (if (s.vfBind v).hif.funcs ≠ s.hif.funcs then some 2 else none)
  else if actionReg p then
    if v &&& maskOfFields takes = 0 then none
    else if p.block = 0x31 ∨ p.block = 0x30 then some 3
    else if p.block = 0x0B ∧ !bit v 30 then none
    else some 1
  else if p.block = 0x08 ∧ p.page = 0 ∧ p.off = 0x50 then some 3
  else some 1

/-- The domain that an entry concerns. -/
def State.domainAt (s : State) (p : RegPlace) (v : Nat) : Nat :=
  match p.block, p.page, p.off with
  | 0x08, 0, 0x50 => s.fld Reg.slcDomSel 11 0
  | 0x03, 1, 0x44 => s.fld Reg.pwrDomSel 11 0
  | 0x03, 1, 0x48 => s.fld Reg.pwrDomSel 11 0
  | 0x09, 0, 0x58 => s.fld Reg.rbdDomSel 11 0
  | 0x09, 0, 0x5C => s.fld Reg.rbdDomSel 11 0
  | 0x0A, 0, 0x4C => s.fld Reg.sdgDomSel 11 0
  | 0x30, 0, 0x48 => if bit v 31 then bits v 27 16 else (s.func (s.fld Reg.hifVfSel 7 0 + 1)).domain
  | _, _, _ => 0

/-! ### What a written value does -/

/-- Step Mark keeps the land against the selection: `PWR_ERR.PINMUX` (R283, Table 18.10). -/
def State.pinConflict (s : State) : State :=
  if bit (s.reg Reg.glbPinmux) 0 ∧ s.smSrc = 1 then s.setErr Err.pwrPinmux else s

/-- `GLB` and the calibration set. -/
def State.actGlb (s : State) (o : Origin) (p : RegPlace) (v : Nat) : State :=
  match p.page, p.off with
  | 0, 0x58 =>
    let s := s.pinConflict
    if !bit (s.reg Reg.glbPinmux) 7 && s.glb.smoutUntil.isSome then
      ({ s with glb := { s.glb with smoutUntil := none } } : State).emit (.pin .stepmarkOut 0)
    else s
  | 0, 0x5C => s.rstctl o v
  | 0, 0x64 => if bit v 31 then { s with glb := { s.glb with refValid := false } } else s
  | 3, 0x44 =>
    let s := if bit v 31 ∧ s.glb.calState ≠ .committing then s.calCommit o.who else s
    if bit v 30 then s.calDiscard else s
  | 3, 0x4C => s.calWrite v
  | 3, 0x90 => if bit v 31 then s.t3Release else s
  | _, _ => s

/-- `PWR` and `CLK`. -/
def State.actPwr (s : State) (o : Origin) (p : RegPlace) (v : Nat) (takes : List FieldSpec) : State :=
  let d := s.fld Reg.pwrDomSel 11 0
  match p.block, p.page, p.off with
  | 0x02, 0, 0x44 => if takes.any (fun f => f.lo == 0) then s.csynTarget 0 (bits v 3 0) else s
  | 0x02, 0, 0x48 => if takes.any (fun f => f.lo == 0) then s.csynTarget 1 (bits v 3 0) else s
  | 0x03, 0, 0x44 => s.pinConflict
  | 0x03, 1, 0x44 => s.setBudget d fun b => { b with nextRate := bits v 23 0 }
  | 0x03, 1, 0x48 => s.setBudget d fun b => { b with nextWeight := bits v 31 24, nextDepth := bits v 23 0 }
  | 0x03, 1, 0x60 => s.islandReq v
  | 0x03, 1, 0x70 =>
    let s := if bit v 31 then s.standbyReq else s
    if bit v 30 && o == .toluo then s.wakeSource 3 else s
  | 0x03, 3, 0x40 =>
    if bit v 30 then
      let host := decide (bits v 10 8 = 7)
      s.histClear (bits v 31 31) (bits v 10 8) (if host then bits v 7 0 else 0) (if host then 0 else bits v 27 16)
    else s
  | _, _, _ => s

/-- `EVC`. -/
def State.actEvc (s : State) (p : RegPlace) (v : Nat) : State :=
  if p.page ≠ 0 then s
  else if p.off = 0x48 then s.eoi v
  else if p.off = 0x4C then s.swSet v
  else if 0xC0 ≤ p.off ∧ p.off < 0x100 then s.pendClear ((p.off - 0x80) / 4) v
  else s

/-- The stores and the index: `XLT`, `SLC`, `RBD`, `SDG` and `PEA`. -/
def State.actStore (s : State) (o : Origin) (p : RegPlace) (v : Nat) (takes : List FieldSpec) : State :=
  match p.block, p.page, p.off with
  | 0x07, 0, 0x40 => if takes.isEmpty then s else { s with xlt := { s.xlt with placed := true } }
  | 0x07, 0, 0x44 => if takes.isEmpty then s else { s with xlt := { s.xlt with placed := true } }
  | 0x07, 1, 0x4C => if bit v 31 then { s with xlt := { s.xlt with lastRef := s.xlt.lastRef.erase p.inst } } else s
  | 0x08, 0, 0x50 =>
    if takes.isEmpty then s
    else { s with slc := { s.slc with quota := s.slc.quota.set (s.fld Reg.slcDomSel 11 0) (bits v 15 0) } }
  | 0x09, 0, 0x40 => if takes.isEmpty then s else { s with rbd := { s.rbd with placed := true } }
  | 0x09, 0, 0x44 => if takes.isEmpty then s else { s with rbd := { s.rbd with placed := true } }
  | 0x09, 0, 0x58 => s.setRbdDom (s.fld Reg.rbdDomSel 11 0) fun x => { x with quota := bits v 28 0 }
  | 0x09, 0, 0x5C =>
    if takes.isEmpty then s
    else
      let n := bits v 14 0
      s.setRbdDom (s.fld Reg.rbdDomSel 11 0) fun x => { x with hot := n, lines := x.lines.drop (x.lines.length - n) }
  | 0x0A, 0, 0x4C =>
    let d := s.fld Reg.sdgDomSel 11 0
    { s with sdg := { s.sdg with doms := s.sdg.doms.set d { s.sdg.doms.getD d {} with en := bit v 0 } } }
  | 0x0B, 0, 0x48 =>
    let s := if bit v 30 then s.setPea fun q => { q with ckptAsked := true } else s
    if bit v 31 && s.formats then s.auditPersist 0 o.who 0x06 Reg.peaCtl [] (leBytes 4 (s.reg Reg.peaFmt)) .format else s
  | _, _, _ => s

/-- The engines and ports: `ATC`, `CWY`, `HIF`, `CXP` and `TST`. `old` is the register before the write. -/
def State.actPorts (s : State) (p : RegPlace) (v old : Nat) (takes : List FieldSpec) : State :=
  match p.block, p.page, p.off with
  | 0x10, 0, 0x40 =>
    if takes.any fun f => f.lo == 31 then
      let s := if bit old 31 != bit v 31 then { s with att := { s.att with lsPending := true } } else s
      if s.flt.testCluster.isSome then { s with flt := { s.flt with testAbandon := true } } else s
    else s
  | 0x20, 0, 0x50 =>
    if bit old 31 && !bit v 31 then s.forEach (s.sessionsOn p.inst) fun i t => t.portDetach i p.inst 7 else s
  | 0x30, 0, 0x48 => s.vfBind v
  | 0x30, 0, 0x58 => if bit v 31 then s.abandon fun h => h.tier == 2 else s
  | 0x31, 0, 0x40 =>
    let s := if bit old 31 == bit v 31 then s else s.emit (.pin .cxlPerstN (s.pinLevel .cxlPerstN))
    if !bit v 31 && (s.cxl p.inst).st != .down then
      (s.setCxl p.inst fun c => { c with st := .down, width := 0, gib := 0 }).setEvt Evt.cxpDown (cxpOff p.inst)
    else s
  | 0x31, 0, 0x48 =>
    let s := if bit v 31 then s.cxlResume p.inst else s
    if bit v 30 then s.cxlAbandon p.inst else s
  | 0x3F, 0, 0x50 => if bit v 31 then s.restoreUnit (s.reg Reg.tstHistSel) else s
  | 0x3F, 0, 0x54 => if bit v 0 then s.testTrigger else s
  | _, _, _ => s

/-- The ring registers of a function's `DOM` page. -/
def State.actDom (s : State) (fn off v : Nat) : State :=
  if off = 0x60 then s.setFunc fn fun f => { f with ringSel := bits v 7 0 }
  else if off = 0x74 then s.ringCfg fn v
  else if off = 0x78 then s.setRing fn (s.func fn).ringSel fun r => { r with irqCount := bits v 31 16, irqUs := bits v 15 0 }
  else s.ringBase fn off v

/-- What a written register makes the device do. In `SAFE` every engine stands (R328): `GLB`, `EVC` and `DOM` act alone. -/
def State.act (s : State) (o : Origin) (p : RegPlace) (v old : Nat) (takes : List FieldSpec) : State :=
  if p.block = 0x01 then s.actGlb o p v
  else if p.block = 0x04 then s.actEvc p v
  else if p.block = 0x40 then s.actDom p.inst p.off v
  else if s.glb.phase = .safe then s
  else if p.block = 0x02 ∨ p.block = 0x03 then s.actPwr o p v takes
  else if p.block = 0x10 ∨ 0x20 ≤ p.block then s.actPorts p v old takes
  else s.actStore o p v takes

/-! ### The write -/

/-- Registers whose fields the state of their unit holds. -/
def heldElsewhere (p : RegPlace) : Bool :=
  p.block == 0x40 || (p.block == 0x04 && p.page == 0 && decide (0x80 ≤ p.off) && decide (p.off < 0x100)) ||
  [(0x01, 0, 0x64), (0x02, 0, 0x44), (0x02, 0, 0x48), (0x03, 1, 0x44), (0x03, 1, 0x48), (0x07, 1, 0x4C), (0x08, 0, 0x50),
    (0x09, 0, 0x58), (0x09, 0, 0x5C), (0x0A, 0, 0x4C), (0x30, 0, 0x48)].contains (p.block, p.page, p.off)

/-- The stored word after the fields `takes` take a value (Table 0.4). -/
def newWord (old v : Nat) (takes : List FieldSpec) : Nat :=
  takes.foldl (fun w f =>
    match f.acc with
    | .rw => setBits w f.hi f.lo (bits v f.hi f.lo)
    | .rwl => setBits w f.hi f.lo (bits v f.hi f.lo)
    | .w1c => setBits w f.hi f.lo (bits w f.hi f.lo &&& (2 ^ (f.hi + 1 - f.lo) - 1 - bits v f.hi f.lo))
    | _ => w) old

/-- Whether a value carries a 1 in a reserved field; `CHAIN` is reserved in odd groups (R366). -/
def carriesReserved (p : RegPlace) (r : RegSpec) (v : Nat) : Bool :=
  let m := maskOfFields r.fields
  let odd := p.block == 0x04 && p.page == 0 && decide (0x100 ≤ p.off) && p.off / 4 % 2 == 1
  decide (v &&& (2 ^ 32 - 1 - m) ≠ 0) || (odd && bit v 31)

/-- The errors that a write which is carried out sets: a 1 in a reserved field, a locked field, a value out of range. -/
def State.noteWrite (s : State) (p : RegPlace) (a v : Nat) (r : RegSpec) (lockHit : Bool) (err : Option (Nat × Nat)) : State :=
  let s := if carriesReserved p r v then s.pageErr p a 30 else s
  let s := if lockHit then s.pageErr p a 31 else s
  match err with
  | some e => s.setErr e
  | none => s

/-- The entry that a privileged write leaves in the log (Table 14.19). -/
def State.logWrite (s : State) (o : Origin) (p : RegPlace) (a v old : Nat) (takes : List FieldSpec) : State :=
  match s.kindOf p v takes with
  | some k => s.audit (s.domainAt p v) o.who k a (leBytes 4 old) (leBytes 4 v)
  | none => s

/-- The stored word of a register that no unit holds. -/
def State.storeWrite (s : State) (p : RegPlace) (a v old : Nat) (takes : List FieldSpec) : State :=
  let new := newWord old v takes
  let odd := p.block == 0x04 && p.page == 0 && decide (0x100 ≤ p.off) && p.off / 4 % 2 == 1
  let new := if odd then setBits new 31 31 (bits old 31 31) else new
  if takes.isEmpty || new == old || heldElsewhere p then s else s.setReg a new

/-- A write that no cause of Table 2.3 refuses is carried out. -/
def State.carryOut (s : State) (o : Origin) (p : RegPlace) (a v : Nat) (r : RegSpec) (takes : List FieldSpec) (lockHit : Bool)
    (err : Option (Nat × Nat)) : State :=
  let old := s.reg a
  (((s.noteWrite p a v r lockHit err).logWrite o p a v old takes).storeWrite p a v old takes).act o p v old takes

/-- A write of a register of a block (R37): the causes of Table 2.3 in their order. -/
def State.writeBody (s : State) (o : Origin) (p : RegPlace) (a v : Nat) (r : RegSpec) : State :=
  let writable := r.fields.filter fun f => f.acc != Access.ro
  let rng := s.outOfRange o p v
  let locked := s.lockedAt p a
  let lockHit := locked && writable.any fun f => f.acc == Access.rwl
  let takes := writable.filter fun f => !(f.acc == Access.rwl && locked) && !rng.1.contains f.lo
  let err := if locked && writable.all (fun f => f.acc == Access.rwl) then none else rng.2
  let new := newWord (s.reg a) v takes
  if s.deniedWrite p v then s.refuseWriteReg o p a .denied
  else if s.warmAt p.block && !(p.block == 0x04 && p.page == 0 && p.off == 0x48) then
    s.refuseWriteReg o p a .busyRetry
  else if !takes.isEmpty && s.formatRefused p a v new then s.refuseWriteReg o p a .format
  else if !takes.isEmpty && s.busyRefused p a v new then s.refuseWriteReg o p a .busyRetry
  else if (s.kindOf p v takes).isSome && !s.auditTakes then s.refuseFull o p a
  else if s.persistent p v && !s.auditSeals then s.refuseFull o p a
  else s.carryOut o p a v r takes lockHit err

/-- A write of the read-only copy of a device-wide register: it changes no field (R34, R37). -/
def State.writeCopy (s : State) (o : Origin) (p : RegPlace) (a v : Nat) (r : RegSpec) : State :=
  if s.soleDenies p then s.refuseWriteReg o p a .denied
  else if s.warmAt p.block then s.refuseWriteReg o p a .busyRetry
  else if carriesReserved p r v then s.pageErr p a 30
  else s

/-- The reserved bits of `PG_CAP`: bit 28, and those that a block's chapter reserves in `BLOCK_CAP` (`XLT`, `CXP`, `LVE`). -/
def capReserved (block : Nat) : Nat :=
  2 ^ 28 + if block = 0x07 ∨ block = 0x31 ∨ block = 0x05 then 0xFF else 0

/-- A write of a page header (Table 2.2, R35, R36). No chapter defines `BLOCK_CTRL` or `BLOCK_STAT` of its block: their bits
count as reserved (log entry 96). -/
def State.writeHeader (s : State) (o : Origin) (p : RegPlace) (a v : Nat) : State :=
  let ring := p.block == 0x20 && p.page == 7 && p.inst != 0
  let errs := 0xF0000000 + if ring then 0 else errBits p.block p.page
  let evts := if ring then 0 else evtBits p.block p.page
  let all := 2 ^ 32 - 1
  let rsv := fun (t : State) (m : Nat) => if v &&& m = 0 then t else t.pageErr p a 30
  let store := fun (m : Nat) =>
    if p.block = 0x40 then rsv (s.setReg a (v &&& m)) (all - m)
    else if !s.auditTakes then s.refuseFull o p a
    else
      let t := s.audit 0 o.who 1 a (leBytes 4 (s.reg a)) (leBytes 4 v)
      rsv (t.setReg a (v &&& m)) (all - m)
  if decide (p.off < 0x10) && s.lve.sole.isSome && !(p.block == 0x40 && p.inst != 0) then s.refuseWriteReg o p a .denied
  else match p.off with
  | 0x04 => rsv s (capReserved p.block)
  | 0x08 =>
    if !bit v 31 || s.lockedAt p a then rsv s (2 ^ 31 - 1)
    else if !s.auditTakes then s.refuseFull o p a
    else
      let d := if p.block = 0x40 then (s.func p.inst).domain else 0
      rsv ((s.audit d o.who 1 a [] (leBytes 4 v)).setReg (p.ctrl a) (2 ^ 31)) (2 ^ 31 - 1)
  | 0x0C => rsv s (2 ^ 27 - 1)
  | 0x10 => rsv (s.setReg a (s.reg a &&& (all - (v &&& errs)))) (all - errs)
  | 0x14 => store errs
  | 0x18 => rsv (s.setReg a (s.reg a &&& (all - (v &&& evts)))) (all - evts)
  | 0x1C => store evts
  | _ => s

/-- A write of an MSI-X table word: the mask bit holds back messages, and a message that waits leaves when it clears. -/
def State.writeMsix (s : State) (m : MsixAt) (a v : Nat) : State :=
  match m with
  | .table fn vec 3 =>
    let mask := bit v 0
    let t := s.setFunc fn fun f => { f with
      masked := if mask then (if f.masked.contains vec then f.masked else vec :: f.masked) else f.masked.filter (· != vec) }
    if !mask && (s.func fn).pba.contains vec then
      (t.setFunc fn fun f => { f with pba := f.pba.filter (· != vec) }).msix fn vec
    else t
  | .table _ _ _ => s.setReg a v
  | .pba _ _ => s

/-- A write in the doorbell area of a window (Table 2.6): a doorbell, or a word between two of them. -/
def State.writeDoorbell (s : State) (fn o v : Nat) : State :=
  if o % 64 ≠ 0 ∧ o % 64 ≠ 4 then s else s.doorbell fn ((o - 0x4000) / 64) v (decide (o % 64 = 4))

/-- A write that does not reach its address: confidential mode excludes JTAG, and the write is refused (Tables 2.3 and 14.11);
any other is none of the device's. -/
def State.shutOut (s : State) (o : Origin) (a : Nat) : State :=
  match placeOf a with
  | some p =>
    if o == .jtag && s.tapAllowed && s.confAny && decide (a < domBase) && s.presentAt p then s.refuseWriteReg o p a .denied else s
  | none => s

/-- A write with fewer than four byte enables is ignored and sets `WIDTH` of its page (R27). The MSI-X words of a VF lie in its
`DOM` page; those of PF0 lie in no page. -/
def State.shortWrite (s : State) (a : Nat) : State :=
  match placeOf a with
  | some p => if p.block = 0x40 then s.pageErr { p with off := 0 } (domReg p.inst 0) 29 else s
  | none => s

/-- A write at an address (R26, R27, R29, R34). A short write of a doorbell sets `WIDTH` of the function's `DOM` page and is not
counted in `DOM_DBDROP`, be the function bound or not (log entry 97). -/
def State.regWrite (s : State) (a : Nat) (w : RegWrite) : State :=
  let v := w.value.toNat
  let whole := w.be == 15 && a % 4 == 0
  if !s.reaches w.origin a then s.shutOut w.origin a
  else
    match msixAt a with
    | some m => if whole then s.writeMsix m a v else s.shortWrite a
    | none =>
      match placeOf a with
      | none => s
      | some p =>
        if p.block = 0x40 ∧ 4 ≤ p.page then
          (if whole then s.writeDoorbell p.inst (p.page * 0x1000 + p.off) v else s.pageErr { p with off := 0 } (domReg p.inst 0) 29)
        else if !s.presentAt p then s
        else if p.off < 0x20 then (if whole then s.writeHeader w.origin p a v else s.pageErr p a 29)
        else
          match regAt { p with off := p.off / 4 * 4 } with
          | none => s
          | some r =>
            if testOnly p && !s.glb.variant.hasAttn then s
            else if !whole then s.pageErr p a 29
            else if r.dev && p.inst != 0 then s.writeCopy w.origin p a v r
            else s.writeBody w.origin p a v r

end Sys2Proof.Machine
end

