-- ==== Sys2Proof/Machine/Registers.lean ====
section
/-! DEFINITION. Machine/Registers.lean: the register commands. Each row that has a name of its own is a write of its register
with the field that names it. -/

namespace Sys2Proof.Machine

/-- A register write as a row whose field holds, in the row's scope, or no change. None of these registers opens or closes a
session. -/
def State.rowWrite (s : State) (c : Scope) (p : Bool) (a : Nat) (w : RegWrite) : State :=
  s.afterIn c (if p then s.regWrite a w else s)

/-- A bit of a written value. -/
def wbit (w : RegWrite) (i : Nat) : Bool := bit w.value.toNat i

/-! ### Reset control, locks and the plain rows -/

/-- `GLB_RSTCTL.DEV`. -/
def execDeviceResetRequest (w : RegWrite) (s : State) : Host.Outcome State Fault Refusal :=
  .next (s.rowWrite { Scope.row with mgmt := true, flt := true } (wbit w 31) Reg.glbRstctl w)

/-- `GLB_RSTCTL.TOLUO`, or the watchdog of R351. -/
def execToluoRestart (w : Option RegWrite) (s : State) : Host.Outcome State Fault Refusal :=
  .next (match w with
    | some w => s.rowWrite .device (wbit w 29) Reg.glbRstctl w
    | none => s.afterIn .device s.toluoRestarts)

/-- `PG_CTRL.LOCK`. -/
def execLock (addr : Nat) (w : RegWrite) (s : State) : Host.Outcome State Fault Refusal :=
  .next (s.rowWrite .row (decide (addr % 0x1000 = 0x08) && wbit w 31) addr w)

/-- A write of any register. An address in no BAR is none of the device's (R26). -/
def execRegisterWrite (addr : Nat) (w : RegWrite) (s : State) : Host.Outcome State Fault Refusal :=
  if addrExists addr then .next (s.afterCwyIn .device (s.regWrite addr w)) else .fault .noSuchAddress

/-- Whether a register is the low word of a 64-bit register, and whether it is the high word of one (R28). -/
def isWide (a : Nat) : Bool := (((placeOf a).bind regAt).map RegSpec.wide).getD false

/-- The mask of the enabled byte lanes (R27). -/
def laneMask (be : Nat) : Nat := sumNat ((List.range 4).map fun i => if bit be i then 0xFF * 2 ^ (8 * i) else 0)

/-- A read: the low word of a 64-bit register latches its high word for the origin, and only the next read can take it (R28).
`GLB_CAL_RDATA` moves `ADDR` on. -/
def State.regRead (s : State) (o : Origin) (addr be : Nat) : State :=
  if !s.reaches o addr then s
  else
    let a := addr / 4 * 4
    let v := match s.latches.get? o with
      | some (k, x) => if k = a then x.toNat else s.readReg a
      | none => s.readReg a
    let l := s.latches.erase o
    let t := { s with latches := if isWide a then l.set o (a + 4, BitVec.ofNat 32 (s.readReg (a + 4))) else l, fresh := s.fresh + 1 }
    let t := if a = Reg.glbCalRdata then t.calNext else t
    t.emit (.regData o addr (BitVec.ofNat 32 (v &&& laneMask be)))

/-- A read of a register. -/
def execLowWordRead (o : Origin) (addr be : Nat) (s : State) : Host.Outcome State Fault Refusal :=
  if addrExists addr then .next (s.afterIn .reading (s.regRead o addr be)) else .fault .noSuchAddress

/-! ### Calibration and T3 -/

/-- A read of `GLB_CAL_RDATA`. -/
def execCalRdataRead (o : Origin) (s : State) : Host.Outcome State Fault Refusal :=
  .next (s.afterIn .reading (s.regRead o Reg.glbCalRdata 15))

/-- `GLB_CAL_CTL.COMMIT`. -/
def execCommit (w : RegWrite) (s : State) : Host.Outcome State Fault Refusal := .next (s.rowWrite .row (wbit w 31) Reg.glbCalCtl w)

/-- `GLB_CAL_CTL.DISCARD`. -/
def execDiscard (w : RegWrite) (s : State) : Host.Outcome State Fault Refusal := .next (s.rowWrite .row (wbit w 30) Reg.glbCalCtl w)

/-- `GLB_CAL_WDATA`. -/
def execCalWdataWrite (w : RegWrite) (s : State) : Host.Outcome State Fault Refusal := .next (s.rowWrite .row true Reg.glbCalWdata w)

/-- `GLB_T3_CTL.RELEASE`. -/
def execRelease (w : RegWrite) (s : State) : Host.Outcome State Fault Refusal := .next (s.rowWrite { Scope.row with pea := true } (wbit w 31) Reg.glbT3Ctl w)

/-- `PEA_CTL.CKPT_NOW`. -/
def execCkptNow (w : RegWrite) (s : State) : Host.Outcome State Fault Refusal := .next (s.rowWrite { Scope.row with pea := true } (wbit w 30) Reg.peaCtl w)

/-- `PEA_CTL.FORMAT`. -/
def execFormat (w : RegWrite) (s : State) : Host.Outcome State Fault Refusal := .next (s.rowWrite { Scope.row with pea := true } (wbit w 31) Reg.peaCtl w)

/-! ### Field tests -/

/-- A write of `TST_TRIG`, or an edge on the land that serves the test trigger (Table 18.10). -/
def execTstTrig (w : Option RegWrite) (s : State) : Host.Outcome State Fault Refusal :=
  .next (match w with
    | some w => s.rowWrite .device (wbit w 0) Reg.tstTrig w
    | none => s.afterIn .device (if s.glb.phase = .ready ∨ s.glb.phase = .safe then s.stepmarkEdge else s))

/-- `TST_HIST_CTL.RESTORE`. -/
def execRestore (w : RegWrite) (s : State) : Host.Outcome State Fault Refusal := .next (s.rowWrite { Scope.row with flt := true, cwy := true } (wbit w 31) Reg.tstHistCtl w)

/-! ### The event controller -/

/-- `EVC_EOI`. -/
def execEvcEoi (w : RegWrite) (s : State) : Host.Outcome State Fault Refusal := .next (s.rowWrite { Scope.row with evc := true } true Reg.evcEoi w)

/-- `EVC_SWSET`. -/
def execEvcSwset (w : RegWrite) (s : State) : Host.Outcome State Fault Refusal := .next (s.rowWrite { Scope.row with evc := true } true Reg.evcSwset w)

/-- `EVC_PEND` of a group. -/
def execEvcPendClear (group : Nat) (w : RegWrite) (s : State) : Host.Outcome State Fault Refusal :=
  .next (s.rowWrite { Scope.row with evc := true } (decide (group < 32)) (Reg.evcPend + 4 * group) w)

/-- `EVC_ROUTE` of a source. -/
def execEvcRouteWrite (source : Nat) (w : RegWrite) (s : State) : Host.Outcome State Fault Refusal :=
  .next (s.rowWrite { Scope.row with evc := true } (decide (source < 1024)) (routeAddr source) w)

/-- `EVC_HOLD` of a group. -/
def execEvcHoldWrite (group : Nat) (w : RegWrite) (s : State) : Host.Outcome State Fault Refusal :=
  .next (s.rowWrite { Scope.row with evc := true } (decide (group < 32)) (Reg.evcHold + 4 * group) w)

/-! ### Regions, the spill pool, staging and quotas -/

/-- `XLT_PTR_BASE`, low or high word. -/
def execXltPtrBaseWrite (addr : Nat) (w : RegWrite) (s : State) : Host.Outcome State Fault Refusal :=
  .next (s.rowWrite { Scope.row with xlt := true } (addr == Reg.xltPtrBaseLo || addr == Reg.xltPtrBaseHi) addr w)

/-- `XLT_PTR_SIZE`. -/
def execXltPtrSizeWrite (w : RegWrite) (s : State) : Host.Outcome State Fault Refusal := .next (s.rowWrite .row true Reg.xltPtrSize w)

/-- `RBD_BASE`, low or high word. -/
def execRbdBaseWrite (addr : Nat) (w : RegWrite) (s : State) : Host.Outcome State Fault Refusal :=
  .next (s.rowWrite { Scope.row with rbd := true } (addr == Reg.rbdBaseLo || addr == Reg.rbdBaseHi) addr w)

/-- `RBD_CFG.EN`. -/
def execRbdCfgEnWrite (w : RegWrite) (s : State) : Host.Outcome State Fault Refusal := .next (s.rowWrite .row true Reg.rbdCfg w)

/-- `ATC_SPILL_POOL`. -/
def execAtcSpillPoolWrite (w : RegWrite) (s : State) : Host.Outcome State Fault Refusal := .next (s.rowWrite .row true Reg.atcSpillPool w)

/-- `SLC_STAGE`. -/
def execSlcStageWrite (w : RegWrite) (s : State) : Host.Outcome State Fault Refusal := .next (s.rowWrite .row true Reg.slcStage w)

/-- `SLC_DOM_T0_QUOTA` of the selected domain. -/
def execSlcDomT0QuotaWrite (w : RegWrite) (s : State) : Host.Outcome State Fault Refusal :=
  .next (s.rowWrite { Scope.row with slc := true } true Reg.slcDomT0Quota w)

/-! ### The budget, clocks, islands and `STANDBY` -/

/-- `PWR_EPOCH_CFG`. -/
def execPwrEpochCfgWrite (w : RegWrite) (s : State) : Host.Outcome State Fault Refusal := .next (s.rowWrite .row true Reg.pwrEpochCfg w)

/-- `PWR_HIST_SEL` with `CLR`. -/
def execPwrHistClr (w : RegWrite) (s : State) : Host.Outcome State Fault Refusal := .next (s.rowWrite .row (wbit w 30) Reg.pwrHistSel w)

/-- `CLK_CSYN` of a die. -/
def execClkCsynWrite (die : Nat) (w : RegWrite) (s : State) : Host.Outcome State Fault Refusal :=
  .next (s.rowWrite .row (decide (die < 2)) (Reg.clkCsyn0 + 4 * die) w)

/-- `PWR_ISL_REQ` for `ON`. -/
def execIslandOnRequest (w : RegWrite) (s : State) : Host.Outcome State Fault Refusal := .next (s.rowWrite .rowEngine (wbit w 31) Reg.pwrIslReq w)

/-- `PWR_ISL_REQ` for `OFF`. -/
def execIslandOffRequest (w : RegWrite) (s : State) : Host.Outcome State Fault Refusal :=
  .next (s.rowWrite .rowEngine (!wbit w 31) Reg.pwrIslReq w)

/-- `PWR_STANDBY.REQ`. -/
def execStandbyRequest (w : RegWrite) (s : State) : Host.Outcome State Fault Refusal := .next (s.rowWrite .row (wbit w 31) Reg.pwrStandby w)

/-! ### Functions, T2, CXL ports and rings -/

/-- `HIF_VF_BIND` for the VF that `HIF_VF_SEL` selects. -/
def execHifVfBind (addr : Nat) (w : RegWrite) (s : State) : Host.Outcome State Fault Refusal :=
  .next (s.rowWrite .row (addr == Reg.hifVfBind) addr w)

/-- `HIF_T2_BASE` or `HIF_T2_SIZE`. -/
def execHifT2WindowWrite (addr : Nat) (w : RegWrite) (s : State) : Host.Outcome State Fault Refusal :=
  .next (s.rowWrite .row (addr == Reg.hifT2BaseLo || addr == Reg.hifT2BaseHi || addr == Reg.hifT2Size) addr w)

/-- `HIF_CTL.T2_ABANDON`. -/
def execT2Abandon (w : RegWrite) (s : State) : Host.Outcome State Fault Refusal := .next (s.rowWrite .rowEngine (wbit w 31) Reg.hifCtl w)

/-- `CXP_CFG` of a port. -/
def execCxpCfgEnWrite (port : Nat) (w : RegWrite) (s : State) : Host.Outcome State Fault Refusal :=
  .next (s.rowWrite .row (decide (port < 4)) (Reg.cxpCfg + cxpOff port) w)

/-- `CXP_CTL.RESUME` of a port. -/
def execResumePort (port : Nat) (w : RegWrite) (s : State) : Host.Outcome State Fault Refusal :=
  .next (s.rowWrite .row (decide (port < 4) && wbit w 31) (Reg.cxpCtl + cxpOff port) w)

/-- `CXP_CTL.ABANDON` of a port. -/
def execAbandon (port : Nat) (w : RegWrite) (s : State) : Host.Outcome State Fault Refusal :=
  .next (s.rowWrite .rowEngine (decide (port < 4) && wbit w 30) (Reg.cxpCtl + cxpOff port) w)

/-- `DOM_RING_CFG` of a function with `EN` = 1. -/
def execRingEnable (fn : Nat) (w : RegWrite) (s : State) : Host.Outcome State Fault Refusal :=
  .next (s.rowWrite .row (decide (fn ≤ 256) && wbit w 31) (domReg fn Reg.domRingCfg) w)

/-- `DOM_RING_CFG` of a function with `EN` = 0. -/
def execRingDisable (fn : Nat) (w : RegWrite) (s : State) : Host.Outcome State Fault Refusal :=
  .next (s.rowWrite .row (decide (fn ≤ 256) && !wbit w 31) (domReg fn Reg.domRingCfg) w)

/-! ### Lockstep -/

/-- `ATC_GCFG.LOCKSTEP`. -/
def execLockstepWrite (w : RegWrite) (s : State) : Host.Outcome State Fault Refusal := .next (s.rowWrite { Scope.row with att := true, flt := true } true Reg.atcGcfg w)

end Sys2Proof.Machine
end

