-- ==== Sys2Proof/Machine/Space.lean ====
section
/-! DEFINITION. Machine/Space.lean: the commands that wait for space in the page-table region, and the commands and events
that release it: placement and the end of moves (chapter 8). -/

namespace Sys2Proof.Machine

/-- The commands that wait for space in the page-table region are tried again, in order of arrival (R168). An `OBJ_WRITE` that
waits for its dispatch goes on waiting. -/
def State.retryCmds (s : State) : State :=
  let l := s.slc.spaceCmds
  ({ s with slc := { s.slc with spaceCmds := [] } } : State).forEach l fun c t =>
    let d := t.domainOf c.req
    match c.opcode with
    | 0x0C => t.onSeq c.req d c.ops fun i x => t.mapPrefix c.req i d x c.ops c.inp
    | 0x1A => t.lookupArrives c.req d c.inp none
    | _ => t.onObj c.req d c.ops fun n x => t.objWrite c.req d c.ops c.inp n x true

/-! ### The end of moves, and placement -/

/-- Invalidation completes: the move commits (Table 8.2). -/
def execMoveCommit (move : Nat) (s : State) : Host.Outcome State Fault Refusal :=
  .next (s.afterMemIn .lookup
    (match s.moveIn move .commit with
     | some m => if s.serves .xlt then (s.commitMove m).sluice.retryCmds else s
     | none => s))

/-- A T1 or T2 source or destination has not answered for 1,000 µs (Table 8.2). -/
def execTierTimeout (move : Nat) (s : State) : Host.Outcome State Fault Refusal :=
  .next (s.afterMemIn .lookup
    (match s.slc.moves.find? fun m => m.seqNo == move with
     | some m =>
       let low := fun (h : Home) => decide (h.tier = 1 ∨ h.tier = 2)
       let waits := (decide (m.st = .read) && low m.src)
         || (decide (m.st = .write) && low m.dst && (!s.answers m.dst || m.promo || !s.pinned m.frame))
       if waits ∧ m.since + usNs 1000 ≤ s.now then
         let h := if m.st = .read then m.src else m.dst
         (((s.setErr Err.slcTierTimeout).notAnswered h).abortMove m .timeout 0).sluice.retryCmds
       else s
     | none => s))

/-- `SLC_PLACE` (R169 to R172). -/
def execSlcPlace (q : CmdRef) (s : State) : Host.Outcome State Fault Refusal :=
  .next (s.afterMemIn .lookup (s.runCmd q 0x20 fun t r d o => t.gate .xlt r Status.cpl fun t => (t.placeOrWait r d 0x20 o).retryCmds))

end Sys2Proof.Machine
end

