-- ==== Sys2Proof/Machine/Scheduler.lean ====
section
/-! DEFINITION. Machine/Scheduler.lean: the dispatch of pending work by the budget scheduler (R288 to R293). -/

namespace Sys2Proof.Machine

/-- What has been dispatched begins. A held record is written by its own command; a key operation and a signature run in
Levee. -/
def State.begin (s : State) (w : Work) : State :=
  match w with
  | .step id => s.resolveStep id
  | .move k => s.modMove k fun m => { m with admitted := true }
  | .search n => s.beginSearch n
  | .read id => s.pumpRead id 65
  | .write _ => s.retryCmds
  | .phase p h =>
    match s.hs p h with
    | some x => (match x.accept with | some m => s.verifyAccept x m | none => s)
    | none => s
  | .key _ | .sign _ | .record _ _ _ => s

/-- Dispatch an item, or one part of it: its charge, and after the last part its work. -/
def State.dispatchItem (s : State) (it : Item) (turn : Bool) : State :=
  let t := s.chargeItem it turn
  if it.done + 1 < s.partsOf it then t else t.begin it.work

/-- The scheduler dispatches the next item (R290). -/
def execDispatch (s : State) : Host.Outcome State Fault Refusal :=
  .next (s.afterMemIn .lookup
    (if s.pwr.live ∧ s.pwr.standby ≠ .standby then
       let s := s.pruned
       match s.nextItem with
       | some (it, turn) => (s.dispatchItem it turn).sluice
       | none => s
     else s))

end Sys2Proof.Machine
end

