-- ==== Sys2Proof/Machine/Dispatch.lean ====
section
/-! DEFINITION. Machine/Dispatch.lean: one arm for each command, each a direct call of its meaning. -/

namespace Sys2Proof.Machine

/-- The effect of one command on everything but the queue. -/
def exec (i : Instr) (s : State) : Host.Outcome State Fault Refusal :=
  match i with
  | .powerOn fuses => Sys2Proof.Machine.execPowerOn fuses s
  | .pwrgoodFall => Sys2Proof.Machine.execPwrgoodFall s
  | .startupReady => Sys2Proof.Machine.execStartupReady s
  | .deviceResetRequest w => Sys2Proof.Machine.execDeviceResetRequest w s
  | .deviceReset fuses => Sys2Proof.Machine.execDeviceReset fuses s
  | .toluoRestart w => Sys2Proof.Machine.execToluoRestart w s
  | .linkReset => Sys2Proof.Machine.execLinkReset s
  | .functionLevelReset fn => Sys2Proof.Machine.execFunctionLevelReset fn s
  | .warmReset u cause => Sys2Proof.Machine.execWarmReset u cause s
  | .unitWatchdogExpiry u => Sys2Proof.Machine.execUnitWatchdogExpiry u s
  | .warmResetDone u selfCheck reread => Sys2Proof.Machine.execWarmResetDone u selfCheck reread s
  | .autorst => Sys2Proof.Machine.execAutorst s
  | .monitorTrip m => Sys2Proof.Machine.execMonitorTrip m s
  | .monitorInRange => Sys2Proof.Machine.execMonitorInRange s
  | .monitorPersistent => Sys2Proof.Machine.execMonitorPersistent s
  | .thermtrip tenthC => Sys2Proof.Machine.execThermtrip tenthC s
  | .keyStoreUe dom slot => Sys2Proof.Machine.execKeyStoreUe dom slot s
  | .nop q => Sys2Proof.Machine.execNop q s
  | .sqDoorbell fn ring value => Sys2Proof.Machine.execSqDoorbell fn ring value s
  | .cqDoorbell fn ring value => Sys2Proof.Machine.execCqDoorbell fn ring value s
  | .commandFetch fn ring got => Sys2Proof.Machine.execCommandFetch fn ring got s
  | .ringEnable fn w => Sys2Proof.Machine.execRingEnable fn w s
  | .ringDisable fn w => Sys2Proof.Machine.execRingDisable fn w s
  | .ringDrained fn ring => Sys2Proof.Machine.execRingDrained fn ring s
  | .hostReadTimeout q => Sys2Proof.Machine.execHostReadTimeout q s
  | .modelRegister q inp => Sys2Proof.Machine.execModelRegister q inp s
  | .modelRelease q => Sys2Proof.Machine.execModelRelease q s
  | .seqCreate q => Sys2Proof.Machine.execSeqCreate q s
  | .seqRetire q => Sys2Proof.Machine.execSeqRetire q s
  | .seqRetired seq => Sys2Proof.Machine.execSeqRetired seq s
  | .seqTruncate q => Sys2Proof.Machine.execSeqTruncate q s
  | .truncateRelease seq => Sys2Proof.Machine.execTruncateRelease seq s
  | .seqQuery q => Sys2Proof.Machine.execSeqQuery q s
  | .seqMapPrefix q inp => Sys2Proof.Machine.execSeqMapPrefix q inp s
  | .seqPreempt q => Sys2Proof.Machine.execSeqPreempt q s
  | .preemptDemote seq => Sys2Proof.Machine.execPreemptDemote seq s
  | .seqRestore q => Sys2Proof.Machine.execSeqRestore q s
  | .seqPclass q => Sys2Proof.Machine.execSeqPclass q s
  | .seqStripe q => Sys2Proof.Machine.execSeqStripe q s
  | .cmdKvAppend q a => Sys2Proof.Machine.execCmdKvAppend q a s
  | .attend q inp => Sys2Proof.Machine.execAttend q inp s
  | .cmdPrefixLookup q inp => Sys2Proof.Machine.execCmdPrefixLookup q inp s
  | .slcPlace q => Sys2Proof.Machine.execSlcPlace q s
  | .slcWait q => Sys2Proof.Machine.execSlcWait q s
  | .objCreate q => Sys2Proof.Machine.execObjCreate q s
  | .objWrite q inp => Sys2Proof.Machine.execObjWrite q inp s
  | .objSeal q => Sys2Proof.Machine.execObjSeal q s
  | .objRelease q => Sys2Proof.Machine.execObjRelease q s
  | .prefixSetRange q => Sys2Proof.Machine.execPrefixSetRange q s
  | .prefixFloor q => Sys2Proof.Machine.execPrefixFloor q s
  | .floorSweep dom => Sys2Proof.Machine.execFloorSweep dom s
  | .prefixEvict q => Sys2Proof.Machine.execPrefixEvict q s
  | .prefixPurge q => Sys2Proof.Machine.execPrefixPurge q s
  | .purgeSweepEnd dom => Sys2Proof.Machine.execPurgeSweepEnd dom s
  | .ringJoin q => Sys2Proof.Machine.execRingJoin q s
  | .ringLeave q => Sys2Proof.Machine.execRingLeave q s
  | .ringSlotFree slot => Sys2Proof.Machine.execRingSlotFree slot s
  | .lveSpdm q inp => Sys2Proof.Machine.execLveSpdm q inp s
  | .spdmRequest msg => Sys2Proof.Machine.execSpdmRequest msg s
  | .domCreate q inp => Sys2Proof.Machine.execDomCreate q inp s
  | .domTeardown q => Sys2Proof.Machine.execDomTeardown q s
  | .teardownCryptoErase dom => Sys2Proof.Machine.execTeardownCryptoErase dom s
  | .teardownScrubDone dom => Sys2Proof.Machine.execTeardownScrubDone dom s
  | .t3ErasureDone dom => Sys2Proof.Machine.execT3ErasureDone dom s
  | .domStatus q => Sys2Proof.Machine.execDomStatus q s
  | .devMode q => Sys2Proof.Machine.execDevMode q s
  | .audExport q => Sys2Proof.Machine.execAudExport q s
  | .audAck q => Sys2Proof.Machine.execAudAck q s
  | .keyLoad msg => Sys2Proof.Machine.execKeyLoad msg s
  | .keyDestroy msg => Sys2Proof.Machine.execKeyDestroy msg s
  | .anchorSet msg => Sys2Proof.Machine.execAnchorSet msg s
  | .prefixRotate msg => Sys2Proof.Machine.execPrefixRotate msg s
  | .confSedge msg => Sys2Proof.Machine.execConfSedge msg s
  | .counterRead msg => Sys2Proof.Machine.execCounterRead msg s
  | .domReport msg => Sys2Proof.Machine.execDomReport msg s
  | .operatorCmd msg => Sys2Proof.Machine.execOperatorCmd msg s
  | .lcAdvance msg => Sys2Proof.Machine.execLcAdvance msg s
  | .debugUnlock msg => Sys2Proof.Machine.execDebugUnlock msg s
  | .keyOperationDone abort => Sys2Proof.Machine.execKeyOperationDone abort s
  | .reinstate dom => Sys2Proof.Machine.execReinstate dom s
  | .pldmSetEventReceiver receiver => Sys2Proof.Machine.execPldmSetEventReceiver receiver s
  | .pldmPlatformEventSend => Sys2Proof.Machine.execPldmPlatformEventSend s
  | .requestUpdate session => Sys2Proof.Machine.execRequestUpdate session s
  | .applyComplete => Sys2Proof.Machine.execApplyComplete s
  | .ptpSync offset rate grandmaster => Sys2Proof.Machine.execPtpSync offset rate grandmaster s
  | .ptpHoldover => Sys2Proof.Machine.execPtpHoldover s
  | .devTimeAlarm => Sys2Proof.Machine.execDevTimeAlarm s
  | .kvAppend a => Sys2Proof.Machine.execKvAppend a s
  | .heldRecordWrite seq a => Sys2Proof.Machine.execHeldRecordWrite seq a s
  | .chainRetry slot => Sys2Proof.Machine.execChainRetry slot s
  | .qSubmit m => Sys2Proof.Machine.execQSubmit m s
  | .qHoldRelease step => Sys2Proof.Machine.execQHoldRelease step s
  | .qHoldTimeout step => Sys2Proof.Machine.execQHoldTimeout step s
  | .dispatch => Sys2Proof.Machine.execDispatch s
  | .stallEnd stall => Sys2Proof.Machine.execStallEnd stall s
  | .stallTimeout stall => Sys2Proof.Machine.execStallTimeout stall s
  | .coreTakeTask core => Sys2Proof.Machine.execCoreTakeTask core s
  | .taskPreempt core => Sys2Proof.Machine.execTaskPreempt core s
  | .taskEnd core result => Sys2Proof.Machine.execTaskEnd core result s
  | .spillWaitRelease step => Sys2Proof.Machine.execSpillWaitRelease step s
  | .lockstepWrite w => Sys2Proof.Machine.execLockstepWrite w s
  | .lsSwitched => Sys2Proof.Machine.execLsSwitched s
  | .pageRead a => Sys2Proof.Machine.execPageRead a s
  | .prefixLookup m => Sys2Proof.Machine.execPrefixLookup m s
  | .probeGrant => Sys2Proof.Machine.execProbeGrant s
  | .reedbedInsert => Sys2Proof.Machine.execReedbedInsert s
  | .rowMove row => Sys2Proof.Machine.execRowMove row s
  | .rowUe row => Sys2Proof.Machine.execRowUe row s
  | .repairScan => Sys2Proof.Machine.execRepairScan s
  | .resolveScan => Sys2Proof.Machine.execResolveScan s
  | .probeRateSample tenthC => Sys2Proof.Machine.execProbeRateSample tenthC s
  | .ringQueryStep m => Sys2Proof.Machine.execRingQueryStep m s
  | .ringQueryChain m => Sys2Proof.Machine.execRingQueryChain m s
  | .ringPartial m => Sys2Proof.Machine.execRingPartial m s
  | .ringStepHoldRelease step => Sys2Proof.Machine.execRingStepHoldRelease step s
  | .ringTimeout step => Sys2Proof.Machine.execRingTimeout step s
  | .stepMark m => Sys2Proof.Machine.execStepMark m s
  | .stepmarkIn => Sys2Proof.Machine.execStepmarkIn s
  | .windowClose => Sys2Proof.Machine.execWindowClose s
  | .epochBoundary => Sys2Proof.Machine.execEpochBoundary s
  | .powerMonitorSample a => Sys2Proof.Machine.execPowerMonitorSample a s
  | .thermalSample tenthC => Sys2Proof.Machine.execThermalSample tenthC s
  | .queueSample => Sys2Proof.Machine.execQueueSample s
  | .autoDvfsDown => Sys2Proof.Machine.execAutoDvfsDown s
  | .autoDvfsUp => Sys2Proof.Machine.execAutoDvfsUp s
  | .clkCsynWrite die w => Sys2Proof.Machine.execClkCsynWrite die w s
  | .csynStepDone die => Sys2Proof.Machine.execCsynStepDone die s
  | .islandOnRequest w => Sys2Proof.Machine.execIslandOnRequest w s
  | .islandOffRequest w => Sys2Proof.Machine.execIslandOffRequest w s
  | .islandPowerUpDone island => Sys2Proof.Machine.execIslandPowerUpDone island s
  | .islandDrained island => Sys2Proof.Machine.execIslandDrained island s
  | .standbyRequest w => Sys2Proof.Machine.execStandbyRequest w s
  | .standbyCommit => Sys2Proof.Machine.execStandbyCommit s
  | .sleepAborted source => Sys2Proof.Machine.execSleepAborted source s
  | .wake source => Sys2Proof.Machine.execWake source s
  | .standbyExitDone => Sys2Proof.Machine.execStandbyExitDone s
  | .lightDetected port => Sys2Proof.Machine.execLightDetected port s
  | .trainingDone port badLanes credits => Sys2Proof.Machine.execTrainingDone port badLanes credits s
  | .trainingTimeout port => Sys2Proof.Machine.execTrainingTimeout port s
  | .linkFault port cause lanes => Sys2Proof.Machine.execLinkFault port cause lanes s
  | .retrainDone port badLanes peerAck => Sys2Proof.Machine.execRetrainDone port badLanes peerAck s
  | .retrainFail port => Sys2Proof.Machine.execRetrainFail port s
  | .failedRetry port => Sys2Proof.Machine.execFailedRetry port s
  | .laserMonitorSample els laser rx => Sys2Proof.Machine.execLaserMonitorSample els laser rx s
  | .flitDiscard port cause => Sys2Proof.Machine.execFlitDiscard port cause s
  | .nak port f => Sys2Proof.Machine.execNak port f s
  | .replayTimer port => Sys2Proof.Machine.execReplayTimer port s
  | .idleAckTimer f => Sys2Proof.Machine.execIdleAckTimer f s
  | .quietReq f => Sys2Proof.Machine.execQuietReq f s
  | .quietAck f => Sys2Proof.Machine.execQuietAck f s
  | .resume f => Sys2Proof.Machine.execResume f s
  | .sleepReq f => Sys2Proof.Machine.execSleepReq f s
  | .sleepAck f => Sys2Proof.Machine.execSleepAck f s
  | .quietIdleTimer port => Sys2Proof.Machine.execQuietIdleTimer port s
  | .sleepIdleTimer port => Sys2Proof.Machine.execSleepIdleTimer port s
  | .causewayWake port => Sys2Proof.Machine.execCausewayWake port s
  | .discover m => Sys2Proof.Machine.execDiscover m s
  | .hello m => Sys2Proof.Machine.execHello m s
  | .accept port hs => Sys2Proof.Machine.execAccept port hs s
  | .acceptReceived m => Sys2Proof.Machine.execAcceptReceived m s
  | .finish m => Sys2Proof.Machine.execFinish m s
  | .doneSend port hs => Sys2Proof.Machine.execDoneSend port hs s
  | .doneReceived m => Sys2Proof.Machine.execDoneReceived m s
  | .handshakeTimeout port hs => Sys2Proof.Machine.execHandshakeTimeout port hs s
  | .join m => Sys2Proof.Machine.execJoin m s
  | .detachRequest m => Sys2Proof.Machine.execDetachRequest m s
  | .detachDone m => Sys2Proof.Machine.execDetachDone m s
  | .integrityFail m => Sys2Proof.Machine.execIntegrityFail m s
  | .keepalive m => Sys2Proof.Machine.execKeepalive m s
  | .keepaliveSend session port => Sys2Proof.Machine.execKeepaliveSend session port s
  | .keepaliveExpiry session port => Sys2Proof.Machine.execKeepaliveExpiry session port s
  | .ackMsnTimer session => Sys2Proof.Machine.execAckMsnTimer session s
  | .error m => Sys2Proof.Machine.execError m s
  | .refusalRelease => Sys2Proof.Machine.execRefusalRelease s
  | .hostLinkUp rate width flit => Sys2Proof.Machine.execHostLinkUp rate width flit s
  | .hostLinkDown => Sys2Proof.Machine.execHostLinkDown s
  | .tierTimeout move => Sys2Proof.Machine.execTierTimeout move s
  | .t2Abandon w => Sys2Proof.Machine.execT2Abandon w s
  | .hifVfBind addr w => Sys2Proof.Machine.execHifVfBind addr w s
  | .hifT2WindowWrite addr w => Sys2Proof.Machine.execHifT2WindowWrite addr w s
  | .cxlLinkUp port width rate => Sys2Proof.Machine.execCxlLinkUp port width rate s
  | .cxlDiscoveryDone port found => Sys2Proof.Machine.execCxlDiscoveryDone port found s
  | .cxlLinkDown port => Sys2Proof.Machine.execCxlLinkDown port s
  | .resumePort port w => Sys2Proof.Machine.execResumePort port w s
  | .abandon port w => Sys2Proof.Machine.execAbandon port w s
  | .cxpCfgEnWrite port w => Sys2Proof.Machine.execCxpCfgEnWrite port w s
  | .moveRead move => Sys2Proof.Machine.execMoveRead move s
  | .moveWrite move media => Sys2Proof.Machine.execMoveWrite move media s
  | .moveCommitStart move failed => Sys2Proof.Machine.execMoveCommitStart move failed s
  | .moveCommit move => Sys2Proof.Machine.execMoveCommit move s
  | .sedgeCompress ue => Sys2Proof.Machine.execSedgeCompress ue s
  | .unmap seq layer hg page => Sys2Proof.Machine.execUnmap seq layer hg page s
  | .patrolScrub addr found => Sys2Proof.Machine.execPatrolScrub addr found s
  | .peatWrite move => Sys2Proof.Machine.execPeatWrite move s
  | .coalesceExpiry unit => Sys2Proof.Machine.execCoalesceExpiry unit s
  | .stripeRowProgrammed stripe => Sys2Proof.Machine.execStripeRowProgrammed stripe s
  | .programFail stripe index => Sys2Proof.Machine.execProgramFail stripe index s
  | .eraseFail blk => Sys2Proof.Machine.execEraseFail blk s
  | .blockVerify blk badRows => Sys2Proof.Machine.execBlockVerify blk badRows s
  | .peatRead move fails left => Sys2Proof.Machine.execPeatRead move fails left s
  | .trim => Sys2Proof.Machine.execTrim s
  | .journalPageProgram => Sys2Proof.Machine.execJournalPageProgram s
  | .gc => Sys2Proof.Machine.execGc s
  | .wearLevel => Sys2Proof.Machine.execWearLevel s
  | .retentionRelocate blk byAge late => Sys2Proof.Machine.execRetentionRelocate blk byAge late s
  | .segmentFlush => Sys2Proof.Machine.execSegmentFlush s
  | .ckptNow w => Sys2Proof.Machine.execCkptNow w s
  | .checkpoint => Sys2Proof.Machine.execCheckpoint s
  | .peatRecovery found => Sys2Proof.Machine.execPeatRecovery found s
  | .fullRebuild => Sys2Proof.Machine.execFullRebuild s
  | .format w => Sys2Proof.Machine.execFormat w s
  | .formatDone => Sys2Proof.Machine.execFormatDone s
  | .nandTargetSilent target => Sys2Proof.Machine.execNandTargetSilent target s
  | .segmentWritten => Sys2Proof.Machine.execSegmentWritten s
  | .toluoFaultReport => Sys2Proof.Machine.execToluoFaultReport s
  | .ceSummary unit count => Sys2Proof.Machine.execCeSummary unit count s
  | .fieldTestDue cluster => Sys2Proof.Machine.execFieldTestDue cluster s
  | .testItem tenthC fails => Sys2Proof.Machine.execTestItem tenthC fails s
  | .fieldTestEnd bad => Sys2Proof.Machine.execFieldTestEnd bad s
  | .tstTrig w => Sys2Proof.Machine.execTstTrig w s
  | .restore w => Sys2Proof.Machine.execRestore w s
  | .evcDeliver target => Sys2Proof.Machine.execEvcDeliver target s
  | .holdoffExpiry group => Sys2Proof.Machine.execHoldoffExpiry group s
  | .evcEoi w => Sys2Proof.Machine.execEvcEoi w s
  | .evcSwset w => Sys2Proof.Machine.execEvcSwset w s
  | .evcPendClear group w => Sys2Proof.Machine.execEvcPendClear group w s
  | .evcRouteWrite source w => Sys2Proof.Machine.execEvcRouteWrite source w s
  | .evcHoldWrite group w => Sys2Proof.Machine.execEvcHoldWrite group w s
  | .lock addr w => Sys2Proof.Machine.execLock addr w s
  | .registerWrite addr w => Sys2Proof.Machine.execRegisterWrite addr w s
  | .lowWordRead o addr be => Sys2Proof.Machine.execLowWordRead o addr be s
  | .xltPtrBaseWrite addr w => Sys2Proof.Machine.execXltPtrBaseWrite addr w s
  | .xltPtrSizeWrite w => Sys2Proof.Machine.execXltPtrSizeWrite w s
  | .rbdBaseWrite addr w => Sys2Proof.Machine.execRbdBaseWrite addr w s
  | .atcSpillPoolWrite w => Sys2Proof.Machine.execAtcSpillPoolWrite w s
  | .rbdCfgEnWrite w => Sys2Proof.Machine.execRbdCfgEnWrite w s
  | .slcStageWrite w => Sys2Proof.Machine.execSlcStageWrite w s
  | .slcDomT0QuotaWrite w => Sys2Proof.Machine.execSlcDomT0QuotaWrite w s
  | .pwrEpochCfgWrite w => Sys2Proof.Machine.execPwrEpochCfgWrite w s
  | .pwrHistClr w => Sys2Proof.Machine.execPwrHistClr w s
  | .commit w => Sys2Proof.Machine.execCommit w s
  | .calCommitDone ok => Sys2Proof.Machine.execCalCommitDone ok s
  | .discard w => Sys2Proof.Machine.execDiscard w s
  | .calWdataWrite w => Sys2Proof.Machine.execCalWdataWrite w s
  | .calRdataRead o => Sys2Proof.Machine.execCalRdataRead o s
  | .release w => Sys2Proof.Machine.execRelease w s
  | .unknownMtype m => Sys2Proof.Machine.execUnknownMtype m s
  | .ringIrqTimer fn ring => Sys2Proof.Machine.execRingIrqTimer fn ring s
  | .powerUpStopped island => Sys2Proof.Machine.execPowerUpStopped island s
  | .lctlReqRepeat port => Sys2Proof.Machine.execLctlReqRepeat port s
  | .stepmarkOutPulseEnd => Sys2Proof.Machine.execStepmarkOutPulseEnd s
  | .tapResetInstruction => Sys2Proof.Machine.execTapResetInstruction s
  | .debugTokenExpiry => Sys2Proof.Machine.execDebugTokenExpiry s
  | .spdmHeartbeatExpiry session => Sys2Proof.Machine.execSpdmHeartbeatExpiry session s
  | .verifyComplete image => Sys2Proof.Machine.execVerifyComplete image s

end Sys2Proof.Machine
end

