-- ==== Sys2Proof/WellFormed.lean ====
section
/-! DEFINITION. WellFormed.lean: the operands that a sender can form: the instances, the functions and the field widths
that the manual gives. `exec` is total and acts on any operand as the manual says of it; this predicate says which commands
the outside can send. -/

namespace Sys2Proof

open Sys2Proof.Machine

/-- Byte enables of one 32-bit access (R27); VF n is below 256 (R260). -/
def RegWrite.wf (w : RegWrite) : Bool := decide (w.be < 16) && (match w.origin with | .vf n => decide (n < 256) | _ => true)

/-- PF0 and 256 VFs, and the up to 256 ring pairs of a function (Table 2.6). -/
def CmdRefWf (q : CmdRef) : Bool := decide (q.func ≤ 256) && decide (q.ring < 256)

/-- 32 ports and four virtual channels, a 32-byte header (Table 11.6) and at least one flit. -/
def RxMsgWf (m : RxMsg) : Bool :=
  decide (m.port < 32) && decide (m.vc < 4) && decide (m.hdr.length = 32) && decide (0 < m.flits)

/-- `ACK` has 12 bits, and a flit returns at most 1,023 credits of a channel (Table 11.2). -/
def FlitTailWf (f : FlitTail) : Bool := decide (f.ack < 4096) && decide (f.cr.length ≤ 4) && f.cr.all fun n => decide (n < 1024)

/-- One of 32 ports, with a tail that a flit can carry. -/
def PortFlit.wf (f : PortFlit) : Bool := decide (f.port < 32) && FlitTailWf f.tail

@[inherit_doc PortFlit.wf] def IdleFlit.wf (f : IdleFlit) : Bool := decide (f.port < 32) && f.rx.all FlitTailWf

/-- A code of one byte. -/
def SpdmMsg.wf (m : SpdmMsg) : Bool := decide (m.code < 256)

/-- An origin of a register access (R28). -/
def OriginWf (o : Origin) : Bool := match o with | .vf n => decide (n < 256) | _ => true

/-- A sequence index has 24 bits (R45). -/
def Scrubbed.wf : Scrubbed → Bool
  | .descriptor seq => decide (seq < 2 ^ 24)
  | _ => true

/-- A register access is aligned to four bytes (R27). -/
def addrAligned (a : Nat) : Bool := a % 4 == 0

/-- A command whose operands the outside can form. -/
def Instr.wf : Instr → Bool
  | .powerOn _ => true
  | .pwrgoodFall => true
  | .startupReady => true
  | .deviceResetRequest w => w.wf
  | .deviceReset _ => true
  | .toluoRestart w => w.all RegWrite.wf
  | .linkReset => true
  | .functionLevelReset fn => decide (fn ≤ 256)
  | .warmReset _ _ => true
  | .unitWatchdogExpiry _ => true
  | .warmResetDone _ _ _ => true
  | .autorst => true
  | .monitorTrip _ => true
  | .monitorInRange => true
  | .monitorPersistent => true
  | .thermtrip _ => true
  | .keyStoreUe dom _ => decide (dom < 4096)
  | .nop q => CmdRefWf q
  | .sqDoorbell fn ring _ => decide (fn ≤ 256) && decide (ring < 256)
  | .cqDoorbell fn ring _ => decide (fn ≤ 256) && decide (ring < 256)
  | .commandFetch fn ring _ => decide (fn ≤ 256) && decide (ring < 256)
  | .ringEnable fn w => decide (fn ≤ 256) && w.wf
  | .ringDisable fn w => decide (fn ≤ 256) && w.wf
  | .ringDrained fn ring => decide (fn ≤ 256) && decide (ring < 256)
  | .hostReadTimeout q => CmdRefWf q
  | .modelRegister q _ => CmdRefWf q
  | .modelRelease q => CmdRefWf q
  | .seqCreate q => CmdRefWf q
  | .seqRetire q => CmdRefWf q
  | .seqRetired seq => decide (seq < 2 ^ 24)
  | .seqTruncate q => CmdRefWf q
  | .truncateRelease seq => decide (seq < 2 ^ 24)
  | .seqQuery q => CmdRefWf q
  | .seqMapPrefix q _ => CmdRefWf q
  | .seqPreempt q => CmdRefWf q
  | .preemptDemote seq => decide (seq < 2 ^ 24)
  | .seqRestore q => CmdRefWf q
  | .seqPclass q => CmdRefWf q
  | .seqStripe q => CmdRefWf q
  | .cmdKvAppend q _ => CmdRefWf q
  | .attend q _ => CmdRefWf q
  | .cmdPrefixLookup q _ => CmdRefWf q
  | .slcPlace q => CmdRefWf q
  | .slcWait q => CmdRefWf q
  | .objCreate q => CmdRefWf q
  | .objWrite q _ => CmdRefWf q
  | .objSeal q => CmdRefWf q
  | .objRelease q => CmdRefWf q
  | .prefixSetRange q => CmdRefWf q
  | .prefixFloor q => CmdRefWf q
  | .floorSweep dom => decide (dom < 4096)
  | .prefixEvict q => CmdRefWf q
  | .prefixPurge q => CmdRefWf q
  | .purgeSweepEnd dom => decide (dom < 4096)
  | .ringJoin q => CmdRefWf q
  | .ringLeave q => CmdRefWf q
  | .ringSlotFree slot => decide (slot < 16)
  | .lveSpdm q _ => CmdRefWf q
  | .spdmRequest msg => msg.wf
  | .domCreate q _ => CmdRefWf q
  | .domTeardown q => CmdRefWf q
  | .teardownCryptoErase dom => decide (dom < 4096)
  | .teardownScrubDone dom => decide (dom < 4096)
  | .t3ErasureDone dom => decide (dom < 4096)
  | .domStatus q => CmdRefWf q
  | .devMode q => CmdRefWf q
  | .audExport q => CmdRefWf q
  | .audAck q => CmdRefWf q
  | .keyLoad msg => msg.wf
  | .keyDestroy msg => msg.wf
  | .anchorSet msg => msg.wf
  | .prefixRotate msg => msg.wf
  | .confSedge msg => msg.wf
  | .counterRead msg => msg.wf
  | .domReport msg => msg.wf
  | .operatorCmd msg => msg.wf
  | .lcAdvance msg => msg.wf
  | .debugUnlock msg => msg.wf
  | .keyOperationDone _ => true
  | .reinstate dom => decide (dom < 4096)
  | .pldmSetEventReceiver _ => true
  | .pldmPlatformEventSend => true
  | .requestUpdate _ => true
  | .applyComplete => true
  | .ptpSync _ _ _ => true
  | .ptpHoldover => true
  | .devTimeAlarm => true
  | .kvAppend a => RxMsgWf a.msg
  | .heldRecordWrite seq a => decide (seq < 2 ^ 24) && decide (a.layer < 256)
  | .chainRetry slot => decide (slot < 16)
  | .qSubmit m => RxMsgWf m
  | .qHoldRelease _ => true
  | .qHoldTimeout _ => true
  | .dispatch => true
  | .stallEnd _ => true
  | .stallTimeout _ => true
  | .coreTakeTask core => decide (core < 256)
  | .taskPreempt core => decide (core < 256)
  | .taskEnd core _ => decide (core < 256)
  | .spillWaitRelease _ => true
  | .lockstepWrite w => w.wf
  | .lsSwitched => true
  | .pageRead a => RxMsgWf a.msg
  | .prefixLookup m => RxMsgWf m
  | .probeGrant => true
  | .reedbedInsert => true
  | .rowMove _ => true
  | .rowUe _ => true
  | .repairScan => true
  | .resolveScan => true
  | .probeRateSample _ => true
  | .ringQueryStep m => RxMsgWf m
  | .ringQueryChain m => RxMsgWf m
  | .ringPartial m => RxMsgWf m
  | .ringStepHoldRelease _ => true
  | .ringTimeout _ => true
  | .stepMark m => RxMsgWf m
  | .stepmarkIn => true
  | .windowClose => true
  | .epochBoundary => true
  | .powerMonitorSample _ => true
  | .thermalSample _ => true
  | .queueSample => true
  | .autoDvfsDown => true
  | .autoDvfsUp => true
  | .clkCsynWrite die w => decide (die < 2) && w.wf
  | .csynStepDone die => decide (die < 2)
  | .islandOnRequest w => w.wf
  | .islandOffRequest w => w.wf
  | .islandPowerUpDone island => decide (island < 23)
  | .islandDrained island => decide (island < 23)
  | .standbyRequest w => w.wf
  | .standbyCommit => true
  | .sleepAborted _ => true
  | .wake _ => true
  | .standbyExitDone => true
  | .lightDetected port => decide (port < 32)
  | .trainingDone port _ credits => decide (port < 32) && decide (credits.length = 4)
  | .trainingTimeout port => decide (port < 32)
  | .linkFault port _ _ => decide (port < 32)
  | .retrainDone port _ _ => decide (port < 32)
  | .retrainFail port => decide (port < 32)
  | .failedRetry port => decide (port < 32)
  | .laserMonitorSample els laser _ => decide (els < 8) && decide (laser.length = 8)
  | .flitDiscard port _ => decide (port < 32)
  | .nak port f => decide (port < 32) && FlitTailWf f
  | .replayTimer port => decide (port < 32)
  | .idleAckTimer f => f.wf
  | .quietReq f => f.wf
  | .quietAck f => f.wf
  | .resume f => f.wf
  | .sleepReq f => f.wf
  | .sleepAck f => f.wf
  | .quietIdleTimer port => decide (port < 32)
  | .sleepIdleTimer port => decide (port < 32)
  | .causewayWake port => decide (port < 32)
  | .discover m => RxMsgWf m
  | .hello m => RxMsgWf m
  | .accept port _ => decide (port < 32)
  | .acceptReceived m => RxMsgWf m
  | .finish m => RxMsgWf m
  | .doneSend port _ => decide (port < 32)
  | .doneReceived m => RxMsgWf m
  | .handshakeTimeout port _ => decide (port < 32)
  | .join m => RxMsgWf m
  | .detachRequest m => RxMsgWf m
  | .detachDone m => RxMsgWf m
  | .integrityFail m => RxMsgWf m
  | .keepalive m => RxMsgWf m
  | .keepaliveSend _ port => decide (port < 32)
  | .keepaliveExpiry _ port => decide (port < 32)
  | .ackMsnTimer _ => true
  | .error m => RxMsgWf m
  | .refusalRelease => true
  | .hostLinkUp _ _ _ => true
  | .hostLinkDown => true
  | .tierTimeout _ => true
  | .t2Abandon w => w.wf
  | .hifVfBind addr w => addrAligned addr && w.wf
  | .hifT2WindowWrite addr w => addrAligned addr && w.wf
  | .cxlLinkUp port _ _ => decide (port < 4)
  | .cxlDiscoveryDone port _ => decide (port < 4)
  | .cxlLinkDown port => decide (port < 4)
  | .resumePort port w => decide (port < 4) && w.wf
  | .abandon port w => decide (port < 4) && w.wf
  | .cxpCfgEnWrite port w => decide (port < 4) && w.wf
  | .moveRead _ => true
  | .moveWrite _ _ => true
  | .moveCommitStart _ _ => true
  | .moveCommit _ => true
  | .sedgeCompress _ => true
  | .unmap seq layer hg _ => decide (seq < 2 ^ 24) && decide (layer < 256) && decide (hg < 256)
  | .patrolScrub _ found => found.wf
  | .peatWrite _ => true
  | .coalesceExpiry _ => true
  | .stripeRowProgrammed _ => true
  | .programFail _ _ => true
  | .eraseFail _ => true
  | .blockVerify _ _ => true
  | .peatRead _ _ _ => true
  | .trim => true
  | .journalPageProgram => true
  | .gc => true
  | .wearLevel => true
  | .retentionRelocate _ _ _ => true
  | .segmentFlush => true
  | .ckptNow w => w.wf
  | .checkpoint => true
  | .peatRecovery _ => true
  | .fullRebuild => true
  | .format w => w.wf
  | .formatDone => true
  | .nandTargetSilent _ => true
  | .segmentWritten => true
  | .toluoFaultReport => true
  | .ceSummary _ _ => true
  | .fieldTestDue cluster => decide (cluster < 16)
  | .testItem _ _ => true
  | .fieldTestEnd _ => true
  | .tstTrig w => w.all RegWrite.wf
  | .restore w => w.wf
  | .evcDeliver _ => true
  | .holdoffExpiry group => decide (group < 32)
  | .evcEoi w => w.wf
  | .evcSwset w => w.wf
  | .evcPendClear group w => decide (group < 32) && w.wf
  | .evcRouteWrite source w => decide (source < 1024) && w.wf
  | .evcHoldWrite group w => decide (group < 32) && w.wf
  | .lock addr w => addrAligned addr && w.wf
  | .registerWrite addr w => addrAligned addr && w.wf
  | .lowWordRead o _ be => OriginWf o && decide (be < 16)
  | .xltPtrBaseWrite addr w => addrAligned addr && w.wf
  | .xltPtrSizeWrite w => w.wf
  | .rbdBaseWrite addr w => addrAligned addr && w.wf
  | .atcSpillPoolWrite w => w.wf
  | .rbdCfgEnWrite w => w.wf
  | .slcStageWrite w => w.wf
  | .slcDomT0QuotaWrite w => w.wf
  | .pwrEpochCfgWrite w => w.wf
  | .pwrHistClr w => w.wf
  | .commit w => w.wf
  | .calCommitDone _ => true
  | .discard w => w.wf
  | .calWdataWrite w => w.wf
  | .calRdataRead o => OriginWf o
  | .release w => w.wf
  | .unknownMtype m => RxMsgWf m
  | .ringIrqTimer fn ring => decide (fn ≤ 256) && decide (ring < 256)
  | .powerUpStopped island => decide (island < 23)
  | .lctlReqRepeat port => decide (port < 32)
  | .stepmarkOutPulseEnd => true
  | .tapResetInstruction => true
  | .debugTokenExpiry => true
  | .spdmHeartbeatExpiry _ => true
  | .verifyComplete _ => true

end Sys2Proof
end

