-- ==== Sys2Proof/Safety.lean ====
section
/-! DEFINITION. Safety.lean: what the statements mean by a legal state, by a command that completes, and by a request that
nothing refuses. -/

namespace Sys2Proof.Machine

/-- Memory is in canonical form: the same bytes are the same list. -/
abbrev State.memOk (s : State) : Prop := Memory.wf s.mem

/-- Two states give the same byte at every address of every tier. -/
def State.sameMem (s t : State) : Prop := ∀ a, Memory.read t.mem a = Memory.read s.mem a

/-- Outside a scope a state is as another was, but for the hold-off groups, which follow the pending sources (R365). -/
def State.within (s : State) (c : Scope) (t : State) : Prop := t = { s.only c t with evc := t.evc } ∧
  (c.evc = false → t.evc = { s.evc with groups := t.evc.groups })

/-- Every privileged unit serves (R341). -/
abbrev State.allServe (s : State) : Prop := s.serves .xlt = true ∧ s.serves .lve = true ∧ s.serves .evc = true

/-- A write of a register meets no cause of Table 2.3 that does not depend on its value: the device is `READY` and in `SHARED`
mode, the origin reaches the register, all four bytes are enabled, the page is there and unlocked, the privileged units serve,
and the audit log has room. -/
abbrev State.openTo (s : State) (a : Nat) (w : RegWrite) : Prop :=
  s.glb.phase = .ready ∧ s.reaches w.origin a = true ∧ w.be = 15 ∧ s.lve.sole = none ∧ s.allServe ∧
  s.auditTakes = true ∧ s.auditSeals = true ∧ ((placeOf a).all fun p => s.presentAt p && !s.lockedAt p a) = true

/-- No ring is formed on the device: no slot is in use, no sequence is striped, and no step runs on a ring. -/
abbrev State.noRings (s : State) : Prop :=
  s.cwy.slots = [] ∧ (s.xlt.seqs.all fun e => e.2.stripe.isNone) = true ∧ (s.att.steps.all fun t => t.ring.isNone) = true

/-- No port that retrains or sleeps has an unusable lane in both halves, so that none fails at once or as a message wakes it (R228,
R236). -/
abbrev State.portsSee (s : State) : Prop :=
  ((List.range 32).all fun p => !((decide ((s.port p).st = .retrain) || decide ((s.port p).power = .sleep))
    && (lanesFor false (s.port p).unusableLanes).isNone)) = true

/-- No port fails by its lanes, and no session is closing (R254). -/
abbrev State.portsCalm (s : State) : Prop :=
  s.portsSee ∧ (s.cwy.sessions.all fun e => !decide (e.2.st = .detaching)) = true

/-- What follows a command of Causeway finds nothing to do: no ring is formed, no port fails and no session is closing. -/
abbrev State.linksCalm (s : State) : Prop := s.noRings ∧ s.portsCalm

/-- No placement command is in progress or waits (R172). -/
abbrev State.noPlacements (s : State) : Prop := 
  s.slc.places = [] ∧ s.slc.queue = [] ∧ s.slc.spaceWait = [] ∧ s.slc.chainWait = []

/-- A ring command of an opcode can start: it has been fetched and not begun, its fence is met, its ring has not been reset
under it, and the host link is up (R267). -/
abbrev State.offers (s : State) (q : CmdRef) (opcode : Nat) (c : InFlight) : Prop :=
  s.startable q opcode = some c ∧ c.discard = false ∧ s.hif.linkUp = true

/-- What a command has given to the outside. -/
def State.gives (s t : State) : List Out := t.outs.take (t.outs.length - s.outs.length)

/-- Among what a command has given is a completion of `c`, posted on its ring with a status (R264). -/
def State.posts (s t : State) (q : CmdRef) (c : InFlight) (st : Status) : Bool :=
  (s.gives t).any fun o => match o with
    | .cqe f k _ e => f == q.func && k == q.ring && e.cid == c.cid && e.status == st
    | _ => false

/-- A completion of `c` with `OK` and these two words is among what a command has given (Table 12.3). -/
def State.answersWith (s t : State) (q : CmdRef) (c : InFlight) (result detail : Nat) : Bool :=
  (s.gives t).any fun o => match o with
    | .cqe f k _ e => f == q.func && k == q.ring && e.cid == c.cid && e.status == .ok && e.result == result && e.detail == detail
    | _ => false

/-- The domain in which a ring's commands act. -/
abbrev State.ringDomain (s : State) (q : CmdRef) : Nat := (s.func q.func).domain

/-- A command of an opcode that can start and that the translation unit serves. -/
abbrev State.offersXlt (s : State) (q : CmdRef) (opcode : Nat) (c : InFlight) : Prop := s.offers q opcode c ∧ s.serves .xlt = true

/-- Among what a command has given is a message of a type on a port. -/
def State.sends (s t : State) (port mtype : Nat) : Bool :=
  (s.gives t).any fun o => match o with
    | .cwy p _ hdr _ => p == port && u8 hdr 0 == mtype
    | _ => false

/-- Among what a command has given is a link-layer signal. -/
def State.signals (s t : State) (port kind value : Nat) : Bool := (s.gives t).contains (.link port kind value)

/-- A counter as a domain counts in it: a confidential domain has its own (R320). -/
def State.countOf (s : State) (d c : Nat) : Nat := if s.conf d then s.lve.counters.getD (d, c) 0 else s.ctrs.getD c 0

/-- A session has a message of a type and body on its way: sent and not acknowledged, or waiting to be sent (R239). -/
def State.tells (t : State) (i mtype : Nat) (body : List Byte) : Bool :=
  (t.cwy.sessions.get? i).any fun x => (x.copies.any fun c => c.msg.mtype == mtype && c.msg.body == body)
    || x.sendq.any fun q => q.2.mtype == mtype && q.2.body == body

/-- The device after the checks of Table 11.8 on a message whose type admission does not judge. -/
abbrev State.received (s : State) (m : RxMsg) : State := (s.receive m none).1

/-- A message of a type arrives and passes every check of Table 11.8 in session `i`. -/
abbrev State.passes (s : State) (m : RxMsg) (mtype i : Nat) : Prop := s.takes m mtype = true ∧ (s.receive m none).2 = .pass i

/-- An `ATTACH` of a phase arrives on a `READY` port, outside any session, and Levee serves it. -/
abbrev State.attaches (s : State) (m : RxMsg) (phase : Nat) : Prop :=
  s.takes m 0x02 = true ∧ u8 m.body 0 = phase ∧ (s.port m.port).st = .ready ∧ (s.receive m none).2 = .plain ∧ (s.received m).serves .lve = true

/-- A request to Levee that its session carries: verified, of an `OP` and a domain, with a body (R311). -/
abbrev State.asks (s : State) (m : SpdmMsg) (op d : Nat) (b : List Byte) : Prop :=
  m.verified = true ∧ (s.spdm? m.session).isSome = true ∧ m.body = leBytes 1 op ++ leBytes 1 0 ++ leBytes 2 d ++ b ∧ d < 65536 ∧
  s.serves .lve = true

/-- The standard SPDM requests that Levee answers at once from what it holds, with their responses (R276). -/
def State.spdmPlain (s : State) : List (Nat × List Byte) :=
  [(0x84, spdmResp 0x04 (leBytes 1 0 ++ leBytes 1 2 ++ leBytes 2 0x1200 ++ leBytes 2 0x1300)), (0xE1, spdmResp 0x61 []), (0xE3, spdmResp 0x63 []),
    (0x81, spdmResp 0x01 ((s.chain.map sha384).getD [])), (0x82, (s.chain.map (spdmResp 0x02)).getD (spdmError Status.absent.code)),
    (0x85, spdmResp 0x05 []), (0x86, spdmResp 0x06 [])]

/-- The codes of the standard SPDM requests. -/
def spdmCodes : List Nat := [0x84, 0xE1, 0xE3, 0x81, 0x82, 0x85, 0x86, 0x83, 0xE0, 0xE4, 0xE5, 0xE8, 0xE9, 0xEC]

/-- The response to a request that a key operation signs: `CHALLENGE` (0x83) or `GET_MEASUREMENTS` (0xE0). -/
def State.spdmSigned (s : State) (code : Nat) (b : List Byte) : List Byte :=
  if code = 0x83 then spdmResp 0x03 (signature 1 (b ++ s.measurements))
  else spdmResp 0x60 (s.measurements ++ signature 1 (b ++ s.measurements))

/-- Among what a command has given is the response to a request. -/
def State.replies (s t : State) (m : SpdmMsg) (op d : Nat) (st : Status) (out : List Byte) : Bool :=
  (s.gives t).contains (.spdm m.session (leveeResp op st.code d out))

/-- A fetched command that has not been dropped, on a ring of the linked host: its completion can be posted. -/
abbrev State.waitsFor (s : State) (q : CmdRef) (c : InFlight) : Prop :=
  (s.ring q.func q.ring).inflight.find? (fun f => f.num == q.num) = some c ∧ c.discard = false ∧ s.hif.linkUp = true

/-- An append record of domain `d` passes checks 1 to 7 of Table 4.5 on sequence `i`, on which no truncate is held. -/
abbrev State.takesRecord (s : State) (d : Nat) (b : List Byte) (i : Nat) (x : Seq) : Prop :=
  4 ≤ b.length ∧ s.findSeq d (u32 b 0) = .ok (i, x) ∧ x.trunc = none ∧ (x.st = .idle ∨ x.st = .active) ∧ appendShape b = true ∧
  u16 b 4 < (s.modelOf x).layers ∧ s.tailPoisoned i x (u16 b 4) = false ∧ s.tailForeign x (u16 b 4) (u32 b 8 / 16) = false ∧
  b.length = 12 + 4 * u8 b 6 + 4 * u8 b 6 * (s.modelOf x).kvHeads * (s.modelOf x).headDim ∧ u32 b 8 + u8 b 6 ≤ 2 ^ 24 ∧
  ((appendRec (s.modelOf x) b).k.all bf16Finite && (appendRec (s.modelOf x) b).v.all bf16Finite) = true ∧ u32 b 8 = x.nextPos (u16 b 4) ∧
  (x.stripe.any fun y => decide (x.base + 2 ^ y.log < u32 b 8 + u8 b 6)) = false ∧ s.overR56 x (appendRec (s.modelOf x) b) = false ∧
  s.newTailBytes x (appendRec (s.modelOf x) b) ≤ s.t0Share d ∧ s.metaFits i x (appendRec (s.modelOf x) b) = true

/-- Work that arrives is dispatched at once (R290): no epoch runs, or nothing else is pending and the item fits in one part. -/
abbrev State.runsAtOnce (s : State) (it : Item) : Prop :=
  s.pwr.live = false ∨ (s.pwr.items = [] ∧ s.fitsItem it = true ∧ s.partsOf it = 1)

/-- Work that arrives waits for its dispatch (R290): nothing else is pending, and it does not fit. -/
abbrev State.waitsFirst (s : State) (it : Item) : Prop := s.pwr.live = true ∧ s.pwr.items = [] ∧ s.fitsItem it = false

/-- A record falls into one page that is mapped and open in every head group, does not fill it, and nothing makes it wait
(R83). -/
abbrev State.opensFor (s : State) (i : Nat) (x : Seq) (r : AppendRec) (before : Bool) : Prop :=
  r.pos % 16 + r.count < 16 ∧ ((List.range (s.modelOf x).groups).all fun h => (x.ptes.get? (r.layer, h, r.pos / 16)).any fun e =>
    e.fill == r.pos % 16 && !s.pagePoison i r.layer h (r.pos / 16) e) = true ∧ s.holdCause i x r before = none

/-- The next page that a delivery of a sequence asks for is mapped, sound and in T0 (R187). -/
abbrev State.deliverable (s : State) (r : PageRead) (x : Seq) (e : Pte) : Prop :=
  s.seq? r.target = some x ∧ r.layer < (s.modelOf x).layers ∧ r.hg < (s.modelOf x).groups ∧
  x.ptes.get? (r.layer, r.hg, r.page + r.next) = some e ∧ s.foreignPte r.domain e = false ∧ s.pagePoison r.target r.layer r.hg (r.page + r.next) e = false ∧
  (s.firstOut (e.metaPath r.target r.layer r.hg (r.page + r.next))).isNone = true ∧
  s.inT0 (e.frame r.target r.layer r.hg (r.page + r.next)) = true

/-- A query record of domain `d` passes the checks of Table 5.5 for a requester, on a sequence `i` that is no stripe and on
which no truncate is held. -/
abbrev State.takesQuery (s : State) (d : Nat) (r : Requester) (b : List Byte) (i : Nat) (x : Seq) : Prop :=
  s.glb.variant.hasAttn = true ∧ queryShape b = true ∧ s.findSeq d (u32 b 0) = .ok (i, x) ∧ x.trunc = none ∧ (x.st = .idle ∨ x.st = .active) ∧
  b.length = 28 + 2 * ((s.modelOf x).qHeads * (s.modelOf x).headDim) ∧ (readQuery b).layer < (s.modelOf x).layers ∧
  (readQuery b).resultLen (s.modelOf x) ≤ s.outRoom r ∧ (readBf16 b 28 ((s.modelOf x).qHeads * (s.modelOf x).headDim)).all bf16Finite = true ∧
  (readQuery b).ctx ≤ x.accPos (readQuery b).layer + 15 ∧ s.anyCluster = true ∧ x.stripe = none ∧ s.step? s.att.nextStep = none ∧
  (s.cutOf x { readQuery b with q := readBf16 b 28 ((s.modelOf x).qHeads * (s.modelOf x).headDim) }).spillNeed (readQuery b).latency
    (x.keptOf { readQuery b with q := readBf16 b 28 ((s.modelOf x).qHeads * (s.modelOf x).headDim) }) ≤ s.spillBytes

/-- The pages that a step reads are sound, of its domain and in T0 with their tables, and no pre-emption holds it (R23, R24,
R68). -/
abbrev State.resolvable (s : State) (y : Step) (x : Seq) : Prop :=
  s.seq? y.seq = some x ∧ x.st ≠ .preempted ∧ (s.preempting y.seq && !y.before) = false ∧
  ((s.stepPages y).all fun p => !s.foreignPte y.domain p.2.1 && s.inT0 p.2.2 && !s.pagePoison y.seq p.1.1 p.1.2.1 p.1.2.2 p.2.1) = true ∧
  (s.firstOut ((s.stepPages y).flatMap fun p => p.2.1.metaPath y.seq p.1.1 p.1.2.1 p.1.2.2).eraseDups).isNone = true

/-- The step of a task has its spill space, or can take it (R103). -/
abbrev State.mayStart (s : State) (k : Task) : Prop :=
  s.task? k.id = some k ∧ ((s.step? k.step).any fun y => k.spill == 0 || (s.takeSpill y).1) = true

/-- No hand-off of a domain waits in the queue of the update engine (R146). -/
abbrev State.updatesDone (s : State) (d : Nat) : Prop :=
  ((s.xlt.handoffs.take 4096).any fun h => ((s.xlt.bds.get? h.bd).map Bd.domain) == some d) = false

/-- Every entry of the index is valid, and no two of a row hold one block. -/
abbrev State.rowsWhole (s : State) : Prop :=
  ∀ r ∈ s.rbd.rows, (∀ e ∈ r.2, e.2.valid = true) ∧ (r.2.map fun e => e.2.bd).Nodup

/-- What follows a command of Causeway finds nothing to do though rings are formed: no forwarded step has lost its predecessor, no
stripe waits for a running hash that cannot come, no `HELLO` and no `JOIN` is due, no port fails and no session is closing (R121,
R127, R135). -/
abbrev State.ringsQuiet (s : State) : Prop :=
  (s.att.steps.all fun t => t.ring.all fun r => r.forwarded.isNone || r.received.isSome || decide (r.k ≤ r.low) || (s.slot r.slot).pred.isSome) = true ∧
  (s.xlt.seqs.all fun e => e.2.runKnown || e.2.noIdx.isSome || e.2.stripe.all fun z =>
    decide ((s.slot z.slot).st ≠ .degraded) || (s.slot z.slot).pred.isSome) = true ∧
  (s.cwy.slots.all fun e => (s.helloPort (s.slot e.1)).isNone && (s.slot e.1).succ.all fun i => (s.joinPorts (s.slot e.1) i).isEmpty) = true ∧
  s.portsCalm

/-- A `STEP` record of a slot passes the checks of R130 on stripe `z` of sequence `i`. -/
abbrev State.takesRingStep (s : State) (k : Nat) (b : List Byte) (i : Nat) (x : Seq) (z : Stripe) : Prop :=
  s.glb.variant.hasAttn = true ∧ ringShape b = true ∧ s.liveStripe k (u32 b 0) = some (i, x) ∧ x.stripe = some z ∧ x.trunc = none ∧ (x.st = .idle ∨ x.st = .active) ∧
  s.xlt.seqs.get? i = some x ∧ u8 b 18 ≤ z.k ∧ z.k < u8 b 19 ∧
  b.length = 32 + 2 * ((s.modelOf x).qHeads * (s.modelOf x).headDim) ∧ (readRingQuery b).layer < (s.modelOf x).layers ∧
  (readBf16 b 32 ((s.modelOf x).qHeads * (s.modelOf x).headDim)).all bf16Finite = true ∧ (s.slot k).st ≠ .leaving ∧
  (u8 b 18 < z.k → s.slotPasses (s.slot k) = true ∧ (s.slot k).forwarding.length < 64) ∧ s.step? s.att.nextStep = none

/-! ### What a command may change -/

end Sys2Proof.Machine

namespace Sys2Proof

open Sys2Proof.Machine

/-- The parts of the state that a command may change beside memory; none for a reset, which clears the device. -/
def Instr.scope : Instr → Option Scope
  | .startupReady => some .startup
  | .deviceResetRequest _ => some { Scope.row with mgmt := true, flt := true }
  | .toluoRestart _ | .warmReset _ _ | .unitWatchdogExpiry _ | .warmResetDone _ _ _ | .monitorTrip _ | .monitorPersistent |
    .segmentWritten | .tstTrig _ | .registerWrite _ _ => some .device
  | .linkReset | .functionLevelReset _ | .sqDoorbell _ _ _ | .cqDoorbell _ _ _ | .ringDrained _ _ | .hostLinkUp _ _ _ |
    .hostLinkDown | .cxlLinkUp _ _ _ | .cxlDiscoveryDone _ _ | .cxlLinkDown _ | .evcDeliver _ | .holdoffExpiry _ |
    .ringIrqTimer _ _ => some .host
  | .autorst | .thermtrip _ | .pldmSetEventReceiver _ | .pldmPlatformEventSend | .applyComplete | .calCommitDone _ |
    .stepmarkOutPulseEnd | .tapResetInstruction | .spdmHeartbeatExpiry _ | .verifyComplete _ => some .board
  | .monitorInRange | .teardownCryptoErase _ | .debugTokenExpiry => some .levee
  | .keyStoreUe _ _ | .lveSpdm _ _ | .domTeardown _ | .keyLoad _ | .keyDestroy _ | .anchorSet _ | .prefixRotate _ | .confSedge
    _ | .counterRead _ | .domReport _ | .operatorCmd _ | .lcAdvance _ | .debugUnlock _ | .keyOperationDone _ => some .channel
  | .nop _ | .commandFetch _ _ _ | .hostReadTimeout _ | .seqQuery _ | .domStatus _ | .chainRetry _ | .refusalRelease => some
    .answer
  | .ringEnable _ _ | .ringDisable _ _ | .clkCsynWrite _ _ | .standbyRequest _ | .hifVfBind _ _ | .hifT2WindowWrite _ _ |
    .resumePort _ _ | .cxpCfgEnWrite _ _ | .lock _ _ | .xltPtrSizeWrite _ | .atcSpillPoolWrite _ | .rbdCfgEnWrite _ |
    .slcStageWrite _ | .pwrEpochCfgWrite _ | .pwrHistClr _ | .commit _ | .discard _ | .calWdataWrite _ => some .row
  | .modelRegister _ _ | .modelRelease _ | .seqCreate _ | .seqStripe _ | .objCreate _ | .objSeal _ | .ringLeave _ | .audExport
    _ | .audAck _ => some .command
  | .seqRetire _ => some { Scope.command with slc := true }
  | .seqRetired _ | .seqTruncate _ | .seqMapPrefix _ _ | .seqPreempt _ | .preemptDemote _ | .seqRestore _ | .attend _ _ |
    .slcWait _ | .objRelease _ | .qHoldRelease _ | .qHoldTimeout _ | .stallTimeout _ | .taskEnd _ _ |
    .spillWaitRelease _ | .ringStepHoldRelease _ | .ringTimeout _ | .moveRead _ | .unmap _ _ _ _ | .peatWrite _ |
    .fieldTestDue _ => some .engine
  | .dispatch | .truncateRelease _ | .cmdKvAppend _ _ | .cmdPrefixLookup _ _ | .slcPlace _ | .kvAppend _ | .heldRecordWrite _ _ |
    .stallEnd _ | .pageRead _ | .prefixLookup _ | .tierTimeout _ | .moveCommit _ => some .lookup
  | .seqPclass _ | .objWrite _ _ | .islandPowerUpDone _ | .islandDrained _ | .standbyCommit | .standbyExitDone |
    .moveCommitStart _ _ | .stripeRowProgrammed _ => some .store
  | .prefixSetRange _ | .prefixFloor _ | .floorSweep _ | .prefixEvict _ | .prefixPurge _ | .purgeSweepEnd _ | .reinstate _ |
    .probeGrant | .repairScan | .resolveScan | .moveWrite _ _ | .sedgeCompress _ | .patrolScrub _ _ => some .search
  | .ringJoin _ | .ringSlotFree _ | .qSubmit _ | .ringQueryStep _ | .ringQueryChain _ | .ringPartial _ | .lightDetected _ |
    .trainingDone _ _ _ | .trainingTimeout _ | .linkFault _ _ _ | .retrainDone _ _ _ | .retrainFail _ | .failedRetry _ |
    .laserMonitorSample _ _ _ | .flitDiscard _ _ | .nak _ _ | .replayTimer _ | .idleAckTimer _ | .quietReq _ | .quietAck _
    | .resume _ | .sleepReq _ | .sleepAck _ | .quietIdleTimer _ | .sleepIdleTimer _ | .causewayWake _ | .discover _ |
    .hello _ | .accept _ _ | .acceptReceived _ | .finish _ | .doneSend _ _ | .doneReceived _ | .handshakeTimeout _ _ | .join _
    | .detachRequest _ | .detachDone _ | .integrityFail _ | .keepalive _ | .keepaliveSend _ _ | .keepaliveExpiry _ _ |
    .ackMsnTimer _ | .error _ | .unknownMtype _ | .lctlReqRepeat _ => some .link
  | .spdmRequest _ | .domCreate _ _ | .devMode _ => some .trust
  | .teardownScrubDone _ => some { Scope.search with lve := true, aud := true }
  | .t3ErasureDone _ => some .erasure
  | .requestUpdate _ => some .update
  | .ptpSync _ _ _ | .ptpHoldover | .devTimeAlarm | .windowClose | .thermalSample _ | .queueSample | .autoDvfsDown |
    .autoDvfsUp | .csynStepDone _ | .sleepAborted _ | .wake _ | .powerUpStopped _ => some .budget
  | .coreTakeTask _ | .taskPreempt _ | .lsSwitched | .toluoFaultReport | .ceSummary _ _ | .testItem _ _ | .fieldTestEnd _ =>
    some .tests
  | .lockstepWrite _ => some { Scope.row with att := true, flt := true }
  | .reedbedInsert | .rowMove _ | .rowUe _ | .probeRateSample _ => some .index
  | .stepMark _ => some { Scope.link with glb := true }
  | .stepmarkIn | .epochBoundary => some .mark
  | .powerMonitorSample _ => some { Scope.budget with flt := true }
  | .islandOnRequest _ | .islandOffRequest _ | .t2Abandon _ | .abandon _ _ => some .rowEngine
  | .coalesceExpiry _ => some { Scope.engine with mgmt := true }
  | .programFail _ _ | .eraseFail _ | .blockVerify _ _ | .trim | .journalPageProgram | .gc | .wearLevel | .retentionRelocate _ _ _
    | .segmentFlush | .checkpoint | .peatRecovery _ | .fullRebuild | .formatDone | .nandTargetSilent _ => some .flash
  | .peatRead _ _ _ => some { Scope.lookup with mgmt := true }
  | .ckptNow _ | .format _ | .release _ => some { Scope.row with pea := true }
  | .restore _ => some { Scope.row with flt := true, cwy := true }
  | .evcEoi _ | .evcSwset _ | .evcPendClear _ _ | .evcRouteWrite _ _ | .evcHoldWrite _ _ => some { Scope.row with evc := true
    }
  | .lowWordRead _ _ _ | .calRdataRead _ => some .reading
  | .xltPtrBaseWrite _ _ => some { Scope.row with xlt := true }
  | .rbdBaseWrite _ _ => some { Scope.row with rbd := true }
  | .slcDomT0QuotaWrite _ => some { Scope.row with slc := true }
  | .powerOn _ | .pwrgoodFall | .deviceReset _ => none

/-- The commands that store bytes in a tier of memory. -/
def Instr.storesMem : Instr → Bool
  | .dispatch | .truncateRelease _ | .cmdKvAppend _ _ | .slcPlace _ | .objWrite _ _ | .teardownScrubDone _ | .kvAppend _ |
    .heldRecordWrite _ _ | .stallEnd _ | .tierTimeout _ | .moveWrite _ _ | .moveCommitStart _ _ | .moveCommit _ |
    .sedgeCompress _ => true
  | _ => false

end Sys2Proof

namespace Sys2Proof.Machine

/-- A command's frame: outside a scope the state is as it was, but for the hold-off groups, and memory is as it was but for what
a storing command stores. The queue and the time stand. -/
def State.keeps (s : State) (i : Instr) (c : Scope) (t : State) : Prop :=
  ({ s with mem := bif i.storesMem then t.mem else s.mem } : State).within c t

/-- The state with the bytes that an append record puts into the mapped frames of its pages, as `segPatches` gives them. -/
def State.storeRecord (s : State) (x : Seq) (r : AppendRec) : State :=
  (r.segments (s.modelOf x)).foldl (fun u g => (List.range (s.modelOf x).groups).foldl (fun u h =>
    match x.ptes.get? (r.layer, h, g.page) with
    | none => u
    | some e => (segPatches (s.modelOf x) r.layer h e.head (fun o n => u.frameBytes e.home o n) g).1.foldl
        (fun v p => v.putBytes e.home p.1 p.2) u) u) s

/-- Whether an address lies in the first bytes of a frame of a tier. -/
abbrev inFrame (h : Home) (n a : Nat) : Prop := memKey h.tier (h.addr * 512) ≤ a ∧ a < memKey h.tier (h.addr * 512) + n

/-- The hold-off groups that are not idle are those of the pending sources, and there is none during a warm reset of the
controller (R365). -/
def State.groupsFollow (s : State) : Prop :=
  ∀ g, (s.evc.groups.get? g).isSome = (s.flt.evc.warmSince.isNone && s.pendingSources.any fun n => n / 32 == g) ∧
    s.evc.groups.get? g ≠ some .idle

end Sys2Proof.Machine
end

