-- ==== Sys2Proof/Certificates/Slice0/Obligations.lean ====
section
/-! DEFINITION. Certificates/Slice0/Obligations.lean: the statements for the provers. A clause about a command says in which
states it has its own effect, that it then answers a next state, and what that state holds. -/

open Sys2Proof Sys2Proof.Machine

/-- PWRGOOD rising or falling and a due device reset clear sessions, rings, sequences, models, the index and the VF
bindings and start DEV_TIME and the epochs at 0; T0 reads zero; the cause of a device reset stands. GLB_RSTCTL with
its key asks for a device reset or restarts Toluo; AUTORST and the TAP ask with their causes. A link reset and an FLR
disable rings and keep bindings. -/
def Obligations.ResetCommandsComplete : Prop :=
    (∀ (s : State) (f : FuseScan) (a : Nat),
      a < 2 ^ 56 →
      f.words.all (fun r => !r.marginal) = true →
      s.lve.lcFuse ≠ .fin →
      s.lve.intentFuse ≠ .fin →
      ∃ t, exec (.powerOn f) s = .next t ∧ t.glb.pwrgood = true ∧ t.glb.cause = 0 ∧ t.lve.lc = s.lve.lcFuse.later s.lve.intentFuse ∧ t.lve.doms = [] ∧ t.cwy.sessions = [] ∧ t.cwy.slots = [] ∧ t.xlt.seqs = [] ∧ t.xlt.models = [] ∧ t.rbd.doms = [] ∧ t.hif.funcs = [] ∧ t.now = 0 ∧ t.pwr.epoch = 0 ∧ Memory.read t.mem a = 0#8) ∧
    (∀ (s : State),
      ∃ t, exec (.pwrgoodFall) s = .next t ∧ t.glb.pwrgood = false ∧ t.glb.phase = .off ∧ t.cwy.sessions = [] ∧ t.cwy.slots = [] ∧ t.xlt.seqs = [] ∧ t.xlt.models = [] ∧ t.rbd.doms = [] ∧ t.hif.funcs = [] ∧ t.now = 0 ∧ t.pwr.epoch = 0) ∧
    (∀ (s : State) (f : FuseScan) (r : ResetReq) (a : Nat),
      a < 2 ^ 56 →
      s.glb.resetReq = some r →
      s.resetDue r = true →
      f.words.all (fun r => !r.marginal) = true →
      s.lve.lcFuse ≠ .fin →
      s.lve.intentFuse ≠ .fin →
      ∃ t, exec (.deviceReset f) s = .next t ∧ t.glb.cause = r.cause ∧ t.glb.flushed = r.flushed ∧ t.glb.wasSafe = s.lve.safe ∧ t.lve.doms = [] ∧ t.cwy.sessions = [] ∧ t.cwy.slots = [] ∧ t.xlt.seqs = [] ∧ t.xlt.models = [] ∧ t.rbd.doms = [] ∧ t.hif.funcs = [] ∧ t.now = 0 ∧ t.pwr.epoch = 0 ∧ Memory.read t.mem a = 0#8) ∧
    (∀ (s : State) (w : RegWrite),
      s.openTo Reg.glbRstctl w →
      bits w.value.toNat 15 0 = 0x7840 →
      bit w.value.toNat 31 = true →
      s.glb.resetReq = none →
      ∃ t, exec (.deviceResetRequest w) s = .next t ∧ t.glb.resetReq = some { cause := match w.origin with | .toluo => 2 | .jtag => 4 | _ => 1, noflush := bit w.value.toNat 30, since := s.now }) ∧
    (∀ (s : State),
      ∃ t, exec (.toluoRestart none) s = .next t ∧ t.mgmt.sessions = [] ∧ t.mgmt.update = .idle ∧ (t.history (unitWord 1 0 1)).events = (s.history (unitWord 1 0 1)).events ++ [s.histNow]) ∧
    (∀ (s : State) (w : RegWrite),
      s.openTo Reg.glbRstctl w →
      bits w.value.toNat 15 0 = 0x7840 →
      bit w.value.toNat 29 = true →
      ∃ t, exec (.toluoRestart (some w)) s = .next t ∧ t.mgmt.sessions = [] ∧ t.mgmt.update = .idle ∧ (t.history (unitWord 1 0 1)).events = (s.history (unitWord 1 0 1)).events ++ [s.histNow]) ∧
    (∀ (s : State),
      s.flt.xlt.held = true ∨ s.flt.lve.held = true ∨ s.flt.evc.held = true →
      bit (s.reg Reg.glbFaultCfg) 31 = true →
      s.flt.fifo = [] →
      s.glb.resetReq = none →
      ∃ t, exec (.autorst) s = .next t ∧ t.glb.resetReq = some { cause := 3, noflush := false, since := s.now }) ∧
    (∀ (s : State),
      s.tapOpen = true →
      s.glb.resetReq = none →
      ∃ t, exec (.tapResetInstruction) s = .next t ∧ t.glb.resetReq = some { cause := 4, noflush := false, since := s.now }) ∧
    (∀ (s : State) (n : Nat) (k : Nat),
      s.hif.funcs.get? n ≠ none ∨ n = 0 →
      ∃ t, exec (.linkReset) s = .next t ∧ (t.ring n k).st = .disabled ∧ (t.func n).bound = (s.func n).bound ∧ t.hif.vfsEnabled = 0) ∧
    (∀ (s : State) (n : Nat) (k : Nat),
      n ≤ 256 →
      ∃ t, exec (.functionLevelReset n) s = .next t ∧ (t.ring n k).st = .disabled ∧ (t.func n).bound = (s.func n).bound ∧ (t.func n).domain = (s.func n).domain ∧ (t.func n).rings = (s.func n).rings)

/-- STARTUP_READY brings the device to READY with epoch 0 planned for its length and every island of the variant ON. An
in-window edge on STEPMARK_IN ends the running epoch at once and plans the next to the mark plus L. The pulse of
STEPMARK_OUT ends at its time; THERMTRIP falls above 120 °C. An update is asked for, verified and applied to the
inactive slot; a calibration commit ends with the staged set stored, or failed. -/
def Obligations.StartupAndPinCommandsComplete : Prop :=
    (∀ (s : State) (n : Nat),
      s.glb.phase = .startup →
      n < 23 →
      s.glb.variant.hasIsland n = true →
      ∃ t, exec (.startupReady) s = .next t ∧ t.glb.phase = .ready ∧ t.pwr.epoch = 0 ∧ t.pwr.live = true ∧ t.pwr.start = s.now ∧ t.pwr.planned = s.now + s.fld Reg.pwrEpochCfg 26 16 * 1000 ∧ t.island n = .on) ∧
    (∀ (s : State),
      s.glb.phase = .ready →
      s.smSrc = 1 →
      s.pwr.live = true →
      s.pwr.resync = false →
      s.pwr.startByTime = false →
      s.now < s.pwr.planned →
      s.pwr.planned ≤ s.now + s.pwr.len * 100 →
      ∃ t, exec (.stepmarkIn) s = .next t ∧ t.pwr.epoch = s.pwr.epoch + 1 ∧ t.pwr.start = s.now ∧ t.pwr.planned = s.now + s.fld Reg.pwrEpochCfg 26 16 * 1000 ∧ t.pwr.smLast = (s.now : Int) - s.pwr.planned ∧ t.pwr.run = 0) ∧
    (∀ (s : State) (u : Nat),
      s.glb.smoutUntil = some u →
      u ≤ s.now →
      ∃ t, exec (.stepmarkOutPulseEnd) s = .next t ∧ t.glb.smoutUntil = none ∧ t.outs = .pin .stepmarkOut 0 :: s.outs) ∧
    (∀ (s : State) (c : Int),
      1200 < c →
      s.glb.phase ≠ .off →
      s.glb.thermtrip = false →
      ∃ t, exec (.thermtrip c) s = .next t ∧ t.glb.thermtrip = true ∧ t.outs = .pin .thermtripN 0 :: s.outs) ∧
    (∀ (s : State) (x : Nat),
      s.updatePeer x = true →
      s.mgmt.update = .idle →
      s.aud.waiting = [] →
      s.auditSeals = true →
      ∃ t, exec (.requestUpdate x) s = .next t ∧ (t.aud.waiting.any fun w => w.2 == .fwUpdate x) = true ∧ t.outs = .pldm x pldmRequestUpdate [0] :: s.outs) ∧
    (∀ (s : State) (m : Image),
      s.mgmt.update = .receiving →
      ∃ t, exec (.verifyComplete m) s = .next t ∧ t.mgmt.update = (if m.good then .verified m else .idle) ∧ t.outs = .pldm 0 pldmVerifyComplete [if m.good then 0 else 1] :: s.outs) ∧
    (∀ (s : State) (m : Image),
      s.mgmt.update = .verified m →
      ∃ t, exec (.applyComplete) s = .next t ∧ t.glb.pendingSlot = some (1 - s.glb.active) ∧ t.glb.tried = false ∧ t.glb.image (1 - s.glb.active) = some m ∧ (s.glb.active ≤ 1 → t.glb.image s.glb.active = s.glb.image s.glb.active) ∧ t.mgmt.update = .idle) ∧
    (∀ (s : State) (ok : Bool),
      s.glb.calState = .committing →
      s.calWaits = false →
      s.now ≤ s.glb.calSince + 40000000000 →
      ∃ t, exec (.calCommitDone ok) s = .next t ∧ t.glb.calStored = (if ok then s.glb.staged else []) ∧ t.glb.calState = (if ok then .idle else .failed)) ∧
    (∀ (s : State) (u : Nat),
      s.lve.debugUntil = some u →
      u < s.ftimeNow →
      ∃ t, exec (.debugTokenExpiry) s = .next t ∧ t.lve.debugUntil = none) ∧
    (∀ (s : State) (g : Segment),
      s.aud.segments.find? (fun x => !x.written) = some g →
      s.waits (.sign g.number) = false →
      s.aud.waiting = [] →
      s.linksCalm →
      ∃ t, exec (.segmentWritten) s = .next t ∧ (Config.flashWriteFails s.fresh = true → bit (t.reg (Err.audWriteFail.1 + 0x10)) Err.audWriteFail.2 = true) ∧ (t.aud.segments.find? fun x => x.number == g.number).map Segment.written = some true ∧ t.aud.segments.length = s.aud.segments.length) ∧
    (∀ (s : State) (g : Segment) (n : Nat) (p : Persist),
      s.aud.segments.find? (fun x => !x.written) = some g →
      s.waits (.sign g.number) = false →
      s.aud.waiting = [(n, p)] →
      n ≤ g.number →
      ∃ t, exec (.segmentWritten) s = .next t ∧ t.aud.waiting = [] ∧ match p with
        | .lcAdvance x b _ => t.lve.lc = x ∧ t.lve.lcFuse = x ∧ (x = .provisioned → t.lve.serviceAnchor = some b) ∧ (x = .field → t.lve.operatorAnchor = some b) ∧ (x = .fin → s.lve.safe = false → t.glb.phase = .safe)
        | .debugUnlock u _ => t.lve.debugUntil = some u
        | .fwUpdate _ => t.mgmt.update = .receiving
        | .calCommit => t.glb.calStored = [] ∧ t.glb.calSince = s.now
        | .format => s.formats = true → t.pea.pstate = .formatting)

/-- For each origin (PF0, each VF, Toluo, JTAG): a read of the low word of a 64-bit register latches the high word for
that origin and for no other; its next read of the high word returns the latched value; a read of the high word that
does not directly follow returns the live value. -/
def Obligations.WideRegisterReadsLatchTheHighWord : Prop :=
    (∀ (s : State) (o : Origin) (o2 : Origin) (a : Nat),
      s.reaches o a = true →
      addrExists a = true →
      a % 4 = 0 →
      isWide a = true →
      o2 ≠ o →
      ∃ t, exec (.lowWordRead o a 15) s = .next t ∧ t.latches.get? o = some (a + 4, BitVec.ofNat 32 (s.readReg (a + 4))) ∧ t.latches.get? o2 = s.latches.get? o2) ∧
    (∀ (s : State) (o : Origin) (a : Nat) (x : Word),
      s.reaches o a = true →
      addrExists a = true →
      a % 4 = 0 →
      s.latches.get? o = some (a, x) →
      ∃ t, exec (.lowWordRead o a 15) s = .next t ∧ t.outs = .regData o a x :: s.outs) ∧
    (∀ (s : State) (o : Origin) (a : Nat),
      s.reaches o a = true →
      addrExists a = true →
      a % 4 = 0 →
      (s.latches.get? o).map Prod.fst ≠ some a →
      ∃ t, exec (.lowWordRead o a 15) s = .next t ∧ t.outs = .regData o a (BitVec.ofNat 32 (s.readReg a)) :: s.outs)

/-- A write of a plain register stores its value; LOCK sets the lock of the instance; a read of GLB_CAL_RDATA gives a word
and moves ADDR on by 4, as a write of GLB_CAL_WDATA does once it has staged its word; COMMIT of a valid staged set
waits for its audit entry, DISCARD empties the staged copy, and RELEASE discards the parked records and the retained
sectors. -/
def Obligations.RegisterAccessesComplete : Prop :=
    (∀ (s : State) (w : RegWrite) (i : Nat),
      s.openTo (Reg.glbScratch + 4 * i) w →
      i < 4 →
      ∃ t, exec (.registerWrite (Reg.glbScratch + 4 * i) w) s = .next t ∧ t.reg (Reg.glbScratch + 4 * i) = w.value.toNat) ∧
    (∀ (s : State) (w : RegWrite) (p : RegPlace) (a : Nat),
      s.openTo a w →
      placeOf a = some p →
      p.off = 8 →
      msixAt a = none →
      bit w.value.toNat 31 = true →
      ∃ t, exec (.lock a w) s = .next t ∧ bit (t.reg (p.ctrl a)) 31 = true ∧ t.lockedAt p a = true) ∧
    (∀ (s : State) (o : Origin),
      s.reaches o Reg.glbCalRdata = true →
      ∃ t, exec (.calRdataRead o) s = .next t ∧ t.calAddr = (s.calAddr + 4) % 2 ^ 22 ∧ ∃ x, t.outs = .regData o Reg.glbCalRdata x :: s.outs ∧
        ((s.latches.get? o).map Prod.fst ≠ some Reg.glbCalRdata → x = BitVec.ofNat 32 (s.readReg Reg.glbCalRdata))) ∧
    (∀ (s : State) (w : RegWrite),
      s.openTo Reg.glbCalWdata w →
      s.glb.calState ≠ .committing →
      ∃ t, exec (.calWdataWrite w) s = .next t ∧ t.glb.calStaged.get? s.calAddr = some w.value ∧ t.glb.calState = .staged ∧ t.calAddr = (s.calAddr + 4) % 2 ^ 22) ∧
    (∀ (s : State) (w : RegWrite),
      s.openTo Reg.glbCalCtl w →
      bit w.value.toNat 31 = true →
      bit w.value.toNat 30 = false →
      s.glb.calState ≠ .committing →
      calValid s.glb.staged = true →
      ∃ t, exec (.commit w) s = .next t ∧ t.glb.calState = .committing ∧ (t.aud.waiting.any fun x => x.2 == .calCommit) = true) ∧
    (∀ (s : State) (w : RegWrite),
      s.openTo Reg.glbCalCtl w →
      bit w.value.toNat 31 = false →
      bit w.value.toNat 30 = true →
      s.glb.calState ≠ .committing →
      ∃ t, exec (.discard w) s = .next t ∧ t.glb.calStaged = [] ∧ t.glb.calState = .idle) ∧
    (∀ (s : State) (w : RegWrite),
      s.openTo Reg.glbT3Ctl w →
      bit w.value.toNat 31 = true →
      ((s.pea.parked.map Park.domain).any s.reinstating) = false →
      ∃ t, exec (.release w) s = .next t ∧ t.pea.parked = [] ∧ t.pea.retained = [])

/-- Where nothing lives in the region and the regions are apart and in T0, a write of a base or a size takes its value,
and a base places its region; EN of RBD_CFG takes its value once the region is placed; the spill pool, the staging
share and the quota of the selected domain take values in range; a change of LOCKSTEP leaves a switch pending. -/
def Obligations.RegionAndStagingWritesComplete : Prop :=
    (∀ (s : State) (w : RegWrite),
      s.openTo Reg.xltPtrBaseLo w →
      s.ptrInUse = false →
      s.slc.extents = [] →
      (({ s with xlt := { s.xlt with placed := true } } : State).setReg Reg.xltPtrBaseLo (setBits (s.reg Reg.xltPtrBaseLo) 31 30 (bits w.value.toNat 31 30))).regionsOk = true →
      ∃ t, exec (.xltPtrBaseWrite Reg.xltPtrBaseLo w) s = .next t ∧ t.reg Reg.xltPtrBaseLo = (setBits (s.reg Reg.xltPtrBaseLo) 31 30 (bits w.value.toNat 31 30)) ∧ t.xlt.placed = true) ∧
    (∀ (s : State) (w : RegWrite),
      s.openTo Reg.xltPtrBaseHi w →
      s.ptrInUse = false →
      s.slc.extents = [] →
      (({ s with xlt := { s.xlt with placed := true } } : State).setReg Reg.xltPtrBaseHi (setBits (s.reg Reg.xltPtrBaseHi) 7 0 (bits w.value.toNat 7 0))).regionsOk = true →
      ∃ t, exec (.xltPtrBaseWrite Reg.xltPtrBaseHi w) s = .next t ∧ t.reg Reg.xltPtrBaseHi = (setBits (s.reg Reg.xltPtrBaseHi) 7 0 (bits w.value.toNat 7 0)) ∧ t.xlt.placed = true) ∧
    (∀ (s : State) (w : RegWrite),
      s.openTo Reg.xltPtrSize w →
      s.ptrInUse = false →
      4 ≤ bits w.value.toNat 5 0 →
      bits w.value.toNat 5 0 ≤ 32 →
      s.slc.extents = [] →
      (s.setReg Reg.xltPtrSize (setBits (s.reg Reg.xltPtrSize) 5 0 (bits w.value.toNat 5 0))).regionsOk = true →
      ∃ t, exec (.xltPtrSizeWrite w) s = .next t ∧ t.reg Reg.xltPtrSize = (setBits (s.reg Reg.xltPtrSize) 5 0 (bits w.value.toNat 5 0))) ∧
    (∀ (s : State) (w : RegWrite),
      s.openTo Reg.rbdBaseLo w →
      bit (s.reg Reg.rbdCfg) 31 = false →
      s.entryCount (fun _ => true) = 0 →
      s.slc.extents = [] →
      (({ s with rbd := { s.rbd with placed := true } } : State).setReg Reg.rbdBaseLo (setBits (s.reg Reg.rbdBaseLo) 31 30 (bits w.value.toNat 31 30))).regionsOk = true →
      ∃ t, exec (.rbdBaseWrite Reg.rbdBaseLo w) s = .next t ∧ t.reg Reg.rbdBaseLo = (setBits (s.reg Reg.rbdBaseLo) 31 30 (bits w.value.toNat 31 30)) ∧ t.rbd.placed = true) ∧
    (∀ (s : State) (w : RegWrite),
      s.openTo Reg.rbdBaseHi w →
      bit (s.reg Reg.rbdCfg) 31 = false →
      s.entryCount (fun _ => true) = 0 →
      s.slc.extents = [] →
      (({ s with rbd := { s.rbd with placed := true } } : State).setReg Reg.rbdBaseHi (setBits (s.reg Reg.rbdBaseHi) 7 0 (bits w.value.toNat 7 0))).regionsOk = true →
      ∃ t, exec (.rbdBaseWrite Reg.rbdBaseHi w) s = .next t ∧ t.reg Reg.rbdBaseHi = (setBits (s.reg Reg.rbdBaseHi) 7 0 (bits w.value.toNat 7 0)) ∧ t.rbd.placed = true) ∧
    (∀ (s : State) (w : RegWrite),
      s.openTo Reg.rbdCfg w →
      (bit w.value.toNat 31 = true → s.rbd.placed = true) →
      ∃ t, exec (.rbdCfgEnWrite w) s = .next t ∧ bit (t.reg Reg.rbdCfg) 31 = bit w.value.toNat 31) ∧
    (∀ (s : State) (w : RegWrite),
      s.openTo Reg.atcSpillPool w →
      bits w.value.toNat 6 0 ≤ 64 →
      s.att.spillUsed = 0 →
      s.slc.extents = [] →
      (s.setReg Reg.atcSpillPool (setBits (s.reg Reg.atcSpillPool) 6 0 (bits w.value.toNat 6 0))).regionsOk = true →
      ∃ t, exec (.atcSpillPoolWrite w) s = .next t ∧ t.reg Reg.atcSpillPool = (setBits (s.reg Reg.atcSpillPool) 6 0 (bits w.value.toNat 6 0))) ∧
    (∀ (s : State) (w : RegWrite),
      s.openTo Reg.slcStage w →
      16 ≤ bits w.value.toNat 5 0 →
      bits w.value.toNat 5 0 ≤ 56 →
      s.linesHeld = [] →
      s.sdg.queue = [] →
      ∃ t, exec (.slcStageWrite w) s = .next t ∧ t.fld Reg.slcStage 5 0 = bits w.value.toNat 5 0) ∧
    (∀ (s : State) (w : RegWrite),
      s.openTo Reg.slcDomT0Quota w →
      (s.quotaSum - s.slc.quota.getD (s.fld Reg.slcDomSel 11 0) 0 + bits w.value.toNat 15 0) * gib ≤ s.t0Pool →
      bits w.value.toNat 15 0 ≠ 0 ∨ s.conf (s.fld Reg.slcDomSel 11 0) = false →
      ∃ t, exec (.slcDomT0QuotaWrite w) s = .next t ∧ t.slc.quota.getD (s.fld Reg.slcDomSel 11 0) 0 = bits w.value.toNat 15 0) ∧
    (∀ (s : State) (w : RegWrite),
      s.openTo Reg.atcGcfg w →
      ∃ t, exec (.lockstepWrite w) s = .next t ∧ bit (t.reg Reg.atcGcfg) 31 = bit w.value.toNat 31 ∧ t.att.lsPending = (s.att.lsPending || bit (s.reg Reg.atcGcfg) 31 != bit w.value.toNat 31))

/-- Delivery pushes the priority of the eligible source of highest priority, the lowest number among equals, on the stack
of its target, and raises Toluo or issues the MSI-X message. A hold-off timer that expires releases its group. EVC_EOI
pops the stack of the target it names; EVC_SWSET makes a software source pending and a W1C write of EVC_PEND clears
it; EVC_ROUTE and EVC_HOLD take the written route and hold-off. -/
def Obligations.EventControllerCommandsComplete : Prop :=
    (∀ (s : State) (target : Nat) (n : Nat),
      target ≤ 2048 →
      s.serves .evc = true →
      s.targetOpen target = true →
      (s.evcStack target).length < 8 →
      n ∈ s.contenders target →
      (∀ m ∈ s.contenders target, (s.route m).prio < (s.route n).prio ∨ ((s.route m).prio = (s.route n).prio ∧ n ≤ m)) →
      ∃ t, exec (.evcDeliver target) s = .next t ∧ t.evcStack target = (s.route n).prio :: s.evcStack target ∧
        ((s.route n).toluo = true → t.outs = .toluoIrq n :: s.outs) ∧
        ((s.route n).toluo = false →
          ((s.func 0).masked.contains (s.route n).vector || !(s.func 0).busMaster || (s.func 0).d3hot || !s.hif.linkUp) = false →
          t.outs = .msix 0 (s.route n).vector :: s.outs) ∧
        ((s.route n).toluo = false →
          ((s.func 0).masked.contains (s.route n).vector || !(s.func 0).busMaster || (s.func 0).d3hot || !s.hif.linkUp) = true →
          (s.route n).vector ∈ (t.func 0).pba ∧ t.outs = s.outs)) ∧
    (∀ (s : State) (g : Nat) (n : Nat) (due : Nat),
      s.evc.groups.get? g = some (.holding due) →
      due ≤ s.now →
      s.flt.evc.warmSince = none →
      n ∈ s.pendingSources →
      n / 32 = g →
      ∃ t, exec (.holdoffExpiry g) s = .next t ∧ t.evc.groups.get? g = some .released) ∧
    (∀ (s : State) (w : RegWrite) (p : Nat) (rest : List Nat),
      s.openTo Reg.evcEoi w →
      s.evcStack (if bit w.value.toNat 31 then 2048 else bits w.value.toNat 10 0) = p :: rest →
      ∃ t, exec (.evcEoi w) s = .next t ∧ t.evcStack (if bit w.value.toNat 31 then 2048 else bits w.value.toNat 10 0) = rest) ∧
    (∀ (s : State) (w : RegWrite),
      s.openTo Reg.evcSwset w →
      512 ≤ bits w.value.toNat 9 0 →
      ∃ t, exec (.evcSwset w) s = .next t ∧ bits w.value.toNat 9 0 ∈ t.evc.soft) ∧
    (∀ (s : State) (w : RegWrite) (g : Nat),
      s.openTo (Reg.evcPend + 4 * g) w →
      16 ≤ g →
      g < 32 →
      ∃ t, exec (.evcPendClear g w) s = .next t ∧ t.evc.soft = s.evc.soft.filter fun n => !(n / 32 == g && bit w.value.toNat (n % 32))) ∧
    (∀ (s : State) (w : RegWrite) (n : Nat),
      s.openTo (routeAddr n) w →
      n < 1024 →
      s.routeRefused w.origin n w.value.toNat = false →
      ∃ t, exec (.evcRouteWrite n w) s = .next t ∧ t.route n = readRoute w.value.toNat) ∧
    (∀ (s : State) (w : RegWrite) (g : Nat),
      s.openTo (Reg.evcHold + 4 * g) w →
      g < 32 →
      ∃ t, exec (.evcHoldWrite g w) s = .next t ∧ t.fld (Reg.evcHold + 4 * g) 15 0 = bits w.value.toNat 15 0 ∧ (g % 2 = 0 → bit (t.reg (Reg.evcHold + 4 * g)) 31 = bit w.value.toNat 31))

/-- When the planned end of the running epoch has come, EPOCH_BOUNDARY begins the epoch of the next number at that planned
end, plans it with the written length, grants WATTS over that length less the excess of the ended epoch, spends
nothing yet, and refills each bucket. WINDOW_CLOSE closes the window around a boundary reached by time, keeps RUN, and
counts a miss only while a source is selected. -/
def Obligations.EpochAndWindowCommandsComplete : Prop :=
    (∀ (s : State) (d : Nat) (b : DomBudget),
      s.pwr.live = true →
      s.pwr.planned ≤ s.now →
      s.pwr.doms.get? d = some b →
      ∃ t, exec (.epochBoundary) s = .next t ∧ t.pwr.epoch = s.pwr.epoch + 1 ∧ t.pwr.start = s.pwr.planned ∧
        t.pwr.planned = s.pwr.planned + s.fld Reg.pwrEpochCfg 26 16 * 1000 ∧ t.pwr.spent = 0 ∧
        t.pwr.grant = (s.fld Reg.pwrEnvelope 9 0 : Int) * (s.fld Reg.pwrEpochCfg 26 16 * 1000 : Nat) / 1000
          - max 0 (s.pwr.spent - s.pwr.grant) ∧
        (t.pwr.doms.get? d).map DomBudget.bucket = some (min (b.bucket + b.nextRate) (max b.nextDepth b.nextRate))) ∧
    (∀ (s : State),
      s.pwr.windowOpen = true →
      s.pwr.startMarked = false →
      s.pwr.start + s.pwr.lenPrev * 100 ≤ s.now →
      ∃ t, exec (.windowClose) s = .next t ∧ t.pwr.windowOpen = false ∧ t.pwr.run = s.pwr.run ∧ (s.smSrc = 0 → t.ctrs = s.ctrs) ∧
        (s.smSrc ≠ 0 → t.ctrs.getD Reg.pwrSmMissLo 0 = (s.ctrs.getD Reg.pwrSmMissLo 0 + 1) % 2 ^ 64))

/-- A reading of the power monitor books the measured energy less the charges since the last one to the spending and the
residual; a failed one books R̂ and sets PWR_ERR.MONITOR. 64 sensors give A = 1 up to TJ_SOFT, 0 from TJ_LIMIT and the
quotient between. A queue sample adds one to the depth bin of each queue that holds anything. -/
def Obligations.PowerAndThermalSamplesComplete : Prop :=
    (∀ (s : State) (e : Nat),
      ∃ t, exec (.powerMonitorSample ⟨some e, none⟩) s = .next t ∧ t.pwr.spent = s.pwr.spent + (e - s.pwr.charged) ∧ t.pwr.residual = s.pwr.residual + (e - s.pwr.charged) ∧ t.pwr.charged = 0 ∧ t.regs = s.regs) ∧
    (∀ (s : State) (l : List Int) (m : Int),
      l.length = 64 →
      m ∈ l →
      (∀ x ∈ l, x ≤ m) →
      ∃ t, exec (.thermalSample l) s = .next t ∧ t.pwr.hot = m ∧
        (m ≤ (s.fld Reg.pwrTherm 15 8 * 10 : Nat) → t.pwr.aNum = 1 ∧ t.pwr.aDen = 1) ∧
        ((s.fld Reg.pwrTherm 15 8 * 10 : Nat) < m → (s.fld Reg.pwrTherm 7 0 * 10 : Nat) ≤ m → t.pwr.aNum = 0) ∧
        ((s.fld Reg.pwrTherm 15 8 * 10 : Nat) < m → m < (s.fld Reg.pwrTherm 7 0 * 10 : Nat) →
          (t.pwr.aNum : Int) = (s.fld Reg.pwrTherm 7 0 * 10 : Nat) - m ∧
          t.pwr.aDen = s.fld Reg.pwrTherm 7 0 * 10 - s.fld Reg.pwrTherm 15 8 * 10)) ∧
    (∀ (s : State) (c : Nat) (q : Nat) (d : Nat) (b : Nat),
      0 < b →
      ∃ t, exec (.queueSample) s = .next t ∧ t.pwr.samples = s.pwr.samples + 1 ∧
        t.pwr.hist.getD (0, c, q, d, b) 0 = s.pwr.hist.getD (0, c, q, d, b) 0
          + (s.queuesNow.filter fun x => x.cls == c && x.queue == q && x.domain == d && histBin x.depth == b).length)

/-- A completed step moves the multiplier of its die by one towards the target and shows its rail code. With AUTO = 1 the
device steps both dies down or up by one under the conditions of R304, within N_MIN to N_MAX. CLK_CSYN requests a
target in that range. A Sync sets the offset and, with the sixteenth good one in a row, the lock; 3 s without Sync
enter holdover. The alarm fires when DEV_TIME reaches CLK_ALARM. -/
def Obligations.ClockCommandsComplete : Prop :=
    (∀ (s : State) (die : Nat),
      die < 2 →
      (s.pwr.csyn die).pending = true →
      ∃ t, exec (.csynStepDone die) s = .next t ∧ (t.pwr.csyn die).now = (if (s.pwr.csyn die).now < (s.pwr.csyn die).target then (s.pwr.csyn die).now + 1 else (s.pwr.csyn die).now - 1) ∧
        (t.pwr.csyn die).target = (s.pwr.csyn die).target ∧
        (t.pwr.csyn die).pending = decide ((t.pwr.csyn die).now ≠ (s.pwr.csyn die).target) ∧
        (s.glb.variant.hasAttn = true → s.glb.phase = .ready →
          t.outs = .pin (if die = 0 then .coreVid0 else .coreVid1) (vidCode die (t.pwr.csyn die).now) :: s.outs) ∧
        ((t.pwr.csyn die).now = (s.pwr.csyn die).target → bit (t.reg (Evt.clkCsynDone.1 + 0x18)) Evt.clkCsynDone.2 = true)) ∧
    (∀ (s : State) (die : Nat) (t0 : Nat),
      die < 2 →
      bit (s.reg Reg.pwrDvfs) 31 = true →
      s.pwr.belowSince = some t0 →
      t0 + 100000 ≤ s.now →
      (s.pwr.csyn die).pending = false →
      s.fld Reg.pwrDvfs 3 0 < (s.pwr.csyn die).now →
      ∃ t, exec (.autoDvfsDown) s = .next t ∧ (t.pwr.csyn die).target = (s.pwr.csyn die).now - 1 ∧ (t.pwr.csyn die).now = (s.pwr.csyn die).now ∧ (t.pwr.csyn die).pending = true) ∧
    (∀ (s : State) (die : Nat) (t0 : Nat),
      die < 2 →
      bit (s.reg Reg.pwrDvfs) 31 = true →
      s.pwr.fullSince = some t0 →
      t0 + 1000000 ≤ s.now →
      s.pwr.prevGrant < 10 * (s.pwr.prevGrant - s.pwr.prevSpent) →
      (s.pwr.csyn die).pending = false →
      (s.pwr.csyn die).now < s.fld Reg.pwrDvfs 11 8 →
      ∃ t, exec (.autoDvfsUp) s = .next t ∧ (t.pwr.csyn die).target = (s.pwr.csyn die).now + 1 ∧ (t.pwr.csyn die).now = (s.pwr.csyn die).now ∧ (t.pwr.csyn die).pending = true) ∧
    (∀ (s : State) (w : RegWrite) (die : Nat),
      die < 2 →
      s.openTo (Reg.clkCsyn0 + 4 * die) w →
      bit (s.reg Reg.pwrDvfs) 31 = false →
      s.fld Reg.pwrDvfs 3 0 ≤ bits w.value.toNat 3 0 →
      bits w.value.toNat 3 0 ≤ s.fld Reg.pwrDvfs 11 8 →
      ∃ t, exec (.clkCsynWrite die w) s = .next t ∧ (t.pwr.csyn die).target = bits w.value.toNat 3 0 ∧ (t.pwr.csyn die).now = (s.pwr.csyn die).now ∧ (t.pwr.csyn die).pending = decide (bits w.value.toNat 3 0 ≠ (s.pwr.csyn die).now)) ∧
    (∀ (s : State) (o : Int) (r : Int) (m : Int),
      bit (s.reg Reg.clkPtpCfg) 31 = true →
      -1000 < o →
      o < 1000 →
      s.pwr.goodSyncs = 15 →
      s.pwr.tOff = none →
      ∃ t, exec (.ptpSync o r m) s = .next t ∧ t.pwr.offset = o ∧ t.pwr.lock = true ∧ t.pwr.holdover = false ∧ t.pwr.tOff = some m ∧ t.pwr.lastSync = s.now ∧ t.pwr.rate = max (-976562) (min 976562 r)) ∧
    (∀ (s : State),
      bit (s.reg Reg.clkPtpCfg) 31 = true →
      s.pwr.holdover = false →
      s.pwr.lastSync + 3000000000 ≤ s.now →
      ∃ t, exec (.ptpHoldover) s = .next t ∧ t.pwr.holdover = true ∧ t.pwr.rate = s.pwr.rate ∧ bit (t.reg (Evt.clkHoldover.1 + 0x18)) Evt.clkHoldover.2 = true) ∧
    (∀ (s : State),
      s.reg Reg.clkAlarmLo + 2 ^ 32 * s.reg Reg.clkAlarmHi ≠ 0 →
      s.reg Reg.clkAlarmLo + 2 ^ 32 * s.reg Reg.clkAlarmHi ≤ s.now →
      ∃ t, exec (.devTimeAlarm) s = .next t ∧ bit (t.reg (Evt.clkAlarm.1 + 0x18)) Evt.clkAlarm.2 = true ∧
        (bit (s.reg Reg.pwrWakeEn) 4 = true → s.pwr.standby = .standby → t.pwr.standby = .waking ∧ t.pwr.wakeSrc = 4))

/-- A write of PWR_EPOCH_CFG with a length of 50 to 2,000 µs stores the length and leaves the running epoch as it was
planned; CLR zeroes every bin of the histogram that the written selector names. -/
def Obligations.EpochAndHistogramRegistersComplete : Prop :=
    (∀ (s : State) (w : RegWrite),
      s.openTo Reg.pwrEpochCfg w →
      50 ≤ bits w.value.toNat 26 16 →
      bits w.value.toNat 26 16 ≤ 2000 →
      ∃ t, exec (.pwrEpochCfgWrite w) s = .next t ∧ t.fld Reg.pwrEpochCfg 26 16 = bits w.value.toNat 26 16 ∧ t.fld Reg.pwrEpochCfg 1 0 = bits w.value.toNat 1 0 ∧ t.pwr.planned = s.pwr.planned ∧ t.pwr.len = s.pwr.len) ∧
    (∀ (s : State) (w : RegWrite) (b : Nat),
      s.openTo Reg.pwrHistSel w →
      bit w.value.toNat 30 = true →
      b ≤ 15 →
      ∃ t, exec (.pwrHistClr w) s = .next t ∧ t.histRead (bits w.value.toNat 31 31) (bits w.value.toNat 10 8) (if bits w.value.toNat 10 8 = 7 then bits w.value.toNat 7 0 else 0)
          (if bits w.value.toNat 10 8 = 7 then 0 else bits w.value.toNat 27 16) b = 0)

/-- PWR_ISL_REQ moves an ON island to DRAINING, a DRAINING one back to ON, an OFF one into power-up and ends a power-up. A
power-up reaches ON or stops; a drained island reports OFF; both set PWR_EVT.ISLAND. PWR_STANDBY.REQ begins to quiesce
where R300 does not refuse it, commit enters STANDBY, an enabled source aborts a quiesce or starts the exit, and the
exit returns to running. -/
def Obligations.IslandAndStandbyCommandsComplete : Prop :=
    (∀ (s : State) (w : RegWrite) (n : Nat),
      s.openTo Reg.pwrIslReq w →
      bit w.value.toNat 31 = true →
      bits w.value.toNat 4 0 = n →
      s.glb.variant.hasIsland n = true →
      s.island n = .off ∨ s.island n = .draining →
      ∃ t, exec (.islandOnRequest w) s = .next t ∧ t.island n = (if s.island n = .off then .starting else .on)) ∧
    (∀ (s : State) (w : RegWrite) (n : Nat),
      s.openTo Reg.pwrIslReq w →
      bit w.value.toNat 31 = false →
      bits w.value.toNat 4 0 = n →
      s.glb.variant.hasIsland n = true →
      s.island n = .on ∨ s.island n = .starting →
      (n < 16 → (s.setIsland n .draining).anyCluster = true) →
      (16 ≤ n → n < 20 → ∀ p ∈ groupPorts n, s.sessionsOn p = [] ∧ (s.port p).st ≠ .ready) →
      ∃ t, exec (.islandOffRequest w) s = .next t ∧ t.island n = (if s.island n = .on then .draining else .stopping)) ∧
    (∀ (s : State) (n : Nat),
      s.island n = .starting →
      s.linksCalm →
      ∃ t, exec (.islandPowerUpDone n) s = .next t ∧ t.island n = .on ∧ bit (t.reg (Evt.pwrIsland.1 + 0x18)) Evt.pwrIsland.2 = true) ∧
    (∀ (s : State) (n : Nat),
      s.island n = .stopping →
      ∃ t, exec (.powerUpStopped n) s = .next t ∧ t.island n = .off ∧ bit (t.reg (Evt.pwrIsland.1 + 0x18)) Evt.pwrIsland.2 = true) ∧
    (∀ (s : State) (n : Nat),
      s.island n = .draining →
      s.islandDone n = true →
      s.linksCalm →
      (n < 16 → s.anyCluster = true) →
      ∃ t, exec (.islandDrained n) s = .next t ∧ t.island n = .off ∧ bit (t.reg (Evt.pwrIsland.1 + 0x18)) Evt.pwrIsland.2 = true) ∧
    (∀ (s : State) (w : RegWrite),
      s.openTo Reg.pwrStandby w →
      bit w.value.toNat 31 = true →
      bit w.value.toNat 30 = false →
      s.standbyRefused = false →
      ∃ t, exec (.standbyRequest w) s = .next t ∧ t.pwr.standby = .quiescing) ∧
    (∀ (s : State),
      s.pwr.standby = .quiescing →
      s.quiet = true →
      s.linksCalm →
      ∃ t, exec (.standbyCommit) s = .next t ∧ t.pwr.standby = .standby ∧ t.pwr.result = 1) ∧
    (∀ (s : State) (n : Nat),
      s.pwr.standby = .quiescing →
      bit (s.reg Reg.pwrWakeEn) n = true →
      ∃ t, exec (.sleepAborted n) s = .next t ∧ t.pwr.standby = .running ∧ t.pwr.result = 2 ∧ t.ctrs.getD Reg.pwrSleepAbortLo 0 = (s.ctrs.getD Reg.pwrSleepAbortLo 0 + 1) % 2 ^ 64) ∧
    (∀ (s : State) (n : Nat),
      s.pwr.standby = .standby →
      bit (s.reg Reg.pwrWakeEn) n = true →
      ∃ t, exec (.wake n) s = .next t ∧ t.pwr.standby = .waking ∧ t.pwr.wakeSrc = n) ∧
    (∀ (s : State),
      s.pwr.standby = .waking →
      s.linksCalm →
      ∃ t, exec (.standbyExitDone) s = .next t ∧ t.pwr.standby = .running ∧ t.pwr.offBefore = [] ∧ bit (t.reg (Evt.pwrWoke.1 + 0x18)) Evt.pwrWoke.2 = true)

/-- A submission doorbell within the span sets the tail, a completion doorbell moves the CQ head; the engine fetches the
entry at the head into flight; NOP completes with OK; enabling a DISABLED ring of legal layout makes it ACTIVE with
head, tail and position 0 and phase 1, disabling it drains it, and a drained ring is DISABLED. A host read that is
late by 10 ms completes the command with E_TIMEOUT; the ring timer signals what is unsignalled; a refusal whose time
has come leaves. -/
def Obligations.RingCommandsComplete : Prop :=
    (∀ (s : State) (f : Nat) (k : Nat) (x : Nat),
      s.doorbellLive f k = true →
      (s.ring f k).st = .active →
      x < 2 ^ (s.ring f k).sqLog2 →
      x < 65536 →
      (x + 2 ^ (s.ring f k).sqLog2 - (s.ring f k).sqTail) % 2 ^ (s.ring f k).sqLog2 ≤ ((s.ring f k).sqHead + 2 * 2 ^ (s.ring f k).sqLog2 - (s.ring f k).sqTail - 1) % 2 ^ (s.ring f k).sqLog2 →
      ∃ t, exec (.sqDoorbell f k x) s = .next t ∧ (t.ring f k).sqTail = x ∧ (t.ring f k).st = .active) ∧
    (∀ (s : State) (f : Nat) (k : Nat) (x : Nat),
      s.doorbellLive f k = true →
      (s.ring f k).st = .active →
      x < 2 ^ (s.ring f k).cqLog2 →
      x < 65536 →
      (x + 2 ^ (s.ring f k).cqLog2 - (s.ring f k).cqHead) % 2 ^ (s.ring f k).cqLog2 ≤ (s.ring f k).unread →
      ∃ t, exec (.cqDoorbell f k x) s = .next t ∧ (t.ring f k).cqHead = x ∧ (t.ring f k).st = .active) ∧
    (∀ (s : State) (f : Nat) (k : Nat) (e : List Byte),
      s.hif.linkUp = true →
      s.ringTurn = some (f, k) →
      s.pwr.standby ≠ .standby →
      s.pwr.standby ≠ .waking →
      s.glb.phase ≠ .safe →
      s.fetchCheck f e = none →
      ∃ t, exec (.commandFetch f k ⟨.bytes e, false⟩) s = .next t ∧ (t.ring f k).sqHead = ((s.ring f k).sqHead + 1) % 2 ^ (s.ring f k).sqLog2 ∧
        (t.ring f k).inflight.map (fun c => (c.num, c.opcode, c.cid, c.started)) =
          (s.ring f k).inflight.map (fun c => (c.num, c.opcode, c.cid, c.started)) ++ [((s.ring f k).nextNum, u8 e 0, u16 e 2, false)]) ∧
    (∀ (s : State) (f : Nat) (k : Nat),
      s.hif.linkUp = true →
      s.ringTurn = some (f, k) →
      (s.ring f k).st = .active →
      s.pwr.standby ≠ .standby →
      s.pwr.standby ≠ .waking →
      s.glb.phase ≠ .safe →
      ∃ t, exec (.commandFetch f k ⟨.failed, false⟩) s = .next t ∧ (t.ring f k).st = .error ∧ (t.ring f k).cause = 2 ∧ bit (t.reg (Err.hifDma.1 + 0x10)) Err.hifDma.2 = true) ∧
    (∀ (s : State) (f : Nat) (k : Nat) (e : HostRead),
      s.hif.linkUp = true →
      (s.ring f k).st = .active →
      ∃ t, exec (.commandFetch f k ⟨e, true⟩) s = .next t ∧ (t.ring f k).st = .error ∧ (t.ring f k).cause = 3) ∧
    (∀ (s : State) (q : CmdRef) (c : InFlight),
      s.offers q 0 c →
      ∃ t, exec (.nop q) s = .next t ∧ s.posts t q c .ok = true ∧ t.xlt = s.xlt ∧ t.slc = s.slc) ∧
    (∀ (s : State) (w : RegWrite) (f : Nat),
      s.openTo (domReg f Reg.domRingCfg) w →
      f ≤ 256 →
      bit w.value.toNat 31 = true →
      (s.ring f (s.func f).ringSel).st = .disabled →
      s.bound f = true →
      (s.func f).ringSel < (s.func f).rings →
      4 ≤ bits w.value.toNat 25 21 →
      bits w.value.toNat 25 21 ≤ bits w.value.toNat 20 16 →
      bits w.value.toNat 20 16 ≤ 16 →
      (f ≠ 0 → bits w.value.toNat 10 0 < 16) →
      (s.ring f (s.func f).ringSel).sqBase % 4096 = 0 →
      (s.ring f (s.func f).ringSel).cqBase % 4096 = 0 →
      ∃ t, exec (.ringEnable f w) s = .next t ∧ (t.ring f (s.func f).ringSel).st = .active ∧ (t.ring f (s.func f).ringSel).sqHead = 0 ∧ (t.ring f (s.func f).ringSel).sqTail = 0 ∧
        (t.ring f (s.func f).ringSel).cqTail = 0 ∧ (t.ring f (s.func f).ringSel).phase = true ∧ (t.ring f (s.func f).ringSel).sqLog2 = bits w.value.toNat 25 21 ∧
        (t.ring f (s.func f).ringSel).cqLog2 = bits w.value.toNat 20 16 ∧ (t.ring f (s.func f).ringSel).vector = bits w.value.toNat 10 0) ∧
    (∀ (s : State) (w : RegWrite) (f : Nat),
      s.openTo (domReg f Reg.domRingCfg) w →
      f ≤ 256 →
      bit w.value.toNat 31 = false →
      (s.ring f (s.func f).ringSel).st = .active →
      ∃ t, exec (.ringDisable f w) s = .next t ∧ (t.ring f (s.func f).ringSel).st = .draining) ∧
    (∀ (s : State) (f : Nat) (k : Nat),
      (s.ring f k).st = .draining →
      ((s.ring f k).inflight.all fun c => c.discard) = true →
      ∃ t, exec (.ringDrained f k) s = .next t ∧ (t.ring f k).st = .disabled ∧ (t.ring f k).cause = 0) ∧
    (∀ (s : State) (q : CmdRef) (c : InFlight),
      (s.ring q.func q.ring).inflight.find? (fun f => f.num == q.num) = some c →
      c.started = false →
      c.discard = false →
      c.inLen ≠ 0 →
      c.arrived + 10000000 ≤ s.now →
      s.hif.linkUp = true →
      ∃ t, exec (.hostReadTimeout q) s = .next t ∧ s.posts t q c .timeout = true) ∧
    (∀ (s : State) (f : Nat) (k : Nat),
      0 < (s.ring f k).unsignalled →
      (s.ring f k).irqUs ≠ 0 →
      (s.ring f k).oldest + (s.ring f k).irqUs * 1000 ≤ s.now →
      ∃ t, exec (.ringIrqTimer f k) s = .next t ∧ (t.ring f k).unsignalled = 0 ∧ ((s.func f).busMaster = true → (s.func f).d3hot = false → s.hif.linkUp = true →
          (s.func f).masked.contains (s.ring f k).vector = false → t.outs = .msix f (s.ring f k).vector :: s.outs)) ∧
    (∀ (s : State) (q : CmdRef) (c : InFlight) (due : Nat) (rest : List (Requester × Cpl × Nat)),
      s.refusalsMove = true →
      s.hif.refusals = (.ring q, { status := .denied }, due) :: rest →
      due ≤ s.now →
      (s.ring q.func q.ring).inflight.find? (fun f => f.num == q.num) = some c →
      c.discard = false →
      s.hif.linkUp = true →
      ∃ t, exec (.refusalRelease) s = .next t ∧ t.hif.refusals = rest ∧ s.posts t q c .denied = true)

/-- A FLIT-mode link of x8 or wider comes up with its width; link-down puts active rings into ERROR with cause 4. A CXL
link-up on an enabled port starts discovery; a Type 3 device that answers makes the port READY, a link-down returns it
to DOWN or HELD, RESUME makes a HELD port READY, ABANDON and T2_ABANDON release the extents of the port and of T2, and
clearing EN takes the port DOWN. HIF_VF_BIND binds a VF; the T2 window takes the written base and size. Events reach
their PLDM receiver. -/
def Obligations.LinkAndFunctionCommandsComplete : Prop :=
    (∀ (s : State) (rate : Nat) (width : Nat),
      s.hif.linkUp = false →
      8 ≤ width →
      ∃ t, exec (.hostLinkUp rate width true) s = .next t ∧ t.hif.linkUp = true ∧ t.hif.linkWidth = min width 16 ∧ bit (t.reg (Evt.hifLinkUp.1 + 0x18)) Evt.hifLinkUp.2 = true) ∧
    (∀ (s : State) (rate : Nat) (width : Nat) (x : Bool),
      s.hif.linkUp = true →
      width = 8 ∨ width = 16 →
      ∃ t, exec (.hostLinkUp rate width x) s = .next t ∧ t.hif.l0p = decide (width < s.hif.linkWidth) ∧ t.hif.linkUp = true ∧ t.hif.linkWidth = s.hif.linkWidth) ∧
    (∀ (s : State) (f : Nat) (k : Nat),
      s.hif.linkUp = true →
      (s.ring f k).st = .active →
      ∃ t, exec (.hostLinkDown) s = .next t ∧ t.hif.linkUp = false ∧ (t.ring f k).st = .error ∧ (t.ring f k).cause = 4 ∧ bit (t.reg (Err.hifLinkDown.1 + 0x10)) Err.hifLinkDown.2 = true) ∧
    (∀ (s : State) (p : Nat) (width : Nat) (rate : Nat),
      p < 4 →
      bit (s.reg (Reg.cxpCfg + cxpOff p)) 31 = true →
      (s.cxl p).st = .down →
      ∃ t, exec (.cxlLinkUp p width rate) s = .next t ∧ (t.cxl p).st = .discovering ∧ (t.cxl p).rate = rate) ∧
    (∀ (s : State) (p : Nat) (x : CxlFound),
      p < 4 →
      (s.cxl p).st = .discovering →
      x.notType3 = false →
      x.mld = false →
      x.switch = false →
      x.mediaReady = true →
      s.cxlHolds p = false →
      ∃ t, exec (.cxlDiscoveryDone p x) s = .next t ∧ (t.cxl p).st = .ready ∧ (t.cxl p).gib = min x.gib 2048 ∧ (t.cxl p).serial = x.serial) ∧
    (∀ (s : State) (p : Nat),
      p < 4 →
      (s.cxl p).st ≠ .down →
      ∃ t, exec (.cxlLinkDown p) s = .next t ∧ (t.cxl p).st = (if s.cxlHolds p then .held else .down) ∧ (t.cxl p).width = 0) ∧
    (∀ (s : State) (w : RegWrite) (p : Nat),
      s.openTo (Reg.cxpCtl + cxpOff p) w →
      p < 4 →
      bit w.value.toNat 31 = true →
      bit w.value.toNat 30 = false →
      (s.cxl p).st = .held →
      (s.cxl p).width ≠ 0 →
      ∃ t, exec (.resumePort p w) s = .next t ∧ (t.cxl p).st = .ready) ∧
    (∀ (s : State) (w : RegWrite) (p : Nat),
      s.openTo (Reg.cxpCtl + cxpOff p) w →
      p < 4 →
      bit w.value.toNat 30 = true →
      bit w.value.toNat 31 = false →
      s.slc.moves = [] →
      s.noPlacements →
      ∃ t, exec (.abandon p w) s = .next t ∧ t.cxlHolds p = false ∧ (t.cxl p).gib = 0 ∧ (t.cxl p).st = (if (s.cxl p).width = 0 then .down else .discovering)) ∧
    (∀ (s : State) (w : RegWrite),
      s.openTo Reg.hifCtl w →
      bit w.value.toNat 31 = true →
      s.slc.moves = [] →
      s.noPlacements →
      ∃ t, exec (.t2Abandon w) s = .next t ∧ (t.slc.extents.any fun e => e.1.tier == 2) = false) ∧
    (∀ (s : State) (w : RegWrite) (p : Nat),
      s.openTo (Reg.cxpCfg + cxpOff p) w →
      p < 4 →
      bit (s.reg (Reg.cxpCfg + cxpOff p)) 31 = true →
      bit w.value.toNat 31 = false →
      s.cxlHolds p = false →
      ∃ t, exec (.cxpCfgEnWrite p w) s = .next t ∧ (t.cxl p).st = .down) ∧
    (∀ (s : State) (w : RegWrite) (d : Nat) (n : Nat),
      s.openTo Reg.hifVfBind w →
      bit w.value.toNat 31 = true →
      bits w.value.toNat 27 16 = d →
      bits w.value.toNat 8 0 = n →
      d ≠ 0 →
      (s.lve.doms.get? d).map Domain.st = some .active →
      n ≤ 256 →
      s.ringsAllotted + n ≤ 4096 →
      (s.func (s.fld Reg.hifVfSel 7 0 + 1)).bound = false →
      ∃ t, exec (.hifVfBind Reg.hifVfBind w) s = .next t ∧ (t.func (s.fld Reg.hifVfSel 7 0 + 1)).bound = true ∧ (t.func (s.fld Reg.hifVfSel 7 0 + 1)).domain = d ∧ (t.func (s.fld Reg.hifVfSel 7 0 + 1)).rings = n) ∧
    (∀ (s : State) (w : RegWrite),
      s.openTo Reg.hifT2Size w →
      (s.slc.extents.any fun e => e.1.tier == 2) = false →
      bits w.value.toNat 14 0 ≤ 16384 →
      ∃ t, exec (.hifT2WindowWrite Reg.hifT2Size w) s = .next t ∧ t.fld Reg.hifT2Size 14 0 = bits w.value.toNat 14 0) ∧
    (∀ (s : State) (x : PldmReceiver),
      (s.mgmt.sessions.get? x.session).map SpdmSession.established = some true →
      ∃ t, exec (.pldmSetEventReceiver x) s = .next t ∧ t.mgmt.receiver = some x.receiver ∧ t.mgmt.events = s.mgmt.events) ∧
    (∀ (s : State) (x : Nat) (k : Nat) (d : List Nat) (rest : List (Nat × List Nat)),
      s.mgmt.receiver = some x →
      s.mgmt.dropped = 0 →
      s.mgmt.events = (k, d) :: rest →
      ∃ t, exec (.pldmPlatformEventSend) s = .next t ∧ t.mgmt.events = rest ∧ t.outs = .pldm x k d :: s.outs)

/-- DOM_CREATE records anchor, flag and reservations and leaves the domain CREATED; DOM_TEARDOWN and the crypto-erase take
it through TEARDOWN with its keys and anchors gone, and the scrub leaves it FREE; DOM_STATUS answers the 64 bytes of
Table 14.3 and changes nothing of Levee; DEV_MODE sets and clears the sole domain; T3 erasure ends; a reinstatement
takes its records out of the park set. -/
def Obligations.DomainCommandsComplete : Prop :=
    (∀ (s : State) (q : CmdRef) (c : InFlight) (inp : List Byte),
      s.offers q 0x49 c →
      inp.length = c.inLen →
      s.serves .lve = true →
      s.lve.sole = none →
      0 < u16 c.ops 0 →
      u16 c.ops 0 ≤ 4095 →
      (s.dom (u16 c.ops 0)).st = .free →
      u8 c.ops 2 ≤ 1 →
      zeros c.ops 3 1 = true →
      zeros c.ops 16 32 = true →
      anchorParses inp = true →
      u8 c.ops 2 = 0 ∨ u16 c.ops 14 ≠ 0 →
      s.rsvSum Domain.seqRsv + u32 c.ops 4 ≤ 16777216 →
      s.rsvSum Domain.modelRsv + u16 c.ops 8 ≤ 4096 →
      s.rsvSum Domain.objRsv + u16 c.ops 10 ≤ 65536 →
      s.rsvSum Domain.listRsv + u8 c.ops 12 ≤ 256 →
      s.rsvSum Domain.ringRsv + u8 c.ops 13 ≤ 16 →
      (s.quotaSum + u16 c.ops 14) * gib ≤ s.t0Pool →
      s.auditTakes = true →
      ∃ t, exec (.domCreate q (.bytes inp)) s = .next t ∧ s.posts t q c .ok = true ∧ t.dom (u16 c.ops 0) = {
          st := .created, conf := bit (u8 c.ops 2) 0, anchor := inp, seqRsv := u32 c.ops 4
          modelRsv := u16 c.ops 8, objRsv := u16 c.ops 10, listRsv := u8 c.ops 12, ringRsv := u8 c.ops 13, t3Pend := (s.dom (u16 c.ops 0)).t3Pend } ∧
        t.slc.quota = (if u16 c.ops 14 = 0 then s.slc.quota.erase (u16 c.ops 0) else s.slc.quota.set (u16 c.ops 0) (u16 c.ops 14))) ∧
    (∀ (s : State) (q : CmdRef) (c : InFlight),
      s.offers q 0x4A c →
      s.serves .lve = true →
      u16 c.ops 0 ≠ 0 →
      (s.dom (u16 c.ops 0)).st = .created ∨ (s.dom (u16 c.ops 0)).st = .active →
      (s.dom (u16 c.ops 0)).teardown = none →
      s.auditTakes 2 = true →
      ∃ t, exec (.domTeardown q) s = .next t ∧ (t.dom (u16 c.ops 0)).st = .teardown ∧ (t.dom (u16 c.ops 0)).teardown = some { joined := [.ring q] } ∧ t.aud.reserved = s.aud.reserved + 1) ∧
    (∀ (s : State) (q : CmdRef) (c : InFlight),
      s.offers q 0x4B c →
      s.serves .lve = true →
      u16 c.ops 0 ≤ 4095 →
      q.func = 0 ∨ u16 c.ops 0 = (s.func q.func).domain →
      ∃ t, exec (.domStatus q) s = .next t ∧ s.posts t q c .ok = true ∧ t.lve = s.lve ∧ (s.gives t).contains (.hostWrite q.func (u64 c.ops 8)
          (leBytes 1 (s.domCode (u16 c.ops 0)) ++ leBytes 1 ((if (s.dom (u16 c.ops 0)).conf then 1 else 0) + (if s.lve.sole = some (u16 c.ops 0) then 2 else 0)) ++
           leBytes 2 (u16 c.ops 0) ++ leBytes 4 0 ++ leBytes 8 (((s.dom (u16 c.ops 0)).keys.map Keys.kcv).getD 0) ++
           (if (s.dom (u16 c.ops 0)).anchor.isEmpty then List.replicate 48 0#8 else fit48 (sha384 (s.dom (u16 c.ops 0)).anchor)))) = true) ∧
    (∀ (s : State) (q : CmdRef) (c : InFlight),
      s.offers q 0x4C c →
      s.serves .lve = true →
      u8 c.ops 0 = 1 →
      s.liveDoms = [u16 c.ops 2] →
      (s.dom (u16 c.ops 2)).conf = true →
      s.auditTakes = true →
      ∃ t, exec (.devMode q) s = .next t ∧ s.posts t q c .ok = true ∧ t.lve.sole = some (u16 c.ops 2)) ∧
    (∀ (s : State) (q : CmdRef) (c : InFlight) (d : Nat),
      s.offers q 0x4C c →
      s.serves .lve = true →
      u8 c.ops 0 = 0 →
      s.lve.sole = some d →
      (s.dom d).st = .free →
      s.auditTakes = true →
      ∃ t, exec (.devMode q) s = .next t ∧ s.posts t q c .ok = true ∧ t.lve.sole = none) ∧
    (∀ (s : State) (d : Nat) (x : Teardown),
      (s.dom d).teardown = some x →
      x.erased = false →
      s.domBusy d = false →
      s.serves .lve = true →
      ∃ t, exec (.teardownCryptoErase d) s = .next t ∧ (t.dom d).keys = none ∧ (t.dom d).anchors = [] ∧ (t.dom d).teardown = some { erased := true } ∧
        ∀ q c, x.joined = [.ring q] → s.waitsFor q c → s.posts t q c .ok = true) ∧
    (∀ (s : State) (d : Nat) (x : Teardown),
      (s.dom d).teardown = some x →
      x.erased = true →
      ((s.extentsOf d).all fun e => s.answers e.1) = true →
      ∃ t, exec (.teardownScrubDone d) s = .next t ∧ (t.dom d).st = .free ∧ (t.dom d).keys = none ∧ (t.dom d).teardown = none ∧ t.aud.reserved = s.aud.reserved - 1) ∧
    (∀ (s : State) (d : Nat),
      s.peaWrites = true →
      s.pea.erasing.has d = true →
      s.pea.released = [] →
      (s.pea.erasing.getD d []).flatMap s.pea.liveOf = [] →
      ((s.pea.erasing.getD d []).any fun b => (s.pea.blk b).st == .opened || s.pea.readFrom b) = false →
      ∃ t, exec (.t3ErasureDone d) s = .next t ∧ (t.dom d).t3Pend = false ∧ t.pea.erasing.has d = false ∧ bit (t.reg (Evt.lveScrubDone.1 + 0x18)) Evt.lveScrubDone.2 = true) ∧
    (∀ (s : State) (d : Nat),
      s.reinstating d = true →
      s.serves .xlt = true →
      ∃ t, exec (.reinstate d) s = .next t ∧ t.pea.parked = s.pea.parked.filter (fun x => !(x.domain == d && (s.restorable d).contains x.body)) ∧
        (∀ g x i q, s.restorable d = [.model g x, .seq i q] → q.ptes = [] → q.bds = [] → t.seq? i = some { q with lastActive := s.now } ∧ t.model? d g = some x) ∧
        ∀ n o, s.restorable d = [.obj n o] → o.map = [] → t.xlt.objs.get? n = some o)

/-- KEY_LOAD derives the keys of a CREATED domain, which is then ACTIVE, and its answer waits for the key operation;
KEY_DESTROY starts the teardown; ANCHOR_SET replaces the trust anchors; PREFIX_ROTATE derives the prefix and check
keys of the named generation; CONF_SEDGE sets CONF_OK; COUNTER_READ returns counters of the domain alone; DOM_REPORT
gives the report of Table 14.7 with its signature to a key operation. -/
def Obligations.TenantRequestsComplete : Prop :=
    (∀ (s : State) (m : SpdmMsg) (d : Nat) (b : List Byte) (k : List Byte),
      s.asks m 0x01 d b →
      s.tenant m.session d = true →
      s.lve.keysHeld = false →
      s.lve.lc = .field →
      (s.dom d).st = .created →
      b.length = 40 →
      m.dmk = some k →
      s.auditTakes = true →
      ∃ t, exec (.keyLoad m) s = .next t ∧ (t.dom d).st = .active ∧ (t.dom d).keys = some (deriveKeys d k) ∧ (t.dom d).pfxGen = 0 ∧ t.lve.keyOps = s.lve.keyOps ++ [{
          num := s.lve.nextKey, domain := d, writesSlot := true, req := .lve m.session 0x01 d none, resp := leBytes 8 (deriveKeys d k).kcv }]) ∧
    (∀ (s : State) (m : SpdmMsg) (d : Nat),
      s.asks m 0x02 d [] →
      s.tenant m.session d = true →
      (s.dom d).st = .created ∨ (s.dom d).st = .active →
      (s.dom d).teardown = none →
      s.auditTakes 2 = true →
      ∃ t, exec (.keyDestroy m) s = .next t ∧ (t.dom d).st = .teardown ∧ (t.dom d).teardown = some { joined := [.lve m.session 0x02 d none] } ∧ t.aud.reserved = s.aud.reserved + 1) ∧
    (∀ (s : State) (m : SpdmMsg) (d : Nat) (b : List Byte) (l : List (List Byte)),
      s.asks m 0x03 d b →
      s.tenant m.session d = true →
      1 ≤ u8 b 0 →
      u8 b 0 ≤ 4 →
      b.length ≤ 8192 →
      readAnchors (u8 b 0) (b.drop 1) = some l →
      (s.dom d).st ≠ .teardown →
      s.auditTakes = true →
      ∃ t, exec (.anchorSet m) s = .next t ∧ (t.dom d).anchors = l ∧ (s.sessionsFor d = [] → s.linksCalm → s.replies t m 0x03 d .ok [] = true)) ∧
    (∀ (s : State) (m : SpdmMsg) (d : Nat) (b : List Byte) (k : Keys),
      s.asks m 0x04 d b →
      s.tenant m.session d = true →
      (s.dom d).keys = some k →
      s.lve.keysHeld = false →
      b.length = 1 →
      (s.dom d).pfxGen < u8 b 0 →
      (s.dom d).st = .active →
      s.auditTakes = true →
      ∃ t, exec (.prefixRotate m) s = .next t ∧ (t.dom d).pfxGen = u8 b 0 ∧ (t.dom d).keys = some { k with pfx := (prefixKeys k.prk (u8 b 0)).1, chk := (prefixKeys k.prk (u8 b 0)).2 } ∧
        t.lve.keyOps.length = s.lve.keyOps.length + 1) ∧
    (∀ (s : State) (m : SpdmMsg) (d : Nat) (b : List Byte),
      s.asks m 0x05 d b →
      s.tenant m.session d = true →
      (s.dom d).st ≠ .teardown →
      b.length = 1 →
      u8 b 0 ≤ 1 →
      s.auditTakes = true →
      ∃ t, exec (.confSedge m) s = .next t ∧ (t.sdg.doms.getD d {}).confOk = (u8 b 0 == 1) ∧ s.replies t m 0x05 d .ok [] = true) ∧
    (∀ (s : State) (m : SpdmMsg) (d : Nat) (b : List Byte),
      s.asks m 0x06 d b →
      s.tenant m.session d = true →
      (s.dom d).st ≠ .teardown →
      b.length = 4 →
      ∃ t, exec (.counterRead m) s = .next t ∧ t.lve = s.lve ∧ s.replies t m 0x06 d .ok ((((s.counterSet d).drop (u16 b 0)).take (u16 b 2)).flatMap fun x => leBytes 4 x.1 ++ leBytes 8 x.2) = true) ∧
    (∀ (s : State) (m : SpdmMsg) (d : Nat) (b : List Byte),
      s.asks m 0x07 d b →
      s.tenant m.session d = true ∨ s.operator m.session = true →
      s.lve.keysHeld = false →
      b.length = 32 →
      d ≤ 4095 →
      ∃ t, exec (.domReport m) s = .next t ∧ t.lve.doms = s.lve.doms ∧ (t.lve.keyOps.getLast?).map KeyOp.resp = some (s.reportBody d b ++ signature 1 (sha384 (s.reportBody d b))) ∧
        t.lve.keyOps.length = s.lve.keyOps.length + 1)

/-- OPERATOR_CMD runs NOP, DOM_STATUS, DEV_MODE, AUD_ACK and DOM_TEARDOWN for the operator; LC_ADVANCE and DEBUG_UNLOCK
wait for their audit segment; a standard SPDM request is answered, KEY_EXCHANGE opens a session, FINISH establishes
it, END_SESSION ends it, signed answers wait for a key operation; LVE_SPDM gives the response as its output, in clear
or within a session; a silent session ends; AUD_EXPORT copies the whole segments that fit and AUD_ACK frees those up
to a number. -/
def Obligations.OperatorVendorAndSpdmCommandsComplete : Prop :=
    (∀ (s : State) (m : SpdmMsg) (d : Nat) (b : List Byte),
      s.asks m 0x10 d b →
      s.operator m.session = true →
      u8 b 0 = 0x00 →
      s.fetchCheck 0 (b.take 64) = none →
      b.length = 64 →
      u32 b 4 = 0 →
      ∃ t, exec (.operatorCmd m) s = .next t ∧ (s.gives t).contains (.spdm m.session (leveeResp 0x10 0 0 (cplBytes { result := 0 } ++ []))) = true ∧ t.lve = s.lve) ∧
    (∀ (s : State) (m : SpdmMsg) (d : Nat) (b : List Byte),
      s.asks m 0x10 d b →
      s.operator m.session = true →
      u8 b 0 = 0x4B →
      s.fetchCheck 0 (b.take 64) = none →
      b.length = 64 →
      u32 b 4 = 0 →
      u16 (b.drop 16) 0 ≤ 4095 →
      ∃ t, exec (.operatorCmd m) s = .next t ∧ (s.gives t).contains (.spdm m.session (leveeResp 0x10 0 0 (cplBytes { result := 0 } ++ (leBytes 1 (s.domCode (u16 (b.drop 16) 0)) ++ leBytes 1 ((if (s.dom (u16 (b.drop 16) 0)).conf then 1 else 0) + (if s.lve.sole = some (u16 (b.drop 16) 0) then 2 else 0)) ++
           leBytes 2 (u16 (b.drop 16) 0) ++ leBytes 4 0 ++ leBytes 8 (((s.dom (u16 (b.drop 16) 0)).keys.map Keys.kcv).getD 0) ++
           (if (s.dom (u16 (b.drop 16) 0)).anchor.isEmpty then List.replicate 48 0#8 else fit48 (sha384 (s.dom (u16 (b.drop 16) 0)).anchor)))))) = true ∧ t.lve = s.lve) ∧
    (∀ (s : State) (m : SpdmMsg) (d : Nat) (b : List Byte),
      s.asks m 0x10 d b →
      s.operator m.session = true →
      u8 b 0 = 0x4C →
      s.fetchCheck 0 (b.take 64) = none →
      b.length = 64 →
      u32 b 4 = 0 →
      u8 (b.drop 16) 0 = 0 →
      s.lve.sole = none →
      s.auditTakes = true →
      ∃ t, exec (.operatorCmd m) s = .next t ∧ (s.gives t).contains (.spdm m.session (leveeResp 0x10 0 0 (cplBytes { result := 0 } ++ []))) = true ∧ t.lve.sole = none) ∧
    (∀ (s : State) (m : SpdmMsg) (d : Nat) (b : List Byte),
      s.asks m 0x10 d b →
      s.operator m.session = true →
      u8 b 0 = 0x4E →
      s.fetchCheck 0 (b.take 64) = none →
      b.length = 64 →
      u32 b 4 = 0 →
      u64 (b.drop 16) 0 < s.aud.nextSegment →
      ∃ t, exec (.operatorCmd m) s = .next t ∧ (s.gives t).contains (.spdm m.session (leveeResp 0x10 0 0 (cplBytes { result := (s.aud.segments.filter fun g => decide (g.number ≤ u64 (b.drop 16) 0)).length } ++ []))) = true ∧ t.aud.segments = s.aud.segments.filter (fun g => decide (u64 (b.drop 16) 0 < g.number))) ∧
    (∀ (s : State) (m : SpdmMsg) (d : Nat) (b : List Byte),
      s.asks m 0x10 d b →
      s.operator m.session = true →
      u8 b 0 = 0x4A →
      s.fetchCheck 0 (b.take 64) = none →
      b.length = 64 →
      u32 b 4 = 0 →
      u16 (b.drop 16) 0 ≠ 0 →
      (s.dom (u16 (b.drop 16) 0)).st = .created ∨ (s.dom (u16 (b.drop 16) 0)).st = .active →
      (s.dom (u16 (b.drop 16) 0)).teardown = none →
      s.auditTakes 2 = true →
      ∃ t, exec (.operatorCmd m) s = .next t ∧ (t.dom (u16 (b.drop 16) 0)).st = .teardown ∧ (t.dom (u16 (b.drop 16) 0)).teardown = some { joined := [.op m.session none] }) ∧
    (∀ (s : State) (m : SpdmMsg) (d : Nat) (b : List Byte),
      s.asks m 0x11 d b →
      s.operator m.session = true ∨ s.vendor m.session = true →
      (lcOf (u8 b 0)).isSome = true →
      s.lcRefusal m.session (lcOf (u8 b 0)) b = none →
      s.auditSeals = true →
      ∃ t, exec (.lcAdvance m) s = .next t ∧ (t.aud.waiting.getLast?).map Prod.snd = (lcOf (u8 b 0)).map (fun x => .lcAdvance x (b.drop 1) (.lve m.session 0x11 d none)) ∧ t.aud.waiting.length = s.aud.waiting.length + 1 ∧ t.lve.lc = s.lve.lc) ∧
    (∀ (s : State) (m : SpdmMsg) (d : Nat) (b : List Byte),
      s.asks m 0x12 d b →
      s.vendor m.session = true →
      s.lve.tokens = true →
      tokenNames b = true →
      12 ≤ b.length →
      s.ftimeNow < u32 b 8 →
      s.auditSeals = true →
      ∃ t, exec (.debugUnlock m) s = .next t ∧ (t.aud.waiting.getLast?).map Prod.snd = some (.debugUnlock (u32 b 8) (.lve m.session 0x12 d none)) ∧ t.lve.debugUntil = s.lve.debugUntil) ∧
    (∀ (s : State) (m : SpdmMsg) (k : Nat) (r : List Byte),
      m.verified = true →
      m.session = 0 ∨ (s.spdm? m.session).isSome = true →
      s.serves .lve = true →
      (k, r) ∈ s.spdmPlain →
      m.code = k →
      ∃ t, exec (.spdmRequest m) s = .next t ∧ (s.gives t).contains (.spdm m.session r) = true ∧ t.lve = s.lve ∧ t.mgmt = s.mgmt) ∧
    (∀ (s : State) (m : SpdmMsg),
      m.verified = true →
      m.session = 0 ∨ (s.spdm? m.session).isSome = true →
      s.serves .lve = true →
      (spdmCodes.contains m.code) = false →
      ∃ t, exec (.spdmRequest m) s = .next t ∧ (s.gives t).contains (.spdm m.session (leBytes 1 0x13 ++ leBytes 1 0x7F ++ leBytes 1 0x07 ++ leBytes 1 (m.code % 256))) = true ∧ t.lve = s.lve ∧ t.mgmt = s.mgmt) ∧
    (∀ (s : State) (m : SpdmMsg),
      m.verified = true →
      m.session = 0 ∨ (s.spdm? m.session).isSome = true →
      s.serves .lve = true →
      m.code = 0x83 ∨ m.code = 0xE0 →
      s.lve.keysHeld = false →
      ∃ t, exec (.spdmRequest m) s = .next t ∧ t.lve.keyOps = s.lve.keyOps ++ [{ num := s.lve.nextKey, domain := 0, writesSlot := false, req := .lve m.session 0 0 none, resp := s.spdmSigned m.code m.body }]) ∧
    (∀ (s : State) (m : SpdmMsg),
      m.verified = true →
      m.session = 0 ∨ (s.spdm? m.session).isSome = true →
      s.serves .lve = true →
      m.code = 0x83 ∨ m.code = 0xE0 ∨ m.code = 0xE4 →
      s.lve.keysHeld = true →
      ∃ t, exec (.spdmRequest m) s = .next t ∧ (s.gives t).contains (.spdm m.session (spdmError Status.unavailable.code)) = true ∧ t.lve = s.lve ∧ t.mgmt = s.mgmt) ∧
    (∀ (s : State) (m : SpdmMsg),
      m.verified = true →
      m.session = 0 ∨ (s.spdm? m.session).isSome = true →
      s.serves .lve = true →
      m.code = 0xE4 →
      s.lve.keysHeld = false →
      s.mgmt.sessions = [] →
      ∃ t, exec (.spdmRequest m) s = .next t ∧ ∃ i x, t.mgmt.sessions = [(i, x)] ∧ x.established = false ∧ x.last = s.now ∧ x.period = Config.heartbeat * 1000000000 ∧ 1 ≤ i ∧ i < 2 ^ 32 ∧
        (t.lve.keyOps.getLast?).map KeyOp.resp = some (spdmResp 0x64 (leBytes 4 i ++ s.measurements ++ signature 1 s.measurements))) ∧
    (∀ (s : State) (m : SpdmMsg),
      m.verified = true →
      (s.spdm? m.session).isSome = true →
      s.serves .lve = true →
      m.code = 0xE5 →
      ∃ t, exec (.spdmRequest m) s = .next t ∧ (t.spdm? m.session).map SpdmSession.established = some true ∧ (t.spdm? m.session).map SpdmSession.peer = some (if m.body.isEmpty then none else some m.body) ∧ (s.gives t).contains (.spdm m.session (spdmResp 0x65 [])) = true) ∧
    (∀ (s : State) (m : SpdmMsg),
      m.verified = true →
      (s.spdm? m.session).isSome = true →
      s.serves .lve = true →
      m.code = 0xE8 ∨ m.code = 0xE9 →
      ∃ t, exec (.spdmRequest m) s = .next t ∧ (t.spdm? m.session).map SpdmSession.last = some s.now ∧ (t.spdm? m.session).map SpdmSession.keyUpdates = (s.spdm? m.session).map (fun x => if m.code = 0xE9 then x.keyUpdates + 1 else x.keyUpdates) ∧ (s.gives t).contains (.spdm m.session (spdmResp (m.code - 0x80) [])) = true) ∧
    (∀ (s : State) (m : SpdmMsg),
      m.verified = true →
      (s.spdm? m.session).isSome = true →
      s.serves .lve = true →
      m.code = 0xEC →
      ∃ t, exec (.spdmRequest m) s = .next t ∧ t.mgmt.sessions = s.mgmt.sessions.erase m.session ∧ t.mgmt.sessions.length < s.mgmt.sessions.length ∧ (s.gives t).contains (.spdm m.session (spdmResp 0x6C [])) = true) ∧
    (∀ (s : State) (q : CmdRef) (c : InFlight) (inp : List Byte) (k : Nat) (r : List Byte),
      s.offers q 0x48 c →
      inp.length = c.inLen →
      s.serves .lve = true →
      u8 inp 0 = 0x12 ∨ u8 inp 0 = 0x13 →
      (k, r) ∈ s.spdmPlain →
      u8 inp 1 = k →
      r.length ≤ u32 c.ops 8 →
      ∃ t, exec (.lveSpdm q (.bytes inp)) s = .next t ∧ s.answersWith t q c r.length 0 = true ∧ (s.gives t).contains (.hostWrite q.func (u64 c.ops 0) r) = true ∧ t.lve = s.lve ∧ t.mgmt = s.mgmt) ∧
    (∀ (s : State) (q : CmdRef) (c : InFlight) (inp : List Byte) (k : Nat) (r : List Byte),
      s.offers q 0x48 c →
      inp.length = c.inLen →
      s.serves .lve = true →
      u8 inp 0 = 0x12 ∨ u8 inp 0 = 0x13 →
      (k, r) ∈ s.spdmPlain →
      u8 inp 1 = k →
      u32 c.ops 8 < r.length →
      ∃ t, exec (.lveSpdm q (.bytes inp)) s = .next t ∧ s.posts t q c .format = true ∧ t.lve = s.lve ∧ t.mgmt = s.mgmt) ∧
    (∀ (s : State) (q : CmdRef) (c : InFlight) (inp : List Byte),
      s.offers q 0x48 c →
      inp.length = c.inLen →
      s.serves .lve = true →
      u8 inp 0 = 0x12 ∨ u8 inp 0 = 0x13 →
      u8 inp 1 = 0x83 ∨ u8 inp 1 = 0xE0 →
      s.lve.keysHeld = false →
      ∃ t, exec (.lveSpdm q (.bytes inp)) s = .next t ∧ t.lve.keyOps = s.lve.keyOps ++ [{ num := s.lve.nextKey, domain := 0, writesSlot := false, req := .lve 0 0 0 (some q), resp := s.spdmSigned (u8 inp 1) (inp.drop 4) }]) ∧
    (∀ (s : State) (q : CmdRef) (c : InFlight) (inp : List Byte),
      s.offers q 0x48 c →
      inp.length = c.inLen →
      s.serves .lve = true →
      u8 inp 0 = 0x12 ∨ u8 inp 0 = 0x13 →
      u8 inp 1 = 0xFE →
      ∃ t, exec (.lveSpdm q (.bytes inp)) s = .next t ∧ t.lve = s.lve ∧ t.mgmt = s.mgmt ∧ t.hif.refusals = s.hif.refusals ++ [(.lve 0 0 0 (some q), { status := .denied }, c.arrived + 2000)]) ∧
    (∀ (s : State) (q : CmdRef) (c : InFlight) (inp : List Byte) (x : SpdmSession),
      s.offers q 0x48 c →
      inp.length = c.inLen →
      s.serves .lve = true →
      u8 inp 0 ≠ 0x12 →
      u8 inp 0 ≠ 0x13 →
      s.spdm? (u32 inp 0) = some x →
      64 ≤ u32 c.ops 8 →
      ∃ t, exec (.lveSpdm q (.bytes inp)) s = .next t ∧ match Config.openSealed x.secret [] (inp.drop 4) with
        | none => (s.gives t).contains (.hostWrite q.func (u64 c.ops 0) (spdmError Status.format.code)) = true ∧ t.lve = s.lve ∧ t.mgmt = s.mgmt
        | some m => (u8 m 1 = 0xE8 → (s.gives t).contains (.hostWrite q.func (u64 c.ops 0) (spdmResp 0x68 [])) = true ∧ (t.spdm? (u32 inp 0)).map SpdmSession.last = some s.now) ∧
          (u8 m 1 = 0xEC → (s.gives t).contains (.hostWrite q.func (u64 c.ops 0) (spdmResp 0x6C [])) = true ∧ t.mgmt.sessions = s.mgmt.sessions.erase (u32 inp 0)) ∧
          ∀ d b, u8 m 1 = 0xFE → m.drop 4 = leBytes 1 0x05 ++ leBytes 1 0 ++ leBytes 2 d ++ b → d < 65536 → s.tenant (u32 inp 0) d = true →
            (s.dom d).st ≠ .teardown → b.length = 1 → u8 b 0 ≤ 1 → s.auditTakes = true →
            (t.sdg.doms.getD d {}).confOk = (u8 b 0 == 1) ∧ (s.gives t).contains (.hostWrite q.func (u64 c.ops 0) (leveeResp 0x05 0 d [])) = true) ∧
    (∀ (s : State) (k : Nat) (x : SpdmSession),
      s.spdm? k = some x →
      x.hbeat = true →
      x.last + x.period ≤ s.now →
      ∃ t, exec (.spdmHeartbeatExpiry k) s = .next t ∧ t.spdm? k = none) ∧
    (∀ (s : State) (q : CmdRef) (c : InFlight) (l : List Segment),
      s.offers q 0x4D c →
      s.serves .lve = true →
      262368 ≤ u32 c.ops 8 →
      l = fitSegments (u32 c.ops 8) (s.sealSegment 1).aud.segments →
      ∃ t, exec (.audExport q) s = .next t ∧ s.answersWith t q c l.length (((l.head?.map Segment.number).getD 0) % 2 ^ 32) = true ∧ t.aud = (s.sealSegment 1).aud ∧
        (l ≠ [] → (s.gives t).contains (.hostWrite q.func (u64 c.ops 0) (l.flatMap Segment.bytes)) = true) ∧
        (s.aud.open_ = [] → t.aud = s.aud) ∧ (s.aud.open_ ≠ [] → s.auditFree ≠ 0 → t.aud.open_ = [] ∧ t.aud.segments.length = s.aud.segments.length + 1)) ∧
    (∀ (s : State) (q : CmdRef) (c : InFlight),
      s.offers q 0x4E c →
      s.serves .lve = true →
      u64 c.ops 0 < s.aud.nextSegment →
      ∃ t, exec (.audAck q) s = .next t ∧ t.aud.segments = s.aud.segments.filter (fun g => decide (u64 c.ops 0 < g.number)) ∧ s.answersWith t q c (s.aud.segments.filter fun g => decide (g.number ≤ u64 c.ops 0)).length 0 = true)

/-- The key operation in progress ends, counts, and its answer leaves, and one that ends in a later epoch counts as an
overrun; a trip aborts it, holds key operations and counts; 1 ms in range releases them; 10 ms out of range or three
trips in 1 s lead to SAFE, in which no domain has keys; a key-store error zeroises the slot and an ACTIVE domain goes
back to CREATED. -/
def Obligations.KeyOperationsAndMonitorsComplete : Prop :=
    (∀ (s : State) (k : KeyOp) (rest : List KeyOp) (x : Nat) (op : Nat) (d : Nat),
      s.keysRun = k :: rest →
      k.req = .lve x op d none →
      op ≠ 0 →
      ∃ t, exec (.keyOperationDone false) s = .next t ∧ (t.lve.keyOps = s.lve.keyOps.filter fun z => z.num != k.num) ∧ (s.gives t).contains (.spdm x (leveeResp op 0 d k.resp)) = true ∧ t.ctrs.getD Reg.lveKeyopsLo 0 = (s.ctrs.getD Reg.lveKeyopsLo 0 + 1) % 2 ^ 64) ∧
    (∀ (s : State) (k : KeyOp) (rest : List KeyOp) (x : Nat),
      s.keysRun = k :: rest →
      k.req = .lve x 0 0 none →
      ∃ t, exec (.keyOperationDone false) s = .next t ∧ (t.lve.keyOps = s.lve.keyOps.filter fun z => z.num != k.num) ∧ (s.gives t).contains (.spdm x k.resp) = true ∧ t.ctrs.getD Reg.lveKeyopsLo 0 = (s.ctrs.getD Reg.lveKeyopsLo 0 + 1) % 2 ^ 64 ∧ (s.pwr.keyEpochs.getD k.num s.pwr.epoch ≠ s.pwr.epoch → t.ctrs.getD Reg.pwrKeyOverrunLo 0 = (s.ctrs.getD Reg.pwrKeyOverrunLo 0 + 1) % 2 ^ 64)) ∧
    (∀ (s : State) (k : KeyOp) (rest : List KeyOp),
      s.keysRun = k :: rest →
      s.lve.tripping ≠ none →
      ∃ t, exec (.keyOperationDone true) s = .next t ∧ (t.lve.keyOps = s.lve.keyOps.filter fun z => z.num != k.num) ∧ (k.writesSlot = true → (t.dom k.domain).keys = none ∧ (t.dom k.domain).st ≠ .active)) ∧
    (∀ (s : State) (x : Monitor),
      s.glb.phase = .ready →
      s.pwr.standby ≠ .standby →
      ∃ t, exec (.monitorTrip x) s = .next t ∧ t.lve.keysHeld = true ∧ (t.lve.keyOps = s.lve.keyOps.filter fun z => s.keysRun.head?.all fun k => z.num != k.num) ∧ t.lve.tripping = some (x, s.now) ∧ t.lve.lastTrip = x.code ∧ t.lve.trips = min 65535 (s.lve.trips + 1)) ∧
    (∀ (s : State) (x : Monitor),
      s.glb.phase ≠ .safe →
      s.glb.phase ≠ .off →
      (s.lve.doms.all fun e => e.2.keys.isSome == decide (e.2.st = .active) && decide (e.1 ≠ 0)) = true →
      s.glb.phase ≠ .ready ∨ s.pwr.standby = .standby →
      s.lve.safe = false →
      ∃ t, exec (.monitorTrip x) s = .next t ∧ t.glb.phase = .safe ∧ t.lve.safe = true ∧ t.lve.cause = x.code ∧ t.mgmt.sessions = [] ∧ t.lve.keyOps = [] ∧ ∀ d, (t.dom d).keys = none ∧ (t.dom d).st ≠ .active) ∧
    (∀ (s : State) (x : Monitor) (u : Nat),
      s.lve.tripping = some (x, u) →
      u + 1000000 ≤ s.now →
      ∃ t, exec (.monitorInRange) s = .next t ∧ t.lve.tripping = none ∧ t.lve.keysHeld = false ∧ t.lve.doms = s.lve.doms) ∧
    (∀ (s : State),
      s.lve.safe = false →
      (s.lve.doms.all fun e => e.2.keys.isSome == decide (e.2.st = .active) && decide (e.1 ≠ 0)) = true →
      (match s.lve.tripping with | some (_, u) => decide (u + 10000000 ≤ s.now) | none => false) = true ∨ 3 ≤ (s.lve.tripTimes.filter fun u => decide (s.now ≤ u + 1000000000)).length →
      ∃ t, exec (.monitorPersistent) s = .next t ∧ t.glb.phase = .safe ∧ t.lve.safe = true ∧ t.lve.cause = 5 ∧ ∀ d, (t.dom d).keys = none ∧ (t.dom d).st ≠ .active) ∧
    (∀ (s : State) (d : Nat) (k : Nat),
      (s.dom d).keys ≠ none →
      ∃ t, exec (.keyStoreUe d k) s = .next t ∧ (t.dom d).keys = none ∧ (t.dom d).st = (if (s.dom d).st = .active then .created else (s.dom d).st))

/-- A warm reset of a unit, by an error in its control state, two bad copies of a metadata frame, or its watchdog, begins
at its detection and leaves a record of class 0x04; key operations abort, and the delivery state of the event
controller clears. It ends with the unit serving again, a record of class 0x05 and one more in the counter of the
unit; a self-check that fails begins it anew; the third within 1 s ends with the unit held and a record of class 0x06. -/
def Obligations.WarmResetCommandsComplete : Prop :=
    (∀ (s : State) (u : PrivUnit) (c : WarmCause),
      (s.unit3 u).held = false →
      s.glb.phase = .ready →
      s.flt.fifo.length < 256 →
      ∃ t, exec (.warmReset u c) s = .next t ∧ (t.unit3 u).warmSince = some s.now ∧ t.serves u = false ∧ (t.unit3 u).times.getLast? = some s.now ∧ (t.flt.fifo.any fun r => r.cls == 0x04 && r.unit == unitWord u.block 0 && r.number == s.flt.nextNumber) = true ∧
        (u = .lve → t.lve.keyOps = []) ∧ (u = .evc → t.evc.running = []) ∧ (∀ f, u = .xlt → c = .metadata f → t.flt.warmFrame = some f)) ∧
    (∀ (s : State) (u : PrivUnit),
      (s.unit3 u).held = false →
      s.glb.phase = .ready →
      s.flt.fifo.length < 256 →
      ∃ t, exec (.unitWatchdogExpiry u) s = .next t ∧ (t.unit3 u).warmSince = some s.now ∧ t.serves u = false ∧ (t.unit3 u).times.getLast? = some s.now ∧ (t.flt.fifo.any fun r => r.cls == 0x04 && r.unit == unitWord u.block 0 && r.number == s.flt.nextNumber) = true ∧
        (u = .lve → t.lve.keyOps = []) ∧ (u = .evc → t.evc.running = [])) ∧
    (∀ (s : State) (u : PrivUnit),
      (s.unit3 u).warmSince ≠ none →
      (s.unit3 u).times.length < 3 →
      (s.unit3 u).held = false →
      s.flt.fifo.length < 256 →
      ∃ t, exec (.warmResetDone u true true) s = .next t ∧ t.serves u = true ∧ (t.flt.fifo.any fun r => r.cls == 0x05 && r.unit == unitWord u.block 0 && r.number == s.flt.nextNumber) = true ∧ t.ctrs.getD u.counter 0 = (s.ctrs.getD u.counter 0 + 1) % 2 ^ 64 ∧ (u = .xlt → t.flt.warmFrame = none)) ∧
    (∀ (s : State) (u : PrivUnit) (a : Bool) (b : Bool),
      (s.unit3 u).warmSince ≠ none →
      3 ≤ (s.unit3 u).times.length →
      s.flt.fifo.length < 256 →
      ∃ t, exec (.warmResetDone u a b) s = .next t ∧ (t.unit3 u).held = true ∧ (t.unit3 u).warmSince = none ∧ t.serves u = false ∧ (t.flt.fifo.any fun r => r.cls == 0x06 && r.unit == unitWord u.block 0 && r.number == s.flt.nextNumber) = true) ∧
    (∀ (s : State) (u : PrivUnit) (b : Bool),
      (s.unit3 u).warmSince ≠ none →
      (s.unit3 u).times.length < 3 →
      (s.unit3 u).held = false →
      s.glb.phase = .ready →
      s.flt.fifo.length < 256 →
      ∃ t, exec (.warmResetDone u false b) s = .next t ∧ (t.unit3 u).warmSince = some s.now ∧ t.serves u = false ∧ (t.unit3 u).times.getLast? = some s.now ∧ (t.flt.fifo.any fun r => r.cls == 0x04 && r.unit == unitWord u.block 0 && r.number == s.flt.nextNumber) = true ∧
        (u = .lve → t.lve.keyOps = []) ∧ (u = .evc → t.evc.running = []))

/-- Toluo takes the oldest record, keeps it as the last and reports it; corrected errors leave one record of class 0x01
with their count; a corrected word adds one to its stack; a test that comes due takes the next cluster, each item
counts, and a finished test without failures returns the cluster and moves on; TST_TRIG makes the next test due;
RESTORE clears the counts of the selected unit. -/
def Obligations.FaultReportAndTestCommandsComplete : Prop :=
    (∀ (s : State) (r : FaultRec) (rest : List FaultRec),
      s.flt.fifo = r :: rest →
      s.flt.dropped = 0 →
      ∃ t, exec (.toluoFaultReport) s = .next t ∧ t.flt.fifo = rest ∧ t.flt.last = some r ∧ bit (t.reg (Evt.glbFault.1 + 0x18)) Evt.glbFault.2 = true ∧ (Config.flashWriteFails s.fresh = true → bit (t.reg (Err.glbHistFail.1 + 0x10)) Err.glbHistFail.2 = true)) ∧
    (∀ (s : State) (x : Nat) (n : Nat),
      0 < n →
      s.flt.corrected.get? x = none →
      s.flt.fifo.length < 256 →
      ∃ t, exec (.ceSummary x n) s = .next t ∧ (t.flt.fifo.getLast?).map (fun r => (r.cls, r.unit, r.count)) = some (0x01, x, min n 65535) ∧ t.flt.fifo.length = s.flt.fifo.length + 1) ∧
    (∀ (s : State) (a : Nat),
      s.fld Reg.glbFaultCfg 15 8 ≠ 0 →
      a < s.t0Bytes →
      s.glb.phase = .ready →
      s.pwr.standby ≠ .standby →
      s.backgroundFits .scrub (s.rowCost 0 0 64) 100 = true →
      (recent s.histNow day1 (s.flt.rowErrs.getD (Config.rowOf a) [])).length < 64 →
      ∃ t, exec (.patrolScrub a .corrected) s = .next t ∧ t.flt.rowErrs.getD (Config.rowOf a) [] = recent s.histNow day1 (s.flt.rowErrs.getD (Config.rowOf a) []) ++ [s.histNow]) ∧
    (∀ (s : State) (a : Nat),
      s.fld Reg.glbFaultCfg 15 8 ≠ 0 →
      a < s.t0Bytes →
      s.glb.phase = .ready →
      s.pwr.standby ≠ .standby →
      s.backgroundFits .scrub (s.rowCost 0 0 64) 100 = true →
      (recent s.histNow day1 (s.flt.rowErrs.getD (Config.rowOf a) [])).length = 64 →
      s.flt.fifo.length < 256 →
      ∃ t, exec (.patrolScrub a .corrected) s = .next t ∧ (t.flt.fifo.any fun r => r.cls == 0x09 && r.unit == unitWord 0x38 (s.glb.variant.stackAt a)) = true ∧ bit (t.reg (Evt.glbPermanent.1 + 0x18)) Evt.glbPermanent.2 = true) ∧
    (∀ (s : State) (a : Nat),
      s.fld Reg.glbFaultCfg 15 8 ≠ 0 →
      a < s.t0Bytes →
      s.glb.phase = .ready →
      s.pwr.standby ≠ .standby →
      s.backgroundFits .scrub (s.rowCost 0 0 64) 100 = true →
      ∃ t, exec (.patrolScrub a .clean) s = .next t ∧ t.flt = s.flt ∧ t.xlt = s.xlt) ∧
    (∀ (s : State) (a : Nat) (i : Nat) (l : Nat) (g : Nat) (p : Nat),
      s.fld Reg.glbFaultCfg 15 8 ≠ 0 →
      a < s.t0Bytes →
      s.glb.phase = .ready →
      s.pwr.standby ≠ .standby →
      s.backgroundFits .scrub (s.rowCost 0 0 64) 100 = true →
      s.flt.fifo.length < 256 →
      s.frameAt a = some (.page i l g p) →
      s.xlt.metas.has (.page i l g p) = false →
      ∃ t, exec (.patrolScrub a .uncorrectable) s = .next t ∧ (t.frame? (.page i l g p)).map FrameInfo.poison = some true ∧ (t.flt.fifo.any fun r => r.cls == 0x02 && r.unit == unitWord 0x38 (s.glb.variant.stackAt a)) = true) ∧
    (∀ (s : State) (a : Nat) (i : Nat) (x : Seq),
      s.fld Reg.glbFaultCfg 15 8 ≠ 0 →
      a < s.t0Bytes →
      s.glb.phase = .ready →
      s.pwr.standby ≠ .standby →
      s.backgroundFits .scrub (s.rowCost 0 0 64) 100 = true →
      s.seq? i = some x →
      x.held = [] ∧ x.waiting = [] ∧ x.trunc = none ∧ x.retirers = [] →
      (s.att.steps.all fun y => y.seq != i) = true →
      ∃ t, exec (.patrolScrub a (.descriptor i)) s = .next t ∧ (t.seq? i).map (fun y => (y.st, y.tag, y.ptes.length)) = some (.retired, x.tag, 0)) ∧
    (∀ (s : State) (c : Nat),
      bit (s.reg Reg.tstFtCfg) 31 = true →
      s.glb.variant.hasAttn = true →
      s.takesWork = true →
      s.flt.testCluster = none →
      s.testCandidate = some c →
      s.flt.testDue = true →
      s.att.lsPending = false →
      s.anyCluster = true →
      ∃ t, exec (.fieldTestDue c) s = .next t ∧ t.flt.testCluster = some c ∧ t.flt.testItem = 0 ∧ t.flt.testDue = false) ∧
    (∀ (s : State) (c : Nat) (x : Int) (l : List Nat),
      s.flt.testCluster = some c →
      s.testStops c = false →
      s.clusterIdle c = true →
      s.itemReady x = true →
      s.backgroundFits .test (40 * s.fld Reg.pwrCoef2 7 0) 40000 = true →
      ∃ t, exec (.testItem x l) s = .next t ∧ t.flt.testItem = s.flt.testItem + 1 ∧ t.flt.testEpoch = some s.pwr.epoch ∧ t.flt.testCluster = some c) ∧
    (∀ (s : State) (c : Nat) (l : List Nat),
      s.flt.testCluster = some c →
      48 ≤ s.flt.testItem →
      s.flt.testFails = [] →
      ∃ t, exec (.fieldTestEnd l) s = .next t ∧ t.flt.testCluster = none ∧ t.flt.testNext = (c + 1) % 16 ∧ t.flt.lastTest = s.now ∧ t.flt.fifo = s.flt.fifo) ∧
    (∀ (s : State),
      s.glb.phase = .ready →
      s.glb.variant.hasAttn = true →
      s.smSrc ≠ 1 →
      bit (s.reg Reg.glbPinmux) 0 = true →
      ∃ t, exec (.tstTrig none) s = .next t ∧ t.flt.testDue = true) ∧
    (∀ (s : State) (w : RegWrite),
      s.openTo Reg.tstTrig w →
      s.glb.variant.hasAttn = true →
      bit w.value.toNat 0 = true →
      ∃ t, exec (.tstTrig (some w)) s = .next t ∧ t.flt.testDue = true) ∧
    (∀ (s : State) (w : RegWrite),
      s.openTo Reg.tstHistCtl w →
      bit w.value.toNat 31 = true →
      (s.history (s.reg Reg.tstHistSel)).byMonitor = false →
      ∃ t, exec (.restore w) s = .next t ∧ t.history (s.reg Reg.tstHistSel) = {})

/-- A registration with fields in their sets, a layout that R51 allows, an unused tag and, in format 0x4, a usable outlier
table enters the table and answers the layout word; a registration that no sequence and no block descriptor uses
leaves it. -/
def Obligations.ModelCommandsComplete : Prop :=
    (∀ (s : State) (q : CmdRef) (c : InFlight) (h : HostRead),
      s.offersXlt q 0x01 c →
      s.xlt.placed = true →
      modelOk c.ops = true →
      (readModel c.ops).tooLarge = none →
      (readModel c.ops).format ≠ 4 →
      s.model? (s.ringDomain q) (u16 c.ops 0) = none →
      s.mayTake 4096 Domain.modelRsv (s.xlt.models.map fun e => e.1.1) (s.ringDomain q) = true →
      s.auditTakes = true →
      ∃ t, exec (.modelRegister q h) s = .next t ∧ t.model? (s.ringDomain q) (u16 c.ops 0) = some (readModel c.ops) ∧ s.answersWith t q c (readModel c.ops).word 0 = true) ∧
    (∀ (s : State) (q : CmdRef) (c : InFlight) (b : List Byte),
      s.offersXlt q 0x01 c →
      s.xlt.placed = true →
      modelOk c.ops = true →
      (readModel c.ops).tooLarge = none →
      (readModel c.ops).format = 4 →
      4 * (readModel c.ops).layers * (readModel c.ops).kvHeads ≤ b.length →
      outliersOk (readModel c.ops) (b.take (4 * (readModel c.ops).layers * (readModel c.ops).kvHeads)) = true →
      s.model? (s.ringDomain q) (u16 c.ops 0) = none →
      s.mayTake 4096 Domain.modelRsv (s.xlt.models.map fun e => e.1.1) (s.ringDomain q) = true →
      s.auditTakes = true →
      ∃ t, exec (.modelRegister q (.bytes b)) s = .next t ∧ t.model? (s.ringDomain q) (u16 c.ops 0) = some { readModel c.ops with outliers := b.take (4 * (readModel c.ops).layers * (readModel c.ops).kvHeads) } ∧ s.posts t q c .ok = true) ∧
    (∀ (s : State) (q : CmdRef) (c : InFlight),
      s.offersXlt q 0x02 c →
      (s.model? (s.ringDomain q) (u16 c.ops 0)).isSome = true →
      (s.xlt.seqs.any fun e => decide (e.2.st ≠ .retired) && decide (e.2.domain = s.ringDomain q) && decide (e.2.model = u16 c.ops 0)) = false →
      (s.xlt.bds.any fun e => decide (e.2.domain = s.ringDomain q) && decide (e.2.tag = u16 c.ops 0)) = false →
      s.auditTakes = true →
      ∃ t, exec (.modelRelease q) s = .next t ∧ t.model? (s.ringDomain q) (u16 c.ops 0) = none ∧ s.posts t q c .ok = true)

/-- SEQ_CREATE makes an IDLE sequence under a new handle; SEQ_RETIRE drains it and SEQ_RETIRED retires it with its tag
kept; SEQ_TRUNCATE cuts a sequence without work in flight and is held on one that has some, until TRUNCATE_RELEASE;
SEQ_QUERY returns length, first poisoned position and state and changes no sequence; SEQ_MAP_PREFIX maps a cached
block into an empty sequence; SEQ_PCLASS and SEQ_STRIPE set class and stripe; UNMAP gives up a page whose pin is gone. -/
def Obligations.SequenceCommandsComplete : Prop :=
    (∀ (s : State) (q : CmdRef) (c : InFlight) (i : Nat),
      s.offersXlt q 0x08 c →
      s.xlt.placed = true →
      u32 c.ops 4 ≤ 1 →
      (s.model? (s.ringDomain q) (u16 c.ops 0)).isSome = true →
      (u32 c.ops 4 = 1 → s.glb.variant.hasAttn = true) →
      s.mayTake (2 ^ 24) Domain.seqRsv (s.usedSeqs.map Prod.snd) (s.ringDomain q) = true →
      chooseFree (s.usedSeqs.map Prod.fst) 0 (2 ^ 24) (Config.seqIndex s.fresh) = some i →
      ∃ t, exec (.seqCreate q) s = .next t ∧ (t.seq? i) = some {
          tag := match s.seq? i with | some y => y.tag % 255 + 1 | none => 1
          st := .idle, domain := s.ringDomain q, model := u16 c.ops 0, determ := decide (u32 c.ops 4 = 1)
          range := some ((s.rbdDom (s.ringDomain q)).lo, (s.rbdDom (s.ringDomain q)).hi), lastActive := s.now } ∧
        s.answersWith t q c (handleOf (match s.seq? i with | some y => y.tag % 255 + 1 | none => 1) i) 0 = true) ∧
    (∀ (s : State) (q : CmdRef) (c : InFlight) (i : Nat) (x : Seq),
      s.offersXlt q 0x09 c →
      s.findSeq (s.ringDomain q) (u32 c.ops 0) = .ok (i, x) →
      ∃ t, exec (.seqRetire q) s = .next t ∧ t.seq? i = some { x with st := .draining, retirers := x.retirers ++ [.ring q] }) ∧
    (∀ (s : State) (i : Nat) (x : Seq),
      s.seq? i = some x →
      x.st = .draining →
      s.drained i x = true →
      s.mayBegin (.retire i) = true →
      s.serves .xlt = true →
      s.noPlacements →
      ∃ t, exec (.seqRetired i) s = .next t ∧ t.seq? i = some { tag := x.tag, st := .retired, domain := x.domain, model := x.model, stripe := x.stripe } ∧ ∀ q c, x.retirers = [.ring q] → s.waitsFor q c → s.posts t q c .ok = true) ∧
    (∀ (s : State) (q : CmdRef) (c : InFlight) (i : Nat) (x : Seq),
      s.offersXlt q 0x0A c →
      u32 c.ops 4 % 16 = 0 →
      s.findSeq (s.ringDomain q) (u32 c.ops 0) = .ok (i, x) →
      x.trunc = none →
      x.st ≠ .draining →
      x.st ≠ .poisoned →
      x.inFlight = 0 →
      ∃ t, exec (.seqTruncate q) s = .next t ∧ s.posts t q c .ok = true ∧ (t.seq? i).map (fun y => y.next) = some ((List.range (s.modelOf x).layers).map fun l => (l, min (x.nextPos l) (u32 c.ops 4))) ∧
        ((t.seq? i).all fun y => y.ptes.all fun e => decide (e.1.2.2 < u32 c.ops 4 / 16)) = true) ∧
    (∀ (s : State) (q : CmdRef) (c : InFlight) (i : Nat) (x : Seq),
      s.offersXlt q 0x0A c →
      u32 c.ops 4 % 16 = 0 →
      s.findSeq (s.ringDomain q) (u32 c.ops 0) = .ok (i, x) →
      x.trunc = none →
      x.st ≠ .draining →
      x.st ≠ .poisoned →
      x.inFlight ≠ 0 →
      ∃ t, exec (.seqTruncate q) s = .next t ∧ t.seq? i = some { x with trunc := some (.ring q, u32 c.ops 4) }) ∧
    (∀ (s : State) (i : Nat) (x : Seq) (r : Requester) (p : Nat),
      s.seq? i = some x →
      x.trunc = some (r, p) →
      x.inFlight = 0 →
      s.mayBegin (.truncate i) = true →
      s.serves .xlt = true →
      x.waiting = [] →
      x.st ≠ .draining →
      x.st ≠ .poisoned →
      ∃ t, exec (.truncateRelease i) s = .next t ∧ (t.seq? i).map (fun y => (y.trunc, y.next)) = some (none, (List.range (s.modelOf x).layers).map fun l => (l, min (x.nextPos l) p)) ∧ ∀ q c, r = .ring q → s.waitsFor q c → s.posts t q c .ok = true) ∧
    (∀ (s : State) (q : CmdRef) (c : InFlight) (i : Nat) (x : Seq),
      s.offersXlt q 0x0B c →
      s.findSeq (s.ringDomain q) (u32 c.ops 0) = .ok (i, x) →
      ∃ t, exec (.seqQuery q) s = .next t ∧ s.answersWith t q c (s.lengthOf x) (s.firstPoison i x) = true ∧ t.xlt = s.xlt ∧ (s.gives t).contains (.hostWrite q.func (u64 c.ops 8)
          (leBytes 1 x.st.num ++ leBytes 1 0 ++ leBytes 2 x.model ++ leBytes 4 (s.lengthOf x) ++ leBytes 4 (s.firstPoison i x) ++ leBytes 4 0)) = true) ∧
    (∀ (s : State) (q : CmdRef) (c : InFlight) (i : Nat) (x : Seq) (inp : List Byte) (y : Bd),
      s.offersXlt q 0x0C c →
      inp.length = c.inLen →
      u32 c.ops 4 = 1 →
      inp.length = 4 →
      s.findSeq (s.ringDomain q) (u32 c.ops 0) = .ok (i, x) →
      x.st ≠ .draining →
      s.findBd (s.ringDomain q) (u32 inp 0) = some y →
      x.stripe = none →
      ((List.range (s.modelOf x).layers).all fun l => decide (x.nextPos l = x.base)) = true →
      x.base + 16 ≤ 2 ^ 24 →
      y.tag = x.model →
      y.whole = true →
      (y.fds.any fun f => f.2.poison) = false →
      s.metaPoison (.bdPage (u32 inp 0)) = false →
      (y.fds.all fun f => decide (f.2.refs < 65535)) = true →
      ((List.range y.slots).all fun k => (tablePath (.seq i) (pageKey (k / (s.modelOfBd y).groups) (k % (s.modelOfBd y).groups) (x.base / 16))).all s.xlt.metas.has) = true →
      ∃ t, exec (.seqMapPrefix q (.bytes inp)) s = .next t ∧ s.posts t q c .ok = true ∧ (t.seq? i).map (fun z => (z.next, z.run, z.runKnown)) = some ((List.range (s.modelOf x).layers).map (fun l => (l, x.base + 16)), y.hash, true) ∧ ((List.range y.slots).all fun k =>
        decide (((t.seq? i).bind fun z => (z.ptes.get? (k / (s.modelOfBd y).groups, k % (s.modelOfBd y).groups, x.base / 16)).bind Pte.share) = some (u32 inp 0, k))) = true) ∧
    (∀ (s : State) (q : CmdRef) (c : InFlight) (i : Nat) (x : Seq),
      s.offersXlt q 0x0F c →
      u8 c.ops 4 ≤ 15 →
      s.findSeq (s.ringDomain q) (u32 c.ops 0) = .ok (i, x) →
      s.auditTakes = true →
      s.noPlacements →
      ∃ t, exec (.seqPclass q) s = .next t ∧ t.seq? i = some { x with pclass := u8 c.ops 4 } ∧ s.posts t q c .ok = true) ∧
    (∀ (s : State) (q : CmdRef) (c : InFlight) (i : Nat) (x : Seq) (n : Nat) (z : RingSlot),
      s.offersXlt q 0x10 c →
      s.findSeq (s.ringDomain q) (u32 c.ops 0) = .ok (i, x) →
      s.ringSlot (s.ringDomain q) (u16 c.ops 4) = some (n, z) →
      x.st = .idle →
      s.lengthOf x = 0 →
      x.base = 0 →
      x.stripe = none →
      z.st ≠ .leaving →
      12 ≤ u8 c.ops 7 →
      u8 c.ops 7 ≤ 22 →
      u8 c.ops 6 < z.n →
      (u8 c.ops 6 + 1) * 2 ^ u8 c.ops 7 ≤ 2 ^ 24 →
      s.liveStripe n (u32 c.ops 8) = none →
      (x.determ = true → s.detSlice ≤ 2 ^ u8 c.ops 7) →
      s.auditTakes = true →
      ∃ t, exec (.seqStripe q) s = .next t ∧ s.posts t q c .ok = true ∧ (t.seq? i).map (fun y => (y.stripe, y.base)) = some (some { slot := n, rsid := u32 c.ops 8, k := u8 c.ops 6, log := u8 c.ops 7 }, u8 c.ops 6 * 2 ^ u8 c.ops 7)) ∧
    (∀ (s : State) (i : Nat) (x : Seq) (l : Nat) (h : Nat) (p : Nat) (e : Pte) (rest : Assoc (Nat × Nat × Nat) Pte),
      s.seq? i = some x →
      x.unmapping = ((l, h, p), e) :: rest →
      s.pinned (e.frame i l h p) = false →
      s.mayBegin (.unmap i (l, h, p)) = true →
      s.serves .xlt = true →
      s.noPlacements →
      ∃ t, exec (.unmap i l h p) s = .next t ∧ (t.seq? i).map Seq.unmapping = some rest ∧ (t.seq? i).map Seq.ptes = some x.ptes)

/-- OBJ_CREATE makes a live, unsealed object under a new handle; OBJ_WRITE into T0 gives each page an extent, stores the
input in it and answers the pages written; OBJ_SEAL makes the object immutable; OBJ_RELEASE, with nothing in flight,
ends it. -/
def Obligations.ObjectCommandsComplete : Prop :=
    (∀ (s : State) (q : CmdRef) (c : InFlight) (n : Nat),
      s.offersXlt q 0x28 c →
      s.xlt.placed = true →
      u8 c.ops 0 ≤ 6 →
      u8 c.ops 1 ≤ 1 →
      u32 c.ops 4 ≠ 0 →
      s.mayTake 65536 Domain.objRsv (s.usedObjs.map Prod.snd) (s.ringDomain q) = true →
      chooseFree (s.usedObjs.map Prod.fst) 0 65536 (Config.objNumber s.fresh) = some n →
      ∃ t, exec (.objCreate q) s = .next t ∧ t.xlt.objs.get? n = some {
          tag := match s.xlt.objs.get? n with | some y => y.tag % 255 + 1 | none => 1
          domain := s.ringDomain q, fc := u8 c.ops 0, pages := u32 c.ops 4, sedge := decide (u8 c.ops 1 = 1) } ∧
        s.answersWith t q c (handleOf (match s.xlt.objs.get? n with | some y => y.tag % 255 + 1 | none => 1) n) 0 = true) ∧
    (∀ (s : State) (q : CmdRef) (c : InFlight) (inp : List Byte) (n : Nat) (x : Obj),
      s.offersXlt q 0x29 c →
      inp.length = c.inLen →
      s.findObj (s.ringDomain q) (u32 c.ops 0) = .ok (n, x) →
      x.releasing = false →
      u8 c.ops 12 ≤ 3 →
      (u8 c.ops 12 = 3 → s.glb.variant.hasFlash = true ∧ s.islandOn peatIsland = true) →
      inp.length = u32 c.ops 8 * (4096 * 2 ^ x.fc) →
      u32 c.ops 4 + u32 c.ops 8 ≤ x.pages →
      x.isSealed = false →
      (((List.range (u32 c.ops 8)).map (u32 c.ops 4 + ·)).any fun p => x.map.has p) = false →
      (s.mapPages n x (u8 c.ops 12) ((List.range (u32 c.ops 8)).map (u32 c.ops 4 + ·))).isSome = true →
      s.slc.objWrites = [] →
      s.slc.nextMove ∉ s.sdg.queue.map SdgBlock.owner →
      s.slc.nextMove ∉ s.pea.waiting.map Prod.fst →
      s.slc.nextMove ∉ s.pea.writes.map PWrite.move →
      s.runsAtOnce (s.objectItem (.ring q) (s.ringDomain q) (u32 c.ops 8) (4096 * 2 ^ x.fc) (u8 c.ops 12)) →
      ∃ t, exec (.objWrite q (.bytes inp)) s = .next t ∧ (u8 c.ops 12 = 0 → s.answersWith t q c (u32 c.ops 8) 0 = true) ∧ ((t.xlt.objs.get? n).any fun y => ((List.range (u32 c.ops 8)).map (u32 c.ops 4 + ·)).all fun p => y.map.has p) = true ∧
        (u8 c.ops 12 = 0 → u32 c.ops 8 = 1 → ((t.xlt.objs.get? n).any fun y => (y.map.get? (u32 c.ops 4)).any fun e =>
          e.home.tier == 0 && t.memRead 0 (e.home.addr * 512) (4096 * 2 ^ x.fc) == inp) = true)) ∧
    (∀ (s : State) (q : CmdRef) (c : InFlight) (n : Nat) (x : Obj),
      s.offersXlt q 0x2A c →
      s.findObj (s.ringDomain q) (u32 c.ops 0) = .ok (n, x) →
      x.releasing = false →
      ∃ t, exec (.objSeal q) s = .next t ∧ t.xlt.objs.get? n = some { x with isSealed := true } ∧ s.posts t q c .ok = true) ∧
    (∀ (s : State) (q : CmdRef) (c : InFlight) (n : Nat) (x : Obj),
      s.offersXlt q 0x2B c →
      s.findObj (s.ringDomain q) (u32 c.ops 0) = .ok (n, x) →
      (s.slc.pageReads.any fun r => r.obj && r.target == n) = false →
      (s.slc.objWrites.any fun w => w.obj == n) = false →
      s.noPlacements →
      ∃ t, exec (.objRelease q) s = .next t ∧ t.xlt.objs.get? n = some { x with live := false, map := [], releasing := false } ∧ s.posts t q c .ok = true)

/-- A placement over a frame that rests in the named tier is satisfied at once; over a frame elsewhere, with space in the
tier, it starts a move and waits; SLC_WAIT on no pending ticket completes and on a pending one waits; SEQ_PREEMPT
starts a pre-emption, and completes at once on a pre-empted sequence; when the sequence's work has ended its frames
move to T2, or, with none, the sequence is PREEMPTED; SEQ_RESTORE of a sequence without frames in T2 leaves it IDLE. -/
def Obligations.PlacementCommandsComplete : Prop :=
    (∀ (s : State) (q : CmdRef) (c : InFlight) (f : FrameId) (v : FrameInfo),
      s.offersXlt q 0x20 c →
      s.noPlacements →
      s.slc.spaceCmds = [] →
      (decide (2 < (placeOps c.ops).scope) || decide (3 < (placeOps c.ops).tier) || decide (3 < (placeOps c.ops).flags) || !zeros c.ops 14 2 || !zeros c.ops 24 8 ||
        decide (s.placeLast (s.ringDomain q) (placeOps c.ops) < (placeOps c.ops).lo) || decide ((placeOps c.ops).pageHi < (placeOps c.ops).pageLo)) = false →
      (placeOps c.ops).tier ≠ 3 ∨ s.glb.variant.hasFlash = true →
      s.placeFrames (s.ringDomain q) { placeOps c.ops with hi := s.placeLast (s.ringDomain q) (placeOps c.ops) } = .ok [f] →
      s.frame? f = some v →
      v.home.tier = (placeOps c.ops).tier →
      s.moveOf f = none →
      ∃ t, exec (.slcPlace q) s = .next t ∧ s.answersWith t q c 1 0 = true ∧ t.frame? f = some v ∧ t.slc.moves = s.slc.moves) ∧
    (∀ (s : State) (q : CmdRef) (c : InFlight) (f : FrameId) (v : FrameInfo),
      s.offersXlt q 0x20 c →
      s.noPlacements →
      s.slc.spaceCmds = [] →
      (decide (2 < (placeOps c.ops).scope) || decide (3 < (placeOps c.ops).tier) || decide (3 < (placeOps c.ops).flags) || !zeros c.ops 14 2 || !zeros c.ops 24 8 ||
        decide (s.placeLast (s.ringDomain q) (placeOps c.ops) < (placeOps c.ops).lo) || decide ((placeOps c.ops).pageHi < (placeOps c.ops).pageLo)) = false →
      ((placeOps c.ops).tier = 3 → s.glb.variant.hasFlash = true) →
      s.placeFrames (s.ringDomain q) { placeOps c.ops with hi := s.placeLast (s.ringDomain q) (placeOps c.ops) } = .ok [f] →
      s.frame? f = some v →
      v.home.tier ≠ (placeOps c.ops).tier →
      s.moveOf f = none →
      (s.alloc v.domain (placeOps c.ops).tier v.bytes v.isMeta).isSome = true →
      ((placeOps c.ops).tier = 3 ∨ v.home.tier = 3 → s.islandOn peatIsland = true) →
      (v.home.tier < (placeOps c.ops).tier → (placeOps c.ops).scope = 0 → v.shared = false) →
      ∃ t, exec (.slcPlace q) s = .next t ∧ t.slc.moves.length = s.slc.moves.length + 1 ∧ ((t.slc.moves.getLast?).any fun m => m.frame == f && m.tier == (placeOps c.ops).tier && m.promo == decide ((placeOps c.ops).tier < v.home.tier) && m.st == .queued && m.src == v.home && m.dst.tier == (placeOps c.ops).tier) = true ∧
        (t.frame? f).map FrameInfo.moving = some true) ∧
    (∀ (s : State) (q : CmdRef) (c : InFlight),
      s.offers q 0x21 c →
      u32 c.ops 0 = 0 ∨ (s.slc.moves.any fun m => decide (m.domain = s.ringDomain q) && (m.ticket == u32 c.ops 0 || m.chain.any fun y => y.ticket == u32 c.ops 0)) = false ∧ (s.slc.chainWait.any fun y => y.2.1 == s.ringDomain q && y.2.2.ticket == u32 c.ops 0) = false →
      ∃ t, exec (.slcWait q) s = .next t ∧ s.posts t q c .ok = true ∧ t.slc = s.slc) ∧
    (∀ (s : State) (q : CmdRef) (c : InFlight),
      s.offers q 0x21 c →
      u32 c.ops 0 ≠ 0 →
      (s.slc.moves.any fun m => decide (m.domain = s.ringDomain q) && (m.ticket == u32 c.ops 0 || m.chain.any fun y => y.ticket == u32 c.ops 0)) = true ∨ (s.slc.chainWait.any fun y => y.2.1 == s.ringDomain q && y.2.2.ticket == u32 c.ops 0) = true →
      ∃ t, exec (.slcWait q) s = .next t ∧ t.slc.waiters = s.slc.waiters ++ [(.ring q, s.ringDomain q, u32 c.ops 0)]) ∧
    (∀ (s : State) (q : CmdRef) (c : InFlight) (i : Nat) (x : Seq),
      s.offersXlt q 0x0D c →
      s.noPlacements →
      s.findSeq (s.ringDomain q) (u32 c.ops 0) = .ok (i, x) →
      x.st = .idle ∨ x.st = .active →
      (s.reserveT2 x.domain ((s.eligible i x).filterMap fun f => (s.frame? f).map FrameInfo.bytes)).isSome = true →
      ∃ t, exec (.seqPreempt q) s = .next t ∧ t.preempting i = true ∧ (t.seq? i).map Seq.st = some x.st) ∧
    (∀ (s : State) (q : CmdRef) (c : InFlight) (i : Nat) (x : Seq),
      s.offersXlt q 0x0D c →
      s.noPlacements →
      s.findSeq (s.ringDomain q) (u32 c.ops 0) = .ok (i, x) →
      x.st = .preempted →
      ∃ t, exec (.seqPreempt q) s = .next t ∧ s.posts t q c .ok = true ∧ t.xlt = s.xlt) ∧
    (∀ (s : State) (i : Nat) (x : Seq) (p : Placement) (b : Bool),
      s.slc.places = [p] →
      s.slc.queue = [] →
      s.slc.spaceWait = [] →
      s.slc.chainWait = [] →
      s.mayBegin (.preempt i) = true →
      p.started = false →
      p.kind = .preempt i b →
      p.reqs = [] →
      s.seq? i = some x →
      s.executing i = false →
      s.serves .xlt = true →
      s.eligible i x = [] →
      ∃ t, exec (.preemptDemote i) s = .next t ∧ t.preempting i = false ∧ (t.seq? i).map Seq.st = some (if x.st = .idle ∨ x.st = .active then .preempted else x.st)) ∧
    (∀ (s : State) (i : Nat) (x : Seq) (p : Placement) (b : Bool) (f : FrameId) (v : FrameInfo) (h : Home),
      s.slc.places = [p] →
      s.slc.queue = [] →
      s.slc.spaceWait = [] →
      s.slc.chainWait = [] →
      s.mayBegin (.preempt i) = true →
      p.started = false →
      p.kind = .preempt i b →
      p.reqs = [] →
      s.seq? i = some x →
      s.executing i = false →
      s.serves .xlt = true →
      s.eligible i x = [f] →
      s.frame? f = some v →
      v.home.tier ≤ 1 →
      s.moveOf f = none →
      p.reserve = [(h, v.bytes)] →
      (s.slc.moves.any fun m => m.reqs.contains s.slc.nextReq) = false →
      ∃ t, exec (.preemptDemote i) s = .next t ∧ ((t.slc.moves.getLast?).any fun m => m.frame == f && m.tier == 2 && m.dst == h && m.src == v.home && m.st == .queued) = true ∧ (t.frame? f).map FrameInfo.moving = some true ∧ t.preempting i = true) ∧
    (∀ (s : State) (q : CmdRef) (c : InFlight) (i : Nat) (x : Seq),
      s.offersXlt q 0x0E c →
      s.noPlacements →
      u8 c.ops 4 ≤ 1 →
      s.findSeq (s.ringDomain q) (u32 c.ops 0) = .ok (i, x) →
      x.st = .preempted →
      x.ptes = [] →
      ∃ t, exec (.seqRestore q) s = .next t ∧ (t.seq? i).map Seq.st = some .idle ∧ s.posts t q c .ok = true) ∧
    (∀ (s : State) (q : CmdRef) (c : InFlight) (i : Nat) (x : Seq) (k : Nat × Nat × Nat) (e : Pte) (v : FrameInfo),
      s.offersXlt q 0x0E c →
      s.noPlacements →
      u8 c.ops 4 = 0 →
      s.findSeq (s.ringDomain q) (u32 c.ops 0) = .ok (i, x) →
      x.st = .preempted →
      x.ptes = [(k, e)] →
      e.share = none →
      e.home.tier = 2 →
      s.frame? (.page i k.1 k.2.1 k.2.2) = some v →
      s.moveOf (.page i k.1 k.2.1 k.2.2) = none →
      (s.allocT0 v.domain v.bytes).isSome = true →
      ∃ t, exec (.seqRestore q) s = .next t ∧ ((t.slc.moves.getLast?).any fun m => m.frame == .page i k.1 k.2.1 k.2.2 && m.tier == 0 && m.promo && m.src == e.home) = true ∧ (t.seq? i).map Seq.st = some .preempted)

/-- A free channel takes the next queued move with its staging lines; its data stand in staging; its writes are
acknowledged, which leaves the bytes of a data frame at a destination in T0, or, on a CRC mismatch, repeats the move
once; its commit gives the frame the new home and the next generation and releases the old extent; a tier that does
not answer aborts it. The compressor takes the block at the head of the queue and leaves it packed at its place where
R218 says so, and raw where not or where its line had an uncorrectable error. -/
def Obligations.MoveAndSedgeCommandsComplete : Prop :=
    (∀ (s : State) (n : Nat) (m : Move),
      s.nextMove = some m →
      m.seqNo = n →
      (s.slc.moves.filter fun y => decide (y.st ≠ .queued)).length < s.channels →
      ceilDiv m.bytes 4096 ≤ s.linesFree →
      ∃ t, exec (.moveRead n) s = .next t ∧ ((t.slc.moves.find? fun y => y.seqNo == n).map fun y => (y.st, y.lines.length, y.since)) = some (.read, ceilDiv m.bytes 4096, s.now) ∧ (m.src.tier = 3 → (t.pea.reads.getLast?).map PRead.move = some n)) ∧
    (∀ (s : State) (n : Nat) (m : Move) (b : MediaRead),
      s.moveIn n .read = some m →
      s.answers m.src = true →
      s.movesWait m.domain = false →
      (s.pea.reads.any fun y => y.move == n) = false →
      ∃ t, exec (.moveWrite n b) s = .next t ∧ ((t.slc.moves.find? fun y => y.seqNo == n).map fun y => (y.st, y.since)) = some (.write, s.now) ∧
        (b = {} → (∀ i < ceilDiv m.bytes 4096, s.wireAt (placeAt m.src i) = none) →
          ((t.slc.moves.find? fun y => y.seqNo == n).map Move.staged) = some ((s.storedAt m.frame m.src m.bytes m.staged).take m.bytes)) ∧
        (m.dst.tier = 3 → (t.pea.waiting.getLast?).map (fun w => (w.1, w.2.1)) = some (n, m.dst))) ∧
    (∀ (s : State) (n : Nat) (m : Move),
      s.moveIn n .write = some m →
      s.moveAcked m = true →
      s.movesWait m.domain = false →
      m.promo = true ∨ s.pinned m.frame = false ∧ s.mayBegin (.commit n) = true →
      ∃ t, exec (.moveCommitStart n false) s = .next t ∧ ((t.slc.moves.find? fun y => y.seqNo == n).map fun y => (y.st, y.staged)) = some (.commit, []) ∧
        (m.dst.tier = 0 → s.xlt.metas.has m.frame = false →
          t.memRead 0 (m.dst.addr * 512) (m.staged.take m.bytes).length = m.staged.take m.bytes)) ∧
    (∀ (s : State) (n : Nat) (m : Move),
      s.moveIn n .write = some m →
      s.moveAcked m = true →
      s.movesWait m.domain = false →
      m.promo = true ∨ s.pinned m.frame = false ∧ s.mayBegin (.commit n) = true →
      ∃ t, exec (.moveCommitStart n true) s = .next t ∧ (m.retried = false → ((t.slc.moves.find? fun y => y.seqNo == n).map fun y => (y.st, y.staged, y.retried)) = some (.read, [], true) ∧
          (m.src.tier = 3 → (t.pea.reads.getLast?).map PRead.move = some n)) ∧
        (m.retried = true → s.noPlacements → (t.slc.moves.any fun y => y.seqNo == n) = false ∧
          (m.freed = false → t.frame? m.frame = (s.frame? m.frame).map fun v => { v with moving := false }))) ∧
    (∀ (s : State) (n : Nat) (m : Move) (v : FrameInfo),
      s.moveIn n .commit = some m →
      s.serves .xlt = true →
      s.frame? m.frame = some v →
      m.freed = false →
      m.chain = none →
      s.noPlacements →
      s.slc.spaceCmds = [] →
      ∃ t, exec (.moveCommit n) s = .next t ∧ t.frame? m.frame = some { v with gen := if v.gen + 1 = 2 ^ 24 then 0 else v.gen + 1, home := m.dst, moving := false } ∧ (t.slc.moves.any fun y => y.seqNo == n) = false ∧ (m.src ∉ s.flt.strandedHomes → (t.slc.extents.any fun e => e.1 == m.src) = false)) ∧
    (∀ (s : State) (n : Nat) (m : Move),
      (s.slc.moves.find? fun y => y.seqNo == n) = some m →
      m.st = .read ∧ (m.src.tier = 1 ∨ m.src.tier = 2) ∨ m.st = .write ∧ (m.dst.tier = 1 ∨ m.dst.tier = 2) ∧ (s.answers m.dst = false ∨ m.promo = true ∨ s.pinned m.frame = false) →
      m.since + 1000000 ≤ s.now →
      s.noPlacements →
      s.slc.spaceCmds = [] →
      ∃ t, exec (.tierTimeout n) s = .next t ∧ (t.slc.moves.any fun y => y.seqNo == n) = false ∧ bit (t.reg (Err.slcTierTimeout.1 + 0x10)) Err.slcTierTimeout.2 = true ∧
        (m.freed = false → t.frame? m.frame = (s.frame? m.frame).map fun v => { v with moving := false })) ∧
    (∀ (s : State) (b : SdgBlock) (rest : List SdgBlock),
      s.sdg.queue = b :: rest →
      s.islandOn sedgeIsland = true ∨ s.island sedgeIsland = .draining →
      s.slc.objWrites = [] →
      ∃ t, exec (.sedgeCompress false) s = .next t ∧ t.sdg.queue = rest.filter (fun y => !(y.line == b.line)) ∧
        t.wireAt (placeAt b.dst b.index) = (if 80 + 8 * nonzeroWords b.data ≤ 3840 then some (packBlock b.data).length else none) ∧
        (b.dst.tier ≠ 3 →
          (80 + 8 * nonzeroWords b.data ≤ 3840 → t.memRead b.dst.tier (placeAt b.dst b.index).2 (packBlock b.data).length = packBlock b.data) ∧
          (3840 < 80 + 8 * nonzeroWords b.data → t.memRead b.dst.tier (placeAt b.dst b.index).2 b.data.length = b.data))) ∧
    (∀ (s : State) (b : SdgBlock) (rest : List SdgBlock),
      s.sdg.queue = b :: rest →
      s.islandOn sedgeIsland = true ∨ s.island sedgeIsland = .draining →
      s.slc.objWrites = [] →
      ∃ t, exec (.sedgeCompress true) s = .next t ∧ t.sdg.queue = rest.filter (fun y => !(y.line == b.line)) ∧ t.wireAt (placeAt b.dst b.index) = none ∧
        bit (t.reg (Err.sdgUe.1 + 0x10)) Err.sdgUe.2 = true ∧
        (b.dst.tier ≠ 3 → t.memRead b.dst.tier (placeAt b.dst b.index).2 b.data.length = b.data))

/-- An append record that passes its checks and falls into an open page is written: the expected and the accepted position
of its layer advance by its count, and its request completes; behind a held record of its layer it is held. The first
held record is written once nothing holds it. A PAGE_READ of one page that rests in T0, of an object or of a sequence,
is answered with the page; a stalled delivery goes on once its page is in T0. A record that does not fit the spendable
credits waits for its dispatch, held and not charged. A record that meets an uncorrectable error in the append
datapath ends with E_POISONED and sets XLT_ERR.APP_UE, and one whose hold reaches the limit with E_TIMEOUT; in both
cases the expected position returns to it. -/
def Obligations.AppendAndDeliveryCommandsComplete : Prop :=
    (∀ (s : State) (q : CmdRef) (c : InFlight) (inp : List Byte) (i : Nat) (x : Seq),
      s.offersXlt q 0x18 c →
      inp.length = c.inLen →
      s.noPlacements →
      s.takesRecord (s.ringDomain q) inp i x →
      (x.held.any fun h => h.rc.layer == u16 inp 4) = false →
      s.opensFor i x (appendRec (s.modelOf x) inp) false →
      s.runsAtOnce (s.recordItem i x (.ring q) (appendRec (s.modelOf x) inp)) →
      ∃ t, exec (.cmdKvAppend q ⟨.bytes inp, false⟩) s = .next t ∧ ((t.seq? i).map fun y => (y.nextPos (u16 inp 4), y.accPos (u16 inp 4))) = some (u32 inp 8 + u8 inp 6, u32 inp 8 + u8 inp 6) ∧ s.posts t q c .ok = true) ∧
    (∀ (s : State) (q : CmdRef) (c : InFlight) (inp : List Byte) (i : Nat) (x : Seq) (ue : Bool),
      s.offersXlt q 0x18 c →
      inp.length = c.inLen →
      s.noPlacements →
      s.takesRecord (s.ringDomain q) inp i x →
      (x.held.any fun h => h.rc.layer == u16 inp 4) = true →
      ∃ t, exec (.cmdKvAppend q ⟨.bytes inp, ue⟩) s = .next t ∧ ((t.seq? i).map fun y => (y.nextPos (u16 inp 4), y.held.length)) = some (u32 inp 8 + u8 inp 6, x.held.length + 1) ∧
        (((t.seq? i).bind fun y => y.held.getLast?).any fun h => h.req == .ring q && h.rc == appendRec (s.modelOf x) inp && h.cause == .behind) = true) ∧
    (∀ (s : State) (m : RxMsg) (i : Nat) (n : Nat) (x : Seq),
      s.passes m 0x10 i →
      (s.received m).serves .xlt = true →
      (s.received m).linksCalm →
      (s.received m).noPlacements →
      (s.received m).takesRecord ((s.received m).domainOf (m.requester i)) m.body n x →
      (x.held.any fun h => h.rc.layer == u16 m.body 4) = false →
      (s.received m).opensFor n x (appendRec ((s.received m).modelOf x) m.body) false →
      (s.received m).runsAtOnce ((s.received m).recordItem n x (m.requester i) (appendRec ((s.received m).modelOf x) m.body)) →
      ∃ t, exec (.kvAppend ⟨m, false⟩) s = .next t ∧ ((t.seq? n).map fun y => (y.nextPos (u16 m.body 4), y.accPos (u16 m.body 4))) = some (u32 m.body 8 + u8 m.body 6, u32 m.body 8 + u8 m.body 6)) ∧
    (∀ (s : State) (q : CmdRef) (c : InFlight) (inp : List Byte) (i : Nat) (x : Seq),
      s.offersXlt q 0x18 c →
      inp.length = c.inLen →
      s.noPlacements →
      s.takesRecord (s.ringDomain q) inp i x →
      (x.held.any fun h => h.rc.layer == u16 inp 4) = false →
      s.opensFor i x (appendRec (s.modelOf x) inp) false →
      s.runsAtOnce (s.recordItem i x (.ring q) (appendRec (s.modelOf x) inp)) →
      ∃ t, exec (.cmdKvAppend q ⟨.bytes inp, true⟩) s = .next t ∧ ((t.seq? i).map fun y => (y.nextPos (u16 inp 4), y.accPos (u16 inp 4))) = some (u32 inp 8, x.accPos (u16 inp 4)) ∧ s.posts t q c .poisoned = true ∧ bit (t.reg (Err.xltAppUe.1 + 0x10 + xltOff i)) Err.xltAppUe.2 = true) ∧
    (∀ (s : State) (i : Nat) (x : Seq) (n : Nat) (h : HeldRec),
      s.serves .xlt = true →
      s.noPlacements →
      s.mayBegin (.rescale i n) = true →
      s.releaseTurn (.held i n) = true →
      s.seq? i = some x →
      x.held.filter (fun y => y.rc.layer == n) = [h] →
      s.tailForeign x n (h.rc.pos / 16) = false →
      s.opensFor i x h.rc h.before →
      s.waits (.record i n h.rc.pos) = false →
      ∃ t, exec (.heldRecordWrite i ⟨n, true⟩) s = .next t ∧ ((t.seq? i).map fun y => (y.nextPos n, y.accPos n, y.held.any fun y => y.rc.layer == n)) = some (h.rc.pos, x.accPos n, false) ∧ bit (t.reg (Err.xltAppUe.1 + 0x10 + xltOff i)) Err.xltAppUe.2 = true) ∧
    (∀ (s : State) (n : Nat) (y : Stall) (i : Nat) (x : Seq) (l : Nat) (h : HeldRec),
      s.slc.stalls[n]? = some y →
      y.who = .held i l →
      s.releaseTurn y.who = true →
      s.serves .xlt = true →
      s.noPlacements →
      s.seq? i = some x →
      x.held.filter (fun y => y.rc.layer == l) = [h] →
      s.tailForeign x l (h.rc.pos / 16) = false →
      s.opensFor i x h.rc h.before →
      s.waits (.record i l h.rc.pos) = false →
      ∃ t, exec (.stallEnd n) s = .next t ∧ ((t.seq? i).map fun y => (y.accPos l, y.held.any fun y => y.rc.layer == l)) = some (h.rc.pos + h.rc.count, false) ∧ (t.slc.stalls.any fun z => z.who == .held i l) = false) ∧
    (∀ (s : State) (i : Nat) (x : Seq) (n : Nat) (h : HeldRec),
      s.serves .xlt = true →
      s.noPlacements →
      s.mayBegin (.rescale i n) = true →
      s.releaseTurn (.held i n) = true →
      s.seq? i = some x →
      x.held.filter (fun y => y.rc.layer == n) = [h] →
      s.tailForeign x n (h.rc.pos / 16) = false →
      s.opensFor i x h.rc h.before →
      s.waits (.record i n h.rc.pos) = false →
      ∃ t, exec (.heldRecordWrite i ⟨n, false⟩) s = .next t ∧ ((t.seq? i).map fun y => (y.accPos n, y.held.any fun y => y.rc.layer == n)) = some (h.rc.pos + h.rc.count, false) ∧ ∀ q c, h.req = .ring q → s.waitsFor q c → s.posts t q c .ok = true) ∧
    (∀ (s : State) (m : RxMsg) (b : MediaRead) (i : Nat) (u : State) (n : Nat) (x : Obj) (e : Pte),
      s.takes m 0x18 = true →
      (s.receive m (some (State.readCost m.body))).2 = .pass i →
      u = (s.receive m (some (State.readCost m.body))).1 →
      u.serves .xlt = true →
      pageReadShape m.body = true →
      u8 m.body 4 = 1 →
      u.findObj (u.domainOf (m.requester i)) (u32 m.body 0) = .ok (n, x) →
      x.releasing = false →
      x.isSealed = true →
      x.map.get? (u32 m.body 8) = some e →
      e.poison = false →
      e.domain = u.domainOf (m.requester i) →
      u.xlt.metas.has (.obj n (u32 m.body 8)) = false →
      (u.firstOut (tablePath (.obj n) (u32 m.body 8))).isNone = true →
      ((tablePath (.obj n) (u32 m.body 8)).any u.metaPoison) = false →
      e.home.tier = 0 →
      (∀ k < 2 ^ x.fc, u.wireAt (placeAt e.home k) = none) →
      (b.bad.any fun y => y.1 == 0) = false →
      (b.altered.any fun y => y.1.1 == 0) = false →
      u16 m.body 12 = 1 →
      (u.slc.pageReads.any fun r => r.id == u.slc.nextRead) = false →
      (u.cwy.sessions.get? i).map Session.peerLast = some none →
      u.linksCalm →
      u.noPlacements →
      u.runsAtOnce (u.readItem (u.domainOf (m.requester i)) (State.readCost m.body u (u.domainOf (m.requester i))) u.slc.nextRead) →
      ∃ t, exec (.pageRead ⟨m, b⟩) s = .next t ∧ t.tells i 0x19 (pageData (u32 m.body 16) .ok 0 0 (u32 m.body 8) (u.frameBytes e.home 0 (4096 * 2 ^ x.fc))) = true) ∧
    (∀ (s : State) (m : RxMsg) (b : MediaRead) (i : Nat) (u : State) (n : Nat) (x : Seq) (e : Pte),
      s.takes m 0x18 = true →
      (s.receive m (some (State.readCost m.body))).2 = .pass i →
      u = (s.receive m (some (State.readCost m.body))).1 →
      u.serves .xlt = true →
      pageReadShape m.body = true →
      u8 m.body 4 = 0 →
      u.findSeq (u.domainOf (m.requester i)) (u32 m.body 0) = .ok (n, x) →
      x.st = .idle ∨ x.st = .active →
      u.deliverable { id := u.slc.nextRead, req := m.requester i, domain := x.domain, obj := false, target := n, layer := u16 m.body 6, hg := u8 m.body 5, page := u32 m.body 8, count := 1, tag := u32 m.body 16 } x e →
      u16 m.body 12 = 1 →
      (u.slc.pageReads.any fun r => r.id == u.slc.nextRead) = false →
      (u.cwy.sessions.get? i).map Session.peerLast = some none →
      u.linksCalm →
      u.noPlacements →
      u.runsAtOnce (u.readItem (u.domainOf (m.requester i)) (State.readCost m.body u (u.domainOf (m.requester i))) u.slc.nextRead) →
      ∃ t, exec (.pageRead ⟨m, b⟩) s = .next t ∧ ((b.bad.any fun y => y.1 == 0) = false → ((u.frame? (e.frame n (u16 m.body 6) (u8 m.body 5) (u32 m.body 8))).all fun v =>
          t.tells i 0x19 (pageData (u32 m.body 16) .ok e.fill 0 (u32 m.body 8) (u.deliverBytes (u.modelOf x) v.home))) = true) ∧
        ((b.bad.any fun y => y.1 == 0) = true → t.tells i 0x19 (pageData (u32 m.body 16) .poisoned 0 0 (u32 m.body 8) []) = true)) ∧
    (∀ (s : State) (n : Nat) (y : Stall) (r : PageRead) (x : Seq) (e : Pte),
      s.serves .xlt = true →
      s.noPlacements →
      s.slc.stalls[n]? = some y →
      y.who = .read r.id →
      s.releaseTurn y.who = true →
      s.pageRead? r.id = some r →
      r.obj = false →
      r.next + 1 = r.count →
      s.deliverable r x e →
      s.waits (.read r.id) = false →
      ∃ t, exec (.stallEnd n) s = .next t ∧ t.pageRead? r.id = none ∧ (t.slc.stalls.any fun z => z.who == .read r.id) = false) ∧
    (∀ (s : State) (q : CmdRef) (c : InFlight) (inp : List Byte) (i : Nat) (x : Seq),
      s.offersXlt q 0x18 c →
      inp.length = c.inLen →
      s.noPlacements →
      s.takesRecord (s.ringDomain q) inp i x →
      (x.held.any fun h => h.rc.layer == u16 inp 4) = false →
      s.waitsFirst (s.recordItem i x (.ring q) (appendRec (s.modelOf x) inp)) →
      ∃ t, exec (.cmdKvAppend q ⟨.bytes inp, false⟩) s = .next t ∧ ((t.seq? i).map fun y => (y.nextPos (u16 inp 4), y.accPos (u16 inp 4))) = some (u32 inp 8 + u8 inp 6, x.accPos (u16 inp 4)) ∧ t.waits (.record i (u16 inp 4) (u32 inp 8)) = true ∧
        (((t.seq? i).bind fun y => y.held.getLast?).any fun h => h.req == .ring q && h.rc == appendRec (s.modelOf x) inp && h.cause == .credit) = true ∧ t.pwr.spent = s.pwr.spent) ∧
    (∀ (s : State) (n : Nat) (y : Stall) (i : Nat) (x : Seq) (l : Nat) (h : HeldRec),
      s.noPlacements →
      s.slc.stalls[n]? = some y →
      y.who = .held i l →
      y.since + s.stallLimit ≤ s.now →
      s.seq? i = some x →
      x.held.filter (fun z => z.rc.layer == l) = [h] →
      ∃ t, exec (.stallTimeout n) s = .next t ∧ ((t.seq? i).map fun z => (z.nextPos l, z.held.any fun z => z.rc.layer == l)) = some (h.rc.pos, false) ∧ (t.slc.stalls.any fun z => z.who == .held i l) = false ∧
        ∀ q c, h.req = .ring q → s.waitsFor q c → s.posts t q c .timeout = true) ∧
    (∀ (s : State) (n : Nat) (i : Nat) (x : Seq) (l : Nat) (h : HeldRec) (since : Nat),
      s.noPlacements →
      s.slc.stalls.length ≤ n →
      s.quietHolds[n - s.slc.stalls.length]? = some (i, l, since) →
      since + s.stallLimit ≤ s.now →
      s.seq? i = some x →
      x.held.filter (fun z => z.rc.layer == l) = [h] →
      ∃ t, exec (.stallTimeout n) s = .next t ∧ ((t.seq? i).map fun z => (z.nextPos l, z.held.any fun z => z.rc.layer == l)) = some (h.rc.pos, false))

/-- A query record that passes its checks becomes a step: pending, with an item for the scheduler, once its context has
been appended, held before; a hold ends in the queue, or, after an epoch length, in E_TIMEOUT. DISPATCH charges the
next item: a move is admitted, a step whose pages rest in T0 pins them and is cut into tasks, one with a page
elsewhere stalls. A free core takes a waiting task, a latency task suspends a throughput task, and the last task's end
gives the result; a failed check sends the task to another core. A step takes spill space; lockstep switches once no
task runs. -/
def Obligations.AttentionCommandsComplete : Prop :=
    (∀ (s : State) (q : CmdRef) (c : InFlight) (inp : List Byte) (i : Nat) (x : Seq),
      s.offersXlt q 0x19 c →
      inp.length = c.inLen →
      s.takesQuery (s.ringDomain q) (.ring q) inp i x →
      s.admitRefuses x.domain (s.stepCost (s.modelOf x) (x.keptOf { readQuery inp with q := readBf16 inp 28 ((s.modelOf x).qHeads * (s.modelOf x).headDim) }) 0) = false →
      ∃ t, exec (.attend q (.bytes inp)) s = .next t ∧ ((t.step? s.att.nextStep).map fun z => (z.req, z.seq, z.phase)) = some (.ring q, i, if (readQuery inp).ctx ≤ x.accPos (readQuery inp).layer then .pending else .held) ∧
        (t.pwr.items.any fun it => it.work == .step s.att.nextStep) = (s.pwr.items.any (fun it => it.work == .step s.att.nextStep) || decide ((readQuery inp).ctx ≤ x.accPos (readQuery inp).layer))) ∧
    (∀ (s : State) (m : RxMsg) (j : Nat) (u : State) (i : Nat) (x : Seq),
      s.takes m 0x11 = true →
      (s.receive m (some (State.queryCost m.body))).2 = .pass j →
      u = (s.receive m (some (State.queryCost m.body))).1 →
      u.serves .xlt = true →
      u.linksCalm →
      u.takesQuery (u.domainOf (m.requester j)) (m.requester j) m.body i x →
      ∃ t, exec (.qSubmit m) s = .next t ∧ ((t.step? u.att.nextStep).map fun z => (z.req, z.seq, z.phase)) = some (m.requester j, i, if (readQuery m.body).ctx ≤ x.accPos (readQuery m.body).layer then .pending else .held) ∧
        (t.pwr.items.any fun it => it.work == .step u.att.nextStep) = (u.pwr.items.any (fun it => it.work == .step u.att.nextStep) || decide ((readQuery m.body).ctx ≤ x.accPos (readQuery m.body).layer))) ∧
    (∀ (s : State) (n : Nat) (y : Step),
      s.heldStep n true = some y →
      s.ready? y = true →
      ∃ t, exec (.qHoldRelease n) s = .next t ∧ ((t.step? n).map Step.phase) = some .pending ∧ (t.pwr.items.any fun it => it.work == .step n && it.cost == y.cost && it.domain == y.domain) = true) ∧
    (∀ (s : State) (n : Nat) (y : Step),
      s.heldStep n true = some y →
      s.ready? y = false →
      y.arrived + s.epochNs ≤ s.now →
      (s.att.tasks.any fun k => k.step == n) = false →
      y.ring = none →
      ∃ t, exec (.qHoldTimeout n) s = .next t ∧ t.step? n = none ∧ ∀ q c, y.req = .ring q → s.waitsFor q c → s.posts t q c .timeout = true) ∧
    (∀ (s : State) (it : Item) (turn : Bool),
      s.pwr.live = true →
      s.pwr.standby ≠ .standby →
      s.pruned.nextItem = some (it, turn) →
      s.noPlacements →
      s.partsOf it ≤ it.done + 1 →
      ((∃ k, it.work = .move k ∧ (s.slc.moves.find? fun m => m.seqNo == k).isSome = true)) →
      ∃ t, exec (.dispatch) s = .next t ∧ t.pwr.spent = s.pwr.spent + ceilDiv it.cost (s.partsOf it) ∧ (t.pwr.items.any fun z => z.work == it.work) = false ∧ ∀ k, it.work = .move k → ((t.slc.moves.find? fun m => m.seqNo == k).map Move.admitted) = some true) ∧
    (∀ (s : State) (it : Item) (turn : Bool),
      s.pwr.live = true →
      s.pwr.standby ≠ .standby →
      s.pruned.nextItem = some (it, turn) →
      s.noPlacements →
      s.partsOf it ≤ it.done + 1 →
      (match it.work with | .key _ => true | .sign _ => true | .record _ _ _ => true | _ => false) = true →
      ∃ t, exec (.dispatch) s = .next t ∧ t.pwr.spent = s.pwr.spent + ceilDiv it.cost (s.partsOf it) ∧ t.waits it.work = false ∧ (∀ k, it.work = .key k → t.pwr.keyEpochs.getD k 0 = s.pwr.epoch) ∧ t.xlt = s.xlt ∧ t.mem = s.mem) ∧
    (∀ (s : State) (it : Item) (turn : Bool),
      s.pwr.live = true →
      s.pwr.standby ≠ .standby →
      s.pruned.nextItem = some (it, turn) →
      s.noPlacements →
      it.done + 1 < s.partsOf it →
      (s.pwr.items.find? fun z => z.work == it.work) = some it →
      ∃ t, exec (.dispatch) s = .next t ∧ t.pwr.spent = s.pwr.spent + ceilDiv it.cost (s.partsOf it) ∧ ((t.pwr.items.find? fun z => z.work == it.work).map fun z => (z.parts, z.done, z.lastEpoch)) = some (s.partsOf it, it.done + 1, some s.pwr.epoch)) ∧
    (∀ (s : State) (it : Item) (turn : Bool) (y : Step) (x : Seq),
      s.pwr.live = true →
      s.pwr.standby ≠ .standby →
      s.pruned.nextItem = some (it, turn) →
      s.noPlacements →
      s.partsOf it ≤ it.done + 1 →
      it.work = .step y.id →
      s.step? y.id = some y →
      s.resolvable y x →
      (x.keptOf y.q) ≠ [] →
      s.anyCluster = true →
      s.inService ≠ 0 →
      (s.cutOf x y.q).spillNeed y.q.latency (x.keptOf y.q) ≤ s.spillBytes →
      ∃ t, exec (.dispatch) s = .next t ∧ ((t.step? y.id).map fun z => (z.phase, z.slices, z.pins)) = some (.running, (s.cutOf x y.q).slices, (s.stepPages y).map fun p => p.2.2) ∧
        t.att.nextTask = s.att.nextTask + (t.att.tasks.length - s.att.tasks.length) ∧ ((t.att.tasks.drop s.att.tasks.length).all fun k => k.step == y.id && k.st == .waiting && k.latency == y.q.latency) = true) ∧
    (∀ (s : State) (it : Item) (turn : Bool) (y : Step) (x : Seq),
      s.pwr.live = true →
      s.pwr.standby ≠ .standby →
      s.pruned.nextItem = some (it, turn) →
      s.noPlacements →
      s.partsOf it ≤ it.done + 1 →
      it.work = .step y.id →
      s.step? y.id = some y →
      s.seq? y.seq = some x →
      ((s.stepPages y).any fun p => !s.inT0 p.2.2) = true →
      ((s.stepPages y).any fun p => s.pagePoison y.seq p.1.1 p.1.2.1 p.1.2.2 p.2.1) = false →
      ((s.stepPages y).any fun p => s.foreignPte y.domain p.2.1) = false →
      ∃ t, exec (.dispatch) s = .next t ∧ ((t.step? y.id).map Step.phase) = some .stalled ∧ (t.slc.stalls.any fun z => z.who == .step y.id) = true) ∧
    (∀ (s : State) (n : Nat) (k : Task),
      s.coreFree n = true →
      ((s.latencyTask n).orElse fun _ => s.throughputTask n) = some k →
      s.latencyTask n = none ∨ s.coreTurn n k = true →
      s.mayStart k →
      ∃ t, exec (.coreTakeTask n) s = .next t ∧ (t.task? k.id).map Task.st = some (.running n) ∧ ((s.team n).all fun c => (t.core c).task == some k.id && (t.core c).st == if k.latency then .latency else .throughput) = true) ∧
    (∀ (s : State) (n : Nat) (k : Task) (i : Nat),
      n ∈ s.workers →
      s.att.lsPending = false →
      (s.core n).st = .throughput →
      (s.core n).suspended = none →
      s.latencyTask n = some k →
      s.mayStart k →
      (s.core n).task = some i →
      i ≠ k.id →
      (s.task? i).isSome = true →
      ∃ t, exec (.taskPreempt n) s = .next t ∧ ((t.core n).st, (t.core n).task, (t.core n).suspended) = (.latency, some k.id, some i) ∧ (t.task? k.id).map Task.st = some (.running n) ∧ (t.task? i).map Task.st = some (.suspended n)) ∧
    (∀ (s : State) (n : Nat) (k : Task) (y : Step) (x : Seq),
      (s.core n).task = some k.id →
      s.task? k.id = some k →
      k.st = .running n →
      (s.core n).suspended = none →
      s.step? k.step = some y →
      y.fail = none →
      y.ring = none →
      s.att.tasks.filter (fun z => z.step == k.step) = [k] →
      s.seq? y.seq = some x →
      s.slicePoisoned y x k = false →
      (s.runTask y x k).isSome = true →
      ∃ t, exec (.taskEnd n .good) s = .next t ∧ ((s.team n).all fun c => (t.core c).st == .idle && (t.core c).task == none) = true ∧ t.step? k.step = none ∧
        ∀ q c, y.req = .ring q → s.waitsFor q c → s.posts t q c .ok = true ∧
          (s.gives t).contains (.hostWrite q.func (outAddr c.opcode c.ops) (resultRecord y.q .ok y.determ y.lockstep ((List.range (s.modelOf x).qHeads).map fun h =>
            mergeTree (s.modelOf x).headDim ((List.range y.slices.length).map fun j =>
              (((s.runTask y x k).getD []).foldl (fun m p => m.set (k.slice, p.1) p.2) y.parts).getD (j, h) (emptyPartial (s.modelOf x).headDim))))) = true) ∧
    (∀ (s : State) (n : Nat) (k : Task) (y : Step),
      (s.core n).task = some k.id →
      s.task? k.id = some k →
      k.st = .running n →
      (s.core n).suspended = none →
      s.step? k.step = some y →
      y.fail = none →
      k.rerun = false →
      (s.history (coreUnit n)).events = [] →
      ∃ t, exec (.taskEnd n .checkFailed) s = .next t ∧ ((t.task? k.id).map fun z => (z.st, z.rerun, z.avoid)) = some (.waiting, true, some n) ∧ bit (t.reg (Err.atcCheck.1 + atcOff n + 0x10)) Err.atcCheck.2 = true ∧ (t.core n).task = none) ∧
    (∀ (s : State) (n : Nat) (k : Task) (y : Step),
      (s.core n).task = some k.id →
      s.task? k.id = some k →
      k.st = .running n →
      (s.core n).suspended = none →
      s.step? k.step = some y →
      y.fail = none →
      k.rerun = false →
      ∃ t, exec (.taskEnd n .storeError) s = .next t ∧ ((t.task? k.id).map fun z => (z.st, z.rerun, z.avoid)) = some (.waiting, true, some n) ∧ bit (t.reg (Err.atcCsUe.1 + atcOff n + 0x10)) Err.atcCsUe.2 = true ∧ (t.core n).task = none) ∧
    (∀ (s : State) (n : Nat) (k : Task) (y : Step),
      (s.core n).task = some k.id →
      s.task? k.id = some k →
      k.st = .running n →
      (s.core n).suspended = none →
      s.step? k.step = some y →
      y.fail = none →
      k.rerun = false →
      k.spill ≠ 0 →
      ∃ t, exec (.taskEnd n .spillError) s = .next t ∧ ((t.task? k.id).map fun z => (z.st, z.rerun, z.avoid)) = some (.waiting, true, some n) ∧ bit (t.reg (Err.atcSpillUe.1 + atcOff n + 0x10)) Err.atcSpillUe.2 = true ∧ (t.core n).task = none) ∧
    (∀ (s : State) (y : Step),
      s.step? y.id = some y →
      y.phase = .spillWait →
      y.spillOwned = 0 →
      y.spillNeed ≠ 0 →
      (s.att.steps.any fun x => decide (x.phase = .spillWait) && x.id != y.id && decide (x.arrived ≤ y.arrived)) = false →
      s.att.spillUsed + y.spillNeed ≤ s.spillBytes →
      ∃ t, exec (.spillWaitRelease y.id) s = .next t ∧ ((t.step? y.id).map fun z => (z.phase, z.spillOwned)) = some (.running, y.spillNeed) ∧ t.att.spillUsed = s.att.spillUsed + y.spillNeed) ∧
    (∀ (s : State),
      s.att.lsPending = true →
      (s.att.tasks.any fun k => match k.st with | .running _ | .suspended _ => true | _ => false) = false →
      ∃ t, exec (.lsSwitched) s = .next t ∧ t.att.lsActive = bit (s.reg Reg.atcGcfg) 31 ∧ t.att.lsPending = false ∧ t.att.cores = s.att.cores)

/-- RING_JOIN opens a slot, READY for a ring of one and FORMING otherwise; RING_LEAVE of a slot without stripes moves it
to LEAVING, and with no step in flight it is freed; a STEP record becomes a step of the stripe it names; a CHAIN
record gives the stripe its running hash or is kept for it; a partial from the predecessor is received, and with the
own part done completes the step; a held member step whose context has come is queued; a step without a partial for
the ring timeout ends with E_TIMEOUT; a CHAIN record that waited for READY is sent again. -/
def Obligations.DeviceRingCommandsComplete : Prop :=
    (∀ (s : State) (q : CmdRef) (c : InFlight) (k : Nat),
      s.offers q 0x38 c →
      s.glb.variant.hasAttn = true →
      s.joinOk c.ops = true →
      s.ringSlot (s.ringDomain q) (u16 c.ops 0) = none →
      s.mayTake 16 Domain.ringRsv ((s.cwy.slots.filter fun e => decide (e.2.st ≠ .free)).map fun e => e.2.domain) (s.ringDomain q) = true →
      lowestFree s.usedSlots 0 16 = some k →
      s.auditTakes = true →
      s.linksCalm →
      ∃ t, exec (.ringJoin q) s = .next t ∧ ((t.slot k).st, (t.slot k).domain, (t.slot k).ringId, (t.slot k).n) = (if u8 c.ops 2 = 1 then .ready else .forming, s.ringDomain q, u16 c.ops 0, u8 c.ops 2) ∧ ((t.slot k).index, (t.slot k).predPorts, (t.slot k).succPorts) = (u8 c.ops 3, u32 c.ops 4, u32 c.ops 8) ∧ s.posts t q c .ok = true) ∧
    (∀ (s : State) (q : CmdRef) (c : InFlight) (k : Nat) (x : RingSlot),
      s.offers q 0x39 c →
      s.glb.variant.hasAttn = true →
      s.ringSlot (s.ringDomain q) (u16 c.ops 0) = some (k, x) →
      x.st ≠ .leaving →
      s.boundStripes k = 0 →
      s.auditTakes = true →
      ∃ t, exec (.ringLeave q) s = .next t ∧ (t.slot k).st = .leaving ∧ s.posts t q c .ok = true) ∧
    (∀ (s : State) (k : Nat) (x : RingSlot),
      s.cwy.slots = [(k, x)] →
      x.st = .leaving →
      (s.xlt.seqs.all fun e => e.2.stripe.isNone) = true →
      (s.att.steps.all fun t => t.ring.isNone) = true →
      s.portsCalm →
      ∃ t, exec (.ringSlotFree k) s = .next t ∧ t.cwy.slots = [] ∧ ∀ i y, x.pred = some i → s.cwy.sessions.get? i = some y → y.detachSent = false → y.peerLast = none → (t.cwy.sessions.get? i).map Session.st = some .detaching) ∧
    (∀ (s : State) (m : RxMsg) (j : Nat) (u : State) (k : Nat) (i : Nat) (x : Seq) (z : Stripe),
      s.takes m 0x28 = true →
      m.ringKind 1 = false →
      (s.receive m (some (State.ringCost m.body))).2 = .pass j →
      u = (s.receive m (some (State.ringCost m.body))).1 →
      u.slotOfSucc j = some k →
      u.serves .xlt = true →
      u.ringsQuiet →
      u.takesRingStep k m.body i x z →
      ∃ t, exec (.ringQueryStep m) s = .next t ∧ (((t.step? u.att.nextStep).bind fun y => y.ring).map fun r => (r.k, r.low, r.tail, r.ringStep)) = some (z.k, u8 m.body 18, u8 m.body 19, u32 m.body 24) ∧
        ((t.step? u.att.nextStep).map fun y => (y.req, y.seq, y.phase)) = some (m.requester j, i,
          if (x.held? (readRingQuery m.body).ctx).2 ≤ x.accPos (readRingQuery m.body).layer ∨ (x.keptOf (readRingQuery m.body)).isEmpty = true then .pending else .held) ∧
        (u8 m.body 18 < z.k → ∀ p y, (u.slot k).pred = some p → u.cwy.sessions.get? p = some y → t.tells p 0x28 m.body = true)) ∧
    (∀ (s : State) (m : RxMsg) (j : Nat) (u : State) (k : Nat) (i : Nat) (x : Seq),
      s.takes m 0x28 = true →
      m.ringKind 1 = true →
      (s.receive m none).2 = .pass j →
      u = s.received m →
      u.slotOfPred j = some k →
      u.serves .xlt = true →
      u.ringsQuiet →
      (u.cwy.sessions.get? j).map Session.peerLast = some none →
      m.body.length = 40 →
      (zeros m.body 12 6 && zeros m.body 28 4) = true →
      u.glb.variant.hasAttn = true →
      u.liveStripe k (u32 m.body 0) = some (i, x) →
      u.seq? i = some x →
      (x.stripe.map Stripe.k) = some (u32 m.body 8) →
      x.runKnown = false →
      x.unhashed = [] →
      ∃ t, exec (.ringQueryChain m) s = .next t ∧ (t.seq? i) = some { x with run := BitVec.ofNat 64 (u64 m.body 32), runKnown := true, unhashed := [] }) ∧
    (∀ (s : State) (m : RxMsg) (j : Nat) (u : State) (k : Nat),
      s.takes m 0x28 = true →
      m.ringKind 1 = true →
      (s.receive m none).2 = .pass j →
      u = s.received m →
      u.slotOfPred j = some k →
      u.serves .xlt = true →
      u.ringsQuiet →
      (u.cwy.sessions.get? j).map Session.peerLast = some none →
      m.body.length = 40 →
      (zeros m.body 12 6 && zeros m.body 28 4) = true →
      u.glb.variant.hasAttn = true →
      u.liveStripe k (u32 m.body 0) = none →
      (u.slot k).store.length < 64 →
      ∃ t, exec (.ringQueryChain m) s = .next t ∧ (t.slot k).store = (u.slot k).store ++ [{ rsid := u32 m.body 0, j := u32 m.body 8, hash := BitVec.ofNat 64 (u64 m.body 32), since := s.now }]) ∧
    (∀ (s : State) (m : RxMsg) (i : Nat) (u : State) (y : Step) (r : RingRole) (x : Seq),
      s.passes m 0x29 i →
      u = s.received m →
      u.ringsQuiet →
      16 ≤ m.body.length →
      u.chainAnswer i m.body m.head.retry = none →
      (u.att.steps.find? fun t => t.ring.any fun r => r.ringStep == u32 m.body 8 && r.rsid == u32 m.body 0 && r.forwarded.isSome && r.received.isNone && (u.slot r.slot).pred == some i && t.q.layer == u16 m.body 4) = some y →
      u.step? y.id = some y →
      y.ring = some r →
      u.seq? y.seq = some x →
      partialOk (u.modelOf x) m.body = true →
      u8 m.body 6 = 0 →
      r.low < r.k →
      r.own = none →
      ∃ t, exec (.ringPartial m) s = .next t ∧ (((t.step? y.id).bind fun z => z.ring).map RingRole.received) = some (some (.ok, readPartials (u.modelOf x) m.body))) ∧
    (∀ (s : State) (m : RxMsg) (i : Nat) (u : State) (y : Step) (r : RingRole) (x : Seq) (rows : List Partial),
      s.passes m 0x29 i →
      u = s.received m →
      u.ringsQuiet →
      16 ≤ m.body.length →
      u.chainAnswer i m.body m.head.retry = none →
      (u.att.steps.find? fun t => t.ring.any fun r => r.ringStep == u32 m.body 8 && r.rsid == u32 m.body 0 && r.forwarded.isSome && r.received.isNone && (u.slot r.slot).pred == some i && t.q.layer == u16 m.body 4) = some y →
      u.step? y.id = some y →
      y.ring = some r →
      u.seq? y.seq = some x →
      partialOk (u.modelOf x) m.body = true →
      u8 m.body 6 = 0 →
      r.low < r.k →
      r.own = some (.ok, rows) →
      r.origin = true →
      ∃ t, exec (.ringPartial m) s = .next t ∧ t.step? y.id = none ∧ ∀ q c, y.req = .ring q → u.waitsFor q c → s.posts t q c .ok = true ∧
        (s.gives t).contains (.hostWrite q.func (outAddr c.opcode c.ops) (resultRecord y.q .ok y.determ y.lockstep
          (((ringStack y.determ (u.modelOf x) { r with received := some (.ok, readPartials (u.modelOf x) m.body) } (readPartials (u.modelOf x) m.body) rows).head?.map PartEntry.rows).getD []))) = true) ∧
    (∀ (s : State) (n : Nat) (y : Step),
      s.heldStep n false = some y →
      s.ready? y = true →
      ∃ t, exec (.ringStepHoldRelease n) s = .next t ∧ ((t.step? n).map Step.phase) = some .pending ∧ (t.pwr.items.any fun it => it.work == .step n && it.cost == y.cost) = true) ∧
    (∀ (s : State) (n : Nat) (y : Step) (r : RingRole) (t0 : Nat),
      s.step? n = some y →
      y.ring = some r →
      r.origin = true →
      r.received = none →
      r.forwarded = some t0 →
      t0 + usNs (max (s.fld Reg.cwyRingCfg 31 16) 100) ≤ s.now →
      r.low < r.k →
      (s.att.tasks.any fun k => k.step == n) = false →
      y.id = n →
      ∃ t, exec (.ringTimeout n) s = .next t ∧ t.step? n = none ∧ (s.conf y.domain = false → bit (t.reg (Err.cwyRingTimeout.1 + 0x10)) Err.cwyRingTimeout.2 = true) ∧ ∀ q c, y.req = .ring q → s.waitsFor q c → s.posts t q c .timeout = true) ∧
    (∀ (s : State) (k : Nat) (x : RingSlot) (c : ChainRec) (i : Nat) (y : Session),
      s.slot k = x →
      x.st = .ready →
      x.toSend = [c] →
      c.last = 2 →
      x.succ = some i →
      s.cwy.sessions.get? i = some y →
      ∃ t, exec (.chainRetry k) s = .next t ∧ t.tells i 0x28 (chainBody c) = true ∧ (t.slot k).toSend = [{ c with last := 0 }])

/-- A lookup by tokens hashes its blocks in a chain and becomes a search with the probes and the result that R154 gives;
KEEP makes a list of them; a lookup by list searches by galloping; kind 3 frees a list. PREFIX_SET_RANGE sets the
range of a domain or a sequence; PREFIX_FLOOR raises the floor, after which a sweep leaves no entry below it;
PREFIX_EVICT withdraws a sequence's entries; PREFIX_PURGE makes its domain purge, frees its lists, and its sweep
leaves no entry of the domain. -/
def Obligations.PrefixCommandsComplete : Prop :=
    (∀ (s : State) (q : CmdRef) (c : InFlight) (inp : List Byte) (l : Lookup) (f : Found) (keys : List Byte × List Byte),
      s.offers q 0x1A c →
      inp.length = c.inLen →
      l = readLookup inp →
      s.lookupShape (s.ringDomain q) inp = true →
      s.islandOn searchIsland = true →
      s.admitRefuses (s.ringDomain q) (s.lookupCost inp (s.ringDomain q)) = false →
      l.kind = 0 →
      l.keep = false →
      32 + l.count / 4 ≤ u32 c.ops 8 →
      s.rbdKeys (s.ringDomain q) = some keys →
      f = s.searchRun (s.ringDomain q) l l.start (chainHashes keys l.tag (l.count / 16) l.tokens l.hash) false →
      f.probes ≠ [] →
      ∃ t, exec (.cmdPrefixLookup q (.bytes inp)) s = .next t ∧ ((t.rbd.searches.getLast?).map fun x => (x.num, x.domain, x.probes, x.req)) = some (s.rbd.admitted, s.ringDomain q, f.probes, .ring q) ∧ ((t.rbd.searches.getLast?).map fun x => (x.result, x.gallop)) = some ({ out := lookupResult l.ltag .ok ((if f.linear then 1 else 0) + (if f.cut then 2 else 0)) 0 l.start f.hits (((chainHashes keys l.tag (l.count / 16) l.tokens l.hash).getLast?.map Prod.fst).getD 0) (f.entries.map Entry.bd) }, false) ∧
        t.rbd.searches.length = s.rbd.searches.length + 1) ∧
    (∀ (s : State) (q : CmdRef) (c : InFlight) (inp : List Byte) (l : Lookup) (keys : List Byte × List Byte) (n : Nat),
      s.offers q 0x1A c →
      inp.length = c.inLen →
      l = readLookup inp →
      s.lookupShape (s.ringDomain q) inp = true →
      s.islandOn searchIsland = true →
      s.admitRefuses (s.ringDomain q) (s.lookupCost inp (s.ringDomain q)) = false →
      l.kind = 0 →
      l.keep = true →
      l.list = 0 →
      32 + l.count / 4 ≤ u32 c.ops 8 →
      s.rbdKeys (s.ringDomain q) = some keys →
      s.mayTake 256 Domain.listRsv (s.rbd.lists.map fun x => x.2.domain) (s.ringDomain q) = true →
      (s.growList (s.ringDomain q) { domain := s.ringDomain q, tag := l.tag, start := l.start, blocks := (chainHashes keys l.tag (l.count / 16) l.tokens l.hash) }).isSome = true →
      chooseFree s.rbd.lists.keys 1 65536 (Config.listId s.fresh) = some n →
      ∃ t, exec (.cmdPrefixLookup q (.bytes inp)) s = .next t ∧ ((t.rbd.lists.get? n).map fun x => (x.domain, x.tag, x.start, x.blocks)) = some (s.ringDomain q, l.tag, l.start, (chainHashes keys l.tag (l.count / 16) l.tokens l.hash))) ∧
    (∀ (s : State) (q : CmdRef) (c : InFlight) (inp : List Byte) (l : Lookup) (f : Found) (h : HashList),
      s.offers q 0x1A c →
      inp.length = c.inLen →
      l = readLookup inp →
      s.lookupShape (s.ringDomain q) inp = true →
      s.islandOn searchIsland = true →
      s.admitRefuses (s.ringDomain q) (s.lookupCost inp (s.ringDomain q)) = false →
      l.kind = 1 →
      32 ≤ u32 c.ops 8 →
      s.listOf (s.ringDomain q) l.list = some h →
      h.tag = l.tag →
      f = s.searchRun (s.ringDomain q) l h.start h.blocks true →
      f.probes ≠ [] →
      ∃ t, exec (.cmdPrefixLookup q (.bytes inp)) s = .next t ∧ ((t.rbd.searches.getLast?).map fun x => (x.num, x.domain, x.probes, x.req)) = some (s.rbd.admitted, s.ringDomain q, f.probes, .ring q) ∧ ((t.rbd.searches.getLast?).map fun x => (x.result, x.gallop)) = some ({ out := lookupResult l.ltag .ok ((if f.linear then 1 else 0) + (if f.cut then 2 else 0)) l.list h.start f.hits 0 [] }, !f.linear) ∧
        t.rbd.searches.length = s.rbd.searches.length + 1) ∧
    (∀ (s : State) (q : CmdRef) (c : InFlight) (inp : List Byte) (l : Lookup) (f : Found) (h : HashList),
      s.offers q 0x1A c →
      inp.length = c.inLen →
      l = readLookup inp →
      s.lookupShape (s.ringDomain q) inp = true →
      s.islandOn searchIsland = true →
      s.admitRefuses (s.ringDomain q) (s.lookupCost inp (s.ringDomain q)) = false →
      l.kind = 2 →
      32 + 4 * l.count ≤ u32 c.ops 8 →
      s.listOf (s.ringDomain q) l.list = some h →
      h.tag = l.tag →
      f = s.searchRun (s.ringDomain q) l (h.start + l.offset) ((h.blocks.drop l.offset).take l.count) false →
      f.probes ≠ [] →
      ∃ t, exec (.cmdPrefixLookup q (.bytes inp)) s = .next t ∧ ((t.rbd.searches.getLast?).map fun x => (x.num, x.domain, x.probes, x.req)) = some (s.rbd.admitted, s.ringDomain q, f.probes, .ring q) ∧ ((t.rbd.searches.getLast?).map fun x => (x.result, x.gallop)) = some ({ out := lookupResult l.ltag .ok ((if f.linear then 1 else 0) + (if f.cut then 2 else 0)) l.list (h.start + l.offset) f.hits 0 (f.entries.map Entry.bd) }, false) ∧
        t.rbd.searches.length = s.rbd.searches.length + 1) ∧
    (∀ (s : State) (q : CmdRef) (c : InFlight) (inp : List Byte) (l : Lookup) (h : HashList),
      s.offers q 0x1A c →
      inp.length = c.inLen →
      l = readLookup inp →
      s.lookupShape (s.ringDomain q) inp = true →
      s.islandOn searchIsland = true →
      s.admitRefuses (s.ringDomain q) (s.lookupCost inp (s.ringDomain q)) = false →
      l.kind = 3 →
      32 ≤ u32 c.ops 8 →
      s.listOf (s.ringDomain q) l.list = some h →
      h.tag = l.tag →
      s.runsAtOnce (s.searchItem (s.ringDomain q) (s.lookupCost inp (s.ringDomain q)) s.rbd.admitted) →
      ∃ t, exec (.cmdPrefixLookup q (.bytes inp)) s = .next t ∧ t.rbd.lists.get? l.list = none ∧ s.posts t q c .ok = true) ∧
    (∀ (s : State) (m : RxMsg) (j : Nat) (u : State) (l : Lookup) (f : Found) (keys : List Byte × List Byte),
      s.takes m 0x20 = true →
      (s.receive m (some (State.lookupCost m.body))).2 = .pass j →
      u = (s.receive m (some (State.lookupCost m.body))).1 →
      u.linksCalm →
      l = readLookup m.body →
      u.lookupShape (u.domainOf (m.requester j)) m.body = true →
      u.islandOn searchIsland = true →
      l.kind = 0 →
      l.keep = false →
      u.rbdKeys (u.domainOf (m.requester j)) = some keys →
      f = u.searchRun (u.domainOf (m.requester j)) l l.start (chainHashes keys l.tag (l.count / 16) l.tokens l.hash) false →
      f.probes ≠ [] →
      ∃ t, exec (.prefixLookup m) s = .next t ∧ ((t.rbd.searches.getLast?).map fun x => (x.num, x.domain, x.probes, x.req)) = some (u.rbd.admitted, u.domainOf (m.requester j), f.probes, m.requester j) ∧ ((t.rbd.searches.getLast?).map fun x => (x.result, x.gallop)) = some ({ out := lookupResult l.ltag .ok ((if f.linear then 1 else 0) + (if f.cut then 2 else 0)) 0 l.start f.hits (((chainHashes keys l.tag (l.count / 16) l.tokens l.hash).getLast?.map Prod.fst).getD 0) (f.entries.map Entry.bd) }, false) ∧
        t.rbd.searches.length = u.rbd.searches.length + 1) ∧
    (∀ (s : State) (q : CmdRef) (c : InFlight),
      s.offersXlt q 0x30 c →
      u32 c.ops 4 ≤ u32 c.ops 8 →
      u32 c.ops 0 = 0 →
      ∃ t, exec (.prefixSetRange q) s = .next t ∧ t.rbdDom (s.ringDomain q) = { s.rbdDom (s.ringDomain q) with lo := u32 c.ops 4, hi := u32 c.ops 8 } ∧ s.posts t q c .ok = true) ∧
    (∀ (s : State) (q : CmdRef) (c : InFlight) (i : Nat) (x : Seq),
      s.offersXlt q 0x30 c →
      u32 c.ops 4 ≤ u32 c.ops 8 →
      u32 c.ops 0 ≠ 0 →
      s.findSeq (s.ringDomain q) (u32 c.ops 0) = .ok (i, x) →
      ∃ t, exec (.prefixSetRange q) s = .next t ∧ t.seq? i = some { x with range := some (u32 c.ops 4, u32 c.ops 8) } ∧ s.posts t q c .ok = true) ∧
    (∀ (s : State) (q : CmdRef) (c : InFlight),
      s.offers q 0x31 c →
      s.updatesDone (s.ringDomain q) →
      (s.rbdDom (s.ringDomain q)).floor ≤ u32 c.ops 0 →
      ∃ t, exec (.prefixFloor q) s = .next t ∧ (t.rbdDom (s.ringDomain q)).floor = u32 c.ops 0 ∧ t.rbd.scans = s.rbd.scans ++ [{ kind := .floor (u32 c.ops 0), domains := [s.ringDomain q], before := s.rbd.admitted }] ∧
        t.rbd.breaks = (s.rbd.breaks.filter fun b => !(b.domain == s.ringDomain q && decide (b.hi < u32 c.ops 0))) ∧ s.posts t q c .ok = true) ∧
    (∀ (s : State) (d : Nat) (x : Scan) (rest : List Scan) (f : Nat),
      takeFirst (fun (x : Scan) => (match x.kind with | .floor _ => true | _ => false) && x.domains.contains d) s.rbd.scans = some (x, rest) →
      x.kind = .floor f →
      (s.rbd.searches.any fun y => y.domain == d && decide (y.num < x.before)) = false →
      s.backgroundFits .scrub (s.rowCost 0 0 (s.sweepBytes (fun (e : Entry) => e.domain == d && decide (e.hi < f)))) ((s.sweepBytes (fun (e : Entry) => e.domain == d && decide (e.hi < f))) / 8) = true →
      s.noPlacements →
      s.updatesDone d →
      s.rowsWhole →
      ∃ t, exec (.floorSweep d) s = .next t ∧ t.rbd.scans = rest ∧ ∀ n k e, (t.row n).get? k = some e → (fun (e : Entry) => e.domain == d && decide (e.hi < f)) e = false) ∧
    (∀ (s : State) (q : CmdRef) (c : InFlight) (i : Nat) (x : Seq) (b : Nat) (p : Nat) (r : Nat × Nat × Entry),
      s.offersXlt q 0x32 c →
      s.findSeq (s.ringDomain q) (u32 c.ops 0) = .ok (i, x) →
      (((x.ptes.filterMap fun y => y.2.share.map fun z => (y.1.2.2, z.1)).filter fun z => decide (u32 c.ops 4 ≤ z.1)).eraseDups) = [(p, b)] →
      (s.xlt.bds.get? b).map Bd.indexed = some true →
      s.entryOfBd b = some r →
      ((s.row r.1).filter fun e => e.2.bd == b && e.2.valid).length = 1 →
      s.updatesDone (s.ringDomain q) →
      s.noPlacements →
      ∃ t, exec (.prefixEvict q) s = .next t ∧ s.answersWith t q c 1 0 = true ∧ ((t.xlt.bds.get? b).all fun y => !y.indexed) = true ∧ t.entryOfBd b = none) ∧
    (∀ (s : State) (q : CmdRef) (c : InFlight),
      s.offers q 0x33 c →
      s.noPlacements →
      ∃ t, exec (.prefixPurge q) s = .next t ∧ (t.rbdDom (s.ringDomain q)).purging = true ∧ (t.rbd.lists.any fun x => x.2.domain == s.ringDomain q) = false ∧ (t.rbd.breaks.any fun b => b.domain == s.ringDomain q) = false ∧ s.posts t q c .ok = true ∧ ((s.rbdDom (s.ringDomain q)).purging = false → t.rbd.scans = s.rbd.scans ++ [{ kind := .purge, domains := [s.ringDomain q] }])) ∧
    (∀ (s : State) (d : Nat) (x : Scan) (rest : List Scan),
      takeFirst (fun (x : Scan) => x.kind == .purge && x.domains.contains d) s.rbd.scans = some (x, rest) →
      s.backgroundFits .scrub (s.rowCost 0 0 (s.sweepBytes (fun (e : Entry) => e.domain == d))) ((s.sweepBytes (fun (e : Entry) => e.domain == d)) / 8) = true →
      s.noPlacements →
      s.updatesDone d →
      s.rowsWhole →
      ∃ t, exec (.purgeSweepEnd d) s = .next t ∧ t.rbd.scans = rest ∧ (t.rbdDom d).purging = false ∧ ∀ n k e, (t.row n).get? k = some e → e.domain ≠ d)

/-- The update engine enters the root block of the oldest hand-off with its range, or counts it where its domain has no
keys; it moves one entry toward the layout rule; an uncorrectable row is lost and a repair scan starts, which clears
INDEXED in the blocks whose hash maps to that row and starts a resolve scan, which ends the breaks of its domains; a
probe slot goes to the domain whose turn it is, and the last probe ends the search, or to a scan; a sample sets
RATE_SHIFT by R160. -/
def Obligations.ReedbedEngineCommandsComplete : Prop :=
    (∀ (s : State) (h : Handoff) (rest : List Handoff) (b : Bd),
      s.xlt.handoffs = h :: rest →
      s.serves .xlt = true →
      s.xlt.bds.get? h.bd = some b →
      (s.rbdKeys b.domain).isSome = true →
      s.islandOn searchIsland = true →
      (s.rbdDom b.domain).purging = false →
      bit (s.reg Reg.rbdCfg) 31 = true →
      b.root = true →
      h.lo ≤ h.hi →
      h.hi ≤ 0xFFFFFFFF →
      ((s.row (rowOf b.hash)).any fun x => x.2.valid && !x.2.writing && x.2.hash == b.hash && x.2.check == b.check && x.2.domain == b.domain && x.2.tag == b.tag && decide ((s.rbdDom b.domain).floor ≤ x.2.hi)) = false →
      (s.rbdDom b.domain).quota = 0 →
      (s.row (rowOf b.hash)).length < 64 →
      rowRule (s.row (rowOf b.hash)) = true →
      ∃ t, exec (.reedbedInsert) s = .next t ∧ t.xlt.handoffs = rest ∧ t.xlt.bds.get? h.bd = some { b with indexed := true } ∧
        ((t.row (rowOf b.hash)).any fun x => x.2 == { hash := b.hash, check := b.check, domain := b.domain, tag := b.tag, lo := h.lo, hi := h.hi, bd := h.bd }) = true) ∧
    (∀ (s : State) (h : Handoff) (rest : List Handoff) (b : Bd),
      s.xlt.handoffs = h :: rest →
      s.serves .xlt = true →
      s.xlt.bds.get? h.bd = some b →
      s.rbdKeys b.domain = none →
      ∃ t, exec (.reedbedInsert) s = .next t ∧ t.xlt.handoffs = rest ∧ t.xlt.bds = s.xlt.bds ∧ t.rbd = s.rbd ∧ (∀ x, s.seq? h.seq = some x → ((t.seq? h.seq).bind Seq.noIdx) = some (match x.noIdx with | some k => min k b.block | none => b.block))) ∧
    (∀ (s : State) (n : Nat) (r : Assoc Nat Entry),
      s.rbd.dirtyRows.contains n = true →
      restoreStep (s.row n) = some r →
      ∃ t, exec (.rowMove n) s = .next t ∧ t.row n = r ∧ (t.rbd.dirtyRows.contains n) = !rowRule r) ∧
    (∀ (s : State) (n : Nat),
      s.rbd.placed = true →
      n < 2 ^ 22 →
      ∃ t, exec (.rowUe n) s = .next t ∧ t.row n = [] ∧ t.rbd.scans = s.rbd.scans ++ [{ kind := .repair n, domains := [] }] ∧ bit (t.reg (Err.rbdRowUe.1 + 0x10)) Err.rbdRowUe.2 = true) ∧
    (∀ (s : State) (x : Scan) (rest : List Scan) (n : Nat) (y : Nat × Bd),
      s.takeScan (fun k => match k with | .repair _ => true | _ => false) = some (x, rest) →
      x.kind = .repair n →
      (s.xlt.bds.filter fun b => b.2.indexed && decide (rowOf b.2.hash = n)) = [y] →
      s.xlt.bds.get? y.1 = some y.2 →
      s.backgroundFits .scrub (s.rowCost 0 0 (s.bdBytes)) ((s.bdBytes) / 8) = true →
      s.noPlacements →
      ∃ t, exec (.repairScan) s = .next t ∧ t.rbd.scans = rest ++ [{ kind := .resolve, domains := [y.2.domain], linear := [y.2.domain].filter fun d => (s.rbdDom d).linear }] ∧ ((t.xlt.bds.get? y.1).all fun b => !b.indexed) = true) ∧
    (∀ (s : State) (x : Scan) (rest : List Scan),
      s.takeScan (fun k => k == .resolve) = some (x, rest) →
      s.islandOn searchIsland = true →
      s.backgroundFits .scrub (s.rowCost 0 0 (s.bdBytes + 2048 * (s.indexedBds x.domains).length)) ((s.bdBytes + 2048 * (s.indexedBds x.domains).length) / 8) = true →
      s.noPlacements →
      ∃ t, exec (.resolveScan) s = .next t ∧ t.rbd.scans = rest ∧ (t.rbd.breaks.any fun b => x.domains.contains b.domain) = false ∧ (x.linear.any fun d => (t.rbdDom d).linear) = false) ∧
    (∀ (s : State) (d : Nat) (x : Search) (n : Nat),
      s.searchRuns = true →
      s.rbd.scans = [] →
      s.probeTurn = some d →
      (s.searchesRun.find? fun y => y.domain == d && !y.probes.isEmpty) = some x →
      x.probes = [n] →
      x.result.status = .ok →
      ∃ t, exec (.probeGrant) s = .next t ∧ (t.rbd.searches.any fun y => y.num == x.num) = false ∧ ∀ q c, x.req = .ring q → s.waitsFor q c → s.posts t q c .ok = true) ∧
    (∀ (s : State) (d : Nat) (x : Search) (n : Nat) (ps : List Nat),
      s.searchRuns = true →
      s.rbd.scans = [] →
      s.probeTurn = some d →
      (s.searchesRun.find? fun y => y.domain == d && !y.probes.isEmpty) = some x →
      x.probes = n :: ps →
      ps ≠ [] →
      (s.rbd.searches.find? fun y => y.num == x.num) = some x →
      ∃ t, exec (.probeGrant) s = .next t ∧ ((t.rbd.searches.find? fun y => y.num == x.num).map Search.probes) = some ps ∧ t.rbd.rrDom = d ∧ t.rbd.lastDom = some d) ∧
    (∀ (s : State),
      s.searchRuns = true →
      (s.rbd.scans.any fun x => x.kind == .resolve) = true →
      s.rbd.scan16 < max 1 (s.fld Reg.rbdCfg 3 0) →
      ∃ t, exec (.probeGrant) s = .next t ∧ t.rbd.searches = s.rbd.searches ∧ (t.rbd.slot16, t.rbd.scan16) = (if s.rbd.slot16 = 15 then (0, 0) else (s.rbd.slot16 + 1, s.rbd.scan16 + 1)) ∧ t.ctrs.getD Reg.rbdProbeLo 0 = (s.ctrs.getD Reg.rbdProbeLo 0 + 1) % 2 ^ 64) ∧
    (∀ (s : State) (v : Int),
      ∃ t, exec (.probeRateSample v) s = .next t ∧ t.rbd.rateShift = nextShift s.rbd.rateShift (s.fld Reg.rbdCfg 7 4) v ∧ t.rbd.temp = v / 10 ∧ t.rbd.rows = s.rbd.rows)

/-- Peat takes a T3 write into its write buffer; a unit whose window has passed is issued to a stripe with room; a
programmed row advances WSEQ by 17 and leaves the buffer; a failing program or erase retires its block; a verified
block is VERIFIED; a read that decodes stages its data for its move; a released extent is trimmed: its record waits
for the journal and its sectors for a later checkpoint; a due journal page makes its records persistent. -/
def Obligations.PeatDataCommandsComplete : Prop :=
    (∀ (s : State) (n : Nat) (home : Home) (data : List Byte),
      s.pea.waiting.find? (fun w => w.1 == n) = some (n, home, data) →
      s.peaServes = true →
      (s.sdg.queue.any fun b => b.owner == n) = false →
      (s.slc.objWrites.any fun w => w.id == n && !w.blocks.isEmpty) = false →
      s.pea.pstate = .ready →
      s.writeHeld = false →
      s.flushBehind = false →
      ∃ t, exec (.peatWrite n) s = .next t ∧ ((t.pea.writes.getLast?).map fun w => (w.move, w.left)) = some (n, (List.range (ceilDiv data.length 4096)).map (home.addr / 8 + ·)) ∧ t.pea.waiting = s.pea.waiting.filter (fun w => !(w.1 == n && w.2.1 == home)) ∧
        (s.pea.buffer = [] → data.length = 4096 → t.sectorNow (home.addr / 8) = some data)) ∧
    (∀ (s : State) (n : Nat) (b : BufUnit) (st : PStripe),
      s.pea.buffer.find? (fun b => b.unit == n && !b.issued && (decide (16 ≤ b.sectors.length) || decide (b.since + usNs (s.fld Reg.peaCfg 31 16) ≤ s.now))) = some b →
      s.peaWrites = true →
      s.pea.buffer.find? (fun y => y.id == b.id) = some b →
      s.pea.stripes = [st] →
      st.stream = b.stream →
      st.fill = [] →
      b.sectors ≠ [] →
      0 < s.pea.geom.slots →
      b.avoid ≠ some st.id →
      (s.pea.freeGroup.isNone = true → s.pea.isFine b.unit = false → 16 ≤ s.pea.geom.slots) →
      ∃ t, exec (.coalesceExpiry n) s = .next t ∧ ((t.pea.buffer.find? fun y => y.id == b.id).map fun y => (y.issued, y.sectors)) = some (true, b.sectors) ∧ (t.pea.stripes.any fun x => x.fill.any fun f => f.buf == b.id) = true ∧ t.pea.flash = s.pea.flash) ∧
    (∀ (s : State) (n : Nat) (st : PStripe),
      s.pea.stripes.find? (fun (x : PStripe) => x.id == n) = some st →
      s.peaWrites = true →
      st.fill.isEmpty = false →
      (s.pea.buffer.all fun b => b.trimmed.isEmpty) = true →
      s.noPlacements →
      s.slc.objWrites = [] →
      ∃ t, exec (.stripeRowProgrammed n) s = .next t ∧ t.pea.wseq = s.pea.wseq + 17 ∧ (t.pea.buffer.any fun b => st.fill.any fun f => f.buf == b.id) = false ∧
        (st.row + 1 < s.pea.geom.pages → ((t.pea.stripes.find? fun x => x.id == n).map fun x => (x.row, x.fill)) = some (st.row + 1, [])) ∧ t.sameMem s) ∧
    (∀ (s : State) (n : Nat) (j : Nat) (st : PStripe) (k : Nat),
      s.pea.stripes.find? (fun (x : PStripe) => x.id == n) = some st →
      st.blocks[j]? = some k →
      s.peaWrites = true →
      st.fill.isEmpty = false →
      k ∉ s.pea.reserve →
      ∃ t, exec (.programFail n j) s = .next t ∧ (t.pea.blk k).st = .retired ∧ t.ctrs.getD Reg.peaProgFailLo 0 = (s.ctrs.getD Reg.peaProgFailLo 0 + 1) % 2 ^ 64 ∧ bit (t.reg (Err.peaProgFail.1 + 0x10)) Err.peaProgFail.2 = true) ∧
    (∀ (s : State) (st : PStripe) (k : Nat),
      s.pea.stripes.find? (fun x => x.blocks.contains k) = some st →
      s.peaWrites = true →
      (s.pea.blk k).next = 0 →
      (s.pea.blk k).st = .opened →
      k ∉ s.pea.reserve →
      ∃ t, exec (.eraseFail k) s = .next t ∧ (t.pea.blk k).st = .retired ∧ t.ctrs.getD Reg.peaEraseFailLo 0 = (s.ctrs.getD Reg.peaEraseFailLo 0 + 1) % 2 ^ 64 ∧ bit (t.reg (Err.peaEraseFail.1 + 0x10)) Err.peaEraseFail.2 = true) ∧
    (∀ (s : State) (k : Nat) (rows : List Nat),
      s.peaWrites = true →
      (s.pea.blk k).st = .closed →
      s.backgroundFits .scrub (s.rowCost s.pea.geom.pages 0 0) (s.pea.geom.pages * 50000) = true →
      ∃ t, exec (.blockVerify k rows) s = .next t ∧ (t.pea.blk k).st = .verified ∧ t.ctrs.getD Reg.peaVerifyFailLo 0 = (s.ctrs.getD Reg.peaVerifyFailLo 0 + (rows.eraseDups.filter fun x => decide (x < (s.pea.blk k).next)).length) % 2 ^ 64 ∧ (rows = [] → t.pea.buffer = s.pea.buffer)) ∧
    (∀ (s : State) (n : Nat) (r : PRead) (m : Move),
      s.pea.reads.find? (fun x => x.move == n) = some r →
      s.peaServes = true →
      r.step = 0 →
      (r.src.filterMap s.pea.srcBlock).all s.pea.served = true →
      n < readBase →
      s.slc.moves.find? (fun y => y.seqNo == n) = some m →
      s.noPlacements →
      ∃ t, exec (.peatRead n 0 []) s = .next t ∧ ((t.slc.moves.find? fun y => y.seqNo == n).map Move.staged) = some (r.src.flatMap s.pea.bytesOf) ∧ (t.pea.reads.any fun x => x.move == n) = false ∧ t.pea.flash = s.pea.flash) ∧
    (∀ (s : State) (n : Nat) (k : Nat) (rest : List (Nat × Nat)),
      s.pea.released = (n, k) :: rest →
      s.peaServes = true →
      ∃ t, exec (.trim) s = .next t ∧ t.pea.released = rest ∧ t.pea.quarantine = s.pea.quarantine ++ [(n, k, s.pea.nextCk)] ∧ t.pea.journalPend = s.pea.journalPend ++ [{ wseq := t.pea.wseq, first := n, count := k, since := s.now }] ∧
        t.pea.wseq = s.pea.wseq + 1 ∧ t.pea.flash = s.pea.flash) ∧
    (∀ (s : State),
      s.peaServes = true →
      1024 ≤ s.pea.journalPend.length ∨ (s.pea.journalPend.head?.any fun r => decide (r.since + msNs 1 ≤ s.now)) = true →
      ∃ t, exec (.journalPageProgram) s = .next t ∧ t.pea.journal = s.pea.journal ++ s.pea.journalPend.take 1024 ∧ t.pea.journalPend = s.pea.journalPend.drop 1024)

/-- Garbage collection, wear levelling and retention copy the live sectors of their victim and give it up; the flusher
saves the dirty segment; CKPT_NOW asks for a checkpoint and a due one is written; recovery without flash, with a
geometry that is too large or not supported, or without a usable checkpoint leaves NO_FLASH, FAILED or REBUILDING, and
otherwise serves, as a rebuild does; FORMAT waits for its audit entry, and its end leaves T3 empty with the settings
it took; a silent target leaves service. -/
def Obligations.PeatMaintenanceCommandsComplete : Prop :=
    (∀ (s : State) (v : Nat × Blk),
      s.peaWrites = true →
      s.pea.free * 1000 < s.fld Reg.peaGc 31 24 * s.pea.inService →
      bestBy (fun x => (s.pea.liveOf x.1).length) (s.pea.blocks.filter fun x => x.2.st == .verified && !x.2.victim && s.pea.served x.1) = some v →
      s.backgroundFits .gc (s.rowCost (rowsOf (s.pea.liveOf v.1)) (rowsOf (s.pea.liveOf v.1)) 0) (rowsOf (s.pea.liveOf v.1) * 1650000) = true →
      ∃ t, exec (.gc) s = .next t ∧ ((t.pea.blk v.1).victim = true ∨ (t.pea.blk v.1).st = .free) ∧ t.ctrs.getD Reg.peaGcSectLo 0 = (s.ctrs.getD Reg.peaGcSectLo 0 + (s.pea.liveOf v.1).length) % 2 ^ 64) ∧
    (∀ (s : State) (v : Nat × Blk),
      s.peaWrites = true →
      max 16 (s.fld Reg.peaWl 31 16) < s.pea.spread →
      (if s.pea.wlSecond = s.now / secNs 1 then s.pea.wlCount else 0) < s.fld Reg.peaWl 15 0 →
      bestBy (fun x => x.2.pe) (s.pea.blocks.filter fun x => (x.2.st == .closed || x.2.st == .verified) && !x.2.victim && s.pea.served x.1 && !(s.pea.liveOf x.1).isEmpty) = some v →
      s.backgroundFits .gc (s.rowCost (rowsOf (s.pea.liveOf v.1)) (rowsOf (s.pea.liveOf v.1)) 0) (rowsOf (s.pea.liveOf v.1) * 1650000) = true →
      ∃ t, exec (.wearLevel) s = .next t ∧ ((t.pea.blk v.1).victim = true ∨ (t.pea.blk v.1).st = .free) ∧ t.ctrs.getD Reg.peaWlSectLo 0 = (s.ctrs.getD Reg.peaWlSectLo 0 + (s.pea.liveOf v.1).length) % 2 ^ 64 ∧ (t.pea.wlSecond, t.pea.wlCount) = (s.now / secNs 1, (if s.pea.wlSecond = s.now / secNs 1 then s.pea.wlCount else 0) + 1)) ∧
    (∀ (s : State) (k : Nat) (age : Bool),
      s.peaWrites = true →
      (s.pea.blk k).st = .closed ∨ (s.pea.blk k).st = .verified →
      (s.pea.blk k).victim = false →
      s.backgroundFits .scrub (s.rowCost (rowsOf (s.pea.liveOf k)) (rowsOf (s.pea.liveOf k)) 0) (rowsOf (s.pea.liveOf k) * 1650000) = true →
      if age then Config.nandRetention (s.pea.blk k).pe (s.pea.blk k).lastTemp ≤ (s.ftimeNow + 2 ^ 32 - (s.pea.blk k).lastTime) % 2 ^ 32 + s.fld Reg.peaHealth 7 0 * 86400 else Config.nandDisturb (s.pea.blk k).pe ≤ (s.pea.blk k).reads →
      ∃ t, exec (.retentionRelocate k age false) s = .next t ∧ ((t.pea.blk k).victim = true ∨ (t.pea.blk k).st = .free) ∧ t.ctrs.getD Reg.peaWlSectLo 0 = (s.ctrs.getD Reg.peaWlSectLo 0 + (s.pea.liveOf k).length) % 2 ^ 64 ∧ (age = true → Config.nandRetention (s.pea.blk k).pe (s.pea.blk k).lastTemp < (s.ftimeNow + 2 ^ 32 - (s.pea.blk k).lastTime) % 2 ^ 32 → bit (t.reg (Evt.peaRetention.1 + 0x18)) Evt.peaRetention.2 = true)) ∧
    (∀ (s : State) (k : Nat),
      s.peaWrites = true →
      (s.pea.blk k).st = .closed ∨ (s.pea.blk k).st = .verified →
      (s.pea.blk k).victim = false →
      ∃ t, exec (.retentionRelocate k true true) s = .next t ∧ t.pea.blk k = s.pea.blk k ∧ t.pea.liveOf k = s.pea.liveOf k ∧ (Config.nandRetention (s.pea.blk k).pe (s.pea.blk k).lastTemp < (s.ftimeNow + 2 ^ 32 - (s.pea.blk k).lastTime) % 2 ^ 32 → bit (t.reg (Evt.peaRetention.1 + 0x18)) Evt.peaRetention.2 = true)) ∧
    (∀ (s : State) (n : Nat) (k : Nat) (j : Nat),
      s.peaServes = true →
      s.pea.dirty = [(n, k, j)] →
      ∃ t, exec (.segmentFlush) s = .next t ∧ t.pea.dirty = [] ∧ t.pea.saved.get? n = some { cut := s.pea.wseq, coarse := s.pea.coarse.filter fun x => s.segOfUnit x.1 == n, fine := s.pea.fine.filter fun x => s.segOfFine x.1 == n, blocks := s.pea.blocks.filter fun x => s.segOfBlk x.1 == n }) ∧
    (∀ (s : State) (w : RegWrite),
      s.openTo Reg.peaCtl w →
      bit w.value.toNat 30 = true →
      bit w.value.toNat 31 = false →
      ∃ t, exec (.ckptNow w) s = .next t ∧ t.pea.ckptAsked = true) ∧
    (∀ (s : State),
      s.peaServes = true →
      s.pea.ckptDue ≤ s.now ∨ s.pea.ckptAsked = true →
      s.ckptClean = false →
      ∃ t, exec (.checkpoint) s = .next t ∧ ((t.pea.ckpts.head?).map fun c => (c.seq, c.body.dir)) = some (s.pea.nextCk, s.pea.saved) ∧ t.pea.nextCk = s.pea.nextCk + 1 ∧ t.pea.ckptAsked = false ∧ t.pea.ckpts.length = min 4 (s.pea.ckpts.length + 1)) ∧
    (∀ (s : State) (found : PeatFound),
      s.peaOn = true →
      s.pea.pstate = .recovering →
      (found.targets.take 256).all Option.isNone = true →
      ∃ t, exec (.peatRecovery found) s = .next t ∧ t.pea.pstate = .noFlash) ∧
    (∀ (s : State) (found : PeatFound),
      s.peaOn = true →
      s.pea.pstate = .recovering →
      (found.targets.take 256).all Option.isNone = false →
      (((found.targets.take 256).head?).join.all fun g => !pageSupported g || decide (33 < (s.findTargets (found.targets.take 256) g).pea.geom.puaBits)) = true →
      ∃ t, exec (.peatRecovery found) s = .next t ∧ t.pea.pstate = .failed ∧ bit (t.reg (Err.peaGeom.1 + 0x10)) Err.peaGeom.2 = true) ∧
    (∀ (s : State) (found : PeatFound) (g : TargetPage),
      s.peaOn = true →
      s.pea.pstate = .recovering →
      (found.targets.take 256).head? = some (some g) →
      pageSupported g = true →
      (s.findTargets (found.targets.take 256) g).pea.geom.puaBits ≤ 33 →
      chooseCkpt found s.pea.ckpts false = none →
      ∃ t, exec (.peatRecovery found) s = .next t ∧ t.pea.pstate = .rebuilding ∧ bit (t.reg (Err.peaCkptLost.1 + 0x10)) Err.peaCkptLost.2 = true) ∧
    (∀ (s : State) (found : PeatFound) (g : TargetPage),
      s.peaOn = true →
      s.pea.pstate = .recovering →
      (found.targets.take 256).head? = some (some g) →
      pageSupported g = true →
      (s.findTargets (found.targets.take 256) g).pea.geom.puaBits ≤ 33 →
      (chooseCkpt found s.pea.ckpts false).isSome = true →
      ∃ t, exec (.peatRecovery found) s = .next t ∧ (t.pea.pstate = .ready ∨ t.pea.pstate = .readOnly) ∧ t.pea.geom = (s.findTargets (found.targets.take 256) g).pea.geom ∧ (t.pea.stripes.all fun x => x.row == 0 && x.fill.isEmpty) = true) ∧
    (∀ (s : State),
      s.peaOn = true →
      s.pea.pstate = .rebuilding →
      ∃ t, exec (.fullRebuild) s = .next t ∧ (t.pea.pstate = .ready ∨ t.pea.pstate = .readOnly) ∧ t.pea.journal = [] ∧ t.pea.parked = []) ∧
    (∀ (s : State) (w : RegWrite),
      s.openTo Reg.peaCtl w →
      bit w.value.toNat 31 = true →
      bit w.value.toNat 30 = false →
      s.formats = true →
      (256 * 2 ^ 20 : Int) ≤ s.workArea (s.fld Reg.peaFmt 31 24) →
      (s.slc.extents.any fun e => e.1.tier == 3) = false →
      s.pea.pstate ≠ .recovering →
      ∃ t, exec (.format w) s = .next t ∧ (t.aud.waiting.any fun x => x.2 == .format) = true ∧ t.pea.flash = s.pea.flash) ∧
    (∀ (s : State),
      s.peaOn = true →
      s.pea.pstate = .formatting →
      ∃ t, exec (.formatDone) s = .next t ∧ (t.pea.pstate = .ready ∨ t.pea.pstate = .readOnly) ∧ (t.pea.opPct, t.pea.metaGib) = (s.pea.fmtOp, s.pea.fmtMeta) ∧ (t.pea.coarse, t.pea.fine, t.pea.flash) = ([], [], []) ∧ t.pea.ckpts.length = 1 ∧ t.pea.peBase = s.pea.peBase + 1) ∧
    (∀ (s : State) (n : Nat),
      s.peaOn = true →
      s.pea.targets.contains n = true →
      ∃ t, exec (.nandTargetSilent n) s = .next t ∧ t.pea.silent = s.pea.silent ++ [n] ∧ t.pea.targets.contains n = false ∧ (t.pea.reserve.any fun b => s.pea.geom.targetOf b == n) = false)

/-- Light on lane 0 of an enabled DOWN port starts training; training ends LINKED with its lanes and a DISCOVER sent, or
times out to DOWN; a link fault takes a READY port to RETRAIN, or to FAILED where both halves have an unusable lane,
and one still training to DOWN, while a sleeping port only records the lane; retraining ends READY, or fails, and the
third failure makes the port FAILED, which is left for DOWN after RETRY_MS; the laser monitor keeps its readings and
finds no lane unusable above the alarm level. -/
def Obligations.PortCommandsComplete : Prop :=
    (∀ (s : State) (p : Nat),
      s.hasPort p = true →
      (s.port p).st = .down →
      bit (s.reg (Reg.cwyPortCfg + cwyOff p)) 31 = true →
      (s.port p).retryAt ≤ s.now →
      s.islandOn (portGroup p) = true →
      s.linksCalm →
      ∃ t, exec (.lightDetected p) s = .next t ∧ (t.port p).st = .training ∧ (t.port p).since = s.now) ∧
    (∀ (s : State) (p : Nat) (l : List Nat) (k : List Nat) (n : Nat) (u : Bool),
      s.hasPort p = true →
      (s.port p).st = .training →
      s.now ≤ (s.port p).since + 2000000 →
      k.length = 4 →
      (k.all fun n => decide (32 ≤ n)) = true →
      lanesFor (bit (s.reg (Reg.cwyPortCfg + cwyOff p)) 0) (l ++ (s.port p).unusableLanes) = some (n, u) →
      s.linksCalm →
      ∃ t, exec (.trainingDone p l k) s = .next t ∧ (t.port p).st = .linked ∧ (t.port p).lanes = n ∧ (t.port p).upper = u ∧ s.sends t p 0x01 = true) ∧
    (∀ (s : State) (p : Nat),
      (s.port p).st = .training →
      (s.port p).since + 2000000 ≤ s.now →
      s.linksCalm →
      ∃ t, exec (.trainingTimeout p) s = .next t ∧ (t.port p).st = .down ∧ (t.port p).retryAt = s.now + s.retryNs) ∧
    (∀ (s : State) (p : Nat) (x : Nat) (l : List Nat) (b : List Nat),
      s.hasPort p = true →
      (s.port p).st = .ready →
      (s.port p).power ≠ .sleep →
      s.isLinkFault p x l = true →
      b = (if x = 1 then ((s.port p).badLanes ++ l).eraseDups else (s.port p).badLanes) →
      (lanesFor false (b ++ (s.port p).deadLanes)).isSome = true →
      s.linksCalm →
      ∃ t, exec (.linkFault p x l) s = .next t ∧ (t.port p).st = .retrain ∧ (t.port p).since = s.now ∧ (t.port p).badLanes = b) ∧
    (∀ (s : State) (p : Nat) (x : Nat) (l : List Nat),
      s.hasPort p = true →
      (s.port p).st = .ready →
      (s.port p).power ≠ .sleep →
      s.isLinkFault p x l = true →
      lanesFor false ((if x = 1 then ((s.port p).badLanes ++ l).eraseDups else (s.port p).badLanes) ++ (s.port p).deadLanes) = none →
      s.linksCalm →
      ∃ t, exec (.linkFault p x l) s = .next t ∧ (t.port p).st = .failed ∧ (t.port p).handshakes = []) ∧
    (∀ (s : State) (p : Nat) (l : List Nat),
      s.hasPort p = true →
      (s.port p).st = .ready →
      (s.port p).power = .sleep →
      s.isLinkFault p 1 l = true →
      s.linksCalm →
      ∃ t, exec (.linkFault p 1 l) s = .next t ∧ (t.port p).st = .ready ∧ (t.port p).badLanes = ((s.port p).badLanes ++ l).eraseDups) ∧
    (∀ (s : State) (p : Nat) (x : Nat) (l : List Nat),
      s.hasPort p = true →
      (s.port p).st = .training ∨ (s.port p).st = .linked →
      (s.port p).power ≠ .sleep →
      s.isLinkFault p x l = true →
      s.linksCalm →
      ∃ t, exec (.linkFault p x l) s = .next t ∧ (t.port p).st = .down ∧ (t.port p).since = s.now) ∧
    (∀ (s : State) (p : Nat) (l : List Nat) (a : Nat) (n : Nat) (u : Bool),
      s.hasPort p = true →
      (s.port p).st = .retrain →
      s.now ≤ (s.port p).since + 30000 →
      lanesFor (bit (s.reg (Reg.cwyPortCfg + cwyOff p)) 0) (l ++ (s.port p).unusableLanes) = some (n, u) →
      s.linksCalm →
      ∃ t, exec (.retrainDone p l a) s = .next t ∧ (t.port p).st = .ready ∧ (t.port p).lanes = n ∧ (t.port p).upper = u ∧ (t.port p).retrainFails = 0) ∧
    (∀ (s : State) (p : Nat),
      (s.port p).st = .retrain →
      (s.port p).since + 30000 ≤ s.now →
      (s.port p).retrainFails < 2 →
      s.linksCalm →
      ∃ t, exec (.retrainFail p) s = .next t ∧ (t.port p).st = .retrain ∧ (t.port p).since = s.now ∧ (t.port p).retrainFails = (s.port p).retrainFails + 1) ∧
    (∀ (s : State) (p : Nat),
      (s.port p).st = .retrain →
      (s.port p).since + 30000 ≤ s.now →
      2 ≤ (s.port p).retrainFails →
      s.linksCalm →
      ∃ t, exec (.retrainFail p) s = .next t ∧ (t.port p).st = .failed ∧ (t.port p).since = s.now ∧ (t.port p).handshakes = []) ∧
    (∀ (s : State) (p : Nat),
      (s.port p).st = .failed →
      (s.port p).since + s.retryNs ≤ s.now →
      s.linksCalm →
      ∃ t, exec (.failedRetry p) s = .next t ∧ (t.port p).st = .down) ∧
    (∀ (s : State) (e : Nat) (l : List Int) (r : List (List Int × List Nat)),
      e < 8 →
      l.length = 8 →
      (l.all fun v => decide (signed16 (s.fld Reg.cwyOptThr 15 0) ≤ v)) = true →
      s.linksCalm →
      ∃ t, exec (.laserMonitorSample e l r) s = .next t ∧ ∀ j < 4, s.hasPort (4 * e + j) = true → (t.port (4 * e + j)).laser = l ∧ (t.port (4 * e + j)).badLanes = [] ∧ (t.port (4 * e + j)).oma = (r.getD j ([], [])).1 ∧
          (t.port (4 * e + j)).st = (s.port (4 * e + j)).st)

/-- One NAK answers a discarded flit; a NAK and the replay timer send again what is not acknowledged; an ACK leaves after
64 flits or 0.5 µs, and an IDLE flit received gives its credits; QUIET_REQ is answered and taken unless QUIET is
disabled or a flit of QUERY, RESULT or PAGE waits, and SLEEP_REQ where nothing waits, their ACKs complete the entry,
RESUME and light leave it; the idle timers ask for QUIET and SLEEP, and a request without an answer is repeated. -/
def Obligations.LinkLayerCommandsComplete : Prop :=
    (∀ (s : State) (p : Nat) (x : Nat),
      s.hasPort p = true →
      (s.port p).st = .ready →
      (s.port p).naked = false →
      x < 3 →
      s.linksCalm →
      ∃ t, exec (.flitDiscard p x) s = .next t ∧ s.signals t p linkNak (((s.port p).rxSeq + 4095) % 4096) = true ∧ (t.port p).naked = true) ∧
    (∀ (s : State) (p : Nat) (x : Nat),
      s.hasPort p = true →
      (s.port p).st = .ready →
      x = 3 ∨ x = 4 ∨ (s.port p).naked = true →
      s.linksCalm →
      ∃ t, exec (.flitDiscard p x) s = .next t ∧ t.port p = s.port p ∧ (x = 4 → t.ctrs.getD (Reg.cwyFecCorrLo + cwyOff p) 0 = (s.ctrs.getD (Reg.cwyFecCorrLo + cwyOff p) 0 + 1) % 2 ^ 64)) ∧
    (∀ (s : State) (p : Nat) (f : FlitTail),
      (s.port p).st = .ready →
      ((s.port p).takeTail f s.now).unacked ≠ 0 →
      s.linksCalm →
      ∃ t, exec (.nak p f) s = .next t ∧ s.signals t p linkReplay ((s.port p).takeTail f s.now).unacked = true) ∧
    (∀ (s : State) (p : Nat),
      (s.port p).st = .ready →
      0 < (s.port p).unacked →
      (s.port p).unackedSince + max (s.fld (Reg.cwyLinkCfg + cwyOff p) 15 8) 5 * 100 ≤ s.now →
      s.linksCalm →
      ∃ t, exec (.replayTimer p) s = .next t ∧ s.signals t p linkReplay (s.port p).unacked = true ∧ (t.port p).replays = (s.port p).replays + 1) ∧
    (∀ (s : State) (p : Nat),
      (s.port p).st = .ready →
      64 ≤ (s.port p).unsentAck ∨ (0 < (s.port p).unsentAck ∧ (s.port p).ackSince + 500 ≤ s.now) →
      s.linksCalm →
      ∃ t, exec (.idleAckTimer ⟨p, none⟩) s = .next t ∧ s.signals t p linkIdle (((s.port p).rxSeq + 4095) % 4096) = true ∧ (t.port p).unsentAck = 0) ∧
    (∀ (s : State) (p : Nat) (f : FlitTail),
      (s.port p).st = .ready →
      (s.port p).txq = [] →
      s.linksCalm →
      ∃ t, exec (.idleAckTimer ⟨p, some f⟩) s = .next t ∧ (t.port p).credits = ((s.port p).takeTail f s.now).credits ∧ (t.port p).unacked = ((s.port p).takeTail f s.now).unacked ∧ (t.port p).lastFlit = s.now) ∧
    (∀ (s : State) (p : Nat) (f : FlitTail),
      (s.port p).st = .ready →
      (s.port p).power = .active →
      s.fld (Reg.cwyPortCfg + cwyOff p) 15 8 ≠ 0 →
      (((s.tailIn p f).pump p).port p).hasData = false →
      s.linksCalm →
      ∃ t, exec (.quietReq ⟨p, f⟩) s = .next t ∧ (t.port p).power = .quiet ∧ s.signals t p linkLctl 0x02 = true) ∧
    (∀ (s : State) (p : Nat) (f : FlitTail),
      (s.port p).st = .ready →
      s.fld (Reg.cwyPortCfg + cwyOff p) 15 8 = 0 ∨ (((s.tailIn p f).pump p).port p).hasData = true →
      s.linksCalm →
      ∃ t, exec (.quietReq ⟨p, f⟩) s = .next t ∧ (t.port p).power = (s.port p).power ∧ (t.port p).lctlReq = (s.port p).lctlReq) ∧
    (∀ (s : State) (p : Nat) (f : FlitTail),
      (s.port p).st = .ready →
      (s.port p).lctlReq.map Prod.fst = some true →
      (((s.tailIn p f).pump p).port p).hasData = false →
      s.linksCalm →
      ∃ t, exec (.quietAck ⟨p, f⟩) s = .next t ∧ (t.port p).power = .quiet ∧ (t.port p).lctlReq = none) ∧
    (∀ (s : State) (p : Nat) (f : FlitTail),
      (s.port p).st = .ready →
      (s.port p).power = .quiet →
      s.linksCalm →
      ∃ t, exec (.resume ⟨p, f⟩) s = .next t ∧ (t.port p).power = .active) ∧
    (∀ (s : State) (p : Nat) (f : FlitTail),
      (s.port p).st = .ready →
      (s.port p).power ≠ .sleep →
      (((s.tailIn p f).pump p).port p).txq = [] →
      s.linksCalm →
      ∃ t, exec (.sleepReq ⟨p, f⟩) s = .next t ∧ (t.port p).power = .sleep ∧ s.signals t p linkLctl 0x05 = true) ∧
    (∀ (s : State) (p : Nat) (f : FlitTail),
      (s.port p).st = .ready →
      (s.port p).lctlReq.map Prod.fst = some false →
      s.linksCalm →
      ∃ t, exec (.sleepAck ⟨p, f⟩) s = .next t ∧ (t.port p).power = .sleep ∧ (t.port p).lctlReq = none) ∧
    (∀ (s : State) (p : Nat),
      (s.port p).st = .ready →
      (s.port p).power = .active →
      s.fld (Reg.cwyPortCfg + cwyOff p) 15 8 ≠ 0 →
      (s.port p).lctlReq = none →
      (s.port p).lastData + s.fld (Reg.cwyPortCfg + cwyOff p) 15 8 * 1000 ≤ s.now →
      s.linksCalm →
      ∃ t, exec (.quietIdleTimer p) s = .next t ∧ (t.port p).lctlReq = some (true, s.now) ∧ s.signals t p linkLctl 0x01 = true) ∧
    (∀ (s : State) (p : Nat),
      (s.port p).st = .ready →
      (s.port p).power ≠ .sleep →
      (s.port p).lctlReq = none →
      s.inUse p = false →
      (s.port p).lastUse + 1000000 ≤ s.now →
      s.linksCalm →
      ∃ t, exec (.sleepIdleTimer p) s = .next t ∧ (t.port p).lctlReq = some (false, s.now) ∧ s.signals t p linkLctl 0x04 = true) ∧
    (∀ (s : State) (p : Nat) (b : Bool) (u : Nat),
      (s.port p).st = .ready →
      (s.port p).lctlReq = some (b, u) →
      u + 1000 ≤ s.now →
      s.linksCalm →
      ∃ t, exec (.lctlReqRepeat p) s = .next t ∧ (t.port p).lctlReq = some (b, s.now) ∧ s.signals t p linkLctl (if b then 0x01 else 0x04) = true) ∧
    (∀ (s : State) (p : Nat),
      (s.port p).st = .ready →
      (s.port p).power = .sleep →
      s.linksCalm →
      ∃ t, exec (.causewayWake p) s = .next t ∧ (t.port p).power = .active ∧ (t.port p).st = .retrain ∧ bit (t.reg (Evt.cwyWake.1 + cwyOff p + 0x18)) Evt.cwyWake.2 = true)

/-- A valid DISCOVER makes a LINKED port READY; a HELLO is kept for an ACCEPT 250 µs later, which draws the session
identifier; as initiator the device answers ACCEPT with FINISH; a good FINISH decides a DONE 2 µs later, which
attaches the session or lets the port join, or refuses with no session; a good DONE attaches the device as initiator
or lets its port join; a handshake without FINISH for 1 ms ends; a JOIN is judged for a DONE 2 µs later. -/
def Obligations.AttachmentCommandsComplete : Prop :=
    (∀ (s : State) (m : RxMsg),
      s.takes m 0x01 = true →
      (s.receive m none).2 = .plain →
      ((s.received m).port m.port).st = .linked →
      m.discoverValid = true →
      s.linksCalm →
      ∃ t, exec (.discover m) s = .next t ∧ (t.port m.port).st = .ready ∧ (t.port m.port).peerHash = (m.body.drop 16).take 48 ∧ (t.port m.port).peerMax = u32 m.body 96 ∧ bit (t.reg (Evt.cwyReady.1 + cwyOff m.port + 0x18)) Evt.cwyReady.2 = true) ∧
    (∀ (s : State) (m : RxMsg),
      s.attaches m 0 →
      s.linksCalm →
      ∃ t, exec (.hello m) s = .next t ∧ ((t.port m.port).handshakes.getLast?).map (fun h => (h.initiator, h.domain, h.role, h.acceptDue)) = some (false, u16 m.body 2 % 4096, u8 m.body 1, s.now + 250000) ∧
        (t.port m.port).handshakes.length = ((s.received m).port m.port).handshakes.length + 1) ∧
    (∀ (s : State) (p : Nat) (k : Nat) (h : Handshake),
      s.hs p k = some h →
      h.initiator = false →
      h.join = none →
      h.acceptSent = none →
      h.acceptDue ≤ s.now →
      s.keyRuns h.domain = true →
      s.linksCalm →
      ∃ t, exec (.accept p k) s = .next t ∧ (t.hs p k).map (fun x => (x.acceptSent, x.sessionId)) = some (some s.now, Config.sessionId s.fresh % 2 ^ 64) ∧ s.sends t p 0x02 = true) ∧
    (∀ (s : State) (m : RxMsg) (h : Handshake),
      s.attaches m 1 →
      ((s.received m).port m.port).handshakes.find? (fun h => h.initiator && h.acceptSent.isNone && h.accept.isNone && decide (h.domain = u16 m.body 2) && decide (h.ringId = u16 m.body 4)) = some h →
      m.body.length = 1860 →
      attachHeadOk m.body true = true →
      zeros m.body 1713 3 = true →
      m.tagOk = true →
      s.linksCalm →
      (s.received m).runsAtOnce ((s.received m).keyItem h.domain (.phase m.port h.id)) →
      ∃ t, exec (.acceptReceived m) s = .next t ∧ (t.hs m.port h.id).map (fun x => (x.acceptSent, x.sessionId)) = some (some s.now, u64 m.body 8) ∧ s.sends t m.port 0x02 = true) ∧
    (∀ (s : State) (m : RxMsg) (h : Handshake),
      s.attaches m 2 →
      ((s.received m).port m.port).handshakes.find? (fun h => !h.initiator && h.acceptSent.isSome && h.doneDue.isNone && decide (h.sessionId = u64 m.body 8)) = some h →
      h.malformed = false →
      m.body.length = 64 →
      attachHeadOk m.body true = true →
      (h.role = 1 → s.glb.variant.hasAttn = true) →
      h.granted = true →
      m.body.drop 16 = finMac h.prk "cwy fin i" h.th →
      s.auditTakes = true →
      s.linksCalm →
      ∃ t, exec (.finish m) s = .next t ∧ (t.hs m.port h.id).map (fun x => (x.doneDue, x.status)) = some (some (s.now + 2000), .ok)) ∧
    (∀ (s : State) (p : Nat) (k : Nat) (h : Handshake) (u : Nat) (d : Nat),
      s.hs p k = some h →
      h.doneDue = some u →
      u ≤ s.now →
      s.keyRuns h.domain = true →
      h.initiator = false →
      h.status = .ok →
      h.join = none →
      s.freeSid p = some d →
      s.linksCalm →
      ∃ t, exec (.doneSend p k) s = .next t ∧ (t.cwy.sessions.get? s.cwy.nextSess).map (fun x => (x.st, x.domain, x.role)) = some (.attached, h.domain, h.role) ∧
        (t.cwy.sessions.get? s.cwy.nextSess).map (fun x => (x.sessionId, x.ports)) = some (h.sessionId, [(p, d)]) ∧
        s.sends t p 0x02 = true) ∧
    (∀ (s : State) (p : Nat) (k : Nat) (h : Handshake) (u : Nat) (d : Nat) (i : Nat) (x : Session),
      s.hs p k = some h →
      h.doneDue = some u →
      u ≤ s.now →
      s.keyRuns h.domain = true →
      h.initiator = false →
      h.status = .ok →
      h.join = some i →
      s.freeSid p = some d →
      s.cwy.sessions.get? i = some x →
      x.st = .attached →
      x.ports.length < 8 →
      s.linksCalm →
      ∃ t, exec (.doneSend p k) s = .next t ∧ (t.cwy.sessions.get? i).map Session.ports = some (x.ports.set p d) ∧ s.sends t p 0x02 = true) ∧
    (∀ (s : State) (m : RxMsg) (h : Handshake),
      s.attaches m 3 →
      ((s.received m).port m.port).handshakes.find? (fun h => h.initiator && h.acceptSent.isSome && decide (h.sessionId = u64 m.body 8)) = some h →
      m.body.length = 64 →
      u8 m.body 6 = 0 →
      m.body.drop 16 = finMac h.prk "cwy fin r" (h.th ++ leBytes 1 0) →
      1 ≤ u8 m.body 7 →
      u8 m.body 7 ≤ 16 →
      s.sessionOf m.port (u8 m.body 7) = none →
      h.join = none →
      s.linksCalm →
      ∃ t, exec (.doneReceived m) s = .next t ∧ (t.cwy.sessions.get? s.cwy.nextSess).map (fun x => (x.st, x.domain, x.initiator, x.ports)) = some (.attached, h.domain, true, [(m.port, u8 m.body 7)])) ∧
    (∀ (s : State) (p : Nat) (k : Nat) (h : Handshake) (u : Nat),
      s.hs p k = some h →
      h.doneDue = some u →
      u ≤ s.now →
      s.keyRuns h.domain = true →
      h.initiator = false →
      h.status ≠ .ok ∨ s.freeSid p = none →
      s.linksCalm →
      ∃ t, exec (.doneSend p k) s = .next t ∧ s.sends t p 0x02 = true ∧ t.cwy.sessions = s.cwy.sessions) ∧
    (∀ (s : State) (m : RxMsg) (h : Handshake) (i : Nat) (x : Session),
      s.attaches m 3 →
      ((s.received m).port m.port).handshakes.find? (fun h => h.initiator && h.acceptSent.isSome && decide (h.sessionId = u64 m.body 8)) = some h →
      s.doneOk m.port h m.body = true →
      h.join = some i →
      s.cwy.sessions.get? i = some x →
      x.st = .attached →
      x.ports.length < 8 →
      s.linksCalm →
      ∃ t, exec (.doneReceived m) s = .next t ∧ (t.cwy.sessions.get? i).map Session.ports = some (x.ports.set m.port (u8 m.body 7))) ∧
    (∀ (s : State) (p : Nat) (k : Nat) (h : Handshake) (u : Nat),
      s.hs p k = some h →
      h.acceptSent = some u →
      h.doneDue = none →
      h.initiator = false →
      u + 1000000 ≤ s.now →
      s.linksCalm →
      ∃ t, exec (.handshakeTimeout p k) s = .next t ∧ t.hs p k = none ∧ t.countOf h.domain (Reg.cwyAttachFailLo + cwyOff p) = (s.countOf h.domain (Reg.cwyAttachFailLo + cwyOff p) + 1) % 2 ^ 64) ∧
    (∀ (s : State) (m : RxMsg),
      s.attaches m 4 →
      s.linksCalm →
      ∃ t, exec (.join m) s = .next t ∧ ((t.port m.port).handshakes.getLast?).map (fun h => (h.initiator, h.sessionId, h.doneDue)) = some (false, u64 m.body 8, some (s.now + 2000)) ∧
        (t.port m.port).handshakes.length = ((s.received m).port m.port).handshakes.length + 1)

/-- A DETACH REQUEST puts the session into DETACHING, and one with reason 4 ends it; a DONE ends it once every message has
come; a failed check of the tag or CTR ends it with its error; a KEEPALIVE or an ERROR keeps the port alive; the
timers send a KEEPALIVE; a silent port leaves and a silent detach ends; an unknown type is answered with E_FORMAT; a
STEP_MARK outside the timing session is refused with its event, one of a source that is not selected is counted, and
one that resynchronises sets the epoch number. -/
def Obligations.SessionCommandsComplete : Prop :=
    (∀ (s : State) (m : RxMsg) (i : Nat),
      s.passes m 0x03 i →
      u8 m.body 0 = 0 →
      detachOk m.body = true →
      u8 m.body 1 = 0 →
      u8 m.body 2 ≠ 4 →
      ((s.received m).cwy.sessions.get? i).map Session.doneRecv = some none →
      s.linksCalm →
      ∃ t, exec (.detachRequest m) s = .next t ∧ (t.cwy.sessions.get? i).map (fun x => (x.st, x.peerLast)) = some (.detaching, some (u32 m.body 4))) ∧
    (∀ (s : State) (m : RxMsg) (i : Nat),
      s.passes m 0x03 i →
      u8 m.body 0 = 0 →
      detachOk m.body = true →
      u8 m.body 2 = 4 →
      s.linksCalm →
      ∃ t, exec (.detachRequest m) s = .next t ∧ t.cwy.sessions.get? i = none) ∧
    (∀ (s : State) (m : RxMsg) (i : Nat) (x : Session),
      s.passes m 0x03 i →
      u8 m.body 0 = 0 →
      detachOk m.body = true →
      u8 m.body 1 = 1 →
      u8 m.body 2 ≠ 4 →
      (s.received m).cwy.sessions.get? i = some x →
      1 < x.ports.length →
      s.linksCalm →
      ∃ t, exec (.detachRequest m) s = .next t ∧ (t.cwy.sessions.get? i).map (fun y => y.ports.has m.port) = some false) ∧
    (∀ (s : State) (m : RxMsg) (i : Nat) (x : Session),
      s.passes m 0x03 i →
      u8 m.body 0 = 1 →
      detachOk m.body = true →
      (s.received m).cwy.sessions.get? i = some x →
      x.doneSent = true →
      msnAhead x.ackMsn (u32 m.body 4) < 2 ^ 31 →
      s.noRings ∧ s.portsSee →
      ∃ t, exec (.detachDone m) s = .next t ∧ t.cwy.sessions.get? i = none) ∧
    (∀ (s : State) (m : RxMsg) (i : Nat) (x : Session),
      s.takes m m.head.mtype = true →
      m.wellFormed = true →
      m.head.sid ≠ 0 →
      s.sessionOf m.port m.head.sid = some i →
      s.cwy.sessions.get? i = some x →
      x.domain ≠ 0 →
      roleSends x.role m.head.mtype = true →
      m.tagOk = false →
      s.linksCalm →
      ∃ t, exec (.integrityFail m) s = .next t ∧ t.cwy.sessions.get? i = none ∧ bit (t.reg (Err.cwyIntegrity.1 + cwyOff m.port + 0x10)) Err.cwyIntegrity.2 = true) ∧
    (∀ (s : State) (m : RxMsg) (i : Nat),
      s.passes m 0x04 i →
      m.body.length = 8 →
      zeros m.body 4 4 = true →
      s.linksCalm →
      ∃ t, exec (.keepalive m) s = .next t ∧ (t.cwy.sessions.get? i).map (fun x => x.lastRx.getD m.port 0) = some s.now ∧ t.cwy.sessions = (s.received m).cwy.sessions) ∧
    (∀ (s : State) (m : RxMsg) (i : Nat),
      s.passes m 0x3F i →
      s.linksCalm →
      ∃ t, exec (.error m) s = .next t ∧ t.cwy.sessions = (s.received m).cwy.sessions ∧ (t.cwy.sessions.get? i).map (fun x => x.lastRx.getD m.port 0) = some s.now) ∧
    (∀ (s : State) (i : Nat) (p : Nat) (x : Session),
      s.cwy.sessions.get? i = some x →
      s.usable x p = true →
      (s.port p).power ≠ .sleep →
      x.lastTx.getD p 0 + s.kaNs ≤ s.now →
      s.linksCalm →
      ∃ t, exec (.keepaliveSend i p) s = .next t ∧ t.tells i 0x04 (leBytes 4 x.kaSeq ++ leBytes 4 0) = true ∧ (t.cwy.sessions.get? i).map Session.kaSeq = some ((x.kaSeq + 1) % 2 ^ 32)) ∧
    (∀ (s : State) (i : Nat) (p : Nat) (x : Session),
      s.cwy.sessions.get? i = some x →
      x.st = .detaching →
      x.detachSince + 4 * s.kaNs ≤ s.now →
      s.noRings ∧ s.portsSee →
      ∃ t, exec (.keepaliveExpiry i p) s = .next t ∧ t.cwy.sessions.get? i = none) ∧
    (∀ (s : State) (i : Nat) (p : Nat) (x : Session),
      s.cwy.sessions.get? i = some x →
      x.st = .attached →
      x.ports.has p = true →
      (s.port p).power ≠ .sleep →
      (s.port p).woken = false →
      x.lastRx.getD p 0 + 4 * s.kaNs ≤ s.now →
      s.linksCalm →
      ∃ t, exec (.keepaliveExpiry i p) s = .next t ∧ (t.cwy.sessions.get? i).map (fun y => y.ports.has p) = if x.ports.length = 1 then none else some false) ∧
    (∀ (s : State) (i : Nat) (x : Session),
      s.cwy.sessions.get? i = some x →
      64 ≤ x.unsentAcks ∨ (0 < x.unsentAcks ∧ x.ackOldest + 2000 ≤ s.now) →
      s.linksCalm →
      ∃ t, exec (.ackMsnTimer i) s = .next t ∧ t.tells i 0x04 (leBytes 4 x.kaSeq ++ leBytes 4 0) = true) ∧
    (∀ (s : State) (m : RxMsg) (i : Nat) (app : Bool),
      s.badType m = true →
      s.takes m m.head.mtype = true →
      app = decide (m.head.mtype = 0x10 ∧ 12 < m.body.length) →
      m.head.sid ≠ 0 →
      s.sessionOf m.port m.head.sid = some i →
      s.linksCalm →
      ∃ t, exec (.unknownMtype m) s = .next t ∧ t.tells i 0x3F (errorBody m.head.msn m.head.mtype Status.format.code (if app then u16 m.body 4 else 0) (if app then u32 m.body 0 else 0) (if app then u32 m.body 8 else 0)) = true) ∧
    (∀ (s : State) (m : RxMsg),
      s.badType m = true →
      s.takes m m.head.mtype = true →
      m.head.sid = 0 ∨ s.sessionOf m.port m.head.sid = none →
      s.linksCalm →
      ∃ t, exec (.unknownMtype m) s = .next t ∧ s.sends t m.port 0x3F = true) ∧
    (∀ (s : State) (m : RxMsg) (i : Nat),
      s.passes m 0x30 i →
      bit (s.reg Reg.cwyGcfg) 31 = false ∨ bits (s.reg Reg.cwyGcfg) 25 21 ≠ m.port ∨ ((s.received m).cwy.sessions.get? i).map (fun x => x.timing && decide (x.role = 0)) ≠ some true →
      ∃ t, exec (.stepMark m) s = .next t ∧ t.pwr.epoch = s.pwr.epoch ∧ bit (t.reg (Evt.cwySmRefused.1 + cwyOff m.port + 0x18)) Evt.cwySmRefused.2 = true) ∧
    (∀ (s : State) (m : RxMsg) (i : Nat),
      s.passes m 0x30 i →
      bit (s.reg Reg.cwyGcfg) 31 = true →
      bits (s.reg Reg.cwyGcfg) 25 21 = m.port →
      ((s.received m).cwy.sessions.get? i).map (fun x => x.timing && decide (x.role = 0)) = some true →
      m.body.length = 24 →
      zeros m.body 6 2 = true →
      zeros m.body 20 4 = true →
      s.smSrc ≠ 2 →
      ∃ t, exec (.stepMark m) s = .next t ∧ t.pwr.epoch = s.pwr.epoch ∧ t.ctrs.getD Reg.pwrSmOtherLo 0 = (s.ctrs.getD Reg.pwrSmOtherLo 0 + 1) % 2 ^ 64) ∧
    (∀ (s : State) (m : RxMsg) (i : Nat),
      s.passes m 0x30 i →
      bit (s.reg Reg.cwyGcfg) 31 = true →
      bits (s.reg Reg.cwyGcfg) 25 21 = m.port →
      ((s.received m).cwy.sessions.get? i).map (fun x => x.timing && decide (x.role = 0)) = some true →
      m.body.length = 24 →
      zeros m.body 6 2 = true →
      zeros m.body 20 4 = true →
      s.smSrc = 2 →
      s.pwr.live = true →
      s.now < s.pwr.planned →
      s.pwr.resync = true →
      ∃ t, exec (.stepMark m) s = .next t ∧ t.pwr.epoch = max (field m.body 0 6) (s.pwr.epoch + 1) ∧ t.pwr.resync = false ∧ t.pwr.start = s.now)

/-- For every command c and state s: a step of a state whose queue begins with c is exec of c on the state with the rest
of the queue. The queue is the model’s form of the order in which commands reach the block; each command is one whole
step. -/
def Obligations.StepTakesTheFrontCommand : Prop :=
    ∀ (s : State) (c : Instr) (q : List Instr), s.pending = c :: q → step s = exec c { s with pending := q }

/-- With no command waiting a step advances DEV_TIME: by one nanosecond without PTP discipline, and never backwards with
it (R19); while PWRGOOD is low nothing changes. That a tick is what an empty queue does is a choice of the model (log
entry 71). -/
def Obligations.EmptyQueueTicksTheClock : Prop :=
    (∀ s : State, s.pending = [] → step s = .next s.tick ∧ s.now ≤ s.tick.now ∧ (s.glb.phase = .off → s.tick = s) ∧
      (s.glb.phase ≠ .off → bit (s.reg Reg.clkPtpCfg) 31 = false → s.tick = { s with now := s.now + 1 })) ∧
    (∀ (s t : State), step s = .next t → s.pending = [] → t = { s with now := t.now, pwr := { s.pwr with phase := t.pwr.phase } })

/-- No command waits and nothing has been given out; DEV_TIME is 0 and memory lists nothing; every register reads the
reset value of its table, PWR_ENVELOPE the reference envelope of the variant; no counter has counted; every island is
OFF; no domain, function binding, sequence, model, session, ring slot, move, search or step exists; no priority runs.
That start-up is under way with an image in slot A, and the variant, are choices of the model (log entries 2 and 3). -/
def Obligations.ResetStateHoldsResetValues : Prop :=
    State.reset.pending = [] ∧ State.reset.outs = [] ∧ State.reset.now = 0 ∧ State.reset.mem = [] ∧
    (∀ a, State.reset.reg a = if a = Reg.pwrEnvelope then resetAt a + State.reset.glb.variant.envelope else resetAt a) ∧
    (∀ c, State.reset.ctrs.getD c 0 = 0) ∧ (∀ n, State.reset.island n = .off) ∧
    State.reset.lve.doms = [] ∧ State.reset.hif.funcs = [] ∧ State.reset.xlt.seqs = [] ∧ State.reset.xlt.models = [] ∧ State.reset.xlt.objs = [] ∧
    State.reset.xlt.bds = [] ∧ State.reset.cwy.sessions = [] ∧ State.reset.cwy.slots = [] ∧ State.reset.slc.moves = [] ∧ State.reset.slc.places = [] ∧
    State.reset.rbd.searches = [] ∧ State.reset.att.steps = [] ∧ State.reset.evc.running = [] ∧ State.reset.evc.soft = [] ∧
    (∀ p, (State.reset.port p).st = .down) ∧ State.reset.glb.phase = .startup ∧ State.reset.glb.slotA = some firstImage ∧ State.reset.glb.variant = .a8x4

/-- The state after reset has memory in its canonical form, and its hold-off groups follow its pending sources: none is
pending and all are idle (R365). -/
def Obligations.ResetStateIsLegal : Prop :=
    State.reset.memOk ∧ State.reset.groupsFollow

/-- From every state whose memory is in canonical form (addresses strictly rising, no entry equal to what an unlisted byte
reads as) every step, of whichever command, leads to such a state, so that equal memories are equal data. -/
def Obligations.EveryStepKeepsMemoryCanonical : Prop :=
    ∀ s t : State, s.memOk → step s = .next t → t.memOk

/-- From every state in which the hold-off groups that are not idle are exactly the groups that have a pending source
(none during a warm reset of the event controller), every step leads to such a state (R365). -/
def Obligations.EveryStepKeepsGroupsFollowing : Prop :=
    ∀ s t : State, s.groupsFollow → step s = .next t → t.groupsFollow

/-- exec acts on everything but the queue of waiting commands. REGISTER_WRITE and LOW_WORD_READ stop, with noSuchAddress,
exactly at an address beyond BAR0 and every BAR2 window (R26); every other command, in every state and for every
operand, answers a next state. -/
def Obligations.EveryCommandLeavesTheQueue : Prop :=
    (∀ (i : Instr) (s t : State), exec i s = .next t → t.pending = s.pending) ∧
    (∀ (i : Instr) (s : State), (∃ t, exec i s = .next t) ∨ (∃ a w, i = .registerWrite a w ∧ addrExists a = false) ∨
      (∃ o a be, i = .lowWordRead o a be ∧ addrExists a = false)) ∧
    (∀ (s : State) (a : Nat) (w : RegWrite), addrExists a = false → exec (.registerWrite a w) s = .fault .noSuchAddress) ∧
    (∀ (s : State) (o : Origin) (a be : Nat), addrExists a = false → exec (.lowWordRead o a be) s = .fault .noSuchAddress)

/-- The commands of the budget scheduler, the clocks and the sensors (scope budget), of epochs and Step Mark (mark), of
Peat on its flash (flash), of erasure after a teardown, of the end of start-up, of updates, pins and management
sessions (board) change the parts of the state in their scope alone, as Instr.scope lists the commands and Scope the
parts. Nothing outside the named units changes: no register, counter or table of another unit, no byte of memory, no
time, no queue; the hold-off groups alone follow the pending sources (R365). -/
def Obligations.PowerFlashAndBoardCommandsKeepTheirScope : Prop :=
    ∀ (i : Instr) (c : Scope) (s t : State), i.scope = some c → (c = .flash ∨ c = .erasure ∨ c = .startup ∨ c = .budget ∨ c = .update ∨ c = .mark ∨ c = .board) →
      exec i s = .next t → s.keeps i c t

/-- The commands of the host link, the functions and the event controller (scope host), those that only answer (answer:
NOP, COMMAND_FETCH, SEQ_QUERY, DOM_STATUS and others), those on the tables of models, sequences, objects and slots and
on the log (command), and those of Levee (levee, trust, channel) change the parts of the state in their scope alone,
as Instr.scope lists them. Nothing outside the named units changes: no register, counter or table of another unit, no
byte of memory, no time, no queue; the hold-off groups alone follow the pending sources (R365). -/
def Obligations.HostAndLeveeCommandsKeepTheirScope : Prop :=
    ∀ (i : Instr) (c : Scope) (s t : State), i.scope = some c → (c = .host ∨ c = .answer ∨ c = .levee ∨ c = .command ∨ c = .trust ∨ c = .channel) →
      exec i s = .next t → s.keeps i c t

/-- The commands of ports, links, sessions and rings of devices (scope link) change Causeway, the sequences and the steps
of rings, the host rings, the audit log, fault state, islands, registers, counters and outputs alone: no frame, no
move, no index row, no flash state, no domain, no calibration or image. Nothing outside the named units changes: no
register, counter or table of another unit, no byte of memory, no time, no queue; the hold-off groups alone follow the
pending sources (R365). -/
def Obligations.CausewayCommandsKeepTheirScope : Prop :=
    ∀ (i : Instr) (c : Scope) (s t : State), i.scope = some c → (c = .link) →
      exec i s = .next t → s.keeps i c t

/-- The commands of the tiers, of appends and of the attention engine (scopes engine and store), of Reedbed (search,
lookup, index), of field tests (tests), and the end of a teardown change the parts of the state in their scope alone,
as Instr.scope lists them; of memory they change nothing unless they are among those that store (Instr.storesMem).
Nothing outside the named units changes: no register, counter or table of another unit, no byte of memory, no time, no
queue; the hold-off groups alone follow the pending sources (R365). -/
def Obligations.StoreAndSearchCommandsKeepTheirScope : Prop :=
    ∀ (i : Instr) (c : Scope) (s t : State), i.scope = some c → (c = .engine ∨ c = .store ∨ c = .search ∨ c = .lookup ∨ c = .index ∨ c = .tests ∨ c = { Scope.search with lve := true, aud := true }) →
      exec i s = .next t → s.keeps i c t

/-- A write that is a row of its own changes registers, counters, outputs, the refusal record, the audit log, the islands
and budgets and the host rings, and besides the one unit that its register commands; a read changes the latches, the
read side effects and the counter of free values. Warm resets, monitor trips and the general register write may reach
every unit, but no latched word. Nothing outside the named units changes: no register, counter or table of another
unit, no byte of memory, no time, no queue; the hold-off groups alone follow the pending sources (R365). -/
def Obligations.RegisterCommandsKeepTheirScope : Prop :=
    ∀ (i : Instr) (c : Scope) (s t : State), i.scope = some c → (c = .row ∨ c = .rowEngine ∨ c = .reading ∨ c = .device ∨ c = { Scope.row with mgmt := true, flt := true } ∨ c = { Scope.row with att := true, flt := true } ∨ c = { Scope.row with pea := true } ∨ c = { Scope.row with flt := true, cwy := true } ∨ c = { Scope.row with evc := true } ∨ c = { Scope.row with xlt := true } ∨ c = { Scope.row with rbd := true } ∨ c = { Scope.row with slc := true }) →
      exec i s = .next t → s.keeps i c t

/-- The start of a move’s commit stores the staged bytes at the home that the move names as destination where that is in
T0, unless the write failed or the frame holds metadata, and nothing elsewhere. A block that crosses to T1 or T2, of a
move or from the compressor, is stored at its place in the frame of destination and nowhere else. Dispatch, commit,
time-out and placement store nothing while no command waits for space. OBJ_WRITE stores page by page into the homes
that the mapping of its pages gives, T3 aside, and nothing elsewhere, where no block of an earlier OBJ_WRITE waits.
The end of a teardown zeroes the extents of its domain in T0 to T2 and stores nothing elsewhere. A reset that clears
T0 leaves the other tiers. -/
def Obligations.StoresGoToTheirAddressesAlone : Prop :=
    (∀ (s t : State) (n : Nat) (f : Bool) (m : Move) (a : Nat), s.memOk → s.moveIn n .write = some m → ¬ (f = false ∧ m.dst.tier = 0 ∧ s.xlt.metas.has m.frame = false ∧ inFrame m.dst (m.staged.take m.bytes).length a) → exec (.moveCommitStart n f) s = .next t →
      Memory.read t.mem a = Memory.read s.mem a) ∧
    (∀ (s t : State) (q : CmdRef) (c : InFlight) (inp : List Byte) (n : Nat) (x : Obj) (a : Nat), s.memOk → s.offersXlt q 0x29 c → inp.length = c.inLen → (s.slc.objWrites.all fun w => w.blocks.isEmpty) = true → s.findObj (s.ringDomain q) (u32 c.ops 0) = .ok (n, x) → ∀ u p e, (s.markStarted q).mapPages n x (u8 c.ops 12) ((List.range (u32 c.ops 8)).map (u32 c.ops 4 + ·)) = some u →
        ((u.xlt.objs.get? n).bind fun o => o.map.get? p) = some e → e.home.tier ≠ 3 → ¬ inFrame e.home (4096 * 2 ^ x.fc) a → exec (.objWrite q (.bytes inp)) s = .next t →
      Memory.read t.mem a = Memory.read s.mem a) ∧
    (∀ (s t : State) (n : Nat) (r : MediaRead) (m : Move) (a : Nat), s.memOk → s.moveIn n .read = some m → ¬ (m.dst.tier ≠ 0 ∧ m.dst.tier ≠ 3 ∧ inFrame m.dst m.bytes a) → exec (.moveWrite n r) s = .next t →
      Memory.read t.mem a = Memory.read s.mem a) ∧
    (∀ (s t : State) (ue : Bool) (b : SdgBlock) (a : Nat), s.memOk → (s.slc.objWrites.all fun w => w.blocks.isEmpty) = true → s.sdg.queue.head? = some b → b.data.length = 4096 → ¬ inFrame { b.dst with addr := b.dst.addr + 8 * b.index } 4096 a → exec (.sedgeCompress ue) s = .next t →
      Memory.read t.mem a = Memory.read s.mem a) ∧
    (∀ (s t : State) (n : Nat) (a : Nat), s.memOk → s.slc.spaceCmds = [] → exec (.moveCommit n) s = .next t →
      Memory.read t.mem a = Memory.read s.mem a) ∧
    (∀ (s t : State) (a : Nat), s.memOk → s.slc.spaceCmds = [] → exec (.dispatch) s = .next t →
      Memory.read t.mem a = Memory.read s.mem a) ∧
    (∀ (s t : State) (n : Nat) (a : Nat), s.memOk → s.slc.spaceCmds = [] → exec (.tierTimeout n) s = .next t →
      Memory.read t.mem a = Memory.read s.mem a) ∧
    (∀ (s t : State) (q : CmdRef) (a : Nat), s.memOk → s.slc.spaceCmds = [] → exec (.slcPlace q) s = .next t →
      Memory.read t.mem a = Memory.read s.mem a) ∧
    (∀ (s t : State) (d : Nat) (a : Nat), s.memOk → ∀ e ∈ s.extentsOf d, e.1.tier ≠ 3 → ¬ inFrame e.1 e.2 a → exec (.teardownScrubDone d) s = .next t →
      Memory.read t.mem a = Memory.read s.mem a) ∧
    (∀ (s t : State) (d : Nat) (y : Teardown) (e : Home × Nat) (a : Nat), s.memOk → (s.dom d).teardown = some y → y.erased = true → ((s.extentsOf d).all fun e => s.answers e.1) = true → e ∈ (s.handOverTables d).extentsOf d → e.1.tier ≠ 3 → inFrame e.1 e.2 a → exec (.teardownScrubDone d) s = .next t →
      Memory.read t.mem a = 0#8) ∧
    (∀ (s t : State) (f : FuseScan) (a : Nat), s.memOk → 2 ^ 56 ≤ a → exec (.powerOn f) s = .next t →
      Memory.read t.mem a = Memory.read s.mem a) ∧
    (∀ (s t : State) (f : FuseScan) (a : Nat), s.memOk → 2 ^ 56 ≤ a → exec (.deviceReset f) s = .next t →
      Memory.read t.mem a = Memory.read s.mem a)

/-- An append record that falls into open pages, on either path or once its hold ends, leaves memory as the patches of
segPatches make it, written one head group after another into the frames of its pages and nowhere else; one that
waits, or that an uncorrectable error in the append datapath ends (R85), stores nothing. A held truncate that proceeds
with nothing waiting behind it, and a stall that ends for a step or a delivery, store nothing. -/
def Obligations.AppendsStoreTheirPatchesAlone : Prop :=
    (∀ (s t : State) (q : CmdRef) (c : InFlight) (inp : List Byte) (i : Nat) (x : Seq), s.offersXlt q 0x18 c → inp.length = c.inLen → s.noPlacements → s.takesRecord (s.ringDomain q) inp i x → (x.held.any fun h => h.rc.layer == u16 inp 4) = false → s.opensFor i x (appendRec (s.modelOf x) inp) false → s.runsAtOnce (s.recordItem i x (.ring q) (appendRec (s.modelOf x) inp)) → exec (.cmdKvAppend q ⟨.bytes inp, false⟩) s = .next t →
      t.mem = Memory.canon (s.storeRecord x (appendRec (s.modelOf x) inp)).mem) ∧
    (∀ (s t : State) (m : RxMsg) (i : Nat) (n : Nat) (x : Seq), s.passes m 0x10 i → (s.received m).serves .xlt = true → (s.received m).linksCalm → (s.received m).noPlacements → (s.received m).takesRecord ((s.received m).domainOf (m.requester i)) m.body n x → (x.held.any fun h => h.rc.layer == u16 m.body 4) = false → (s.received m).opensFor n x (appendRec ((s.received m).modelOf x) m.body) false → (s.received m).runsAtOnce ((s.received m).recordItem n x (m.requester i) (appendRec ((s.received m).modelOf x) m.body)) → exec (.kvAppend ⟨m, false⟩) s = .next t →
      t.mem = Memory.canon ((s.received m).storeRecord x (appendRec ((s.received m).modelOf x) m.body)).mem) ∧
    (∀ (s t : State) (q : CmdRef) (c : InFlight) (inp : List Byte) (i : Nat) (x : Seq), s.offersXlt q 0x18 c → inp.length = c.inLen → s.noPlacements → s.takesRecord (s.ringDomain q) inp i x → s.opensFor i x (appendRec (s.modelOf x) inp) false → exec (.cmdKvAppend q ⟨.bytes inp, true⟩) s = .next t →
      t.mem = Memory.canon s.mem) ∧
    (∀ (s t : State) (q : CmdRef) (c : InFlight) (inp : List Byte) (i : Nat) (x : Seq) (ue : Bool), s.offersXlt q 0x18 c → inp.length = c.inLen → s.noPlacements → s.takesRecord (s.ringDomain q) inp i x → (x.held.any fun h => h.rc.layer == u16 inp 4) = true → exec (.cmdKvAppend q ⟨.bytes inp, ue⟩) s = .next t →
      t.mem = Memory.canon s.mem) ∧
    (∀ (s t : State) (i : Nat) (x : Seq) (n : Nat) (h : HeldRec), s.serves .xlt = true → s.noPlacements → s.mayBegin (.rescale i n) = true → s.releaseTurn (.held i n) = true → s.seq? i = some x → x.held.filter (fun y => y.rc.layer == n) = [h] → s.tailForeign x n (h.rc.pos / 16) = false → s.opensFor i x h.rc h.before → s.waits (.record i n h.rc.pos) = false → exec (.heldRecordWrite i ⟨n, true⟩) s = .next t →
      t.mem = Memory.canon s.mem) ∧
    (∀ (s t : State) (i : Nat) (x : Seq) (n : Nat) (h : HeldRec), s.serves .xlt = true → s.noPlacements → s.mayBegin (.rescale i n) = true → s.releaseTurn (.held i n) = true → s.seq? i = some x → x.held.filter (fun y => y.rc.layer == n) = [h] → s.tailForeign x n (h.rc.pos / 16) = false → s.opensFor i x h.rc h.before → s.waits (.record i n h.rc.pos) = false → exec (.heldRecordWrite i ⟨n, false⟩) s = .next t →
      t.mem = Memory.canon (s.storeRecord x h.rc).mem) ∧
    (∀ (s t : State) (n : Nat) (y : Stall), s.slc.stalls[n]? = some y → (∀ i l, y.who ≠ .held i l) → exec (.stallEnd n) s = .next t →
      t.mem = Memory.canon s.mem) ∧
    (∀ (s t : State) (i : Nat), ((s.seq? i).all fun x => x.waiting.isEmpty) = true → exec (.truncateRelease i) s = .next t →
      t.mem = Memory.canon s.mem)

/-- MODEL_REGISTER and MODEL_RELEASE change no table of the translation unit but the models, and of those no entry but the
one of the command’s domain and tag. SEQ_CREATE changes the sequences alone and no sequence that is not RETIRED;
SEQ_RETIRE changes the sequence that its handle names alone. OBJ_CREATE changes no live object and OBJ_SEAL the object
that its handle names alone. RING_LEAVE changes no table and the slot of its ring alone. NOP, SEQ_QUERY and
DOM_STATUS, while their units serve, change what answers them alone: the ring, the counters of completions and what is
given out. Each of them changes no ring of the host but its own. -/
def Obligations.TableCommandsChangeTheirEntryAlone : Prop :=
    (∀ (s t : State) (q : CmdRef) (h : HostRead), exec (.modelRegister q h) s = .next t →
      t.xlt = { s.xlt with models := t.xlt.models } ∧ ∀ k, (∀ c, s.startable q 0x01 = some c → k ≠ (s.ringDomain q, u16 c.ops 0)) → t.xlt.models.get? k = s.xlt.models.get? k ∧ (∀ f k, (f ≠ q.func ∨ k ≠ q.ring) → t.ring f k = s.ring f k)) ∧
    (∀ (s t : State) (q : CmdRef), exec (.modelRelease q) s = .next t →
      t.xlt = { s.xlt with models := t.xlt.models } ∧ ∀ k, (∀ c, s.startable q 0x02 = some c → k ≠ (s.ringDomain q, u16 c.ops 0)) → t.xlt.models.get? k = s.xlt.models.get? k ∧ (∀ f k, (f ≠ q.func ∨ k ≠ q.ring) → t.ring f k = s.ring f k)) ∧
    (∀ (s t : State) (q : CmdRef), exec (.seqCreate q) s = .next t →
      t.xlt = { s.xlt with seqs := t.xlt.seqs } ∧ (∀ i x, s.seq? i = some x → x.st ≠ .retired → t.seq? i = some x) ∧ (∀ f k, (f ≠ q.func ∨ k ≠ q.ring) → t.ring f k = s.ring f k)) ∧
    (∀ (s t : State) (q : CmdRef), exec (.seqRetire q) s = .next t →
      t.xlt = { s.xlt with seqs := t.xlt.seqs } ∧ (∀ i, (∀ c x, s.startable q 0x09 = some c → s.findSeq (s.ringDomain q) (u32 c.ops 0) ≠ .ok (i, x)) → t.seq? i = s.seq? i) ∧ (∀ f k, (f ≠ q.func ∨ k ≠ q.ring) → t.ring f k = s.ring f k)) ∧
    (∀ (s t : State) (q : CmdRef), exec (.objCreate q) s = .next t →
      t.xlt = { s.xlt with objs := t.xlt.objs } ∧ (∀ i x, s.xlt.objs.get? i = some x → x.live = true → t.xlt.objs.get? i = some x) ∧ (∀ f k, (f ≠ q.func ∨ k ≠ q.ring) → t.ring f k = s.ring f k)) ∧
    (∀ (s t : State) (q : CmdRef), exec (.objSeal q) s = .next t →
      t.xlt = { s.xlt with objs := t.xlt.objs } ∧ (∀ i, (∀ c x, s.startable q 0x2A = some c → s.findObj (s.ringDomain q) (u32 c.ops 0) ≠ .ok (i, x)) → t.xlt.objs.get? i = s.xlt.objs.get? i) ∧ (∀ f k, (f ≠ q.func ∨ k ≠ q.ring) → t.ring f k = s.ring f k)) ∧
    (∀ (s t : State) (q : CmdRef), exec (.ringLeave q) s = .next t →
      t.xlt = s.xlt ∧ t.cwy = { s.cwy with slots := t.cwy.slots } ∧ (∀ i, (∀ c x, s.startable q 0x39 = some c → s.ringSlot (s.ringDomain q) (u16 c.ops 0) ≠ some (i, x)) → t.slot i = s.slot i) ∧ (∀ f k, (f ≠ q.func ∨ k ≠ q.ring) → t.ring f k = s.ring f k)) ∧
    (∀ (s t : State) (q : CmdRef), s.serves .xlt = true → s.serves .lve = true → exec (.nop q) s = .next t →
      t = { s with regs := t.regs, ctrs := t.ctrs, outs := t.outs, hif := t.hif, evc := { s.evc with groups := t.evc.groups } } ∧
      (∀ f k, (f ≠ q.func ∨ k ≠ q.ring) → t.ring f k = s.ring f k)) ∧
    (∀ (s t : State) (q : CmdRef), s.serves .xlt = true → s.serves .lve = true → exec (.seqQuery q) s = .next t →
      t = { s with regs := t.regs, ctrs := t.ctrs, outs := t.outs, hif := t.hif, evc := { s.evc with groups := t.evc.groups } } ∧
      (∀ f k, (f ≠ q.func ∨ k ≠ q.ring) → t.ring f k = s.ring f k)) ∧
    (∀ (s t : State) (q : CmdRef), s.serves .xlt = true → s.serves .lve = true → exec (.domStatus q) s = .next t →
      t = { s with regs := t.regs, ctrs := t.ctrs, outs := t.outs, hif := t.hif, evc := { s.evc with groups := t.evc.groups } } ∧
      (∀ f k, (f ≠ q.func ∨ k ≠ q.ring) → t.ring f k = s.ring f k))

/-- A write that is a row of its own changes, among the stored registers, the one that it writes and the PG_ERR and PG_EVT
of pages, and no other: the routes, hold-offs and pending bits of the event controller, the region and staging
registers, quotas, epoch, histogram and clock registers, STANDBY, the T2 window, the CXL ports, LOCKSTEP, calibration,
RELEASE, CKPT_NOW, FORMAT, RESTORE, the reset control and the ring configuration. -/
def Obligations.RegisterRowsChangeTheirRegisterAlone : Prop :=
    (∀ (s t : State) (n : Nat) (w : RegWrite) (b : Nat), b ≠ routeAddr n → b % 4096 ≠ 16 → b % 4096 ≠ 24 → exec (.evcRouteWrite n w) s = .next t →
      t.reg b = s.reg b) ∧
    (∀ (s t : State) (n : Nat) (w : RegWrite) (b : Nat), b ≠ Reg.evcHold + 4 * n → b % 4096 ≠ 16 → b % 4096 ≠ 24 → exec (.evcHoldWrite n w) s = .next t →
      t.reg b = s.reg b) ∧
    (∀ (s t : State) (n : Nat) (w : RegWrite) (b : Nat), b ≠ Reg.evcPend + 4 * n → b % 4096 ≠ 16 → b % 4096 ≠ 24 → exec (.evcPendClear n w) s = .next t →
      t.reg b = s.reg b) ∧
    (∀ (s t : State) (w : RegWrite) (b : Nat), b ≠ Reg.evcEoi → b % 4096 ≠ 16 → b % 4096 ≠ 24 → exec (.evcEoi w) s = .next t →
      t.reg b = s.reg b) ∧
    (∀ (s t : State) (w : RegWrite) (b : Nat), b ≠ Reg.evcSwset → b % 4096 ≠ 16 → b % 4096 ≠ 24 → exec (.evcSwset w) s = .next t →
      t.reg b = s.reg b) ∧
    (∀ (s t : State) (n : Nat) (w : RegWrite) (b : Nat), b ≠ n → b % 4096 ≠ 16 → b % 4096 ≠ 24 → exec (.xltPtrBaseWrite n w) s = .next t →
      t.reg b = s.reg b) ∧
    (∀ (s t : State) (w : RegWrite) (b : Nat), b ≠ Reg.xltPtrSize → b % 4096 ≠ 16 → b % 4096 ≠ 24 → exec (.xltPtrSizeWrite w) s = .next t →
      t.reg b = s.reg b) ∧
    (∀ (s t : State) (n : Nat) (w : RegWrite) (b : Nat), b ≠ n → b % 4096 ≠ 16 → b % 4096 ≠ 24 → exec (.rbdBaseWrite n w) s = .next t →
      t.reg b = s.reg b) ∧
    (∀ (s t : State) (w : RegWrite) (b : Nat), b ≠ Reg.rbdCfg → b % 4096 ≠ 16 → b % 4096 ≠ 24 → exec (.rbdCfgEnWrite w) s = .next t →
      t.reg b = s.reg b) ∧
    (∀ (s t : State) (w : RegWrite) (b : Nat), b ≠ Reg.atcSpillPool → b % 4096 ≠ 16 → b % 4096 ≠ 24 → exec (.atcSpillPoolWrite w) s = .next t →
      t.reg b = s.reg b) ∧
    (∀ (s t : State) (w : RegWrite) (b : Nat), b ≠ Reg.slcStage → b % 4096 ≠ 16 → b % 4096 ≠ 24 → exec (.slcStageWrite w) s = .next t →
      t.reg b = s.reg b) ∧
    (∀ (s t : State) (w : RegWrite) (b : Nat), b ≠ Reg.slcDomT0Quota → b % 4096 ≠ 16 → b % 4096 ≠ 24 → exec (.slcDomT0QuotaWrite w) s = .next t →
      t.reg b = s.reg b) ∧
    (∀ (s t : State) (w : RegWrite) (b : Nat), b ≠ Reg.pwrEpochCfg → b % 4096 ≠ 16 → b % 4096 ≠ 24 → exec (.pwrEpochCfgWrite w) s = .next t →
      t.reg b = s.reg b) ∧
    (∀ (s t : State) (w : RegWrite) (b : Nat), b ≠ Reg.pwrHistSel → b % 4096 ≠ 16 → b % 4096 ≠ 24 → exec (.pwrHistClr w) s = .next t →
      t.reg b = s.reg b) ∧
    (∀ (s t : State) (n : Nat) (w : RegWrite) (b : Nat), b ≠ Reg.clkCsyn0 + 4 * n → b % 4096 ≠ 16 → b % 4096 ≠ 24 → exec (.clkCsynWrite n w) s = .next t →
      t.reg b = s.reg b) ∧
    (∀ (s t : State) (w : RegWrite) (b : Nat), b ≠ Reg.pwrStandby → b % 4096 ≠ 16 → b % 4096 ≠ 24 → exec (.standbyRequest w) s = .next t →
      t.reg b = s.reg b) ∧
    (∀ (s t : State) (n : Nat) (w : RegWrite) (b : Nat), b ≠ n → b % 4096 ≠ 16 → b % 4096 ≠ 24 → exec (.hifT2WindowWrite n w) s = .next t →
      t.reg b = s.reg b) ∧
    (∀ (s t : State) (n : Nat) (w : RegWrite) (b : Nat), b ≠ Reg.cxpCfg + cxpOff n → b % 4096 ≠ 16 → b % 4096 ≠ 24 → exec (.cxpCfgEnWrite n w) s = .next t →
      t.reg b = s.reg b) ∧
    (∀ (s t : State) (n : Nat) (w : RegWrite) (b : Nat), b ≠ Reg.cxpCtl + cxpOff n → b % 4096 ≠ 16 → b % 4096 ≠ 24 → exec (.resumePort n w) s = .next t →
      t.reg b = s.reg b) ∧
    (∀ (s t : State) (w : RegWrite) (b : Nat), b ≠ Reg.atcGcfg → b % 4096 ≠ 16 → b % 4096 ≠ 24 → exec (.lockstepWrite w) s = .next t →
      t.reg b = s.reg b) ∧
    (∀ (s t : State) (w : RegWrite) (b : Nat), b ≠ Reg.glbCalCtl → b % 4096 ≠ 16 → b % 4096 ≠ 24 → exec (.commit w) s = .next t →
      t.reg b = s.reg b) ∧
    (∀ (s t : State) (w : RegWrite) (b : Nat), b ≠ Reg.glbCalCtl → b % 4096 ≠ 16 → b % 4096 ≠ 24 → exec (.discard w) s = .next t →
      t.reg b = s.reg b) ∧
    (∀ (s t : State) (w : RegWrite) (b : Nat), b ≠ Reg.glbT3Ctl → b % 4096 ≠ 16 → b % 4096 ≠ 24 → exec (.release w) s = .next t →
      t.reg b = s.reg b) ∧
    (∀ (s t : State) (w : RegWrite) (b : Nat), b ≠ Reg.peaCtl → b % 4096 ≠ 16 → b % 4096 ≠ 24 → exec (.ckptNow w) s = .next t →
      t.reg b = s.reg b) ∧
    (∀ (s t : State) (w : RegWrite) (b : Nat), b ≠ Reg.peaCtl → b % 4096 ≠ 16 → b % 4096 ≠ 24 → exec (.format w) s = .next t →
      t.reg b = s.reg b) ∧
    (∀ (s t : State) (w : RegWrite) (b : Nat), b ≠ Reg.tstHistCtl → b % 4096 ≠ 16 → b % 4096 ≠ 24 → exec (.restore w) s = .next t →
      t.reg b = s.reg b) ∧
    (∀ (s t : State) (w : RegWrite) (b : Nat), b ≠ Reg.glbRstctl → b % 4096 ≠ 16 → b % 4096 ≠ 24 → exec (.deviceResetRequest w) s = .next t →
      t.reg b = s.reg b) ∧
    (∀ (s t : State) (n : Nat) (w : RegWrite) (b : Nat), b ≠ domReg n Reg.domRingCfg → b % 4096 ≠ 16 → b % 4096 ≠ 24 → exec (.ringEnable n w) s = .next t →
      t.reg b = s.reg b) ∧
    (∀ (s t : State) (n : Nat) (w : RegWrite) (b : Nat), b ≠ domReg n Reg.domRingCfg → b % 4096 ≠ 16 → b % 4096 ≠ 24 → exec (.ringDisable n w) s = .next t →
      t.reg b = s.reg b)

/-- With no ring of devices formed, QUIET_REQ, QUIET_ACK, RESUME, SLEEP_REQ, SLEEP_ACK, the quiet and sleep timers, the
repeat of a request and the idle ACK change their own port alone: no other port, no session, no register and no other
unit; where a flit received lets the port send, its count of flits sent moves. A discarded flit, a NAK and an expired
replay timer change, beside their port, its counters and error bits alone. -/
def Obligations.LinkPowerCommandsChangeTheirPortAlone : Prop :=
    (∀ (s t : State) (p : Nat) (f : FlitTail), s.linksCalm → exec (.quietReq ⟨p, f⟩) s = .next t →
      t.regs = s.regs ∧ (∀ c, c ≠ Reg.cwyFlitTxLo + cwyOff p → t.ctrs.getD c 0 = s.ctrs.getD c 0) ∧ t.hif = s.hif ∧ t.xlt = s.xlt ∧ t.att = s.att ∧ t.pwr = s.pwr ∧ t.flt = s.flt ∧ t.lve = s.lve ∧ t.aud = s.aud ∧ t.fresh = s.fresh ∧
      t.cwy = { s.cwy with ports := t.cwy.ports } ∧ ∀ k, k ≠ p → t.port k = s.port k) ∧
    (∀ (s t : State) (p : Nat) (f : FlitTail), s.linksCalm → exec (.quietAck ⟨p, f⟩) s = .next t →
      t.regs = s.regs ∧ (∀ c, c ≠ Reg.cwyFlitTxLo + cwyOff p → t.ctrs.getD c 0 = s.ctrs.getD c 0) ∧ t.hif = s.hif ∧ t.xlt = s.xlt ∧ t.att = s.att ∧ t.pwr = s.pwr ∧ t.flt = s.flt ∧ t.lve = s.lve ∧ t.aud = s.aud ∧ t.fresh = s.fresh ∧
      t.cwy = { s.cwy with ports := t.cwy.ports } ∧ ∀ k, k ≠ p → t.port k = s.port k) ∧
    (∀ (s t : State) (p : Nat) (f : FlitTail), s.linksCalm → exec (.resume ⟨p, f⟩) s = .next t →
      t.regs = s.regs ∧ (∀ c, c ≠ Reg.cwyFlitTxLo + cwyOff p → t.ctrs.getD c 0 = s.ctrs.getD c 0) ∧ t.hif = s.hif ∧ t.xlt = s.xlt ∧ t.att = s.att ∧ t.pwr = s.pwr ∧ t.flt = s.flt ∧ t.lve = s.lve ∧ t.aud = s.aud ∧ t.fresh = s.fresh ∧
      t.cwy = { s.cwy with ports := t.cwy.ports } ∧ ∀ k, k ≠ p → t.port k = s.port k) ∧
    (∀ (s t : State) (p : Nat) (f : FlitTail), s.linksCalm → exec (.sleepReq ⟨p, f⟩) s = .next t →
      t.regs = s.regs ∧ (∀ c, c ≠ Reg.cwyFlitTxLo + cwyOff p → t.ctrs.getD c 0 = s.ctrs.getD c 0) ∧ t.hif = s.hif ∧ t.xlt = s.xlt ∧ t.att = s.att ∧ t.pwr = s.pwr ∧ t.flt = s.flt ∧ t.lve = s.lve ∧ t.aud = s.aud ∧ t.fresh = s.fresh ∧
      t.cwy = { s.cwy with ports := t.cwy.ports } ∧ ∀ k, k ≠ p → t.port k = s.port k) ∧
    (∀ (s t : State) (p : Nat) (f : FlitTail), s.linksCalm → exec (.sleepAck ⟨p, f⟩) s = .next t →
      t.regs = s.regs ∧ (∀ c, c ≠ Reg.cwyFlitTxLo + cwyOff p → t.ctrs.getD c 0 = s.ctrs.getD c 0) ∧ t.hif = s.hif ∧ t.xlt = s.xlt ∧ t.att = s.att ∧ t.pwr = s.pwr ∧ t.flt = s.flt ∧ t.lve = s.lve ∧ t.aud = s.aud ∧ t.fresh = s.fresh ∧
      t.cwy = { s.cwy with ports := t.cwy.ports } ∧ ∀ k, k ≠ p → t.port k = s.port k) ∧
    (∀ (s t : State) (p : Nat), s.linksCalm → exec (.quietIdleTimer p) s = .next t →
      t.regs = s.regs ∧ t.ctrs = s.ctrs ∧ t.hif = s.hif ∧ t.xlt = s.xlt ∧ t.att = s.att ∧ t.pwr = s.pwr ∧ t.flt = s.flt ∧ t.lve = s.lve ∧ t.aud = s.aud ∧ t.fresh = s.fresh ∧
      t.cwy = { s.cwy with ports := t.cwy.ports } ∧ ∀ k, k ≠ p → t.port k = s.port k) ∧
    (∀ (s t : State) (p : Nat), s.linksCalm → exec (.sleepIdleTimer p) s = .next t →
      t.regs = s.regs ∧ t.ctrs = s.ctrs ∧ t.hif = s.hif ∧ t.xlt = s.xlt ∧ t.att = s.att ∧ t.pwr = s.pwr ∧ t.flt = s.flt ∧ t.lve = s.lve ∧ t.aud = s.aud ∧ t.fresh = s.fresh ∧
      t.cwy = { s.cwy with ports := t.cwy.ports } ∧ ∀ k, k ≠ p → t.port k = s.port k) ∧
    (∀ (s t : State) (p : Nat), s.linksCalm → exec (.lctlReqRepeat p) s = .next t →
      t.regs = s.regs ∧ t.ctrs = s.ctrs ∧ t.hif = s.hif ∧ t.xlt = s.xlt ∧ t.att = s.att ∧ t.pwr = s.pwr ∧ t.flt = s.flt ∧ t.lve = s.lve ∧ t.aud = s.aud ∧ t.fresh = s.fresh ∧
      t.cwy = { s.cwy with ports := t.cwy.ports } ∧ ∀ k, k ≠ p → t.port k = s.port k) ∧
    (∀ (s t : State) (p : Nat) (g : Option FlitTail), s.linksCalm → exec (.idleAckTimer ⟨p, g⟩) s = .next t →
      t.regs = s.regs ∧ (∀ c, c ≠ Reg.cwyFlitTxLo + cwyOff p → t.ctrs.getD c 0 = s.ctrs.getD c 0) ∧ t.hif = s.hif ∧ t.xlt = s.xlt ∧ t.att = s.att ∧ t.pwr = s.pwr ∧ t.flt = s.flt ∧ t.lve = s.lve ∧ t.aud = s.aud ∧ t.fresh = s.fresh ∧
      t.cwy = { s.cwy with ports := t.cwy.ports } ∧ ∀ k, k ≠ p → t.port k = s.port k) ∧
    (∀ (s t : State) (p : Nat) (e : Nat), s.linksCalm → exec (.flitDiscard p e) s = .next t →
      t.hif = s.hif ∧ t.xlt = s.xlt ∧ t.att = s.att ∧ t.lve = s.lve ∧ t.aud = s.aud ∧ t.flt = s.flt ∧ t.fresh = s.fresh ∧
      t.cwy = { s.cwy with ports := t.cwy.ports } ∧ ∀ k, k ≠ p → t.port k = s.port k) ∧
    (∀ (s t : State) (p : Nat) (f : FlitTail), s.linksCalm → exec (.nak p f) s = .next t →
      t.hif = s.hif ∧ t.xlt = s.xlt ∧ t.att = s.att ∧ t.lve = s.lve ∧ t.aud = s.aud ∧ t.flt = s.flt ∧ t.fresh = s.fresh ∧
      t.cwy = { s.cwy with ports := t.cwy.ports } ∧ ∀ k, k ≠ p → t.port k = s.port k) ∧
    (∀ (s t : State) (p : Nat), s.linksCalm → exec (.replayTimer p) s = .next t →
      t.hif = s.hif ∧ t.xlt = s.xlt ∧ t.att = s.att ∧ t.lve = s.lve ∧ t.aud = s.aud ∧ t.flt = s.flt ∧ t.fresh = s.fresh ∧
      t.cwy = { s.cwy with ports := t.cwy.ports } ∧ ∀ k, k ≠ p → t.port k = s.port k)

/-- A command that names a sequence or an object by a handle that is not live, has another tag or belongs to another
domain is answered with E_DENIED 2,000 ns after its fetch: it changes no table, gives nothing out before then, and no
output is written. This holds of SEQ_RETIRE, SEQ_TRUNCATE, SEQ_QUERY, SEQ_PCLASS, OBJ_SEAL and OBJ_RELEASE alike. -/
def Obligations.RefusedHandlesAreDeniedAlike : Prop :=
    (∀ (s : State) (q : CmdRef) (c : InFlight),
      s.offersXlt q 0x09 c →
      s.findSeq (s.ringDomain q) (u32 c.ops 0) = .error .denied →
      ∃ t, exec (.seqRetire q) s = .next t ∧ t.hif.refusals = s.hif.refusals ++ [(.ring q, { status := .denied }, c.arrived + 2000)] ∧ t.xlt = s.xlt ∧ t.outs = s.outs) ∧
    (∀ (s : State) (q : CmdRef) (c : InFlight),
      s.offersXlt q 0x0A c →
      s.findSeq (s.ringDomain q) (u32 c.ops 0) = .error .denied →
      u32 c.ops 4 % 16 = 0 →
      ∃ t, exec (.seqTruncate q) s = .next t ∧ t.hif.refusals = s.hif.refusals ++ [(.ring q, { status := .denied }, c.arrived + 2000)] ∧ t.xlt = s.xlt ∧ t.outs = s.outs) ∧
    (∀ (s : State) (q : CmdRef) (c : InFlight),
      s.offersXlt q 0x0B c →
      s.findSeq (s.ringDomain q) (u32 c.ops 0) = .error .denied →
      ∃ t, exec (.seqQuery q) s = .next t ∧ t.hif.refusals = s.hif.refusals ++ [(.ring q, { status := .denied }, c.arrived + 2000)] ∧ t.xlt = s.xlt ∧ t.outs = s.outs) ∧
    (∀ (s : State) (q : CmdRef) (c : InFlight),
      s.offersXlt q 0x0F c →
      s.findSeq (s.ringDomain q) (u32 c.ops 0) = .error .denied →
      u8 c.ops 4 ≤ 15 →
      ∃ t, exec (.seqPclass q) s = .next t ∧ t.hif.refusals = s.hif.refusals ++ [(.ring q, { status := .denied }, c.arrived + 2000)] ∧ t.xlt = s.xlt ∧ t.outs = s.outs) ∧
    (∀ (s : State) (q : CmdRef) (c : InFlight),
      s.offersXlt q 0x2A c →
      s.findObj (s.ringDomain q) (u32 c.ops 0) = .error .denied →
      ∃ t, exec (.objSeal q) s = .next t ∧ t.hif.refusals = s.hif.refusals ++ [(.ring q, { status := .denied }, c.arrived + 2000)] ∧ t.xlt = s.xlt ∧ t.outs = s.outs) ∧
    (∀ (s : State) (q : CmdRef) (c : InFlight),
      s.offersXlt q 0x2B c →
      s.findObj (s.ringDomain q) (u32 c.ops 0) = .error .denied →
      ∃ t, exec (.objRelease q) s = .next t ∧ t.hif.refusals = s.hif.refusals ++ [(.ring q, { status := .denied }, c.arrived + 2000)] ∧ t.xlt = s.xlt ∧ t.outs = s.outs)

/-- On a C variant ATTEND, RING_JOIN and SEQ_CREATE with DETERM complete with E_ABSENT, and on a part without Peat so does
an OBJ_WRITE into T3; none of them is left pending. -/
def Obligations.AbsentUnitsAnswerAbsent : Prop :=
    (∀ (s : State) (q : CmdRef) (c : InFlight) (inp : List Byte),
      s.offersXlt q 0x19 c →
      s.glb.variant.hasAttn = false →
      inp.length = c.inLen →
      ∃ t, exec (.attend q (.bytes inp)) s = .next t ∧ s.posts t q c .absent = true ∧ t.att.steps = s.att.steps) ∧
    (∀ (s : State) (q : CmdRef) (c : InFlight),
      s.offers q 0x38 c →
      s.glb.variant.hasAttn = false →
      s.linksCalm →
      ∃ t, exec (.ringJoin q) s = .next t ∧ s.posts t q c .absent = true ∧ t.cwy.slots = []) ∧
    (∀ (s : State) (q : CmdRef) (c : InFlight),
      s.offersXlt q 0x08 c →
      s.glb.variant.hasAttn = false →
      s.xlt.placed = true →
      u32 c.ops 4 = 1 →
      (s.model? (s.ringDomain q) (u16 c.ops 0)).isSome = true →
      ∃ t, exec (.seqCreate q) s = .next t ∧ s.posts t q c .absent = true ∧ t.xlt = s.xlt) ∧
    (∀ (s : State) (q : CmdRef) (c : InFlight) (inp : List Byte) (n : Nat) (x : Obj),
      s.offersXlt q 0x29 c →
      s.glb.variant.hasFlash = false →
      inp.length = c.inLen →
      s.findObj (s.ringDomain q) (u32 c.ops 0) = .ok (n, x) →
      x.releasing = false →
      u8 c.ops 12 = 3 →
      inp.length = u32 c.ops 8 * (4096 * 2 ^ x.fc) →
      u32 c.ops 4 + u32 c.ops 8 ≤ x.pages →
      x.isSealed = false →
      (((List.range (u32 c.ops 8)).map (u32 c.ops 4 + ·)).any fun p => x.map.has p) = false →
      ∃ t, exec (.objWrite q (.bytes inp)) s = .next t ∧ s.posts t q c .absent = true ∧ t.xlt = s.xlt)

/-- A write of a register whose fields a lock protects leaves it and sets PG_ERR.LOCK_WR of its page. A write of SLC_STAGE
in SOLE mode, or while the audit log is full, leaves it, sets PG_ERR.REFUSED and loads the refusal record with
E_DENIED or E_LOG_FULL unless a record is held. A quota that would bring the sum above the T0 pool, or take a
confidential domain’s quota to 0, leaves every quota and sets SLC_ERR.QUOTA. -/
def Obligations.RefusedRegisterWritesChangeNothing : Prop :=
    (∀ (s : State) (w : RegWrite) (a : Nat) (p : RegPlace),
      s.glb.phase = .ready →
      s.reaches w.origin a = true →
      w.be = 15 →
      s.allServe →
      s.lve.sole = none →
      s.linksCalm →
      a ∈ [Reg.glbPinmux, Reg.xltPtrBaseLo, Reg.xltPtrBaseHi, Reg.xltPtrSize, Reg.slcStage, Reg.rbdBaseLo, Reg.rbdBaseHi, Reg.peaFmt, Reg.atcSpillPool, Reg.hifT2BaseLo, Reg.hifT2BaseHi, Reg.hifT2Size] →
      placeOf a = some p →
      s.presentAt p = true →
      s.lockedAt p a = true →
      ∃ t, exec (.registerWrite a w) s = .next t ∧ t.reg a = s.reg a ∧ bit (t.reg (a - p.off + 0x10)) 31 = true) ∧
    (∀ (s : State) (w : RegWrite) (d : Nat),
      s.glb.phase = .ready →
      s.reaches w.origin Reg.slcStage = true →
      w.be = 15 →
      s.allServe →
      s.lve.sole = some d →
      ∃ t, exec (.slcStageWrite w) s = .next t ∧ t.reg Reg.slcStage = s.reg Reg.slcStage ∧ bit (t.reg (Err.slcStage.1 + 0x10)) 28 = true ∧ (s.glb.refValid = false → t.glb.refValid = true ∧ t.glb.refAddr = Reg.slcStage ∧ t.glb.refCode = Status.denied.code) ∧ (s.glb.refValid = true → t.glb = s.glb)) ∧
    (∀ (s : State) (w : RegWrite),
      s.glb.phase = .ready →
      s.reaches w.origin Reg.slcStage = true →
      w.be = 15 →
      s.allServe →
      s.lve.sole = none →
      s.lockedAt ⟨8, 0, 0, 0x44⟩ Reg.slcStage = false →
      s.auditTakes = false →
      16 ≤ bits w.value.toNat 5 0 →
      bits w.value.toNat 5 0 ≤ 56 →
      s.linesHeld = [] →
      s.sdg.queue = [] →
      ∃ t, exec (.slcStageWrite w) s = .next t ∧ t.reg Reg.slcStage = s.reg Reg.slcStage ∧ bit (t.reg (Err.slcStage.1 + 0x10)) 28 = true ∧ t.ctrs.getD Reg.audRefusedLo 0 = (s.ctrs.getD Reg.audRefusedLo 0 + 1) % 2 ^ 64 ∧ (s.glb.refValid = false → t.glb.refValid = true ∧ t.glb.refAddr = Reg.slcStage ∧ t.glb.refCode = Status.logFull.code) ∧ (s.glb.refValid = true → t.glb = s.glb)) ∧
    (∀ (s : State) (w : RegWrite),
      s.openTo Reg.slcDomT0Quota w →
      (s.t0Pool < (s.quotaSum - s.slc.quota.getD (s.fld Reg.slcDomSel 11 0) 0 + bits w.value.toNat 15 0) * gib) ∨ (s.conf (s.fld Reg.slcDomSel 11 0) = true ∧ bits w.value.toNat 15 0 = 0) →
      ∃ t, exec (.slcDomT0QuotaWrite w) s = .next t ∧ t.slc.quota = s.slc.quota ∧ bit (t.reg (Err.slcQuota.1 + 0x10)) Err.slcQuota.2 = true)

/-- Each source has a route: an enable, a target, a vector and a priority from 0 to 15. A pending source whose route is
disabled stays pending and is never delivered. A write from PF0 or JTAG that would change a route to Toluo, or set the
target to Toluo, leaves the register unchanged and sets EVC_ERR.ROUTE; Toluo’s own write takes effect. -/
def Obligations.RoutesOfToluoAreItsOwn : Prop :=
    (∀ (s : State) (n : Nat), (s.route n).prio ≤ 15 ∧ s.route n =
        { en := bit (s.reg (routeAddr n)) 31, toluo := bit (s.reg (routeAddr n)) 30, prio := bits (s.reg (routeAddr n)) 19 16, vector := bits (s.reg (routeAddr n)) 10 0 }) ∧
    (∀ (s t : State) (d : Nat) (n : Nat), n ∈ s.pendingSources → (s.route n).en = false → exec (.evcDeliver d) s = .next t →
      n ∈ t.pendingSources ∧ n ∉ s.contenders d ∧ .toluoIrq n ∉ s.gives t) ∧
    (∀ (s : State) (w : RegWrite) (n : Nat),
      s.openTo (routeAddr n) w →
      n < 1024 →
      w.origin = .pf0 ∨ w.origin = .jtag →
      ((s.route n).toluo = true ∧ s.route n ≠ readRoute w.value.toNat) ∨ ((s.route n).toluo = false ∧ bit w.value.toNat 30 = true) →
      ∃ t, exec (.evcRouteWrite n w) s = .next t ∧ t.reg (routeAddr n) = s.reg (routeAddr n) ∧ bit (t.reg (Err.evcRoute.1 + 0x10)) Err.evcRoute.2 = true) ∧
    (∀ (s : State) (w : RegWrite) (n : Nat),
      s.openTo (routeAddr n) w →
      n < 1024 →
      w.origin = .toluo →
      ∃ t, exec (.evcRouteWrite n w) s = .next t ∧ t.route n = readRoute w.value.toNat)

/-- With CHAIN of group 2k set, the hold-off of group 2k is HOLD_US of group 2k + 1 times 65,536 plus its own, at most
4,294,967,295 µs: an idle group 2k whose first source becomes pending holds for it. Group 2k + 1 uses no hold-off: its
sources are released as they become pending. CHAIN is reserved in odd groups. -/
def Obligations.ChainedHoldOffServesTheEvenGroup : Prop :=
    (∀ (s : State) (k : Nat), bit (s.reg (Reg.evcHold + 4 * (2 * k))) 31 = true →
        s.holdNs (2 * k) = (s.fld (Reg.evcHold + 4 * (2 * k + 1)) 15 0 * 65536 + s.fld (Reg.evcHold + 4 * (2 * k)) 15 0) * 1000 ∧ s.holdNs (2 * k) ≤ 4294967295 * 1000 ∧ s.holdNs (2 * k + 1) = 0) ∧
    (∀ (s : State) (w : RegWrite) (k : Nat),
      s.openTo Reg.evcSwset w →
      512 ≤ bits w.value.toNat 9 0 →
      bits w.value.toNat 9 0 / 32 = 2 * k →
      bit (s.reg (Reg.evcHold + 4 * (2 * k))) 31 = true →
      s.evc.groups.getD (2 * k) .idle = .idle →
      s.fld (Reg.evcHold + 4 * (2 * k + 1)) 15 0 * 65536 + s.fld (Reg.evcHold + 4 * (2 * k)) 15 0 ≠ 0 →
      ∃ t, exec (.evcSwset w) s = .next t ∧ t.evc.groups.get? (2 * k) = some (.holding (s.now + (s.fld (Reg.evcHold + 4 * (2 * k + 1)) 15 0 * 65536 + s.fld (Reg.evcHold + 4 * (2 * k)) 15 0) * 1000))) ∧
    (∀ (s : State) (w : RegWrite) (k : Nat),
      s.openTo Reg.evcSwset w →
      512 ≤ bits w.value.toNat 9 0 →
      bits w.value.toNat 9 0 / 32 = 2 * k + 1 →
      bit (s.reg (Reg.evcHold + 4 * (2 * k))) 31 = true →
      s.evc.groups.getD (2 * k + 1) .idle = .idle →
      ∃ t, exec (.evcSwset w) s = .next t ∧ t.evc.groups.get? (2 * k + 1) = some .released) ∧
    (∀ (s : State) (w : RegWrite) (k : Nat),
      s.openTo (Reg.evcHold + 4 * (2 * k + 1)) w →
      k < 16 →
      bit w.value.toNat 31 = true →
      ∃ t, exec (.evcHoldWrite (2 * k + 1) w) s = .next t ∧ bit (t.reg (Reg.evcHold + 4 * (2 * k + 1))) 31 = bit (s.reg (Reg.evcHold + 4 * (2 * k + 1))) 31 ∧ bit (t.reg 0x30010) 30 = true)

/-- A bit set to 1 in PG_ERRMASK or PG_EVTMASK stops the corresponding bit from raising its event-controller source; it
does not stop the bit in PG_ERR or PG_EVT from being set. A bit whose mask is 0 raises the source of its instance: the
error source for PG_ERR, the one above it for PG_EVT. -/
def Obligations.MasksStopSourcesNotBits : Prop :=
    (∀ (s : State) (e : Nat × Nat) (off : Nat), (e.1 + off) % 4096 = 0 → e.2 < 32 → bit (s.reg (e.1 + off + 20)) e.2 = true →
        bit ((s.setErr e off).reg (e.1 + off + 16)) e.2 = true ∧ (s.setErr e off).pendingSources = s.pendingSources) ∧
    (∀ (s : State) (e : Nat × Nat) (off : Nat), (e.1 + off) % 4096 = 0 → e.2 < 32 → bit (s.reg (e.1 + off + 28)) e.2 = true →
        bit ((s.setEvt e off).reg (e.1 + off + 24)) e.2 = true ∧ (s.setEvt e off).pendingSources = s.pendingSources) ∧
    (∀ (s : State) (e : Nat × Nat) (off b : Nat) (p : RegPlace), (e.1 + off) % 4096 = 0 → e.2 < 32 → bit (s.reg (e.1 + off + 20)) e.2 = false →
        placeOf (e.1 + off + 16) = some p → s.glb.variant.hasInst p.block p.inst = true → sourceOf p.block p.inst = some b →
        b ∈ (s.setErr e off).pendingSources) ∧
    (∀ (s : State) (e : Nat × Nat) (off b : Nat) (p : RegPlace), (e.1 + off) % 4096 = 0 → e.2 < 32 → bit (s.reg (e.1 + off + 28)) e.2 = false →
        placeOf (e.1 + off + 24) = some p → s.glb.variant.hasInst p.block p.inst = true → sourceOf p.block p.inst = some b →
        b + 1 ∈ (s.setEvt e off).pendingSources)

/-- A block hits when one entry of its row matches its probe: VALID set and WRITING clear, the hash and the check word of
the probe, its domain and model tag, an upper range bound not below the domain’s floor, and the range predicate of
Table 7.4. -/
def Obligations.ProbesMatchValidEntriesOfTheirOwn : Prop :=
    ∀ (s : State) (p : Probe) (h : DWord × Word), p.floor = (s.rbdDom p.domain).floor →
      ((s.probe p h).isSome = true ↔ ∃ k e, (k, e) ∈ s.row (rowOf h.1) ∧ e.valid = true ∧ e.writing = false ∧ e.hash = h.1 ∧ e.check = h.2 ∧
        e.domain = p.domain ∧ e.tag = p.tag ∧ (s.rbdDom p.domain).floor ≤ e.hi ∧
        (p.mode = 0 ∨ (p.mode = 1 ∧ e.lo ≤ p.a ∧ p.a ≤ e.hi) ∨ (p.mode = 2 ∧ e.lo ≤ p.b ∧ p.a ≤ e.hi) ∨ (3 ≤ p.mode ∧ p.a ≤ e.lo ∧ e.hi ≤ p.b)))

/-- The expander gives back every block of 4,096 bytes from its packed form, which is as long as its wire length and
passes the seal test where the block may cross packed. The 32 bytes of a Reedbed entry whose fields fit Table 7.2 hold
that entry. The header of a flit holds each of its fields at the bits of Table 11.2. -/
def Obligations.PackedBlocksEntriesAndFlitsReadBack : Prop :=
    (∀ data : List Byte, data.length = 4096 →
      expandBlock (packBlock data) = some data ∧ (packBlock data).length = wireLen (nonzeroWords data) ∧
      (80 + 8 * nonzeroWords data ≤ 3840 → sealTest (packBlock data) = true)) ∧
    (∀ e : Entry, e.wf = true → readEntry (ofLe e.bytes) = e ∧ e.bytes.length = 32) ∧
    (∀ (seq ack vc ty n cv cc : Nat) (som eom : Bool), seq < 4096 → ack < 4096 → vc < 4 → ty < 4 → n < 256 → cv < 4 → cc < 1024 →
      ∀ h, h = flitHeader seq ack vc ty som eom n cv cc → h < 2 ^ 64 ∧ bits h 63 52 = seq ∧ bits h 51 40 = ack ∧ bits h 39 38 = vc ∧
        bits h 37 36 = ty ∧ bit h 35 = som ∧ bit h 34 = eom ∧ bits h 33 26 = n ∧ bits h 25 24 = cv ∧ bits h 23 14 = cc ∧ bits h 13 0 = 0)
end

