-- ==== Sys2Proof/Laws/Assoc.lean ====
section
/-! SUPPORT. Laws/Assoc.lean: a finite map gives the value set, and keeps every other key. -/

namespace Sys2Proof.Machine

variable {κ α : Type} [DecidableEq κ]

@[simp] theorem Assoc.get?_nil (k : κ) : Assoc.get? ([] : Assoc κ α) k = none := rfl

@[simp] theorem Assoc.get?_set_same (m : Assoc κ α) (k : κ) (v : α) : (m.set k v).get? k = some v := by
  induction m with
  | nil => simp [Assoc.set, Assoc.get?]
  | cons x xs ih =>
    obtain ⟨k', v'⟩ := x
    by_cases h : k' = k <;> simp [Assoc.set, Assoc.get?, h, ih]

theorem Assoc.get?_set_other (m : Assoc κ α) (k l : κ) (v : α) (h : l ≠ k) : (m.set k v).get? l = m.get? l := by
  induction m with
  | nil => simp [Assoc.set, Assoc.get?, Ne.symm h]
  | cons x xs ih =>
    obtain ⟨k', v'⟩ := x
    by_cases hk : k' = k
    · subst hk; simp [Assoc.set, Assoc.get?, Ne.symm h]
    · by_cases hl : k' = l
      · subst hl; simp [Assoc.set, Assoc.get?, hk]
      · simp [Assoc.set, Assoc.get?, hk, hl, ih]

@[simp] theorem Assoc.getD_set_same (m : Assoc κ α) (k : κ) (v d : α) : (m.set k v).getD k d = v := by
  simp [Assoc.getD]

theorem Assoc.getD_set_other (m : Assoc κ α) (k l : κ) (v d : α) (h : l ≠ k) : (m.set k v).getD l d = m.getD l d := by
  simp [Assoc.getD, Assoc.get?_set_other m k l v h]

theorem Assoc.get?_erase_same (m : Assoc κ α) (k : κ) : (m.erase k).get? k = none := by
  induction m with
  | nil => rfl
  | cons x xs ih =>
    obtain ⟨k', v'⟩ := x
    by_cases h : k' = k
    · simpa [Assoc.erase, h] using ih
    · simp only [Assoc.erase, List.filter_cons, h, decide_false, Bool.not_false, if_true, Assoc.get?, if_false]
      exact ih

theorem Assoc.get?_erase_other (m : Assoc κ α) (k l : κ) (h : l ≠ k) : (m.erase k).get? l = m.get? l := by
  induction m with
  | nil => rfl
  | cons x xs ih =>
    obtain ⟨k', v'⟩ := x
    by_cases hk : k' = k
    · subst hk
      simp only [Assoc.erase, List.filter_cons, decide_true, Bool.not_true, Assoc.get?, if_neg (Ne.symm h)]
      exact ih
    · simp only [Assoc.erase, List.filter_cons, hk, decide_false, Bool.not_false, if_true, Assoc.get?]
      split
      · rfl
      · exact ih

theorem Assoc.get?_modify_same (m : Assoc κ α) (k : κ) (f : α → α) :
    (m.modify k f).get? k = (m.get? k).map f := by
  induction m with
  | nil => rfl
  | cons x xs ih =>
    obtain ⟨k', v'⟩ := x
    by_cases h : k' = k <;> simp [Assoc.modify, Assoc.get?, h, ih]

theorem Assoc.get?_modify_other (m : Assoc κ α) (k l : κ) (f : α → α) (h : l ≠ k) :
    (m.modify k f).get? l = m.get? l := by
  induction m with
  | nil => rfl
  | cons x xs ih =>
    obtain ⟨k', v'⟩ := x
    by_cases hk : k' = k
    · subst hk; simp [Assoc.modify, Assoc.get?, Ne.symm h]
    · by_cases hl : k' = l
      · subst hl; simp [Assoc.modify, Assoc.get?, hk]
      · simp [Assoc.modify, Assoc.get?, hk, hl, ih]

/-- What a key gives is listed with the key. -/
theorem Assoc.mem_of_get? {m : Assoc κ α} {k : κ} {v : α} (h : m.get? k = some v) : (k, v) ∈ m := by
  induction m with
  | nil => simp at h
  | cons e rest ih =>
    obtain ⟨k', v'⟩ := e
    rw [Assoc.get?] at h
    split at h
    · subst k'; cases h; exact List.mem_cons_self ..
    · exact List.mem_cons_of_mem _ (ih h)

theorem Assoc.has_eq (m : Assoc κ α) (k : κ) : m.has k = decide (k ∈ m.keys) := by
  induction m with
  | nil => rfl
  | cons x xs ih =>
    obtain ⟨k', v⟩ := x
    by_cases hk : k' = k
    · simp [Assoc.has, Assoc.get?, Assoc.keys, hk]
    · have h1 : Assoc.has ((k', v) :: xs) k = Assoc.has xs k := by simp [Assoc.has, Assoc.get?, hk]
      have h2 : (k ∈ Assoc.keys ((k', v) :: xs)) ↔ k ∈ Assoc.keys xs := by
        show k ∈ k' :: Assoc.keys xs ↔ _
        simp [Ne.symm hk]
      rw [h1, ih, decide_eq_decide.mpr h2.symm]

/-- No entry has a key that a map with the same keys lacks. -/
theorem Assoc.filter_has_nil {β : Type} (m : Assoc κ α) (n : Assoc κ β) (h : n.keys = m.keys) :
    (m.filter fun e => !n.has e.1) = [] := by
  rw [List.filter_eq_nil_iff]
  intro e he
  have : e.1 ∈ n.keys := by rw [h]; exact List.mem_map_of_mem he
  simp [Assoc.has_eq, this]

end Sys2Proof.Machine
end

