-- ==== Sys2Proof/Laws/Bytes.lean ====
section
/-! SUPPORT. Laws/Bytes.lean: little-endian bytes spell the number they were made from (R9). -/

namespace Sys2Proof.Machine

@[simp] theorem leBytes_length (n v : Nat) : (leBytes n v).length = n := by
  induction n generalizing v with
  | zero => rfl
  | succ n ih => simp [leBytes, ih]

theorem ofLe_leBytes (n v : Nat) : ofLe (leBytes n v) = v % 256 ^ n := by
  induction n generalizing v with
  | zero => simp [leBytes, ofLe, Nat.mod_one]
  | succ n ih =>
    simp only [leBytes, ofLe, ih, BitVec.toNat_ofNat]
    have h : (256 : Nat) ^ (n + 1) = 256 * 256 ^ n := by rw [Nat.pow_succ, Nat.mul_comm]
    rw [h, Nat.mod_mul]

/-- A field that begins behind a prefix is a field of the rest. -/
theorem field_append_right (xs ys : List Byte) (k n : Nat) : field (xs ++ ys) (xs.length + k) n = field ys k n := by
  have h : (xs ++ ys).drop (xs.length + k) = ys.drop k := by rw [← List.drop_drop]; simp
  simp only [field, h]

/-- A field at the front of a list that holds it. -/
theorem field_leBytes (n v : Nat) (ys : List Byte) : field (leBytes n v ++ ys) 0 n = v % 256 ^ n := by
  simp [field, ofLe_leBytes]

end Sys2Proof.Machine
end

