-- ==== Sys2Proof/Laws/State.lean ====
section
/-! SUPPORT. Laws/State.lean: what each named update of the state leaves alone, one lemma for each field, so that no proof
unfolds a record update. -/

namespace Sys2Proof.Machine

/-! ### `setReg` -/

@[simp] theorem State.setReg_pending (s : State) (a v : Nat) : (s.setReg a v).pending = s.pending := rfl
@[simp] theorem State.setReg_now (s : State) (a v : Nat) : (s.setReg a v).now = s.now := rfl
@[simp] theorem State.setReg_mem (s : State) (a v : Nat) : (s.setReg a v).mem = s.mem := rfl
@[simp] theorem State.setReg_ctrs (s : State) (a v : Nat) : (s.setReg a v).ctrs = s.ctrs := rfl
@[simp] theorem State.setReg_latches (s : State) (a v : Nat) : (s.setReg a v).latches = s.latches := rfl
@[simp] theorem State.setReg_outs (s : State) (a v : Nat) : (s.setReg a v).outs = s.outs := rfl
@[simp] theorem State.setReg_fresh (s : State) (a v : Nat) : (s.setReg a v).fresh = s.fresh := rfl
@[simp] theorem State.setReg_glb (s : State) (a v : Nat) : (s.setReg a v).glb = s.glb := rfl
@[simp] theorem State.setReg_xlt (s : State) (a v : Nat) : (s.setReg a v).xlt = s.xlt := rfl
@[simp] theorem State.setReg_slc (s : State) (a v : Nat) : (s.setReg a v).slc = s.slc := rfl
@[simp] theorem State.setReg_att (s : State) (a v : Nat) : (s.setReg a v).att = s.att := rfl
@[simp] theorem State.setReg_pwr (s : State) (a v : Nat) : (s.setReg a v).pwr = s.pwr := rfl
@[simp] theorem State.setReg_hif (s : State) (a v : Nat) : (s.setReg a v).hif = s.hif := rfl
@[simp] theorem State.setReg_mgmt (s : State) (a v : Nat) : (s.setReg a v).mgmt = s.mgmt := rfl
@[simp] theorem State.setReg_flt (s : State) (a v : Nat) : (s.setReg a v).flt = s.flt := rfl
@[simp] theorem State.setReg_evc (s : State) (a v : Nat) : (s.setReg a v).evc = s.evc := rfl
@[simp] theorem State.setReg_lve (s : State) (a v : Nat) : (s.setReg a v).lve = s.lve := rfl
@[simp] theorem State.setReg_aud (s : State) (a v : Nat) : (s.setReg a v).aud = s.aud := rfl
@[simp] theorem State.setReg_cwy (s : State) (a v : Nat) : (s.setReg a v).cwy = s.cwy := rfl
@[simp] theorem State.setReg_rbd (s : State) (a v : Nat) : (s.setReg a v).rbd = s.rbd := rfl
@[simp] theorem State.setReg_pea (s : State) (a v : Nat) : (s.setReg a v).pea = s.pea := rfl
@[simp] theorem State.setReg_sdg (s : State) (a v : Nat) : (s.setReg a v).sdg = s.sdg := rfl

/-! ### `setFld` -/

@[simp] theorem State.setFld_pending (s : State) (a hi lo v : Nat) : (s.setFld a hi lo v).pending = s.pending := rfl
@[simp] theorem State.setFld_now (s : State) (a hi lo v : Nat) : (s.setFld a hi lo v).now = s.now := rfl
@[simp] theorem State.setFld_mem (s : State) (a hi lo v : Nat) : (s.setFld a hi lo v).mem = s.mem := rfl
@[simp] theorem State.setFld_ctrs (s : State) (a hi lo v : Nat) : (s.setFld a hi lo v).ctrs = s.ctrs := rfl
@[simp] theorem State.setFld_latches (s : State) (a hi lo v : Nat) : (s.setFld a hi lo v).latches = s.latches := rfl
@[simp] theorem State.setFld_outs (s : State) (a hi lo v : Nat) : (s.setFld a hi lo v).outs = s.outs := rfl
@[simp] theorem State.setFld_fresh (s : State) (a hi lo v : Nat) : (s.setFld a hi lo v).fresh = s.fresh := rfl
@[simp] theorem State.setFld_glb (s : State) (a hi lo v : Nat) : (s.setFld a hi lo v).glb = s.glb := rfl
@[simp] theorem State.setFld_xlt (s : State) (a hi lo v : Nat) : (s.setFld a hi lo v).xlt = s.xlt := rfl
@[simp] theorem State.setFld_slc (s : State) (a hi lo v : Nat) : (s.setFld a hi lo v).slc = s.slc := rfl
@[simp] theorem State.setFld_att (s : State) (a hi lo v : Nat) : (s.setFld a hi lo v).att = s.att := rfl
@[simp] theorem State.setFld_pwr (s : State) (a hi lo v : Nat) : (s.setFld a hi lo v).pwr = s.pwr := rfl
@[simp] theorem State.setFld_hif (s : State) (a hi lo v : Nat) : (s.setFld a hi lo v).hif = s.hif := rfl
@[simp] theorem State.setFld_mgmt (s : State) (a hi lo v : Nat) : (s.setFld a hi lo v).mgmt = s.mgmt := rfl
@[simp] theorem State.setFld_flt (s : State) (a hi lo v : Nat) : (s.setFld a hi lo v).flt = s.flt := rfl
@[simp] theorem State.setFld_evc (s : State) (a hi lo v : Nat) : (s.setFld a hi lo v).evc = s.evc := rfl
@[simp] theorem State.setFld_lve (s : State) (a hi lo v : Nat) : (s.setFld a hi lo v).lve = s.lve := rfl
@[simp] theorem State.setFld_aud (s : State) (a hi lo v : Nat) : (s.setFld a hi lo v).aud = s.aud := rfl
@[simp] theorem State.setFld_cwy (s : State) (a hi lo v : Nat) : (s.setFld a hi lo v).cwy = s.cwy := rfl
@[simp] theorem State.setFld_rbd (s : State) (a hi lo v : Nat) : (s.setFld a hi lo v).rbd = s.rbd := rfl
@[simp] theorem State.setFld_pea (s : State) (a hi lo v : Nat) : (s.setFld a hi lo v).pea = s.pea := rfl
@[simp] theorem State.setFld_sdg (s : State) (a hi lo v : Nat) : (s.setFld a hi lo v).sdg = s.sdg := rfl

/-! ### `setErr` -/

@[simp] theorem State.setErr_pending (s : State) (e : Nat × Nat) (off : Nat) : (s.setErr e off).pending = s.pending := rfl
@[simp] theorem State.setErr_now (s : State) (e : Nat × Nat) (off : Nat) : (s.setErr e off).now = s.now := rfl
@[simp] theorem State.setErr_mem (s : State) (e : Nat × Nat) (off : Nat) : (s.setErr e off).mem = s.mem := rfl
@[simp] theorem State.setErr_ctrs (s : State) (e : Nat × Nat) (off : Nat) : (s.setErr e off).ctrs = s.ctrs := rfl
@[simp] theorem State.setErr_latches (s : State) (e : Nat × Nat) (off : Nat) : (s.setErr e off).latches = s.latches := rfl
@[simp] theorem State.setErr_outs (s : State) (e : Nat × Nat) (off : Nat) : (s.setErr e off).outs = s.outs := rfl
@[simp] theorem State.setErr_fresh (s : State) (e : Nat × Nat) (off : Nat) : (s.setErr e off).fresh = s.fresh := rfl
@[simp] theorem State.setErr_glb (s : State) (e : Nat × Nat) (off : Nat) : (s.setErr e off).glb = s.glb := rfl
@[simp] theorem State.setErr_xlt (s : State) (e : Nat × Nat) (off : Nat) : (s.setErr e off).xlt = s.xlt := rfl
@[simp] theorem State.setErr_slc (s : State) (e : Nat × Nat) (off : Nat) : (s.setErr e off).slc = s.slc := rfl
@[simp] theorem State.setErr_att (s : State) (e : Nat × Nat) (off : Nat) : (s.setErr e off).att = s.att := rfl
@[simp] theorem State.setErr_pwr (s : State) (e : Nat × Nat) (off : Nat) : (s.setErr e off).pwr = s.pwr := rfl
@[simp] theorem State.setErr_hif (s : State) (e : Nat × Nat) (off : Nat) : (s.setErr e off).hif = s.hif := rfl
@[simp] theorem State.setErr_mgmt (s : State) (e : Nat × Nat) (off : Nat) : (s.setErr e off).mgmt = s.mgmt := rfl
@[simp] theorem State.setErr_flt (s : State) (e : Nat × Nat) (off : Nat) : (s.setErr e off).flt = s.flt := rfl
@[simp] theorem State.setErr_evc (s : State) (e : Nat × Nat) (off : Nat) : (s.setErr e off).evc = s.evc := rfl
@[simp] theorem State.setErr_lve (s : State) (e : Nat × Nat) (off : Nat) : (s.setErr e off).lve = s.lve := rfl
@[simp] theorem State.setErr_aud (s : State) (e : Nat × Nat) (off : Nat) : (s.setErr e off).aud = s.aud := rfl
@[simp] theorem State.setErr_cwy (s : State) (e : Nat × Nat) (off : Nat) : (s.setErr e off).cwy = s.cwy := rfl
@[simp] theorem State.setErr_rbd (s : State) (e : Nat × Nat) (off : Nat) : (s.setErr e off).rbd = s.rbd := rfl
@[simp] theorem State.setErr_pea (s : State) (e : Nat × Nat) (off : Nat) : (s.setErr e off).pea = s.pea := rfl
@[simp] theorem State.setErr_sdg (s : State) (e : Nat × Nat) (off : Nat) : (s.setErr e off).sdg = s.sdg := rfl

/-! ### `setEvt` -/

@[simp] theorem State.setEvt_pending (s : State) (e : Nat × Nat) (off : Nat) : (s.setEvt e off).pending = s.pending := rfl
@[simp] theorem State.setEvt_now (s : State) (e : Nat × Nat) (off : Nat) : (s.setEvt e off).now = s.now := rfl
@[simp] theorem State.setEvt_mem (s : State) (e : Nat × Nat) (off : Nat) : (s.setEvt e off).mem = s.mem := rfl
@[simp] theorem State.setEvt_ctrs (s : State) (e : Nat × Nat) (off : Nat) : (s.setEvt e off).ctrs = s.ctrs := rfl
@[simp] theorem State.setEvt_latches (s : State) (e : Nat × Nat) (off : Nat) : (s.setEvt e off).latches = s.latches := rfl
@[simp] theorem State.setEvt_outs (s : State) (e : Nat × Nat) (off : Nat) : (s.setEvt e off).outs = s.outs := rfl
@[simp] theorem State.setEvt_fresh (s : State) (e : Nat × Nat) (off : Nat) : (s.setEvt e off).fresh = s.fresh := rfl
@[simp] theorem State.setEvt_glb (s : State) (e : Nat × Nat) (off : Nat) : (s.setEvt e off).glb = s.glb := rfl
@[simp] theorem State.setEvt_xlt (s : State) (e : Nat × Nat) (off : Nat) : (s.setEvt e off).xlt = s.xlt := rfl
@[simp] theorem State.setEvt_slc (s : State) (e : Nat × Nat) (off : Nat) : (s.setEvt e off).slc = s.slc := rfl
@[simp] theorem State.setEvt_att (s : State) (e : Nat × Nat) (off : Nat) : (s.setEvt e off).att = s.att := rfl
@[simp] theorem State.setEvt_pwr (s : State) (e : Nat × Nat) (off : Nat) : (s.setEvt e off).pwr = s.pwr := rfl
@[simp] theorem State.setEvt_hif (s : State) (e : Nat × Nat) (off : Nat) : (s.setEvt e off).hif = s.hif := rfl
@[simp] theorem State.setEvt_mgmt (s : State) (e : Nat × Nat) (off : Nat) : (s.setEvt e off).mgmt = s.mgmt := rfl
@[simp] theorem State.setEvt_flt (s : State) (e : Nat × Nat) (off : Nat) : (s.setEvt e off).flt = s.flt := rfl
@[simp] theorem State.setEvt_evc (s : State) (e : Nat × Nat) (off : Nat) : (s.setEvt e off).evc = s.evc := rfl
@[simp] theorem State.setEvt_lve (s : State) (e : Nat × Nat) (off : Nat) : (s.setEvt e off).lve = s.lve := rfl
@[simp] theorem State.setEvt_aud (s : State) (e : Nat × Nat) (off : Nat) : (s.setEvt e off).aud = s.aud := rfl
@[simp] theorem State.setEvt_cwy (s : State) (e : Nat × Nat) (off : Nat) : (s.setEvt e off).cwy = s.cwy := rfl
@[simp] theorem State.setEvt_rbd (s : State) (e : Nat × Nat) (off : Nat) : (s.setEvt e off).rbd = s.rbd := rfl
@[simp] theorem State.setEvt_pea (s : State) (e : Nat × Nat) (off : Nat) : (s.setEvt e off).pea = s.pea := rfl
@[simp] theorem State.setEvt_sdg (s : State) (e : Nat × Nat) (off : Nat) : (s.setEvt e off).sdg = s.sdg := rfl

/-! ### `bump` -/

@[simp] theorem State.bump_pending (s : State) (c n : Nat) : (s.bump c n).pending = s.pending := rfl
@[simp] theorem State.bump_now (s : State) (c n : Nat) : (s.bump c n).now = s.now := rfl
@[simp] theorem State.bump_mem (s : State) (c n : Nat) : (s.bump c n).mem = s.mem := rfl
@[simp] theorem State.bump_regs (s : State) (c n : Nat) : (s.bump c n).regs = s.regs := rfl
@[simp] theorem State.bump_latches (s : State) (c n : Nat) : (s.bump c n).latches = s.latches := rfl
@[simp] theorem State.bump_outs (s : State) (c n : Nat) : (s.bump c n).outs = s.outs := rfl
@[simp] theorem State.bump_fresh (s : State) (c n : Nat) : (s.bump c n).fresh = s.fresh := rfl
@[simp] theorem State.bump_glb (s : State) (c n : Nat) : (s.bump c n).glb = s.glb := rfl
@[simp] theorem State.bump_xlt (s : State) (c n : Nat) : (s.bump c n).xlt = s.xlt := rfl
@[simp] theorem State.bump_slc (s : State) (c n : Nat) : (s.bump c n).slc = s.slc := rfl
@[simp] theorem State.bump_att (s : State) (c n : Nat) : (s.bump c n).att = s.att := rfl
@[simp] theorem State.bump_pwr (s : State) (c n : Nat) : (s.bump c n).pwr = s.pwr := rfl
@[simp] theorem State.bump_hif (s : State) (c n : Nat) : (s.bump c n).hif = s.hif := rfl
@[simp] theorem State.bump_mgmt (s : State) (c n : Nat) : (s.bump c n).mgmt = s.mgmt := rfl
@[simp] theorem State.bump_flt (s : State) (c n : Nat) : (s.bump c n).flt = s.flt := rfl
@[simp] theorem State.bump_evc (s : State) (c n : Nat) : (s.bump c n).evc = s.evc := rfl
@[simp] theorem State.bump_lve (s : State) (c n : Nat) : (s.bump c n).lve = s.lve := rfl
@[simp] theorem State.bump_aud (s : State) (c n : Nat) : (s.bump c n).aud = s.aud := rfl
@[simp] theorem State.bump_cwy (s : State) (c n : Nat) : (s.bump c n).cwy = s.cwy := rfl
@[simp] theorem State.bump_rbd (s : State) (c n : Nat) : (s.bump c n).rbd = s.rbd := rfl
@[simp] theorem State.bump_pea (s : State) (c n : Nat) : (s.bump c n).pea = s.pea := rfl
@[simp] theorem State.bump_sdg (s : State) (c n : Nat) : (s.bump c n).sdg = s.sdg := rfl

/-! ### `emit` -/

@[simp] theorem State.emit_pending (s : State) (o : Out) : (s.emit o).pending = s.pending := rfl
@[simp] theorem State.emit_now (s : State) (o : Out) : (s.emit o).now = s.now := rfl
@[simp] theorem State.emit_mem (s : State) (o : Out) : (s.emit o).mem = s.mem := rfl
@[simp] theorem State.emit_regs (s : State) (o : Out) : (s.emit o).regs = s.regs := rfl
@[simp] theorem State.emit_ctrs (s : State) (o : Out) : (s.emit o).ctrs = s.ctrs := rfl
@[simp] theorem State.emit_latches (s : State) (o : Out) : (s.emit o).latches = s.latches := rfl
@[simp] theorem State.emit_fresh (s : State) (o : Out) : (s.emit o).fresh = s.fresh := rfl
@[simp] theorem State.emit_glb (s : State) (o : Out) : (s.emit o).glb = s.glb := rfl
@[simp] theorem State.emit_xlt (s : State) (o : Out) : (s.emit o).xlt = s.xlt := rfl
@[simp] theorem State.emit_slc (s : State) (o : Out) : (s.emit o).slc = s.slc := rfl
@[simp] theorem State.emit_att (s : State) (o : Out) : (s.emit o).att = s.att := rfl
@[simp] theorem State.emit_pwr (s : State) (o : Out) : (s.emit o).pwr = s.pwr := rfl
@[simp] theorem State.emit_hif (s : State) (o : Out) : (s.emit o).hif = s.hif := rfl
@[simp] theorem State.emit_mgmt (s : State) (o : Out) : (s.emit o).mgmt = s.mgmt := rfl
@[simp] theorem State.emit_flt (s : State) (o : Out) : (s.emit o).flt = s.flt := rfl
@[simp] theorem State.emit_evc (s : State) (o : Out) : (s.emit o).evc = s.evc := rfl
@[simp] theorem State.emit_lve (s : State) (o : Out) : (s.emit o).lve = s.lve := rfl
@[simp] theorem State.emit_aud (s : State) (o : Out) : (s.emit o).aud = s.aud := rfl
@[simp] theorem State.emit_cwy (s : State) (o : Out) : (s.emit o).cwy = s.cwy := rfl
@[simp] theorem State.emit_rbd (s : State) (o : Out) : (s.emit o).rbd = s.rbd := rfl
@[simp] theorem State.emit_pea (s : State) (o : Out) : (s.emit o).pea = s.pea := rfl
@[simp] theorem State.emit_sdg (s : State) (o : Out) : (s.emit o).sdg = s.sdg := rfl

/-! ### `draw_snd` -/

@[simp] theorem State.draw_snd_pending (s : State) : (s.draw.2).pending = s.pending := rfl
@[simp] theorem State.draw_snd_now (s : State) : (s.draw.2).now = s.now := rfl
@[simp] theorem State.draw_snd_mem (s : State) : (s.draw.2).mem = s.mem := rfl
@[simp] theorem State.draw_snd_regs (s : State) : (s.draw.2).regs = s.regs := rfl
@[simp] theorem State.draw_snd_ctrs (s : State) : (s.draw.2).ctrs = s.ctrs := rfl
@[simp] theorem State.draw_snd_latches (s : State) : (s.draw.2).latches = s.latches := rfl
@[simp] theorem State.draw_snd_outs (s : State) : (s.draw.2).outs = s.outs := rfl
@[simp] theorem State.draw_snd_glb (s : State) : (s.draw.2).glb = s.glb := rfl
@[simp] theorem State.draw_snd_xlt (s : State) : (s.draw.2).xlt = s.xlt := rfl
@[simp] theorem State.draw_snd_slc (s : State) : (s.draw.2).slc = s.slc := rfl
@[simp] theorem State.draw_snd_att (s : State) : (s.draw.2).att = s.att := rfl
@[simp] theorem State.draw_snd_pwr (s : State) : (s.draw.2).pwr = s.pwr := rfl
@[simp] theorem State.draw_snd_hif (s : State) : (s.draw.2).hif = s.hif := rfl
@[simp] theorem State.draw_snd_mgmt (s : State) : (s.draw.2).mgmt = s.mgmt := rfl
@[simp] theorem State.draw_snd_flt (s : State) : (s.draw.2).flt = s.flt := rfl
@[simp] theorem State.draw_snd_evc (s : State) : (s.draw.2).evc = s.evc := rfl
@[simp] theorem State.draw_snd_lve (s : State) : (s.draw.2).lve = s.lve := rfl
@[simp] theorem State.draw_snd_aud (s : State) : (s.draw.2).aud = s.aud := rfl
@[simp] theorem State.draw_snd_cwy (s : State) : (s.draw.2).cwy = s.cwy := rfl
@[simp] theorem State.draw_snd_rbd (s : State) : (s.draw.2).rbd = s.rbd := rfl
@[simp] theorem State.draw_snd_pea (s : State) : (s.draw.2).pea = s.pea := rfl
@[simp] theorem State.draw_snd_sdg (s : State) : (s.draw.2).sdg = s.sdg := rfl

/-! ### `memWrite` -/

@[simp] theorem State.memWrite_pending (s : State) (tier addr : Nat) (bs : List Byte) : (s.memWrite tier addr bs).pending = s.pending := rfl
@[simp] theorem State.memWrite_now (s : State) (tier addr : Nat) (bs : List Byte) : (s.memWrite tier addr bs).now = s.now := rfl
@[simp] theorem State.memWrite_regs (s : State) (tier addr : Nat) (bs : List Byte) : (s.memWrite tier addr bs).regs = s.regs := rfl
@[simp] theorem State.memWrite_ctrs (s : State) (tier addr : Nat) (bs : List Byte) : (s.memWrite tier addr bs).ctrs = s.ctrs := rfl
@[simp] theorem State.memWrite_latches (s : State) (tier addr : Nat) (bs : List Byte) : (s.memWrite tier addr bs).latches = s.latches := rfl
@[simp] theorem State.memWrite_outs (s : State) (tier addr : Nat) (bs : List Byte) : (s.memWrite tier addr bs).outs = s.outs := rfl
@[simp] theorem State.memWrite_fresh (s : State) (tier addr : Nat) (bs : List Byte) : (s.memWrite tier addr bs).fresh = s.fresh := rfl
@[simp] theorem State.memWrite_glb (s : State) (tier addr : Nat) (bs : List Byte) : (s.memWrite tier addr bs).glb = s.glb := rfl
@[simp] theorem State.memWrite_xlt (s : State) (tier addr : Nat) (bs : List Byte) : (s.memWrite tier addr bs).xlt = s.xlt := rfl
@[simp] theorem State.memWrite_slc (s : State) (tier addr : Nat) (bs : List Byte) : (s.memWrite tier addr bs).slc = s.slc := rfl
@[simp] theorem State.memWrite_att (s : State) (tier addr : Nat) (bs : List Byte) : (s.memWrite tier addr bs).att = s.att := rfl
@[simp] theorem State.memWrite_pwr (s : State) (tier addr : Nat) (bs : List Byte) : (s.memWrite tier addr bs).pwr = s.pwr := rfl
@[simp] theorem State.memWrite_hif (s : State) (tier addr : Nat) (bs : List Byte) : (s.memWrite tier addr bs).hif = s.hif := rfl
@[simp] theorem State.memWrite_mgmt (s : State) (tier addr : Nat) (bs : List Byte) : (s.memWrite tier addr bs).mgmt = s.mgmt := rfl
@[simp] theorem State.memWrite_flt (s : State) (tier addr : Nat) (bs : List Byte) : (s.memWrite tier addr bs).flt = s.flt := rfl
@[simp] theorem State.memWrite_evc (s : State) (tier addr : Nat) (bs : List Byte) : (s.memWrite tier addr bs).evc = s.evc := rfl
@[simp] theorem State.memWrite_lve (s : State) (tier addr : Nat) (bs : List Byte) : (s.memWrite tier addr bs).lve = s.lve := rfl
@[simp] theorem State.memWrite_aud (s : State) (tier addr : Nat) (bs : List Byte) : (s.memWrite tier addr bs).aud = s.aud := rfl
@[simp] theorem State.memWrite_cwy (s : State) (tier addr : Nat) (bs : List Byte) : (s.memWrite tier addr bs).cwy = s.cwy := rfl
@[simp] theorem State.memWrite_rbd (s : State) (tier addr : Nat) (bs : List Byte) : (s.memWrite tier addr bs).rbd = s.rbd := rfl
@[simp] theorem State.memWrite_pea (s : State) (tier addr : Nat) (bs : List Byte) : (s.memWrite tier addr bs).pea = s.pea := rfl
@[simp] theorem State.memWrite_sdg (s : State) (tier addr : Nat) (bs : List Byte) : (s.memWrite tier addr bs).sdg = s.sdg := rfl

/-! ### `settle` -/

@[simp] theorem State.settle_pending (s : State) : (s.settle).pending = s.pending := rfl
@[simp] theorem State.settle_now (s : State) : (s.settle).now = s.now := rfl
@[simp] theorem State.settle_mem (s : State) : (s.settle).mem = s.mem := rfl
@[simp] theorem State.settle_regs (s : State) : (s.settle).regs = s.regs := rfl
@[simp] theorem State.settle_ctrs (s : State) : (s.settle).ctrs = s.ctrs := rfl
@[simp] theorem State.settle_latches (s : State) : (s.settle).latches = s.latches := rfl
@[simp] theorem State.settle_outs (s : State) : (s.settle).outs = s.outs := rfl
@[simp] theorem State.settle_fresh (s : State) : (s.settle).fresh = s.fresh := rfl
@[simp] theorem State.settle_glb (s : State) : (s.settle).glb = s.glb := rfl
@[simp] theorem State.settle_xlt (s : State) : (s.settle).xlt = s.xlt := rfl
@[simp] theorem State.settle_slc (s : State) : (s.settle).slc = s.slc := rfl
@[simp] theorem State.settle_att (s : State) : (s.settle).att = s.att := rfl
@[simp] theorem State.settle_pwr (s : State) : (s.settle).pwr = s.pwr := rfl
@[simp] theorem State.settle_hif (s : State) : (s.settle).hif = s.hif := rfl
@[simp] theorem State.settle_mgmt (s : State) : (s.settle).mgmt = s.mgmt := rfl
@[simp] theorem State.settle_flt (s : State) : (s.settle).flt = s.flt := rfl
@[simp] theorem State.settle_lve (s : State) : (s.settle).lve = s.lve := rfl
@[simp] theorem State.settle_aud (s : State) : (s.settle).aud = s.aud := rfl
@[simp] theorem State.settle_cwy (s : State) : (s.settle).cwy = s.cwy := rfl
@[simp] theorem State.settle_rbd (s : State) : (s.settle).rbd = s.rbd := rfl
@[simp] theorem State.settle_pea (s : State) : (s.settle).pea = s.pea := rfl
@[simp] theorem State.settle_sdg (s : State) : (s.settle).sdg = s.sdg := rfl

/-! ### The frames of the commands -/

@[simp] theorem State.after_pending (s t : State) : (s.after t).pending = s.pending := rfl
@[simp] theorem State.after_now (s t : State) : (s.after t).now = s.now := rfl
@[simp] theorem State.after_mem (s t : State) : (s.after t).mem = s.mem := rfl
@[simp] theorem State.after_regs (s t : State) : (s.after t).regs = t.regs := rfl
@[simp] theorem State.after_ctrs (s t : State) : (s.after t).ctrs = t.ctrs := rfl
@[simp] theorem State.after_latches (s t : State) : (s.after t).latches = t.latches := rfl
@[simp] theorem State.after_outs (s t : State) : (s.after t).outs = t.outs := rfl
@[simp] theorem State.after_fresh (s t : State) : (s.after t).fresh = t.fresh := rfl
@[simp] theorem State.after_glb (s t : State) : (s.after t).glb = t.glb := rfl
@[simp] theorem State.after_xlt (s t : State) : (s.after t).xlt = t.xlt := rfl
@[simp] theorem State.after_slc (s t : State) : (s.after t).slc = t.slc := rfl
@[simp] theorem State.after_att (s t : State) : (s.after t).att = t.att := rfl
@[simp] theorem State.after_pwr (s t : State) : (s.after t).pwr = t.pwr := rfl
@[simp] theorem State.after_hif (s t : State) : (s.after t).hif = t.hif := rfl
@[simp] theorem State.after_mgmt (s t : State) : (s.after t).mgmt = t.mgmt := rfl
@[simp] theorem State.after_flt (s t : State) : (s.after t).flt = t.flt := rfl
@[simp] theorem State.after_lve (s t : State) : (s.after t).lve = t.lve := rfl
@[simp] theorem State.after_aud (s t : State) : (s.after t).aud = t.aud := rfl
@[simp] theorem State.after_cwy (s t : State) : (s.after t).cwy = t.cwy := rfl
@[simp] theorem State.after_rbd (s t : State) : (s.after t).rbd = t.rbd := rfl
@[simp] theorem State.after_pea (s t : State) : (s.after t).pea = t.pea := rfl
@[simp] theorem State.after_sdg (s t : State) : (s.after t).sdg = t.sdg := rfl
@[simp] theorem State.after_evc_soft (s t : State) : (s.after t).evc.soft = t.evc.soft := rfl
@[simp] theorem State.after_evc_running (s t : State) : (s.after t).evc.running = t.evc.running := rfl
@[simp] theorem State.after_evc_waiting (s t : State) : (s.after t).evc.waiting = t.evc.waiting := rfl

@[simp] theorem State.afterMem_pending (s t : State) : (s.afterMem t).pending = s.pending := rfl
@[simp] theorem State.afterMem_now (s t : State) : (s.afterMem t).now = s.now := rfl
@[simp] theorem State.afterMem_mem (s t : State) : (s.afterMem t).mem = Memory.canon t.mem := rfl
@[simp] theorem State.afterMem_regs (s t : State) : (s.afterMem t).regs = t.regs := rfl
@[simp] theorem State.afterMem_ctrs (s t : State) : (s.afterMem t).ctrs = t.ctrs := rfl
@[simp] theorem State.afterMem_latches (s t : State) : (s.afterMem t).latches = t.latches := rfl
@[simp] theorem State.afterMem_outs (s t : State) : (s.afterMem t).outs = t.outs := rfl
@[simp] theorem State.afterMem_fresh (s t : State) : (s.afterMem t).fresh = t.fresh := rfl
@[simp] theorem State.afterMem_glb (s t : State) : (s.afterMem t).glb = t.glb := rfl
@[simp] theorem State.afterMem_xlt (s t : State) : (s.afterMem t).xlt = t.xlt := rfl
@[simp] theorem State.afterMem_slc (s t : State) : (s.afterMem t).slc = t.slc := rfl
@[simp] theorem State.afterMem_att (s t : State) : (s.afterMem t).att = t.att := rfl
@[simp] theorem State.afterMem_pwr (s t : State) : (s.afterMem t).pwr = t.pwr := rfl
@[simp] theorem State.afterMem_hif (s t : State) : (s.afterMem t).hif = t.hif := rfl
@[simp] theorem State.afterMem_mgmt (s t : State) : (s.afterMem t).mgmt = t.mgmt := rfl
@[simp] theorem State.afterMem_flt (s t : State) : (s.afterMem t).flt = t.flt := rfl
@[simp] theorem State.afterMem_lve (s t : State) : (s.afterMem t).lve = t.lve := rfl
@[simp] theorem State.afterMem_aud (s t : State) : (s.afterMem t).aud = t.aud := rfl
@[simp] theorem State.afterMem_cwy (s t : State) : (s.afterMem t).cwy = t.cwy := rfl
@[simp] theorem State.afterMem_rbd (s t : State) : (s.afterMem t).rbd = t.rbd := rfl
@[simp] theorem State.afterMem_pea (s t : State) : (s.afterMem t).pea = t.pea := rfl
@[simp] theorem State.afterMem_sdg (s t : State) : (s.afterMem t).sdg = t.sdg := rfl
@[simp] theorem State.afterMem_evc_soft (s t : State) : (s.afterMem t).evc.soft = t.evc.soft := rfl
@[simp] theorem State.afterMem_evc_running (s t : State) : (s.afterMem t).evc.running = t.evc.running := rfl
@[simp] theorem State.afterMem_evc_waiting (s t : State) : (s.afterMem t).evc.waiting = t.evc.waiting := rfl

@[simp] theorem State.afterReset_pending (s t : State) : (s.afterReset t).pending = s.pending := rfl
@[simp] theorem State.afterReset_now (s t : State) : (s.afterReset t).now = t.now := rfl
@[simp] theorem State.afterReset_mem (s t : State) : (s.afterReset t).mem = Memory.canon t.mem := rfl
@[simp] theorem State.afterReset_regs (s t : State) : (s.afterReset t).regs = t.regs := rfl
@[simp] theorem State.afterReset_ctrs (s t : State) : (s.afterReset t).ctrs = t.ctrs := rfl
@[simp] theorem State.afterReset_latches (s t : State) : (s.afterReset t).latches = t.latches := rfl
@[simp] theorem State.afterReset_outs (s t : State) : (s.afterReset t).outs = t.outs := rfl
@[simp] theorem State.afterReset_fresh (s t : State) : (s.afterReset t).fresh = t.fresh := rfl
@[simp] theorem State.afterReset_glb (s t : State) : (s.afterReset t).glb = t.glb := rfl
@[simp] theorem State.afterReset_xlt (s t : State) : (s.afterReset t).xlt = t.xlt := rfl
@[simp] theorem State.afterReset_slc (s t : State) : (s.afterReset t).slc = t.slc := rfl
@[simp] theorem State.afterReset_att (s t : State) : (s.afterReset t).att = t.att := rfl
@[simp] theorem State.afterReset_pwr (s t : State) : (s.afterReset t).pwr = t.pwr := rfl
@[simp] theorem State.afterReset_hif (s t : State) : (s.afterReset t).hif = t.hif := rfl
@[simp] theorem State.afterReset_mgmt (s t : State) : (s.afterReset t).mgmt = t.mgmt := rfl
@[simp] theorem State.afterReset_flt (s t : State) : (s.afterReset t).flt = t.flt := rfl
@[simp] theorem State.afterReset_lve (s t : State) : (s.afterReset t).lve = t.lve := rfl
@[simp] theorem State.afterReset_aud (s t : State) : (s.afterReset t).aud = t.aud := rfl
@[simp] theorem State.afterReset_cwy (s t : State) : (s.afterReset t).cwy = t.cwy := rfl
@[simp] theorem State.afterReset_rbd (s t : State) : (s.afterReset t).rbd = t.rbd := rfl
@[simp] theorem State.afterReset_pea (s t : State) : (s.afterReset t).pea = t.pea := rfl
@[simp] theorem State.afterReset_sdg (s t : State) : (s.afterReset t).sdg = t.sdg := rfl
@[simp] theorem State.afterReset_evc_soft (s t : State) : (s.afterReset t).evc.soft = t.evc.soft := rfl
@[simp] theorem State.afterReset_evc_running (s t : State) : (s.afterReset t).evc.running = t.evc.running := rfl
@[simp] theorem State.afterReset_evc_waiting (s t : State) : (s.afterReset t).evc.waiting = t.evc.waiting := rfl

@[simp] theorem State.settle_evc_soft (s : State) : s.settle.evc.soft = s.evc.soft := rfl
@[simp] theorem State.settle_evc_running (s : State) : s.settle.evc.running = s.evc.running := rfl
@[simp] theorem State.settle_evc_waiting (s : State) : s.settle.evc.waiting = s.evc.waiting := rfl

/-! ### What the updates give -/

theorem State.emit_outs (s : State) (o : Out) : (s.emit o).outs = o :: s.outs := rfl
theorem State.draw_fst (s : State) : s.draw.1 = s.fresh := rfl
theorem State.draw_snd_fresh (s : State) : s.draw.2.fresh = s.fresh + 1 := rfl
theorem State.reg_def (s : State) (a : Nat) (v : Word) (h : s.regs.get? a = some v) : s.reg a = v.toNat := by
  simp [State.reg, h]

end Sys2Proof.Machine
end

