-- ==== Sys2Proof/Laws/Memory.lean ====
section
/-! SUPPORT. Laws/Memory.lean: memory keeps its canonical form, gives what was written, and keeps every other byte. -/

namespace Sys2Proof.Machine

theorem Memory.wf_nil : Memory.wf [] := ⟨List.Pairwise.nil, by simp⟩

theorem Memory.wf_cons (c : Host.Cell) (m : List Host.Cell) :
    Memory.wf (c :: m) ↔ c.2 ≠ 0#8 ∧ (∀ x ∈ m, c.1 < x.1) ∧ Memory.wf m := by
  simp only [Memory.wf, List.pairwise_cons, List.mem_cons, forall_eq_or_imp]
  tauto

/-- Every entry of the memory after a write is the byte written or an entry from before. -/
theorem Memory.mem_write (m : List Host.Cell) (a : Nat) (b : Byte) (c : Host.Cell) (h : c ∈ Memory.write m a b) :
    c = (a, b) ∨ c ∈ m := by
  induction m with
  | nil =>
    simp only [Memory.write] at h
    split at h <;> simp_all
  | cons x xs ih =>
    obtain ⟨k, d⟩ := x
    simp only [Memory.write] at h
    split at h
    · split at h <;> simp_all
    · split at h
      · split at h
        · exact .inr (List.mem_cons_of_mem _ h)
        · rcases List.mem_cons.mp h with h | h
          · exact .inl h
          · exact .inr (List.mem_cons_of_mem _ h)
      · rcases List.mem_cons.mp h with h | h
        · exact .inr (by simp [h])
        · rcases ih h with h | h
          · exact .inl h
          · exact .inr (List.mem_cons_of_mem _ h)

theorem Memory.write_wf (m : List Host.Cell) (a : Nat) (b : Byte) (h : Memory.wf m) : Memory.wf (Memory.write m a b) := by
  induction m with
  | nil =>
    by_cases hb : b = Memory.unlisted
    · rw [Memory.write, if_pos hb]; exact Memory.wf_nil
    · rw [Memory.write, if_neg hb]; exact (Memory.wf_cons _ _).mpr ⟨hb, by simp, Memory.wf_nil⟩
  | cons x xs ih =>
    obtain ⟨k, d⟩ := x
    have ⟨hd, hk, hw⟩ := (Memory.wf_cons _ _).mp h
    rw [Memory.write]
    by_cases hlt : a < k
    · rw [if_pos hlt]
      by_cases hb : b = Memory.unlisted
      · rw [if_pos hb]; exact h
      · rw [if_neg hb]
        refine (Memory.wf_cons _ _).mpr ⟨hb, ?_, h⟩
        intro y hy
        rcases List.mem_cons.mp hy with rfl | hy
        · exact hlt
        · exact lt_trans hlt (hk y hy)
    · rw [if_neg hlt]
      by_cases heq : a = k
      · rw [if_pos heq]
        by_cases hb : b = Memory.unlisted
        · rw [if_pos hb]; exact hw
        · rw [if_neg hb]
          exact (Memory.wf_cons _ _).mpr ⟨hb, fun y hy => by have := hk y hy; simp_all, hw⟩
      · rw [if_neg heq]
        refine (Memory.wf_cons _ _).mpr ⟨hd, ?_, ih hw⟩
        intro y hy
        rcases Memory.mem_write xs a b y hy with rfl | hy
        · simp only; omega
        · exact hk y hy

/-- The canonical list of any cells is in canonical form. -/
theorem Memory.canon_wf (m : List Host.Cell) : Memory.wf (Memory.canon m) := by
  induction m with
  | nil => exact Memory.wf_nil
  | cons x xs ih => exact Memory.write_wf _ _ _ ih

theorem Memory.read_of_lt (m : List Host.Cell) (a : Nat) (h : ∀ c ∈ m, a < c.1) : Memory.read m a = Memory.unlisted := by
  induction m with
  | nil => rfl
  | cons x xs ih =>
    obtain ⟨k, d⟩ := x
    have hk : a < k := h (k, d) (by simp)
    have hne : k ≠ a := by omega
    simp only [Memory.read, if_neg hne]
    exact ih fun c hc => h c (List.mem_cons_of_mem _ hc)

/-- A byte written reads back. -/
theorem Memory.read_write_same (m : List Host.Cell) (a : Nat) (b : Byte) (h : Memory.wf m) :
    Memory.read (Memory.write m a b) a = b := by
  induction m with
  | nil => simp only [Memory.write]; split <;> simp_all [Memory.read]
  | cons x xs ih =>
    obtain ⟨k, d⟩ := x
    have ⟨hd, hk, hw⟩ := (Memory.wf_cons _ _).mp h
    simp only [Memory.write]
    split
    · rename_i hlt
      split
      · rename_i hb
        rw [hb]
        exact Memory.read_of_lt _ _ fun c hc => by
          rcases List.mem_cons.mp hc with rfl | hc
          · exact hlt
          · exact lt_trans hlt (hk c hc)
      · simp [Memory.read]
    · split
      · rename_i hlt heq
        subst heq
        split
        · rename_i hb
          rw [hb]
          exact Memory.read_of_lt _ _ hk
        · simp [Memory.read]
      · rename_i hlt heq
        simp only [Memory.read, if_neg (Ne.symm heq)]
        exact ih hw

/-- A write keeps every other byte. -/
theorem Memory.read_write_other (m : List Host.Cell) (a x : Nat) (b : Byte) (h : x ≠ a) :
    Memory.read (Memory.write m a b) x = Memory.read m x := by
  induction m with
  | nil => simp only [Memory.write]; split <;> simp_all [Memory.read, Ne.symm h]
  | cons y ys ih =>
    obtain ⟨k, d⟩ := y
    simp only [Memory.write]
    split
    · split
      · rfl
      · simp [Memory.read, Ne.symm h]
    · split
      · rename_i hlt heq
        subst heq
        split <;> simp [Memory.read, Ne.symm h]
      · simp only [Memory.read, ih]

/-- Listing the cells in canonical form changes no byte. -/
theorem Memory.read_canon (m : List Host.Cell) (h : m.Pairwise (fun a b => a.1 < b.1)) (x : Nat) :
    Memory.read (Memory.canon m) x = Memory.read m x := by
  induction m with
  | nil => rfl
  | cons y ys ih =>
    obtain ⟨k, d⟩ := y
    have ⟨hk, hp⟩ := List.pairwise_cons.mp h
    show Memory.read (Memory.write (Memory.canon ys) k d) x = _
    by_cases hx : x = k
    · subst hx
      rw [Memory.read_write_same _ _ _ (Memory.canon_wf ys)]
      simp [Memory.read]
    · rw [Memory.read_write_other _ _ _ _ hx, ih hp]
      simp [Memory.read, Ne.symm hx]

end Sys2Proof.Machine
end

