-- ==== Sys2Proof/Laws/Ops.lean ====
section
/-! SUPPORT. Laws/Ops.lean: what the shared operations leave alone, one lemma for each field. -/

namespace Sys2Proof.Machine

/-! ### `audit` -/

@[simp] theorem State.audit_pending (s : State) (d : Nat) (w : Who) (k a : Nat) (o n : List Byte) : (s.audit d w k a o n).pending = s.pending := rfl
@[simp] theorem State.audit_now (s : State) (d : Nat) (w : Who) (k a : Nat) (o n : List Byte) : (s.audit d w k a o n).now = s.now := rfl
@[simp] theorem State.audit_mem (s : State) (d : Nat) (w : Who) (k a : Nat) (o n : List Byte) : (s.audit d w k a o n).mem = s.mem := rfl
@[simp] theorem State.audit_ctrs (s : State) (d : Nat) (w : Who) (k a : Nat) (o n : List Byte) : (s.audit d w k a o n).ctrs = s.ctrs := rfl
@[simp] theorem State.audit_latches (s : State) (d : Nat) (w : Who) (k a : Nat) (o n : List Byte) : (s.audit d w k a o n).latches = s.latches := rfl
@[simp] theorem State.audit_outs (s : State) (d : Nat) (w : Who) (k a : Nat) (o n : List Byte) : (s.audit d w k a o n).outs = s.outs := rfl
@[simp] theorem State.audit_fresh (s : State) (d : Nat) (w : Who) (k a : Nat) (o n : List Byte) : (s.audit d w k a o n).fresh = s.fresh := rfl
@[simp] theorem State.audit_glb (s : State) (d : Nat) (w : Who) (k a : Nat) (o n : List Byte) : (s.audit d w k a o n).glb = s.glb := rfl
@[simp] theorem State.audit_xlt (s : State) (d : Nat) (w : Who) (k a : Nat) (o n : List Byte) : (s.audit d w k a o n).xlt = s.xlt := rfl
@[simp] theorem State.audit_slc (s : State) (d : Nat) (w : Who) (k a : Nat) (o n : List Byte) : (s.audit d w k a o n).slc = s.slc := rfl
@[simp] theorem State.audit_att (s : State) (d : Nat) (w : Who) (k a : Nat) (o n : List Byte) : (s.audit d w k a o n).att = s.att := rfl
@[simp] theorem State.audit_hif (s : State) (d : Nat) (w : Who) (k a : Nat) (o n : List Byte) : (s.audit d w k a o n).hif = s.hif := rfl
@[simp] theorem State.audit_mgmt (s : State) (d : Nat) (w : Who) (k a : Nat) (o n : List Byte) : (s.audit d w k a o n).mgmt = s.mgmt := rfl
@[simp] theorem State.audit_flt (s : State) (d : Nat) (w : Who) (k a : Nat) (o n : List Byte) : (s.audit d w k a o n).flt = s.flt := rfl
@[simp] theorem State.audit_evc (s : State) (d : Nat) (w : Who) (k a : Nat) (o n : List Byte) : (s.audit d w k a o n).evc = s.evc := rfl
@[simp] theorem State.audit_lve (s : State) (d : Nat) (w : Who) (k a : Nat) (o n : List Byte) : (s.audit d w k a o n).lve = s.lve := rfl
@[simp] theorem State.audit_cwy (s : State) (d : Nat) (w : Who) (k a : Nat) (o n : List Byte) : (s.audit d w k a o n).cwy = s.cwy := rfl
@[simp] theorem State.audit_rbd (s : State) (d : Nat) (w : Who) (k a : Nat) (o n : List Byte) : (s.audit d w k a o n).rbd = s.rbd := rfl
@[simp] theorem State.audit_pea (s : State) (d : Nat) (w : Who) (k a : Nat) (o n : List Byte) : (s.audit d w k a o n).pea = s.pea := rfl
@[simp] theorem State.audit_sdg (s : State) (d : Nat) (w : Who) (k a : Nat) (o n : List Byte) : (s.audit d w k a o n).sdg = s.sdg := rfl

/-! ### `complete` -/

@[simp] theorem State.complete_pending (s : State) (r : Requester) (c : Cpl) : (s.complete r c).pending = s.pending := rfl
@[simp] theorem State.complete_now (s : State) (r : Requester) (c : Cpl) : (s.complete r c).now = s.now := rfl
@[simp] theorem State.complete_mem (s : State) (r : Requester) (c : Cpl) : (s.complete r c).mem = s.mem := rfl
@[simp] theorem State.complete_latches (s : State) (r : Requester) (c : Cpl) : (s.complete r c).latches = s.latches := rfl
@[simp] theorem State.complete_fresh (s : State) (r : Requester) (c : Cpl) : (s.complete r c).fresh = s.fresh := rfl
@[simp] theorem State.complete_glb (s : State) (r : Requester) (c : Cpl) : (s.complete r c).glb = s.glb := rfl
@[simp] theorem State.complete_xlt (s : State) (r : Requester) (c : Cpl) : (s.complete r c).xlt = s.xlt := rfl
@[simp] theorem State.complete_slc (s : State) (r : Requester) (c : Cpl) : (s.complete r c).slc = s.slc := rfl
@[simp] theorem State.complete_att (s : State) (r : Requester) (c : Cpl) : (s.complete r c).att = s.att := rfl
@[simp] theorem State.complete_pwr (s : State) (r : Requester) (c : Cpl) : (s.complete r c).pwr = s.pwr := rfl
@[simp] theorem State.complete_mgmt (s : State) (r : Requester) (c : Cpl) : (s.complete r c).mgmt = s.mgmt := rfl
@[simp] theorem State.complete_evc (s : State) (r : Requester) (c : Cpl) : (s.complete r c).evc = s.evc := rfl
@[simp] theorem State.complete_aud (s : State) (r : Requester) (c : Cpl) : (s.complete r c).aud = s.aud := rfl
@[simp] theorem State.complete_rbd (s : State) (r : Requester) (c : Cpl) : (s.complete r c).rbd = s.rbd := rfl
@[simp] theorem State.complete_pea (s : State) (r : Requester) (c : Cpl) : (s.complete r c).pea = s.pea := rfl
@[simp] theorem State.complete_sdg (s : State) (r : Requester) (c : Cpl) : (s.complete r c).sdg = s.sdg := rfl

/-! ### `fail` -/

@[simp] theorem State.fail_pending (s : State) (r : Requester) (c : Status) : (s.fail r c).pending = s.pending := rfl
@[simp] theorem State.fail_now (s : State) (r : Requester) (c : Status) : (s.fail r c).now = s.now := rfl
@[simp] theorem State.fail_mem (s : State) (r : Requester) (c : Status) : (s.fail r c).mem = s.mem := rfl
@[simp] theorem State.fail_latches (s : State) (r : Requester) (c : Status) : (s.fail r c).latches = s.latches := rfl
@[simp] theorem State.fail_fresh (s : State) (r : Requester) (c : Status) : (s.fail r c).fresh = s.fresh := rfl
@[simp] theorem State.fail_glb (s : State) (r : Requester) (c : Status) : (s.fail r c).glb = s.glb := rfl
@[simp] theorem State.fail_xlt (s : State) (r : Requester) (c : Status) : (s.fail r c).xlt = s.xlt := rfl
@[simp] theorem State.fail_slc (s : State) (r : Requester) (c : Status) : (s.fail r c).slc = s.slc := rfl
@[simp] theorem State.fail_att (s : State) (r : Requester) (c : Status) : (s.fail r c).att = s.att := rfl
@[simp] theorem State.fail_pwr (s : State) (r : Requester) (c : Status) : (s.fail r c).pwr = s.pwr := rfl
@[simp] theorem State.fail_mgmt (s : State) (r : Requester) (c : Status) : (s.fail r c).mgmt = s.mgmt := rfl
@[simp] theorem State.fail_evc (s : State) (r : Requester) (c : Status) : (s.fail r c).evc = s.evc := rfl
@[simp] theorem State.fail_aud (s : State) (r : Requester) (c : Status) : (s.fail r c).aud = s.aud := rfl
@[simp] theorem State.fail_rbd (s : State) (r : Requester) (c : Status) : (s.fail r c).rbd = s.rbd := rfl
@[simp] theorem State.fail_pea (s : State) (r : Requester) (c : Status) : (s.fail r c).pea = s.pea := rfl
@[simp] theorem State.fail_sdg (s : State) (r : Requester) (c : Status) : (s.fail r c).sdg = s.sdg := rfl

/-! ### `only` -/

@[simp] theorem State.only_pending (s : State) (c : Scope) (t : State) : (s.only c t).pending = s.pending := rfl
@[simp] theorem State.only_now (s : State) (c : Scope) (t : State) : (s.only c t).now = s.now := rfl
@[simp] theorem State.only_mem (s : State) (c : Scope) (t : State) : (s.only c t).mem = s.mem := rfl
theorem State.only_latches (s : State) (c : Scope) (t : State) (h : c.latches = false) : (s.only c t).latches = s.latches := by rw [State.only, h]; rfl
theorem State.only_glb (s : State) (c : Scope) (t : State) (h : c.glb = false) : (s.only c t).glb = s.glb := by rw [State.only, h]; rfl
theorem State.only_slc (s : State) (c : Scope) (t : State) (h : c.slc = false) : (s.only c t).slc = s.slc := by rw [State.only, h]; rfl
theorem State.only_mgmt (s : State) (c : Scope) (t : State) (h : c.mgmt = false) : (s.only c t).mgmt = s.mgmt := by rw [State.only, h]; rfl
theorem State.only_evc (s : State) (c : Scope) (t : State) (h : c.evc = false) : (s.only c t).evc = s.evc := by rw [State.only, h]; rfl
theorem State.only_rbd (s : State) (c : Scope) (t : State) (h : c.rbd = false) : (s.only c t).rbd = s.rbd := by rw [State.only, h]; rfl
theorem State.only_pea (s : State) (c : Scope) (t : State) (h : c.pea = false) : (s.only c t).pea = s.pea := by rw [State.only, h]; rfl
theorem State.only_sdg (s : State) (c : Scope) (t : State) (h : c.sdg = false) : (s.only c t).sdg = s.sdg := by rw [State.only, h]; rfl

/-! ### `cwyFollow` -/

@[simp] theorem State.cwyFollow_pending (s t : State) : (s.cwyFollow t).pending = t.pending := State.only_pending _ _ _
@[simp] theorem State.cwyFollow_now (s t : State) : (s.cwyFollow t).now = t.now := State.only_now _ _ _
@[simp] theorem State.cwyFollow_mem (s t : State) : (s.cwyFollow t).mem = t.mem := State.only_mem _ _ _
@[simp] theorem State.cwyFollow_latches (s t : State) : (s.cwyFollow t).latches = t.latches := State.only_latches _ _ _ rfl
@[simp] theorem State.cwyFollow_glb (s t : State) : (s.cwyFollow t).glb = t.glb := State.only_glb _ _ _ rfl
@[simp] theorem State.cwyFollow_slc (s t : State) : (s.cwyFollow t).slc = t.slc := State.only_slc _ _ _ rfl
@[simp] theorem State.cwyFollow_mgmt (s t : State) : (s.cwyFollow t).mgmt = t.mgmt := State.only_mgmt _ _ _ rfl
@[simp] theorem State.cwyFollow_evc (s t : State) : (s.cwyFollow t).evc = t.evc := State.only_evc _ _ _ rfl
@[simp] theorem State.cwyFollow_rbd (s t : State) : (s.cwyFollow t).rbd = t.rbd := State.only_rbd _ _ _ rfl
@[simp] theorem State.cwyFollow_pea (s t : State) : (s.cwyFollow t).pea = t.pea := State.only_pea _ _ _ rfl
@[simp] theorem State.cwyFollow_sdg (s t : State) : (s.cwyFollow t).sdg = t.sdg := State.only_sdg _ _ _ rfl

/-! ### `setFunc` -/

@[simp] theorem State.setFunc_pending (s : State) (n : Nat) (f : Func → Func) : (s.setFunc n f).pending = s.pending := rfl
@[simp] theorem State.setFunc_now (s : State) (n : Nat) (f : Func → Func) : (s.setFunc n f).now = s.now := rfl
@[simp] theorem State.setFunc_mem (s : State) (n : Nat) (f : Func → Func) : (s.setFunc n f).mem = s.mem := rfl
@[simp] theorem State.setFunc_regs (s : State) (n : Nat) (f : Func → Func) : (s.setFunc n f).regs = s.regs := rfl
@[simp] theorem State.setFunc_ctrs (s : State) (n : Nat) (f : Func → Func) : (s.setFunc n f).ctrs = s.ctrs := rfl
@[simp] theorem State.setFunc_latches (s : State) (n : Nat) (f : Func → Func) : (s.setFunc n f).latches = s.latches := rfl
@[simp] theorem State.setFunc_outs (s : State) (n : Nat) (f : Func → Func) : (s.setFunc n f).outs = s.outs := rfl
@[simp] theorem State.setFunc_fresh (s : State) (n : Nat) (f : Func → Func) : (s.setFunc n f).fresh = s.fresh := rfl
@[simp] theorem State.setFunc_glb (s : State) (n : Nat) (f : Func → Func) : (s.setFunc n f).glb = s.glb := rfl
@[simp] theorem State.setFunc_xlt (s : State) (n : Nat) (f : Func → Func) : (s.setFunc n f).xlt = s.xlt := rfl
@[simp] theorem State.setFunc_slc (s : State) (n : Nat) (f : Func → Func) : (s.setFunc n f).slc = s.slc := rfl
@[simp] theorem State.setFunc_att (s : State) (n : Nat) (f : Func → Func) : (s.setFunc n f).att = s.att := rfl
@[simp] theorem State.setFunc_pwr (s : State) (n : Nat) (f : Func → Func) : (s.setFunc n f).pwr = s.pwr := rfl
@[simp] theorem State.setFunc_mgmt (s : State) (n : Nat) (f : Func → Func) : (s.setFunc n f).mgmt = s.mgmt := rfl
@[simp] theorem State.setFunc_flt (s : State) (n : Nat) (f : Func → Func) : (s.setFunc n f).flt = s.flt := rfl
@[simp] theorem State.setFunc_evc (s : State) (n : Nat) (f : Func → Func) : (s.setFunc n f).evc = s.evc := rfl
@[simp] theorem State.setFunc_lve (s : State) (n : Nat) (f : Func → Func) : (s.setFunc n f).lve = s.lve := rfl
@[simp] theorem State.setFunc_aud (s : State) (n : Nat) (f : Func → Func) : (s.setFunc n f).aud = s.aud := rfl
@[simp] theorem State.setFunc_cwy (s : State) (n : Nat) (f : Func → Func) : (s.setFunc n f).cwy = s.cwy := rfl
@[simp] theorem State.setFunc_rbd (s : State) (n : Nat) (f : Func → Func) : (s.setFunc n f).rbd = s.rbd := rfl
@[simp] theorem State.setFunc_pea (s : State) (n : Nat) (f : Func → Func) : (s.setFunc n f).pea = s.pea := rfl
@[simp] theorem State.setFunc_sdg (s : State) (n : Nat) (f : Func → Func) : (s.setFunc n f).sdg = s.sdg := rfl

/-! ### `setRing` -/

@[simp] theorem State.setRing_pending (s : State) (n k : Nat) (f : Ring → Ring) : (s.setRing n k f).pending = s.pending := rfl
@[simp] theorem State.setRing_now (s : State) (n k : Nat) (f : Ring → Ring) : (s.setRing n k f).now = s.now := rfl
@[simp] theorem State.setRing_mem (s : State) (n k : Nat) (f : Ring → Ring) : (s.setRing n k f).mem = s.mem := rfl
@[simp] theorem State.setRing_regs (s : State) (n k : Nat) (f : Ring → Ring) : (s.setRing n k f).regs = s.regs := rfl
@[simp] theorem State.setRing_ctrs (s : State) (n k : Nat) (f : Ring → Ring) : (s.setRing n k f).ctrs = s.ctrs := rfl
@[simp] theorem State.setRing_latches (s : State) (n k : Nat) (f : Ring → Ring) : (s.setRing n k f).latches = s.latches := rfl
@[simp] theorem State.setRing_outs (s : State) (n k : Nat) (f : Ring → Ring) : (s.setRing n k f).outs = s.outs := rfl
@[simp] theorem State.setRing_fresh (s : State) (n k : Nat) (f : Ring → Ring) : (s.setRing n k f).fresh = s.fresh := rfl
@[simp] theorem State.setRing_glb (s : State) (n k : Nat) (f : Ring → Ring) : (s.setRing n k f).glb = s.glb := rfl
@[simp] theorem State.setRing_xlt (s : State) (n k : Nat) (f : Ring → Ring) : (s.setRing n k f).xlt = s.xlt := rfl
@[simp] theorem State.setRing_slc (s : State) (n k : Nat) (f : Ring → Ring) : (s.setRing n k f).slc = s.slc := rfl
@[simp] theorem State.setRing_att (s : State) (n k : Nat) (f : Ring → Ring) : (s.setRing n k f).att = s.att := rfl
@[simp] theorem State.setRing_pwr (s : State) (n k : Nat) (f : Ring → Ring) : (s.setRing n k f).pwr = s.pwr := rfl
@[simp] theorem State.setRing_mgmt (s : State) (n k : Nat) (f : Ring → Ring) : (s.setRing n k f).mgmt = s.mgmt := rfl
@[simp] theorem State.setRing_flt (s : State) (n k : Nat) (f : Ring → Ring) : (s.setRing n k f).flt = s.flt := rfl
@[simp] theorem State.setRing_evc (s : State) (n k : Nat) (f : Ring → Ring) : (s.setRing n k f).evc = s.evc := rfl
@[simp] theorem State.setRing_lve (s : State) (n k : Nat) (f : Ring → Ring) : (s.setRing n k f).lve = s.lve := rfl
@[simp] theorem State.setRing_aud (s : State) (n k : Nat) (f : Ring → Ring) : (s.setRing n k f).aud = s.aud := rfl
@[simp] theorem State.setRing_cwy (s : State) (n k : Nat) (f : Ring → Ring) : (s.setRing n k f).cwy = s.cwy := rfl
@[simp] theorem State.setRing_rbd (s : State) (n k : Nat) (f : Ring → Ring) : (s.setRing n k f).rbd = s.rbd := rfl
@[simp] theorem State.setRing_pea (s : State) (n k : Nat) (f : Ring → Ring) : (s.setRing n k f).pea = s.pea := rfl
@[simp] theorem State.setRing_sdg (s : State) (n k : Nat) (f : Ring → Ring) : (s.setRing n k f).sdg = s.sdg := rfl

/-! ### `markStarted` -/

@[simp] theorem State.markStarted_pending (s : State) (q : CmdRef) : (s.markStarted q).pending = s.pending := rfl
@[simp] theorem State.markStarted_now (s : State) (q : CmdRef) : (s.markStarted q).now = s.now := rfl
@[simp] theorem State.markStarted_mem (s : State) (q : CmdRef) : (s.markStarted q).mem = s.mem := rfl
@[simp] theorem State.markStarted_regs (s : State) (q : CmdRef) : (s.markStarted q).regs = s.regs := rfl
@[simp] theorem State.markStarted_ctrs (s : State) (q : CmdRef) : (s.markStarted q).ctrs = s.ctrs := rfl
@[simp] theorem State.markStarted_latches (s : State) (q : CmdRef) : (s.markStarted q).latches = s.latches := rfl
@[simp] theorem State.markStarted_outs (s : State) (q : CmdRef) : (s.markStarted q).outs = s.outs := rfl
@[simp] theorem State.markStarted_fresh (s : State) (q : CmdRef) : (s.markStarted q).fresh = s.fresh := rfl
@[simp] theorem State.markStarted_glb (s : State) (q : CmdRef) : (s.markStarted q).glb = s.glb := rfl
@[simp] theorem State.markStarted_xlt (s : State) (q : CmdRef) : (s.markStarted q).xlt = s.xlt := rfl
@[simp] theorem State.markStarted_slc (s : State) (q : CmdRef) : (s.markStarted q).slc = s.slc := rfl
@[simp] theorem State.markStarted_att (s : State) (q : CmdRef) : (s.markStarted q).att = s.att := rfl
@[simp] theorem State.markStarted_pwr (s : State) (q : CmdRef) : (s.markStarted q).pwr = s.pwr := rfl
@[simp] theorem State.markStarted_mgmt (s : State) (q : CmdRef) : (s.markStarted q).mgmt = s.mgmt := rfl
@[simp] theorem State.markStarted_flt (s : State) (q : CmdRef) : (s.markStarted q).flt = s.flt := rfl
@[simp] theorem State.markStarted_evc (s : State) (q : CmdRef) : (s.markStarted q).evc = s.evc := rfl
@[simp] theorem State.markStarted_lve (s : State) (q : CmdRef) : (s.markStarted q).lve = s.lve := rfl
@[simp] theorem State.markStarted_aud (s : State) (q : CmdRef) : (s.markStarted q).aud = s.aud := rfl
@[simp] theorem State.markStarted_cwy (s : State) (q : CmdRef) : (s.markStarted q).cwy = s.cwy := rfl
@[simp] theorem State.markStarted_rbd (s : State) (q : CmdRef) : (s.markStarted q).rbd = s.rbd := rfl
@[simp] theorem State.markStarted_pea (s : State) (q : CmdRef) : (s.markStarted q).pea = s.pea := rfl
@[simp] theorem State.markStarted_sdg (s : State) (q : CmdRef) : (s.markStarted q).sdg = s.sdg := rfl

/-! ### The frames of the commands -/

@[simp] theorem State.rowWrite_true (s : State) (c : Scope) (a : Nat) (w : RegWrite) :
    s.rowWrite c true a w = s.afterIn c (s.regWrite a w) := rfl
@[simp] theorem State.afterCwyIn_eq (s : State) (c : Scope) (t : State) : s.afterCwyIn c t = s.afterIn c (s.cwyFollow t) := rfl

/-- The state before and the state after a command agree outside the scope. -/
theorem State.only_self (s : State) (c : Scope) : s.only c s = s := by
  simp only [State.only, Bool.cond_self]

end Sys2Proof.Machine
end

