-- ==== Sys2Proof/Laws/Registers.lean ====
section
/-! SUPPORT. Laws/Registers.lean: the path of a register write that nothing refuses. -/

namespace Sys2Proof.Machine

/-- A write that is open reaches the register: no bar, page or byte enable stops it. -/
theorem regWrite_body (s : State) (a : Nat) (w : RegWrite) (p : RegPlace) (r : RegSpec) (h : s.openTo a w)
    (hm : msixAt a = none) (hp : placeOf a = some p) (hb : p.block ≠ 0x40) (ho : 0x20 ≤ p.off) (h4 : a % 4 = 0)
    (hr : regAt { p with off := p.off / 4 * 4 } = some r) (hd : (r.dev && p.inst != 0) = false) (ht : testOnly p = false) :
    s.regWrite a w = s.writeBody w.origin p a w.value.toNat r := by
  obtain ⟨_, hre, hbe, _, _, _, _, hpl⟩ := h
  simp only [hp, Option.all_some, Bool.and_eq_true, Bool.not_eq_true'] at hpl
  have ho' : ¬ p.off < 0x20 := by omega
  simp [State.regWrite, hre, hbe, hm, hp, hb, h4, hr, hd, ht, hpl.1, ho']

/-- A write that is open, in range, well formed and of a resource not in use is carried out in full. -/
theorem writeBody_open (s : State) (a : Nat) (w : RegWrite) (p : RegPlace) (r : RegSpec) (h : s.openTo a w)
    (hp : placeOf a = some p) (hrng : s.outOfRange w.origin p w.value.toNat = ([], none))
    (hden : s.deniedWrite p w.value.toNat = false)
    (hf : ∀ new, s.formatRefused p a w.value.toNat new = false) (hb : ∀ new, s.busyRefused p a w.value.toNat new = false) :
    s.writeBody w.origin p a w.value.toNat r
      = s.carryOut w.origin p a w.value.toNat r (r.fields.filter fun f => f.acc != Access.ro) false none := by
  obtain ⟨_, _, _, _, ⟨hx, hl, he⟩, hta, hse, hpl⟩ := h
  simp only [hp, Option.all_some, Bool.and_eq_true, Bool.not_eq_true'] at hpl
  have hw : s.warmAt p.block = false := by
    unfold State.warmAt unitOfBlock
    split_ifs <;> simp_all
  simp [State.writeBody, hrng, hpl.2, hden, hf, hb, hta, hse, hw]

/-- The scope of what a register write does before the register acts. -/
def Scope.writing : Scope := { regs := true, pwr := true, aud := true }

theorem State.only_writing_setReg (s u : State) (h : s.only .writing u = u) (a v : Nat) :
    s.only .writing (u.setReg a v) = u.setReg a v := by
  have h' := congrArg (fun t => { t with regs := u.regs.set a (BitVec.ofNat 32 v) }) h
  exact h'

theorem State.only_writing_audit (s u : State) (h : s.only .writing u = u) (d : Nat) (w : Who) (k a : Nat) (o n : List Byte) :
    s.only .writing (u.audit d w k a o n) = u.audit d w k a o n := by
  have h' := congrArg (fun t => { t with
    regs := (u.audit d w k a o n).regs, pwr := (u.audit d w k a o n).pwr, aud := (u.audit d w k a o n).aud }) h
  exact h'

theorem State.only_writing_noteWrite (s : State) (p : RegPlace) (a v : Nat) (r : RegSpec) (l : Bool) (e : Option (Nat × Nat)) :
    s.only .writing (s.noteWrite p a v r l e) = s.noteWrite p a v r l e := by
  unfold State.noteWrite
  cases carriesReserved p r v <;> cases l <;> cases e <;> rfl

theorem State.only_writing_logWrite (s u : State) (h : s.only .writing u = u) (o : Origin) (p : RegPlace) (a v old : Nat)
    (takes : List FieldSpec) : s.only .writing (u.logWrite o p a v old takes) = u.logWrite o p a v old takes := by
  unfold State.logWrite
  split
  · exact State.only_writing_audit s u h _ _ _ _ _ _
  · exact h

theorem State.only_writing_storeWrite (s u : State) (h : s.only .writing u = u) (p : RegPlace) (a v old : Nat)
    (takes : List FieldSpec) : s.only .writing (u.storeWrite p a v old takes) = u.storeWrite p a v old takes := by
  unfold State.storeWrite
  dsimp only
  split <;> split <;> first | exact h | exact State.only_writing_setReg s u h _ _

/-- What carrying a write out does before the register acts: it changes registers, the log and the budget alone. -/
theorem carryOut_acts (s : State) (o : Origin) (p : RegPlace) (a v : Nat) (r : RegSpec) (takes : List FieldSpec) (l : Bool)
    (e : Option (Nat × Nat)) :
    ∃ u, s.carryOut o p a v r takes l e = u.act o p v (s.reg a) takes ∧ s.only .writing u = u :=
  ⟨_, rfl, State.only_writing_storeWrite s _
    (State.only_writing_logWrite s _ (State.only_writing_noteWrite s p a v r l e) _ _ _ _ _ _) _ _ _ _ _⟩

end Sys2Proof.Machine
end

