-- ==== Sys2Proof/Laws/Sluice.lean ====
section
/-! SUPPORT. Laws/Sluice.lean: bringing placements up to date does nothing where there are none, and what follows a command
of Causeway does nothing where no ring is formed and no session opened or closed. -/

namespace Sys2Proof.Machine

@[simp] theorem State.forEach_nil {α : Type} (s : State) (f : α → State → State) : s.forEach [] f = s := rfl

/-- A pass over a list that changes nothing changes nothing. -/
theorem State.forEach_id {α : Type} (s : State) (l : List α) (f : α → State → State) (h : ∀ x ∈ l, f x s = s) :
    s.forEach l f = s := by
  induction l with
  | nil => rfl
  | cons x xs ih =>
    have hx : f x s = s := h x (by simp)
    have := ih fun y hy => h y (List.mem_cons_of_mem _ hy)
    simpa [State.forEach, hx] using this

/-- No placement: `sluice` changes nothing. -/
theorem State.sluice_idle (s : State) (h : s.noPlacements) : s.sluice = s := by
  obtain ⟨hp, hq, hw, hc⟩ := h
  have e : s.retrySpace = s := by
    simp only [State.retrySpace, hw, State.forEach_nil]
    rw [← hw]
  have g : s.retryChains = s := by
    simp only [State.retryChains, hc, State.forEach_nil]
    rw [← hc]
  have f : s.settlePlaces 600 = s := by simp [State.settlePlaces, hp, hq]
  rw [State.sluice, e, g, f]
  rfl

/-- No ring: no ring is lost and no stripe loses its chain. -/
theorem State.ringLosses_noRings (s : State) (h : s.noRings) : s.ringLosses = s := by
  obtain ⟨_, hseq, hst⟩ := h
  have hg : (s.att.steps.filter fun t => t.ring.any fun r =>
      r.forwarded.isSome && r.received.isNone && decide (r.low < r.k) && (s.slot r.slot).pred.isNone) = [] := by
    rw [List.filter_eq_nil_iff]
    intro t ht
    have := List.all_eq_true.mp hst t ht
    simp only [Option.isNone_iff_eq_none] at this
    simp [this]
  have hc : s.chainLost = s := by
    apply State.forEach_id
    intro i _
    unfold State.chainLostAt
    cases hq : s.seq? i with
    | none => rfl
    | some q =>
      have := List.all_eq_true.mp hseq (i, q) (Assoc.mem_of_get? hq)
      simp only [Option.isNone_iff_eq_none] at this
      simp [this]
  rw [State.ringLosses]
  simp only [hg, State.forEach_nil, hc]

/-- No ring and no session closing: a session that closes has nothing to send. -/
theorem State.detachSteps_calm (s : State) (h : s.linksCalm) : s.detachSteps = s := by
  have e : (s.cwy.sessions.filter fun e => decide (e.2.st = .detaching)) = [] := by
    rw [List.filter_eq_nil_iff]
    intro e he
    simpa using List.all_eq_true.mp h.2.2 e he
  rw [State.detachSteps, e, State.forEach_nil]

/-- No port retrains without a half to train: none fails. -/
theorem State.blindPorts_calm (s : State) (h : s.linksCalm) : s.blindPorts = s := by
  have e : ((List.range 32).filter fun p => decide ((s.port p).st = .retrain) && (lanesFor false (s.port p).unusableLanes).isNone) = [] := by
    rw [List.filter_eq_nil_iff]
    intro p hp
    have := List.all_eq_true.mp h.2.1 p hp
    simp only [Bool.not_eq_true', Bool.and_eq_false_imp, Bool.or_eq_true] at this
    simp only [Bool.and_eq_true, not_and, Bool.not_eq_true]
    exact fun hr => this (.inl hr)
  rw [State.blindPorts, e, State.forEach_nil]

/-- No ring, no session closing and the same sessions: a command of Causeway is followed by nothing. -/
theorem State.cwyFollow_calm (s t : State) (h : t.linksCalm) (hs : t.cwy.sessions.keys = s.cwy.sessions.keys) :
    s.cwyFollow t = t := by
  have hr := t.ringLosses_noRings h.1
  have c1 := Assoc.filter_has_nil s.cwy.sessions t.cwy.sessions hs
  have c2 := Assoc.filter_has_nil t.cwy.sessions s.cwy.sessions hs.symm
  have ha : s.sessionAudit t = t := by
    simp only [State.sessionAudit, c1, c2, State.forEach_nil]
  have hh : t.ringHellos = t := by
    simp only [State.ringHellos, h.1.1, State.forEach_nil]
  have hj : t.ringJoins = t := by
    simp only [State.ringJoins, h.1.1, State.forEach_nil]
  rw [State.cwyFollow, t.blindPorts_calm h, t.detachSteps_calm h, hr, ha, hh, hj]
  simp only [State.only, Bool.cond_self]

end Sys2Proof.Machine
end

