-- ==== Sys2Proof/Tests/Witness.lean ====
section
/-! SUPPORT. Tests/Witness.lean: for each statement, states and operands that meet its hypotheses, and the states they are
built from. -/

open Sys2Proof Sys2Proof.Machine

namespace Sys2Proof.Tests

/-- The device right after start-up. -/
def ready : State := { State.reset with glb := { State.reset.glb with phase := .ready } }

/-- A whole-word write by PF0. -/
def pf0 (v : Nat) : RegWrite := { origin := .pf0, value := BitVec.ofNat 32 v }

/-- Software source 600 is pending, and Toluo takes it. -/
def routed : State :=
  { ready with
    evc := { ready.evc with soft := [600, 512], groups := [(18, .released)] }
    regs := ready.regs.set (routeAddr 600) 0xC0050000#32 }

/-- A certificate whose key names P-384, every other field empty. -/
def p384Cert : List Byte :=
  [0x30, 0x26, 0x30, 0x20, 0x02, 0x00, 0x30, 0x00, 0x30, 0x00, 0x30, 0x00, 0x30, 0x00, 0x30, 0x14, 0x30, 0x10, 0x06, 0x07, 0x2A, 0x86, 0x48,
    0xCE, 0x3D, 0x02, 0x01, 0x06, 0x05, 0x2B, 0x81, 0x04, 0x00, 0x22, 0x03, 0x00, 0x30, 0x00, 0x03, 0x00].map fun (n : Nat) => BitVec.ofNat 8 n

/-- A calibration set of 28 bytes for this device, up to its `CRC`. -/
def calHead : List Byte :=
  leBytes 4 0x43414C31 ++ (leBytes 4 1 ++ (leBytes 4 28 ++ (leBytes 4 0 ++ (leBytes 4 (Config.serial.toNat % 2 ^ 32) ++
    leBytes 4 (Config.serial.toNat / 2 ^ 32)))))
/-- The words of that set, with its `CRC`. -/
def calWords : Assoc Nat Word := [
  (0, 0x43414C31#32), (4, 1#32), (8, 28#32), (16, BitVec.ofNat 32 (Config.serial.toNat % 2 ^ 32)),
  (20, BitVec.ofNat 32 (Config.serial.toNat / 2 ^ 32)), (24, crc32 calHead)]
theorem calStaged_eq : ({ calStaged := calWords } : Glb).staged = calHead ++ leBytes 4 (crc32 calHead).toNat := by
  have h : Config.serial.toNat < 2 ^ 64 := Config.serial.isLt
  have e1 : (BitVec.ofNat 32 (Config.serial.toNat % 2 ^ 32)).toNat = Config.serial.toNat % 2 ^ 32 := by simp
  have e2 : (BitVec.ofNat 32 (Config.serial.toNat / 2 ^ 32)).toNat = Config.serial.toNat / 2 ^ 32 := by
    simp only [BitVec.toNat_ofNat]; omega
  have r : List.range (ceilDiv (min 4194304 ((Assoc.getD calWords 8 0#32).toNat)) 4) = [0, 1, 2, 3, 4, 5, 6] := by decide
  simp only [Glb.staged, r, List.flatMap_cons, List.flatMap_nil]
  simp only [calWords, Assoc.getD, Assoc.get?]
  simp only [Nat.reduceMul, Nat.reduceEqDiff, if_true, if_false, Option.getD_some, Option.getD_none, e1, e2]
  simp only [calHead, List.append_assoc, List.append_nil]
  rfl
theorem serial_field (a b c d : Nat) (tl : List Byte) : u64 (leBytes 4 a ++ (leBytes 4 b ++ (leBytes 4 c ++ (leBytes 4 d ++ tl)))) 16 = field tl 0 8 := by
  simp [u64, field, leBytes]
theorem calValid_staged : calValid ({ calStaged := calWords } : Glb).staged = true := by
  rw [calStaged_eq]
  have h : Config.serial.toNat < 2 ^ 64 := Config.serial.isLt
  have hl : calHead.length = 24 := by simp [calHead]
  have h8 : u32 (calHead ++ leBytes 4 (crc32 calHead).toNat) 8 = 28 := by
    simp [u32, field, calHead, leBytes, ofLe]
  have h0 : u32 (calHead ++ leBytes 4 (crc32 calHead).toNat) 0 = 0x43414C31 := by
    simp [u32, field, calHead, ofLe_leBytes]
  have h4 : u16 (calHead ++ leBytes 4 (crc32 calHead).toNat) 4 = 1 := by
    simp only [u16, field, calHead, List.append_assoc, List.drop_append, leBytes_length]
    simp [leBytes, ofLe]
  have h16 : u64 (calHead ++ leBytes 4 (crc32 calHead).toNat) 16 = Config.serial.toNat := by
    simp only [calHead, List.append_assoc, serial_field]
    have : leBytes 4 (Config.serial.toNat % 2 ^ 32) ++ (leBytes 4 (Config.serial.toNat / 2 ^ 32) ++ leBytes 4 (crc32 calHead).toNat)
      = leBytes 8 Config.serial.toNat ++ leBytes 4 (crc32 calHead).toNat := by
      simp [leBytes]
      refine ⟨?_, ?_, ?_, ?_, ?_, ?_, ?_, ?_⟩ <;> (apply BitVec.eq_of_toNat_eq; simp) <;> omega
    simp only [calHead] at this
    rw [this, field_leBytes]; omega
  have h24 : u32 (calHead ++ leBytes 4 (crc32 calHead).toNat) 24 = (crc32 calHead).toNat := by
    have := field_append_right calHead (leBytes 4 (crc32 calHead).toNat) 0 4
    rw [hl] at this
    rw [u32, this]
    have := field_leBytes 4 (crc32 calHead).toNat []
    simp only [List.append_nil] at this
    rw [this]
    exact Nat.mod_eq_of_lt (crc32 calHead).isLt
  have ht : (calHead ++ leBytes 4 (crc32 calHead).toNat).take 24 = calHead := by
    rw [List.take_append, hl]; simp [← hl]
  simp [calValid, h0, h4, h8, h16, hl, h24, ht]

/-- A command in flight, fetched as number 0. -/
def cmd (op : Nat) (ops : List Byte) (inLen : Nat := 0) : InFlight :=
  { num := 0, cid := 7, opcode := op, fence := false, inLen := inLen, inAddr := 4096, ops := ops ++ List.replicate (48 - ops.length) 0#8
    sqHead := 1, arrived := 0 }

/-- The ring that has fetched it: ring 0 of VF 0. -/
def q0 : CmdRef := { func := 1, ring := 0, num := 0 }

/-- Domain 1 is active, VF 0 is bound to it, its ring 0 is active and has fetched a command. -/
def hosted (c : InFlight) : State :=
  { ready with
    hif := { ready.hif with
      linkUp := true
      funcs := [(1, { bound := true, domain := 1, rings := 4, ringTab := [(0, { st := .active, inflight := [c], sqHead := 1, sqTail := 1, nextNum := 1 })] })] }
    lve := { ready.lve with doms := [(1, { st := .active })] } }

/-- Ring 0 of VF 0 with nothing in flight, changed by `f`. -/
def ringed (f : Ring → Ring) : State :=
  { ready with
    hif := { ready.hif with
      linkUp := true
      funcs := [(1, { bound := true, domain := 1, rings := 4, ringTab := [(0, f { st := .active })] })] }
    lve := { ready.lve with doms := [(1, { st := .active })] } }

/-- PF0's ring 0 is active and has fetched a command. -/
def hostedPf0 (c : InFlight) : State :=
  { hosted c with
    hif := { (hosted c).hif with
      funcs := [(0, { bound := true, rings := 16, ringTab := [(0, { st := .active, inflight := [c], sqHead := 1, sqTail := 1, nextNum := 1 })] })] } }

/-- The reference to that command. -/
def p0 : CmdRef := { func := 0, ring := 0, num := 0 }

/-- An epoch runs with credits to spend. -/
def powered : State := { ready with pwr := { ready.pwr with live := true, planned := 250000, grant := 175000 } }


/-- Domain 1 is created with owner anchor `[9]`, and session 5 speaks for its tenant. -/
def tenanted (x : Domain) : State :=
  { ready with
    lve := { ready.lve with doms := [(1, { x with anchor := [9] })] }
    mgmt := { ready.mgmt with sessions := [(5, { peer := some [9], established := true, hbeat := true, period := 1000 })] } }

/-- An empty sealed segment. -/
def aSegment (n : Nat) : Segment := { number := n, entries := [], flags := 0, prev := [], time := 0, digest := [], signature := [] }

/-- A request of session 5 about domain 1. -/
def ask (op : Nat) (b : List Byte) : SpdmMsg := { session := 5, code := 0xFE, body := leBytes 1 op ++ leBytes 1 0 ++ leBytes 2 1 ++ b }

/-- Session 5 speaks for the operator and for the vendor, by anchors that have its hash. -/
def anchored (x : Domain) : State :=
  { tenanted x with lve := { (tenanted x).lve with operatorAnchor := some (sha384 [9]), serviceAnchor := some (sha384 [9]) } }

/-- Keys of a domain. -/
def someKeys : Keys := { tier := [], pfx := [], chk := [], kcv := 1, prk := [] }

theorem groupsFollow_reset : ({ State.reset with pending := [.autorst] } : State).groupsFollow := by
  intro g; exact ⟨rfl, by simp [State.reset, Assoc.get?]⟩

theorem operator_anchored (x : Domain) : (anchored x).operator 5 = true := by
  simp [State.operator, anchored, tenanted, State.spdm?, Assoc.get?]
theorem vendor_anchored (x : Domain) : (anchored x).vendor 5 = true := by
  simp [State.vendor, anchored, tenanted, State.spdm?, Assoc.get?]
theorem lcRefusal_anchored : (anchored {}).lcRefusal 5 (lcOf 5) [5#8] = none := by
  have h : ((anchored {}).operator 5 || (anchored {}).vendor 5) = true := by rw [operator_anchored]; rfl
  have hl : (anchored {}).liveDoms.isEmpty = true := by decide
  simp only [State.lcRefusal, lcOf, h, hl]
  rfl

/-- A model of one layer and one head of 32 channels in format 0x1. -/
def aModel : Model := { layers := 1, kvHeads := 1, qHeads := 1, headDim := 32, format := 1, maxHg := 0 }

/-- `hosted` with the page-table region placed, model 3 of domain 1 registered, and sequence 7 of domain 1, changed by `f`. -/
def seqd (c : InFlight) (f : Seq → Seq) : State :=
  { hosted c with xlt := { (hosted c).xlt with
      placed := true, models := [((1, 3), aModel)], seqs := [(7, f { tag := 1, st := .idle, domain := 1, model := 3 })] } }

/-- The handle of that sequence, as operand bytes. -/
def handle7 : List Byte := leBytes 4 (handleOf 1 7)

/-- A choice among no used values is always possible. -/
theorem chooseFree_nil (b n : Nat) (h : 0 < b) : ∃ i, chooseFree [] 0 b n = some i := by
  unfold chooseFree
  split
  · exact ⟨_, rfl⟩
  · exact ⟨0, by simp [lowestFree, h]⟩

/-- `SLC_PLACE` of scope `SEQ` over page 0 of sequence 7 into T0. -/
def placeOne : InFlight := cmd 0x20 (leBytes 4 0 ++ handle7 ++ leBytes 4 0xFFFF0000 ++ leBytes 4 0 ++ leBytes 4 0 ++ leBytes 4 5)
/-- The entry of a page that rests in a tier. -/
def pteAt (tier : Nat) : Pte := { domain := 1, format := 1, fc := 0, home := { tier := tier, addr := 800 } }
/-- Sequence 7 in a state, with its page 0 in a tier. -/
def seqAt (st : SeqState) (tier : Nat) : Seq := { tag := 1, st := st, domain := 1, model := 3, ptes := [((0, 0, 0), pteAt tier)] }
/-- The device with that sequence and a command in flight. -/
def pagedSt (c : InFlight) (st : SeqState) (tier : Nat) : State := seqd c fun _ => seqAt st tier
theorem placeFrames_one (tier : Nat) (h : tier < 3) :
    (pagedSt placeOne .idle tier).placeFrames 1 { placeOps placeOne.ops with hi := (pagedSt placeOne .idle tier).placeLast 1 (placeOps placeOne.ops) } =
      .ok [.page 7 0 0 0] := by
  have hs : (placeOps placeOne.ops).scope = 0 := by decide
  have hf : (pagedSt placeOne .idle tier).findSeq 1 (placeOps placeOne.ops).handle = .ok (7, seqAt .idle tier) := by
    interval_cases tier <;> decide
  have hi : (pagedSt placeOne .idle tier).placeLast 1 (placeOps placeOne.ops) = 0 := by interval_cases tier <;> decide
  have ho : (seqAt .idle tier).inOrder = (seqAt .idle tier).ptes := List.mergeSort_singleton _
  rw [hi]
  simp only [State.placeFrames, hs, hf, ho]
  interval_cases tier <;> decide

/-- Port 3 of the ready device, changed by `f`; its island is on. -/
def ported (f : Port → Port) : State :=
  { ready with
    cwy := { ready.cwy with ports := [(3, f { st := .ready, credits := [64, 64, 64, 64] })] }
    pwr := { ready.pwr with islands := [(16, .on)] }
    lve := { ready.lve with doms := [(1, { st := .active })] } }

/-- Session 2 on that port, with `SID` 1, changed by `f`. -/
def inSess (f : Session → Session) : State :=
  { ported id with cwy := { (ported id).cwy with sessions := [(2, f { st := .attached, domain := 1, ports := [(3, 1)] })] } }

/-- The first message of that session. -/
def rx (mtype vc : Nat) (body : List Byte) : RxMsg :=
  { port := 3, vc := vc, hdr := msgHeader mtype 1 1 body.length 1 0 0 0, body := body, tagOk := true, lenOk := true, flits := 1 }

/-- A message outside any session. -/
def rxPlain (mtype : Nat) (body : List Byte) : RxMsg :=
  { port := 3, vc := 0, hdr := msgHeader mtype 0 0 body.length 0 0 0 0, body := body, tagOk := true, lenOk := true, flits := 1 }

/-- Port 3 with a handshake. -/
def shaking (h : Handshake) : State := ported fun p => { p with handshakes := [h] }

/-- Sequence 7 with 3 positions in its open page 0, in T0. -/
def openSeq (x : Seq) : Seq :=
  { x with
    next := [(0, 3)]
    acc := [(0, 3)]
    ptes := [((0, 0, 0), { domain := 1, format := 1, fc := 0, home := { tier := 0, addr := 800 }, fill := 3 })] }
/-- The table frames of that page, in T0. -/
def openMetas : Assoc FrameId MetaFrame :=
  (tablePath (.seq 7) (pageKey 0 0 0)).map fun f => (f, { domain := 1, fc := 0, home := { tier := 0, addr := 8 } })
/-- The device with that sequence, changed by `f`, and a command in flight. -/
def openSt (c : InFlight) (f : Seq → Seq) : State :=
  { seqd c (fun x => f (openSeq x)) with xlt := { (seqd c (fun x => f (openSeq x))).xlt with metas := openMetas } }
/-- An append record of one position at position 3 of layer 0. -/
def oneRecord : List Byte := handle7 ++ leBytes 2 0 ++ leBytes 2 1 ++ leBytes 4 3 ++ leBytes 4 77 ++ List.replicate 128 1#8

/-- One attention cluster is on, its cores 0 and 1 idle, the spill pool is 4 GiB, and an epoch runs. -/
def attended (s : State) (cores : Assoc Nat Core) : State :=
  { s with
    pwr := { s.pwr with live := true, planned := 250000, grant := 175000, aNum := 1, aDen := 1, islands := [(0, .on), (16, .on), (portGroup 3, .on)] }
    att := { s.att with cores := cores } }
/-- Cores 0 and 1 are idle. -/
def idleCores : Assoc Nat Core := [(0, { st := .idle }), (1, { st := .idle })]
/-- `ATTEND` with room for a result of 80 bytes. -/
def attendCmd (n : Nat) : InFlight := cmd 0x19 (leBytes 8 0 ++ leBytes 4 80) n
/-- A query record of one head over positions 0 to 2, that is, `CTX` = 3, of sequence 7 in throughput mode. -/
def oneQuery : List Byte := handle7 ++ leBytes 4 0 ++ leBytes 4 3 ++ leBytes 12 0 ++ leBytes 4 0 ++ List.replicate 64 0#8
/-- The device with the open page of sequence 7, ready to attend. -/
def attSt (f : Seq → Seq) (cores : Assoc Nat Core) : State := attended (openSt (attendCmd 92) f) cores
/-- That query as a step of a ring command. -/
def aStep (ph : StepPhase) : Step :=
  { id := 5, req := .ring q0, domain := 1, seq := 7, q := { readQuery oneQuery with q := List.replicate 32 0#16 }, determ := false, arrived := 0, phase := ph, cost := 9 }
/-- That device with a step and its tasks. -/
def stepSt (f : Seq → Seq) (t : Step) (ks : List Task) (cores : Assoc Nat Core) : State :=
  { attSt f cores with att := { (attSt f cores).att with steps := [t], tasks := ks, nextStep := 6, nextTask := 3 } }
/-- The one task of the step, in a state. -/
def aTask (st : TaskState) : Task := { id := 2, step := 5, domain := 1, slice := 0, heads := [0], latency := false, bucket := 512, st := st, since := 0 }

/-- The device on a ring of two in slot 0, changed by `g`, with sequence 7 as its stripe `k` under `RSID` 9, changed by `f`. -/
def onRing (k : Nat) (f : Seq → Seq) (g : RingSlot → RingSlot) : State :=
  { attSt (fun x => f { x with ptes := [], stripe := some { slot := 0, rsid := 9, k := k, log := 12 }, base := k * 4096, next := [], acc := [], runKnown := k == 0 }) idleCores with
    cwy := { (inSess id).cwy with
      sessions := [(2, { st := .attached, domain := 1, role := 1, ringId := 4, ports := [(3, 1)] })]
      slots := [(0, g { st := .ready, domain := 1, ringId := 4, n := 2, index := k, predPorts := 8, succPorts := 8 })] } }
/-- The body of a ring query of that ring: stripes 0 to 1, `CTX` = 4097. -/
def ringBody : List Byte :=
  ringQueryBody 9 { readQuery oneQuery with ctx := 4097, q := List.replicate 32 0#16 } 0 1 6 (defaultScale 32)
/-- A step of that ring in which the device is the tail. -/
def ringStep (r : RingRole → RingRole) : Step :=
  { aStep .running with
    q := { (aStep .running).q with ctx := 4097 }
    ring := some (r { slot := 0, rsid := 9, origin := true, ringStep := 6, k := 1, low := 0, tail := 1, forwarded := some 0 }) }
/-- The tail with that step; session 2 leads to the predecessor. -/
def tailSt (r : RingRole → RingRole) : State :=
  { onRing 1 id (fun x => { x with pred := some 2 }) with
    att := { (onRing 1 id id).att with steps := [ringStep r], nextStep := 6 } }
/-- One entry of a partial of stripe 0, of zeros. -/
def partialBody : List Byte :=
  ringPartial 9 0 .ok 6 1 false [{ lo := 0, hi := 1, rows := [{ m := 0#32, l := 0x3F800000#32, o := List.replicate 32 0#32 }] }]

/-- Reedbed runs on `s`: its island is on, it is enabled, domain 1 has keys, and an epoch with credits runs. -/
def reeds (s : State) : State :=
  { s with
    regs := s.regs.set Reg.rbdCfg 0x80000012#32
    rbd := { s.rbd with placed := true }
    pwr := { s.pwr with live := true, planned := 250000, grant := 175000, aNum := 1, aDen := 1, islands := [(searchIsland, .on), (16, .on), (portGroup 3, .on)] }
    lve := { s.lve with doms := [(1, { st := .active, keys := some someKeys })] } }
/-- Reedbed with sequence 7 and a ring command, changed by `f`. -/
def reedSt (c : InFlight) (f : Rbd → Rbd) : State :=
  { reeds (seqd c id) with rbd := f (reeds (seqd c id)).rbd }
/-- A lookup over 16 tokens with model tag 3, with flags and a list. -/
def look (flags list : Nat) : List Byte :=
  leBytes 2 0 ++ leBytes 2 3 ++ leBytes 2 flags ++ leBytes 2 list ++ leBytes 24 0 ++ leBytes 4 16 ++ leBytes 12 0 ++ List.replicate 64 1#8
/-- A lookup of another kind over list 5. -/
def lookList (kind count : Nat) : List Byte :=
  leBytes 1 kind ++ leBytes 1 0 ++ leBytes 2 3 ++ leBytes 2 0 ++ leBytes 2 5 ++ leBytes 24 0 ++ leBytes 4 count ++ leBytes 12 0
/-- `PREFIX_LOOKUP` with 112 or 48 bytes of input and room for 64 of output. -/
def lookCmd (n : Nat) : InFlight := cmd 0x1A (leBytes 8 0 ++ leBytes 4 64) n
/-- A list of one block, number 5 of domain 1. -/
def aList : HashList := { domain := 1, tag := 3, blocks := [(9#64, 9#32)] }
/-- An entry of block descriptor 40 in row 0. -/
def anEntry : Entry := { hash := 9#64, check := 9#32, domain := 1, tag := 3, lo := 0, hi := 5, bd := 40 }
/-- That block descriptor, hashed and whole. -/
def aBd (ix : Bool) : Bd := { block := 0, tag := 3, domain := 1, slots := 1, sealedCount := 1, root := true, hash := 9#64, check := 9#32, hashed := true, indexed := ix }
/-- Reedbed with that block descriptor. -/
def bdSt (ix : Bool) (c : InFlight) (f : Rbd → Rbd) : State :=
  { reedSt c f with xlt := { (reedSt c f).xlt with bds := [(40, aBd ix)] } }

/-- Peat is ready on its island in an epoch with credits, changed by `f`. -/
def peated (f : Pea → Pea) : State :=
  { ready with
    pea := f { ready.pea with pstate := .ready, spareFmt := 100 }
    pwr := { ready.pwr with live := true, planned := 4000000000, grant := 1000000000, aNum := 1, aDen := 1, len := 1000000, watts := 820, islands := [(peatIsland, .on)] } }
/-- A stripe of the cold stream on blocks of 16 channels. -/
def aStripe (fill : List RowFill) : PStripe := { id := 3, stream := .cold, blocks := (List.range 16).map fun c => Geometry.blockId {} (c * 8) 0 0, fill := fill }
/-- Its blocks, in a state. -/
def itsBlocks (st : BlkState) : Assoc Nat Blk := (aStripe []).blocks.map fun b => (b, { st := st })
/-- A unit of one sector that gathers. -/
def aUnit : BufUnit := { id := 2, unit := 5, stream := .cold, sectors := [(80, [7#8])], since := 0 }
/-- A closed block with a mapped sector on it. -/
def oldBlock (p : Pea) : Pea :=
  { p with
    blocks := [(0, { st := .verified, next := 4 })]
    coarse := [(5, .fine 0)]
    fine := [(0, some 33 :: List.replicate 15 none)]
    flash := [(33, { wseq := 1, sector := 80, coarse := false, data := [7#8] })] }

/-- A move whose bytes are staged, at its write. -/
def aMove : Move :=
  { domain := 1, ticket := 1, frame := .page 7 0 0 0, promo := true, tier := 0, src := { tier := 1, addr := 800 }, dst := { tier := 0, addr := 1600 }
    bytes := 4096, st := .write, admitted := true, lines := [0], staged := [1, 2] }
/-- The state in which that move is at its write. -/
def moving : State := { ready with slc := { moves := [aMove] } }

/-- A block in the compressor's queue, for a frame of T1. -/
def aBlock : SdgBlock := { owner := 0, domain := 1, line := 0, dst := { tier := 1, addr := 800 }, index := 0, data := List.replicate 4096 0#8, since := 0 }
/-- An `OBJ_WRITE` of no page. -/
def noPages : InFlight := cmd 0x29 (leBytes 4 (handleOf 1 2) ++ leBytes 4 3 ++ leBytes 4 0)
/-- The object that it names. -/
def anObj : Obj := { tag := 1, domain := 1, fc := 0, pages := 4, sedge := false }
/-- The state in which its ring has fetched it. -/
def writing : State := { seqd noPages id with xlt := { (seqd noPages id).xlt with objs := [(2, anObj)] } }

theorem objWrite_far (u : State) (p : Nat) (e : Pte)
    (hu : (writing.markStarted q0).mapPages 2 anObj (u8 noPages.ops 12) ((List.range (u32 noPages.ops 8)).map (u32 noPages.ops 4 + ·)) = some u)
    (hm : ((u.xlt.objs.get? 2).bind fun o => o.map.get? p) = some e) (_ : e.home.tier ≠ 3) :
    ¬ inFrame e.home (4096 * 2 ^ anObj.fc) (2 ^ 59) := by
  have h0 : (List.range (u32 noPages.ops 8)).map (u32 noPages.ops 4 + ·) = [] := by decide
  rw [h0] at hu
  simp only [State.mapPages, Option.some.injEq] at hu
  subst hu
  simp [writing, anObj, Assoc.get?, State.markStarted, State.setRing, State.setFunc] at hm

/-- Domain 1 is torn down to its scrub, and an extent of it is left. -/
def scrubbing : State :=
  { ready with
    lve := { ready.lve with doms := [(1, { st := .teardown, teardown := some { erased := true } })] }
    slc := { ready.slc with extents := [({ tier := 0, addr := 8 }, 512, 1)] } }

/-- An audit log whose space is all reserved. -/
def fullAud : Aud := { ready.aud with reserved := 2 ^ 40 }

/-- Groups 18 and 19 share one timer. -/
def chained : State :=
  { ready with regs := [(Reg.evcHold + 4 * 18, 0x80000005#32), (Reg.evcHold + 4 * 19, 1#32)] }

/-- A short DER element. -/
def derTlv (tag : Nat) (b : List Byte) : List Byte := leBytes 1 tag ++ leBytes 1 b.length ++ b
/-- The skeleton of a certificate with a P-384 key. -/
def aCert : List Byte :=
  derTlv 0x30 (derTlv 0x30 (derTlv 2 [1#8] ++ derTlv 0x30 [] ++ derTlv 0x30 [] ++ derTlv 0x30 [] ++ derTlv 0x30 [] ++
    derTlv 0x30 (derTlv 0x30 (derTlv 6 [0x2A, 0x86, 0x48, 0xCE, 0x3D, 0x02, 0x01] ++ derTlv 6 [0x2B, 0x81, 0x04, 0x00, 0x22]) ++
      derTlv 3 [0#8])) ++ derTlv 0x30 [] ++ derTlv 3 [])
/-- The body of a valid `DISCOVER`. -/
def aDiscover : List Byte :=
  leBytes 12 1 ++ leBytes 4 aCert.length ++ sha384 aCert ++ List.replicate 32 7#8 ++ leBytes 4 1048576 ++ leBytes 4 0 ++ aCert
theorem witness_ResetCommandsComplete :
    (∃ (s : State) (f : FuseScan) (a : Nat),
      a < 2 ^ 56 ∧
      f.words.all (fun r => !r.marginal) = true ∧
      s.lve.lcFuse ≠ .fin ∧
      s.lve.intentFuse ≠ .fin) ∧
    (∃ (s : State) (f : FuseScan) (r : ResetReq) (a : Nat),
      a < 2 ^ 56 ∧
      s.glb.resetReq = some r ∧
      s.resetDue r = true ∧
      f.words.all (fun r => !r.marginal) = true ∧
      s.lve.lcFuse ≠ .fin ∧
      s.lve.intentFuse ≠ .fin) ∧
    (∃ (s : State) (w : RegWrite),
      s.openTo Reg.glbRstctl w ∧
      bits w.value.toNat 15 0 = 0x7840 ∧
      bit w.value.toNat 31 = true ∧
      s.glb.resetReq = none) ∧
    (∃ (s : State) (w : RegWrite),
      s.openTo Reg.glbRstctl w ∧
      bits w.value.toNat 15 0 = 0x7840 ∧
      bit w.value.toNat 29 = true) ∧
    (∃ (s : State),
      (s.flt.xlt.held = true ∨ s.flt.lve.held = true ∨ s.flt.evc.held = true) ∧
      bit (s.reg Reg.glbFaultCfg) 31 = true ∧
      s.flt.fifo = [] ∧
      s.glb.resetReq = none) ∧
    (∃ (s : State),
      s.tapOpen = true ∧
      s.glb.resetReq = none) ∧
    (∃ (s : State) (n : Nat) (k : Nat),
      (s.hif.funcs.get? n ≠ none ∨ n = 0)) ∧
    (∃ (s : State) (n : Nat) (k : Nat),
      n ≤ 256) :=
  ⟨⟨{ ready with mem := [(0, 7#8)] }, { words := [] }, 0, by decide⟩,
   ⟨{ ready with mem := [(0, 7#8)], glb := { ready.glb with resetReq := some { cause := 2, noflush := true, since := 0 } } }, { words := [] }, { cause := 2, noflush := true, since := 0 }, 0, by decide⟩,
   ⟨ready, pf0 0x80007840, by decide⟩,
   ⟨ready, pf0 0x20007840, by decide⟩,
   ⟨{ ready with flt := { ready.flt with lve := { held := true } }, regs := ready.regs.set Reg.glbFaultCfg 0x80000000#32 }, by decide⟩,
   ⟨{ ready with lve := { ready.lve with lc := .blank, tapEarly := true } }, by decide⟩,
   ⟨{ ready with hif := { ready.hif with funcs := [(2, { bound := true, ringTab := [(0, { st := .active })] })] } }, 2, 0, by decide⟩,
   ⟨{ ready with hif := { ready.hif with funcs := [(256, { bound := true, ringTab := [(0, { st := .active })] })] } }, 256, 0, by decide⟩⟩

theorem witness_StartupAndPinCommandsComplete :
    (∃ (s : State) (n : Nat),
      s.glb.phase = .startup ∧
      n < 23 ∧
      s.glb.variant.hasIsland n = true) ∧
    (∃ (s : State),
      s.glb.phase = .ready ∧
      s.smSrc = 1 ∧
      s.pwr.live = true ∧
      s.pwr.resync = false ∧
      s.pwr.startByTime = false ∧
      s.now < s.pwr.planned ∧
      s.pwr.planned ≤ s.now + s.pwr.len * 100) ∧
    (∃ (s : State) (u : Nat),
      s.glb.smoutUntil = some u ∧
      u ≤ s.now) ∧
    (∃ (s : State) (c : Int),
      1200 < c ∧
      s.glb.phase ≠ .off ∧
      s.glb.thermtrip = false) ∧
    (∃ (s : State) (x : Nat),
      s.updatePeer x = true ∧
      s.mgmt.update = .idle ∧
      s.aud.waiting = [] ∧
      s.auditSeals = true) ∧
    (∃ (s : State) (m : Image),
      s.mgmt.update = .receiving) ∧
    (∃ (s : State) (m : Image),
      s.mgmt.update = .verified m) ∧
    (∃ (s : State) (ok : Bool),
      s.glb.calState = .committing ∧
      s.calWaits = false ∧
      s.now ≤ s.glb.calSince + 40000000000) ∧
    (∃ (s : State) (u : Nat),
      s.lve.debugUntil = some u ∧
      u < s.ftimeNow) ∧
    (∃ (s : State) (g : Segment),
      s.aud.segments.find? (fun x => !x.written) = some g ∧
      s.waits (.sign g.number) = false ∧
      s.aud.waiting = [] ∧
      s.linksCalm) ∧
    (∃ (s : State) (g : Segment) (n : Nat) (p : Persist),
      s.aud.segments.find? (fun x => !x.written) = some g ∧
      s.waits (.sign g.number) = false ∧
      s.aud.waiting = [(n, p)] ∧
      n ≤ g.number) :=
  ⟨⟨State.reset, 22, by decide⟩,
   ⟨{ ready with regs := ready.regs.set Reg.pwrEpochCfg 0x00FA0001#32, pwr := { ready.pwr with live := true, planned := 250000 }, now := 225000 }, by decide⟩,
   ⟨{ ready with glb := { ready.glb with smoutUntil := some 5 }, now := 5 }, 5, by decide⟩,
   ⟨ready, 1201, by decide⟩,
   ⟨{ ready with mgmt := { ready.mgmt with sessions := [(1, { established := true })] } }, 1, by decide⟩,
   ⟨{ ready with mgmt := { ready.mgmt with update := .receiving } }, firstImage, by decide⟩,
   ⟨{ ready with mgmt := { ready.mgmt with update := .verified firstImage } }, firstImage, by decide⟩,
   ⟨{ ready with glb := { ready.glb with calState := .committing } }, false, by decide⟩,
   ⟨{ ready with lve := { ready.lve with debugUntil := some 0 }, pea := { ready.pea with ftime := 1 } }, 0, by decide⟩,
   ⟨{ ready with aud := { ready.aud with segments := [aSegment 4] } }, aSegment 4, by decide⟩,
   ⟨{ ready with aud := { ready.aud with segments := [aSegment 4], waiting := [(4, .lcAdvance .field [9] .device)] } }, aSegment 4, 4, .lcAdvance .field [9] .device, by decide⟩⟩

theorem witness_WideRegisterReadsLatchTheHighWord :
    (∃ (s : State) (o : Origin) (o2 : Origin) (a : Nat),
      s.reaches o a = true ∧
      addrExists a = true ∧
      a % 4 = 0 ∧
      isWide a = true ∧
      o2 ≠ o) ∧
    (∃ (s : State) (o : Origin) (a : Nat) (x : Word),
      s.reaches o a = true ∧
      addrExists a = true ∧
      a % 4 = 0 ∧
      s.latches.get? o = some (a, x)) ∧
    (∃ (s : State) (o : Origin) (a : Nat),
      s.reaches o a = true ∧
      addrExists a = true ∧
      a % 4 = 0 ∧
      (s.latches.get? o).map Prod.fst ≠ some a) :=
  ⟨⟨ready, .pf0, .toluo, Reg.glbSerialLo, by decide⟩,
   ⟨{ ready with latches := [(.toluo, (Reg.glbSerialHi, 5#32))] }, .toluo, Reg.glbSerialHi, 5#32, by decide⟩,
   ⟨{ ready with latches := [(.pf0, (Reg.glbSerialHi, 5#32))] }, .toluo, Reg.glbSerialHi, by decide⟩⟩

theorem witness_RegisterAccessesComplete :
    (∃ (s : State) (w : RegWrite) (i : Nat),
      s.openTo (Reg.glbScratch + 4 * i) w ∧
      i < 4) ∧
    (∃ (s : State) (w : RegWrite) (p : RegPlace) (a : Nat),
      s.openTo a w ∧
      placeOf a = some p ∧
      p.off = 8 ∧
      msixAt a = none ∧
      bit w.value.toNat 31 = true) ∧
    (∃ (s : State) (o : Origin),
      s.reaches o Reg.glbCalRdata = true) ∧
    (∃ (s : State) (w : RegWrite),
      s.openTo Reg.glbCalWdata w ∧
      s.glb.calState ≠ .committing) ∧
    (∃ (s : State) (w : RegWrite),
      s.openTo Reg.glbCalCtl w ∧
      bit w.value.toNat 31 = true ∧
      bit w.value.toNat 30 = false ∧
      s.glb.calState ≠ .committing ∧
      calValid s.glb.staged = true) ∧
    (∃ (s : State) (w : RegWrite),
      s.openTo Reg.glbCalCtl w ∧
      bit w.value.toNat 31 = false ∧
      bit w.value.toNat 30 = true ∧
      s.glb.calState ≠ .committing) ∧
    (∃ (s : State) (w : RegWrite),
      s.openTo Reg.glbT3Ctl w ∧
      bit w.value.toNat 31 = true ∧
      ((s.pea.parked.map Park.domain).any s.reinstating) = false) :=
  ⟨⟨ready, pf0 0xDEADBEEF, 3, by decide⟩,
   ⟨ready, pf0 0x80000000, ⟨1, 0, 3, 8⟩, 0x3008, by decide⟩,
   ⟨ready, .toluo, by decide⟩,
   ⟨ready, pf0 77, by decide⟩,
   ⟨{ ready with glb := { ready.glb with calStaged := calWords, calState := .staged } }, pf0 0x80000000, by decide, by decide, by decide, by decide, calValid_staged⟩,
   ⟨{ ready with glb := { ready.glb with calStaged := [(0, 1#32)], calState := .staged } }, pf0 0x40000000, by decide⟩,
   ⟨{ ready with pea := { ready.pea with pstate := .ready, retained := [(0, 1)] } }, pf0 0x80000000, by decide⟩⟩

theorem witness_RegionAndStagingWritesComplete :
    (∃ (s : State) (w : RegWrite),
      s.openTo Reg.xltPtrBaseLo w ∧
      s.ptrInUse = false ∧
      s.slc.extents = [] ∧
      (({ s with xlt := { s.xlt with placed := true } } : State).setReg Reg.xltPtrBaseLo (setBits (s.reg Reg.xltPtrBaseLo) 31 30 (bits w.value.toNat 31 30))).regionsOk = true) ∧
    (∃ (s : State) (w : RegWrite),
      s.openTo Reg.xltPtrBaseHi w ∧
      s.ptrInUse = false ∧
      s.slc.extents = [] ∧
      (({ s with xlt := { s.xlt with placed := true } } : State).setReg Reg.xltPtrBaseHi (setBits (s.reg Reg.xltPtrBaseHi) 7 0 (bits w.value.toNat 7 0))).regionsOk = true) ∧
    (∃ (s : State) (w : RegWrite),
      s.openTo Reg.xltPtrSize w ∧
      s.ptrInUse = false ∧
      4 ≤ bits w.value.toNat 5 0 ∧
      bits w.value.toNat 5 0 ≤ 32 ∧
      s.slc.extents = [] ∧
      (s.setReg Reg.xltPtrSize (setBits (s.reg Reg.xltPtrSize) 5 0 (bits w.value.toNat 5 0))).regionsOk = true) ∧
    (∃ (s : State) (w : RegWrite),
      s.openTo Reg.rbdBaseLo w ∧
      bit (s.reg Reg.rbdCfg) 31 = false ∧
      s.entryCount (fun _ => true) = 0 ∧
      s.slc.extents = [] ∧
      (({ s with rbd := { s.rbd with placed := true } } : State).setReg Reg.rbdBaseLo (setBits (s.reg Reg.rbdBaseLo) 31 30 (bits w.value.toNat 31 30))).regionsOk = true) ∧
    (∃ (s : State) (w : RegWrite),
      s.openTo Reg.rbdBaseHi w ∧
      bit (s.reg Reg.rbdCfg) 31 = false ∧
      s.entryCount (fun _ => true) = 0 ∧
      s.slc.extents = [] ∧
      (({ s with rbd := { s.rbd with placed := true } } : State).setReg Reg.rbdBaseHi (setBits (s.reg Reg.rbdBaseHi) 7 0 (bits w.value.toNat 7 0))).regionsOk = true) ∧
    (∃ (s : State) (w : RegWrite),
      s.openTo Reg.rbdCfg w ∧
      (bit w.value.toNat 31 = true → s.rbd.placed = true)) ∧
    (∃ (s : State) (w : RegWrite),
      s.openTo Reg.atcSpillPool w ∧
      bits w.value.toNat 6 0 ≤ 64 ∧
      s.att.spillUsed = 0 ∧
      s.slc.extents = [] ∧
      (s.setReg Reg.atcSpillPool (setBits (s.reg Reg.atcSpillPool) 6 0 (bits w.value.toNat 6 0))).regionsOk = true) ∧
    (∃ (s : State) (w : RegWrite),
      s.openTo Reg.slcStage w ∧
      16 ≤ bits w.value.toNat 5 0 ∧
      bits w.value.toNat 5 0 ≤ 56 ∧
      s.linesHeld = [] ∧
      s.sdg.queue = []) ∧
    (∃ (s : State) (w : RegWrite),
      s.openTo Reg.slcDomT0Quota w ∧
      (s.quotaSum - s.slc.quota.getD (s.fld Reg.slcDomSel 11 0) 0 + bits w.value.toNat 15 0) * gib ≤ s.t0Pool ∧
      (bits w.value.toNat 15 0 ≠ 0 ∨ s.conf (s.fld Reg.slcDomSel 11 0) = false)) ∧
    (∃ (s : State) (w : RegWrite),
      s.openTo Reg.atcGcfg w) :=
  ⟨⟨ready, pf0 0x40000000, by decide⟩,
   ⟨ready, pf0 3, by decide⟩,
   ⟨ready, pf0 32, by decide⟩,
   ⟨ready, pf0 0xC0000000, by decide⟩,
   ⟨ready, pf0 2, by decide⟩,
   ⟨{ ready with rbd := { placed := true } }, pf0 0x80000012, by decide⟩,
   ⟨ready, pf0 64, by decide⟩,
   ⟨ready, pf0 56, by decide⟩,
   ⟨ready, pf0 20, by decide⟩,
   ⟨ready, pf0 0x80001400, by decide⟩⟩

theorem witness_EventControllerCommandsComplete :
    (∃ (s : State) (target : Nat) (n : Nat),
      target ≤ 2048 ∧
      s.serves .evc = true ∧
      s.targetOpen target = true ∧
      (s.evcStack target).length < 8 ∧
      n ∈ s.contenders target ∧
      (∀ m ∈ s.contenders target, (s.route m).prio < (s.route n).prio ∨ ((s.route m).prio = (s.route n).prio ∧ n ≤ m))) ∧
    (∃ (s : State) (g : Nat) (n : Nat) (due : Nat),
      s.evc.groups.get? g = some (.holding due) ∧
      due ≤ s.now ∧
      s.flt.evc.warmSince = none ∧
      n ∈ s.pendingSources ∧
      n / 32 = g) ∧
    (∃ (s : State) (w : RegWrite) (p : Nat) (rest : List Nat),
      s.openTo Reg.evcEoi w ∧
      s.evcStack (if bit w.value.toNat 31 then 2048 else bits w.value.toNat 10 0) = p :: rest) ∧
    (∃ (s : State) (w : RegWrite),
      s.openTo Reg.evcSwset w ∧
      512 ≤ bits w.value.toNat 9 0) ∧
    (∃ (s : State) (w : RegWrite) (g : Nat),
      s.openTo (Reg.evcPend + 4 * g) w ∧
      16 ≤ g ∧
      g < 32) ∧
    (∃ (s : State) (w : RegWrite) (n : Nat),
      s.openTo (routeAddr n) w ∧
      n < 1024 ∧
      s.routeRefused w.origin n w.value.toNat = false) ∧
    (∃ (s : State) (w : RegWrite) (g : Nat),
      s.openTo (Reg.evcHold + 4 * g) w ∧
      g < 32) :=
  ⟨⟨routed, 2048, 600, by decide⟩,
   ⟨{ routed with evc := { routed.evc with groups := [(18, .holding 5)] }, now := 5 }, 18, 600, 5, by decide⟩,
   ⟨{ ready with evc := { ready.evc with running := [(7, [9, 3])] } }, pf0 7, 9, [3], by decide⟩,
   ⟨ready, pf0 512, by decide⟩,
   ⟨routed, pf0 0xFFFFFFFF, 18, by decide⟩,
   ⟨ready, pf0 0x800F07FF, 1023, by decide⟩,
   ⟨ready, pf0 0x80000010, 31, by decide⟩⟩

theorem witness_EpochAndWindowCommandsComplete :
    (∃ (s : State) (d : Nat) (b : DomBudget),
      s.pwr.live = true ∧
      s.pwr.planned ≤ s.now ∧
      s.pwr.doms.get? d = some b) ∧
    (∃ (s : State),
      s.pwr.windowOpen = true ∧
      s.pwr.startMarked = false ∧
      s.pwr.start + s.pwr.lenPrev * 100 ≤ s.now) :=
  ⟨⟨{ ready with pwr := { ready.pwr with live := true, planned := 250000, spent := 7, grant := 5, doms := [(3, { bucket := 4, nextRate := 10, nextDepth := 12 })] }, now := 250000 }, 3, { bucket := 4, nextRate := 10, nextDepth := 12 }, by decide⟩,
   ⟨{ ready with pwr := { ready.pwr with windowOpen := true, startMarked := false }, now := 25000 }, by decide⟩⟩

theorem witness_PowerAndThermalSamplesComplete :
    (∃ (s : State) (l : List Int) (m : Int),
      l.length = 64 ∧
      m ∈ l ∧
      (∀ x ∈ l, x ≤ m)) ∧
    (∃ (s : State) (c : Nat) (q : Nat) (d : Nat) (b : Nat),
      0 < b) :=
  ⟨⟨ready, List.replicate 63 900 ++ [960], 960, by decide⟩,
   ⟨{ ready with pwr := { ready.pwr with items := [{ domain := 1, cls := .move, cost := 3, dur := 4, arrived := 0, work := .move 0 }] } }, WorkClass.move.index, 0, 1, 1, by decide⟩⟩

theorem witness_ClockCommandsComplete :
    (∃ (s : State) (die : Nat),
      die < 2 ∧
      (s.pwr.csyn die).pending = true) ∧
    (∃ (s : State) (die : Nat) (t0 : Nat),
      die < 2 ∧
      bit (s.reg Reg.pwrDvfs) 31 = true ∧
      s.pwr.belowSince = some t0 ∧
      t0 + 100000 ≤ s.now ∧
      (s.pwr.csyn die).pending = false ∧
      s.fld Reg.pwrDvfs 3 0 < (s.pwr.csyn die).now) ∧
    (∃ (s : State) (die : Nat) (t0 : Nat),
      die < 2 ∧
      bit (s.reg Reg.pwrDvfs) 31 = true ∧
      s.pwr.fullSince = some t0 ∧
      t0 + 1000000 ≤ s.now ∧
      s.pwr.prevGrant < 10 * (s.pwr.prevGrant - s.pwr.prevSpent) ∧
      (s.pwr.csyn die).pending = false ∧
      (s.pwr.csyn die).now < s.fld Reg.pwrDvfs 11 8) ∧
    (∃ (s : State) (w : RegWrite) (die : Nat),
      die < 2 ∧
      s.openTo (Reg.clkCsyn0 + 4 * die) w ∧
      bit (s.reg Reg.pwrDvfs) 31 = false ∧
      s.fld Reg.pwrDvfs 3 0 ≤ bits w.value.toNat 3 0 ∧
      bits w.value.toNat 3 0 ≤ s.fld Reg.pwrDvfs 11 8) ∧
    (∃ (s : State) (o : Int) (r : Int) (m : Int),
      bit (s.reg Reg.clkPtpCfg) 31 = true ∧
      -1000 < o ∧
      o < 1000 ∧
      s.pwr.goodSyncs = 15 ∧
      s.pwr.tOff = none) ∧
    (∃ (s : State),
      bit (s.reg Reg.clkPtpCfg) 31 = true ∧
      s.pwr.holdover = false ∧
      s.pwr.lastSync + 3000000000 ≤ s.now) ∧
    (∃ (s : State),
      s.reg Reg.clkAlarmLo + 2 ^ 32 * s.reg Reg.clkAlarmHi ≠ 0 ∧
      s.reg Reg.clkAlarmLo + 2 ^ 32 * s.reg Reg.clkAlarmHi ≤ s.now) :=
  ⟨⟨{ ready with pwr := { ready.pwr with csyn1 := { now := 10, target := 9, pending := true } } }, 1, by decide⟩,
   ⟨{ ready with regs := ready.regs.set Reg.pwrDvfs 0x80000B06#32, pwr := { ready.pwr with belowSince := some 0 }, now := 100000 }, 1, 0, by decide⟩,
   ⟨{ ready with regs := ready.regs.set Reg.pwrDvfs 0x80000B06#32, pwr := { ready.pwr with fullSince := some 0, prevGrant := 100, prevSpent := 89 }, now := 1000000 }, 0, 0, by decide⟩,
   ⟨ready, pf0 6, 1, by decide⟩,
   ⟨{ ready with regs := ready.regs.set Reg.clkPtpCfg 0x80000300#32, pwr := { ready.pwr with goodSyncs := 15 } }, -999, 2000000, 77, by decide⟩,
   ⟨{ ready with regs := ready.regs.set Reg.clkPtpCfg 0x80000300#32, now := 3000000000 }, by decide⟩,
   ⟨{ ready with regs := ready.regs.set Reg.clkAlarmLo 5#32, now := 5, pwr := { ready.pwr with standby := .standby } }, by decide⟩⟩

theorem witness_EpochAndHistogramRegistersComplete :
    (∃ (s : State) (w : RegWrite),
      s.openTo Reg.pwrEpochCfg w ∧
      50 ≤ bits w.value.toNat 26 16 ∧
      bits w.value.toNat 26 16 ≤ 2000) ∧
    (∃ (s : State) (w : RegWrite) (b : Nat),
      s.openTo Reg.pwrHistSel w ∧
      bit w.value.toNat 30 = true ∧
      b ≤ 15) :=
  ⟨⟨ready, pf0 (2000 * 65536 + 2), by decide⟩,
   ⟨{ ready with pwr := { ready.pwr with samples := 3, hist := [((1, 7, 2, 0, 4), 2)] } }, pf0 0xC0000702, 4, by decide⟩⟩

theorem witness_IslandAndStandbyCommandsComplete :
    (∃ (s : State) (w : RegWrite) (n : Nat),
      s.openTo Reg.pwrIslReq w ∧
      bit w.value.toNat 31 = true ∧
      bits w.value.toNat 4 0 = n ∧
      s.glb.variant.hasIsland n = true ∧
      (s.island n = .off ∨ s.island n = .draining)) ∧
    (∃ (s : State) (w : RegWrite) (n : Nat),
      s.openTo Reg.pwrIslReq w ∧
      bit w.value.toNat 31 = false ∧
      bits w.value.toNat 4 0 = n ∧
      s.glb.variant.hasIsland n = true ∧
      (s.island n = .on ∨ s.island n = .starting) ∧
      (n < 16 → (s.setIsland n .draining).anyCluster = true) ∧
      (16 ≤ n → n < 20 → ∀ p ∈ groupPorts n, s.sessionsOn p = [] ∧ (s.port p).st ≠ .ready)) ∧
    (∃ (s : State) (n : Nat),
      s.island n = .starting ∧
      s.linksCalm) ∧
    (∃ (s : State) (n : Nat),
      s.island n = .stopping) ∧
    (∃ (s : State) (n : Nat),
      s.island n = .draining ∧
      s.islandDone n = true ∧
      s.linksCalm ∧
      (n < 16 → s.anyCluster = true)) ∧
    (∃ (s : State) (w : RegWrite),
      s.openTo Reg.pwrStandby w ∧
      bit w.value.toNat 31 = true ∧
      bit w.value.toNat 30 = false ∧
      s.standbyRefused = false) ∧
    (∃ (s : State),
      s.pwr.standby = .quiescing ∧
      s.quiet = true ∧
      s.linksCalm) ∧
    (∃ (s : State) (n : Nat),
      s.pwr.standby = .quiescing ∧
      bit (s.reg Reg.pwrWakeEn) n = true) ∧
    (∃ (s : State) (n : Nat),
      s.pwr.standby = .standby ∧
      bit (s.reg Reg.pwrWakeEn) n = true) ∧
    (∃ (s : State),
      s.pwr.standby = .waking ∧
      s.linksCalm) :=
  ⟨⟨ready, pf0 0x80000016, 22, by decide⟩,
   ⟨{ ready with pwr := { ready.pwr with islands := [(20, .on)] } }, pf0 20, 20, by decide⟩,
   ⟨{ ready with pwr := { ready.pwr with islands := [(22, .starting)] } }, 22, by decide⟩,
   ⟨{ ready with pwr := { ready.pwr with islands := [(3, .stopping)] } }, 3, by decide⟩,
   ⟨{ ready with pwr := { ready.pwr with islands := [(20, .draining)] } }, 20, by decide⟩,
   ⟨{ ready with pea := { ready.pea with pstate := .ready } }, pf0 0x80000000, by decide⟩,
   ⟨{ ready with pwr := { ready.pwr with standby := .quiescing } }, by decide⟩,
   ⟨{ ready with pwr := { ready.pwr with standby := .quiescing } }, 3, by decide⟩,
   ⟨{ ready with pwr := { ready.pwr with standby := .standby } }, 0, by decide⟩,
   ⟨{ ready with pwr := { ready.pwr with standby := .waking } }, by decide⟩⟩

theorem witness_RingCommandsComplete :
    (∃ (s : State) (f : Nat) (k : Nat) (x : Nat),
      s.doorbellLive f k = true ∧
      (s.ring f k).st = .active ∧
      x < 2 ^ (s.ring f k).sqLog2 ∧
      x < 65536 ∧
      (x + 2 ^ (s.ring f k).sqLog2 - (s.ring f k).sqTail) % 2 ^ (s.ring f k).sqLog2 ≤ ((s.ring f k).sqHead + 2 * 2 ^ (s.ring f k).sqLog2 - (s.ring f k).sqTail - 1) % 2 ^ (s.ring f k).sqLog2) ∧
    (∃ (s : State) (f : Nat) (k : Nat) (x : Nat),
      s.doorbellLive f k = true ∧
      (s.ring f k).st = .active ∧
      x < 2 ^ (s.ring f k).cqLog2 ∧
      x < 65536 ∧
      (x + 2 ^ (s.ring f k).cqLog2 - (s.ring f k).cqHead) % 2 ^ (s.ring f k).cqLog2 ≤ (s.ring f k).unread) ∧
    (∃ (s : State) (f : Nat) (k : Nat) (e : List Byte),
      s.hif.linkUp = true ∧
      s.ringTurn = some (f, k) ∧
      s.pwr.standby ≠ .standby ∧
      s.pwr.standby ≠ .waking ∧
      s.glb.phase ≠ .safe ∧
      s.fetchCheck f e = none) ∧
    (∃ (s : State) (f : Nat) (k : Nat),
      s.hif.linkUp = true ∧
      s.ringTurn = some (f, k) ∧
      (s.ring f k).st = .active ∧
      s.pwr.standby ≠ .standby ∧
      s.pwr.standby ≠ .waking ∧
      s.glb.phase ≠ .safe) ∧
    (∃ (s : State) (f : Nat) (k : Nat) (e : HostRead),
      s.hif.linkUp = true ∧
      (s.ring f k).st = .active) ∧
    (∃ (s : State) (q : CmdRef) (c : InFlight),
      s.offers q 0 c) ∧
    (∃ (s : State) (w : RegWrite) (f : Nat),
      s.openTo (domReg f Reg.domRingCfg) w ∧
      f ≤ 256 ∧
      bit w.value.toNat 31 = true ∧
      (s.ring f (s.func f).ringSel).st = .disabled ∧
      s.bound f = true ∧
      (s.func f).ringSel < (s.func f).rings ∧
      4 ≤ bits w.value.toNat 25 21 ∧
      bits w.value.toNat 25 21 ≤ bits w.value.toNat 20 16 ∧
      bits w.value.toNat 20 16 ≤ 16 ∧
      (f ≠ 0 → bits w.value.toNat 10 0 < 16) ∧
      (s.ring f (s.func f).ringSel).sqBase % 4096 = 0 ∧
      (s.ring f (s.func f).ringSel).cqBase % 4096 = 0) ∧
    (∃ (s : State) (w : RegWrite) (f : Nat),
      s.openTo (domReg f Reg.domRingCfg) w ∧
      f ≤ 256 ∧
      bit w.value.toNat 31 = false ∧
      (s.ring f (s.func f).ringSel).st = .active) ∧
    (∃ (s : State) (f : Nat) (k : Nat),
      (s.ring f k).st = .draining ∧
      ((s.ring f k).inflight.all fun c => c.discard) = true) ∧
    (∃ (s : State) (q : CmdRef) (c : InFlight),
      (s.ring q.func q.ring).inflight.find? (fun f => f.num == q.num) = some c ∧
      c.started = false ∧
      c.discard = false ∧
      c.inLen ≠ 0 ∧
      c.arrived + 10000000 ≤ s.now ∧
      s.hif.linkUp = true) ∧
    (∃ (s : State) (f : Nat) (k : Nat),
      0 < (s.ring f k).unsignalled ∧
      (s.ring f k).irqUs ≠ 0 ∧
      (s.ring f k).oldest + (s.ring f k).irqUs * 1000 ≤ s.now) ∧
    (∃ (s : State) (q : CmdRef) (c : InFlight) (due : Nat) (rest : List (Requester × Cpl × Nat)),
      s.refusalsMove = true ∧
      s.hif.refusals = (.ring q, { status := .denied }, due) :: rest ∧
      due ≤ s.now ∧
      (s.ring q.func q.ring).inflight.find? (fun f => f.num == q.num) = some c ∧
      c.discard = false ∧
      s.hif.linkUp = true) :=
  ⟨⟨ringed id, 1, 0, 15, by decide⟩,
   ⟨ringed fun r => { r with unread := 3, cqTail := 3 }, 1, 0, 3, by decide⟩,
   ⟨ringed fun r => { r with sqTail := 1 }, 1, 0, List.replicate 64 0#8, by decide⟩,
   ⟨ringed fun r => { r with sqTail := 1 }, 1, 0, by decide⟩,
   ⟨ringed id, 1, 0, .failed, by decide⟩,
   ⟨hosted (cmd 0 []), q0, cmd 0 [], by decide⟩,
   ⟨ringed fun r => { r with st := .disabled }, { origin := .vf 0, value := BitVec.ofNat 32 (0x80000000 + 4 * 2097152 + 16 * 65536 + 15) }, 1, by decide⟩,
   ⟨ringed id, { origin := .vf 0, value := 0#32 }, 1, by decide⟩,
   ⟨ringed fun r => { r with st := .draining }, 1, 0, by decide⟩,
   ⟨{ hosted (cmd 0x18 [] 5) with now := 10000000 }, q0, cmd 0x18 [] 5, by decide⟩,
   ⟨{ ringed (fun r => { r with unsignalled := 1, irqUs := 2 }) with now := 2000 }, 1, 0, by decide⟩,
   ⟨{ hosted (cmd 2 []) with hif := { (hosted (cmd 2 [])).hif with refusals := [(.ring q0, { status := .denied }, 2000)] }, now := 2000 }, q0, cmd 2 [], 2000, [], by decide⟩⟩

theorem witness_LinkAndFunctionCommandsComplete :
    (∃ (s : State) (rate : Nat) (width : Nat),
      s.hif.linkUp = false ∧
      8 ≤ width) ∧
    (∃ (s : State) (rate : Nat) (width : Nat) (x : Bool),
      s.hif.linkUp = true ∧
      (width = 8 ∨ width = 16)) ∧
    (∃ (s : State) (f : Nat) (k : Nat),
      s.hif.linkUp = true ∧
      (s.ring f k).st = .active) ∧
    (∃ (s : State) (p : Nat) (width : Nat) (rate : Nat),
      p < 4 ∧
      bit (s.reg (Reg.cxpCfg + cxpOff p)) 31 = true ∧
      (s.cxl p).st = .down) ∧
    (∃ (s : State) (p : Nat) (x : CxlFound),
      p < 4 ∧
      (s.cxl p).st = .discovering ∧
      x.notType3 = false ∧
      x.mld = false ∧
      x.switch = false ∧
      x.mediaReady = true ∧
      s.cxlHolds p = false) ∧
    (∃ (s : State) (p : Nat),
      p < 4 ∧
      (s.cxl p).st ≠ .down) ∧
    (∃ (s : State) (w : RegWrite) (p : Nat),
      s.openTo (Reg.cxpCtl + cxpOff p) w ∧
      p < 4 ∧
      bit w.value.toNat 31 = true ∧
      bit w.value.toNat 30 = false ∧
      (s.cxl p).st = .held ∧
      (s.cxl p).width ≠ 0) ∧
    (∃ (s : State) (w : RegWrite) (p : Nat),
      s.openTo (Reg.cxpCtl + cxpOff p) w ∧
      p < 4 ∧
      bit w.value.toNat 30 = true ∧
      bit w.value.toNat 31 = false ∧
      s.slc.moves = [] ∧
      s.noPlacements) ∧
    (∃ (s : State) (w : RegWrite),
      s.openTo Reg.hifCtl w ∧
      bit w.value.toNat 31 = true ∧
      s.slc.moves = [] ∧
      s.noPlacements) ∧
    (∃ (s : State) (w : RegWrite) (p : Nat),
      s.openTo (Reg.cxpCfg + cxpOff p) w ∧
      p < 4 ∧
      bit (s.reg (Reg.cxpCfg + cxpOff p)) 31 = true ∧
      bit w.value.toNat 31 = false ∧
      s.cxlHolds p = false) ∧
    (∃ (s : State) (w : RegWrite) (d : Nat) (n : Nat),
      s.openTo Reg.hifVfBind w ∧
      bit w.value.toNat 31 = true ∧
      bits w.value.toNat 27 16 = d ∧
      bits w.value.toNat 8 0 = n ∧
      d ≠ 0 ∧
      (s.lve.doms.get? d).map Domain.st = some .active ∧
      n ≤ 256 ∧
      s.ringsAllotted + n ≤ 4096 ∧
      (s.func (s.fld Reg.hifVfSel 7 0 + 1)).bound = false) ∧
    (∃ (s : State) (w : RegWrite),
      s.openTo Reg.hifT2Size w ∧
      (s.slc.extents.any fun e => e.1.tier == 2) = false ∧
      bits w.value.toNat 14 0 ≤ 16384) ∧
    (∃ (s : State) (x : PldmReceiver),
      (s.mgmt.sessions.get? x.session).map SpdmSession.established = some true) ∧
    (∃ (s : State) (x : Nat) (k : Nat) (d : List Nat) (rest : List (Nat × List Nat)),
      s.mgmt.receiver = some x ∧
      s.mgmt.dropped = 0 ∧
      s.mgmt.events = (k, d) :: rest) :=
  ⟨⟨ready, 6, 8, by decide⟩,
   ⟨{ ready with hif := { ready.hif with linkUp := true, linkWidth := 16 } }, 6, 8, true, by decide⟩,
   ⟨ringed id, 1, 0, by decide⟩,
   ⟨{ ready with regs := ready.regs.set (Reg.cxpCfg + cxpOff 3) 0x80000010#32 }, 3, 16, 6, by decide⟩,
   ⟨{ ready with hif := { ready.hif with cxl := [(0, { st := .discovering })] } }, 0, { notType3 := false, mld := false, switch := false, mediaReady := true, gib := 4096, serial := 9 }, by decide⟩,
   ⟨{ ready with hif := { ready.hif with cxl := [(2, { st := .ready })] } }, 2, by decide⟩,
   ⟨{ ready with hif := { ready.hif with cxl := [(3, { st := .held, width := 16 })] } }, pf0 0x80000000, 3, by decide⟩,
   ⟨{ ready with hif := { ready.hif with cxl := [(3, { st := .held, gib := 5 })] } }, pf0 0x40000000, 3, by decide⟩,
   ⟨{ ready with slc := { ready.slc with extents := [({ tier := 2, addr := 0 }, 512, 1)] } }, pf0 0x80000000, by decide⟩,
   ⟨{ ready with regs := ready.regs.set (Reg.cxpCfg + cxpOff 1) 0x80000010#32, hif := { ready.hif with cxl := [(1, { st := .ready })] } }, pf0 16, 1, by decide⟩,
   ⟨{ ready with lve := { ready.lve with doms := [(4095, { st := .active })] } }, pf0 (0x80000000 + 4095 * 65536 + 256), 4095, 256, by decide⟩,
   ⟨ready, pf0 16384, by decide⟩,
   ⟨{ ready with mgmt := { ready.mgmt with sessions := [(1, { established := true })] } }, ⟨1, 3⟩, by decide⟩,
   ⟨{ ready with mgmt := { ready.mgmt with receiver := some 1, events := [(5, [6])] } }, 1, 5, [6], [], by decide⟩⟩

theorem witness_DomainCommandsComplete :
    (∃ (s : State) (q : CmdRef) (c : InFlight) (inp : List Byte),
      s.offers q 0x49 c ∧
      inp.length = c.inLen ∧
      s.serves .lve = true ∧
      s.lve.sole = none ∧
      0 < u16 c.ops 0 ∧
      u16 c.ops 0 ≤ 4095 ∧
      (s.dom (u16 c.ops 0)).st = .free ∧
      u8 c.ops 2 ≤ 1 ∧
      zeros c.ops 3 1 = true ∧
      zeros c.ops 16 32 = true ∧
      anchorParses inp = true ∧
      (u8 c.ops 2 = 0 ∨ u16 c.ops 14 ≠ 0) ∧
      s.rsvSum Domain.seqRsv + u32 c.ops 4 ≤ 16777216 ∧
      s.rsvSum Domain.modelRsv + u16 c.ops 8 ≤ 4096 ∧
      s.rsvSum Domain.objRsv + u16 c.ops 10 ≤ 65536 ∧
      s.rsvSum Domain.listRsv + u8 c.ops 12 ≤ 256 ∧
      s.rsvSum Domain.ringRsv + u8 c.ops 13 ≤ 16 ∧
      (s.quotaSum + u16 c.ops 14) * gib ≤ s.t0Pool ∧
      s.auditTakes = true) ∧
    (∃ (s : State) (q : CmdRef) (c : InFlight),
      s.offers q 0x4A c ∧
      s.serves .lve = true ∧
      u16 c.ops 0 ≠ 0 ∧
      ((s.dom (u16 c.ops 0)).st = .created ∨ (s.dom (u16 c.ops 0)).st = .active) ∧
      (s.dom (u16 c.ops 0)).teardown = none ∧
      s.auditTakes 2 = true) ∧
    (∃ (s : State) (q : CmdRef) (c : InFlight),
      s.offers q 0x4B c ∧
      s.serves .lve = true ∧
      u16 c.ops 0 ≤ 4095 ∧
      (q.func = 0 ∨ u16 c.ops 0 = (s.func q.func).domain)) ∧
    (∃ (s : State) (q : CmdRef) (c : InFlight),
      s.offers q 0x4C c ∧
      s.serves .lve = true ∧
      u8 c.ops 0 = 1 ∧
      s.liveDoms = [u16 c.ops 2] ∧
      (s.dom (u16 c.ops 2)).conf = true ∧
      s.auditTakes = true) ∧
    (∃ (s : State) (q : CmdRef) (c : InFlight) (d : Nat),
      s.offers q 0x4C c ∧
      s.serves .lve = true ∧
      u8 c.ops 0 = 0 ∧
      s.lve.sole = some d ∧
      (s.dom d).st = .free ∧
      s.auditTakes = true) ∧
    (∃ (s : State) (d : Nat) (x : Teardown),
      (s.dom d).teardown = some x ∧
      x.erased = false ∧
      s.domBusy d = false ∧
      s.serves .lve = true) ∧
    (∃ (s : State) (d : Nat) (x : Teardown),
      (s.dom d).teardown = some x ∧
      x.erased = true ∧
      ((s.extentsOf d).all fun e => s.answers e.1) = true) ∧
    (∃ (s : State) (d : Nat),
      s.peaWrites = true ∧
      s.pea.erasing.has d = true ∧
      s.pea.released = [] ∧
      (s.pea.erasing.getD d []).flatMap s.pea.liveOf = [] ∧
      ((s.pea.erasing.getD d []).any fun b => (s.pea.blk b).st == .opened || s.pea.readFrom b) = false) ∧
    (∃ (s : State) (d : Nat),
      s.reinstating d = true ∧
      s.serves .xlt = true) :=
  ⟨⟨hostedPf0 (cmd 0x49 (leBytes 2 4095 ++ leBytes 2 1 ++ leBytes 4 5 ++ leBytes 6 0 ++ leBytes 2 3) 40), p0, cmd 0x49 (leBytes 2 4095 ++ leBytes 2 1 ++ leBytes 4 5 ++ leBytes 6 0 ++ leBytes 2 3) 40, p384Cert, by decide⟩,
   ⟨hostedPf0 (cmd 0x4A (leBytes 2 1)), p0, cmd 0x4A (leBytes 2 1), by decide⟩,
   ⟨hosted (cmd 0x4B (leBytes 2 1)), q0, cmd 0x4B (leBytes 2 1), by decide⟩,
   ⟨{ hostedPf0 (cmd 0x4C (leBytes 2 1 ++ leBytes 2 1)) with lve := { doms := [(1, { st := .active, conf := true })] } }, p0, cmd 0x4C (leBytes 2 1 ++ leBytes 2 1), by decide⟩,
   ⟨{ hostedPf0 (cmd 0x4C []) with lve := { sole := some 3 } }, p0, cmd 0x4C [], 3, by decide⟩,
   ⟨tenanted { st := .teardown, keys := some someKeys, teardown := some {} }, 1, {}, by decide⟩,
   ⟨tenanted { st := .teardown, teardown := some { erased := true } }, 1, { erased := true }, by decide⟩,
   ⟨{ tenanted { st := .teardown, t3Pend := true } with pwr := { ready.pwr with islands := [(peatIsland, .on)] }, pea := { ready.pea with pstate := .ready, erasing := [(1, [])] } }, 1, by decide⟩,
   ⟨{ tenanted { st := .active, keys := some someKeys } with pwr := { ready.pwr with islands := [(peatIsland, .on)] }, pea := { ready.pea with pstate := .ready, parked := [{ domain := 1, kcv := 1, body := .obj 7 { tag := 0, domain := 1, fc := 0, pages := 0, sedge := false } }] } }, 1, by decide⟩⟩

theorem witness_TenantRequestsComplete :
    (∃ (s : State) (m : SpdmMsg) (d : Nat) (b : List Byte) (k : List Byte),
      s.asks m 0x01 d b ∧
      s.tenant m.session d = true ∧
      s.lve.keysHeld = false ∧
      s.lve.lc = .field ∧
      (s.dom d).st = .created ∧
      b.length = 40 ∧
      m.dmk = some k ∧
      s.auditTakes = true) ∧
    (∃ (s : State) (m : SpdmMsg) (d : Nat),
      s.asks m 0x02 d [] ∧
      s.tenant m.session d = true ∧
      ((s.dom d).st = .created ∨ (s.dom d).st = .active) ∧
      (s.dom d).teardown = none ∧
      s.auditTakes 2 = true) ∧
    (∃ (s : State) (m : SpdmMsg) (d : Nat) (b : List Byte) (l : List (List Byte)),
      s.asks m 0x03 d b ∧
      s.tenant m.session d = true ∧
      1 ≤ u8 b 0 ∧
      u8 b 0 ≤ 4 ∧
      b.length ≤ 8192 ∧
      readAnchors (u8 b 0) (b.drop 1) = some l ∧
      (s.dom d).st ≠ .teardown ∧
      s.auditTakes = true) ∧
    (∃ (s : State) (m : SpdmMsg) (d : Nat) (b : List Byte) (k : Keys),
      s.asks m 0x04 d b ∧
      s.tenant m.session d = true ∧
      (s.dom d).keys = some k ∧
      s.lve.keysHeld = false ∧
      b.length = 1 ∧
      (s.dom d).pfxGen < u8 b 0 ∧
      (s.dom d).st = .active ∧
      s.auditTakes = true) ∧
    (∃ (s : State) (m : SpdmMsg) (d : Nat) (b : List Byte),
      s.asks m 0x05 d b ∧
      s.tenant m.session d = true ∧
      (s.dom d).st ≠ .teardown ∧
      b.length = 1 ∧
      u8 b 0 ≤ 1 ∧
      s.auditTakes = true) ∧
    (∃ (s : State) (m : SpdmMsg) (d : Nat) (b : List Byte),
      s.asks m 0x06 d b ∧
      s.tenant m.session d = true ∧
      (s.dom d).st ≠ .teardown ∧
      b.length = 4) ∧
    (∃ (s : State) (m : SpdmMsg) (d : Nat) (b : List Byte),
      s.asks m 0x07 d b ∧
      (s.tenant m.session d = true ∨ s.operator m.session = true) ∧
      s.lve.keysHeld = false ∧
      b.length = 32 ∧
      d ≤ 4095) :=
  ⟨⟨tenanted { st := .created }, { ask 1 (List.replicate 40 0#8) with dmk := some [3] }, 1, List.replicate 40 0#8, [3], by decide⟩,
   ⟨tenanted { st := .active }, ask 2 [], 1, by decide⟩,
   ⟨tenanted { st := .created }, ask 3 ([1#8, 40#8, 0#8] ++ p384Cert), 1, [1#8, 40#8, 0#8] ++ p384Cert, [p384Cert], by decide⟩,
   ⟨tenanted { st := .active, keys := some someKeys, pfxGen := 254 }, ask 4 [255#8], 1, [255#8], someKeys, by decide⟩,
   ⟨tenanted { st := .created }, ask 5 [1#8], 1, [1#8], by decide⟩,
   ⟨tenanted { st := .active, conf := true }, ask 6 [0#8, 0#8, 2#8, 0#8], 1, [0#8, 0#8, 2#8, 0#8], by decide⟩,
   ⟨tenanted { st := .active }, ask 7 (List.replicate 32 7#8), 1, List.replicate 32 7#8, by decide⟩⟩

theorem witness_OperatorVendorAndSpdmCommandsComplete :
    (∃ (s : State) (m : SpdmMsg) (d : Nat) (b : List Byte),
      s.asks m 0x10 d b ∧
      s.operator m.session = true ∧
      u8 b 0 = 0x00 ∧
      s.fetchCheck 0 (b.take 64) = none ∧
      b.length = 64 ∧
      u32 b 4 = 0) ∧
    (∃ (s : State) (m : SpdmMsg) (d : Nat) (b : List Byte),
      s.asks m 0x10 d b ∧
      s.operator m.session = true ∧
      u8 b 0 = 0x4B ∧
      s.fetchCheck 0 (b.take 64) = none ∧
      b.length = 64 ∧
      u32 b 4 = 0 ∧
      u16 (b.drop 16) 0 ≤ 4095) ∧
    (∃ (s : State) (m : SpdmMsg) (d : Nat) (b : List Byte),
      s.asks m 0x10 d b ∧
      s.operator m.session = true ∧
      u8 b 0 = 0x4C ∧
      s.fetchCheck 0 (b.take 64) = none ∧
      b.length = 64 ∧
      u32 b 4 = 0 ∧
      u8 (b.drop 16) 0 = 0 ∧
      s.lve.sole = none ∧
      s.auditTakes = true) ∧
    (∃ (s : State) (m : SpdmMsg) (d : Nat) (b : List Byte),
      s.asks m 0x10 d b ∧
      s.operator m.session = true ∧
      u8 b 0 = 0x4E ∧
      s.fetchCheck 0 (b.take 64) = none ∧
      b.length = 64 ∧
      u32 b 4 = 0 ∧
      u64 (b.drop 16) 0 < s.aud.nextSegment) ∧
    (∃ (s : State) (m : SpdmMsg) (d : Nat) (b : List Byte),
      s.asks m 0x10 d b ∧
      s.operator m.session = true ∧
      u8 b 0 = 0x4A ∧
      s.fetchCheck 0 (b.take 64) = none ∧
      b.length = 64 ∧
      u32 b 4 = 0 ∧
      u16 (b.drop 16) 0 ≠ 0 ∧
      ((s.dom (u16 (b.drop 16) 0)).st = .created ∨ (s.dom (u16 (b.drop 16) 0)).st = .active) ∧
      (s.dom (u16 (b.drop 16) 0)).teardown = none ∧
      s.auditTakes 2 = true) ∧
    (∃ (s : State) (m : SpdmMsg) (d : Nat) (b : List Byte),
      s.asks m 0x11 d b ∧
      (s.operator m.session = true ∨ s.vendor m.session = true) ∧
      (lcOf (u8 b 0)).isSome = true ∧
      s.lcRefusal m.session (lcOf (u8 b 0)) b = none ∧
      s.auditSeals = true) ∧
    (∃ (s : State) (m : SpdmMsg) (d : Nat) (b : List Byte),
      s.asks m 0x12 d b ∧
      s.vendor m.session = true ∧
      s.lve.tokens = true ∧
      tokenNames b = true ∧
      12 ≤ b.length ∧
      s.ftimeNow < u32 b 8 ∧
      s.auditSeals = true) ∧
    (∃ (s : State) (m : SpdmMsg) (k : Nat) (r : List Byte),
      m.verified = true ∧
      (m.session = 0 ∨ (s.spdm? m.session).isSome = true) ∧
      s.serves .lve = true ∧
      (k, r) ∈ s.spdmPlain ∧
      m.code = k) ∧
    (∃ (s : State) (m : SpdmMsg),
      m.verified = true ∧
      (m.session = 0 ∨ (s.spdm? m.session).isSome = true) ∧
      s.serves .lve = true ∧
      (spdmCodes.contains m.code) = false) ∧
    (∃ (s : State) (m : SpdmMsg),
      m.verified = true ∧
      (m.session = 0 ∨ (s.spdm? m.session).isSome = true) ∧
      s.serves .lve = true ∧
      (m.code = 0x83 ∨ m.code = 0xE0) ∧
      s.lve.keysHeld = false) ∧
    (∃ (s : State) (m : SpdmMsg),
      m.verified = true ∧
      (m.session = 0 ∨ (s.spdm? m.session).isSome = true) ∧
      s.serves .lve = true ∧
      (m.code = 0x83 ∨ m.code = 0xE0 ∨ m.code = 0xE4) ∧
      s.lve.keysHeld = true) ∧
    (∃ (s : State) (m : SpdmMsg),
      m.verified = true ∧
      (m.session = 0 ∨ (s.spdm? m.session).isSome = true) ∧
      s.serves .lve = true ∧
      m.code = 0xE4 ∧
      s.lve.keysHeld = false ∧
      s.mgmt.sessions = []) ∧
    (∃ (s : State) (m : SpdmMsg),
      m.verified = true ∧
      (s.spdm? m.session).isSome = true ∧
      s.serves .lve = true ∧
      m.code = 0xE5) ∧
    (∃ (s : State) (m : SpdmMsg),
      m.verified = true ∧
      (s.spdm? m.session).isSome = true ∧
      s.serves .lve = true ∧
      (m.code = 0xE8 ∨ m.code = 0xE9)) ∧
    (∃ (s : State) (m : SpdmMsg),
      m.verified = true ∧
      (s.spdm? m.session).isSome = true ∧
      s.serves .lve = true ∧
      m.code = 0xEC) ∧
    (∃ (s : State) (q : CmdRef) (c : InFlight) (inp : List Byte) (k : Nat) (r : List Byte),
      s.offers q 0x48 c ∧
      inp.length = c.inLen ∧
      s.serves .lve = true ∧
      (u8 inp 0 = 0x12 ∨ u8 inp 0 = 0x13) ∧
      (k, r) ∈ s.spdmPlain ∧
      u8 inp 1 = k ∧
      r.length ≤ u32 c.ops 8) ∧
    (∃ (s : State) (q : CmdRef) (c : InFlight) (inp : List Byte) (k : Nat) (r : List Byte),
      s.offers q 0x48 c ∧
      inp.length = c.inLen ∧
      s.serves .lve = true ∧
      (u8 inp 0 = 0x12 ∨ u8 inp 0 = 0x13) ∧
      (k, r) ∈ s.spdmPlain ∧
      u8 inp 1 = k ∧
      u32 c.ops 8 < r.length) ∧
    (∃ (s : State) (q : CmdRef) (c : InFlight) (inp : List Byte),
      s.offers q 0x48 c ∧
      inp.length = c.inLen ∧
      s.serves .lve = true ∧
      (u8 inp 0 = 0x12 ∨ u8 inp 0 = 0x13) ∧
      (u8 inp 1 = 0x83 ∨ u8 inp 1 = 0xE0) ∧
      s.lve.keysHeld = false) ∧
    (∃ (s : State) (q : CmdRef) (c : InFlight) (inp : List Byte),
      s.offers q 0x48 c ∧
      inp.length = c.inLen ∧
      s.serves .lve = true ∧
      (u8 inp 0 = 0x12 ∨ u8 inp 0 = 0x13) ∧
      u8 inp 1 = 0xFE) ∧
    (∃ (s : State) (q : CmdRef) (c : InFlight) (inp : List Byte) (x : SpdmSession),
      s.offers q 0x48 c ∧
      inp.length = c.inLen ∧
      s.serves .lve = true ∧
      u8 inp 0 ≠ 0x12 ∧
      u8 inp 0 ≠ 0x13 ∧
      s.spdm? (u32 inp 0) = some x ∧
      64 ≤ u32 c.ops 8) ∧
    (∃ (s : State) (k : Nat) (x : SpdmSession),
      s.spdm? k = some x ∧
      x.hbeat = true ∧
      x.last + x.period ≤ s.now) ∧
    (∃ (s : State) (q : CmdRef) (c : InFlight) (l : List Segment),
      s.offers q 0x4D c ∧
      s.serves .lve = true ∧
      262368 ≤ u32 c.ops 8 ∧
      l = fitSegments (u32 c.ops 8) (s.sealSegment 1).aud.segments) ∧
    (∃ (s : State) (q : CmdRef) (c : InFlight),
      s.offers q 0x4E c ∧
      s.serves .lve = true ∧
      u64 c.ops 0 < s.aud.nextSegment) :=
  ⟨⟨anchored {}, ask 0x10 (leBytes 16 0x00 ++ leBytes 48 0), 1, (leBytes 16 0x00 ++ leBytes 48 0), ⟨by decide, by decide, rfl, by decide, by decide⟩, operator_anchored {}, by decide, by decide, by decide, by decide⟩,
   ⟨anchored {}, ask 0x10 (leBytes 16 0x4B ++ leBytes 16 1 ++ leBytes 32 64), 1, (leBytes 16 0x4B ++ leBytes 16 1 ++ leBytes 32 64), ⟨by decide, by decide, rfl, by decide, by decide⟩, operator_anchored {}, by decide, by decide, by decide, by decide, by decide⟩,
   ⟨anchored {}, ask 0x10 (leBytes 16 0x4C ++ leBytes 48 0), 1, (leBytes 16 0x4C ++ leBytes 48 0), ⟨by decide, by decide, rfl, by decide, by decide⟩, operator_anchored {}, by decide, by decide, by decide, by decide, by decide, by decide, by decide⟩,
   ⟨{ anchored {} with aud := { nextSegment := 2, segments := [aSegment 0, aSegment 1] } }, ask 0x10 (leBytes 16 0x4E ++ leBytes 48 0), 1, (leBytes 16 0x4E ++ leBytes 48 0), ⟨by decide, by decide, rfl, by decide, by decide⟩, operator_anchored {}, by decide, by decide, by decide, by decide, by decide⟩,
   ⟨anchored { st := .active }, ask 0x10 (leBytes 16 0x4A ++ leBytes 48 1), 1, (leBytes 16 0x4A ++ leBytes 48 1), ⟨by decide, by decide, rfl, by decide, by decide⟩, operator_anchored { st := .active }, by decide, by decide, by decide, by decide, by decide, by decide, by decide, by decide⟩,
   ⟨anchored {}, ask 0x11 [5#8], 1, [5#8], ⟨by decide, by decide, rfl, by decide, by decide⟩, .inl (operator_anchored _), by decide, lcRefusal_anchored, by decide⟩,
   ⟨anchored {}, ask 0x12 (leBytes 8 Config.serial.toNat ++ leBytes 4 5), 1, leBytes 8 Config.serial.toNat ++ leBytes 4 5, by
    have h : Config.serial.toNat < 2 ^ 64 := Config.serial.isLt
    have hf := field_leBytes 8 Config.serial.toNat (leBytes 4 5)
    have h5 : u32 (leBytes 8 Config.serial.toNat ++ leBytes 4 5) 8 = 5 := by simp [u32, field, leBytes, ofLe]
    refine ⟨⟨rfl, by decide, rfl, by decide, by decide⟩, ?_, by decide, ?_, ?_, ?_, by decide⟩
    · exact vendor_anchored _
    · simp only [tokenNames, u64, hf]; simp; omega
    · simp
    · rw [h5]; decide⟩,
   ⟨ready, { session := 0, code := 0x84, body := [] }, 0x84, spdmResp 0x04 (leBytes 1 0 ++ leBytes 1 2 ++ leBytes 2 0x1200 ++ leBytes 2 0x1300), by decide, by decide, by decide, List.mem_cons_self .., by decide⟩,
   ⟨ready, { session := 0, code := 0x99, body := [] }, by decide⟩,
   ⟨ready, { session := 0, code := 0xE0, body := [] }, by decide⟩,
   ⟨{ ready with lve := { ready.lve with keysHeld := true } }, { session := 0, code := 0xE4, body := [] }, by decide⟩,
   ⟨ready, { session := 0, code := 0xE4, body := [] }, by decide⟩,
   ⟨tenanted {}, { session := 5, code := 0xE5, body := [] }, by decide⟩,
   ⟨{ tenanted {} with now := 9 }, { session := 5, code := 0xE9, body := [] }, by decide⟩,
   ⟨tenanted {}, { session := 5, code := 0xEC, body := [] }, by decide⟩,
   ⟨hosted (cmd 0x48 (leBytes 8 4096 ++ leBytes 4 64) 4), q0, cmd 0x48 (leBytes 8 4096 ++ leBytes 4 64) 4, [0x13#8, 0x84#8, 0#8, 0#8], 0x84, spdmResp 0x04 (leBytes 1 0 ++ leBytes 1 2 ++ leBytes 2 0x1200 ++ leBytes 2 0x1300), by decide, by decide, by decide, by decide, List.mem_cons_self .., by decide, by decide⟩,
   ⟨hosted (cmd 0x48 (leBytes 8 4096 ++ leBytes 4 9) 4), q0, cmd 0x48 (leBytes 8 4096 ++ leBytes 4 9) 4, [0x13#8, 0x84#8, 0#8, 0#8], 0x84, spdmResp 0x04 (leBytes 1 0 ++ leBytes 1 2 ++ leBytes 2 0x1200 ++ leBytes 2 0x1300), by decide, by decide, by decide, by decide, List.mem_cons_self .., by decide, by decide⟩,
   ⟨hosted (cmd 0x48 (leBytes 8 4096 ++ leBytes 4 512) 4), q0, cmd 0x48 (leBytes 8 4096 ++ leBytes 4 512) 4, [0x12#8, 0xE0#8, 0#8, 0#8], by decide⟩,
   ⟨hosted (cmd 0x48 (leBytes 8 4096 ++ leBytes 4 512) 4), q0, cmd 0x48 (leBytes 8 4096 ++ leBytes 4 512) 4, [0x12#8, 0xFE#8, 0#8, 0#8], by decide⟩,
   ⟨{ hosted (cmd 0x48 (leBytes 8 4096 ++ leBytes 4 512) 4) with mgmt := { ready.mgmt with sessions := [(5, {})] } }, q0, cmd 0x48 (leBytes 8 4096 ++ leBytes 4 512) 4, [5#8, 0#8, 0#8, 0#8], {}, by decide⟩,
   ⟨{ tenanted {} with now := 1000 }, 5, { peer := some [9], established := true, hbeat := true, period := 1000 }, by decide⟩,
   ⟨{ hostedPf0 (cmd 0x4D (leBytes 8 4096 ++ leBytes 4 262368)) with aud := { segments := [aSegment 3], nextSegment := 4 } }, p0, cmd 0x4D (leBytes 8 4096 ++ leBytes 4 262368), [aSegment 3], by decide⟩,
   ⟨{ hostedPf0 (cmd 0x4E []) with aud := { nextSegment := 2, segments := [aSegment 0, aSegment 1] } }, p0, cmd 0x4E [], by decide⟩⟩

theorem witness_KeyOperationsAndMonitorsComplete :
    (∃ (s : State) (k : KeyOp) (rest : List KeyOp) (x : Nat) (op : Nat) (d : Nat),
      s.keysRun = k :: rest ∧
      k.req = .lve x op d none ∧
      op ≠ 0) ∧
    (∃ (s : State) (k : KeyOp) (rest : List KeyOp) (x : Nat),
      s.keysRun = k :: rest ∧
      k.req = .lve x 0 0 none) ∧
    (∃ (s : State) (k : KeyOp) (rest : List KeyOp),
      s.keysRun = k :: rest ∧
      s.lve.tripping ≠ none) ∧
    (∃ (s : State) (x : Monitor),
      s.glb.phase = .ready ∧
      s.pwr.standby ≠ .standby) ∧
    (∃ (s : State) (x : Monitor),
      s.glb.phase ≠ .safe ∧
      s.glb.phase ≠ .off ∧
      (s.lve.doms.all fun e => e.2.keys.isSome == decide (e.2.st = .active) && decide (e.1 ≠ 0)) = true ∧
      (s.glb.phase ≠ .ready ∨ s.pwr.standby = .standby) ∧
      s.lve.safe = false) ∧
    (∃ (s : State) (x : Monitor) (u : Nat),
      s.lve.tripping = some (x, u) ∧
      u + 1000000 ≤ s.now) ∧
    (∃ (s : State),
      s.lve.safe = false ∧
      (s.lve.doms.all fun e => e.2.keys.isSome == decide (e.2.st = .active) && decide (e.1 ≠ 0)) = true ∧
      ((match s.lve.tripping with | some (_, u) => decide (u + 10000000 ≤ s.now) | none => false) = true ∨ 3 ≤ (s.lve.tripTimes.filter fun u => decide (s.now ≤ u + 1000000000)).length)) ∧
    (∃ (s : State) (d : Nat) (k : Nat),
      (s.dom d).keys ≠ none) :=
  ⟨⟨{ ready with lve := { keyOps := [{ domain := 1, writesSlot := true, req := .lve 5 1 1 none, resp := [1] }] } }, { domain := 1, writesSlot := true, req := .lve 5 1 1 none, resp := [1] }, [], 5, 1, 1, by decide⟩,
   ⟨{ ready with lve := { keyOps := [{ domain := 0, writesSlot := false, req := .lve 5 0 0 none, resp := [1] }] } }, { domain := 0, writesSlot := false, req := .lve 5 0 0 none, resp := [1] }, [], 5, by decide⟩,
   ⟨{ tenanted { st := .active, keys := some someKeys } with lve := { (tenanted { st := .active, keys := some someKeys }).lve with tripping := some (.clock, 0), keyOps := [{ domain := 1, writesSlot := true, req := .lve 5 1 1 none, resp := [1] }] } }, { domain := 1, writesSlot := true, req := .lve 5 1 1 none, resp := [1] }, [], by decide⟩,
   ⟨ready, .temperature, by decide⟩,
   ⟨{ ready with glb := { ready.glb with phase := .startup } }, .voltage, by decide⟩,
   ⟨{ ready with now := 1000000, lve := { tripping := some (.clock, 0), keysHeld := true } }, .clock, 0, by decide⟩,
   ⟨{ ready with lve := { tripTimes := [0, 0, 0] } }, by decide⟩,
   ⟨tenanted { st := .active, keys := some someKeys }, 1, 2, by decide⟩⟩

theorem witness_WarmResetCommandsComplete :
    (∃ (s : State) (u : PrivUnit) (c : WarmCause),
      (s.unit3 u).held = false ∧
      s.glb.phase = .ready ∧
      s.flt.fifo.length < 256) ∧
    (∃ (s : State) (u : PrivUnit),
      (s.unit3 u).held = false ∧
      s.glb.phase = .ready ∧
      s.flt.fifo.length < 256) ∧
    (∃ (s : State) (u : PrivUnit),
      (s.unit3 u).warmSince ≠ none ∧
      (s.unit3 u).times.length < 3 ∧
      (s.unit3 u).held = false ∧
      s.flt.fifo.length < 256) ∧
    (∃ (s : State) (u : PrivUnit) (a : Bool) (b : Bool),
      (s.unit3 u).warmSince ≠ none ∧
      3 ≤ (s.unit3 u).times.length ∧
      s.flt.fifo.length < 256) ∧
    (∃ (s : State) (u : PrivUnit) (b : Bool),
      (s.unit3 u).warmSince ≠ none ∧
      (s.unit3 u).times.length < 3 ∧
      (s.unit3 u).held = false ∧
      s.glb.phase = .ready ∧
      s.flt.fifo.length < 256) :=
  ⟨⟨{ ready with flt := { ready.flt with xlt := { times := [0] } } }, .xlt, .metadata (.table .bds 1 0), by decide⟩,
   ⟨{ ready with lve := { ready.lve with keyOps := [{ domain := 1, writesSlot := false, req := .device, resp := [] }] } }, .lve, by decide⟩,
   ⟨{ ready with flt := { ready.flt with lve := { warmSince := some 0, times := [0] } } }, .lve, by decide⟩,
   ⟨{ ready with flt := { ready.flt with evc := { warmSince := some 0, times := [0, 0, 0] } } }, .evc, true, true, by decide⟩,
   ⟨{ ready with flt := { ready.flt with xlt := { warmSince := some 0, times := [0] } } }, .xlt, true, by decide⟩⟩

theorem witness_FaultReportAndTestCommandsComplete :
    (∃ (s : State) (r : FaultRec) (rest : List FaultRec),
      s.flt.fifo = r :: rest ∧
      s.flt.dropped = 0) ∧
    (∃ (s : State) (x : Nat) (n : Nat),
      0 < n ∧
      s.flt.corrected.get? x = none ∧
      s.flt.fifo.length < 256) ∧
    (∃ (s : State) (a : Nat),
      s.fld Reg.glbFaultCfg 15 8 ≠ 0 ∧
      a < s.t0Bytes ∧
      s.glb.phase = .ready ∧
      s.pwr.standby ≠ .standby ∧
      s.backgroundFits .scrub (s.rowCost 0 0 64) 100 = true ∧
      (recent s.histNow day1 (s.flt.rowErrs.getD (Config.rowOf a) [])).length < 64) ∧
    (∃ (s : State) (a : Nat),
      s.fld Reg.glbFaultCfg 15 8 ≠ 0 ∧
      a < s.t0Bytes ∧
      s.glb.phase = .ready ∧
      s.pwr.standby ≠ .standby ∧
      s.backgroundFits .scrub (s.rowCost 0 0 64) 100 = true ∧
      (recent s.histNow day1 (s.flt.rowErrs.getD (Config.rowOf a) [])).length = 64 ∧
      s.flt.fifo.length < 256) ∧
    (∃ (s : State) (a : Nat),
      s.fld Reg.glbFaultCfg 15 8 ≠ 0 ∧
      a < s.t0Bytes ∧
      s.glb.phase = .ready ∧
      s.pwr.standby ≠ .standby ∧
      s.backgroundFits .scrub (s.rowCost 0 0 64) 100 = true) ∧
    (∃ (s : State) (a : Nat) (i : Nat) (l : Nat) (g : Nat) (p : Nat),
      s.fld Reg.glbFaultCfg 15 8 ≠ 0 ∧
      a < s.t0Bytes ∧
      s.glb.phase = .ready ∧
      s.pwr.standby ≠ .standby ∧
      s.backgroundFits .scrub (s.rowCost 0 0 64) 100 = true ∧
      s.flt.fifo.length < 256 ∧
      s.frameAt a = some (.page i l g p) ∧
      s.xlt.metas.has (.page i l g p) = false) ∧
    (∃ (s : State) (a : Nat) (i : Nat) (x : Seq),
      s.fld Reg.glbFaultCfg 15 8 ≠ 0 ∧
      a < s.t0Bytes ∧
      s.glb.phase = .ready ∧
      s.pwr.standby ≠ .standby ∧
      s.backgroundFits .scrub (s.rowCost 0 0 64) 100 = true ∧
      s.seq? i = some x ∧
      (x.held = [] ∧ x.waiting = [] ∧ x.trunc = none ∧ x.retirers = []) ∧
      (s.att.steps.all fun y => y.seq != i) = true) ∧
    (∃ (s : State) (c : Nat),
      bit (s.reg Reg.tstFtCfg) 31 = true ∧
      s.glb.variant.hasAttn = true ∧
      s.takesWork = true ∧
      s.flt.testCluster = none ∧
      s.testCandidate = some c ∧
      s.flt.testDue = true ∧
      s.att.lsPending = false ∧
      s.anyCluster = true) ∧
    (∃ (s : State) (c : Nat) (x : Int) (l : List Nat),
      s.flt.testCluster = some c ∧
      s.testStops c = false ∧
      s.clusterIdle c = true ∧
      s.itemReady x = true ∧
      s.backgroundFits .test (40 * s.fld Reg.pwrCoef2 7 0) 40000 = true) ∧
    (∃ (s : State) (c : Nat) (l : List Nat),
      s.flt.testCluster = some c ∧
      48 ≤ s.flt.testItem ∧
      s.flt.testFails = []) ∧
    (∃ (s : State),
      s.glb.phase = .ready ∧
      s.glb.variant.hasAttn = true ∧
      s.smSrc ≠ 1 ∧
      bit (s.reg Reg.glbPinmux) 0 = true) ∧
    (∃ (s : State) (w : RegWrite),
      s.openTo Reg.tstTrig w ∧
      s.glb.variant.hasAttn = true ∧
      bit w.value.toNat 0 = true) ∧
    (∃ (s : State) (w : RegWrite),
      s.openTo Reg.tstHistCtl w ∧
      bit w.value.toNat 31 = true ∧
      (s.history (s.reg Reg.tstHistSel)).byMonitor = false) :=
  ⟨⟨{ ready with flt := { ready.flt with fifo := [{ time := 0, unit := 0, cls := 1, resp := 0, number := 0 }] } }, { time := 0, unit := 0, cls := 1, resp := 0, number := 0 }, [], by decide⟩,
   ⟨ready, unitWord 0x38 0, 70000, by decide⟩,
   ⟨powered, 64, by decide, by decide, by decide, by decide, by decide, by show (0 : Nat) < 64; decide⟩,
   ⟨{ powered with flt := { powered.flt with rowErrs := [(Config.rowOf 64, List.replicate 64 0)] } }, 64, by decide, by decide, by decide, by decide, by decide, (by simp only [Assoc.getD, Assoc.get?, if_true, Option.getD_some]; decide), by decide⟩,
   ⟨powered, 64, by decide⟩,
   ⟨{ powered with xlt := { models := [((1, 3), aModel)], seqs := [(7, openSeq { tag := 1, st := .idle, domain := 1, model := 3 })] } }, 800 * 512, 7, 0, 0, 0, by decide⟩,
   ⟨{ powered with xlt := { models := [((1, 3), aModel)], seqs := [(7, openSeq { tag := 1, st := .idle, domain := 1, model := 3 })] } }, 64, 7, openSeq { tag := 1, st := .idle, domain := 1, model := 3 }, by decide⟩,
   ⟨{ powered with regs := powered.regs.set Reg.tstFtCfg 0x80000000#32, pwr := { powered.pwr with islands := [(15, .on)] }, flt := { powered.flt with testDue := true } }, 15, by decide⟩,
   ⟨{ powered with pwr := { powered.pwr with islands := [(15, .on)] }, flt := { powered.flt with testCluster := some 15 } }, 15, 900, [], by decide⟩,
   ⟨{ powered with flt := { powered.flt with testCluster := some 15, testItem := 48 } }, 15, [], by decide⟩,
   ⟨{ ready with regs := ready.regs.set Reg.glbPinmux 1#32 }, by decide⟩,
   ⟨ready, pf0 1, by decide⟩,
   ⟨{ ready with regs := ready.regs.set Reg.tstHistSel 0x10000000#32, flt := { ready.flt with history := [(0x10000000, { permanent := true })] } }, pf0 0x80000000, by decide⟩⟩

theorem witness_ModelCommandsComplete :
    (∃ (s : State) (q : CmdRef) (c : InFlight) (h : HostRead),
      s.offersXlt q 0x01 c ∧
      s.xlt.placed = true ∧
      modelOk c.ops = true ∧
      (readModel c.ops).tooLarge = none ∧
      (readModel c.ops).format ≠ 4 ∧
      s.model? (s.ringDomain q) (u16 c.ops 0) = none ∧
      s.mayTake 4096 Domain.modelRsv (s.xlt.models.map fun e => e.1.1) (s.ringDomain q) = true ∧
      s.auditTakes = true) ∧
    (∃ (s : State) (q : CmdRef) (c : InFlight) (b : List Byte),
      s.offersXlt q 0x01 c ∧
      s.xlt.placed = true ∧
      modelOk c.ops = true ∧
      (readModel c.ops).tooLarge = none ∧
      (readModel c.ops).format = 4 ∧
      4 * (readModel c.ops).layers * (readModel c.ops).kvHeads ≤ b.length ∧
      outliersOk (readModel c.ops) (b.take (4 * (readModel c.ops).layers * (readModel c.ops).kvHeads)) = true ∧
      s.model? (s.ringDomain q) (u16 c.ops 0) = none ∧
      s.mayTake 4096 Domain.modelRsv (s.xlt.models.map fun e => e.1.1) (s.ringDomain q) = true ∧
      s.auditTakes = true) ∧
    (∃ (s : State) (q : CmdRef) (c : InFlight),
      s.offersXlt q 0x02 c ∧
      (s.model? (s.ringDomain q) (u16 c.ops 0)).isSome = true ∧
      (s.xlt.seqs.any fun e => decide (e.2.st ≠ .retired) && decide (e.2.domain = s.ringDomain q) && decide (e.2.model = u16 c.ops 0)) = false ∧
      (s.xlt.bds.any fun e => decide (e.2.domain = s.ringDomain q) && decide (e.2.tag = u16 c.ops 0)) = false ∧
      s.auditTakes = true) :=
  ⟨⟨seqd (cmd 1 (leBytes 2 9 ++ leBytes 2 1 ++ leBytes 2 1 ++ leBytes 2 1 ++ leBytes 2 32 ++ leBytes 2 1)) id, q0, cmd 1 (leBytes 2 9 ++ leBytes 2 1 ++ leBytes 2 1 ++ leBytes 2 1 ++ leBytes 2 32 ++ leBytes 2 1), .failed, by decide⟩,
   ⟨seqd (cmd 1 (leBytes 2 9 ++ leBytes 2 1 ++ leBytes 2 1 ++ leBytes 2 1 ++ leBytes 2 32 ++ leBytes 2 4)) id, q0, cmd 1 (leBytes 2 9 ++ leBytes 2 1 ++ leBytes 2 1 ++ leBytes 2 1 ++ leBytes 2 32 ++ leBytes 2 4), [31#8, 0#8, 0xFF#8, 0xFF#8], by decide⟩,
   ⟨seqd (cmd 2 (leBytes 2 3)) fun x => { x with st := .retired }, q0, cmd 2 (leBytes 2 3), by decide⟩⟩

theorem witness_SequenceCommandsComplete :
    (∃ (s : State) (q : CmdRef) (c : InFlight) (i : Nat),
      s.offersXlt q 0x08 c ∧
      s.xlt.placed = true ∧
      u32 c.ops 4 ≤ 1 ∧
      (s.model? (s.ringDomain q) (u16 c.ops 0)).isSome = true ∧
      (u32 c.ops 4 = 1 → s.glb.variant.hasAttn = true) ∧
      s.mayTake (2 ^ 24) Domain.seqRsv (s.usedSeqs.map Prod.snd) (s.ringDomain q) = true ∧
      chooseFree (s.usedSeqs.map Prod.fst) 0 (2 ^ 24) (Config.seqIndex s.fresh) = some i) ∧
    (∃ (s : State) (q : CmdRef) (c : InFlight) (i : Nat) (x : Seq),
      s.offersXlt q 0x09 c ∧
      s.findSeq (s.ringDomain q) (u32 c.ops 0) = .ok (i, x)) ∧
    (∃ (s : State) (i : Nat) (x : Seq),
      s.seq? i = some x ∧
      x.st = .draining ∧
      s.drained i x = true ∧
      s.mayBegin (.retire i) = true ∧
      s.serves .xlt = true ∧
      s.noPlacements) ∧
    (∃ (s : State) (q : CmdRef) (c : InFlight) (i : Nat) (x : Seq),
      s.offersXlt q 0x0A c ∧
      u32 c.ops 4 % 16 = 0 ∧
      s.findSeq (s.ringDomain q) (u32 c.ops 0) = .ok (i, x) ∧
      x.trunc = none ∧
      x.st ≠ .draining ∧
      x.st ≠ .poisoned ∧
      x.inFlight = 0) ∧
    (∃ (s : State) (q : CmdRef) (c : InFlight) (i : Nat) (x : Seq),
      s.offersXlt q 0x0A c ∧
      u32 c.ops 4 % 16 = 0 ∧
      s.findSeq (s.ringDomain q) (u32 c.ops 0) = .ok (i, x) ∧
      x.trunc = none ∧
      x.st ≠ .draining ∧
      x.st ≠ .poisoned ∧
      x.inFlight ≠ 0) ∧
    (∃ (s : State) (i : Nat) (x : Seq) (r : Requester) (p : Nat),
      s.seq? i = some x ∧
      x.trunc = some (r, p) ∧
      x.inFlight = 0 ∧
      s.mayBegin (.truncate i) = true ∧
      s.serves .xlt = true ∧
      x.waiting = [] ∧
      x.st ≠ .draining ∧
      x.st ≠ .poisoned) ∧
    (∃ (s : State) (q : CmdRef) (c : InFlight) (i : Nat) (x : Seq),
      s.offersXlt q 0x0B c ∧
      s.findSeq (s.ringDomain q) (u32 c.ops 0) = .ok (i, x)) ∧
    (∃ (s : State) (q : CmdRef) (c : InFlight) (i : Nat) (x : Seq) (inp : List Byte) (y : Bd),
      s.offersXlt q 0x0C c ∧
      inp.length = c.inLen ∧
      u32 c.ops 4 = 1 ∧
      inp.length = 4 ∧
      s.findSeq (s.ringDomain q) (u32 c.ops 0) = .ok (i, x) ∧
      x.st ≠ .draining ∧
      s.findBd (s.ringDomain q) (u32 inp 0) = some y ∧
      x.stripe = none ∧
      ((List.range (s.modelOf x).layers).all fun l => decide (x.nextPos l = x.base)) = true ∧
      x.base + 16 ≤ 2 ^ 24 ∧
      y.tag = x.model ∧
      y.whole = true ∧
      (y.fds.any fun f => f.2.poison) = false ∧
      s.metaPoison (.bdPage (u32 inp 0)) = false ∧
      (y.fds.all fun f => decide (f.2.refs < 65535)) = true ∧
      ((List.range y.slots).all fun k => (tablePath (.seq i) (pageKey (k / (s.modelOfBd y).groups) (k % (s.modelOfBd y).groups) (x.base / 16))).all s.xlt.metas.has) = true) ∧
    (∃ (s : State) (q : CmdRef) (c : InFlight) (i : Nat) (x : Seq),
      s.offersXlt q 0x0F c ∧
      u8 c.ops 4 ≤ 15 ∧
      s.findSeq (s.ringDomain q) (u32 c.ops 0) = .ok (i, x) ∧
      s.auditTakes = true ∧
      s.noPlacements) ∧
    (∃ (s : State) (q : CmdRef) (c : InFlight) (i : Nat) (x : Seq) (n : Nat) (z : RingSlot),
      s.offersXlt q 0x10 c ∧
      s.findSeq (s.ringDomain q) (u32 c.ops 0) = .ok (i, x) ∧
      s.ringSlot (s.ringDomain q) (u16 c.ops 4) = some (n, z) ∧
      x.st = .idle ∧
      s.lengthOf x = 0 ∧
      x.base = 0 ∧
      x.stripe = none ∧
      z.st ≠ .leaving ∧
      12 ≤ u8 c.ops 7 ∧
      u8 c.ops 7 ≤ 22 ∧
      u8 c.ops 6 < z.n ∧
      (u8 c.ops 6 + 1) * 2 ^ u8 c.ops 7 ≤ 2 ^ 24 ∧
      s.liveStripe n (u32 c.ops 8) = none ∧
      (x.determ = true → s.detSlice ≤ 2 ^ u8 c.ops 7) ∧
      s.auditTakes = true) ∧
    (∃ (s : State) (i : Nat) (x : Seq) (l : Nat) (h : Nat) (p : Nat) (e : Pte) (rest : Assoc (Nat × Nat × Nat) Pte),
      s.seq? i = some x ∧
      x.unmapping = ((l, h, p), e) :: rest ∧
      s.pinned (e.frame i l h p) = false ∧
      s.mayBegin (.unmap i (l, h, p)) = true ∧
      s.serves .xlt = true ∧
      s.noPlacements) :=
  ⟨⟨seqd (cmd 8 (leBytes 2 3)) fun x => { x with st := .retired }, q0, cmd 8 (leBytes 2 3), (chooseFree [] 0 (2 ^ 24) (Config.seqIndex 0)).getD 0, by
    refine ⟨by decide, by decide, by decide, by decide, by decide, by decide, ?_⟩
    obtain ⟨i, h⟩ := chooseFree_nil (2 ^ 24) (Config.seqIndex 0) (by decide)
    show chooseFree [] 0 (2 ^ 24) (Config.seqIndex 0) = some _
    rw [h]; rfl⟩,
   ⟨seqd (cmd 9 handle7) id, q0, cmd 9 handle7, 7, { tag := 1, st := .idle, domain := 1, model := 3 }, by decide⟩,
   ⟨seqd (cmd 9 handle7) fun x => { x with st := .draining }, 7, { tag := 1, st := .draining, domain := 1, model := 3 }, by decide⟩,
   ⟨seqd (cmd 10 (handle7 ++ leBytes 4 16)) fun x => { x with next := [(0, 20)] }, q0, cmd 10 (handle7 ++ leBytes 4 16), 7, { tag := 1, st := .idle, domain := 1, model := 3, next := [(0, 20)] }, by decide⟩,
   ⟨seqd (cmd 10 handle7) fun x => { x with st := .active, inFlight := 1 }, q0, cmd 10 handle7, 7, { tag := 1, st := .active, domain := 1, model := 3, inFlight := 1 }, by decide⟩,
   ⟨seqd (cmd 10 handle7) fun x => { x with trunc := some (.ring q0, 16), next := [(0, 20)] }, 7, { tag := 1, st := .idle, domain := 1, model := 3, trunc := some (.ring q0, 16), next := [(0, 20)] }, .ring q0, 16, by decide⟩,
   ⟨seqd (cmd 11 handle7) fun x => { x with next := [(0, 20)] }, q0, cmd 11 handle7, 7, { tag := 1, st := .idle, domain := 1, model := 3, next := [(0, 20)] }, by decide⟩,
   ⟨{ seqd (cmd 12 (handle7 ++ leBytes 4 1) 4) id with xlt := { (seqd (cmd 12 (handle7 ++ leBytes 4 1) 4) id).xlt with
        bds := [(5, { block := 0, tag := 3, domain := 1, slots := 1, sealedCount := 1, hash := 77, fds := [(0, { domain := 1, format := 1, fc := 0, home := { tier := 0, addr := 0 } })] })]
        metas := (tablePath (.seq 7) 0).map fun f => (f, { domain := 1, fc := 0, home := { tier := 0, addr := 8 } }) } }, q0, cmd 12 (handle7 ++ leBytes 4 1) 4, 7, { tag := 1, st := .idle, domain := 1, model := 3 }, leBytes 4 5, { block := 0, tag := 3, domain := 1, slots := 1, sealedCount := 1, hash := 77, fds := [(0, { domain := 1, format := 1, fc := 0, home := { tier := 0, addr := 0 } })] }, by decide⟩,
   ⟨seqd (cmd 15 (handle7 ++ leBytes 1 15)) id, q0, cmd 15 (handle7 ++ leBytes 1 15), 7, { tag := 1, st := .idle, domain := 1, model := 3 }, by decide⟩,
   ⟨{ seqd (cmd 16 (handle7 ++ leBytes 2 2 ++ leBytes 1 1 ++ leBytes 1 12 ++ leBytes 4 8)) id with cwy := { ready.cwy with slots := [(0, { st := .ready, domain := 1, ringId := 2, n := 2 })] } }, q0, cmd 16 (handle7 ++ leBytes 2 2 ++ leBytes 1 1 ++ leBytes 1 12 ++ leBytes 4 8), 7, { tag := 1, st := .idle, domain := 1, model := 3 }, 0, { st := .ready, domain := 1, ringId := 2, n := 2 }, by decide⟩,
   ⟨seqd (cmd 10 handle7) fun x => { x with unmapping := [((0, 0, 1), { domain := 1, format := 1, fc := 0, home := { tier := 0, addr := 0 } })] }, 7, { tag := 1, st := .idle, domain := 1, model := 3, unmapping := [((0, 0, 1), { domain := 1, format := 1, fc := 0, home := { tier := 0, addr := 0 } })] }, 0, 0, 1, { domain := 1, format := 1, fc := 0, home := { tier := 0, addr := 0 } }, [], by decide⟩⟩

theorem witness_ObjectCommandsComplete :
    (∃ (s : State) (q : CmdRef) (c : InFlight) (n : Nat),
      s.offersXlt q 0x28 c ∧
      s.xlt.placed = true ∧
      u8 c.ops 0 ≤ 6 ∧
      u8 c.ops 1 ≤ 1 ∧
      u32 c.ops 4 ≠ 0 ∧
      s.mayTake 65536 Domain.objRsv (s.usedObjs.map Prod.snd) (s.ringDomain q) = true ∧
      chooseFree (s.usedObjs.map Prod.fst) 0 65536 (Config.objNumber s.fresh) = some n) ∧
    (∃ (s : State) (q : CmdRef) (c : InFlight) (inp : List Byte) (n : Nat) (x : Obj),
      s.offersXlt q 0x29 c ∧
      inp.length = c.inLen ∧
      s.findObj (s.ringDomain q) (u32 c.ops 0) = .ok (n, x) ∧
      x.releasing = false ∧
      u8 c.ops 12 ≤ 3 ∧
      (u8 c.ops 12 = 3 → s.glb.variant.hasFlash = true ∧ s.islandOn peatIsland = true) ∧
      inp.length = u32 c.ops 8 * (4096 * 2 ^ x.fc) ∧
      u32 c.ops 4 + u32 c.ops 8 ≤ x.pages ∧
      x.isSealed = false ∧
      (((List.range (u32 c.ops 8)).map (u32 c.ops 4 + ·)).any fun p => x.map.has p) = false ∧
      (s.mapPages n x (u8 c.ops 12) ((List.range (u32 c.ops 8)).map (u32 c.ops 4 + ·))).isSome = true ∧
      s.slc.objWrites = [] ∧
      s.slc.nextMove ∉ s.sdg.queue.map SdgBlock.owner ∧
      s.slc.nextMove ∉ s.pea.waiting.map Prod.fst ∧
      s.slc.nextMove ∉ s.pea.writes.map PWrite.move ∧
      s.runsAtOnce (s.objectItem (.ring q) (s.ringDomain q) (u32 c.ops 8) (4096 * 2 ^ x.fc) (u8 c.ops 12))) ∧
    (∃ (s : State) (q : CmdRef) (c : InFlight) (n : Nat) (x : Obj),
      s.offersXlt q 0x2A c ∧
      s.findObj (s.ringDomain q) (u32 c.ops 0) = .ok (n, x) ∧
      x.releasing = false) ∧
    (∃ (s : State) (q : CmdRef) (c : InFlight) (n : Nat) (x : Obj),
      s.offersXlt q 0x2B c ∧
      s.findObj (s.ringDomain q) (u32 c.ops 0) = .ok (n, x) ∧
      (s.slc.pageReads.any fun r => r.obj && r.target == n) = false ∧
      (s.slc.objWrites.any fun w => w.obj == n) = false ∧
      s.noPlacements) :=
  ⟨⟨seqd (cmd 0x28 (leBytes 4 0x106 ++ leBytes 4 4)) id, q0, cmd 0x28 (leBytes 4 0x106 ++ leBytes 4 4), (chooseFree [] 0 65536 (Config.objNumber 0)).getD 0, by
    refine ⟨by decide, by decide, by decide, by decide, by decide, by decide, ?_⟩
    obtain ⟨i, h⟩ := chooseFree_nil 65536 (Config.objNumber 0) (by decide)
    show chooseFree [] 0 65536 (Config.objNumber 0) = some _
    rw [h]; rfl⟩,
   ⟨{ { seqd (cmd 0x29 (leBytes 4 (handleOf 1 2) ++ leBytes 4 3 ++ leBytes 4 1) 4096) id with xlt := { (seqd (cmd 0x29 (leBytes 4 (handleOf 1 2) ++ leBytes 4 3 ++ leBytes 4 1) 4096) id).xlt with objs := [(2, { tag := 1, domain := 1, fc := 0, pages := 4, sedge := false })] } } with xlt := { ({ seqd (cmd 0x29 (leBytes 4 (handleOf 1 2) ++ leBytes 4 3 ++ leBytes 4 1) 4096) id with xlt := { (seqd (cmd 0x29 (leBytes 4 (handleOf 1 2) ++ leBytes 4 3 ++ leBytes 4 1) 4096) id).xlt with objs := [(2, { tag := 1, domain := 1, fc := 0, pages := 4, sedge := false })] } }).xlt with metas := (tablePath (.obj 2) 3).map fun f => (f, { domain := 1, fc := 0, home := { tier := 0, addr := 8 } }) } }, q0, cmd 0x29 (leBytes 4 (handleOf 1 2) ++ leBytes 4 3 ++ leBytes 4 1) 4096, List.replicate 4096 7#8, 2, { tag := 1, domain := 1, fc := 0, pages := 4, sedge := false }, by decide, by rw [List.length_replicate]; rfl, by decide, by decide, by decide, by decide, by rw [List.length_replicate]; decide, by decide, by decide, by decide, by decide, by decide, by decide, by decide, by decide, by decide⟩,
   ⟨{ seqd (cmd 0x2A (leBytes 4 (handleOf 1 2))) id with xlt := { (seqd (cmd 0x2A (leBytes 4 (handleOf 1 2))) id).xlt with objs := [(2, { tag := 1, domain := 1, fc := 0, pages := 4, sedge := false })] } }, q0, cmd 0x2A (leBytes 4 (handleOf 1 2)), 2, { tag := 1, domain := 1, fc := 0, pages := 4, sedge := false }, by decide⟩,
   ⟨{ seqd (cmd 0x2B (leBytes 4 (handleOf 1 2))) id with xlt := { (seqd (cmd 0x2B (leBytes 4 (handleOf 1 2))) id).xlt with objs := [(2, { tag := 1, domain := 1, fc := 0, pages := 4, sedge := false })] } }, q0, cmd 0x2B (leBytes 4 (handleOf 1 2)), 2, { tag := 1, domain := 1, fc := 0, pages := 4, sedge := false }, by decide⟩⟩

theorem witness_PlacementCommandsComplete :
    (∃ (s : State) (q : CmdRef) (c : InFlight) (f : FrameId) (v : FrameInfo),
      s.offersXlt q 0x20 c ∧
      s.noPlacements ∧
      s.slc.spaceCmds = [] ∧
      (decide (2 < (placeOps c.ops).scope) || decide (3 < (placeOps c.ops).tier) || decide (3 < (placeOps c.ops).flags) || !zeros c.ops 14 2 || !zeros c.ops 24 8 ||
        decide (s.placeLast (s.ringDomain q) (placeOps c.ops) < (placeOps c.ops).lo) || decide ((placeOps c.ops).pageHi < (placeOps c.ops).pageLo)) = false ∧
      ((placeOps c.ops).tier ≠ 3 ∨ s.glb.variant.hasFlash = true) ∧
      s.placeFrames (s.ringDomain q) { placeOps c.ops with hi := s.placeLast (s.ringDomain q) (placeOps c.ops) } = .ok [f] ∧
      s.frame? f = some v ∧
      v.home.tier = (placeOps c.ops).tier ∧
      s.moveOf f = none) ∧
    (∃ (s : State) (q : CmdRef) (c : InFlight) (f : FrameId) (v : FrameInfo),
      s.offersXlt q 0x20 c ∧
      s.noPlacements ∧
      s.slc.spaceCmds = [] ∧
      (decide (2 < (placeOps c.ops).scope) || decide (3 < (placeOps c.ops).tier) || decide (3 < (placeOps c.ops).flags) || !zeros c.ops 14 2 || !zeros c.ops 24 8 ||
        decide (s.placeLast (s.ringDomain q) (placeOps c.ops) < (placeOps c.ops).lo) || decide ((placeOps c.ops).pageHi < (placeOps c.ops).pageLo)) = false ∧
      ((placeOps c.ops).tier = 3 → s.glb.variant.hasFlash = true) ∧
      s.placeFrames (s.ringDomain q) { placeOps c.ops with hi := s.placeLast (s.ringDomain q) (placeOps c.ops) } = .ok [f] ∧
      s.frame? f = some v ∧
      v.home.tier ≠ (placeOps c.ops).tier ∧
      s.moveOf f = none ∧
      (s.alloc v.domain (placeOps c.ops).tier v.bytes v.isMeta).isSome = true ∧
      ((placeOps c.ops).tier = 3 ∨ v.home.tier = 3 → s.islandOn peatIsland = true) ∧
      (v.home.tier < (placeOps c.ops).tier → (placeOps c.ops).scope = 0 → v.shared = false)) ∧
    (∃ (s : State) (q : CmdRef) (c : InFlight),
      s.offers q 0x21 c ∧
      (u32 c.ops 0 = 0 ∨ (s.slc.moves.any fun m => decide (m.domain = s.ringDomain q) && (m.ticket == u32 c.ops 0 || m.chain.any fun y => y.ticket == u32 c.ops 0)) = false ∧ (s.slc.chainWait.any fun y => y.2.1 == s.ringDomain q && y.2.2.ticket == u32 c.ops 0) = false)) ∧
    (∃ (s : State) (q : CmdRef) (c : InFlight),
      s.offers q 0x21 c ∧
      u32 c.ops 0 ≠ 0 ∧
      ((s.slc.moves.any fun m => decide (m.domain = s.ringDomain q) && (m.ticket == u32 c.ops 0 || m.chain.any fun y => y.ticket == u32 c.ops 0)) = true ∨ (s.slc.chainWait.any fun y => y.2.1 == s.ringDomain q && y.2.2.ticket == u32 c.ops 0) = true)) ∧
    (∃ (s : State) (q : CmdRef) (c : InFlight) (i : Nat) (x : Seq),
      s.offersXlt q 0x0D c ∧
      s.noPlacements ∧
      s.findSeq (s.ringDomain q) (u32 c.ops 0) = .ok (i, x) ∧
      (x.st = .idle ∨ x.st = .active) ∧
      (s.reserveT2 x.domain ((s.eligible i x).filterMap fun f => (s.frame? f).map FrameInfo.bytes)).isSome = true) ∧
    (∃ (s : State) (q : CmdRef) (c : InFlight) (i : Nat) (x : Seq),
      s.offersXlt q 0x0D c ∧
      s.noPlacements ∧
      s.findSeq (s.ringDomain q) (u32 c.ops 0) = .ok (i, x) ∧
      x.st = .preempted) ∧
    (∃ (s : State) (i : Nat) (x : Seq) (p : Placement) (b : Bool),
      s.slc.places = [p] ∧
      s.slc.queue = [] ∧
      s.slc.spaceWait = [] ∧
      s.slc.chainWait = [] ∧
      s.mayBegin (.preempt i) = true ∧
      p.started = false ∧
      p.kind = .preempt i b ∧
      p.reqs = [] ∧
      s.seq? i = some x ∧
      s.executing i = false ∧
      s.serves .xlt = true ∧
      s.eligible i x = []) ∧
    (∃ (s : State) (i : Nat) (x : Seq) (p : Placement) (b : Bool) (f : FrameId) (v : FrameInfo) (h : Home),
      s.slc.places = [p] ∧
      s.slc.queue = [] ∧
      s.slc.spaceWait = [] ∧
      s.slc.chainWait = [] ∧
      s.mayBegin (.preempt i) = true ∧
      p.started = false ∧
      p.kind = .preempt i b ∧
      p.reqs = [] ∧
      s.seq? i = some x ∧
      s.executing i = false ∧
      s.serves .xlt = true ∧
      s.eligible i x = [f] ∧
      s.frame? f = some v ∧
      v.home.tier ≤ 1 ∧
      s.moveOf f = none ∧
      p.reserve = [(h, v.bytes)] ∧
      (s.slc.moves.any fun m => m.reqs.contains s.slc.nextReq) = false) ∧
    (∃ (s : State) (q : CmdRef) (c : InFlight) (i : Nat) (x : Seq),
      s.offersXlt q 0x0E c ∧
      s.noPlacements ∧
      u8 c.ops 4 ≤ 1 ∧
      s.findSeq (s.ringDomain q) (u32 c.ops 0) = .ok (i, x) ∧
      x.st = .preempted ∧
      x.ptes = []) ∧
    (∃ (s : State) (q : CmdRef) (c : InFlight) (i : Nat) (x : Seq) (k : Nat × Nat × Nat) (e : Pte) (v : FrameInfo),
      s.offersXlt q 0x0E c ∧
      s.noPlacements ∧
      u8 c.ops 4 = 0 ∧
      s.findSeq (s.ringDomain q) (u32 c.ops 0) = .ok (i, x) ∧
      x.st = .preempted ∧
      x.ptes = [(k, e)] ∧
      e.share = none ∧
      e.home.tier = 2 ∧
      s.frame? (.page i k.1 k.2.1 k.2.2) = some v ∧
      s.moveOf (.page i k.1 k.2.1 k.2.2) = none ∧
      (s.allocT0 v.domain v.bytes).isSome = true) :=
  ⟨⟨pagedSt (placeOne) .idle 0, q0, placeOne, .page 7 0 0 0, { domain := 1, fc := 0, bytes := 4096, gen := 0, home := { tier := 0, addr := 800 }, poison := false, moving := false }, by decide, by decide, by decide, by decide, by decide, placeFrames_one 0 (by decide), by decide⟩,
   ⟨pagedSt (placeOne) .idle 1, q0, placeOne, .page 7 0 0 0, { domain := 1, fc := 0, bytes := 4096, gen := 0, home := { tier := 1, addr := 800 }, poison := false, moving := false }, by decide, by decide, by decide, by decide, by decide, placeFrames_one 1 (by decide), by decide⟩,
   ⟨hosted (cmd 0x21 (leBytes 4 9)), q0, cmd 0x21 (leBytes 4 9), by decide⟩,
   ⟨{ hosted (cmd 0x21 (leBytes 4 9)) with slc := { moves := [{ domain := 1, ticket := 9, frame := .bdPage 0, promo := true, tier := 0, src := { tier := 1, addr := 0 }, dst := { tier := 0, addr := 0 }, bytes := 4096 }] } }, q0, cmd 0x21 (leBytes 4 9), by decide⟩,
   ⟨seqd (cmd 13 handle7) id, q0, cmd 13 handle7, 7, { tag := 1, st := .idle, domain := 1, model := 3 }, by decide⟩,
   ⟨seqd (cmd 13 handle7) fun x => { x with st := .preempted }, q0, cmd 13 handle7, 7, { tag := 1, st := .preempted, domain := 1, model := 3 }, by decide⟩,
   ⟨{ seqd (cmd 13 handle7) id with slc := { places := [{ id := 0, req := .ring q0, domain := 1, kind := .preempt 7 false, reqs := [], started := false }] } }, 7, { tag := 1, st := .idle, domain := 1, model := 3 }, { id := 0, req := .ring q0, domain := 1, kind := .preempt 7 false, reqs := [], started := false }, false, by decide⟩,
   ⟨{ pagedSt (cmd 13 handle7) .idle 0 with slc := { places := [{ id := 0, req := .ring q0, domain := 1, kind := .preempt 7 false, reqs := [], started := false, reserve := [({ tier := 2, addr := 0 }, 4096)] }] } }, 7, seqAt .idle 0, { id := 0, req := .ring q0, domain := 1, kind := .preempt 7 false, reqs := [], started := false, reserve := [({ tier := 2, addr := 0 }, 4096)] }, false, .page 7 0 0 0, { domain := 1, fc := 0, bytes := 4096, gen := 0, home := { tier := 0, addr := 800 }, poison := false, moving := false }, { tier := 2, addr := 0 }, by decide⟩,
   ⟨seqd (cmd 14 handle7) fun x => { x with st := .preempted }, q0, cmd 14 handle7, 7, { tag := 1, st := .preempted, domain := 1, model := 3 }, by decide⟩,
   ⟨pagedSt (cmd 14 handle7) .preempted 2, q0, cmd 14 handle7, 7, seqAt .preempted 2, (0, 0, 0), pteAt 2, { domain := 1, fc := 0, bytes := 4096, gen := 0, home := { tier := 2, addr := 800 }, poison := false, moving := false }, by decide⟩⟩

theorem witness_MoveAndSedgeCommandsComplete :
    (∃ (s : State) (n : Nat) (m : Move),
      s.nextMove = some m ∧
      m.seqNo = n ∧
      (s.slc.moves.filter fun y => decide (y.st ≠ .queued)).length < s.channels ∧
      ceilDiv m.bytes 4096 ≤ s.linesFree) ∧
    (∃ (s : State) (n : Nat) (m : Move) (b : MediaRead),
      s.moveIn n .read = some m ∧
      s.answers m.src = true ∧
      s.movesWait m.domain = false ∧
      (s.pea.reads.any fun y => y.move == n) = false) ∧
    (∃ (s : State) (n : Nat) (m : Move),
      s.moveIn n .write = some m ∧
      s.moveAcked m = true ∧
      s.movesWait m.domain = false ∧
      (m.promo = true ∨ s.pinned m.frame = false ∧ s.mayBegin (.commit n) = true)) ∧
    (∃ (s : State) (n : Nat) (m : Move),
      s.moveIn n .write = some m ∧
      s.moveAcked m = true ∧
      s.movesWait m.domain = false ∧
      (m.promo = true ∨ s.pinned m.frame = false ∧ s.mayBegin (.commit n) = true)) ∧
    (∃ (s : State) (n : Nat) (m : Move) (v : FrameInfo),
      s.moveIn n .commit = some m ∧
      s.serves .xlt = true ∧
      s.frame? m.frame = some v ∧
      m.freed = false ∧
      m.chain = none ∧
      s.noPlacements ∧
      s.slc.spaceCmds = []) ∧
    (∃ (s : State) (n : Nat) (m : Move),
      (s.slc.moves.find? fun y => y.seqNo == n) = some m ∧
      (m.st = .read ∧ (m.src.tier = 1 ∨ m.src.tier = 2) ∨ m.st = .write ∧ (m.dst.tier = 1 ∨ m.dst.tier = 2) ∧ (s.answers m.dst = false ∨ m.promo = true ∨ s.pinned m.frame = false)) ∧
      m.since + 1000000 ≤ s.now ∧
      s.noPlacements ∧
      s.slc.spaceCmds = []) ∧
    (∃ (s : State) (b : SdgBlock) (rest : List SdgBlock),
      s.sdg.queue = b :: rest ∧
      (s.islandOn sedgeIsland = true ∨ s.island sedgeIsland = .draining) ∧
      s.slc.objWrites = []) ∧
    (∃ (s : State) (b : SdgBlock) (rest : List SdgBlock),
      s.sdg.queue = b :: rest ∧
      (s.islandOn sedgeIsland = true ∨ s.island sedgeIsland = .draining) ∧
      s.slc.objWrites = []) :=
  ⟨⟨{ { pagedSt (cmd 0 []) .idle 1 with slc := { moves := [{ domain := 1, ticket := 1, frame := .page 7 0 0 0, promo := true, tier := 0, src := { tier := 1, addr := 800 }, dst := { tier := 0, addr := 1600 }, bytes := 4096, st := .queued, admitted := true, lines := [] }], nextMove := 1 } } with regs := [(Reg.slcStage, 8#32)] }, 0, { domain := 1, ticket := 1, frame := .page 7 0 0 0, promo := true, tier := 0, src := { tier := 1, addr := 800 }, dst := { tier := 0, addr := 1600 }, bytes := 4096, st := .queued, admitted := true, lines := [] }, by decide⟩,
   ⟨{ pagedSt (cmd 0 []) .idle 0 with slc := { moves := [{ domain := 1, ticket := 1, frame := .page 7 0 0 0, promo := true, tier := 1, src := { tier := 0, addr := 800 }, dst := { tier := 1, addr := 1600 }, bytes := 4096, st := .read, admitted := true, lines := [0] }], nextMove := 1 } }, 0, { domain := 1, ticket := 1, frame := .page 7 0 0 0, promo := true, tier := 1, src := { tier := 0, addr := 800 }, dst := { tier := 1, addr := 1600 }, bytes := 4096, st := .read, admitted := true, lines := [0] }, {}, by decide⟩,
   ⟨{ pagedSt (cmd 0 []) .idle 1 with slc := { moves := [{ domain := 1, ticket := 1, frame := .page 7 0 0 0, promo := true, tier := 0, src := { tier := 1, addr := 800 }, dst := { tier := 0, addr := 1600 }, bytes := 4096, st := .write, admitted := true, lines := [0], staged := [1, 2] }], nextMove := 1 } }, 0, { domain := 1, ticket := 1, frame := .page 7 0 0 0, promo := true, tier := 0, src := { tier := 1, addr := 800 }, dst := { tier := 0, addr := 1600 }, bytes := 4096, st := .write, admitted := true, lines := [0], staged := [1, 2] }, by decide⟩,
   ⟨{ pagedSt (cmd 0 []) .idle 1 with slc := { moves := [{ domain := 1, ticket := 1, frame := .page 7 0 0 0, promo := true, tier := 0, src := { tier := 1, addr := 800 }, dst := { tier := 0, addr := 1600 }, bytes := 4096, st := .write, admitted := true, lines := [0], staged := [1, 2] }], nextMove := 1 } }, 0, { domain := 1, ticket := 1, frame := .page 7 0 0 0, promo := true, tier := 0, src := { tier := 1, addr := 800 }, dst := { tier := 0, addr := 1600 }, bytes := 4096, st := .write, admitted := true, lines := [0], staged := [1, 2] }, by decide⟩,
   ⟨{ pagedSt (cmd 0 []) .idle 1 with slc := { moves := [{ domain := 1, ticket := 1, frame := .page 7 0 0 0, promo := true, tier := 0, src := { tier := 1, addr := 800 }, dst := { tier := 0, addr := 1600 }, bytes := 4096, st := .commit, admitted := true, lines := [0] }], nextMove := 1 } }, 0, { domain := 1, ticket := 1, frame := .page 7 0 0 0, promo := true, tier := 0, src := { tier := 1, addr := 800 }, dst := { tier := 0, addr := 1600 }, bytes := 4096, st := .commit, admitted := true, lines := [0] }, { domain := 1, fc := 0, bytes := 4096, gen := 0, home := { tier := 1, addr := 800 }, poison := false, moving := false }, by decide⟩,
   ⟨{ { pagedSt (cmd 0 []) .idle 1 with slc := { moves := [{ domain := 1, ticket := 1, frame := .page 7 0 0 0, promo := true, tier := 0, src := { tier := 1, addr := 800 }, dst := { tier := 0, addr := 1600 }, bytes := 4096, st := .read, admitted := true, lines := [0] }], nextMove := 1 } } with now := 1000000 }, 0, { domain := 1, ticket := 1, frame := .page 7 0 0 0, promo := true, tier := 0, src := { tier := 1, addr := 800 }, dst := { tier := 0, addr := 1600 }, bytes := 4096, st := .read, admitted := true, lines := [0] }, by decide⟩,
   ⟨{ ready with sdg := { queue := [{ owner := 9, domain := 1, line := 4, dst := { tier := 2, addr := 0 }, index := 0, data := List.replicate 4096 0#8 }] }, pwr := { ready.pwr with islands := [(sedgeIsland, .on)] } }, { owner := 9, domain := 1, line := 4, dst := { tier := 2, addr := 0 }, index := 0, data := List.replicate 4096 0#8 }, [], rfl, .inl rfl, rfl⟩,
   ⟨{ ready with sdg := { queue := [{ owner := 9, domain := 1, line := 4, dst := { tier := 2, addr := 0 }, index := 0, data := List.replicate 4096 0#8 }] }, pwr := { ready.pwr with islands := [(sedgeIsland, .on)] } }, { owner := 9, domain := 1, line := 4, dst := { tier := 2, addr := 0 }, index := 0, data := List.replicate 4096 0#8 }, [], rfl, .inl rfl, rfl⟩⟩

theorem witness_AppendAndDeliveryCommandsComplete :
    (∃ (s : State) (q : CmdRef) (c : InFlight) (inp : List Byte) (i : Nat) (x : Seq),
      s.offersXlt q 0x18 c ∧
      inp.length = c.inLen ∧
      s.noPlacements ∧
      s.takesRecord (s.ringDomain q) inp i x ∧
      (x.held.any fun h => h.rc.layer == u16 inp 4) = false ∧
      s.opensFor i x (appendRec (s.modelOf x) inp) false ∧
      s.runsAtOnce (s.recordItem i x (.ring q) (appendRec (s.modelOf x) inp))) ∧
    (∃ (s : State) (q : CmdRef) (c : InFlight) (inp : List Byte) (i : Nat) (x : Seq) (ue : Bool),
      s.offersXlt q 0x18 c ∧
      inp.length = c.inLen ∧
      s.noPlacements ∧
      s.takesRecord (s.ringDomain q) inp i x ∧
      (x.held.any fun h => h.rc.layer == u16 inp 4) = true) ∧
    (∃ (s : State) (m : RxMsg) (i : Nat) (n : Nat) (x : Seq),
      s.passes m 0x10 i ∧
      (s.received m).serves .xlt = true ∧
      (s.received m).linksCalm ∧
      (s.received m).noPlacements ∧
      (s.received m).takesRecord ((s.received m).domainOf (m.requester i)) m.body n x ∧
      (x.held.any fun h => h.rc.layer == u16 m.body 4) = false ∧
      (s.received m).opensFor n x (appendRec ((s.received m).modelOf x) m.body) false ∧
      (s.received m).runsAtOnce ((s.received m).recordItem n x (m.requester i) (appendRec ((s.received m).modelOf x) m.body))) ∧
    (∃ (s : State) (q : CmdRef) (c : InFlight) (inp : List Byte) (i : Nat) (x : Seq),
      s.offersXlt q 0x18 c ∧
      inp.length = c.inLen ∧
      s.noPlacements ∧
      s.takesRecord (s.ringDomain q) inp i x ∧
      (x.held.any fun h => h.rc.layer == u16 inp 4) = false ∧
      s.opensFor i x (appendRec (s.modelOf x) inp) false ∧
      s.runsAtOnce (s.recordItem i x (.ring q) (appendRec (s.modelOf x) inp))) ∧
    (∃ (s : State) (i : Nat) (x : Seq) (n : Nat) (h : HeldRec),
      s.serves .xlt = true ∧
      s.noPlacements ∧
      s.mayBegin (.rescale i n) = true ∧
      s.releaseTurn (.held i n) = true ∧
      s.seq? i = some x ∧
      x.held.filter (fun y => y.rc.layer == n) = [h] ∧
      s.tailForeign x n (h.rc.pos / 16) = false ∧
      s.opensFor i x h.rc h.before ∧
      s.waits (.record i n h.rc.pos) = false) ∧
    (∃ (s : State) (n : Nat) (y : Stall) (i : Nat) (x : Seq) (l : Nat) (h : HeldRec),
      s.slc.stalls[n]? = some y ∧
      y.who = .held i l ∧
      s.releaseTurn y.who = true ∧
      s.serves .xlt = true ∧
      s.noPlacements ∧
      s.seq? i = some x ∧
      x.held.filter (fun y => y.rc.layer == l) = [h] ∧
      s.tailForeign x l (h.rc.pos / 16) = false ∧
      s.opensFor i x h.rc h.before ∧
      s.waits (.record i l h.rc.pos) = false) ∧
    (∃ (s : State) (i : Nat) (x : Seq) (n : Nat) (h : HeldRec),
      s.serves .xlt = true ∧
      s.noPlacements ∧
      s.mayBegin (.rescale i n) = true ∧
      s.releaseTurn (.held i n) = true ∧
      s.seq? i = some x ∧
      x.held.filter (fun y => y.rc.layer == n) = [h] ∧
      s.tailForeign x n (h.rc.pos / 16) = false ∧
      s.opensFor i x h.rc h.before ∧
      s.waits (.record i n h.rc.pos) = false) ∧
    (∃ (s : State) (m : RxMsg) (b : MediaRead) (i : Nat) (u : State) (n : Nat) (x : Obj) (e : Pte),
      s.takes m 0x18 = true ∧
      (s.receive m (some (State.readCost m.body))).2 = .pass i ∧
      u = (s.receive m (some (State.readCost m.body))).1 ∧
      u.serves .xlt = true ∧
      pageReadShape m.body = true ∧
      u8 m.body 4 = 1 ∧
      u.findObj (u.domainOf (m.requester i)) (u32 m.body 0) = .ok (n, x) ∧
      x.releasing = false ∧
      x.isSealed = true ∧
      x.map.get? (u32 m.body 8) = some e ∧
      e.poison = false ∧
      e.domain = u.domainOf (m.requester i) ∧
      u.xlt.metas.has (.obj n (u32 m.body 8)) = false ∧
      (u.firstOut (tablePath (.obj n) (u32 m.body 8))).isNone = true ∧
      ((tablePath (.obj n) (u32 m.body 8)).any u.metaPoison) = false ∧
      e.home.tier = 0 ∧
      (∀ k < 2 ^ x.fc, u.wireAt (placeAt e.home k) = none) ∧
      (b.bad.any fun y => y.1 == 0) = false ∧
      (b.altered.any fun y => y.1.1 == 0) = false ∧
      u16 m.body 12 = 1 ∧
      (u.slc.pageReads.any fun r => r.id == u.slc.nextRead) = false ∧
      (u.cwy.sessions.get? i).map Session.peerLast = some none ∧
      u.linksCalm ∧
      u.noPlacements ∧
      u.runsAtOnce (u.readItem (u.domainOf (m.requester i)) (State.readCost m.body u (u.domainOf (m.requester i))) u.slc.nextRead)) ∧
    (∃ (s : State) (m : RxMsg) (b : MediaRead) (i : Nat) (u : State) (n : Nat) (x : Seq) (e : Pte),
      s.takes m 0x18 = true ∧
      (s.receive m (some (State.readCost m.body))).2 = .pass i ∧
      u = (s.receive m (some (State.readCost m.body))).1 ∧
      u.serves .xlt = true ∧
      pageReadShape m.body = true ∧
      u8 m.body 4 = 0 ∧
      u.findSeq (u.domainOf (m.requester i)) (u32 m.body 0) = .ok (n, x) ∧
      (x.st = .idle ∨ x.st = .active) ∧
      u.deliverable { id := u.slc.nextRead, req := m.requester i, domain := x.domain, obj := false, target := n, layer := u16 m.body 6, hg := u8 m.body 5, page := u32 m.body 8, count := 1, tag := u32 m.body 16 } x e ∧
      u16 m.body 12 = 1 ∧
      (u.slc.pageReads.any fun r => r.id == u.slc.nextRead) = false ∧
      (u.cwy.sessions.get? i).map Session.peerLast = some none ∧
      u.linksCalm ∧
      u.noPlacements ∧
      u.runsAtOnce (u.readItem (u.domainOf (m.requester i)) (State.readCost m.body u (u.domainOf (m.requester i))) u.slc.nextRead)) ∧
    (∃ (s : State) (n : Nat) (y : Stall) (r : PageRead) (x : Seq) (e : Pte),
      s.serves .xlt = true ∧
      s.noPlacements ∧
      s.slc.stalls[n]? = some y ∧
      y.who = .read r.id ∧
      s.releaseTurn y.who = true ∧
      s.pageRead? r.id = some r ∧
      r.obj = false ∧
      r.next + 1 = r.count ∧
      s.deliverable r x e ∧
      s.waits (.read r.id) = false) ∧
    (∃ (s : State) (q : CmdRef) (c : InFlight) (inp : List Byte) (i : Nat) (x : Seq),
      s.offersXlt q 0x18 c ∧
      inp.length = c.inLen ∧
      s.noPlacements ∧
      s.takesRecord (s.ringDomain q) inp i x ∧
      (x.held.any fun h => h.rc.layer == u16 inp 4) = false ∧
      s.waitsFirst (s.recordItem i x (.ring q) (appendRec (s.modelOf x) inp))) ∧
    (∃ (s : State) (n : Nat) (y : Stall) (i : Nat) (x : Seq) (l : Nat) (h : HeldRec),
      s.noPlacements ∧
      s.slc.stalls[n]? = some y ∧
      y.who = .held i l ∧
      y.since + s.stallLimit ≤ s.now ∧
      s.seq? i = some x ∧
      x.held.filter (fun z => z.rc.layer == l) = [h]) ∧
    (∃ (s : State) (n : Nat) (i : Nat) (x : Seq) (l : Nat) (h : HeldRec) (since : Nat),
      s.noPlacements ∧
      s.slc.stalls.length ≤ n ∧
      s.quietHolds[n - s.slc.stalls.length]? = some (i, l, since) ∧
      since + s.stallLimit ≤ s.now ∧
      s.seq? i = some x ∧
      x.held.filter (fun z => z.rc.layer == l) = [h]) :=
  ⟨⟨openSt (cmd 0x18 [] 144) id, q0, cmd 0x18 [] 144, oneRecord, 7, openSeq { tag := 1, st := .idle, domain := 1, model := 3 }, by decide +kernel⟩,
   ⟨openSt (cmd 0x18 [] 144) fun x => { x with held := [{ req := .ring q0, rc := appendRec aModel oneRecord, cause := .rescale, since := 0 }] }, q0, cmd 0x18 [] 144, oneRecord, 7, { openSeq { tag := 1, st := .idle, domain := 1, model := 3 } with held := [{ req := .ring q0, rc := appendRec aModel oneRecord, cause := .rescale, since := 0 }] }, true, by decide +kernel⟩,
   ⟨{ openSt (cmd 0x18 [] 144) id with cwy := (inSess id).cwy, pwr := { (inSess id).pwr with live := true, planned := 250000, grant := 175000, islands := [(16, .on), (portGroup 3, .on)] } }, rx 0x10 1 oneRecord, 2, 7, openSeq { tag := 1, st := .idle, domain := 1, model := 3 }, by decide +kernel⟩,
   ⟨openSt (cmd 0x18 [] 144) id, q0, cmd 0x18 [] 144, oneRecord, 7, openSeq { tag := 1, st := .idle, domain := 1, model := 3 }, by decide +kernel⟩,
   ⟨openSt (cmd 0x18 [] 144) fun x => { x with held := [{ req := .ring q0, rc := appendRec aModel oneRecord, cause := .rescale, since := 0 }] }, 7, { openSeq { tag := 1, st := .idle, domain := 1, model := 3 } with held := [{ req := .ring q0, rc := appendRec aModel oneRecord, cause := .rescale, since := 0 }] }, 0, { req := .ring q0, rc := appendRec aModel oneRecord, cause := .rescale, since := 0 }, by decide⟩,
   ⟨{ openSt (cmd 0x18 [] 144) (fun x => { x with held := [{ req := .ring q0, rc := appendRec aModel oneRecord, cause := .rescale, since := 0 }] }) with slc := { stalls := [{ who := .held 7 0, domain := 1, cause := .t1Late, frame := none, since := 0 }] } }, 0, { who := .held 7 0, domain := 1, cause := .t1Late, frame := none, since := 0 }, 7, { openSeq { tag := 1, st := .idle, domain := 1, model := 3 } with held := [{ req := .ring q0, rc := appendRec aModel oneRecord, cause := .rescale, since := 0 }] }, 0, { req := .ring q0, rc := appendRec aModel oneRecord, cause := .rescale, since := 0 }, by decide⟩,
   ⟨openSt (cmd 0x18 [] 144) fun x => { x with held := [{ req := .ring q0, rc := appendRec aModel oneRecord, cause := .rescale, since := 0 }] }, 7, { openSeq { tag := 1, st := .idle, domain := 1, model := 3 } with held := [{ req := .ring q0, rc := appendRec aModel oneRecord, cause := .rescale, since := 0 }] }, 0, { req := .ring q0, rc := appendRec aModel oneRecord, cause := .rescale, since := 0 }, by decide⟩,
   ⟨{ { openSt (cmd 0x18 [] 144) id with cwy := (inSess id).cwy, pwr := { (inSess id).pwr with live := true, planned := 250000, grant := 175000, islands := [(16, .on), (portGroup 3, .on)] } } with xlt := { ({ openSt (cmd 0x18 [] 144) id with cwy := (inSess id).cwy, pwr := { (inSess id).pwr with live := true, planned := 250000, grant := 175000, islands := [(16, .on), (portGroup 3, .on)] } }).xlt with metas := (tablePath (.obj 2) 0).map fun f => (f, { domain := 1, fc := 0, home := { tier := 0, addr := 8 } }), objs := [(2, { tag := 1, domain := 1, fc := 0, pages := 4, sedge := false, isSealed := true, map := [(0, { domain := 1, format := 8, fc := 0, home := { tier := 0, addr := 800 } })] })] } }, rx 0x18 1 (leBytes 4 (handleOf 1 2) ++ leBytes 1 1 ++ leBytes 3 0 ++ leBytes 4 0 ++ leBytes 2 1 ++ leBytes 2 0 ++ leBytes 4 9 ++ leBytes 4 0), {}, 2, (({ { openSt (cmd 0x18 [] 144) id with cwy := (inSess id).cwy, pwr := { (inSess id).pwr with live := true, planned := 250000, grant := 175000, islands := [(16, .on), (portGroup 3, .on)] } } with xlt := { ({ openSt (cmd 0x18 [] 144) id with cwy := (inSess id).cwy, pwr := { (inSess id).pwr with live := true, planned := 250000, grant := 175000, islands := [(16, .on), (portGroup 3, .on)] } }).xlt with metas := (tablePath (.obj 2) 0).map fun f => (f, { domain := 1, fc := 0, home := { tier := 0, addr := 8 } }), objs := [(2, { tag := 1, domain := 1, fc := 0, pages := 4, sedge := false, isSealed := true, map := [(0, { domain := 1, format := 8, fc := 0, home := { tier := 0, addr := 800 } })] })] } }).receive (rx 0x18 1 (leBytes 4 (handleOf 1 2) ++ leBytes 1 1 ++ leBytes 3 0 ++ leBytes 4 0 ++ leBytes 2 1 ++ leBytes 2 0 ++ leBytes 4 9 ++ leBytes 4 0)) (some (State.readCost (leBytes 4 (handleOf 1 2) ++ leBytes 1 1 ++ leBytes 3 0 ++ leBytes 4 0 ++ leBytes 2 1 ++ leBytes 2 0 ++ leBytes 4 9 ++ leBytes 4 0)))).1, 2, { tag := 1, domain := 1, fc := 0, pages := 4, sedge := false, isSealed := true, map := [(0, { domain := 1, format := 8, fc := 0, home := { tier := 0, addr := 800 } })] }, { domain := 1, format := 8, fc := 0, home := { tier := 0, addr := 800 } }, by decide⟩,
   ⟨{ openSt (cmd 0x18 [] 144) id with cwy := (inSess id).cwy, pwr := { (inSess id).pwr with live := true, planned := 250000, grant := 175000, islands := [(16, .on), (portGroup 3, .on)] } }, rx 0x18 1 (leBytes 4 (handleOf 1 7) ++ leBytes 1 0 ++ leBytes 3 0 ++ leBytes 4 0 ++ leBytes 2 1 ++ leBytes 2 0 ++ leBytes 4 9 ++ leBytes 4 0), { bad := [(1, 0)] }, 2, (({ openSt (cmd 0x18 [] 144) id with cwy := (inSess id).cwy, pwr := { (inSess id).pwr with live := true, planned := 250000, grant := 175000, islands := [(16, .on), (portGroup 3, .on)] } }).receive (rx 0x18 1 (leBytes 4 (handleOf 1 7) ++ leBytes 1 0 ++ leBytes 3 0 ++ leBytes 4 0 ++ leBytes 2 1 ++ leBytes 2 0 ++ leBytes 4 9 ++ leBytes 4 0)) (some (State.readCost (leBytes 4 (handleOf 1 7) ++ leBytes 1 0 ++ leBytes 3 0 ++ leBytes 4 0 ++ leBytes 2 1 ++ leBytes 2 0 ++ leBytes 4 9 ++ leBytes 4 0)))).1, 7, openSeq { tag := 1, st := .idle, domain := 1, model := 3 }, { domain := 1, format := 1, fc := 0, home := { tier := 0, addr := 800 }, fill := 3 }, by decide⟩,
   ⟨{ { openSt (cmd 0x18 [] 144) id with cwy := (inSess id).cwy, pwr := { (inSess id).pwr with live := true, planned := 250000, grant := 175000, islands := [(16, .on), (portGroup 3, .on)] } } with slc := { pageReads := [{ id := 0, req := .cwy 2 3 1 0x18 false 0 0 0, domain := 1, obj := false, target := 7, layer := 0, hg := 0, page := 0, count := 1, tag := 9 }], stalls := [{ who := .read 0, domain := 1, cause := .translationMiss, frame := none, since := 0 }] } }, 0, { who := .read 0, domain := 1, cause := .translationMiss, frame := none, since := 0 }, { id := 0, req := .cwy 2 3 1 0x18 false 0 0 0, domain := 1, obj := false, target := 7, layer := 0, hg := 0, page := 0, count := 1, tag := 9 }, openSeq { tag := 1, st := .idle, domain := 1, model := 3 }, { domain := 1, format := 1, fc := 0, home := { tier := 0, addr := 800 }, fill := 3 }, by decide⟩,
   ⟨{ openSt (cmd 0x18 [] 144) id with pwr := { live := true, spent := 9 } }, q0, cmd 0x18 [] 144, oneRecord, 7, openSeq { tag := 1, st := .idle, domain := 1, model := 3 }, by decide +kernel⟩,
   ⟨{ openSt (cmd 0x18 [] 144) (fun x => { x with held := [{ req := .ring q0, rc := appendRec aModel oneRecord, cause := .rescale, since := 0 }], next := [(0, 4)] }) with now := 100000000, slc := { stalls := [{ who := .held 7 0, domain := 1, cause := .translationMiss, frame := none, since := 0 }] } }, 0, { who := .held 7 0, domain := 1, cause := .translationMiss, frame := none, since := 0 }, 7, { openSeq { tag := 1, st := .idle, domain := 1, model := 3 } with held := [{ req := .ring q0, rc := appendRec aModel oneRecord, cause := .rescale, since := 0 }], next := [(0, 4)] }, 0, { req := .ring q0, rc := appendRec aModel oneRecord, cause := .rescale, since := 0 }, by decide⟩,
   ⟨{ openSt (cmd 0x18 [] 144) (fun x => { x with held := [{ req := .ring q0, rc := appendRec aModel oneRecord, cause := .rescale, since := 0 }], next := [(0, 4)] }) with now := 100000000 }, 0, 7, { openSeq { tag := 1, st := .idle, domain := 1, model := 3 } with held := [{ req := .ring q0, rc := appendRec aModel oneRecord, cause := .rescale, since := 0 }], next := [(0, 4)] }, 0, { req := .ring q0, rc := appendRec aModel oneRecord, cause := .rescale, since := 0 }, 0, by decide⟩⟩

theorem witness_AttentionCommandsComplete :
    (∃ (s : State) (q : CmdRef) (c : InFlight) (inp : List Byte) (i : Nat) (x : Seq),
      s.offersXlt q 0x19 c ∧
      inp.length = c.inLen ∧
      s.takesQuery (s.ringDomain q) (.ring q) inp i x ∧
      s.admitRefuses x.domain (s.stepCost (s.modelOf x) (x.keptOf { readQuery inp with q := readBf16 inp 28 ((s.modelOf x).qHeads * (s.modelOf x).headDim) }) 0) = false) ∧
    (∃ (s : State) (m : RxMsg) (j : Nat) (u : State) (i : Nat) (x : Seq),
      s.takes m 0x11 = true ∧
      (s.receive m (some (State.queryCost m.body))).2 = .pass j ∧
      u = (s.receive m (some (State.queryCost m.body))).1 ∧
      u.serves .xlt = true ∧
      u.linksCalm ∧
      u.takesQuery (u.domainOf (m.requester j)) (m.requester j) m.body i x) ∧
    (∃ (s : State) (n : Nat) (y : Step),
      s.heldStep n true = some y ∧
      s.ready? y = true) ∧
    (∃ (s : State) (n : Nat) (y : Step),
      s.heldStep n true = some y ∧
      s.ready? y = false ∧
      y.arrived + s.epochNs ≤ s.now ∧
      (s.att.tasks.any fun k => k.step == n) = false ∧
      y.ring = none) ∧
    (∃ (s : State) (it : Item) (turn : Bool),
      s.pwr.live = true ∧
      s.pwr.standby ≠ .standby ∧
      s.pruned.nextItem = some (it, turn) ∧
      s.noPlacements ∧
      s.partsOf it ≤ it.done + 1 ∧
      ((∃ k, it.work = .move k ∧ (s.slc.moves.find? fun m => m.seqNo == k).isSome = true))) ∧
    (∃ (s : State) (it : Item) (turn : Bool),
      s.pwr.live = true ∧
      s.pwr.standby ≠ .standby ∧
      s.pruned.nextItem = some (it, turn) ∧
      s.noPlacements ∧
      s.partsOf it ≤ it.done + 1 ∧
      (match it.work with | .key _ => true | .sign _ => true | .record _ _ _ => true | _ => false) = true) ∧
    (∃ (s : State) (it : Item) (turn : Bool),
      s.pwr.live = true ∧
      s.pwr.standby ≠ .standby ∧
      s.pruned.nextItem = some (it, turn) ∧
      s.noPlacements ∧
      it.done + 1 < s.partsOf it ∧
      (s.pwr.items.find? fun z => z.work == it.work) = some it) ∧
    (∃ (s : State) (it : Item) (turn : Bool) (y : Step) (x : Seq),
      s.pwr.live = true ∧
      s.pwr.standby ≠ .standby ∧
      s.pruned.nextItem = some (it, turn) ∧
      s.noPlacements ∧
      s.partsOf it ≤ it.done + 1 ∧
      it.work = .step y.id ∧
      s.step? y.id = some y ∧
      s.resolvable y x ∧
      (x.keptOf y.q) ≠ [] ∧
      s.anyCluster = true ∧
      s.inService ≠ 0 ∧
      (s.cutOf x y.q).spillNeed y.q.latency (x.keptOf y.q) ≤ s.spillBytes) ∧
    (∃ (s : State) (it : Item) (turn : Bool) (y : Step) (x : Seq),
      s.pwr.live = true ∧
      s.pwr.standby ≠ .standby ∧
      s.pruned.nextItem = some (it, turn) ∧
      s.noPlacements ∧
      s.partsOf it ≤ it.done + 1 ∧
      it.work = .step y.id ∧
      s.step? y.id = some y ∧
      s.seq? y.seq = some x ∧
      ((s.stepPages y).any fun p => !s.inT0 p.2.2) = true ∧
      ((s.stepPages y).any fun p => s.pagePoison y.seq p.1.1 p.1.2.1 p.1.2.2 p.2.1) = false ∧
      ((s.stepPages y).any fun p => s.foreignPte y.domain p.2.1) = false) ∧
    (∃ (s : State) (n : Nat) (k : Task),
      s.coreFree n = true ∧
      ((s.latencyTask n).orElse fun _ => s.throughputTask n) = some k ∧
      (s.latencyTask n = none ∨ s.coreTurn n k = true) ∧
      s.mayStart k) ∧
    (∃ (s : State) (n : Nat) (k : Task) (i : Nat),
      n ∈ s.workers ∧
      s.att.lsPending = false ∧
      (s.core n).st = .throughput ∧
      (s.core n).suspended = none ∧
      s.latencyTask n = some k ∧
      s.mayStart k ∧
      (s.core n).task = some i ∧
      i ≠ k.id ∧
      (s.task? i).isSome = true) ∧
    (∃ (s : State) (n : Nat) (k : Task) (y : Step) (x : Seq),
      (s.core n).task = some k.id ∧
      s.task? k.id = some k ∧
      k.st = .running n ∧
      (s.core n).suspended = none ∧
      s.step? k.step = some y ∧
      y.fail = none ∧
      y.ring = none ∧
      s.att.tasks.filter (fun z => z.step == k.step) = [k] ∧
      s.seq? y.seq = some x ∧
      s.slicePoisoned y x k = false ∧
      (s.runTask y x k).isSome = true) ∧
    (∃ (s : State) (n : Nat) (k : Task) (y : Step),
      (s.core n).task = some k.id ∧
      s.task? k.id = some k ∧
      k.st = .running n ∧
      (s.core n).suspended = none ∧
      s.step? k.step = some y ∧
      y.fail = none ∧
      k.rerun = false ∧
      (s.history (coreUnit n)).events = []) ∧
    (∃ (s : State) (n : Nat) (k : Task) (y : Step),
      (s.core n).task = some k.id ∧
      s.task? k.id = some k ∧
      k.st = .running n ∧
      (s.core n).suspended = none ∧
      s.step? k.step = some y ∧
      y.fail = none ∧
      k.rerun = false) ∧
    (∃ (s : State) (n : Nat) (k : Task) (y : Step),
      (s.core n).task = some k.id ∧
      s.task? k.id = some k ∧
      k.st = .running n ∧
      (s.core n).suspended = none ∧
      s.step? k.step = some y ∧
      y.fail = none ∧
      k.rerun = false ∧
      k.spill ≠ 0) ∧
    (∃ (s : State) (y : Step),
      s.step? y.id = some y ∧
      y.phase = .spillWait ∧
      y.spillOwned = 0 ∧
      y.spillNeed ≠ 0 ∧
      (s.att.steps.any fun x => decide (x.phase = .spillWait) && x.id != y.id && decide (x.arrived ≤ y.arrived)) = false ∧
      s.att.spillUsed + y.spillNeed ≤ s.spillBytes) ∧
    (∃ (s : State),
      s.att.lsPending = true ∧
      (s.att.tasks.any fun k => match k.st with | .running _ | .suspended _ => true | _ => false) = false) :=
  ⟨⟨attSt id idleCores, q0, attendCmd 92, oneQuery, 7, openSeq { tag := 1, st := .idle, domain := 1, model := 3 }, by decide +kernel⟩,
   ⟨{ attSt id idleCores with cwy := (inSess id).cwy }, rx 0x11 1 oneQuery, 2, (({ attSt id idleCores with cwy := (inSess id).cwy }).receive (rx 0x11 1 oneQuery) (some (State.queryCost oneQuery))).1, 7, openSeq { tag := 1, st := .idle, domain := 1, model := 3 }, by decide +kernel⟩,
   ⟨stepSt (id) (aStep .held) [] idleCores, 5, aStep .held, by decide⟩,
   ⟨{ stepSt (fun x => { x with acc := [(0, 2)] }) (aStep .held) [] idleCores with now := 1000000 }, 5, aStep .held, by decide⟩,
   ⟨{ { stepSt (id) (aStep .held) [] idleCores with slc := { moves := [{ domain := 1, ticket := 1, frame := .page 7 0 0 0, promo := true, tier := 0, src := { tier := 1, addr := 800 }, dst := { tier := 0, addr := 1600 }, bytes := 4096 }] } } with pwr := { ({ stepSt (id) (aStep .held) [] idleCores with slc := { moves := [{ domain := 1, ticket := 1, frame := .page 7 0 0 0, promo := true, tier := 0, src := { tier := 1, addr := 800 }, dst := { tier := 0, addr := 1600 }, bytes := 4096 }] } }).pwr with items := [{ domain := 1, cls := .move, cost := 9, dur := 1000, arrived := 0, work := .move 0 }] } }, { domain := 1, cls := .move, cost := 9, dur := 1000, arrived := 0, work := .move 0 }, true, by decide, by decide, by decide, by decide, by decide, 0, rfl, by decide⟩,
   ⟨{ ready with lve := { ready.lve with keyOps := [{ num := 4, domain := 1, writesSlot := true, req := .device, resp := [] }] }, pwr := { ready.pwr with live := true, grant := 100, planned := 10, epoch := 6, items := [{ domain := 1, cls := .key, cost := 20, dur := 0, arrived := 0, work := .key 4 }] } }, { domain := 1, cls := .key, cost := 20, dur := 0, arrived := 0, work := .key 4 }, false, by decide⟩,
   ⟨{ stepSt (id) (aStep .held) [] idleCores with pwr := { (stepSt (id) (aStep .held) [] idleCores).pwr with watts := 1, len := 1000, items := [{ domain := 1, cls := .move, cost := 2000, dur := 1000, arrived := 0, work := .move 0 }] } }, { domain := 1, cls := .move, cost := 2000, dur := 1000, arrived := 0, work := .move 0 }, true, by decide⟩,
   ⟨{ stepSt (id) (aStep .pending) [] idleCores with pwr := { (stepSt (id) (aStep .pending) [] idleCores).pwr with items := [{ domain := 1, cls := .att, cost := 9, dur := 1000, arrived := 0, work := .step 5 }] } }, { domain := 1, cls := .att, cost := 9, dur := 1000, arrived := 0, work := .step 5 }, true, aStep .pending, openSeq { tag := 1, st := .idle, domain := 1, model := 3 }, by decide +kernel⟩,
   ⟨{ stepSt (fun x => { x with ptes := [((0, 0, 0), { domain := 1, format := 1, fc := 0, home := { tier := 1, addr := 800 }, fill := 3 })] }) (aStep .pending) [] idleCores with pwr := { (stepSt (fun x => { x with ptes := [((0, 0, 0), { domain := 1, format := 1, fc := 0, home := { tier := 1, addr := 800 }, fill := 3 })] }) (aStep .pending) [] idleCores).pwr with items := [{ domain := 1, cls := .att, cost := 9, dur := 1000, arrived := 0, work := .step 5 }] } }, { domain := 1, cls := .att, cost := 9, dur := 1000, arrived := 0, work := .step 5 }, true, aStep .pending, { openSeq { tag := 1, st := .idle, domain := 1, model := 3 } with ptes := [((0, 0, 0), { domain := 1, format := 1, fc := 0, home := { tier := 1, addr := 800 }, fill := 3 })] }, by decide +kernel⟩,
   ⟨stepSt (id) (aStep .running) [aTask .waiting] idleCores, 0, aTask .waiting, by decide⟩,
   ⟨stepSt (id) (aStep .running) [aTask (.running 0), { aTask .waiting with id := 4, latency := true }] ([(0, { st := .throughput, task := some 2, tDomain := some 1 }), (1, { st := .idle })]), 0, { aTask .waiting with id := 4, latency := true }, 2, by decide⟩,
   ⟨{ stepSt (id) (aStep .running) [aTask (.running 0)] ([(0, { st := .throughput, task := some 2, tDomain := some 1 }), (1, { st := .idle })]) with att := { (stepSt (id) (aStep .running) [aTask (.running 0)] ([(0, { st := .throughput, task := some 2, tDomain := some 1 }), (1, { st := .idle })])).att with steps := [{ aStep .running with slices := [[0]] }] } }, 0, aTask (.running 0), { aStep .running with slices := [[0]] }, openSeq { tag := 1, st := .idle, domain := 1, model := 3 }, by decide +kernel⟩,
   ⟨{ stepSt (id) (aStep .running) [aTask (.running 0)] ([(0, { st := .throughput, task := some 2, tDomain := some 1 }), (1, { st := .idle })]) with att := { (stepSt (id) (aStep .running) [aTask (.running 0)] ([(0, { st := .throughput, task := some 2, tDomain := some 1 }), (1, { st := .idle })])).att with steps := [{ aStep .running with slices := [[0]] }] } }, 0, aTask (.running 0), { aStep .running with slices := [[0]] }, by decide⟩,
   ⟨{ stepSt (id) (aStep .running) [aTask (.running 0)] ([(0, { st := .throughput, task := some 2, tDomain := some 1 }), (1, { st := .idle })]) with att := { (stepSt (id) (aStep .running) [aTask (.running 0)] ([(0, { st := .throughput, task := some 2, tDomain := some 1 }), (1, { st := .idle })])).att with steps := [{ aStep .running with slices := [[0]] }] } }, 0, aTask (.running 0), { aStep .running with slices := [[0]] }, by decide⟩,
   ⟨{ stepSt (id) (aStep .running) [{ aTask (.running 0) with spill := 4096 }] ([(0, { st := .throughput, task := some 2, tDomain := some 1 }), (1, { st := .idle })]) with att := { (stepSt (id) (aStep .running) [{ aTask (.running 0) with spill := 4096 }] ([(0, { st := .throughput, task := some 2, tDomain := some 1 }), (1, { st := .idle })])).att with steps := [{ aStep .running with slices := [[0]] }] } }, 0, { aTask (.running 0) with spill := 4096 }, { aStep .running with slices := [[0]] }, by decide⟩,
   ⟨stepSt id { aStep .spillWait with spillNeed := 4096 } [] idleCores, { aStep .spillWait with spillNeed := 4096 }, by decide⟩,
   ⟨{ ready with att := { ready.att with lsPending := true } }, by decide⟩⟩

theorem witness_DeviceRingCommandsComplete :
    (∃ (s : State) (q : CmdRef) (c : InFlight) (k : Nat),
      s.offers q 0x38 c ∧
      s.glb.variant.hasAttn = true ∧
      s.joinOk c.ops = true ∧
      s.ringSlot (s.ringDomain q) (u16 c.ops 0) = none ∧
      s.mayTake 16 Domain.ringRsv ((s.cwy.slots.filter fun e => decide (e.2.st ≠ .free)).map fun e => e.2.domain) (s.ringDomain q) = true ∧
      lowestFree s.usedSlots 0 16 = some k ∧
      s.auditTakes = true ∧
      s.linksCalm) ∧
    (∃ (s : State) (q : CmdRef) (c : InFlight) (k : Nat) (x : RingSlot),
      s.offers q 0x39 c ∧
      s.glb.variant.hasAttn = true ∧
      s.ringSlot (s.ringDomain q) (u16 c.ops 0) = some (k, x) ∧
      x.st ≠ .leaving ∧
      s.boundStripes k = 0 ∧
      s.auditTakes = true) ∧
    (∃ (s : State) (k : Nat) (x : RingSlot),
      s.cwy.slots = [(k, x)] ∧
      x.st = .leaving ∧
      (s.xlt.seqs.all fun e => e.2.stripe.isNone) = true ∧
      (s.att.steps.all fun t => t.ring.isNone) = true ∧
      s.portsCalm) ∧
    (∃ (s : State) (m : RxMsg) (j : Nat) (u : State) (k : Nat) (i : Nat) (x : Seq) (z : Stripe),
      s.takes m 0x28 = true ∧
      m.ringKind 1 = false ∧
      (s.receive m (some (State.ringCost m.body))).2 = .pass j ∧
      u = (s.receive m (some (State.ringCost m.body))).1 ∧
      u.slotOfSucc j = some k ∧
      u.serves .xlt = true ∧
      u.ringsQuiet ∧
      u.takesRingStep k m.body i x z) ∧
    (∃ (s : State) (m : RxMsg) (j : Nat) (u : State) (k : Nat) (i : Nat) (x : Seq),
      s.takes m 0x28 = true ∧
      m.ringKind 1 = true ∧
      (s.receive m none).2 = .pass j ∧
      u = s.received m ∧
      u.slotOfPred j = some k ∧
      u.serves .xlt = true ∧
      u.ringsQuiet ∧
      (u.cwy.sessions.get? j).map Session.peerLast = some none ∧
      m.body.length = 40 ∧
      (zeros m.body 12 6 && zeros m.body 28 4) = true ∧
      u.glb.variant.hasAttn = true ∧
      u.liveStripe k (u32 m.body 0) = some (i, x) ∧
      u.seq? i = some x ∧
      (x.stripe.map Stripe.k) = some (u32 m.body 8) ∧
      x.runKnown = false ∧
      x.unhashed = []) ∧
    (∃ (s : State) (m : RxMsg) (j : Nat) (u : State) (k : Nat),
      s.takes m 0x28 = true ∧
      m.ringKind 1 = true ∧
      (s.receive m none).2 = .pass j ∧
      u = s.received m ∧
      u.slotOfPred j = some k ∧
      u.serves .xlt = true ∧
      u.ringsQuiet ∧
      (u.cwy.sessions.get? j).map Session.peerLast = some none ∧
      m.body.length = 40 ∧
      (zeros m.body 12 6 && zeros m.body 28 4) = true ∧
      u.glb.variant.hasAttn = true ∧
      u.liveStripe k (u32 m.body 0) = none ∧
      (u.slot k).store.length < 64) ∧
    (∃ (s : State) (m : RxMsg) (i : Nat) (u : State) (y : Step) (r : RingRole) (x : Seq),
      s.passes m 0x29 i ∧
      u = s.received m ∧
      u.ringsQuiet ∧
      16 ≤ m.body.length ∧
      u.chainAnswer i m.body m.head.retry = none ∧
      (u.att.steps.find? fun t => t.ring.any fun r => r.ringStep == u32 m.body 8 && r.rsid == u32 m.body 0 && r.forwarded.isSome && r.received.isNone && (u.slot r.slot).pred == some i && t.q.layer == u16 m.body 4) = some y ∧
      u.step? y.id = some y ∧
      y.ring = some r ∧
      u.seq? y.seq = some x ∧
      partialOk (u.modelOf x) m.body = true ∧
      u8 m.body 6 = 0 ∧
      r.low < r.k ∧
      r.own = none) ∧
    (∃ (s : State) (m : RxMsg) (i : Nat) (u : State) (y : Step) (r : RingRole) (x : Seq) (rows : List Partial),
      s.passes m 0x29 i ∧
      u = s.received m ∧
      u.ringsQuiet ∧
      16 ≤ m.body.length ∧
      u.chainAnswer i m.body m.head.retry = none ∧
      (u.att.steps.find? fun t => t.ring.any fun r => r.ringStep == u32 m.body 8 && r.rsid == u32 m.body 0 && r.forwarded.isSome && r.received.isNone && (u.slot r.slot).pred == some i && t.q.layer == u16 m.body 4) = some y ∧
      u.step? y.id = some y ∧
      y.ring = some r ∧
      u.seq? y.seq = some x ∧
      partialOk (u.modelOf x) m.body = true ∧
      u8 m.body 6 = 0 ∧
      r.low < r.k ∧
      r.own = some (.ok, rows) ∧
      r.origin = true) ∧
    (∃ (s : State) (n : Nat) (y : Step),
      s.heldStep n false = some y ∧
      s.ready? y = true) ∧
    (∃ (s : State) (n : Nat) (y : Step) (r : RingRole) (t0 : Nat),
      s.step? n = some y ∧
      y.ring = some r ∧
      r.origin = true ∧
      r.received = none ∧
      r.forwarded = some t0 ∧
      t0 + usNs (max (s.fld Reg.cwyRingCfg 31 16) 100) ≤ s.now ∧
      r.low < r.k ∧
      (s.att.tasks.any fun k => k.step == n) = false ∧
      y.id = n) ∧
    (∃ (s : State) (k : Nat) (x : RingSlot) (c : ChainRec) (i : Nat) (y : Session),
      s.slot k = x ∧
      x.st = .ready ∧
      x.toSend = [c] ∧
      c.last = 2 ∧
      x.succ = some i ∧
      s.cwy.sessions.get? i = some y) :=
  ⟨⟨hosted (cmd 0x38 (leBytes 2 4 ++ leBytes 1 2 ++ leBytes 1 0 ++ leBytes 4 8 ++ leBytes 4 8)), q0, cmd 0x38 (leBytes 2 4 ++ leBytes 1 2 ++ leBytes 1 0 ++ leBytes 4 8 ++ leBytes 4 8), 0, by decide⟩,
   ⟨{ onRing 1 (fun x => { x with stripe := none }) id with hif := (hosted (cmd 0x39 (leBytes 2 4))).hif }, q0, cmd 0x39 (leBytes 2 4), 0, (onRing 1 id id).slot 0, by decide⟩,
   ⟨{ onRing 1 (fun x => { x with stripe := none }) (fun x => { x with st := .leaving, pred := some 2 }) with hif := (hosted (cmd 0x39 (leBytes 2 4))).hif }, 0, { (onRing 1 id id).slot 0 with st := .leaving, pred := some 2 }, by decide⟩,
   ⟨({ onRing 0 id (fun x => { x with succ := some 2 }) with now := 5 } : State), rx 0x28 1 ringBody, 2, ((({ onRing 0 id (fun x => { x with succ := some 2 }) with now := 5 } : State)).receive (rx 0x28 1 ringBody) (some (State.ringCost ringBody))).1, 0, 7, ((({ onRing 0 id (fun x => { x with succ := some 2 }) with now := 5 } : State)).seq? 7).getD { tag := 1, st := .idle, domain := 1, model := 3 }, { slot := 0, rsid := 9, k := 0, log := 12 }, by decide +kernel⟩,
   ⟨onRing 1 id (fun x => { x with pred := some 2 }), rx 0x28 1 (leBytes 4 9 ++ leBytes 3 0 ++ leBytes 1 1 ++ leBytes 4 1 ++ leBytes 20 0 ++ leBytes 8 77), 2, (onRing 1 id (fun x => { x with pred := some 2 })).received (rx 0x28 1 (leBytes 4 9 ++ leBytes 3 0 ++ leBytes 1 1 ++ leBytes 4 1 ++ leBytes 20 0 ++ leBytes 8 77)), 0, 7, ((onRing 1 id (fun x => { x with pred := some 2 })).seq? 7).getD { tag := 1, st := .idle, domain := 1, model := 3 }, by decide +kernel⟩,
   ⟨onRing 1 id (fun x => { x with pred := some 2 }), rx 0x28 1 (leBytes 4 8 ++ leBytes 3 0 ++ leBytes 1 1 ++ leBytes 4 1 ++ leBytes 20 0 ++ leBytes 8 77), 2, (onRing 1 id (fun x => { x with pred := some 2 })).received (rx 0x28 1 (leBytes 4 8 ++ leBytes 3 0 ++ leBytes 1 1 ++ leBytes 4 1 ++ leBytes 20 0 ++ leBytes 8 77)), 0, by decide +kernel⟩,
   ⟨tailSt id, rx 0x29 2 partialBody, 2, (tailSt id).received (rx 0x29 2 partialBody), ringStep id, { slot := 0, rsid := 9, origin := true, ringStep := 6, k := 1, low := 0, tail := 1, forwarded := some 0 }, ((tailSt id).seq? 7).getD { tag := 1, st := .idle, domain := 1, model := 3 }, by decide +kernel⟩,
   ⟨tailSt (fun r => { r with own := some (.ok, [{ m := 0#32, l := 0x3F800000#32, o := List.replicate 32 0#32 }]) }), rx 0x29 2 partialBody, 2, (tailSt (fun r => { r with own := some (.ok, [{ m := 0#32, l := 0x3F800000#32, o := List.replicate 32 0#32 }]) })).received (rx 0x29 2 partialBody), ringStep (fun r => { r with own := some (.ok, [{ m := 0#32, l := 0x3F800000#32, o := List.replicate 32 0#32 }]) }), ((fun r => { r with own := some (.ok, [{ m := 0#32, l := 0x3F800000#32, o := List.replicate 32 0#32 }]) }) : RingRole → RingRole) { slot := 0, rsid := 9, origin := true, ringStep := 6, k := 1, low := 0, tail := 1, forwarded := some 0 }, ((tailSt id).seq? 7).getD { tag := 1, st := .idle, domain := 1, model := 3 }, [{ m := 0#32, l := 0x3F800000#32, o := List.replicate 32 0#32 }], by decide +kernel⟩,
   ⟨{ tailSt id with att := { (tailSt id).att with steps := [{ ringStep (fun r => { r with origin := false }) with phase := .held, q := { (aStep .held).q with ctx := 4096 } }] } }, 5, { ringStep (fun r => { r with origin := false }) with phase := .held, q := { (aStep .held).q with ctx := 4096 } }, by decide +kernel⟩,
   ⟨{ tailSt id with now := 100000000 }, 5, ringStep id, { slot := 0, rsid := 9, origin := true, ringStep := 6, k := 1, low := 0, tail := 1, forwarded := some 0 }, 0, by decide⟩,
   ⟨({ onRing 0 id (fun x => { x with succ := some 2, toSend := [{ rsid := 9, j := 1, hash := 5#64, last := 2 }] }) with now := 5 } : State), 0, (({ onRing 0 id (fun x => { x with succ := some 2, toSend := [{ rsid := 9, j := 1, hash := 5#64, last := 2 }] }) with now := 5 } : State)).slot 0, { rsid := 9, j := 1, hash := 5#64, last := 2 }, 2, { st := .attached, domain := 1, role := 1, ringId := 4, ports := [(3, 1)] }, by decide⟩⟩

theorem witness_PrefixCommandsComplete :
    (∃ (s : State) (q : CmdRef) (c : InFlight) (inp : List Byte) (l : Lookup) (f : Found) (keys : List Byte × List Byte),
      s.offers q 0x1A c ∧
      inp.length = c.inLen ∧
      l = readLookup inp ∧
      s.lookupShape (s.ringDomain q) inp = true ∧
      s.islandOn searchIsland = true ∧
      s.admitRefuses (s.ringDomain q) (s.lookupCost inp (s.ringDomain q)) = false ∧
      l.kind = 0 ∧
      l.keep = false ∧
      32 + l.count / 4 ≤ u32 c.ops 8 ∧
      s.rbdKeys (s.ringDomain q) = some keys ∧
      f = s.searchRun (s.ringDomain q) l l.start (chainHashes keys l.tag (l.count / 16) l.tokens l.hash) false ∧
      f.probes ≠ []) ∧
    (∃ (s : State) (q : CmdRef) (c : InFlight) (inp : List Byte) (l : Lookup) (keys : List Byte × List Byte) (n : Nat),
      s.offers q 0x1A c ∧
      inp.length = c.inLen ∧
      l = readLookup inp ∧
      s.lookupShape (s.ringDomain q) inp = true ∧
      s.islandOn searchIsland = true ∧
      s.admitRefuses (s.ringDomain q) (s.lookupCost inp (s.ringDomain q)) = false ∧
      l.kind = 0 ∧
      l.keep = true ∧
      l.list = 0 ∧
      32 + l.count / 4 ≤ u32 c.ops 8 ∧
      s.rbdKeys (s.ringDomain q) = some keys ∧
      s.mayTake 256 Domain.listRsv (s.rbd.lists.map fun x => x.2.domain) (s.ringDomain q) = true ∧
      (s.growList (s.ringDomain q) { domain := s.ringDomain q, tag := l.tag, start := l.start, blocks := (chainHashes keys l.tag (l.count / 16) l.tokens l.hash) }).isSome = true ∧
      chooseFree s.rbd.lists.keys 1 65536 (Config.listId s.fresh) = some n) ∧
    (∃ (s : State) (q : CmdRef) (c : InFlight) (inp : List Byte) (l : Lookup) (f : Found) (h : HashList),
      s.offers q 0x1A c ∧
      inp.length = c.inLen ∧
      l = readLookup inp ∧
      s.lookupShape (s.ringDomain q) inp = true ∧
      s.islandOn searchIsland = true ∧
      s.admitRefuses (s.ringDomain q) (s.lookupCost inp (s.ringDomain q)) = false ∧
      l.kind = 1 ∧
      32 ≤ u32 c.ops 8 ∧
      s.listOf (s.ringDomain q) l.list = some h ∧
      h.tag = l.tag ∧
      f = s.searchRun (s.ringDomain q) l h.start h.blocks true ∧
      f.probes ≠ []) ∧
    (∃ (s : State) (q : CmdRef) (c : InFlight) (inp : List Byte) (l : Lookup) (f : Found) (h : HashList),
      s.offers q 0x1A c ∧
      inp.length = c.inLen ∧
      l = readLookup inp ∧
      s.lookupShape (s.ringDomain q) inp = true ∧
      s.islandOn searchIsland = true ∧
      s.admitRefuses (s.ringDomain q) (s.lookupCost inp (s.ringDomain q)) = false ∧
      l.kind = 2 ∧
      32 + 4 * l.count ≤ u32 c.ops 8 ∧
      s.listOf (s.ringDomain q) l.list = some h ∧
      h.tag = l.tag ∧
      f = s.searchRun (s.ringDomain q) l (h.start + l.offset) ((h.blocks.drop l.offset).take l.count) false ∧
      f.probes ≠ []) ∧
    (∃ (s : State) (q : CmdRef) (c : InFlight) (inp : List Byte) (l : Lookup) (h : HashList),
      s.offers q 0x1A c ∧
      inp.length = c.inLen ∧
      l = readLookup inp ∧
      s.lookupShape (s.ringDomain q) inp = true ∧
      s.islandOn searchIsland = true ∧
      s.admitRefuses (s.ringDomain q) (s.lookupCost inp (s.ringDomain q)) = false ∧
      l.kind = 3 ∧
      32 ≤ u32 c.ops 8 ∧
      s.listOf (s.ringDomain q) l.list = some h ∧
      h.tag = l.tag ∧
      s.runsAtOnce (s.searchItem (s.ringDomain q) (s.lookupCost inp (s.ringDomain q)) s.rbd.admitted)) ∧
    (∃ (s : State) (m : RxMsg) (j : Nat) (u : State) (l : Lookup) (f : Found) (keys : List Byte × List Byte),
      s.takes m 0x20 = true ∧
      (s.receive m (some (State.lookupCost m.body))).2 = .pass j ∧
      u = (s.receive m (some (State.lookupCost m.body))).1 ∧
      u.linksCalm ∧
      l = readLookup m.body ∧
      u.lookupShape (u.domainOf (m.requester j)) m.body = true ∧
      u.islandOn searchIsland = true ∧
      l.kind = 0 ∧
      l.keep = false ∧
      u.rbdKeys (u.domainOf (m.requester j)) = some keys ∧
      f = u.searchRun (u.domainOf (m.requester j)) l l.start (chainHashes keys l.tag (l.count / 16) l.tokens l.hash) false ∧
      f.probes ≠ []) ∧
    (∃ (s : State) (q : CmdRef) (c : InFlight),
      s.offersXlt q 0x30 c ∧
      u32 c.ops 4 ≤ u32 c.ops 8 ∧
      u32 c.ops 0 = 0) ∧
    (∃ (s : State) (q : CmdRef) (c : InFlight) (i : Nat) (x : Seq),
      s.offersXlt q 0x30 c ∧
      u32 c.ops 4 ≤ u32 c.ops 8 ∧
      u32 c.ops 0 ≠ 0 ∧
      s.findSeq (s.ringDomain q) (u32 c.ops 0) = .ok (i, x)) ∧
    (∃ (s : State) (q : CmdRef) (c : InFlight),
      s.offers q 0x31 c ∧
      s.updatesDone (s.ringDomain q) ∧
      (s.rbdDom (s.ringDomain q)).floor ≤ u32 c.ops 0) ∧
    (∃ (s : State) (d : Nat) (x : Scan) (rest : List Scan) (f : Nat),
      takeFirst (fun (x : Scan) => (match x.kind with | .floor _ => true | _ => false) && x.domains.contains d) s.rbd.scans = some (x, rest) ∧
      x.kind = .floor f ∧
      (s.rbd.searches.any fun y => y.domain == d && decide (y.num < x.before)) = false ∧
      s.backgroundFits .scrub (s.rowCost 0 0 (s.sweepBytes (fun (e : Entry) => e.domain == d && decide (e.hi < f)))) ((s.sweepBytes (fun (e : Entry) => e.domain == d && decide (e.hi < f))) / 8) = true ∧
      s.noPlacements ∧
      s.updatesDone d ∧
      s.rowsWhole) ∧
    (∃ (s : State) (q : CmdRef) (c : InFlight) (i : Nat) (x : Seq) (b : Nat) (p : Nat) (r : Nat × Nat × Entry),
      s.offersXlt q 0x32 c ∧
      s.findSeq (s.ringDomain q) (u32 c.ops 0) = .ok (i, x) ∧
      (((x.ptes.filterMap fun y => y.2.share.map fun z => (y.1.2.2, z.1)).filter fun z => decide (u32 c.ops 4 ≤ z.1)).eraseDups) = [(p, b)] ∧
      (s.xlt.bds.get? b).map Bd.indexed = some true ∧
      s.entryOfBd b = some r ∧
      ((s.row r.1).filter fun e => e.2.bd == b && e.2.valid).length = 1 ∧
      s.updatesDone (s.ringDomain q) ∧
      s.noPlacements) ∧
    (∃ (s : State) (q : CmdRef) (c : InFlight),
      s.offers q 0x33 c ∧
      s.noPlacements) ∧
    (∃ (s : State) (d : Nat) (x : Scan) (rest : List Scan),
      takeFirst (fun (x : Scan) => x.kind == .purge && x.domains.contains d) s.rbd.scans = some (x, rest) ∧
      s.backgroundFits .scrub (s.rowCost 0 0 (s.sweepBytes (fun (e : Entry) => e.domain == d))) ((s.sweepBytes (fun (e : Entry) => e.domain == d)) / 8) = true ∧
      s.noPlacements ∧
      s.updatesDone d ∧
      s.rowsWhole) :=
  ⟨⟨reedSt (lookCmd 112) id, q0, lookCmd 112, look 0 0, readLookup (look 0 0), (reedSt (lookCmd 112) id).searchRun 1 (readLookup (look 0 0)) 0 (chainHashes ([], []) 3 1 (readLookup (look 0 0)).tokens 0) false, ([], []), by decide +kernel⟩,
   ⟨reedSt (lookCmd 112) id, q0, lookCmd 112, look 2 0, readLookup (look 2 0), ([], []), (chooseFree [] 1 65536 (Config.listId 0)).getD 0, by
    refine ⟨by decide, by decide +kernel, rfl, by decide +kernel, by decide, by decide, by decide, by decide, by decide, by decide, by decide, by decide, by decide +kernel, ?_⟩
    show chooseFree [] 1 65536 (Config.listId 0) = some _
    have h : ∃ i, chooseFree [] 1 65536 (Config.listId 0) = some i := by
      unfold chooseFree
      split
      · exact ⟨_, rfl⟩
      · exact ⟨1, by decide⟩
    obtain ⟨i, h⟩ := h
    rw [h]; rfl⟩,
   ⟨reedSt (lookCmd 48) (fun r => { r with lists := [(5, aList)] }), q0, lookCmd 48, lookList 1 0, readLookup (lookList 1 0), (reedSt (lookCmd 48) (fun r => { r with lists := [(5, aList)] })).searchRun 1 (readLookup (lookList 1 0)) 0 aList.blocks true, aList, by decide +kernel⟩,
   ⟨reedSt (lookCmd 48) (fun r => { r with lists := [(5, aList)] }), q0, lookCmd 48, lookList 2 1, readLookup (lookList 2 1), (reedSt (lookCmd 48) (fun r => { r with lists := [(5, aList)] })).searchRun 1 (readLookup (lookList 2 1)) 0 aList.blocks false, aList, by decide +kernel⟩,
   ⟨reedSt (lookCmd 48) (fun r => { r with lists := [(5, aList)] }), q0, lookCmd 48, lookList 3 0, readLookup (lookList 3 0), aList, by decide⟩,
   ⟨{ reedSt (lookCmd 112) id with cwy := (inSess id).cwy }, rx 0x20 1 (look 0 0), 2, (({ reedSt (lookCmd 112) id with cwy := (inSess id).cwy } : State).receive (rx 0x20 1 (look 0 0)) (some (State.lookupCost (look 0 0)))).1, readLookup (look 0 0), (reedSt (lookCmd 112) id).searchRun 1 (readLookup (look 0 0)) 0 (chainHashes ([], []) 3 1 (readLookup (look 0 0)).tokens 0) false, ([], []), by decide +kernel⟩,
   ⟨reedSt (cmd 0x30 (leBytes 4 0 ++ leBytes 4 3 ++ leBytes 4 8)) id, q0, cmd 0x30 (leBytes 4 0 ++ leBytes 4 3 ++ leBytes 4 8), by decide⟩,
   ⟨reedSt (cmd 0x30 (handle7 ++ leBytes 4 3 ++ leBytes 4 8)) id, q0, cmd 0x30 (handle7 ++ leBytes 4 3 ++ leBytes 4 8), 7, { tag := 1, st := .idle, domain := 1, model := 3 }, by decide⟩,
   ⟨reedSt (cmd 0x31 (leBytes 4 9)) id, q0, cmd 0x31 (leBytes 4 9), by decide⟩,
   ⟨reedSt (cmd 0 []) (fun r => { r with scans := [{ kind := .floor 9, domains := [1] }], rows := [(0, [(0, anEntry)])] }), 1, { kind := .floor 9, domains := [1] }, [], 9, by decide +kernel⟩,
   ⟨{ bdSt true (cmd 0x32 (handle7 ++ leBytes 4 0)) (fun r => { r with rows := [(0, [(0, anEntry)])] }) with xlt := { (bdSt true (cmd 0x32 (handle7 ++ leBytes 4 0)) id).xlt with seqs := [(7, { tag := 1, st := .idle, domain := 1, model := 3, ptes := [((0, 0, 0), { pteAt 0 with share := some (40, 0) })] })] } }, q0, cmd 0x32 (handle7 ++ leBytes 4 0), 7, { tag := 1, st := .idle, domain := 1, model := 3, ptes := [((0, 0, 0), { pteAt 0 with share := some (40, 0) })] }, 40, 0, (0, 0, anEntry), by decide⟩,
   ⟨reedSt (cmd 0x33 []) (fun r => { r with lists := [(5, aList)] }), q0, cmd 0x33 [], by decide⟩,
   ⟨reedSt (cmd 0 []) (fun r => { r with scans := [{ kind := .purge, domains := [1] }], rows := [(0, [(0, anEntry)])] }), 1, { kind := .purge, domains := [1] }, [], by decide +kernel⟩⟩

theorem witness_ReedbedEngineCommandsComplete :
    (∃ (s : State) (h : Handoff) (rest : List Handoff) (b : Bd),
      s.xlt.handoffs = h :: rest ∧
      s.serves .xlt = true ∧
      s.xlt.bds.get? h.bd = some b ∧
      (s.rbdKeys b.domain).isSome = true ∧
      s.islandOn searchIsland = true ∧
      (s.rbdDom b.domain).purging = false ∧
      bit (s.reg Reg.rbdCfg) 31 = true ∧
      b.root = true ∧
      h.lo ≤ h.hi ∧
      h.hi ≤ 0xFFFFFFFF ∧
      ((s.row (rowOf b.hash)).any fun x => x.2.valid && !x.2.writing && x.2.hash == b.hash && x.2.check == b.check && x.2.domain == b.domain && x.2.tag == b.tag && decide ((s.rbdDom b.domain).floor ≤ x.2.hi)) = false ∧
      (s.rbdDom b.domain).quota = 0 ∧
      (s.row (rowOf b.hash)).length < 64 ∧
      rowRule (s.row (rowOf b.hash)) = true) ∧
    (∃ (s : State) (h : Handoff) (rest : List Handoff) (b : Bd),
      s.xlt.handoffs = h :: rest ∧
      s.serves .xlt = true ∧
      s.xlt.bds.get? h.bd = some b ∧
      s.rbdKeys b.domain = none) ∧
    (∃ (s : State) (n : Nat) (r : Assoc Nat Entry),
      s.rbd.dirtyRows.contains n = true ∧
      restoreStep (s.row n) = some r) ∧
    (∃ (s : State) (n : Nat),
      s.rbd.placed = true ∧
      n < 2 ^ 22) ∧
    (∃ (s : State) (x : Scan) (rest : List Scan) (n : Nat) (y : Nat × Bd),
      s.takeScan (fun k => match k with | .repair _ => true | _ => false) = some (x, rest) ∧
      x.kind = .repair n ∧
      (s.xlt.bds.filter fun b => b.2.indexed && decide (rowOf b.2.hash = n)) = [y] ∧
      s.xlt.bds.get? y.1 = some y.2 ∧
      s.backgroundFits .scrub (s.rowCost 0 0 (s.bdBytes)) ((s.bdBytes) / 8) = true ∧
      s.noPlacements) ∧
    (∃ (s : State) (x : Scan) (rest : List Scan),
      s.takeScan (fun k => k == .resolve) = some (x, rest) ∧
      s.islandOn searchIsland = true ∧
      s.backgroundFits .scrub (s.rowCost 0 0 (s.bdBytes + 2048 * (s.indexedBds x.domains).length)) ((s.bdBytes + 2048 * (s.indexedBds x.domains).length) / 8) = true ∧
      s.noPlacements) ∧
    (∃ (s : State) (d : Nat) (x : Search) (n : Nat),
      s.searchRuns = true ∧
      s.rbd.scans = [] ∧
      s.probeTurn = some d ∧
      (s.searchesRun.find? fun y => y.domain == d && !y.probes.isEmpty) = some x ∧
      x.probes = [n] ∧
      x.result.status = .ok) ∧
    (∃ (s : State) (d : Nat) (x : Search) (n : Nat) (ps : List Nat),
      s.searchRuns = true ∧
      s.rbd.scans = [] ∧
      s.probeTurn = some d ∧
      (s.searchesRun.find? fun y => y.domain == d && !y.probes.isEmpty) = some x ∧
      x.probes = n :: ps ∧
      ps ≠ [] ∧
      (s.rbd.searches.find? fun y => y.num == x.num) = some x) ∧
    (∃ (s : State),
      s.searchRuns = true ∧
      (s.rbd.scans.any fun x => x.kind == .resolve) = true ∧
      s.rbd.scan16 < max 1 (s.fld Reg.rbdCfg 3 0)) :=
  ⟨⟨{ bdSt false (cmd 0 []) id with xlt := { (bdSt false (cmd 0 []) id).xlt with handoffs := [{ bd := 40, seq := 7, lo := 0, hi := 0xFFFFFFFF, since := 0 }] } }, { bd := 40, seq := 7, lo := 0, hi := 0xFFFFFFFF, since := 0 }, [], aBd false, by decide⟩,
   ⟨{ bdSt false (cmd 0 []) id with lve := { ready.lve with doms := [(1, { st := .active })] }, xlt := { (bdSt false (cmd 0 []) id).xlt with handoffs := [{ bd := 40, seq := 7, lo := 0, hi := 0xFFFFFFFF, since := 0 }] } }, { bd := 40, seq := 7, lo := 0, hi := 0xFFFFFFFF, since := 0 }, [], aBd false, by decide⟩,
   ⟨reedSt (cmd 0 []) (fun r => { r with rows := [(3, [(0, anEntry), (1, anEntry)])], dirtyRows := [3] }), 3, (restoreStep [(0, anEntry), (1, anEntry)]).getD [], by decide⟩,
   ⟨reedSt (cmd 0 []) (fun r => { r with rows := [(0, [(0, anEntry)])] }), 0, by decide⟩,
   ⟨bdSt true (cmd 0 []) (fun r => { r with scans := [{ kind := .repair 0, domains := [] }] }), { kind := .repair 0, domains := [] }, [], 0, (40, aBd true), by decide⟩,
   ⟨reedSt (cmd 0 []) (fun r => { r with scans := [{ kind := .resolve, domains := [1], linear := [1] }], breaks := [{ domain := 1, block := 0, hash := 9#64, hi := 5 }] }), { kind := .resolve, domains := [1], linear := [1] }, [], by decide +kernel⟩,
   ⟨reedSt (cmd 0 []) (fun r => { r with searches := [{ num := 0, domain := 1, probes := [0], req := .ring q0, result := {} }] }), 1, { num := 0, domain := 1, probes := [0], req := .ring q0, result := {} }, 0, by decide⟩,
   ⟨reedSt (cmd 0 []) (fun r => { r with searches := [{ num := 0, domain := 1, probes := [0, 1], req := .ring q0, result := {} }] }), 1, { num := 0, domain := 1, probes := [0, 1], req := .ring q0, result := {} }, 0, [1], by decide⟩,
   ⟨reedSt (cmd 0 []) (fun r => { r with scans := [{ kind := .resolve, domains := [1] }] }), by decide⟩⟩

theorem witness_PeatDataCommandsComplete :
    (∃ (s : State) (n : Nat) (home : Home) (data : List Byte),
      s.pea.waiting.find? (fun w => w.1 == n) = some (n, home, data) ∧
      s.peaServes = true ∧
      (s.sdg.queue.any fun b => b.owner == n) = false ∧
      (s.slc.objWrites.any fun w => w.id == n && !w.blocks.isEmpty) = false ∧
      s.pea.pstate = .ready ∧
      s.writeHeld = false ∧
      s.flushBehind = false) ∧
    (∃ (s : State) (n : Nat) (b : BufUnit) (st : PStripe),
      s.pea.buffer.find? (fun b => b.unit == n && !b.issued && (decide (16 ≤ b.sectors.length) || decide (b.since + usNs (s.fld Reg.peaCfg 31 16) ≤ s.now))) = some b ∧
      s.peaWrites = true ∧
      s.pea.buffer.find? (fun y => y.id == b.id) = some b ∧
      s.pea.stripes = [st] ∧
      st.stream = b.stream ∧
      st.fill = [] ∧
      b.sectors ≠ [] ∧
      0 < s.pea.geom.slots ∧
      b.avoid ≠ some st.id ∧
      (s.pea.freeGroup.isNone = true → s.pea.isFine b.unit = false → 16 ≤ s.pea.geom.slots)) ∧
    (∃ (s : State) (n : Nat) (st : PStripe),
      s.pea.stripes.find? (fun (x : PStripe) => x.id == n) = some st ∧
      s.peaWrites = true ∧
      st.fill.isEmpty = false ∧
      (s.pea.buffer.all fun b => b.trimmed.isEmpty) = true ∧
      s.noPlacements ∧
      s.slc.objWrites = []) ∧
    (∃ (s : State) (n : Nat) (j : Nat) (st : PStripe) (k : Nat),
      s.pea.stripes.find? (fun (x : PStripe) => x.id == n) = some st ∧
      st.blocks[j]? = some k ∧
      s.peaWrites = true ∧
      st.fill.isEmpty = false ∧
      k ∉ s.pea.reserve) ∧
    (∃ (s : State) (st : PStripe) (k : Nat),
      s.pea.stripes.find? (fun x => x.blocks.contains k) = some st ∧
      s.peaWrites = true ∧
      (s.pea.blk k).next = 0 ∧
      (s.pea.blk k).st = .opened ∧
      k ∉ s.pea.reserve) ∧
    (∃ (s : State) (k : Nat) (rows : List Nat),
      s.peaWrites = true ∧
      (s.pea.blk k).st = .closed ∧
      s.backgroundFits .scrub (s.rowCost s.pea.geom.pages 0 0) (s.pea.geom.pages * 50000) = true) ∧
    (∃ (s : State) (n : Nat) (r : PRead) (m : Move),
      s.pea.reads.find? (fun x => x.move == n) = some r ∧
      s.peaServes = true ∧
      r.step = 0 ∧
      (r.src.filterMap s.pea.srcBlock).all s.pea.served = true ∧
      n < readBase ∧
      s.slc.moves.find? (fun y => y.seqNo == n) = some m ∧
      s.noPlacements) ∧
    (∃ (s : State) (n : Nat) (k : Nat) (rest : List (Nat × Nat)),
      s.pea.released = (n, k) :: rest ∧
      s.peaServes = true) ∧
    (∃ (s : State),
      s.peaServes = true ∧
      (1024 ≤ s.pea.journalPend.length ∨ (s.pea.journalPend.head?.any fun r => decide (r.since + msNs 1 ≤ s.now)) = true)) :=
  ⟨⟨peated (fun p => { p with waiting := [(0, { tier := 3, addr := 640 }, List.replicate 4096 7#8)] }), 0, { tier := 3, addr := 640 }, List.replicate 4096 7#8, rfl, by decide +kernel, by decide, by decide, rfl, by decide +kernel, by decide +kernel⟩,
   ⟨{ peated (fun p => { p with buffer := [aUnit], stripes := [aStripe []], blocks := itsBlocks .opened }) with now := 1000000000 }, 5, aUnit, aStripe [], by decide +kernel⟩,
   ⟨peated (fun p => { p with buffer := [{ aUnit with issued := true }], stripes := [(aStripe [{ pos := 0, buf := 2, sectors := [80] }])], blocks := itsBlocks .opened }), 3, (aStripe [{ pos := 0, buf := 2, sectors := [80] }]), by decide +kernel⟩,
   ⟨peated (fun p => { p with buffer := [{ aUnit with issued := true }], stripes := [(aStripe [{ pos := 0, buf := 2, sectors := [80] }])], blocks := itsBlocks .opened }), 3, 0, (aStripe [{ pos := 0, buf := 2, sectors := [80] }]), 0, by decide +kernel⟩,
   ⟨peated (fun p => { p with stripes := [aStripe []], blocks := itsBlocks .opened }), aStripe [], 0, by decide +kernel⟩,
   ⟨peated (fun p => { p with blocks := itsBlocks .closed }), 0, [], by decide +kernel⟩,
   ⟨{ peated oldBlock with pea := { (peated oldBlock).pea with reads := [{ move := 0, sectors := [80], src := [.flash 33], left := [80] }] }, slc := { moves := [{ domain := 1, ticket := 1, frame := .page 7 0 0 0, promo := true, tier := 0, src := { tier := 3, addr := 640 }, dst := { tier := 0, addr := 1600 }, bytes := 4096, st := .read, admitted := true, lines := [0] }], nextMove := 1 } }, 0, { move := 0, sectors := [80], src := [.flash 33], left := [80] }, { domain := 1, ticket := 1, frame := .page 7 0 0 0, promo := true, tier := 0, src := { tier := 3, addr := 640 }, dst := { tier := 0, addr := 1600 }, bytes := 4096, st := .read, admitted := true, lines := [0] }, by decide +kernel⟩,
   ⟨{ peated oldBlock with pea := { (peated oldBlock).pea with released := [(80, 1)] } }, 80, 1, [], by decide +kernel⟩,
   ⟨{ peated (fun p => { p with journalPend := [{ wseq := 1, first := 0, count := 1, since := 0 }] }) with now := 1000000 }, by decide +kernel⟩⟩

theorem witness_PeatMaintenanceCommandsComplete :
    (∃ (s : State) (v : Nat × Blk),
      s.peaWrites = true ∧
      s.pea.free * 1000 < s.fld Reg.peaGc 31 24 * s.pea.inService ∧
      bestBy (fun x => (s.pea.liveOf x.1).length) (s.pea.blocks.filter fun x => x.2.st == .verified && !x.2.victim && s.pea.served x.1) = some v ∧
      s.backgroundFits .gc (s.rowCost (rowsOf (s.pea.liveOf v.1)) (rowsOf (s.pea.liveOf v.1)) 0) (rowsOf (s.pea.liveOf v.1) * 1650000) = true) ∧
    (∃ (s : State) (v : Nat × Blk),
      s.peaWrites = true ∧
      max 16 (s.fld Reg.peaWl 31 16) < s.pea.spread ∧
      (if s.pea.wlSecond = s.now / secNs 1 then s.pea.wlCount else 0) < s.fld Reg.peaWl 15 0 ∧
      bestBy (fun x => x.2.pe) (s.pea.blocks.filter fun x => (x.2.st == .closed || x.2.st == .verified) && !x.2.victim && s.pea.served x.1 && !(s.pea.liveOf x.1).isEmpty) = some v ∧
      s.backgroundFits .gc (s.rowCost (rowsOf (s.pea.liveOf v.1)) (rowsOf (s.pea.liveOf v.1)) 0) (rowsOf (s.pea.liveOf v.1) * 1650000) = true) ∧
    (∃ (s : State) (k : Nat) (age : Bool),
      s.peaWrites = true ∧
      ((s.pea.blk k).st = .closed ∨ (s.pea.blk k).st = .verified) ∧
      (s.pea.blk k).victim = false ∧
      s.backgroundFits .scrub (s.rowCost (rowsOf (s.pea.liveOf k)) (rowsOf (s.pea.liveOf k)) 0) (rowsOf (s.pea.liveOf k) * 1650000) = true ∧
      if age then Config.nandRetention (s.pea.blk k).pe (s.pea.blk k).lastTemp ≤ (s.ftimeNow + 2 ^ 32 - (s.pea.blk k).lastTime) % 2 ^ 32 + s.fld Reg.peaHealth 7 0 * 86400 else Config.nandDisturb (s.pea.blk k).pe ≤ (s.pea.blk k).reads) ∧
    (∃ (s : State) (k : Nat),
      s.peaWrites = true ∧
      ((s.pea.blk k).st = .closed ∨ (s.pea.blk k).st = .verified) ∧
      (s.pea.blk k).victim = false) ∧
    (∃ (s : State) (n : Nat) (k : Nat) (j : Nat),
      s.peaServes = true ∧
      s.pea.dirty = [(n, k, j)]) ∧
    (∃ (s : State) (w : RegWrite),
      s.openTo Reg.peaCtl w ∧
      bit w.value.toNat 30 = true ∧
      bit w.value.toNat 31 = false) ∧
    (∃ (s : State),
      s.peaServes = true ∧
      (s.pea.ckptDue ≤ s.now ∨ s.pea.ckptAsked = true) ∧
      s.ckptClean = false) ∧
    (∃ (s : State) (found : PeatFound),
      s.peaOn = true ∧
      s.pea.pstate = .recovering ∧
      (found.targets.take 256).all Option.isNone = true) ∧
    (∃ (s : State) (found : PeatFound),
      s.peaOn = true ∧
      s.pea.pstate = .recovering ∧
      (found.targets.take 256).all Option.isNone = false ∧
      (((found.targets.take 256).head?).join.all fun g => !pageSupported g || decide (33 < (s.findTargets (found.targets.take 256) g).pea.geom.puaBits)) = true) ∧
    (∃ (s : State) (found : PeatFound) (g : TargetPage),
      s.peaOn = true ∧
      s.pea.pstate = .recovering ∧
      (found.targets.take 256).head? = some (some g) ∧
      pageSupported g = true ∧
      (s.findTargets (found.targets.take 256) g).pea.geom.puaBits ≤ 33 ∧
      chooseCkpt found s.pea.ckpts false = none) ∧
    (∃ (s : State) (found : PeatFound) (g : TargetPage),
      s.peaOn = true ∧
      s.pea.pstate = .recovering ∧
      (found.targets.take 256).head? = some (some g) ∧
      pageSupported g = true ∧
      (s.findTargets (found.targets.take 256) g).pea.geom.puaBits ≤ 33 ∧
      (chooseCkpt found s.pea.ckpts false).isSome = true) ∧
    (∃ (s : State),
      s.peaOn = true ∧
      s.pea.pstate = .rebuilding) ∧
    (∃ (s : State) (w : RegWrite),
      s.openTo Reg.peaCtl w ∧
      bit w.value.toNat 31 = true ∧
      bit w.value.toNat 30 = false ∧
      s.formats = true ∧
      (256 * 2 ^ 20 : Int) ≤ s.workArea (s.fld Reg.peaFmt 31 24) ∧
      (s.slc.extents.any fun e => e.1.tier == 3) = false ∧
      s.pea.pstate ≠ .recovering) ∧
    (∃ (s : State),
      s.peaOn = true ∧
      s.pea.pstate = .formatting) ∧
    (∃ (s : State) (n : Nat),
      s.peaOn = true ∧
      s.pea.targets.contains n = true) :=
  ⟨⟨{ peated (fun p => { oldBlock p with geom := { targets := 1, luns := 1, planes := 4, pages := 4, blocks := 8 }, spareFmt := 8, metaGib := 0 }) with regs := [(Reg.peaGc, 0xFFFF0000#32)] }, (0, { st := .verified, next := 4 }), by decide +kernel⟩,
   ⟨peated (fun p => { oldBlock p with peBase := 1000 }), (0, { st := .verified, next := 4 }), by decide +kernel⟩,
   ⟨peated (fun p => { oldBlock p with blocks := [(0, { st := .verified, next := 4, reads := Config.nandDisturb 0 })] }), 0, false, by decide +kernel, by decide +kernel, by decide +kernel, by decide +kernel, Nat.le_refl _⟩,
   ⟨peated oldBlock, 0, by decide⟩,
   ⟨peated (fun p => { p with dirty := [(0, 3, 0)] }), 0, 3, 0, by decide +kernel⟩,
   ⟨ready, pf0 0x40000000, by decide⟩,
   ⟨peated (fun p => { p with ckptAsked := true }), by decide +kernel⟩,
   ⟨{ peated (fun p => { p with pstate := .recovering }) with now := 5 }, { targets := [none] }, by decide +kernel⟩,
   ⟨{ peated (fun p => { p with pstate := .recovering }) with now := 5 }, { targets := [some { pages := 2 ^ 30 }] }, by decide +kernel⟩,
   ⟨{ peated (fun p => { p with pstate := .recovering }) with now := 5 }, {}, {}, by decide +kernel⟩,
   ⟨{ peated (fun p => { p with pstate := .recovering, ckpts := [{ seq := 4, body := { cut := 0, rstart := 0, ftime := 0, trimStart := 0, stripes := [], cursors := (0, 0), dir := [], reserve := [] }, park := [] }] }) with now := 5 }, {}, {}, by decide +kernel⟩,
   ⟨peated (fun p => { p with pstate := .rebuilding }), by decide +kernel⟩,
   ⟨peated id, pf0 0x80000000, by decide +kernel⟩,
   ⟨{ peated id with pea := { (peated id).pea with pstate := .formatting, fmtOp := 21, fmtMeta := 190 } }, by decide +kernel⟩,
   ⟨peated (fun p => { p with stripes := [aStripe []], blocks := itsBlocks .opened }), 0, by decide +kernel⟩⟩

theorem witness_PortCommandsComplete :
    (∃ (s : State) (p : Nat),
      s.hasPort p = true ∧
      (s.port p).st = .down ∧
      bit (s.reg (Reg.cwyPortCfg + cwyOff p)) 31 = true ∧
      (s.port p).retryAt ≤ s.now ∧
      s.islandOn (portGroup p) = true ∧
      s.linksCalm) ∧
    (∃ (s : State) (p : Nat) (l : List Nat) (k : List Nat) (n : Nat) (u : Bool),
      s.hasPort p = true ∧
      (s.port p).st = .training ∧
      s.now ≤ (s.port p).since + 2000000 ∧
      k.length = 4 ∧
      (k.all fun n => decide (32 ≤ n)) = true ∧
      lanesFor (bit (s.reg (Reg.cwyPortCfg + cwyOff p)) 0) (l ++ (s.port p).unusableLanes) = some (n, u) ∧
      s.linksCalm) ∧
    (∃ (s : State) (p : Nat),
      (s.port p).st = .training ∧
      (s.port p).since + 2000000 ≤ s.now ∧
      s.linksCalm) ∧
    (∃ (s : State) (p : Nat) (x : Nat) (l : List Nat) (b : List Nat),
      s.hasPort p = true ∧
      (s.port p).st = .ready ∧
      (s.port p).power ≠ .sleep ∧
      s.isLinkFault p x l = true ∧
      b = (if x = 1 then ((s.port p).badLanes ++ l).eraseDups else (s.port p).badLanes) ∧
      (lanesFor false (b ++ (s.port p).deadLanes)).isSome = true ∧
      s.linksCalm) ∧
    (∃ (s : State) (p : Nat) (x : Nat) (l : List Nat),
      s.hasPort p = true ∧
      (s.port p).st = .ready ∧
      (s.port p).power ≠ .sleep ∧
      s.isLinkFault p x l = true ∧
      lanesFor false ((if x = 1 then ((s.port p).badLanes ++ l).eraseDups else (s.port p).badLanes) ++ (s.port p).deadLanes) = none ∧
      s.linksCalm) ∧
    (∃ (s : State) (p : Nat) (l : List Nat),
      s.hasPort p = true ∧
      (s.port p).st = .ready ∧
      (s.port p).power = .sleep ∧
      s.isLinkFault p 1 l = true ∧
      s.linksCalm) ∧
    (∃ (s : State) (p : Nat) (x : Nat) (l : List Nat),
      s.hasPort p = true ∧
      ((s.port p).st = .training ∨ (s.port p).st = .linked) ∧
      (s.port p).power ≠ .sleep ∧
      s.isLinkFault p x l = true ∧
      s.linksCalm) ∧
    (∃ (s : State) (p : Nat) (l : List Nat) (a : Nat) (n : Nat) (u : Bool),
      s.hasPort p = true ∧
      (s.port p).st = .retrain ∧
      s.now ≤ (s.port p).since + 30000 ∧
      lanesFor (bit (s.reg (Reg.cwyPortCfg + cwyOff p)) 0) (l ++ (s.port p).unusableLanes) = some (n, u) ∧
      s.linksCalm) ∧
    (∃ (s : State) (p : Nat),
      (s.port p).st = .retrain ∧
      (s.port p).since + 30000 ≤ s.now ∧
      (s.port p).retrainFails < 2 ∧
      s.linksCalm) ∧
    (∃ (s : State) (p : Nat),
      (s.port p).st = .retrain ∧
      (s.port p).since + 30000 ≤ s.now ∧
      2 ≤ (s.port p).retrainFails ∧
      s.linksCalm) ∧
    (∃ (s : State) (p : Nat),
      (s.port p).st = .failed ∧
      (s.port p).since + s.retryNs ≤ s.now ∧
      s.linksCalm) ∧
    (∃ (s : State) (e : Nat) (l : List Int) (r : List (List Int × List Nat)),
      e < 8 ∧
      l.length = 8 ∧
      (l.all fun v => decide (signed16 (s.fld Reg.cwyOptThr 15 0) ≤ v)) = true ∧
      s.linksCalm) :=
  ⟨⟨{ ported (fun p => { p with st := .down }) with regs := [(Reg.cwyPortCfg + cwyOff 3, 0x80000000#32)] }, 3, by decide⟩,
   ⟨ported (fun p => { p with st := .training }), 3, [5], [32, 64, 64, 64], 4, false, by decide⟩,
   ⟨{ ported (fun p => { p with st := .training }) with now := 2000000 }, 3, by decide⟩,
   ⟨ported id, 3, 1, [2], [2], by decide⟩,
   ⟨ported id, 3, 1, [2, 6], by decide⟩,
   ⟨ported (fun p => { p with power := .sleep }), 3, [2], by decide⟩,
   ⟨ported (fun p => { p with st := .linked, lanes := 8 }), 3, 0, [1], by decide⟩,
   ⟨ported (fun p => { p with st := .retrain }), 3, [], 4095, 8, false, by decide⟩,
   ⟨{ ported (fun p => { p with st := .retrain, retrainFails := 1 }) with now := 30000 }, 3, by decide⟩,
   ⟨{ ported (fun p => { p with st := .retrain, retrainFails := 2 }) with now := 30000 }, 3, by decide⟩,
   ⟨{ ported (fun p => { p with st := .failed }) with now := 1000000000 }, 3, by decide⟩,
   ⟨ported id, 0, List.replicate 8 1000, [], by decide⟩⟩

theorem witness_LinkLayerCommandsComplete :
    (∃ (s : State) (p : Nat) (x : Nat),
      s.hasPort p = true ∧
      (s.port p).st = .ready ∧
      (s.port p).naked = false ∧
      x < 3 ∧
      s.linksCalm) ∧
    (∃ (s : State) (p : Nat) (x : Nat),
      s.hasPort p = true ∧
      (s.port p).st = .ready ∧
      (x = 3 ∨ x = 4 ∨ (s.port p).naked = true) ∧
      s.linksCalm) ∧
    (∃ (s : State) (p : Nat) (f : FlitTail),
      (s.port p).st = .ready ∧
      ((s.port p).takeTail f s.now).unacked ≠ 0 ∧
      s.linksCalm) ∧
    (∃ (s : State) (p : Nat),
      (s.port p).st = .ready ∧
      0 < (s.port p).unacked ∧
      (s.port p).unackedSince + max (s.fld (Reg.cwyLinkCfg + cwyOff p) 15 8) 5 * 100 ≤ s.now ∧
      s.linksCalm) ∧
    (∃ (s : State) (p : Nat),
      (s.port p).st = .ready ∧
      (64 ≤ (s.port p).unsentAck ∨ (0 < (s.port p).unsentAck ∧ (s.port p).ackSince + 500 ≤ s.now)) ∧
      s.linksCalm) ∧
    (∃ (s : State) (p : Nat) (f : FlitTail),
      (s.port p).st = .ready ∧
      (s.port p).txq = [] ∧
      s.linksCalm) ∧
    (∃ (s : State) (p : Nat) (f : FlitTail),
      (s.port p).st = .ready ∧
      (s.port p).power = .active ∧
      s.fld (Reg.cwyPortCfg + cwyOff p) 15 8 ≠ 0 ∧
      (((s.tailIn p f).pump p).port p).hasData = false ∧
      s.linksCalm) ∧
    (∃ (s : State) (p : Nat) (f : FlitTail),
      (s.port p).st = .ready ∧
      (s.fld (Reg.cwyPortCfg + cwyOff p) 15 8 = 0 ∨ (((s.tailIn p f).pump p).port p).hasData = true) ∧
      s.linksCalm) ∧
    (∃ (s : State) (p : Nat) (f : FlitTail),
      (s.port p).st = .ready ∧
      (s.port p).lctlReq.map Prod.fst = some true ∧
      (((s.tailIn p f).pump p).port p).hasData = false ∧
      s.linksCalm) ∧
    (∃ (s : State) (p : Nat) (f : FlitTail),
      (s.port p).st = .ready ∧
      (s.port p).power = .quiet ∧
      s.linksCalm) ∧
    (∃ (s : State) (p : Nat) (f : FlitTail),
      (s.port p).st = .ready ∧
      (s.port p).power ≠ .sleep ∧
      (((s.tailIn p f).pump p).port p).txq = [] ∧
      s.linksCalm) ∧
    (∃ (s : State) (p : Nat) (f : FlitTail),
      (s.port p).st = .ready ∧
      (s.port p).lctlReq.map Prod.fst = some false ∧
      s.linksCalm) ∧
    (∃ (s : State) (p : Nat),
      (s.port p).st = .ready ∧
      (s.port p).power = .active ∧
      s.fld (Reg.cwyPortCfg + cwyOff p) 15 8 ≠ 0 ∧
      (s.port p).lctlReq = none ∧
      (s.port p).lastData + s.fld (Reg.cwyPortCfg + cwyOff p) 15 8 * 1000 ≤ s.now ∧
      s.linksCalm) ∧
    (∃ (s : State) (p : Nat),
      (s.port p).st = .ready ∧
      (s.port p).power ≠ .sleep ∧
      (s.port p).lctlReq = none ∧
      s.inUse p = false ∧
      (s.port p).lastUse + 1000000 ≤ s.now ∧
      s.linksCalm) ∧
    (∃ (s : State) (p : Nat) (b : Bool) (u : Nat),
      (s.port p).st = .ready ∧
      (s.port p).lctlReq = some (b, u) ∧
      u + 1000 ≤ s.now ∧
      s.linksCalm) ∧
    (∃ (s : State) (p : Nat),
      (s.port p).st = .ready ∧
      (s.port p).power = .sleep ∧
      s.linksCalm) :=
  ⟨⟨ported id, 3, 0, by decide⟩,
   ⟨ported id, 3, 4, by decide⟩,
   ⟨ported (fun p => { p with txSeq := 10, flight := [(5, 0)] }), 3, { ack := 6 }, by decide⟩,
   ⟨{ ported (fun p => { p with flight := [(5, 0)] }) with now := 100000 }, 3, by decide⟩,
   ⟨ported (fun p => { p with unsentAck := 64 }), 3, by decide⟩,
   ⟨ported (fun p => { p with txSeq := 10, flight := [(5, 0)] }), 3, { ack := 6, cr := [3] }, by decide⟩,
   ⟨{ ported id with regs := [(Reg.cwyPortCfg + cwyOff 3, 0x6400#32)] }, 3, { ack := 0 }, by decide⟩,
   ⟨ported id, 3, { ack := 0 }, by decide⟩,
   ⟨ported (fun p => { p with lctlReq := some (true, 0) }), 3, { ack := 0 }, by decide⟩,
   ⟨ported (fun p => { p with power := .quiet }), 3, { ack := 0 }, by decide⟩,
   ⟨ported id, 3, { ack := 0 }, by decide⟩,
   ⟨ported (fun p => { p with lctlReq := some (false, 0) }), 3, { ack := 0 }, by decide⟩,
   ⟨{ ported id with now := 100000, regs := [(Reg.cwyPortCfg + cwyOff 3, 0x6400#32)] }, 3, by decide⟩,
   ⟨{ ported id with now := 1000000 }, 3, by decide⟩,
   ⟨{ ported (fun p => { p with lctlReq := some (true, 5) }) with now := 1005 }, 3, true, 5, by decide⟩,
   ⟨ported (fun p => { p with power := .sleep }), 3, by decide⟩⟩

theorem witness_AttachmentCommandsComplete :
    (∃ (s : State) (m : RxMsg),
      s.takes m 0x01 = true ∧
      (s.receive m none).2 = .plain ∧
      ((s.received m).port m.port).st = .linked ∧
      m.discoverValid = true ∧
      s.linksCalm) ∧
    (∃ (s : State) (m : RxMsg),
      s.attaches m 0 ∧
      s.linksCalm) ∧
    (∃ (s : State) (p : Nat) (k : Nat) (h : Handshake),
      s.hs p k = some h ∧
      h.initiator = false ∧
      h.join = none ∧
      h.acceptSent = none ∧
      h.acceptDue ≤ s.now ∧
      s.keyRuns h.domain = true ∧
      s.linksCalm) ∧
    (∃ (s : State) (m : RxMsg) (h : Handshake),
      s.attaches m 1 ∧
      ((s.received m).port m.port).handshakes.find? (fun h => h.initiator && h.acceptSent.isNone && h.accept.isNone && decide (h.domain = u16 m.body 2) && decide (h.ringId = u16 m.body 4)) = some h ∧
      m.body.length = 1860 ∧
      attachHeadOk m.body true = true ∧
      zeros m.body 1713 3 = true ∧
      m.tagOk = true ∧
      s.linksCalm ∧
      (s.received m).runsAtOnce ((s.received m).keyItem h.domain (.phase m.port h.id))) ∧
    (∃ (s : State) (m : RxMsg) (h : Handshake),
      s.attaches m 2 ∧
      ((s.received m).port m.port).handshakes.find? (fun h => !h.initiator && h.acceptSent.isSome && h.doneDue.isNone && decide (h.sessionId = u64 m.body 8)) = some h ∧
      h.malformed = false ∧
      m.body.length = 64 ∧
      attachHeadOk m.body true = true ∧
      (h.role = 1 → s.glb.variant.hasAttn = true) ∧
      h.granted = true ∧
      m.body.drop 16 = finMac h.prk "cwy fin i" h.th ∧
      s.auditTakes = true ∧
      s.linksCalm) ∧
    (∃ (s : State) (p : Nat) (k : Nat) (h : Handshake) (u : Nat) (d : Nat),
      s.hs p k = some h ∧
      h.doneDue = some u ∧
      u ≤ s.now ∧
      s.keyRuns h.domain = true ∧
      h.initiator = false ∧
      h.status = .ok ∧
      h.join = none ∧
      s.freeSid p = some d ∧
      s.linksCalm) ∧
    (∃ (s : State) (p : Nat) (k : Nat) (h : Handshake) (u : Nat) (d : Nat) (i : Nat) (x : Session),
      s.hs p k = some h ∧
      h.doneDue = some u ∧
      u ≤ s.now ∧
      s.keyRuns h.domain = true ∧
      h.initiator = false ∧
      h.status = .ok ∧
      h.join = some i ∧
      s.freeSid p = some d ∧
      s.cwy.sessions.get? i = some x ∧
      x.st = .attached ∧
      x.ports.length < 8 ∧
      s.linksCalm) ∧
    (∃ (s : State) (m : RxMsg) (h : Handshake),
      s.attaches m 3 ∧
      ((s.received m).port m.port).handshakes.find? (fun h => h.initiator && h.acceptSent.isSome && decide (h.sessionId = u64 m.body 8)) = some h ∧
      m.body.length = 64 ∧
      u8 m.body 6 = 0 ∧
      m.body.drop 16 = finMac h.prk "cwy fin r" (h.th ++ leBytes 1 0) ∧
      1 ≤ u8 m.body 7 ∧
      u8 m.body 7 ≤ 16 ∧
      s.sessionOf m.port (u8 m.body 7) = none ∧
      h.join = none ∧
      s.linksCalm) ∧
    (∃ (s : State) (p : Nat) (k : Nat) (h : Handshake) (u : Nat),
      s.hs p k = some h ∧
      h.doneDue = some u ∧
      u ≤ s.now ∧
      s.keyRuns h.domain = true ∧
      h.initiator = false ∧
      (h.status ≠ .ok ∨ s.freeSid p = none) ∧
      s.linksCalm) ∧
    (∃ (s : State) (m : RxMsg) (h : Handshake) (i : Nat) (x : Session),
      s.attaches m 3 ∧
      ((s.received m).port m.port).handshakes.find? (fun h => h.initiator && h.acceptSent.isSome && decide (h.sessionId = u64 m.body 8)) = some h ∧
      s.doneOk m.port h m.body = true ∧
      h.join = some i ∧
      s.cwy.sessions.get? i = some x ∧
      x.st = .attached ∧
      x.ports.length < 8 ∧
      s.linksCalm) ∧
    (∃ (s : State) (p : Nat) (k : Nat) (h : Handshake) (u : Nat),
      s.hs p k = some h ∧
      h.acceptSent = some u ∧
      h.doneDue = none ∧
      h.initiator = false ∧
      u + 1000000 ≤ s.now ∧
      s.linksCalm) ∧
    (∃ (s : State) (m : RxMsg),
      s.attaches m 4 ∧
      s.linksCalm) :=
  ⟨⟨ported (fun p => { p with st := .linked }), rxPlain 1 aDiscover, by decide +kernel⟩,
   ⟨ported id, rxPlain 2 (leBytes 16 0), by decide⟩,
   ⟨shaking { id := 4, initiator := false, domain := 1, role := 0, ringId := 0 }, 3, 4, { id := 4, initiator := false, domain := 1, role := 0, ringId := 0 }, by decide⟩,
   ⟨shaking { id := 4, initiator := true, domain := 1, role := 0, ringId := 0 }, rxPlain 2 (leBytes 1 1 ++ leBytes 1 0 ++ leBytes 2 1 ++ leBytes 4 0 ++ leBytes 8 77 ++ List.replicate 1844 0#8), { id := 4, initiator := true, domain := 1, role := 0, ringId := 0 }, by decide +kernel⟩,
   ⟨shaking { id := 4, initiator := false, domain := 1, role := 0, ringId := 0, granted := true, sessionId := 77, acceptSent := some 0 }, rxPlain 2 (leBytes 1 2 ++ leBytes 1 0 ++ leBytes 2 1 ++ leBytes 4 0 ++ leBytes 8 77 ++ finMac [] "cwy fin i" []), { id := 4, initiator := false, domain := 1, role := 0, ringId := 0, granted := true, sessionId := 77, acceptSent := some 0 }, by decide +kernel⟩,
   ⟨shaking { id := 4, initiator := false, domain := 1, role := 0, ringId := 0, sessionId := 77, doneDue := some 0 }, 3, 4, { id := 4, initiator := false, domain := 1, role := 0, ringId := 0, sessionId := 77, doneDue := some 0 }, 0, 1, by decide⟩,
   ⟨{ shaking { id := 4, initiator := false, domain := 1, role := 0, ringId := 0, join := some 2, doneDue := some 0 } with cwy := { (shaking { id := 4, initiator := false, domain := 1, role := 0, ringId := 0, join := some 2, doneDue := some 0 }).cwy with sessions := [(2, { st := .attached, domain := 1, ports := [(5, 1)] })] } }, 3, 4, { id := 4, initiator := false, domain := 1, role := 0, ringId := 0, join := some 2, doneDue := some 0 }, 0, 1, 2, { st := .attached, domain := 1, ports := [(5, 1)] }, by decide⟩,
   ⟨shaking { id := 4, initiator := true, domain := 1, role := 0, ringId := 0, sessionId := 77, acceptSent := some 0 }, rxPlain 2 (leBytes 1 3 ++ leBytes 1 0 ++ leBytes 2 1 ++ leBytes 3 0 ++ leBytes 1 5 ++ leBytes 8 77 ++ finMac [] "cwy fin r" (leBytes 1 0)), { id := 4, initiator := true, domain := 1, role := 0, ringId := 0, sessionId := 77, acceptSent := some 0 }, by decide +kernel⟩,
   ⟨shaking { id := 4, initiator := false, domain := 1, role := 0, ringId := 0, status := .denied, doneDue := some 0 }, 3, 4, { id := 4, initiator := false, domain := 1, role := 0, ringId := 0, status := .denied, doneDue := some 0 }, 0, by decide⟩,
   ⟨{ shaking { id := 4, initiator := true, domain := 1, role := 0, ringId := 0, sessionId := 77, acceptSent := some 0, join := some 2 } with cwy := { (shaking { id := 4, initiator := true, domain := 1, role := 0, ringId := 0, sessionId := 77, acceptSent := some 0, join := some 2 }).cwy with sessions := [(2, { st := .attached, domain := 1, ports := [(5, 1)] })] } }, rxPlain 2 (leBytes 1 3 ++ leBytes 1 0 ++ leBytes 2 1 ++ leBytes 3 0 ++ leBytes 1 5 ++ leBytes 8 77 ++ finMac [] "cwy join" (leBytes 1 0)), { id := 4, initiator := true, domain := 1, role := 0, ringId := 0, sessionId := 77, acceptSent := some 0, join := some 2 }, 2, { st := .attached, domain := 1, ports := [(5, 1)] }, by decide +kernel⟩,
   ⟨{ shaking { id := 4, initiator := false, domain := 1, role := 0, ringId := 0, acceptSent := some 0 } with now := 1000000 }, 3, 4, { id := 4, initiator := false, domain := 1, role := 0, ringId := 0, acceptSent := some 0 }, 0, by decide⟩,
   ⟨ported id, rxPlain 2 (leBytes 16 4), by decide⟩⟩

theorem witness_SessionCommandsComplete :
    (∃ (s : State) (m : RxMsg) (i : Nat),
      s.passes m 0x03 i ∧
      u8 m.body 0 = 0 ∧
      detachOk m.body = true ∧
      u8 m.body 1 = 0 ∧
      u8 m.body 2 ≠ 4 ∧
      ((s.received m).cwy.sessions.get? i).map Session.doneRecv = some none ∧
      s.linksCalm) ∧
    (∃ (s : State) (m : RxMsg) (i : Nat),
      s.passes m 0x03 i ∧
      u8 m.body 0 = 0 ∧
      detachOk m.body = true ∧
      u8 m.body 2 = 4 ∧
      s.linksCalm) ∧
    (∃ (s : State) (m : RxMsg) (i : Nat) (x : Session),
      s.passes m 0x03 i ∧
      u8 m.body 0 = 0 ∧
      detachOk m.body = true ∧
      u8 m.body 1 = 1 ∧
      u8 m.body 2 ≠ 4 ∧
      (s.received m).cwy.sessions.get? i = some x ∧
      1 < x.ports.length ∧
      s.linksCalm) ∧
    (∃ (s : State) (m : RxMsg) (i : Nat) (x : Session),
      s.passes m 0x03 i ∧
      u8 m.body 0 = 1 ∧
      detachOk m.body = true ∧
      (s.received m).cwy.sessions.get? i = some x ∧
      x.doneSent = true ∧
      msnAhead x.ackMsn (u32 m.body 4) < 2 ^ 31 ∧
      (s.noRings ∧ s.portsSee)) ∧
    (∃ (s : State) (m : RxMsg) (i : Nat) (x : Session),
      s.takes m m.head.mtype = true ∧
      m.wellFormed = true ∧
      m.head.sid ≠ 0 ∧
      s.sessionOf m.port m.head.sid = some i ∧
      s.cwy.sessions.get? i = some x ∧
      x.domain ≠ 0 ∧
      roleSends x.role m.head.mtype = true ∧
      m.tagOk = false ∧
      s.linksCalm) ∧
    (∃ (s : State) (m : RxMsg) (i : Nat),
      s.passes m 0x04 i ∧
      m.body.length = 8 ∧
      zeros m.body 4 4 = true ∧
      s.linksCalm) ∧
    (∃ (s : State) (m : RxMsg) (i : Nat),
      s.passes m 0x3F i ∧
      s.linksCalm) ∧
    (∃ (s : State) (i : Nat) (p : Nat) (x : Session),
      s.cwy.sessions.get? i = some x ∧
      s.usable x p = true ∧
      (s.port p).power ≠ .sleep ∧
      x.lastTx.getD p 0 + s.kaNs ≤ s.now ∧
      s.linksCalm) ∧
    (∃ (s : State) (i : Nat) (p : Nat) (x : Session),
      s.cwy.sessions.get? i = some x ∧
      x.st = .detaching ∧
      x.detachSince + 4 * s.kaNs ≤ s.now ∧
      (s.noRings ∧ s.portsSee)) ∧
    (∃ (s : State) (i : Nat) (p : Nat) (x : Session),
      s.cwy.sessions.get? i = some x ∧
      x.st = .attached ∧
      x.ports.has p = true ∧
      (s.port p).power ≠ .sleep ∧
      (s.port p).woken = false ∧
      x.lastRx.getD p 0 + 4 * s.kaNs ≤ s.now ∧
      s.linksCalm) ∧
    (∃ (s : State) (i : Nat) (x : Session),
      s.cwy.sessions.get? i = some x ∧
      (64 ≤ x.unsentAcks ∨ (0 < x.unsentAcks ∧ x.ackOldest + 2000 ≤ s.now)) ∧
      s.linksCalm) ∧
    (∃ (s : State) (m : RxMsg) (i : Nat) (app : Bool),
      s.badType m = true ∧
      s.takes m m.head.mtype = true ∧
      (app = decide (m.head.mtype = 0x10 ∧ 12 < m.body.length)) ∧
      m.head.sid ≠ 0 ∧
      s.sessionOf m.port m.head.sid = some i ∧
      s.linksCalm) ∧
    (∃ (s : State) (m : RxMsg),
      s.badType m = true ∧
      s.takes m m.head.mtype = true ∧
      (m.head.sid = 0 ∨ s.sessionOf m.port m.head.sid = none) ∧
      s.linksCalm) ∧
    (∃ (s : State) (m : RxMsg) (i : Nat),
      s.passes m 0x30 i ∧
      (bit (s.reg Reg.cwyGcfg) 31 = false ∨ bits (s.reg Reg.cwyGcfg) 25 21 ≠ m.port ∨ ((s.received m).cwy.sessions.get? i).map (fun x => x.timing && decide (x.role = 0)) ≠ some true)) ∧
    (∃ (s : State) (m : RxMsg) (i : Nat),
      s.passes m 0x30 i ∧
      bit (s.reg Reg.cwyGcfg) 31 = true ∧
      bits (s.reg Reg.cwyGcfg) 25 21 = m.port ∧
      ((s.received m).cwy.sessions.get? i).map (fun x => x.timing && decide (x.role = 0)) = some true ∧
      m.body.length = 24 ∧
      zeros m.body 6 2 = true ∧
      zeros m.body 20 4 = true ∧
      s.smSrc ≠ 2) ∧
    (∃ (s : State) (m : RxMsg) (i : Nat),
      s.passes m 0x30 i ∧
      bit (s.reg Reg.cwyGcfg) 31 = true ∧
      bits (s.reg Reg.cwyGcfg) 25 21 = m.port ∧
      ((s.received m).cwy.sessions.get? i).map (fun x => x.timing && decide (x.role = 0)) = some true ∧
      m.body.length = 24 ∧
      zeros m.body 6 2 = true ∧
      zeros m.body 20 4 = true ∧
      s.smSrc = 2 ∧
      s.pwr.live = true ∧
      s.now < s.pwr.planned ∧
      s.pwr.resync = true) :=
  ⟨⟨inSess id, rx 3 0 (detachBody 0 0 1 1 0), 2, by decide⟩,
   ⟨inSess id, rx 3 0 (detachBody 0 0 4 1 0), 2, by decide⟩,
   ⟨inSess (fun x => { x with ports := [(3, 1), (5, 1)] }), rx 3 0 (detachBody 0 1 1 1 0), 2, ((inSess (fun x => { x with ports := [(3, 1), (5, 1)] })).received (rx 3 0 (detachBody 0 1 1 1 0))).cwy.sessions.getD 2 { st := .attached, domain := 0 }, by decide⟩,
   ⟨inSess (fun x => { x with doneSent := true, st := .detaching }), rx 3 0 (detachBody 1 0 1 1 0), 2, ((inSess (fun x => { x with doneSent := true, st := .detaching })).received (rx 3 0 (detachBody 1 0 1 1 0))).cwy.sessions.getD 2 { st := .attached, domain := 0 }, by decide⟩,
   ⟨inSess id, { rx 4 0 (leBytes 8 0) with tagOk := false }, 2, { st := .attached, domain := 1, ports := [(3, 1)] }, by decide⟩,
   ⟨{ inSess id with now := 9 }, rx 4 0 (leBytes 8 3), 2, by decide⟩,
   ⟨{ inSess id with now := 9 }, rx 0x3F 0 (leBytes 16 3), 2, by decide⟩,
   ⟨{ inSess id with now := 1000000 }, 2, 3, { st := .attached, domain := 1, ports := [(3, 1)] }, by decide⟩,
   ⟨{ inSess (fun x => { x with st := .detaching }) with now := 1000000 }, 2, 3, { st := .detaching, domain := 1, ports := [(3, 1)] }, by decide⟩,
   ⟨{ inSess id with now := 1000000 }, 2, 3, { st := .attached, domain := 1, ports := [(3, 1)] }, by decide⟩,
   ⟨inSess (fun x => { x with unsentAcks := 64 }), 2, { st := .attached, domain := 1, ports := [(3, 1)], unsentAcks := 64 }, by decide⟩,
   ⟨inSess id, rx 0x77 0 [], 2, false, by decide⟩,
   ⟨ported id, rxPlain 0x77 [], by decide⟩,
   ⟨inSess id, rx 0x30 0 (leBytes 24 9), 2, by decide⟩,
   ⟨{ inSess (fun x => { x with domain := 0 }) with regs := [(Reg.cwyGcfg, BitVec.ofNat 32 (2 ^ 31 + 3 * 2 ^ 21))] }, rx 0x30 0 (leBytes 24 9), 2, by decide⟩,
   ⟨{ inSess (fun x => { x with domain := 0 }) with regs := [(Reg.cwyGcfg, BitVec.ofNat 32 (2 ^ 31 + 3 * 2 ^ 21)), (Reg.pwrEpochCfg, 2#32)], pwr := { (inSess id).pwr with live := true, planned := 100, resync := true } }, rx 0x30 0 (leBytes 24 9), 2, by decide⟩⟩

theorem witness_StepTakesTheFrontCommand :
    ∃ (s : State) (c : Instr) (q : List Instr), s.pending = c :: q :=
  ⟨{ State.reset with pending := [.autorst, .trim] }, .autorst, [.trim], rfl⟩

theorem witness_EmptyQueueTicksTheClock :
    (∃ s : State, s.pending = [] ∧ s.glb.phase ≠ .off ∧ bit (s.reg Reg.clkPtpCfg) 31 = false) ∧
    (∃ (s t : State), step s = .next t ∧ s.pending = []) :=
  ⟨⟨ready, rfl, by decide, by decide⟩,
   ⟨ready, _, rfl, rfl⟩⟩



theorem witness_EveryStepKeepsMemoryCanonical :
    ∃ s t : State, s.memOk ∧ step s = .next t :=
  ⟨{ State.reset with pending := [.autorst], mem := [(4, 1#8)] }, _, by decide, rfl⟩

theorem witness_EveryStepKeepsGroupsFollowing :
    ∃ s t : State, s.groupsFollow ∧ step s = .next t :=
  ⟨{ State.reset with pending := [.autorst] }, _, groupsFollow_reset, rfl⟩

theorem witness_EveryCommandLeavesTheQueue :
    (∃ (i : Instr) (s t : State), exec i s = .next t) ∧
    (∃ (a : Nat), addrExists a = false) ∧
    (∃ (a : Nat), addrExists a = false) :=
  ⟨⟨.trim, { State.reset with pending := [.autorst] }, _, rfl⟩,
   ⟨domBase + 257 * 0x8000, by decide⟩,
   ⟨domBase + 257 * 0x8000 + 4, by decide⟩⟩

theorem witness_PowerFlashAndBoardCommandsKeepTheirScope :
    ∃ (i : Instr) (c : Scope) (s t : State), i.scope = some c ∧ (c = .flash ∨ c = .erasure ∨ c = .startup ∨ c = .budget ∨ c = .update ∨ c = .mark ∨ c = .board) ∧ exec i s = .next t :=
  ⟨.gc, .flash, ready, _, rfl, by decide, rfl⟩

theorem witness_HostAndLeveeCommandsKeepTheirScope :
    ∃ (i : Instr) (c : Scope) (s t : State), i.scope = some c ∧ (c = .host ∨ c = .answer ∨ c = .levee ∨ c = .command ∨ c = .trust ∨ c = .channel) ∧ exec i s = .next t :=
  ⟨.nop q0, .answer, ready, _, rfl, by decide, rfl⟩

theorem witness_CausewayCommandsKeepTheirScope :
    ∃ (i : Instr) (c : Scope) (s t : State), i.scope = some c ∧ (c = .link) ∧ exec i s = .next t :=
  ⟨.quietReq ⟨3, { ack := 0 }⟩, .link, ready, _, rfl, by decide, rfl⟩

theorem witness_StoreAndSearchCommandsKeepTheirScope :
    ∃ (i : Instr) (c : Scope) (s t : State), i.scope = some c ∧ (c = .engine ∨ c = .store ∨ c = .search ∨ c = .lookup ∨ c = .index ∨ c = .tests ∨ c = { Scope.search with lve := true, aud := true }) ∧ exec i s = .next t :=
  ⟨.moveRead 0, .engine, ready, _, rfl, by decide, rfl⟩

theorem witness_RegisterCommandsKeepTheirScope :
    ∃ (i : Instr) (c : Scope) (s t : State), i.scope = some c ∧ (c = .row ∨ c = .rowEngine ∨ c = .reading ∨ c = .device ∨ c = { Scope.row with mgmt := true, flt := true } ∨ c = { Scope.row with att := true, flt := true } ∨ c = { Scope.row with pea := true } ∨ c = { Scope.row with flt := true, cwy := true } ∨ c = { Scope.row with evc := true } ∨ c = { Scope.row with xlt := true } ∨ c = { Scope.row with rbd := true } ∨ c = { Scope.row with slc := true }) ∧ exec i s = .next t :=
  ⟨.evcEoi (pf0 0), { Scope.row with evc := true }, ready, _, rfl, by decide, rfl⟩

theorem witness_StoresGoToTheirAddressesAlone :
    (∃ (s t : State) (n : Nat) (f : Bool) (m : Move) (a : Nat), s.memOk ∧ s.moveIn n .write = some m ∧ (¬ (f = false ∧ m.dst.tier = 0 ∧ s.xlt.metas.has m.frame = false ∧ inFrame m.dst (m.staged.take m.bytes).length a)) ∧ exec (.moveCommitStart n f) s = .next t) ∧
    (∃ (s t : State) (q : CmdRef) (c : InFlight) (inp : List Byte) (n : Nat) (x : Obj) (a : Nat), s.memOk ∧ s.offersXlt q 0x29 c ∧ inp.length = c.inLen ∧ (s.slc.objWrites.all fun w => w.blocks.isEmpty) = true ∧ s.findObj (s.ringDomain q) (u32 c.ops 0) = .ok (n, x) ∧ (∀ u p e, (s.markStarted q).mapPages n x (u8 c.ops 12) ((List.range (u32 c.ops 8)).map (u32 c.ops 4 + ·)) = some u →
        ((u.xlt.objs.get? n).bind fun o => o.map.get? p) = some e → e.home.tier ≠ 3 → ¬ inFrame e.home (4096 * 2 ^ x.fc) a) ∧ exec (.objWrite q (.bytes inp)) s = .next t) ∧
    (∃ (s t : State) (n : Nat) (r : MediaRead) (m : Move) (a : Nat), s.memOk ∧ s.moveIn n .read = some m ∧ (¬ (m.dst.tier ≠ 0 ∧ m.dst.tier ≠ 3 ∧ inFrame m.dst m.bytes a)) ∧ exec (.moveWrite n r) s = .next t) ∧
    (∃ (s t : State) (ue : Bool) (b : SdgBlock) (a : Nat), s.memOk ∧ (s.slc.objWrites.all fun w => w.blocks.isEmpty) = true ∧ s.sdg.queue.head? = some b ∧ b.data.length = 4096 ∧ ¬ inFrame { b.dst with addr := b.dst.addr + 8 * b.index } 4096 a ∧ exec (.sedgeCompress ue) s = .next t) ∧
    (∃ (s t : State) (n : Nat) (a : Nat), s.memOk ∧ s.slc.spaceCmds = [] ∧ exec (.moveCommit n) s = .next t) ∧
    (∃ (s t : State) (a : Nat), s.memOk ∧ s.slc.spaceCmds = [] ∧ exec (.dispatch) s = .next t) ∧
    (∃ (s t : State) (n : Nat) (a : Nat), s.memOk ∧ s.slc.spaceCmds = [] ∧ exec (.tierTimeout n) s = .next t) ∧
    (∃ (s t : State) (q : CmdRef) (a : Nat), s.memOk ∧ s.slc.spaceCmds = [] ∧ exec (.slcPlace q) s = .next t) ∧
    (∃ (s t : State) (d : Nat) (a : Nat), s.memOk ∧ (∀ e ∈ s.extentsOf d, e.1.tier ≠ 3 → ¬ inFrame e.1 e.2 a) ∧ exec (.teardownScrubDone d) s = .next t) ∧
    (∃ (s t : State) (d : Nat) (y : Teardown) (e : Home × Nat) (a : Nat), s.memOk ∧ (s.dom d).teardown = some y ∧ y.erased = true ∧ ((s.extentsOf d).all fun e => s.answers e.1) = true ∧ e ∈ (s.handOverTables d).extentsOf d ∧ e.1.tier ≠ 3 ∧ inFrame e.1 e.2 a ∧ exec (.teardownScrubDone d) s = .next t) ∧
    (∃ (s t : State) (f : FuseScan) (a : Nat), s.memOk ∧ 2 ^ 56 ≤ a ∧ exec (.powerOn f) s = .next t) ∧
    (∃ (s t : State) (f : FuseScan) (a : Nat), s.memOk ∧ 2 ^ 56 ≤ a ∧ exec (.deviceReset f) s = .next t) :=
  ⟨⟨moving, _, 0, false, aMove, 5, by decide, by decide, by decide, rfl⟩,
   ⟨writing, _, q0, noPages, [], 2, anObj, 2 ^ 59, by decide, by decide, rfl, rfl, rfl, objWrite_far, rfl⟩,
   ⟨{ moving with slc := { moves := [{ aMove with st := .read }] } }, _, 0, {}, { aMove with st := .read }, 5, by decide, by decide, by decide, rfl⟩,
   ⟨{ ready with sdg := { ready.sdg with queue := [aBlock] } }, _, false, aBlock, 2 ^ 59, by decide, by decide, rfl, by decide +kernel, by decide, rfl⟩,
   ⟨ready, _, 0, 5, by decide, by decide, rfl⟩,
   ⟨ready, _, 5, by decide, by decide, rfl⟩,
   ⟨ready, _, 0, 5, by decide, by decide, rfl⟩,
   ⟨ready, _, q0, 5, by decide, by decide, rfl⟩,
   ⟨ready, _, 1, 5, by decide, by decide, rfl⟩,
   ⟨scrubbing, _, 1, { erased := true }, ({ tier := 0, addr := 8 }, 512), 4096, by decide, by decide, by decide, by decide, by decide, by decide, by decide, rfl⟩,
   ⟨ready, _, { words := [] }, 2 ^ 56, by decide, by decide, rfl⟩,
   ⟨ready, _, { words := [] }, 2 ^ 56, by decide, by decide, rfl⟩⟩

theorem witness_AppendsStoreTheirPatchesAlone :
    (∃ (s t : State) (q : CmdRef) (c : InFlight) (inp : List Byte) (i : Nat) (x : Seq), s.offersXlt q 0x18 c ∧ inp.length = c.inLen ∧ s.noPlacements ∧ s.takesRecord (s.ringDomain q) inp i x ∧ (x.held.any fun h => h.rc.layer == u16 inp 4) = false ∧ s.opensFor i x (appendRec (s.modelOf x) inp) false ∧ s.runsAtOnce (s.recordItem i x (.ring q) (appendRec (s.modelOf x) inp)) ∧ exec (.cmdKvAppend q ⟨.bytes inp, false⟩) s = .next t) ∧
    (∃ (s t : State) (m : RxMsg) (i : Nat) (n : Nat) (x : Seq), s.passes m 0x10 i ∧ (s.received m).serves .xlt = true ∧ (s.received m).linksCalm ∧ (s.received m).noPlacements ∧ (s.received m).takesRecord ((s.received m).domainOf (m.requester i)) m.body n x ∧ (x.held.any fun h => h.rc.layer == u16 m.body 4) = false ∧ (s.received m).opensFor n x (appendRec ((s.received m).modelOf x) m.body) false ∧ (s.received m).runsAtOnce ((s.received m).recordItem n x (m.requester i) (appendRec ((s.received m).modelOf x) m.body)) ∧ exec (.kvAppend ⟨m, false⟩) s = .next t) ∧
    (∃ (s t : State) (q : CmdRef) (c : InFlight) (inp : List Byte) (i : Nat) (x : Seq), s.offersXlt q 0x18 c ∧ inp.length = c.inLen ∧ s.noPlacements ∧ s.takesRecord (s.ringDomain q) inp i x ∧ s.opensFor i x (appendRec (s.modelOf x) inp) false ∧ exec (.cmdKvAppend q ⟨.bytes inp, true⟩) s = .next t) ∧
    (∃ (s t : State) (q : CmdRef) (c : InFlight) (inp : List Byte) (i : Nat) (x : Seq) (ue : Bool), s.offersXlt q 0x18 c ∧ inp.length = c.inLen ∧ s.noPlacements ∧ s.takesRecord (s.ringDomain q) inp i x ∧ (x.held.any fun h => h.rc.layer == u16 inp 4) = true ∧ exec (.cmdKvAppend q ⟨.bytes inp, ue⟩) s = .next t) ∧
    (∃ (s t : State) (i : Nat) (x : Seq) (n : Nat) (h : HeldRec), s.serves .xlt = true ∧ s.noPlacements ∧ s.mayBegin (.rescale i n) = true ∧ s.releaseTurn (.held i n) = true ∧ s.seq? i = some x ∧ x.held.filter (fun y => y.rc.layer == n) = [h] ∧ s.tailForeign x n (h.rc.pos / 16) = false ∧ s.opensFor i x h.rc h.before ∧ s.waits (.record i n h.rc.pos) = false ∧ exec (.heldRecordWrite i ⟨n, true⟩) s = .next t) ∧
    (∃ (s t : State) (i : Nat) (x : Seq) (n : Nat) (h : HeldRec), s.serves .xlt = true ∧ s.noPlacements ∧ s.mayBegin (.rescale i n) = true ∧ s.releaseTurn (.held i n) = true ∧ s.seq? i = some x ∧ x.held.filter (fun y => y.rc.layer == n) = [h] ∧ s.tailForeign x n (h.rc.pos / 16) = false ∧ s.opensFor i x h.rc h.before ∧ s.waits (.record i n h.rc.pos) = false ∧ exec (.heldRecordWrite i ⟨n, false⟩) s = .next t) ∧
    (∃ (s t : State) (n : Nat) (y : Stall), s.slc.stalls[n]? = some y ∧ ((∀ i l, y.who ≠ .held i l)) ∧ exec (.stallEnd n) s = .next t) ∧
    (∃ (s t : State) (i : Nat), ((s.seq? i).all fun x => x.waiting.isEmpty) = true ∧ exec (.truncateRelease i) s = .next t) :=
  ⟨⟨openSt (cmd 0x18 [] 144) id, _, q0, cmd 0x18 [] 144, oneRecord, 7, openSeq { tag := 1, st := .idle, domain := 1, model := 3 }, by decide +kernel, by decide +kernel, by decide +kernel, by decide +kernel, by decide +kernel, by decide +kernel, by decide +kernel, rfl⟩,
   ⟨{ openSt (cmd 0x18 [] 144) id with cwy := (inSess id).cwy, pwr := { (inSess id).pwr with live := true, planned := 250000, grant := 175000, islands := [(16, .on), (portGroup 3, .on)] } }, _, rx 0x10 1 oneRecord, 2, 7, openSeq { tag := 1, st := .idle, domain := 1, model := 3 }, by decide +kernel, by decide +kernel, by decide +kernel, by decide +kernel, by decide +kernel, by decide +kernel, by decide +kernel, by decide +kernel, rfl⟩,
   ⟨openSt (cmd 0x18 [] 144) id, _, q0, cmd 0x18 [] 144, oneRecord, 7, openSeq { tag := 1, st := .idle, domain := 1, model := 3 }, by decide +kernel, by decide +kernel, by decide +kernel, by decide +kernel, by decide +kernel, rfl⟩,
   ⟨openSt (cmd 0x18 [] 144) fun x => { x with held := [{ req := .ring q0, rc := appendRec aModel oneRecord, cause := .rescale, since := 0 }] }, _, q0, cmd 0x18 [] 144, oneRecord, 7, { openSeq { tag := 1, st := .idle, domain := 1, model := 3 } with held := [{ req := .ring q0, rc := appendRec aModel oneRecord, cause := .rescale, since := 0 }] }, true, by decide +kernel, by decide +kernel, by decide +kernel, by decide +kernel, by decide +kernel, rfl⟩,
   ⟨openSt (cmd 0x18 [] 144) fun x => { x with held := [{ req := .ring q0, rc := appendRec aModel oneRecord, cause := .rescale, since := 0 }] }, _, 7, { openSeq { tag := 1, st := .idle, domain := 1, model := 3 } with held := [{ req := .ring q0, rc := appendRec aModel oneRecord, cause := .rescale, since := 0 }] }, 0, { req := .ring q0, rc := appendRec aModel oneRecord, cause := .rescale, since := 0 }, by decide +kernel, by decide +kernel, by decide +kernel, by decide +kernel, by decide +kernel, by decide +kernel, by decide +kernel, by decide +kernel, by decide +kernel, rfl⟩,
   ⟨openSt (cmd 0x18 [] 144) fun x => { x with held := [{ req := .ring q0, rc := appendRec aModel oneRecord, cause := .rescale, since := 0 }] }, _, 7, { openSeq { tag := 1, st := .idle, domain := 1, model := 3 } with held := [{ req := .ring q0, rc := appendRec aModel oneRecord, cause := .rescale, since := 0 }] }, 0, { req := .ring q0, rc := appendRec aModel oneRecord, cause := .rescale, since := 0 }, by decide +kernel, by decide +kernel, by decide +kernel, by decide +kernel, by decide +kernel, by decide +kernel, by decide +kernel, by decide +kernel, by decide +kernel, rfl⟩,
   ⟨{ { openSt (cmd 0x18 [] 144) id with cwy := (inSess id).cwy, pwr := { (inSess id).pwr with live := true, planned := 250000, grant := 175000, islands := [(16, .on), (portGroup 3, .on)] } } with slc := { pageReads := [{ id := 0, req := .cwy 2 3 1 0x18 false 0 0 0, domain := 1, obj := false, target := 7, layer := 0, hg := 0, page := 0, count := 1, tag := 9 }], stalls := [{ who := .read 0, domain := 1, cause := .translationMiss, frame := none, since := 0 }] } }, _, 0, { who := .read 0, domain := 1, cause := .translationMiss, frame := none, since := 0 }, rfl, (by intro i l h; cases h), rfl⟩,
   ⟨ready, _, 7, by decide, rfl⟩⟩

theorem witness_TableCommandsChangeTheirEntryAlone :
    (∃ (s t : State) (q : CmdRef) (h : HostRead), exec (.modelRegister q h) s = .next t) ∧
    (∃ (s t : State) (q : CmdRef), exec (.modelRelease q) s = .next t) ∧
    (∃ (s t : State) (q : CmdRef), exec (.seqCreate q) s = .next t) ∧
    (∃ (s t : State) (q : CmdRef), exec (.seqRetire q) s = .next t) ∧
    (∃ (s t : State) (q : CmdRef), exec (.objCreate q) s = .next t) ∧
    (∃ (s t : State) (q : CmdRef), exec (.objSeal q) s = .next t) ∧
    (∃ (s t : State) (q : CmdRef), exec (.ringLeave q) s = .next t) ∧
    (∃ (s t : State) (q : CmdRef), s.serves .xlt = true ∧ s.serves .lve = true ∧ exec (.nop q) s = .next t) ∧
    (∃ (s t : State) (q : CmdRef), s.serves .xlt = true ∧ s.serves .lve = true ∧ exec (.seqQuery q) s = .next t) ∧
    (∃ (s t : State) (q : CmdRef), s.serves .xlt = true ∧ s.serves .lve = true ∧ exec (.domStatus q) s = .next t) :=
  ⟨⟨seqd (cmd 1 (leBytes 2 9 ++ leBytes 2 1 ++ leBytes 2 1 ++ leBytes 2 1 ++ leBytes 2 32 ++ leBytes 2 1)) id, _, q0, .failed, rfl⟩,
   ⟨seqd (cmd 2 (leBytes 2 3)) id, _, q0, rfl⟩,
   ⟨seqd (cmd 8 (leBytes 2 3)) id, _, q0, rfl⟩,
   ⟨seqd (cmd 9 handle7) id, _, q0, rfl⟩,
   ⟨seqd (cmd 0x28 (leBytes 4 0x106 ++ leBytes 4 4)) id, _, q0, rfl⟩,
   ⟨seqd (cmd 0x2A handle7) id, _, q0, rfl⟩,
   ⟨seqd (cmd 0x39 (leBytes 2 5)) id, _, q0, rfl⟩,
   ⟨hosted (cmd 0 []), _, q0, by decide, by decide, rfl⟩,
   ⟨seqd (cmd 11 handle7) id, _, q0, by decide, by decide, rfl⟩,
   ⟨hosted (cmd 0x4B []), _, q0, by decide, by decide, rfl⟩⟩

theorem witness_RegisterRowsChangeTheirRegisterAlone :
    (∃ (s t : State) (n : Nat) (w : RegWrite) (b : Nat), b ≠ routeAddr n ∧ b % 4096 ≠ 16 ∧ b % 4096 ≠ 24 ∧ exec (.evcRouteWrite n w) s = .next t) ∧
    (∃ (s t : State) (n : Nat) (w : RegWrite) (b : Nat), b ≠ Reg.evcHold + 4 * n ∧ b % 4096 ≠ 16 ∧ b % 4096 ≠ 24 ∧ exec (.evcHoldWrite n w) s = .next t) ∧
    (∃ (s t : State) (n : Nat) (w : RegWrite) (b : Nat), b ≠ Reg.evcPend + 4 * n ∧ b % 4096 ≠ 16 ∧ b % 4096 ≠ 24 ∧ exec (.evcPendClear n w) s = .next t) ∧
    (∃ (s t : State) (w : RegWrite) (b : Nat), b ≠ Reg.evcEoi ∧ b % 4096 ≠ 16 ∧ b % 4096 ≠ 24 ∧ exec (.evcEoi w) s = .next t) ∧
    (∃ (s t : State) (w : RegWrite) (b : Nat), b ≠ Reg.evcSwset ∧ b % 4096 ≠ 16 ∧ b % 4096 ≠ 24 ∧ exec (.evcSwset w) s = .next t) ∧
    (∃ (s t : State) (n : Nat) (w : RegWrite) (b : Nat), b ≠ n ∧ b % 4096 ≠ 16 ∧ b % 4096 ≠ 24 ∧ exec (.xltPtrBaseWrite n w) s = .next t) ∧
    (∃ (s t : State) (w : RegWrite) (b : Nat), b ≠ Reg.xltPtrSize ∧ b % 4096 ≠ 16 ∧ b % 4096 ≠ 24 ∧ exec (.xltPtrSizeWrite w) s = .next t) ∧
    (∃ (s t : State) (n : Nat) (w : RegWrite) (b : Nat), b ≠ n ∧ b % 4096 ≠ 16 ∧ b % 4096 ≠ 24 ∧ exec (.rbdBaseWrite n w) s = .next t) ∧
    (∃ (s t : State) (w : RegWrite) (b : Nat), b ≠ Reg.rbdCfg ∧ b % 4096 ≠ 16 ∧ b % 4096 ≠ 24 ∧ exec (.rbdCfgEnWrite w) s = .next t) ∧
    (∃ (s t : State) (w : RegWrite) (b : Nat), b ≠ Reg.atcSpillPool ∧ b % 4096 ≠ 16 ∧ b % 4096 ≠ 24 ∧ exec (.atcSpillPoolWrite w) s = .next t) ∧
    (∃ (s t : State) (w : RegWrite) (b : Nat), b ≠ Reg.slcStage ∧ b % 4096 ≠ 16 ∧ b % 4096 ≠ 24 ∧ exec (.slcStageWrite w) s = .next t) ∧
    (∃ (s t : State) (w : RegWrite) (b : Nat), b ≠ Reg.slcDomT0Quota ∧ b % 4096 ≠ 16 ∧ b % 4096 ≠ 24 ∧ exec (.slcDomT0QuotaWrite w) s = .next t) ∧
    (∃ (s t : State) (w : RegWrite) (b : Nat), b ≠ Reg.pwrEpochCfg ∧ b % 4096 ≠ 16 ∧ b % 4096 ≠ 24 ∧ exec (.pwrEpochCfgWrite w) s = .next t) ∧
    (∃ (s t : State) (w : RegWrite) (b : Nat), b ≠ Reg.pwrHistSel ∧ b % 4096 ≠ 16 ∧ b % 4096 ≠ 24 ∧ exec (.pwrHistClr w) s = .next t) ∧
    (∃ (s t : State) (n : Nat) (w : RegWrite) (b : Nat), b ≠ Reg.clkCsyn0 + 4 * n ∧ b % 4096 ≠ 16 ∧ b % 4096 ≠ 24 ∧ exec (.clkCsynWrite n w) s = .next t) ∧
    (∃ (s t : State) (w : RegWrite) (b : Nat), b ≠ Reg.pwrStandby ∧ b % 4096 ≠ 16 ∧ b % 4096 ≠ 24 ∧ exec (.standbyRequest w) s = .next t) ∧
    (∃ (s t : State) (n : Nat) (w : RegWrite) (b : Nat), b ≠ n ∧ b % 4096 ≠ 16 ∧ b % 4096 ≠ 24 ∧ exec (.hifT2WindowWrite n w) s = .next t) ∧
    (∃ (s t : State) (n : Nat) (w : RegWrite) (b : Nat), b ≠ Reg.cxpCfg + cxpOff n ∧ b % 4096 ≠ 16 ∧ b % 4096 ≠ 24 ∧ exec (.cxpCfgEnWrite n w) s = .next t) ∧
    (∃ (s t : State) (n : Nat) (w : RegWrite) (b : Nat), b ≠ Reg.cxpCtl + cxpOff n ∧ b % 4096 ≠ 16 ∧ b % 4096 ≠ 24 ∧ exec (.resumePort n w) s = .next t) ∧
    (∃ (s t : State) (w : RegWrite) (b : Nat), b ≠ Reg.atcGcfg ∧ b % 4096 ≠ 16 ∧ b % 4096 ≠ 24 ∧ exec (.lockstepWrite w) s = .next t) ∧
    (∃ (s t : State) (w : RegWrite) (b : Nat), b ≠ Reg.glbCalCtl ∧ b % 4096 ≠ 16 ∧ b % 4096 ≠ 24 ∧ exec (.commit w) s = .next t) ∧
    (∃ (s t : State) (w : RegWrite) (b : Nat), b ≠ Reg.glbCalCtl ∧ b % 4096 ≠ 16 ∧ b % 4096 ≠ 24 ∧ exec (.discard w) s = .next t) ∧
    (∃ (s t : State) (w : RegWrite) (b : Nat), b ≠ Reg.glbT3Ctl ∧ b % 4096 ≠ 16 ∧ b % 4096 ≠ 24 ∧ exec (.release w) s = .next t) ∧
    (∃ (s t : State) (w : RegWrite) (b : Nat), b ≠ Reg.peaCtl ∧ b % 4096 ≠ 16 ∧ b % 4096 ≠ 24 ∧ exec (.ckptNow w) s = .next t) ∧
    (∃ (s t : State) (w : RegWrite) (b : Nat), b ≠ Reg.peaCtl ∧ b % 4096 ≠ 16 ∧ b % 4096 ≠ 24 ∧ exec (.format w) s = .next t) ∧
    (∃ (s t : State) (w : RegWrite) (b : Nat), b ≠ Reg.tstHistCtl ∧ b % 4096 ≠ 16 ∧ b % 4096 ≠ 24 ∧ exec (.restore w) s = .next t) ∧
    (∃ (s t : State) (w : RegWrite) (b : Nat), b ≠ Reg.glbRstctl ∧ b % 4096 ≠ 16 ∧ b % 4096 ≠ 24 ∧ exec (.deviceResetRequest w) s = .next t) ∧
    (∃ (s t : State) (n : Nat) (w : RegWrite) (b : Nat), b ≠ domReg n Reg.domRingCfg ∧ b % 4096 ≠ 16 ∧ b % 4096 ≠ 24 ∧ exec (.ringEnable n w) s = .next t) ∧
    (∃ (s t : State) (n : Nat) (w : RegWrite) (b : Nat), b ≠ domReg n Reg.domRingCfg ∧ b % 4096 ≠ 16 ∧ b % 4096 ≠ 24 ∧ exec (.ringDisable n w) s = .next t) :=
  ⟨⟨ready, _, 1, pf0 0, 4, by decide, by decide, by decide, rfl⟩,
   ⟨ready, _, 1, pf0 0, 4, by decide, by decide, by decide, rfl⟩,
   ⟨ready, _, 1, pf0 0, 4, by decide, by decide, by decide, rfl⟩,
   ⟨ready, _, pf0 0, 4, by decide, by decide, by decide, rfl⟩,
   ⟨ready, _, pf0 0, 4, by decide, by decide, by decide, rfl⟩,
   ⟨ready, _, Reg.xltPtrBaseLo, pf0 0, 4, by decide, by decide, by decide, rfl⟩,
   ⟨ready, _, pf0 0, 4, by decide, by decide, by decide, rfl⟩,
   ⟨ready, _, Reg.rbdBaseLo, pf0 0, 4, by decide, by decide, by decide, rfl⟩,
   ⟨ready, _, pf0 0, 4, by decide, by decide, by decide, rfl⟩,
   ⟨ready, _, pf0 0, 4, by decide, by decide, by decide, rfl⟩,
   ⟨ready, _, pf0 0, 4, by decide, by decide, by decide, rfl⟩,
   ⟨ready, _, pf0 0, 4, by decide, by decide, by decide, rfl⟩,
   ⟨ready, _, pf0 0, 4, by decide, by decide, by decide, rfl⟩,
   ⟨ready, _, pf0 0, 4, by decide, by decide, by decide, rfl⟩,
   ⟨ready, _, 1, pf0 0, 4, by decide, by decide, by decide, rfl⟩,
   ⟨ready, _, pf0 0, 4, by decide, by decide, by decide, rfl⟩,
   ⟨ready, _, Reg.hifT2BaseLo, pf0 0, 4, by decide, by decide, by decide, rfl⟩,
   ⟨ready, _, 1, pf0 0, 4, by decide, by decide, by decide, rfl⟩,
   ⟨ready, _, 1, pf0 0, 4, by decide, by decide, by decide, rfl⟩,
   ⟨ready, _, pf0 0, 4, by decide, by decide, by decide, rfl⟩,
   ⟨ready, _, pf0 0, 4, by decide, by decide, by decide, rfl⟩,
   ⟨ready, _, pf0 0, 4, by decide, by decide, by decide, rfl⟩,
   ⟨ready, _, pf0 0, 4, by decide, by decide, by decide, rfl⟩,
   ⟨ready, _, pf0 0, 4, by decide, by decide, by decide, rfl⟩,
   ⟨ready, _, pf0 0, 4, by decide, by decide, by decide, rfl⟩,
   ⟨ready, _, pf0 0, 4, by decide, by decide, by decide, rfl⟩,
   ⟨ready, _, pf0 0, 4, by decide, by decide, by decide, rfl⟩,
   ⟨ready, _, 1, pf0 0, 4, by decide, by decide, by decide, rfl⟩,
   ⟨ready, _, 1, pf0 0, 4, by decide, by decide, by decide, rfl⟩⟩

theorem witness_LinkPowerCommandsChangeTheirPortAlone :
    (∃ (s t : State) (p : Nat) (f : FlitTail), s.linksCalm ∧ exec (.quietReq ⟨p, f⟩) s = .next t) ∧
    (∃ (s t : State) (p : Nat) (f : FlitTail), s.linksCalm ∧ exec (.quietAck ⟨p, f⟩) s = .next t) ∧
    (∃ (s t : State) (p : Nat) (f : FlitTail), s.linksCalm ∧ exec (.resume ⟨p, f⟩) s = .next t) ∧
    (∃ (s t : State) (p : Nat) (f : FlitTail), s.linksCalm ∧ exec (.sleepReq ⟨p, f⟩) s = .next t) ∧
    (∃ (s t : State) (p : Nat) (f : FlitTail), s.linksCalm ∧ exec (.sleepAck ⟨p, f⟩) s = .next t) ∧
    (∃ (s t : State) (p : Nat), s.linksCalm ∧ exec (.quietIdleTimer p) s = .next t) ∧
    (∃ (s t : State) (p : Nat), s.linksCalm ∧ exec (.sleepIdleTimer p) s = .next t) ∧
    (∃ (s t : State) (p : Nat), s.linksCalm ∧ exec (.lctlReqRepeat p) s = .next t) ∧
    (∃ (s t : State) (p : Nat) (g : Option FlitTail), s.linksCalm ∧ exec (.idleAckTimer ⟨p, g⟩) s = .next t) ∧
    (∃ (s t : State) (p : Nat) (e : Nat), s.linksCalm ∧ exec (.flitDiscard p e) s = .next t) ∧
    (∃ (s t : State) (p : Nat) (f : FlitTail), s.linksCalm ∧ exec (.nak p f) s = .next t) ∧
    (∃ (s t : State) (p : Nat), s.linksCalm ∧ exec (.replayTimer p) s = .next t) :=
  ⟨⟨ready, _, 3, { ack := 0 }, by decide, rfl⟩,
   ⟨ready, _, 3, { ack := 0 }, by decide, rfl⟩,
   ⟨ready, _, 3, { ack := 0 }, by decide, rfl⟩,
   ⟨ready, _, 3, { ack := 0 }, by decide, rfl⟩,
   ⟨ready, _, 3, { ack := 0 }, by decide, rfl⟩,
   ⟨ready, _, 3, by decide, rfl⟩,
   ⟨ready, _, 3, by decide, rfl⟩,
   ⟨ready, _, 3, by decide, rfl⟩,
   ⟨ready, _, 3, none, by decide, rfl⟩,
   ⟨ready, _, 3, 0, by decide, rfl⟩,
   ⟨ready, _, 3, { ack := 0 }, by decide, rfl⟩,
   ⟨ready, _, 3, by decide, rfl⟩⟩

theorem witness_RefusedHandlesAreDeniedAlike :
    (∃ (s : State) (q : CmdRef) (c : InFlight),
      s.offersXlt q 0x09 c ∧
      s.findSeq (s.ringDomain q) (u32 c.ops 0) = .error .denied) ∧
    (∃ (s : State) (q : CmdRef) (c : InFlight),
      s.offersXlt q 0x0A c ∧
      s.findSeq (s.ringDomain q) (u32 c.ops 0) = .error .denied ∧
      u32 c.ops 4 % 16 = 0) ∧
    (∃ (s : State) (q : CmdRef) (c : InFlight),
      s.offersXlt q 0x0B c ∧
      s.findSeq (s.ringDomain q) (u32 c.ops 0) = .error .denied) ∧
    (∃ (s : State) (q : CmdRef) (c : InFlight),
      s.offersXlt q 0x0F c ∧
      s.findSeq (s.ringDomain q) (u32 c.ops 0) = .error .denied ∧
      u8 c.ops 4 ≤ 15) ∧
    (∃ (s : State) (q : CmdRef) (c : InFlight),
      s.offersXlt q 0x2A c ∧
      s.findObj (s.ringDomain q) (u32 c.ops 0) = .error .denied) ∧
    (∃ (s : State) (q : CmdRef) (c : InFlight),
      s.offersXlt q 0x2B c ∧
      s.findObj (s.ringDomain q) (u32 c.ops 0) = .error .denied) :=
  ⟨⟨seqd (cmd 9 (leBytes 4 5)) id, q0, cmd 9 (leBytes 4 5), by decide⟩,
   ⟨seqd (cmd 10 (leBytes 4 5)) id, q0, cmd 10 (leBytes 4 5), by decide⟩,
   ⟨seqd (cmd 11 (leBytes 4 5)) id, q0, cmd 11 (leBytes 4 5), by decide⟩,
   ⟨seqd (cmd 15 (leBytes 4 5)) id, q0, cmd 15 (leBytes 4 5), by decide⟩,
   ⟨seqd (cmd 42 (leBytes 4 5)) id, q0, cmd 42 (leBytes 4 5), by decide⟩,
   ⟨seqd (cmd 43 (leBytes 4 5)) id, q0, cmd 43 (leBytes 4 5), by decide⟩⟩

theorem witness_AbsentUnitsAnswerAbsent :
    (∃ (s : State) (q : CmdRef) (c : InFlight) (inp : List Byte),
      s.offersXlt q 0x19 c ∧
      s.glb.variant.hasAttn = false ∧
      inp.length = c.inLen) ∧
    (∃ (s : State) (q : CmdRef) (c : InFlight),
      s.offers q 0x38 c ∧
      s.glb.variant.hasAttn = false ∧
      s.linksCalm) ∧
    (∃ (s : State) (q : CmdRef) (c : InFlight),
      s.offersXlt q 0x08 c ∧
      s.glb.variant.hasAttn = false ∧
      s.xlt.placed = true ∧
      u32 c.ops 4 = 1 ∧
      (s.model? (s.ringDomain q) (u16 c.ops 0)).isSome = true) ∧
    (∃ (s : State) (q : CmdRef) (c : InFlight) (inp : List Byte) (n : Nat) (x : Obj),
      s.offersXlt q 0x29 c ∧
      s.glb.variant.hasFlash = false ∧
      inp.length = c.inLen ∧
      s.findObj (s.ringDomain q) (u32 c.ops 0) = .ok (n, x) ∧
      x.releasing = false ∧
      u8 c.ops 12 = 3 ∧
      inp.length = u32 c.ops 8 * (4096 * 2 ^ x.fc) ∧
      u32 c.ops 4 + u32 c.ops 8 ≤ x.pages ∧
      x.isSealed = false ∧
      (((List.range (u32 c.ops 8)).map (u32 c.ops 4 + ·)).any fun p => x.map.has p) = false) :=
  ⟨⟨{ (hosted (cmd 0x19 [])) with glb := { ready.glb with variant := .c8x4 } }, q0, cmd 0x19 [], [], by decide⟩,
   ⟨{ (hosted (cmd 0x38 [])) with glb := { ready.glb with variant := .c8x4 } }, q0, cmd 0x38 [], by decide⟩,
   ⟨{ (seqd (cmd 8 (leBytes 4 3 ++ leBytes 4 1)) id) with glb := { ready.glb with variant := .c8x4 } }, q0, cmd 8 (leBytes 4 3 ++ leBytes 4 1), by decide⟩,
   ⟨{ { seqd (cmd 0x29 (leBytes 4 (handleOf 1 2) ++ leBytes 4 3 ++ leBytes 4 1 ++ leBytes 1 3) 4096) id with xlt := { (seqd (cmd 0x29 (leBytes 4 (handleOf 1 2) ++ leBytes 4 3 ++ leBytes 4 1 ++ leBytes 1 3) 4096) id).xlt with objs := [(2, { tag := 1, domain := 1, fc := 0, pages := 4, sedge := false })] } } with glb := { ready.glb with variant := .a8x4n } }, q0, cmd 0x29 (leBytes 4 (handleOf 1 2) ++ leBytes 4 3 ++ leBytes 4 1 ++ leBytes 1 3) 4096, List.replicate 4096 7#8, 2, { tag := 1, domain := 1, fc := 0, pages := 4, sedge := false }, by decide, by decide, by rw [List.length_replicate]; rfl, by decide, by decide, by decide, by rw [List.length_replicate]; decide, by decide, by decide, by decide⟩⟩

theorem witness_RefusedRegisterWritesChangeNothing :
    (∃ (s : State) (w : RegWrite) (a : Nat) (p : RegPlace),
      s.glb.phase = .ready ∧
      s.reaches w.origin a = true ∧
      w.be = 15 ∧
      s.allServe ∧
      s.lve.sole = none ∧
      s.linksCalm ∧
      a ∈ [Reg.glbPinmux, Reg.xltPtrBaseLo, Reg.xltPtrBaseHi, Reg.xltPtrSize, Reg.slcStage, Reg.rbdBaseLo, Reg.rbdBaseHi, Reg.peaFmt, Reg.atcSpillPool, Reg.hifT2BaseLo, Reg.hifT2BaseHi, Reg.hifT2Size] ∧
      placeOf a = some p ∧
      s.presentAt p = true ∧
      s.lockedAt p a = true) ∧
    (∃ (s : State) (w : RegWrite) (d : Nat),
      s.glb.phase = .ready ∧
      s.reaches w.origin Reg.slcStage = true ∧
      w.be = 15 ∧
      s.allServe ∧
      s.lve.sole = some d) ∧
    (∃ (s : State) (w : RegWrite),
      s.glb.phase = .ready ∧
      s.reaches w.origin Reg.slcStage = true ∧
      w.be = 15 ∧
      s.allServe ∧
      s.lve.sole = none ∧
      s.lockedAt ⟨8, 0, 0, 0x44⟩ Reg.slcStage = false ∧
      s.auditTakes = false ∧
      16 ≤ bits w.value.toNat 5 0 ∧
      bits w.value.toNat 5 0 ≤ 56 ∧
      s.linesHeld = [] ∧
      s.sdg.queue = []) ∧
    (∃ (s : State) (w : RegWrite),
      s.openTo Reg.slcDomT0Quota w ∧
      ((s.t0Pool < (s.quotaSum - s.slc.quota.getD (s.fld Reg.slcDomSel 11 0) 0 + bits w.value.toNat 15 0) * gib) ∨ (s.conf (s.fld Reg.slcDomSel 11 0) = true ∧ bits w.value.toNat 15 0 = 0))) :=
  ⟨⟨{ ready with regs := ready.regs.set 0x70008 0x80000000#32 }, pf0 20, Reg.slcStage, ⟨8, 0, 0, 0x44⟩, by decide⟩,
   ⟨{ ready with lve := { ready.lve with sole := some 1 } }, pf0 20, 1, by decide⟩,
   ⟨{ ready with aud := fullAud }, pf0 20, by decide⟩,
   ⟨ready, pf0 0xFFFF, by decide⟩⟩

theorem witness_RoutesOfToluoAreItsOwn :
    (∃ (s t : State) (d : Nat) (n : Nat), n ∈ s.pendingSources ∧ (s.route n).en = false ∧ exec (.evcDeliver d) s = .next t) ∧
    (∃ (s : State) (w : RegWrite) (n : Nat),
      s.openTo (routeAddr n) w ∧
      n < 1024 ∧
      (w.origin = .pf0 ∨ w.origin = .jtag) ∧
      (((s.route n).toluo = true ∧ s.route n ≠ readRoute w.value.toNat) ∨ ((s.route n).toluo = false ∧ bit w.value.toNat 30 = true))) ∧
    (∃ (s : State) (w : RegWrite) (n : Nat),
      s.openTo (routeAddr n) w ∧
      n < 1024 ∧
      w.origin = .toluo) :=
  ⟨⟨{ routed with regs := [] }, _, 2048, 600, by decide, by decide, rfl⟩,
   ⟨routed, pf0 0x80050000, 600, by decide⟩,
   ⟨routed, { origin := .toluo, value := 0x80050000#32 }, 600, by decide⟩⟩

theorem witness_ChainedHoldOffServesTheEvenGroup :
    (∃ (s : State) (k : Nat), bit (s.reg (Reg.evcHold + 4 * (2 * k))) 31 = true) ∧
    (∃ (s : State) (w : RegWrite) (k : Nat),
      s.openTo Reg.evcSwset w ∧
      512 ≤ bits w.value.toNat 9 0 ∧
      bits w.value.toNat 9 0 / 32 = 2 * k ∧
      bit (s.reg (Reg.evcHold + 4 * (2 * k))) 31 = true ∧
      s.evc.groups.getD (2 * k) .idle = .idle ∧
      s.fld (Reg.evcHold + 4 * (2 * k + 1)) 15 0 * 65536 + s.fld (Reg.evcHold + 4 * (2 * k)) 15 0 ≠ 0) ∧
    (∃ (s : State) (w : RegWrite) (k : Nat),
      s.openTo Reg.evcSwset w ∧
      512 ≤ bits w.value.toNat 9 0 ∧
      bits w.value.toNat 9 0 / 32 = 2 * k + 1 ∧
      bit (s.reg (Reg.evcHold + 4 * (2 * k))) 31 = true ∧
      s.evc.groups.getD (2 * k + 1) .idle = .idle) ∧
    (∃ (s : State) (w : RegWrite) (k : Nat),
      s.openTo (Reg.evcHold + 4 * (2 * k + 1)) w ∧
      k < 16 ∧
      bit w.value.toNat 31 = true) :=
  ⟨⟨chained, 9, by decide⟩,
   ⟨chained, pf0 600, 9, by decide⟩,
   ⟨chained, pf0 620, 9, by decide⟩,
   ⟨chained, pf0 0x80000004, 15, by decide⟩⟩

theorem witness_MasksStopSourcesNotBits :
    (∃ (s : State) (e : Nat × Nat) (off : Nat), (e.1 + off) % 4096 = 0 ∧ e.2 < 32 ∧ bit (s.reg (e.1 + off + 20)) e.2 = true) ∧
    (∃ (s : State) (e : Nat × Nat) (off : Nat), (e.1 + off) % 4096 = 0 ∧ e.2 < 32 ∧ bit (s.reg (e.1 + off + 28)) e.2 = true) ∧
    (∃ (s : State) (e : Nat × Nat) (off b : Nat) (p : RegPlace), (e.1 + off) % 4096 = 0 ∧ e.2 < 32 ∧ bit (s.reg (e.1 + off + 20)) e.2 = false ∧ placeOf (e.1 + off + 16) = some p ∧ s.glb.variant.hasInst p.block p.inst = true ∧ sourceOf p.block p.inst = some b) ∧
    (∃ (s : State) (e : Nat × Nat) (off b : Nat) (p : RegPlace), (e.1 + off) % 4096 = 0 ∧ e.2 < 32 ∧ bit (s.reg (e.1 + off + 28)) e.2 = false ∧ placeOf (e.1 + off + 24) = some p ∧ s.glb.variant.hasInst p.block p.inst = true ∧ sourceOf p.block p.inst = some b) :=
  ⟨⟨{ ready with regs := [(0x70014, 8#32)] }, Err.slcQuota, 0, by decide⟩,
   ⟨{ ready with regs := [(0x7001C, 8#32)] }, (0x70000, 3), 0, by decide⟩,
   ⟨ready, Err.slcQuota, 0, 12, ⟨8, 0, 0, 16⟩, by decide⟩,
   ⟨ready, (0x70000, 3), 0, 12, ⟨8, 0, 0, 24⟩, by decide⟩⟩

theorem witness_ProbesMatchValidEntriesOfTheirOwn :
    ∃ (s : State) (p : Probe), p.floor = (s.rbdDom p.domain).floor :=
  ⟨ready, { domain := 1, tag := 1, mode := 0, a := 0, b := 0, floor := 0 }, by decide⟩

theorem witness_PackedBlocksEntriesAndFlitsReadBack :
    (∃ data : List Byte, data.length = 4096) ∧
    (∃ e : Entry, e.wf = true) ∧
    (∃ seq ack vc ty n cv cc : Nat, seq < 4096 ∧ ack < 4096 ∧ vc < 4 ∧ ty < 4 ∧ n < 256 ∧ cv < 4 ∧ cc < 1024) :=
  ⟨⟨List.replicate 4096 0#8, List.length_replicate⟩,
   ⟨{ hash := 1#64, check := 2#32, domain := 4095, tag := 65535, lo := 0, hi := 4294967295, bd := 268435455, refs := 65535 }, by decide⟩,
   ⟨4064, 291, 1, 1, 244, 2, 12, by decide⟩⟩

end Sys2Proof.Tests
end

