-- ==== Sys2Proof/Tests/Slice0.lean ====
section
/-! SUPPORT. Tests/Slice0.lean: what `Instr.wf` refuses, one ill-formed operand for each check; the worked examples of the
manual; and single steps whose results the manual gives. -/

namespace Sys2Proof.Tests

open Sys2Proof Sys2Proof.Machine

/-! ### Well-formed commands -/

/-- A message header of zeros. -/
def aHeader : List Byte := List.replicate 32 0#8

/-- A message that the outside can send on port 3. -/
def aMessage : RxMsg := { port := 3, vc := 0, hdr := aHeader, body := [], tagOk := true, lenOk := true, flits := 1 }

theorem test_wf_accepts :
    Instr.wf (.qSubmit aMessage) = true ∧ Instr.wf (.registerWrite 0x40 (pf0 1)) = true
      ∧ Instr.wf (.nop { func := 256, ring := 255, num := 0 }) = true := by decide

theorem test_wf_function : Instr.wf (.functionLevelReset 257) = false := by decide

theorem test_wf_ring_function : Instr.wf (.nop { func := 257, ring := 0, num := 0 }) = false := by decide

theorem test_wf_ring_index : Instr.wf (.nop { func := 0, ring := 256, num := 0 }) = false := by decide

theorem test_wf_doorbell :
    Instr.wf (.sqDoorbell 257 0 0) = false ∧ Instr.wf (.cqDoorbell 0 256 0) = false := by decide

theorem test_wf_byte_enables : Instr.wf (.evcEoi { origin := .pf0, be := 16, value := 0#32 }) = false := by decide

theorem test_wf_write_origin : Instr.wf (.evcEoi { origin := .vf 256, value := 0#32 }) = false := by decide

theorem test_wf_optional_write : Instr.wf (.tstTrig (some { origin := .pf0, be := 16, value := 0#32 })) = false := by decide

theorem test_wf_read_origin :
    Instr.wf (.calRdataRead (.vf 256)) = false ∧ Instr.wf (.lowWordRead (.vf 256) 0 15) = false := by decide

theorem test_wf_read_enables : Instr.wf (.lowWordRead .pf0 0 16) = false := by decide

theorem test_wf_address : Instr.wf (.registerWrite 0x41 (pf0 1)) = false := by decide

theorem test_wf_message_port : Instr.wf (.qSubmit { aMessage with port := 32 }) = false := by decide

theorem test_wf_message_channel : Instr.wf (.qSubmit { aMessage with vc := 4 }) = false := by decide

theorem test_wf_message_header : Instr.wf (.qSubmit { aMessage with hdr := [] }) = false := by decide

theorem test_wf_message_flits : Instr.wf (.qSubmit { aMessage with flits := 0 }) = false := by decide

theorem test_wf_spdm_code : Instr.wf (.keyLoad { session := 1, code := 256, body := [] }) = false := by decide

theorem test_wf_sequence : Instr.wf (.seqRetired (2 ^ 24)) = false := by decide

theorem test_wf_scrubbed_descriptor : Instr.wf (.patrolScrub 0 (.descriptor (2 ^ 24))) = false := by decide

theorem test_wf_layer : Instr.wf (.heldRecordWrite 0 ⟨256, false⟩) = false := by decide

theorem test_wf_head_group : Instr.wf (.unmap 0 0 256 0) = false := by decide

theorem test_wf_domain : Instr.wf (.floorSweep 4096) = false := by decide

theorem test_wf_ring_slot : Instr.wf (.ringSlotFree 16) = false := by decide

theorem test_wf_core : Instr.wf (.coreTakeTask 256) = false := by decide

theorem test_wf_cluster : Instr.wf (.fieldTestDue 16) = false := by decide

theorem test_wf_die : Instr.wf (.csynStepDone 2) = false := by decide

theorem test_wf_island : Instr.wf (.islandDrained 23) = false := by decide

theorem test_wf_port : Instr.wf (.quietReq ⟨32, { ack := 0 }⟩) = false := by decide

theorem test_wf_flit_ack : Instr.wf (.quietReq ⟨0, { ack := 4096 }⟩) = false := by decide

theorem test_wf_flit_credits : Instr.wf (.quietReq ⟨0, { ack := 0, cr := [1024, 0, 0, 0] }⟩) = false := by decide

theorem test_wf_credits : Instr.wf (.trainingDone 0 [] []) = false := by decide

theorem test_wf_lasers :
    Instr.wf (.laserMonitorSample 8 (List.replicate 8 0) []) = false ∧ Instr.wf (.laserMonitorSample 0 [] []) = false := by decide

theorem test_wf_expander_port : Instr.wf (.cxlLinkDown 4) = false := by decide

theorem test_wf_event_group : Instr.wf (.holdoffExpiry 32) = false := by decide

theorem test_wf_event_source : Instr.wf (.evcRouteWrite 1024 (pf0 0)) = false := by decide

/-! ### The manual's worked examples -/

/-- Table 4.8: channels 0 to 31 as BF16 words, none an outlier. -/
def group0 : List (Bf16 × Bool) :=
  ([0x3F80, 0xBF00, 0x3E80, 0xC040, 0x0000, 0x3F24, 0x3E5B, 0x4000, 0xBFA0, 0x3F40, 0xBE00, 0x3FC0, 0xC010, 0x3EC0, 0xBF60,
    0x3D80] ++
   [0x4030, 0xBFE0, 0x3F00, 0xBD80, 0x3F90, 0xBF80, 0x3F60, 0xC020, 0x3E40, 0xBEC0, 0x3FE0, 0xBF40, 0x3EA0, 0x4010, 0xBFC0,
    0x3F70]).map fun n => (BitVec.ofNat 16 n, false)

/-- The example after Table 4.8: the scale, and data bytes 0x0D40 to 0x0D4F. -/
theorem test_int4_group :
    (int4Group group0).1 = 0x3EDB#16
      ∧ packNibbles (int4Group group0).2
        = [0xF2, 0x91, 0x10, 0x50, 0x2D, 0x40, 0x1B, 0x0E, 0xC6, 0x01, 0xE3, 0xA2, 0xF0, 0xE4, 0x51, 0x2C].map (BitVec.ofNat 8) := by
  decide +kernel

/-- The same group in format 0x4, with channel 3 an outlier: the scale falls, channel 16 becomes 7 and channel 3 is 0. -/
theorem test_int4_outlier :
    let g := int4Group (group0.mapIdx fun i p => (p.1, i == 3))
    g.1 = 0x3EC9#16 ∧ g.2[16]? = some 7 ∧ g.2[3]? = some 0 := by decide +kernel

/-- The same example: −3.0 is FP8E4M3 0xC4. -/
theorem test_fp8_outlier : toFp8 true (bf16Val 0xC040#16) = 0xC4#8 := by decide +kernel

/-- The end of that example: a maximum of 3.0 with headroom 1 gives an exponent of −6, and 12.0 gives a minimum of −5. -/
theorem test_fp8_scale : newExp 0x4040#16 1 = -6 ∧ eMin 0x4140#16 = -5 ∧ newExp 0x4140#16 1 = -4 := by decide +kernel

/-- Table 10.2: 96 words take 896 bytes and 48 words take 512. -/
theorem test_packed_length : wireLen 96 = 896 ∧ wireLen 48 = 512 := by decide

/-- The two flits of R230's example: the header of each. -/
theorem test_flit_header :
    flitHeader 0xFE0 0x123 1 1 true false 244 2 12 = 0xFE01235BD2030000
      ∧ flitHeader 0x023 0x123 1 1 false true 112 0 0 = 0x02312355C0000000 := by decide +kernel

/-- Chapter 16's example: where `EVC_ROUTE70` lies. -/
theorem test_route_address : routeAddr 70 = 0x31158 := by decide

/-! ### Single steps -/

/-- The fields of the next state, or nothing. -/
def after {α : Type} (o : Host.Outcome State Fault Refusal) (f : State → α) : Option α :=
  match o with
  | .next t => some (f t)
  | _ => none

/-- Table 2.4: a scratch register holds what is written. -/
theorem test_scratch :
    after (exec (.registerWrite Reg.glbScratch (pf0 0x11223344)) ready) (fun t => t.regs.get? Reg.glbScratch)
      = some (some 0x11223344#32) := by decide +kernel

/-- R27: a write with fewer than four byte enables is ignored. -/
theorem test_byte_enables :
    after (exec (.registerWrite Reg.glbScratch { origin := .pf0, be := 3, value := 0x11223344#32 }) ready)
      (fun t => t.regs.get? Reg.glbScratch) = some none := by decide +kernel

/-- R26: an offset outside every BAR and window. -/
theorem test_no_such_address :
    exec (.registerWrite (domBase + 257 * 0x8000) (pf0 0)) ready = .fault .noSuchAddress := rfl

/-- R360, R363: a software source that nothing holds off is delivered to its vector, and its priority is pushed. -/
theorem test_deliver :
    after (exec (.evcDeliver 40) { routed with regs := routed.regs.set (routeAddr 600) 0x80060028#32, hif := { routed.hif with linkUp := true } })
      (fun t => t.outs) = some [.msix 0 40] := by decide +kernel

/-- An empty queue stays empty while the clock ticks (log entry 71). -/
theorem test_idle : after (step State.reset) (fun t => t.pending) = some [] := by decide +kernel

end Sys2Proof.Tests
end

section
/-! Absent units: what a ring command that is refused posts, and the commands that need a unit which the part lacks. -/

namespace Sys2Proof.Machine

/-! ### What a completion posts (R264) -/

/-- Whether an output is the completion of `c` with a status on the ring of `q`. -/
def Out.isCplOf (q : CmdRef) (c : InFlight) (st : Status) : Out → Bool
  | .cqe f k _ e => f == q.func && k == q.ring && e.cid == c.cid && e.status == st
  | _ => false

/-- A completion given in the course of a command that began in `s` is among what the command has given. -/
theorem State.posts_of_suffix {s u v t : State} {q : CmdRef} {c : InFlight} {st : Status} {o : Out}
    (ht : v.outs <:+ t.outs) (hv : v.outs = o :: u.outs) (hu : s.outs <:+ u.outs) (ho : o.isCplOf q c st = true) :
    s.posts t q c st = true := by
  obtain ⟨l, hl⟩ := ht
  obtain ⟨k, hk⟩ := hu
  have e : t.outs = (l ++ o :: k) ++ s.outs := by simp [← hl, hv, ← hk]
  have hg : s.gives t = l ++ o :: k := by
    rw [State.gives, e, List.length_append, Nat.add_sub_cancel, List.take_left' rfl]
  rw [State.posts, hg]
  exact List.any_eq_true.mpr ⟨o, by simp, ho⟩

/-- The fetched command of a ring that a reference names. -/
def State.inflight? (s : State) (q : CmdRef) : Option InFlight :=
  (s.ring q.func q.ring).inflight.find? fun f => f.num == q.num

theorem State.inflight?_of_startable {s : State} {q : CmdRef} {op : Nat} {c : InFlight} (h : s.startable q op = some c) :
    s.inflight? q = some c := by
  simp only [State.startable] at h
  unfold State.inflight?
  split at h
  · cases h
  · next f hf =>
    rw [hf]
    simpa using (Option.ite_none_left_eq_some.mp h).2

@[simp] theorem State.func_setFunc (s : State) (fn : Nat) (f : Func → Func) : (s.setFunc fn f).func fn = f (s.func fn) := by
  simp [State.func, State.setFunc]

@[simp] theorem State.ring_setRing (s : State) (fn k : Nat) (f : Ring → Ring) : (s.setRing fn k f).ring fn k = f (s.ring fn k) := by
  simp [State.ring, State.setRing]

@[simp] theorem State.domain_markStarted (s : State) (q : CmdRef) : ((s.markStarted q).func q.func).domain = s.ringDomain q := by
  simp [State.markStarted, State.setRing]

theorem find?_updFirst {α : Type} (p : α → Bool) (f : α → α) (hp : ∀ x, p x = true → p (f x) = true) (l : List α) :
    (updFirst p f l).find? p = (l.find? p).map f := by
  induction l with
  | nil => rfl
  | cons x xs ih =>
    by_cases hx : p x = true
    · simp [updFirst, hx, hp x hx]
    · simp [updFirst, hx, ih]

theorem State.inflight?_markStarted (s : State) (q : CmdRef) :
    (s.markStarted q).inflight? q = (s.inflight? q).map fun c => { c with started := true } := by
  simp only [State.inflight?, State.markStarted, State.ring_setRing]
  exact find?_updFirst (fun f : InFlight => f.num == q.num) (fun g => { g with started := true }) (fun _ h => h) _

/-- What was given stays given when a function's message leaves or waits in its pending-bit array. -/
theorem State.outs_suffix_msix (s : State) (fn v : Nat) : s.outs <:+ (s.msix fn v).outs := by
  unfold State.msix
  dsimp only
  split
  · exact List.suffix_rfl
  · exact List.suffix_cons _ _

theorem State.outs_suffix_ringSignal (s : State) (fn k : Nat) : s.outs <:+ (s.ringSignal fn k).outs := by
  rw [State.ringSignal]
  exact State.outs_suffix_msix (s.setRing fn k fun r => { r with unsignalled := 0 }) _ _

/-- A completion that reaches its ring gives its entry, after what was given before (R264). -/
theorem State.postCpl_posts {s : State} {q : CmdRef} {f : InFlight} (c : Cpl) (hf : s.inflight? q = some f)
    (hd : f.discard = false) (hl : s.hif.linkUp = true) : s.posts (s.postCpl q c) q f c.status = true := by
  unfold State.inflight? at hf
  unfold State.postCpl
  extract_lets r s1 s2 s3 size
  have h3 : s3.outs = s.outs := by unfold s3; split <;> rfl
  have hl3 : s3.hif.linkUp = true := by unfold s3; split <;> exact hl
  have h4 (b : Bool) (o : Out) : s.outs <:+ (if b then s3 else s3.emit o).outs := by
    cases b
    · exact h3 ▸ List.suffix_cons _ _
    · exact h3 ▸ List.suffix_rfl
  simp only [r, hf, hd, hl3, Bool.not_true, Bool.or_false, Bool.false_eq_true, if_false]
  split
  · exact State.posts_of_suffix (State.outs_suffix_ringSignal _ _ _) rfl (h4 _ _) (by simp [Out.isCplOf])
  · exact State.posts_of_suffix List.suffix_rfl rfl (h4 _ _) (by simp [Out.isCplOf])

/-- A completion with a code that does not wait is posted at once (R264, R321). -/
theorem State.complete_posts {s : State} {q : CmdRef} {f : InFlight} (c : Cpl) (hf : s.inflight? q = some f)
    (hd : f.discard = false) (hl : s.hif.linkUp = true) (hs : c.status ≠ .stale) (hn : c.status ≠ .denied) :
    s.posts (s.complete (.ring q) c) q f c.status = true := by
  have e : s.completeNow (.ring q) c = s.postCpl q c := by simp [State.completeNow, State.deliverCpl, hs, hn]
  have h := State.postCpl_posts c hf hd hl
  rw [← e] at h
  exact h

/-! ### Commands that begin (R267) -/

/-- A ring command that can start runs on its operands in its function's domain. -/
theorem State.runCmd_of_startable {s : State} {q : CmdRef} {op : Nat} {c : InFlight} (h : s.startable q op = some c)
    (f : State → Requester → Nat → List Byte → State) :
    s.runCmd q op f = f (s.markStarted q) (.ring q) (s.ringDomain q) c.ops := by
  simp [State.runCmd, h]

/-- A ring command that can start and whose input has been read whole runs on its input. -/
theorem State.runCmdIn_of_startable {s : State} {q : CmdRef} {op : Nat} {c : InFlight} (h : s.startable q op = some c)
    (inp : List Byte) (hi : inp.length = c.inLen) (f : State → Requester → Nat → List Byte → List Byte → State) :
    s.runCmdIn q op (.bytes inp) f = f (s.markStarted q) (.ring q) (s.ringDomain q) c.ops inp := by
  simp only [State.runCmdIn, h, hi, if_true]
  exact State.runCmd_of_startable h _

/-- A unit that serves lets a command that has just begun through. -/
theorem State.gate_markStarted {s : State} {u : PrivUnit} (h : s.serves u = true) (q : CmdRef) (r : Requester)
    (c : Status → Cpl) (f : State → State) : (s.markStarted q).gate u r c f = f (s.markStarted q) := by
  have e : (s.markStarted q).unit3 u = s.unit3 u := by cases u <;> rfl
  simp only [State.serves, Bool.and_eq_true, Bool.not_eq_true', Option.isNone_iff_eq_none] at h
  simp [State.gate, e, h.1, h.2]

/-- A command that has begun and completes with a code that does not wait has its completion posted, where the state it
completes in holds the same rings and has given nothing yet. -/
theorem State.complete_posts_of_offers {s u : State} {q : CmdRef} {op : Nat} {c : InFlight} (h : s.offers q op c) (cpl : Cpl)
    (hh : u.hif = (s.markStarted q).hif) (ho : u.outs = s.outs) (hs : cpl.status ≠ .stale) (hn : cpl.status ≠ .denied) :
    s.posts (u.complete (.ring q) cpl) q c cpl.status = true := by
  obtain ⟨hst, hd, hl⟩ := h
  have hf : u.inflight? q = some { c with started := true } := by
    have e : u.inflight? q = (s.markStarted q).inflight? q := by
      simp only [State.inflight?, State.ring, State.func, hh]
    rw [e, State.inflight?_markStarted, State.inflight?_of_startable hst]
    rfl
  have hp := State.complete_posts cpl hf hd (hh ▸ hl) hs hn
  unfold State.posts State.gives at hp ⊢
  rwa [ho] at hp

/-! ### Parts without the unit (R2, R6) -/

/-- A query of a part without attention cores is refused with `E_ABSENT` and its result record (R2). -/
theorem State.queryArrives_absent {s : State} (h : s.glb.variant.hasAttn = false) (r : Requester) (d : Nat) (b : List Byte)
    (n : Nat) : s.queryArrives r d b n
      = s.complete r { status := .absent, out := resultRecord (readQuery b) .absent false false [] } := by
  simp [State.queryArrives, State.refuseQuery, State.countResult, h]

theorem State.ringJoin_absent {s : State} (h : s.glb.variant.hasAttn = false) (r : Requester) (d : Nat) (o : List Byte) :
    s.ringJoin r d o = s.fail r .absent := by
  simp [State.ringJoin, h]

/-- `SEQ_CREATE` with `DETERM` of a registered model, on a part without attention cores (R3). -/
theorem State.seqCreate_absent {s : State} (h : s.glb.variant.hasAttn = false) (hp : s.xlt.placed = true) (r : Requester)
    (d : Nat) (o : List Byte) (hf : u32 o 4 = 1) (hm : (s.model? d (u16 o 0)).isSome = true) :
    s.seqCreate r d o = s.fail r .absent := by
  have hm' : s.model? d (u16 o 0) ≠ none := Option.isSome_iff_ne_none.mp hm
  simp [State.seqCreate, h, hp, hf, hm']

/-- An `OBJ_WRITE` into T3 that nothing else refuses, on a part without Peat (R6). -/
theorem State.objWrite_absent {s : State} (h : s.glb.variant.hasFlash = false) (r : Requester) (d : Nat) (o inp : List Byte)
    (n : Nat) (x : Obj) (go : Bool) (hx : x.releasing = false) (ht : u8 o 12 = 3)
    (hi : inp.length = u32 o 8 * (4096 * 2 ^ x.fc)) (hb : u32 o 4 + u32 o 8 ≤ x.pages) (hs : x.isSealed = false)
    (hm : (((List.range (u32 o 8)).map (u32 o 4 + ·)).any fun p => x.map.has p) = false) :
    s.objWrite r d o inp n x go = s.fail r .absent := by
  have hb' : ¬ x.pages < u32 o 4 + u32 o 8 := by omega
  simp only [State.objWrite, hx, ht, hi, hb', hs, hm, h]
  simp

/-! ### A completion on a ring and Causeway -/

theorem State.msix_cwy (s : State) (fn v : Nat) : (s.msix fn v).cwy = s.cwy := by
  simp only [State.msix]
  split <;> rfl

theorem State.postCpl_cwy (s : State) (q : CmdRef) (c : Cpl) : (s.postCpl q c).cwy = s.cwy := by
  simp only [State.postCpl]
  split
  · rfl
  · simp only [apply_ite State.cwy, State.ringSignal, State.msix_cwy, State.setRing_cwy, State.emit_cwy, State.bump_cwy, ite_self]

/-- A completion on a ring leaves Causeway alone. -/
theorem State.complete_ring_cwy (s : State) (q : CmdRef) (c : Cpl) : (s.complete (.ring q) c).cwy = s.cwy := by
  change (s.completeNow (.ring q) c).cwy = s.cwy
  simp only [State.completeNow, State.deliverCpl, apply_ite State.cwy, State.postCpl_cwy, State.bump_cwy, ite_self]

/-- Calm links stay calm where Causeway, the sequences and the steps stand. -/
theorem State.linksCalm_of_eq {s t : State} (h : s.linksCalm) (hc : t.cwy = s.cwy) (hx : t.xlt = s.xlt) (ha : t.att = s.att) :
    t.linksCalm := by
  unfold State.linksCalm State.noRings State.portsCalm State.portsSee State.port at h ⊢
  rwa [hc, hx, ha]

/-- `ATTEND` on a part without attention cores is refused (R2). -/
theorem attend_absent {s : State} {q : CmdRef} {c : InFlight} {inp : List Byte} (h : s.offersXlt q 0x19 c)
    (hv : s.glb.variant.hasAttn = false) (hi : inp.length = c.inLen) :
    exec (.attend q (.bytes inp)) s = .next (s.afterIn .engine ((s.markStarted q).complete (.ring q)
      { status := .absent, out := resultRecord (readQuery inp) .absent false false [] })) := by
  change execAttend q (.bytes inp) s = _
  rw [execAttend, State.runCmdIn_of_startable h.1.1 inp hi]
  dsimp only
  rw [State.gate_markStarted h.2, State.queryArrives_absent (s := s.markStarted q) hv]

/-- `RING_JOIN` on a part without attention cores is refused, and nothing follows while the links are calm (R2). -/
theorem ringJoin_absent {s : State} {q : CmdRef} {c : InFlight} (h : s.offers q 0x38 c)
    (hv : s.glb.variant.hasAttn = false) (hc : s.linksCalm) :
    exec (.ringJoin q) s = .next (s.afterIn .link ((s.markStarted q).fail (.ring q) .absent)) := by
  change execRingJoin q s = _
  rw [execRingJoin, State.runCmd_of_startable h.1, State.ringJoin_absent (s := s.markStarted q) hv, State.afterLink]
  have hw : ((s.markStarted q).fail (.ring q) .absent).cwy = s.cwy := State.complete_ring_cwy _ _ _
  rw [State.cwyFollow_calm s _ (State.linksCalm_of_eq hc hw rfl rfl) (by rw [hw])]

/-- `SEQ_CREATE` with `DETERM` on a part without attention cores is refused (R3). -/
theorem seqCreate_absent {s : State} {q : CmdRef} {c : InFlight} (h : s.offersXlt q 0x08 c)
    (hv : s.glb.variant.hasAttn = false) (hp : s.xlt.placed = true) (hf : u32 c.ops 4 = 1)
    (hm : (s.model? (s.ringDomain q) (u16 c.ops 0)).isSome = true) :
    exec (.seqCreate q) s = .next (s.afterIn .command ((s.markStarted q).fail (.ring q) .absent)) := by
  change execSeqCreate q s = _
  rw [execSeqCreate, State.runCmd_of_startable h.1.1, State.gate_markStarted h.2,
    State.seqCreate_absent (s := s.markStarted q) hv hp _ _ _ hf hm]

/-- An `OBJ_WRITE` into T3 on a part without Peat is refused, where nothing else refuses it first (R6). -/
theorem objWrite_absent {s : State} {q : CmdRef} {c : InFlight} {inp : List Byte} {n : Nat} {x : Obj} (h : s.offersXlt q 0x29 c)
    (hv : s.glb.variant.hasFlash = false) (hi : inp.length = c.inLen)
    (ho : s.findObj (s.ringDomain q) (u32 c.ops 0) = .ok (n, x)) (hx : x.releasing = false) (ht : u8 c.ops 12 = 3)
    (hl : inp.length = u32 c.ops 8 * (4096 * 2 ^ x.fc)) (hb : u32 c.ops 4 + u32 c.ops 8 ≤ x.pages) (hs : x.isSealed = false)
    (hm : (((List.range (u32 c.ops 8)).map (u32 c.ops 4 + ·)).any fun p => x.map.has p) = false) :
    exec (.objWrite q (.bytes inp)) s = .next (s.afterMemIn .store ((s.markStarted q).fail (.ring q) .absent)) := by
  change execObjWrite q (.bytes inp) s = _
  have ho' : (s.markStarted q).findObj (s.ringDomain q) (u32 c.ops 0) = .ok (n, x) := ho
  rw [execObjWrite, State.runCmdIn_of_startable h.1.1 inp hi, State.gate_markStarted h.2, State.onObj, ho']
  dsimp only
  rw [State.objWrite_absent (s := s.markStarted q) hv _ _ _ _ _ _ _ hx ht hl hb hs hm]

/-- Settles O54: each of the four commands is refused before it waits for anything, and its completion is posted at once. -/
theorem absentUnitsAnswerAbsent : Obligations.AbsentUnitsAnswerAbsent := by
  refine ⟨?_, ?_, ?_, ?_⟩
  · intro s q c inp h hv hi
    exact ⟨_, attend_absent h hv hi, State.complete_posts_of_offers h.1 _ rfl rfl (by simp) (by simp), rfl⟩
  · intro s q c h hv hc
    exact ⟨_, ringJoin_absent h hv hc, State.complete_posts_of_offers h _ rfl rfl (by simp) (by simp),
      (congrArg Cwy.slots (State.complete_ring_cwy _ _ _)).trans hc.1.1⟩
  · intro s q c h hv hp hf hm
    exact ⟨_, seqCreate_absent h hv hp hf hm, State.complete_posts_of_offers h.1 _ rfl rfl (by simp) (by simp), rfl⟩
  · intro s q c inp n x h hv hi ho hx ht hl hb hs hm
    exact ⟨_, objWrite_absent h hv hi ho hx ht hl hb hs hm,
      State.complete_posts_of_offers h.1 _ rfl rfl (by simp) (by simp), rfl⟩

end Sys2Proof.Machine
end

section
/-! The frame of a register: what a write of it may not change among the stored registers, and the operations that leave every
such frame as it is. Each operation has one lemma, in the order of the definitions of the model. -/

namespace Sys2Proof.Machine

/-- What a write of register `a` may not change, from the stored registers and the variant: the stored word of every other
register but the `PG_ERR` and the `PG_EVT` of a page, and the variant, which a reset value follows. -/
def frameAround (a : Nat) (regs : Assoc Nat Word) (v : Variant) : (Nat → Option Word) × Variant :=
  (fun b => if b = a ∨ b % 4096 = 16 ∨ b % 4096 = 24 then none else regs.get? b, v)

/-- The frame of register `a` in a state. -/
def State.frameOf (s : State) (a : Nat) : (Nat → Option Word) × Variant := frameAround a s.regs s.glb.variant

/-- Equal frames give equal values of every register in the frame. -/
theorem State.reg_eq_of_frameOf {s t : State} {a b : Nat} (h : t.frameOf a = s.frameOf a) (ha : b ≠ a) (he : b % 4096 ≠ 16)
    (hv : b % 4096 ≠ 24) : t.reg b = s.reg b := by
  have hr : t.regs.get? b = s.regs.get? b := by
    have := congrFun (congrArg Prod.fst h) b
    simpa [State.frameOf, frameAround, ha, he, hv] using this
  have hg : t.glb.variant = s.glb.variant := congrArg Prod.snd h
  simp only [State.reg, hr, hg]

/-- A register outside the frame of `a` can be set: `a` itself, and a `PG_ERR` or a `PG_EVT`. -/
theorem State.setReg_frameOf {s : State} {a b : Nat} (v : Nat) (hb : b = a ∨ b % 4096 = 16 ∨ b % 4096 = 24) :
    (s.setReg b v).frameOf a = s.frameOf a := by
  refine Prod.ext (funext fun c => ?_) rfl
  by_cases hc : c = a ∨ c % 4096 = 16 ∨ c % 4096 = 24
  · simp [State.frameOf, frameAround, hc]
  · have hcb : c ≠ b := by rintro rfl; exact hc hb
    simp [State.frameOf, frameAround, hc, State.setReg, Assoc.get?_set_other _ _ _ _ hcb]

/-- Taking some parts of a state whose frame is the same keeps the frame. -/
theorem State.only_frameOf {s t : State} {a : Nat} (c : Scope) (h : t.frameOf a = s.frameOf a) :
    (s.only c t).frameOf a = s.frameOf a := by
  refine Prod.ext ?_ ?_
  · cases hr : c.regs
    · simp [State.frameOf, frameAround, State.only, hr]
    · have h1 := congrArg Prod.fst h
      simpa [State.frameOf, frameAround, State.only, hr] using h1
  · cases hg : c.glb
    · simp [State.frameOf, frameAround, State.only, hg]
    · have h2 := congrArg Prod.snd h
      simpa [State.frameOf, frameAround, State.only, hg] using h2

theorem State.afterIn_frameOf {s t : State} {a : Nat} (c : Scope) (h : t.frameOf a = s.frameOf a) :
    (s.afterIn c t).frameOf a = s.frameOf a := State.only_frameOf c h

/-! ### Simplification: a record update that leaves the registers and `GLB` leaves every frame -/

variable (s t : State) (a : Nat)

@[simp ↓] theorem frameAround_self : frameAround a s.regs s.glb.variant = s.frameOf a := (rfl)

@[simp ↓] theorem frameOf_mk (pending now mem regs ctrs latches outs fresh glb xlt slc att pwr hif mgmt flt evc lve aud cwy rbd pea sdg) :
    (State.mk pending now mem regs ctrs latches outs fresh glb xlt slc att pwr hif mgmt flt evc lve aud cwy rbd pea sdg).frameOf a
      = frameAround a regs glb.variant := (rfl)

@[simp] theorem frameOf_ite (c : Prop) [Decidable c] : (if c then s else t).frameOf a = if c then s.frameOf a else t.frameOf a :=
  apply_ite (State.frameOf · a) c s t

@[simp] theorem State.setErr_frameOf (e : Nat × Nat) (off : Nat) (he : e.1 % 4096 = 0) (ho : off % 4096 = 0) :
    (s.setErr e off).frameOf a = s.frameOf a := State.setReg_frameOf _ (by omega)

@[simp] theorem State.setEvt_frameOf (e : Nat × Nat) (off : Nat) (he : e.1 % 4096 = 0) (ho : off % 4096 = 0) :
    (s.setEvt e off).frameOf a = s.frameOf a := State.setReg_frameOf _ (by omega)

@[simp] theorem State.forEach_frameOf {α : Type} (l : List α) (f : α → State → State)
    (h : ∀ x t, (f x t).frameOf a = t.frameOf a) : (s.forEach l f).frameOf a = s.frameOf a := by
  induction l generalizing s with
  | nil => rfl
  | cons x xs ih => exact (ih (f x s)).trans (h x s)

@[simp] theorem State.bump_frameOf (c n : Nat) : (s.bump c n).frameOf a = s.frameOf a := (rfl)
@[simp] theorem State.emit_frameOf (o : Out) : (s.emit o).frameOf a = s.frameOf a := (rfl)

@[simp] theorem State.bumpD_frameOf (d c n : Nat) : (s.bumpD d c n).frameOf a = s.frameOf a := by
  simp [State.bumpD]

/-! ### Causeway -/

@[simp] theorem cwyOff_mod (p : Nat) : cwyOff p % 4096 = 0 := by unfold cwyOff; omega

@[simp] theorem State.setPort_frameOf (p : Nat) (f : Port → Port) : (s.setPort p f).frameOf a = s.frameOf a := (rfl)
@[simp] theorem State.setSess_frameOf (i : Nat) (f : Session → Session) : (s.setSess i f).frameOf a = s.frameOf a := (rfl)
@[simp] theorem State.setSlot_frameOf (k : Nat) (f : RingSlot → RingSlot) : (s.setSlot k f).frameOf a = s.frameOf a := (rfl)
@[simp] theorem State.linkFlit_frameOf (p k v : Nat) : (s.linkFlit p k v).frameOf a = s.frameOf a := (rfl)

@[simp] theorem State.pump_frameOf (p : Nat) : (s.pump p).frameOf a = s.frameOf a := by
  simp [State.pump]

@[simp] theorem State.startRetrain_frameOf (p : Nat) (w : Bool) : (s.startRetrain p w).frameOf a = s.frameOf a := by
  simp +decide [State.startRetrain]

@[simp] theorem State.portSend_frameOf (p v l : Nat) : (s.portSend p v l).frameOf a = s.frameOf a := by
  simp [State.portSend]

@[simp] theorem State.sendPlain_frameOf (p : Nat) (m : TxMsg) : (s.sendPlain p m).frameOf a = s.frameOf a := by
  simp [State.sendPlain]

@[simp] theorem State.transmit_frameOf (i p n : Nat) (r : Bool) (m : TxMsg) : (s.transmit i p n r m).frameOf a = s.frameOf a := by
  unfold State.transmit
  split
  · rfl
  · simp

@[simp] theorem State.cwySend_frameOf (i w : Nat) (m : TxMsg) : (s.cwySend i w m).frameOf a = s.frameOf a := by
  unfold State.cwySend
  split
  · rfl
  · split <;> simp

/-- The recursion of `State.drainSendq`, with the functions that it calls left open: an equation of `State.drainSendq` itself
makes the kernel compare sums with the numbers of those functions, of the size of 2^32, one by one. -/
def State.drainWith (next : State → Session → Nat → TxMsg → Option Nat) (num : Nat → Nat)
    (send : State → Nat → Nat → Nat → Bool → TxMsg → State) (s : State) (i : Nat) : Nat → State
  | 0 => s
  | n + 1 =>
    match s.cwy.sessions.get? i with
    | none => s
    | some x =>
      match x.sendq with
      | [] => s
      | (want, m) :: rest =>
        match next s x want m with
        | none => s
        | some p =>
          let msn := num x.txMsn
          let s := s.setSess i fun x => { x with
            sendq := rest, txMsn := msn, copies := x.copies ++ [{ msn := msn, port := p, msg := m }] }
          State.drainWith next num send (send s i p msn false m) i n

theorem State.drainSendq_eq_drainWith :
    State.drainSendq = State.drainWith State.sendNow nextMsn State.transmit := by
  delta State.drainSendq State.drainWith
  rfl

theorem State.drainWith_frameOf (next : State → Session → Nat → TxMsg → Option Nat) (num : Nat → Nat)
    (send : State → Nat → Nat → Nat → Bool → TxMsg → State)
    (h : ∀ t i p n r m, (send t i p n r m).frameOf a = t.frameOf a) (i n : Nat) :
    (State.drainWith next num send s i n).frameOf a = s.frameOf a := by
  induction n generalizing s with
  | zero => rfl
  | succ n ih =>
    unfold State.drainWith
    split
    · rfl
    · split
      · rfl
      · split
        · rfl
        · simp [ih, h]

@[simp] theorem State.drainSendq_frameOf (i n : Nat) : (s.drainSendq i n).frameOf a = s.frameOf a := by
  rw [State.drainSendq_eq_drainWith]
  exact s.drainWith_frameOf a _ _ _ (fun t i p n r m => t.transmit_frameOf a i p n r m) i n

@[simp] theorem State.drainAll_frameOf : s.drainAll.frameOf a = s.frameOf a := by
  simp [State.drainAll]

@[simp] theorem State.slotLosesSession_frameOf (i : Nat) : (s.slotLosesSession i).frameOf a = s.frameOf a := by
  simp +decide [State.slotLosesSession]

@[simp] theorem State.freeSession_frameOf (i : Nat) : (s.freeSession i).frameOf a = s.frameOf a := by
  unfold State.freeSession
  split
  · rfl
  · simp +decide

@[simp] theorem State.detachClose_frameOf (i : Nat) : (s.detachClose i).frameOf a = s.frameOf a := by
  unfold State.detachClose
  split
  · split <;> simp
  · rfl

@[simp] theorem State.detachStep_frameOf (i : Nat) : (s.detachStep i).frameOf a = s.frameOf a := by
  unfold State.detachStep
  split
  · split <;> simp
  · rfl

@[simp] theorem State.sendReply_frameOf (i : Option Nat) (p : Nat) (m : TxMsg) (c : Status) :
    (s.sendReply i p m c).frameOf a = s.frameOf a := by
  cases i <;> simp [State.sendReply]

@[simp] theorem State.replyOr_frameOf (i : Option Nat) (p : Nat) (m : TxMsg) (c : Status) :
    (s.replyOr i p m c).frameOf a = s.frameOf a := by
  simp [State.replyOr]

@[simp] theorem State.answer_frameOf (i p n ty : Nat) (r : Bool) (l h x : Nat) (c : Cpl) :
    (s.answer i p n ty r l h x c).frameOf a = s.frameOf a := by
  simp [State.answer]

/-! ### Rings and completions -/

@[simp] theorem State.setFunc_frameOf (n : Nat) (f : Func → Func) : (s.setFunc n f).frameOf a = s.frameOf a := (rfl)
@[simp] theorem State.setRing_frameOf (n k : Nat) (f : Ring → Ring) : (s.setRing n k f).frameOf a = s.frameOf a := (rfl)

@[simp] theorem State.msix_frameOf (n v : Nat) : (s.msix n v).frameOf a = s.frameOf a := by
  simp [State.msix]

@[simp] theorem State.ringSignal_frameOf (n k : Nat) : (s.ringSignal n k).frameOf a = s.frameOf a := by
  simp [State.ringSignal]

@[simp] theorem State.postCpl_frameOf (q : CmdRef) (c : Cpl) : (s.postCpl q c).frameOf a = s.frameOf a := by
  simp only [State.postCpl]
  split
  · rfl
  · simp

@[simp] theorem State.spdmOut_frameOf (n : Nat) (v : Option CmdRef) (l : List Byte) : (s.spdmOut n v l).frameOf a = s.frameOf a := by
  cases v <;> simp [State.spdmOut]

@[simp] theorem State.deliverCpl_frameOf (r : Requester) (c : Cpl) : (s.deliverCpl r c).frameOf a = s.frameOf a := by
  cases r <;> simp [State.deliverCpl]

@[simp] theorem State.completeNow_frameOf (r : Requester) (c : Cpl) : (s.completeNow r c).frameOf a = s.frameOf a := by
  cases r <;> simp [State.completeNow]

@[simp] theorem State.complete_frameOf (r : Requester) (c : Cpl) : (s.complete r c).frameOf a = s.frameOf a :=
  State.only_frameOf _ (s.completeNow_frameOf a r c)

@[simp] theorem State.fail_frameOf (r : Requester) (c : Status) : (s.fail r c).frameOf a = s.frameOf a :=
  s.complete_frameOf a r _

end Sys2Proof.Machine
end

section
/-! The frame of a register through the frames, the index and the placements: what an abandonment of capacity can reach leaves
every register but the error and event bits of pages. -/

namespace Sys2Proof.Machine

variable (s t : State) (a : Nat)

/-! ### Tables, extents and frames -/

@[simp] theorem State.setSeq_frameOf (i : Nat) (f : Seq → Seq) : (s.setSeq i f).frameOf a = s.frameOf a := (rfl)
@[simp] theorem State.setBd_frameOf (b : Nat) (f : Bd → Bd) : (s.setBd b f).frameOf a = s.frameOf a := (rfl)
@[simp] theorem State.setObj_frameOf (n : Nat) (f : Obj → Obj) : (s.setObj n f).frameOf a = s.frameOf a := (rfl)
@[simp] theorem State.take_frameOf (h : Home) (b d : Nat) : (s.take h b d).frameOf a = s.frameOf a := (rfl)

@[simp] theorem State.t0LowFrom_frameOf : (s.t0LowFrom t).frameOf a = t.frameOf a := by
  simp +decide [State.t0LowFrom]

/-- An extent that is found is recorded, and its record leaves every frame. -/
theorem State.alloc_frameOf {s : State} {d tier bytes : Nat} {m : Bool} {r : Home × State}
    (h : s.alloc d tier bytes m = some r) : r.2.frameOf a = s.frameOf a := by
  unfold State.alloc at h
  split at h
  · split at h
    · obtain ⟨x, hx, rfl⟩ := Option.map_eq_some_iff.mp h
      unfold State.allocMeta at hx
      split at hx
      · cases hx
      · obtain ⟨b, _, rfl⟩ := Option.map_eq_some_iff.mp hx
        simp +decide
    · unfold State.allocT0 at h
      split at h
      · cases h
      · obtain ⟨b, _, rfl⟩ := Option.map_eq_some_iff.mp h
        simp
  · obtain ⟨p, _, hp⟩ := List.exists_of_findSome?_eq_some h
    split at hp
    · cases hp
    · obtain ⟨b, _, rfl⟩ := Option.map_eq_some_iff.mp hp
      rfl
  · obtain ⟨b, _, rfl⟩ := Option.map_eq_some_iff.mp h
    rfl
  · unfold State.allocT3 at h
    split at h
    · cases h
    · obtain ⟨b, _, rfl⟩ := Option.map_eq_some_iff.mp h
      rfl

@[simp] theorem State.freeExt_frameOf (h : Home) : (s.freeExt h).frameOf a = s.frameOf a := by
  unfold State.freeExt
  split
  · rfl
  · simp

@[simp] theorem State.setFrame_frameOf (f : FrameId) (u : FrameInfo → FrameInfo) : (s.setFrame f u).frameOf a = s.frameOf a := by
  unfold State.setFrame
  split
  · rfl
  · cases f <;> rfl

@[simp] theorem State.freeFrame_frameOf (f : FrameId) (h : Home) : (s.freeFrame f h).frameOf a = s.frameOf a := by
  simp [State.freeFrame]

@[simp] theorem State.freeMeta_frameOf (f : FrameId) : (s.freeMeta f).frameOf a = s.frameOf a := by
  unfold State.freeMeta
  split
  · rfl
  · simp

@[simp] theorem State.freeBdTables_frameOf : s.freeBdTables.frameOf a = s.frameOf a := by
  simp [State.freeBdTables]

@[simp] theorem State.awaits_frameOf (w : Wait) : (s.awaits w).frameOf a = s.frameOf a := by
  simp [State.awaits]

@[simp] theorem State.sweepBd_frameOf (b : Nat) : (s.sweepBd b).frameOf a = s.frameOf a := by
  unfold State.sweepBd
  split
  · rfl
  · simp

/-! ### Reedbed -/

@[simp] theorem State.setRow_frameOf (n : Nat) (r : Assoc Nat Entry) : (s.setRow n r).frameOf a = s.frameOf a := (rfl)
@[simp] theorem State.setRbdDom_frameOf (d : Nat) (f : RbdDom → RbdDom) : (s.setRbdDom d f).frameOf a = s.frameOf a := (rfl)
@[simp] theorem State.startResolve_frameOf (d l : List Nat) : (s.startResolve d l).frameOf a = s.frameOf a := (rfl)

@[simp] theorem State.restoreNow_frameOf (n : Nat) : (s.restoreNow n).frameOf a = s.frameOf a := by
  simp [State.restoreNow]

@[simp] theorem State.noteRow_frameOf (n : Nat) : (s.noteRow n).frameOf a = s.frameOf a := by
  simp [State.noteRow]

@[simp] theorem State.modEntry_frameOf (n b : Nat) (f : Entry → Entry) : (s.modEntry n b f).frameOf a = s.frameOf a := by
  simp only [State.modEntry]
  split <;> simp

@[simp] theorem State.recordBreak_frameOf (b : Break) : (s.recordBreak b).frameOf a = s.frameOf a := by
  simp +decide [State.recordBreak]

@[simp] theorem State.noEntry_frameOf (h : Handoff) (b c : Nat) : (s.noEntry h b c).frameOf a = s.frameOf a := by
  have ho : h.seq % 2 * 0x8000 % 4096 = 0 := by omega
  simp +decide [State.noEntry, ho]

@[simp] theorem State.rbdInsert_frameOf (h : Handoff) : (s.rbdInsert h).frameOf a = s.frameOf a := by
  unfold State.rbdInsert
  split
  · rfl
  · extract_lets d st pred lo hi n eq s1 e x before s2 s3 s4 s5
    have h3 : s3.frameOf a = s.frameOf a := by simp [s3, s2, s1]
    have h4 : s4.frameOf a = s3.frameOf a := by
      unfold s4
      split <;> simp
    have h5 : s5.frameOf a = s.frameOf a := h4.trans h3
    split
    · simp
    · simp +decide [h5]

@[simp] theorem State.arrivedFirst_frameOf (d : Nat) : (s.arrivedFirst d).frameOf a = s.frameOf a := by
  simp [State.arrivedFirst]

@[simp] theorem State.withdraw_frameOf (n b : Nat) : (s.withdraw n b).frameOf a = s.frameOf a := by
  simp only [State.withdraw]
  split <;> simp

@[simp] theorem State.withdrawBlock_frameOf (b : Nat) : (s.withdrawBlock b).frameOf a = s.frameOf a := by
  unfold State.withdrawBlock
  split <;> simp

@[simp] theorem State.withdrawPoison_frameOf (b : Nat) : (s.withdrawPoison b).frameOf a = s.frameOf a := by
  unfold State.withdrawPoison
  split <;> simp

@[simp] theorem State.raisePoison_frameOf (f : FrameId) : (s.raisePoison f).frameOf a = s.frameOf a := by
  cases f <;> simp [State.raisePoison]

/-! ### Moves and placements -/

@[simp] theorem State.dropLines_frameOf (d : Nat) (l : List Nat) : (s.dropLines d l).frameOf a = s.frameOf a := by
  simp [State.dropLines]

@[simp] theorem State.modPlace_frameOf (n : Nat) (f : Placement → Placement) : (s.modPlace n f).frameOf a = s.frameOf a := (rfl)
@[simp] theorem State.modMove_frameOf (n : Nat) (f : Move → Move) : (s.modMove n f).frameOf a = s.frameOf a := (rfl)
@[simp] theorem State.newTicket_frameOf (d : Nat) : (s.newTicket d).2.frameOf a = s.frameOf a := (rfl)
@[simp] theorem State.enqueue_frameOf (i : Item) : (s.enqueue i).frameOf a = s.frameOf a := (rfl)
@[simp] theorem State.dropBlocks_frameOf (p : SdgBlock → Bool) : (s.dropBlocks p).frameOf a = s.frameOf a := (rfl)

@[simp] theorem State.endReqs_frameOf (l : List Nat) (e : ReqEnd) : (s.endReqs l e).frameOf a = s.frameOf a := by
  simp only [State.endReqs]
  split
  · rw [State.forEach_frameOf]
    · rfl
    · intro n t
      split <;> simp +decide
  · rfl

@[simp] theorem State.endWaiters_frameOf (d k : Nat) (c : Status) (n : Nat) : (s.endWaiters d k c n).frameOf a = s.frameOf a := by
  simp [State.endWaiters]

/-- A move that is accepted leaves every frame. -/
theorem State.startMove_frameOf {s t : State} {f : FrameId} {i : FrameInfo} {p e : Bool} {n : Nat} {l : List Nat} {k : Option Nat}
    {h : Option Home} (hs : s.startMove f i p e n l k h = .ok t) : t.frameOf a = s.frameOf a := by
  unfold State.startMove at hs
  split at hs
  · cases hs
  · split at hs
    · cases hs
    · next dst u hu =>
      have hr : u.frameOf a = s.frameOf a := by
        split at hu
        · cases hu; rfl
        · exact State.alloc_frameOf a hu
      obtain rfl := Except.ok.inj hs
      cases k <;> simp [hr]

@[simp] theorem State.dropMove_frameOf (m : Move) : (s.dropMove m).frameOf a = s.frameOf a := by
  simp [State.dropMove]

@[simp] theorem State.abortMove_frameOf (m : Move) (c : Status) (k : Nat) : (s.abortMove m c k).frameOf a = s.frameOf a := by
  simp only [State.abortMove]
  split <;> simp

theorem State.allocT2_frameOf {s : State} {d b : Nat} {r : Home × State} (h : s.allocT2 d b = some r) :
    r.2.frameOf a = s.frameOf a := by
  obtain ⟨n, _, rfl⟩ := Option.map_eq_some_iff.mp h
  rfl

theorem State.reserveT2_frameOf {s : State} {d : Nat} {l : List Nat} {r : List (Home × Nat) × State}
    (h : s.reserveT2 d l = some r) : r.2.frameOf a = s.frameOf a := by
  induction l generalizing s r with
  | nil => cases h; rfl
  | cons b bs ih =>
    obtain ⟨x, hx, h⟩ := Option.bind_eq_some_iff.mp h
    obtain ⟨y, hy, rfl⟩ := Option.map_eq_some_iff.mp h
    exact (ih hy).trans (State.allocT2_frameOf a hx)

theorem State.startPreempt_frameOf {s t : State} {i : Nat} {q : Seq} {b : Bool} {r : Requester}
    (h : s.startPreempt i q b r = some t) : t.frameOf a = s.frameOf a := by
  obtain ⟨x, hx, rfl⟩ := Option.map_eq_some_iff.mp h
  simp +decide [State.reserveT2_frameOf a hx]

@[simp] theorem State.preemptFor_frameOf (d b : Nat) (m : Bool) (n : Nat) (l : List Nat) :
    (s.preemptFor d b m n l).frameOf a = s.frameOf a := by
  induction l generalizing s with
  | nil => rfl
  | cons i is ih =>
    unfold State.preemptFor
    split
    · rfl
    · split
      · exact ih s
      · next q _ =>
        rw [ih]
        cases h : s.startPreempt i q true .device with
        | none => rfl
        | some t => exact State.startPreempt_frameOf a h

@[simp] theorem State.autoPreempt_frameOf (d b : Nat) (m : Bool) : (s.autoPreempt d b m).frameOf a = s.frameOf a := by
  simp [State.autoPreempt]

@[simp] theorem State.tryMove_frameOf (r : FrameReq) (i : FrameInfo) : (s.tryMove r i).frameOf a = s.frameOf a := by
  unfold State.tryMove
  split
  · next h => exact State.startMove_frameOf a h
  · simp +decide
  · simp

@[simp] theorem State.startChain_frameOf (f : FrameId) (d : Nat) (c : Chain) : (s.startChain f d c).frameOf a = s.frameOf a := by
  simp only [State.startChain]
  split
  · simp
  · split
    · simp
    · split
      · simp
      · split
        · next h => exact State.startMove_frameOf a h
        · simp +decide

@[simp] theorem State.decideReq_frameOf (r : FrameReq) : (s.decideReq r).frameOf a = s.frameOf a := by
  unfold State.decideReq
  split
  · simp
  · extract_lets pend target r join home k t
    clear_value r target pend
    cases pend with
    | none => simp
    | some m =>
      dsimp only
      split
      · simp [join]
      · split
        · simp [join]
        · split
          · split
            · split
              · simp
              · split
                · next h => exact (State.startMove_frameOf a h).trans (by simp)
                · simp
            · split <;> simp [t]
          · simp

@[simp] theorem State.issue_frameOf (n : Nat) (l : List FrameId) (k : Nat) (e q : Bool) : (s.issue n l k e q).frameOf a = s.frameOf a := by
  simp [State.issue]

@[simp] theorem State.pumpPreempt_frameOf (n : Nat) : (s.pumpPreempt n).frameOf a = s.frameOf a := by
  unfold State.pumpPreempt
  split
  · rfl
  · rw [frameOf_ite, State.forEach_frameOf, ite_self]
    intro r t
    split
    · simp
    · split
      · simp
      · split
        · rfl
        · dsimp only
          split
          · split
            · next h => exact (State.modPlace_frameOf _ a _ _).trans (State.startMove_frameOf a h)
            · simp
          · split
            · next h => exact State.startMove_frameOf a h
            · simp

@[simp] theorem State.finishPlace_frameOf (p : Placement) : (s.finishPlace p).frameOf a = s.frameOf a := by
  simp only [State.finishPlace]
  split
  · rfl
  · split <;> simp

@[simp] theorem State.placeCmd_frameOf (r : Requester) (d : Nat) (o : List Byte) : (s.placeCmd r d o).frameOf a = s.frameOf a := by
  simp only [State.placeCmd]
  split
  · simp
  · split <;> simp

@[simp] theorem State.preemptCmd_frameOf (r : Requester) (d : Nat) (o : List Byte) : (s.preemptCmd r d o).frameOf a = s.frameOf a := by
  unfold State.preemptCmd
  split
  · simp
  · split
    · simp
    · simp
    · simp
    · simp
    · split
      · rfl
      · split
        · simp
        · next h => exact State.startPreempt_frameOf a h

@[simp] theorem State.restoreCmd_frameOf (r : Requester) (d : Nat) (o : List Byte) : (s.restoreCmd r d o).frameOf a = s.frameOf a := by
  unfold State.restoreCmd
  split
  · simp
  · split <;> simp

@[simp] theorem State.startPlace_frameOf (r : Requester) (d n : Nat) (o : List Byte) :
    (s.startPlace r d n o).frameOf a = s.frameOf a := by
  unfold State.startPlace
  split <;> simp

@[simp] theorem State.retryChains_frameOf : s.retryChains.frameOf a = s.frameOf a := by
  simp [State.retryChains]

@[simp] theorem State.retrySpace_frameOf : s.retrySpace.frameOf a = s.frameOf a := by
  simp only [State.retrySpace]
  rw [State.forEach_frameOf]
  · rfl
  · intro n t
    split <;> simp

@[simp] theorem State.settlePlaces_frameOf (n : Nat) : (s.settlePlaces n).frameOf a = s.frameOf a := by
  induction n generalizing s with
  | zero => rfl
  | succ n ih =>
    simp only [State.settlePlaces]
    split
    · split <;> simp [ih]
    · simp

@[simp] theorem State.sluice_frameOf : s.sluice.frameOf a = s.frameOf a :=
  State.only_frameOf _ (by simp)

/-! ### Abandonment -/

@[simp] theorem State.abandon_frameOf (p : Home → Bool) : (s.abandon p).frameOf a = s.frameOf a := by
  simp [State.abandon]

@[simp] theorem State.setCxl_frameOf (p : Nat) (f : Cxl → Cxl) : (s.setCxl p f).frameOf a = s.frameOf a := (rfl)

@[simp] theorem State.cxlAbandon_frameOf (p : Nat) : (s.cxlAbandon p).frameOf a = s.frameOf a := by
  simp [State.cxlAbandon]

end Sys2Proof.Machine
end

section
/-! The frame of a register through a write of it: the audit log, what the written value makes the device do, and the row
commands (R11, R37). -/

namespace Sys2Proof.Machine

variable (s t : State) (a : Nat)

/-! ### The audit log -/

@[simp] theorem State.setBudget_frameOf (d : Nat) (f : DomBudget → DomBudget) : (s.setBudget d f).frameOf a = s.frameOf a := (rfl)
@[simp] theorem State.charge_frameOf (d : Nat) (k : WorkClass) (l : Bool) (n : Nat) : (s.charge d k l n).frameOf a = s.frameOf a := (rfl)
@[simp] theorem State.pruned_frameOf : s.pruned.frameOf a = s.frameOf a := (rfl)

@[simp] theorem State.unqueue_frameOf (w : Work) : (s.unqueue w).frameOf a = s.frameOf a := by
  cases w <;> rfl

@[simp] theorem State.chargeItem_frameOf (i : Item) (b : Bool) : (s.chargeItem i b).frameOf a = s.frameOf a := by
  simp [State.chargeItem]

@[simp] theorem State.offer_frameOf (i : Item) : (s.offer i).frameOf a = s.frameOf a := by
  simp only [State.offer]
  split
  · simp
  · split <;> simp

@[simp] theorem State.sealSegment_frameOf (f : Nat) : (s.sealSegment f).frameOf a = s.frameOf a := by
  simp +decide [State.sealSegment]

@[simp] theorem State.auditEntry_frameOf (d : Nat) (w : Who) (k n : Nat) (x y : List Byte) :
    (s.auditEntry d w k n x y).frameOf a = s.frameOf a := by
  simp +decide [State.auditEntry]

@[simp] theorem State.audit_frameOf (d : Nat) (w : Who) (k n : Nat) (x y : List Byte) :
    (s.audit d w k n x y).frameOf a = s.frameOf a := State.only_frameOf _ (s.auditEntry_frameOf a d w k n x y)

@[simp] theorem State.auditPersist_frameOf (d : Nat) (w : Who) (k n : Nat) (x y : List Byte) (p : Persist) :
    (s.auditPersist d w k n x y p).frameOf a = s.frameOf a := by
  simp [State.auditPersist]

@[simp] theorem State.auditRefuse_frameOf : s.auditRefuse.frameOf a = s.frameOf a := by
  simp +decide [State.auditRefuse]

/-! ### Peat's trims (R192) -/

@[simp] theorem State.setPea_frameOf (f : Pea → Pea) : (s.setPea f).frameOf a = s.frameOf a := (rfl)

@[simp] theorem State.touch_frameOf (n : Nat) : (s.touch n).frameOf a = s.frameOf a := by
  simp [State.touch]

@[simp] theorem State.setUnit_frameOf (u : Nat) (c : Option Coarse) : (s.setUnit u c).frameOf a = s.frameOf a := by
  simp [State.setUnit]

@[simp] theorem State.setFine_frameOf (g : Nat) (l : Option (List (Option Nat))) : (s.setFine g l).frameOf a = s.frameOf a := by
  simp [State.setFine]

@[simp] theorem State.setBlk_frameOf (b : Nat) (f : Blk → Blk) : (s.setBlk b f).frameOf a = s.frameOf a := by
  simp [State.setBlk]

theorem State.toFine_frameOf {s : State} {u : Nat} {r : Nat × List (Option Nat) × State} (h : s.toFine u = some r) :
    r.2.2.frameOf a = s.frameOf a := by
  unfold State.toFine at h
  split at h
  · cases h; rfl
  · obtain ⟨g, _, rfl⟩ := Option.map_eq_some_iff.mp h
    simp

@[simp] theorem State.dropGroup_frameOf (u : Nat) : (s.dropGroup u).frameOf a = s.frameOf a := by
  unfold State.dropGroup
  split <;> simp

@[simp] theorem State.unmapUnit_frameOf (u : Nat) : (s.unmapUnit u).frameOf a = s.frameOf a := by
  simp [State.unmapUnit]

@[simp] theorem State.trimUnit_frameOf (u : Nat) (l : List Nat) : (s.trimUnit u l).frameOf a = s.frameOf a := by
  unfold State.trimUnit
  split
  · rfl
  · dsimp only
    split
    · simp
    · split
      · next h => exact (State.setFine_frameOf _ a _ _).trans (State.toFine_frameOf a h)
      · simp
  · simp

@[simp] theorem State.trimMap_frameOf (f c : Nat) : (s.trimMap f c).frameOf a = s.frameOf a := by
  simp [State.trimMap]

@[simp] theorem State.trimBuffer_frameOf (f c : Nat) : (s.trimBuffer f c).frameOf a = s.frameOf a := (rfl)
@[simp] theorem State.releaseParity_frameOf (b : Nat) : (s.releaseParity b).frameOf a = s.frameOf a := (rfl)

@[simp] theorem State.freeVictims_frameOf : s.freeVictims.frameOf a = s.frameOf a := by
  simp [State.freeVictims]

@[simp] theorem State.trim_frameOf (f c : Nat) : (s.trim f c).frameOf a = s.frameOf a := by
  simp [State.trim]

@[simp] theorem State.t3Release_frameOf : s.t3Release.frameOf a = s.frameOf a := by
  simp [State.t3Release]

/-! ### What a written value does -/

@[simp] theorem State.pinConflict_frameOf : s.pinConflict.frameOf a = s.frameOf a := by
  simp +decide [State.pinConflict]

@[simp] theorem State.toluoRestarts_frameOf : s.toluoRestarts.frameOf a = s.frameOf a := (rfl)
@[simp] theorem State.askReset_frameOf (c : Nat) (b : Bool) : (s.askReset c b).frameOf a = s.frameOf a := (rfl)

@[simp] theorem State.rstctl_frameOf (o : Origin) (v : Nat) : (s.rstctl o v).frameOf a = s.frameOf a := by
  simp [State.rstctl]

@[simp] theorem State.calCommit_frameOf (w : Who) : (s.calCommit w).frameOf a = s.frameOf a := by
  simp [State.calCommit]

@[simp] theorem State.calDiscard_frameOf : s.calDiscard.frameOf a = s.frameOf a := by
  simp [State.calDiscard]

/-- What `GLB` does with a written value, `GLB_CAL_WDATA` excepted, whose write moves `GLB_CAL_CTL.ADDR` on. -/
theorem State.actGlb_frameOf (o : Origin) {p : RegPlace} (v : Nat) (h : ¬ (p.page = 3 ∧ p.off = 0x4C)) :
    (s.actGlb o p v).frameOf a = s.frameOf a := by
  unfold State.actGlb
  split
  · simp
  · simp
  · simp
  · simp
  · next h1 h2 => exact absurd ⟨h1, h2⟩ h
  · simp
  · rfl

@[simp] theorem State.csynTarget_frameOf (d n : Nat) : (s.csynTarget d n).frameOf a = s.frameOf a := by
  simp [State.csynTarget, State.setCsyn]

@[simp] theorem State.standbyReq_frameOf : s.standbyReq.frameOf a = s.frameOf a := by
  simp [State.standbyReq]

@[simp] theorem State.abortSleep_frameOf (n : Nat) : (s.abortSleep n).frameOf a = s.frameOf a := by
  simp [State.abortSleep]

@[simp] theorem State.wakeSource_frameOf (n : Nat) : (s.wakeSource n).frameOf a = s.frameOf a := by
  unfold State.wakeSource
  split
  · split <;> simp
  · rfl

@[simp] theorem State.histClear_frameOf (k c q d : Nat) : (s.histClear k c q d).frameOf a = s.frameOf a := (rfl)

/-- What `PWR` and `CLK` do with a written value, `PWR_ISL_REQ` excepted. -/
theorem State.actPwr_frameOf (o : Origin) {p : RegPlace} (v : Nat) (l : List FieldSpec)
    (h : ¬ (p.block = 3 ∧ p.page = 1 ∧ p.off = 0x60)) : (s.actPwr o p v l).frameOf a = s.frameOf a := by
  unfold State.actPwr
  dsimp only
  split
  · simp
  · simp
  · simp
  · simp
  · simp
  · next h1 h2 h3 => exact absurd ⟨h1, h2, h3⟩ h
  · simp
  · simp
  · rfl

@[simp] theorem State.eoi_frameOf (v : Nat) : (s.eoi v).frameOf a = s.frameOf a := by
  simp only [State.eoi]
  split
  · rfl
  · split <;> simp +decide

@[simp] theorem State.swSet_frameOf (v : Nat) : (s.swSet v).frameOf a = s.frameOf a := by
  simp +decide [State.swSet]

@[simp] theorem State.pendClear_frameOf (g v : Nat) : (s.pendClear g v).frameOf a = s.frameOf a := (rfl)

@[simp] theorem State.actEvc_frameOf (p : RegPlace) (v : Nat) : (s.actEvc p v).frameOf a = s.frameOf a := by
  simp [State.actEvc]

@[simp] theorem State.actStore_frameOf (o : Origin) (p : RegPlace) (v : Nat) (l : List FieldSpec) :
    (s.actStore o p v l).frameOf a = s.frameOf a := by
  unfold State.actStore
  split <;> simp

@[simp] theorem cxpOff_mod (p : Nat) : cxpOff p % 4096 = 0 := by unfold cxpOff; omega

@[simp] theorem State.cxlResume_frameOf (p : Nat) : (s.cxlResume p).frameOf a = s.frameOf a := by
  simp +decide [State.cxlResume]

@[simp] theorem State.restoreUnit_frameOf (u : Nat) : (s.restoreUnit u).frameOf a = s.frameOf a := by
  simp [State.restoreUnit]

/-- What the engines and ports do with a written value, the release of a port, the binding of a VF and the test trigger
excepted. -/
theorem State.actPorts_frameOf {p : RegPlace} (v w : Nat) (l : List FieldSpec) (hc : ¬ (p.block = 0x20 ∧ p.page = 0 ∧ p.off = 0x50))
    (hf : ¬ (p.block = 0x30 ∧ p.page = 0 ∧ p.off = 0x48)) (ht : ¬ (p.block = 0x3F ∧ p.page = 0 ∧ p.off = 0x54)) :
    (s.actPorts p v w l).frameOf a = s.frameOf a := by
  unfold State.actPorts
  split
  · simp
  · next h1 h2 h3 => exact absurd ⟨h1, h2, h3⟩ hc
  · next h1 h2 h3 => exact absurd ⟨h1, h2, h3⟩ hf
  · simp
  · simp +decide
  · simp
  · simp
  · next h1 h2 h3 => exact absurd ⟨h1, h2, h3⟩ ht
  · rfl

@[simp] theorem domPage_mod (n : Nat) : (domBase + n * 0x8000) % 4096 = 0 := by unfold domBase; omega

@[simp] theorem State.ringCfg_frameOf (n v : Nat) : (s.ringCfg n v).frameOf a = s.frameOf a := by
  simp +decide [State.ringCfg]

@[simp] theorem State.ringBase_frameOf (n o v : Nat) : (s.ringBase n o v).frameOf a = s.frameOf a := by
  simp +decide [State.ringBase]

@[simp] theorem State.actDom_frameOf (n o v : Nat) : (s.actDom n o v).frameOf a = s.frameOf a := by
  simp [State.actDom]

end Sys2Proof.Machine
end

section
/-! Register rows and the frame of their register: a write of a register whose place acts alone, through every branch of the
write (R26 to R37), and the rows that are such writes. -/

namespace Sys2Proof.Machine

variable (s : State) (a : Nat)

/-! ### Places -/

/-- Bases and strides of the blocks are whole pages. -/
theorem blockMap_pages : ∀ b ∈ blockMap, b.2.1 % 4096 = 0 ∧ b.2.2.2 % 4096 = 0 := by decide

/-- The offset in the page of a place is the address modulo the page size. -/
theorem placeOf_off {a : Nat} {p : RegPlace} (h : placeOf a = some p) : p.off = a % 4096 := by
  simp only [placeOf] at h
  split at h
  · next hd =>
    split at h
    · cases h
      simp only [domBase] at hd ⊢
      omega
    · cases h
  · split at h
    · next n base k stride hb =>
      obtain ⟨h1, -⟩ := blockMap_pages _ (List.mem_of_find?_eq_some hb)
      have h2 := List.find?_some hb
      simp only [Bool.and_eq_true, decide_eq_true_eq] at h1 h2
      cases h
      dsimp only
      omega
    · cases h

/-- The page of a place begins at a page boundary. -/
theorem placeOf_page {a : Nat} {p : RegPlace} (h : placeOf a = some p) : (a - p.off) % 4096 = 0 := by
  have := placeOf_off h
  omega

/-- Whether a write at a place sets no register but its own and the `PG_ERR` and `PG_EVT` of pages, and is no write of a page
header or of a doorbell. Left out are places whose action is not needed here: `GLB_CAL_WDATA`, `PWR_ISL_REQ`, the release of a
Causeway port, the binding of a VF and the test trigger. -/
def RegPlace.actsAlone (p : RegPlace) : Bool :=
  decide (0x20 ≤ p.off) && !(p.block == 0x40 && decide (4 ≤ p.page)) &&
    !([(0x01, 3, 0x4C), (0x03, 1, 0x60), (0x20, 0, 0x50), (0x30, 0, 0x48), (0x3F, 0, 0x54)].contains (p.block, p.page, p.off))

theorem RegPlace.actsAlone_iff (p : RegPlace) : p.actsAlone = true ↔
    0x20 ≤ p.off ∧ ¬ (p.block = 0x40 ∧ 4 ≤ p.page) ∧ ¬ (p.block = 0x01 ∧ p.page = 3 ∧ p.off = 0x4C) ∧
      ¬ (p.block = 0x03 ∧ p.page = 1 ∧ p.off = 0x60) ∧ ¬ (p.block = 0x20 ∧ p.page = 0 ∧ p.off = 0x50) ∧
      ¬ (p.block = 0x30 ∧ p.page = 0 ∧ p.off = 0x48) ∧ ¬ (p.block = 0x3F ∧ p.page = 0 ∧ p.off = 0x54) := by
  simp [RegPlace.actsAlone, imp_iff_not_or, and_assoc]

theorem State.act_frameOf {p : RegPlace} (hp : p.actsAlone = true) (o : Origin) (v w : Nat) (l : List FieldSpec) :
    (s.act o p v w l).frameOf a = s.frameOf a := by
  obtain ⟨-, -, hglb, hpwr, hcwy, hhif, htst⟩ := p.actsAlone_iff.mp hp
  unfold State.act
  split
  · next hb => exact s.actGlb_frameOf a o v fun h => hglb ⟨hb, h⟩
  · split
    · simp
    · split
      · simp
      · split
        · rfl
        · split
          · exact s.actPwr_frameOf a o v l hpwr
          · split
            · exact s.actPorts_frameOf a v w l hcwy hhif htst
            · simp

/-! ### The branches of a write -/

theorem State.pageErr_frameOf (p : RegPlace) {x : Nat} (b : Nat) (h : (x - p.off) % 4096 = 0) :
    (s.pageErr p x b).frameOf a = s.frameOf a := State.setReg_frameOf _ (by omega)

theorem State.refuseWriteReg_frameOf (o : Origin) {p : RegPlace} {x : Nat} (c : Status) (h : (x - p.off) % 4096 = 0) :
    (s.refuseWriteReg o p x c).frameOf a = s.frameOf a := by
  simp [State.refuseWriteReg, State.pageErr_frameOf _ _ _ _ h]

theorem State.refuseFull_frameOf (o : Origin) {p : RegPlace} {x : Nat} (h : (x - p.off) % 4096 = 0) :
    (s.refuseFull o p x).frameOf a = s.frameOf a := by
  rw [State.refuseFull, State.refuseWriteReg_frameOf _ _ _ _ h, State.auditRefuse_frameOf]

/-- The error that a value out of range sets is a bit of the `PG_ERR` of a page. -/
theorem State.outOfRange_page {s : State} {o : Origin} {p : RegPlace} {v : Nat} {e : Nat × Nat}
    (h : (s.outOfRange o p v).2 = some e) : e.1 % 4096 = 0 := by
  unfold State.outOfRange at h
  extract_lets bad within at h
  have key (b : Bool) (l : List Nat) (y : Nat × Nat) (hb : (bad b l y).2 = some e) (hy : y.1 % 4096 = 0) : e.1 % 4096 = 0 := by
    cases b
    · cases hb
    · exact Option.some.inj hb ▸ hy
  split at h
  rotate_right
  · cases h
  all_goals exact key _ _ _ h rfl

theorem State.noteWrite_frameOf {p : RegPlace} {x : Nat} (v : Nat) (r : RegSpec) (l : Bool) {e : Option (Nat × Nat)}
    (h : (x - p.off) % 4096 = 0) (he : ∀ y, e = some y → y.1 % 4096 = 0) : (s.noteWrite p x v r l e).frameOf a = s.frameOf a := by
  cases e with
  | none => simp [State.noteWrite, State.pageErr_frameOf _ _ _ _ h]
  | some y => simp [State.noteWrite, State.pageErr_frameOf _ _ _ _ h, he y rfl]

theorem State.logWrite_frameOf (o : Origin) (p : RegPlace) (x v w : Nat) (l : List FieldSpec) :
    (s.logWrite o p x v w l).frameOf a = s.frameOf a := by
  unfold State.logWrite
  split <;> simp

/-- The word that a write stores is that of its own register. -/
theorem State.storeWrite_frameOf (p : RegPlace) (v w : Nat) (l : List FieldSpec) :
    (s.storeWrite p a v w l).frameOf a = s.frameOf a := by
  simp [State.storeWrite, State.setReg_frameOf]

theorem State.carryOut_frameOf (o : Origin) {p : RegPlace} (v : Nat) (r : RegSpec) (l : List FieldSpec) (b : Bool)
    {e : Option (Nat × Nat)} (hp : p.actsAlone = true) (h : (a - p.off) % 4096 = 0) (he : ∀ y, e = some y → y.1 % 4096 = 0) :
    (s.carryOut o p a v r l b e).frameOf a = s.frameOf a := by
  rw [State.carryOut, State.act_frameOf _ _ hp, State.storeWrite_frameOf, State.logWrite_frameOf,
    State.noteWrite_frameOf _ _ _ _ _ h he]

theorem State.writeBody_frameOf (o : Origin) {p : RegPlace} (v : Nat) (r : RegSpec) (hp : p.actsAlone = true)
    (h : (a - p.off) % 4096 = 0) : (s.writeBody o p a v r).frameOf a = s.frameOf a := by
  unfold State.writeBody
  extract_lets writable rng locked lockHit takes err new
  have he : ∀ y, err = some y → y.1 % 4096 = 0 := by
    intro y hy
    unfold err at hy
    split at hy
    · cases hy
    · exact State.outOfRange_page hy
  simp [State.refuseWriteReg_frameOf _ _ _ _ h, State.refuseFull_frameOf _ _ _ h, State.carryOut_frameOf _ _ _ _ _ _ _ hp h he]

theorem State.writeCopy_frameOf (o : Origin) {p : RegPlace} {x : Nat} (v : Nat) (r : RegSpec) (h : (x - p.off) % 4096 = 0) :
    (s.writeCopy o p x v r).frameOf a = s.frameOf a := by
  simp [State.writeCopy, State.refuseWriteReg_frameOf _ _ _ _ h, State.pageErr_frameOf _ _ _ _ h]

theorem State.writeMsix_frameOf (m : MsixAt) (v : Nat) : (s.writeMsix m a v).frameOf a = s.frameOf a := by
  unfold State.writeMsix
  split
  · simp
  · exact State.setReg_frameOf _ (.inl rfl)
  · rfl

theorem domReg_page (n : Nat) : (domReg n 0 - 0) % 4096 = 0 := by
  simp only [domReg, domBase]
  omega

theorem State.shutOut_frameOf (o : Origin) (x : Nat) : (s.shutOut o x).frameOf a = s.frameOf a := by
  unfold State.shutOut
  split
  · next h => simp [State.refuseWriteReg_frameOf _ _ _ _ (placeOf_page h)]
  · rfl

theorem State.shortWrite_frameOf (x : Nat) : (s.shortWrite x).frameOf a = s.frameOf a := by
  unfold State.shortWrite
  split
  · next p _ => simp [State.pageErr_frameOf s a { p with off := 0 } 29 (domReg_page p.inst)]
  · rfl

/-- A write at an address whose place acts alone leaves the frame of its register. -/
theorem State.regWrite_frameOf (w : RegWrite) (ha : (placeOf a).all RegPlace.actsAlone = true) :
    (s.regWrite a w).frameOf a = s.frameOf a := by
  simp only [State.regWrite]
  split
  · exact s.shutOut_frameOf a _ _
  · split
    · simp [State.writeMsix_frameOf, State.shortWrite_frameOf]
    · split
      · rfl
      · next p hp =>
        have h : (a - p.off) % 4096 = 0 := placeOf_page hp
        rw [hp, Option.all_some] at ha
        obtain ⟨hoff, hbell, -⟩ := p.actsAlone_iff.mp ha
        rw [if_neg hbell]
        split
        · rfl
        · rw [if_neg (Nat.not_lt.mpr hoff)]
          split
          · rfl
          · simp [State.pageErr_frameOf _ _ _ _ h, State.writeCopy_frameOf _ _ _ _ _ h, State.writeBody_frameOf _ _ _ _ _ ha h]

/-- A row that is a write of a register whose place acts alone changes, among the stored registers, that register and the
`PG_ERR` and `PG_EVT` of pages. -/
theorem rowWrite_reg {s t : State} {c : Scope} {g : Bool} {a b : Nat} {w : RegWrite}
    (ha : g = true → (placeOf a).all RegPlace.actsAlone = true) (hb : b ≠ a) (he : b % 4096 ≠ 16) (hv : b % 4096 ≠ 24)
    (h : (Host.Outcome.next (s.rowWrite c g a w) : Host.Outcome State Fault Refusal) = .next t) : t.reg b = s.reg b := by
  obtain rfl := Host.Outcome.next.inj h
  refine State.reg_eq_of_frameOf (State.afterIn_frameOf c ?_) hb he hv
  cases g with
  | true => exact s.regWrite_frameOf a w (ha rfl)
  | false => rfl

/-! ### The places of the rows -/

/-- The event controller is the fourth block of Table 2.1. -/
theorem placeOf_evc {a : Nat} (hl : 0x30000 ≤ a) (hh : a < 0x40000) :
    placeOf a = some ⟨0x04, (a - 0x30000) / 0x10000, (a - 0x30000) % 0x10000 / 0x1000, (a - 0x30000) % 0x1000⟩ := by
  have hd : ¬ domBase ≤ a := by unfold domBase; omega
  rw [placeOf, if_neg hd, blockMap, List.find?_cons_of_neg, List.find?_cons_of_neg, List.find?_cons_of_neg, List.find?_cons_of_pos]
  all_goals simp only [Bool.and_eq_true, decide_eq_true_eq]; omega

/-- An address of the event controller past a page header acts alone. -/
theorem actsAlone_evc {a : Nat} (hl : 0x30000 ≤ a) (hh : a < 0x40000) (ho : 0x20 ≤ a % 4096) :
    (placeOf a).all RegPlace.actsAlone = true := by
  rw [placeOf_evc hl hh, Option.all_some, RegPlace.actsAlone_iff]
  dsimp only
  omega

theorem actsAlone_ringCfg {n : Nat} (h : n ≤ 256) : (placeOf (domReg n Reg.domRingCfg)).all RegPlace.actsAlone = true := by
  have e : placeOf (domReg n Reg.domRingCfg) = some ⟨0x40, n, 0, 0x74⟩ := by
    have h1 : (domReg n Reg.domRingCfg - domBase) = n * 0x8000 + 0x74 := by simp only [domReg, domBase, Reg.domRingCfg]; omega
    have h2 : domBase ≤ domReg n Reg.domRingCfg := by simp only [domReg]; omega
    have h3 : (n * 0x8000 + 0x74) / 0x8000 = n := by omega
    have h4 : (n * 0x8000 + 0x74) % 0x8000 = 0x74 := by omega
    have h5 : (n * 0x8000 + 0x74) % 0x1000 = 0x74 := by omega
    simp [placeOf, h1, h2, h3, h4, h5, h]
  rw [e]
  rfl

theorem actsAlone_evcRoute {n : Nat} (h : n < 1024) : (placeOf (routeAddr n)).all RegPlace.actsAlone = true := by
  unfold routeAddr
  apply actsAlone_evc <;> split <;> omega

theorem actsAlone_evcHold {n : Nat} (h : n < 32) : (placeOf (Reg.evcHold + 4 * n)).all RegPlace.actsAlone = true := by
  apply actsAlone_evc <;> simp only [Reg.evcHold] <;> omega

theorem actsAlone_evcPend {n : Nat} (h : n < 32) : (placeOf (Reg.evcPend + 4 * n)).all RegPlace.actsAlone = true := by
  apply actsAlone_evc <;> simp only [Reg.evcPend] <;> omega

theorem actsAlone_clkCsyn : ∀ {n : Nat}, n < 2 → (placeOf (Reg.clkCsyn0 + 4 * n)).all RegPlace.actsAlone = true := by
  decide

theorem actsAlone_cxpCfg : ∀ {n : Nat}, n < 4 → (placeOf (Reg.cxpCfg + cxpOff n)).all RegPlace.actsAlone = true := by
  decide

theorem actsAlone_cxpCtl : ∀ {n : Nat}, n < 4 → (placeOf (Reg.cxpCtl + cxpOff n)).all RegPlace.actsAlone = true := by
  decide

theorem actsAlone_xltPtrBase {n : Nat} (h : (n == Reg.xltPtrBaseLo || n == Reg.xltPtrBaseHi) = true) :
    (placeOf n).all RegPlace.actsAlone = true := by
  rw [Bool.or_eq_true, beq_iff_eq, beq_iff_eq] at h
  rcases h with rfl | rfl <;> rfl

theorem actsAlone_rbdBase {n : Nat} (h : (n == Reg.rbdBaseLo || n == Reg.rbdBaseHi) = true) :
    (placeOf n).all RegPlace.actsAlone = true := by
  rw [Bool.or_eq_true, beq_iff_eq, beq_iff_eq] at h
  rcases h with rfl | rfl <;> rfl

theorem actsAlone_t2Window {n : Nat} (h : (n == Reg.hifT2BaseLo || n == Reg.hifT2BaseHi || n == Reg.hifT2Size) = true) :
    (placeOf n).all RegPlace.actsAlone = true := by
  rw [Bool.or_eq_true, Bool.or_eq_true, beq_iff_eq, beq_iff_eq, beq_iff_eq] at h
  rcases h with (rfl | rfl) | rfl <;> rfl

/-- Settles O51: a row of its own is a register write within its range, and every operation that the write of such a
register reaches leaves the frame of that register (`rowWrite_reg`). A clause says where its row's register stands. -/
theorem registerRowsChangeTheirRegisterAlone : Obligations.RegisterRowsChangeTheirRegisterAlone :=
  ⟨fun _ _ _ _ _ => rowWrite_reg fun hg => actsAlone_evcRoute (of_decide_eq_true hg),
   fun _ _ _ _ _ => rowWrite_reg fun hg => actsAlone_evcHold (of_decide_eq_true hg),
   fun _ _ _ _ _ => rowWrite_reg fun hg => actsAlone_evcPend (of_decide_eq_true hg),
   fun _ _ _ _ => rowWrite_reg fun _ => rfl,
   fun _ _ _ _ => rowWrite_reg fun _ => rfl,
   fun _ _ _ _ _ => rowWrite_reg actsAlone_xltPtrBase,
   fun _ _ _ _ => rowWrite_reg fun _ => rfl,
   fun _ _ _ _ _ => rowWrite_reg actsAlone_rbdBase,
   fun _ _ _ _ => rowWrite_reg fun _ => rfl,
   fun _ _ _ _ => rowWrite_reg fun _ => rfl,
   fun _ _ _ _ => rowWrite_reg fun _ => rfl,
   fun _ _ _ _ => rowWrite_reg fun _ => rfl,
   fun _ _ _ _ => rowWrite_reg fun _ => rfl,
   fun _ _ _ _ => rowWrite_reg fun _ => rfl,
   fun _ _ _ _ _ => rowWrite_reg fun hg => actsAlone_clkCsyn (of_decide_eq_true hg),
   fun _ _ _ _ => rowWrite_reg fun _ => rfl,
   fun _ _ _ _ _ => rowWrite_reg actsAlone_t2Window,
   fun _ _ _ _ _ => rowWrite_reg fun hg => actsAlone_cxpCfg (of_decide_eq_true hg),
   fun _ _ _ _ _ => rowWrite_reg fun hg => actsAlone_cxpCtl (of_decide_eq_true (Bool.and_eq_true_iff.mp hg).1),
   fun _ _ _ _ => rowWrite_reg fun _ => rfl,
   fun _ _ _ _ => rowWrite_reg fun _ => rfl,
   fun _ _ _ _ => rowWrite_reg fun _ => rfl,
   fun _ _ _ _ => rowWrite_reg fun _ => rfl,
   fun _ _ _ _ => rowWrite_reg fun _ => rfl,
   fun _ _ _ _ => rowWrite_reg fun _ => rfl,
   fun _ _ _ _ => rowWrite_reg fun _ => rfl,
   fun _ _ _ _ => rowWrite_reg fun _ => rfl,
   fun _ _ _ _ _ => rowWrite_reg fun hg => actsAlone_ringCfg (of_decide_eq_true (Bool.and_eq_true_iff.mp hg).1),
   fun _ _ _ _ _ => rowWrite_reg fun hg => actsAlone_ringCfg (of_decide_eq_true (Bool.and_eq_true_iff.mp hg).1)⟩

end Sys2Proof.Machine
end

section
/-! Memory stays in its canonical form (R15, R16, R371): a command that stores lists the cells again, a reset does too, and
every other command leaves the cells as they are. -/

namespace Sys2Proof.Machine

/-! ### How a command leaves the state -/

/-- A register access that meets its address goes on as its body says (R26). -/
theorem eq_of_addrExists {a : Nat} {u t : State}
    (h : (if addrExists a then .next u else .fault .noSuchAddress : Host.Outcome State Fault Refusal) = .next t) : t = u := by
  split at h
  · exact (Host.Outcome.next.inj h).symm
  · cases h

/-- A command that stores nothing and is no reset leaves the state by `State.after`. -/
theorem exec_after_of_scope {i : Instr} {c : Scope} {s t : State} (hc : i.scope = some c) (hi : i.storesMem = false)
    (h : exec i s = .next t) : ∃ u, t = s.after u := by
  cases i
  case registerWrite a w => exact ⟨_, eq_of_addrExists h⟩
  case lowWordRead o a be => exact ⟨_, eq_of_addrExists h⟩
  case toluoRestart w => cases w <;> exact ⟨_, (Host.Outcome.next.inj h).symm⟩
  case tstTrig w => cases w <;> exact ⟨_, (Host.Outcome.next.inj h).symm⟩
  -- the storing commands, then the resets, contradict the hypotheses
  all_goals cases hi
  all_goals cases hc
  all_goals exact ⟨_, (Host.Outcome.next.inj h).symm⟩

/-- A command that stores bytes leaves the state by `State.afterMem`. -/
theorem exec_afterMem_of_stores {i : Instr} {s t : State} (hi : i.storesMem = true) (h : exec i s = .next t) :
    ∃ u, t = s.afterMem u := by
  cases i
  all_goals cases hi
  all_goals exact ⟨_, (Host.Outcome.next.inj h).symm⟩

/-- A command without a scope is a reset: it leaves the state by `State.afterReset`, but for a reset that is not due. -/
theorem exec_afterReset_of_no_scope {i : Instr} {s t : State} (hi : i.scope = none) (h : exec i s = .next t) :
    (∃ u, t = s.afterReset u) ∨ t = s.after s := by
  cases i
  case deviceReset f =>
    have h := (Host.Outcome.next.inj h).symm
    split at h
    · split at h
      · exact .inl ⟨_, h⟩
      · exact .inr h
    · exact .inr h
  all_goals cases hi
  all_goals exact .inl ⟨_, (Host.Outcome.next.inj h).symm⟩

/-! ### Memory -/

/-- Every command keeps memory in its canonical form. -/
theorem exec_memOk {i : Instr} {s t : State} (hs : s.memOk) (h : exec i s = .next t) : t.memOk := by
  cases hi : i.storesMem
  case true =>
    obtain ⟨u, rfl⟩ := exec_afterMem_of_stores hi h
    exact Memory.canon_wf _
  case false =>
    cases hc : i.scope
    case some c =>
      obtain ⟨u, rfl⟩ := exec_after_of_scope hc hi h
      exact hs
    case none =>
      obtain ⟨u, rfl⟩ | rfl := exec_afterReset_of_no_scope hc h
      · exact Memory.canon_wf _
      · exact hs

theorem State.tick_mem (s : State) : s.tick.mem = s.mem := by
  simp only [State.tick, apply_ite State.mem, ite_self]

/-- Settles O40: a command keeps the canonical form (`exec_memOk`), and a tick of the clock leaves memory as it is. -/
theorem everyStepKeepsMemoryCanonical : Obligations.EveryStepKeepsMemoryCanonical := by
  intro s t hs h
  unfold step at h
  split at h
  · obtain rfl := Host.Outcome.next.inj h
    rwa [State.memOk, State.tick_mem]
  · next c rest _ => exact exec_memOk (s := { s with pending := rest }) hs h

end Sys2Proof.Machine
end

section
/-! A step on an empty queue: one tick of the service clock (R18, R19, R280). -/

namespace Sys2Proof.Machine

theorem State.tick_off {s : State} (h : s.glb.phase = .off) : s.tick = s := if_pos h

/-- Without PTP discipline a tick is one nanosecond (R18, R19). -/
theorem State.tick_free {s : State} (h : s.glb.phase ≠ .off) (hp : bit (s.reg Reg.clkPtpCfg) 31 = false) :
    s.tick = { s with now := s.now + 1 } := by
  simp [State.tick, h, hp]

/-- A tick changes the time and the gathered rate correction alone (R19, R280). -/
theorem State.tick_eq (s : State) : s.tick = { s with now := s.tick.now, pwr := { s.pwr with phase := s.tick.pwr.phase } } := by
  unfold State.tick
  extract_lets p
  split_ifs <;> rfl

/-- A tick never moves `DEV_TIME` backwards (R19). -/
theorem State.now_le_tick (s : State) : s.now ≤ s.tick.now := by
  unfold State.tick
  extract_lets p
  split_ifs <;> simp

theorem step_empty {s : State} (h : s.pending = []) : step s = .next s.tick := by
  rw [step, h]

/-- Settles O37: the step is a tick (`step_empty`), and what a tick does is said above. -/
theorem emptyQueueTicksTheClock : Obligations.EmptyQueueTicksTheClock := by
  refine ⟨fun s hs => ⟨step_empty hs, s.now_le_tick, State.tick_off, State.tick_free⟩, fun s t h hs => ?_⟩
  obtain rfl := Host.Outcome.next.inj ((step_empty hs).symm.trans h)
  exact s.tick_eq

end Sys2Proof.Machine
end

section
/-! `DISPATCH` of a key operation where memory is not in its canonical form. -/

namespace Sys2Proof.Machine

/-- A `KEY` item of a key operation of domain 1 (Table 13.1). -/
def waitingKeyItem : Item := { domain := 1, cls := .key, cost := 20, dur := 0, arrived := 0, work := .key 4 }

/-- The device in an epoch with one key operation to dispatch, and a byte of T0 listed though it reads as an unlisted one. -/
def keyItemOverListedZero : State :=
  { State.reset with
    mem := [(0, 0#8)]
    lve := { State.reset.lve with keyOps := [{ num := 4, domain := 1, writesSlot := true, req := .device, resp := [] }] }
    pwr := { State.reset.pwr with live := true, grant := 100, planned := 10, epoch := 6, items := [waitingKeyItem] } }

/-- Refutes O26: `DISPATCH` is a command that stores, so it lists memory again in canonical form (`exec_afterMem_of_stores`).
The clause of key operations, signatures and held records claims that memory stands, and does not assume its canonical form:
where a 0 is listed at address 0 of T0 the list changes, though no byte does. -/
theorem not_attentionCommandsComplete : ¬ Obligations.AttentionCommandsComplete := by
  unfold Obligations.AttentionCommandsComplete
  rintro ⟨-, -, -, -, -, dispatchKey, -⟩
  obtain ⟨t, ht, -, -, -, -, hmem⟩ :=
    dispatchKey keyItemOverListedZero waitingKeyItem false (by decide) (by decide) (by decide) (by decide) (by decide) rfl
  obtain ⟨u, rfl⟩ := exec_afterMem_of_stores rfl ht
  have hwf : Memory.wf (Memory.canon u.mem) := Memory.canon_wf u.mem
  have hlisted : Memory.canon u.mem = [(0, 0#8)] := hmem
  rw [hlisted] at hwf
  exact absurd hwf (by decide)

end Sys2Proof.Machine
end

section
/-! What every command leaves: the queue, the parts of the state outside its scope, and a next state but for a register access
at an address that no BAR has (R26). -/

namespace Sys2Proof.Machine

/-! ### The queue (chapter 95, R26) -/

/-- Every command leaves the queue of waiting commands: each way to leave the state sets it back. -/
theorem exec_pending {i : Instr} {s t : State} (h : exec i s = .next t) : t.pending = s.pending := by
  cases hi : i.storesMem
  case true =>
    obtain ⟨u, rfl⟩ := exec_afterMem_of_stores hi h
    exact s.afterMem_pending u
  case false =>
    cases hc : i.scope
    case some c =>
      obtain ⟨u, rfl⟩ := exec_after_of_scope hc hi h
      exact s.after_pending u
    case none =>
      obtain ⟨u, rfl⟩ | rfl := exec_afterReset_of_no_scope hc h
      · exact s.afterReset_pending u
      · exact s.after_pending s

theorem exec_registerWrite_noSuchAddress {a : Nat} (s : State) (w : RegWrite) (h : addrExists a = false) :
    exec (.registerWrite a w) s = .fault .noSuchAddress := by
  change execRegisterWrite a w s = _
  rw [execRegisterWrite, h]
  rfl

theorem exec_lowWordRead_noSuchAddress {a : Nat} (s : State) (o : Origin) (be : Nat) (h : addrExists a = false) :
    exec (.lowWordRead o a be) s = .fault .noSuchAddress := by
  change execLowWordRead o a be s = _
  rw [execLowWordRead, h]
  rfl

theorem exec_registerWrite_next {a : Nat} (s : State) (w : RegWrite) (h : addrExists a = true) :
    exec (.registerWrite a w) s = .next (s.afterCwyIn .device (s.regWrite a w)) := by
  change execRegisterWrite a w s = _
  rw [execRegisterWrite, h]
  rfl

theorem exec_lowWordRead_next {a : Nat} (s : State) (o : Origin) (be : Nat) (h : addrExists a = true) :
    exec (.lowWordRead o a be) s = .next (s.afterIn .reading (s.regRead o a be)) := by
  change execLowWordRead o a be s = _
  rw [execLowWordRead, h]
  rfl

/-- A command answers a next state, unless it is a register access at an address that no BAR has. -/
theorem exec_next_or_noSuchAddress (i : Instr) (s : State) : (∃ t, exec i s = .next t) ∨
    (∃ a w, i = .registerWrite a w ∧ addrExists a = false) ∨ (∃ o a be, i = .lowWordRead o a be ∧ addrExists a = false) := by
  cases i
  case registerWrite a w =>
    cases h : addrExists a
    · exact .inr (.inl ⟨a, w, rfl, h⟩)
    · exact .inl ⟨_, exec_registerWrite_next s w h⟩
  case lowWordRead o a be =>
    cases h : addrExists a
    · exact .inr (.inr ⟨o, a, be, rfl, h⟩)
    · exact .inl ⟨_, exec_lowWordRead_next s o be h⟩
  all_goals exact .inl ⟨_, rfl⟩

/-- Settles O42: the queue stands (`exec_pending`), and a command stops at an address beyond every BAR alone. -/
theorem everyCommandLeavesTheQueue : Obligations.EveryCommandLeavesTheQueue :=
  ⟨fun _ _ _ => exec_pending, exec_next_or_noSuchAddress, fun s _ w => exec_registerWrite_noSuchAddress s w,
   fun s o _ be => exec_lowWordRead_noSuchAddress s o be⟩

/-! ### The scope of a command -/

/-- A command that stores nothing leaves the state by `State.afterIn` in its scope. -/
theorem exec_afterIn_of_scope {i : Instr} {c : Scope} {s t : State} (hc : i.scope = some c) (hi : i.storesMem = false)
    (h : exec i s = .next t) : ∃ u, t = s.afterIn c u := by
  cases i
  case registerWrite a w =>
    cases hc
    exact ⟨_, eq_of_addrExists h⟩
  case lowWordRead o a be =>
    cases hc
    exact ⟨_, eq_of_addrExists h⟩
  case toluoRestart w => cases hc; cases w <;> exact ⟨_, (Host.Outcome.next.inj h).symm⟩
  case tstTrig w => cases hc; cases w <;> exact ⟨_, (Host.Outcome.next.inj h).symm⟩
  -- the storing commands, then the resets, contradict the hypotheses
  all_goals cases hi
  all_goals cases hc
  all_goals exact ⟨_, (Host.Outcome.next.inj h).symm⟩

/-- A choice that is made again within its own first branch. -/
theorem cond_cond_self {α : Type} (b : Bool) (x y : α) : (bif b then (bif b then x else y) else y) = bif b then x else y := by
  cases b <;> rfl

/-- Taking the parts of a scope twice is taking them once. -/
theorem State.only_only (s t : State) (c : Scope) : s.only c (s.only c t) = s.only c t := by
  simp only [State.only]
  cases c.lve <;> cases c.counts <;> simp only [cond_cond_self, cond_true, cond_false]

/-- A command that leaves the state by `State.afterIn` stays within its scope, and only the groups of the event controller follow
(R365). -/
theorem State.within_afterIn (s u : State) (c : Scope) : s.within c (s.afterIn c u) := by
  constructor
  · have hevc : s.afterIn c u = { s.only c u with evc := (s.afterIn c u).evc } := rfl
    have honly : { s.only c (s.only c u) with evc := (s.afterIn c u).evc }
        = { s.only c (s.afterIn c u) with evc := (s.afterIn c u).evc } := rfl
    rw [← honly, State.only_only]
    exact hevc
  · intro he
    have hgroups : (s.afterIn c u).evc = { (s.only c u).evc with groups := (s.afterIn c u).evc.groups } := rfl
    rw [hgroups, State.only_evc s c u he]

/-- A command that stores nothing keeps what lies outside its scope. -/
theorem exec_keeps_of_scope {i : Instr} {c : Scope} {s t : State} (hc : i.scope = some c) (hi : i.storesMem = false)
    (h : exec i s = .next t) : s.keeps i c t := by
  obtain ⟨u, rfl⟩ := exec_afterIn_of_scope hc hi h
  rw [State.keeps, hi]
  exact s.within_afterIn u c

/-- The scopes of the commands that store bytes: those of the tiers and of the index. -/
theorem scope_of_storesMem {i : Instr} (hi : i.storesMem = true) :
    i.scope = some .lookup ∨ i.scope = some .store ∨ i.scope = some .search ∨
      i.scope = some { Scope.search with lve := true, aud := true } := by
  cases i
  all_goals cases hi
  all_goals simp only [Instr.scope, true_or, or_true]

/-- Settles O47: no command of a register scope stores bytes, and a command that stores none keeps its scope. -/
theorem registerCommandsKeepTheirScope : Obligations.RegisterCommandsKeepTheirScope := by
  intro i c s t hc hscope h
  refine exec_keeps_of_scope hc ?_ h
  by_contra hi
  have hs := scope_of_storesMem (Bool.eq_true_of_not_eq_false hi)
  rw [hc] at hs
  rcases hscope with rfl | rfl | rfl | rfl | rfl | rfl | rfl | rfl | rfl | rfl | rfl | rfl <;> exact absurd hs (by decide)

end Sys2Proof.Machine
end

section
/-! The bits of `PG_ERR` and `PG_EVT`, their masks, and the event-controller sources that they raise (R32, R359, R360). -/

namespace Sys2Proof.Machine

/-! ### A register after it is set -/

/-- A register takes the value set, as a word. -/
theorem State.reg_setReg_same (s : State) (a v : Nat) : (s.setReg a v).reg a = v % 2 ^ 32 := by
  simp [State.reg, State.setReg]

theorem State.reg_setReg_other (s : State) {a b : Nat} (v : Nat) (h : b ≠ a) : (s.setReg a v).reg b = s.reg b := by
  simp [State.reg, State.setReg, Assoc.get?_set_other _ _ _ _ h]

/-- Setting a bit of a register sets it. -/
theorem State.bit_setReg_or (s : State) (a : Nat) {i : Nat} (h : i < 32) :
    bit ((s.setReg a (s.reg a ||| 2 ^ i)).reg a) i = true := by
  rw [State.reg_setReg_same, bit, Nat.testBit_mod_two_pow]
  simp [h]

/-- Setting a bit of a register leaves a bit that is set. -/
theorem State.bit_setReg_or_of_bit (s : State) (a b : Nat) {i j : Nat} (hi : i < 32) (h : bit (s.reg a) i = true) :
    bit ((s.setReg b (s.reg b ||| 2 ^ j)).reg a) i = true := by
  by_cases hab : a = b
  · subst hab
    rw [State.reg_setReg_same, bit, Nat.testBit_mod_two_pow]
    simp [hi, show (s.reg a).testBit i = true from h]
  · rwa [State.reg_setReg_other s _ hab]

/-! ### The source that a register asserts -/

/-- Filtering a map that holds a value for a key, where the filter gives the same on that value as on the value held before. -/
theorem Assoc.filterMap_set {κ α β : Type} [DecidableEq κ] (m : Assoc κ α) (k : κ) (v : α) (f : κ × α → Option β)
    (hnone : m.get? k = none → f (k, v) = none) (hsome : ∀ w, m.get? k = some w → f (k, v) = f (k, w)) :
    (m.set k v).filterMap f = m.filterMap f := by
  induction m with
  | nil => simp [Assoc.set, hnone rfl]
  | cons e rest ih =>
    obtain ⟨k', w⟩ := e
    by_cases hk : k' = k
    · subst hk
      have hw : f (k', v) = f (k', w) := hsome w (by simp [Assoc.get?])
      simp [Assoc.set, List.filterMap_cons, hw]
    · have hget : Assoc.get? ((k', w) :: rest) k = Assoc.get? rest k := by simp [Assoc.get?, hk]
      rw [hget] at hnone hsome
      simp [Assoc.set, hk, List.filterMap_cons, ih hnone hsome]

/-- A value set for a key is listed with it. -/
theorem Assoc.mem_set {κ α : Type} [DecidableEq κ] (m : Assoc κ α) (k : κ) (v : α) : (k, v) ∈ m.set k v :=
  Assoc.mem_of_get? (Assoc.get?_set_same m k v)

/-- Setting a `PG_ERR` or a `PG_EVT` leaves the masks, and so what each stored register asserts. -/
theorem State.assertedBy_setReg (s : State) {a : Nat} (v : Nat) (ha : a % 4096 = 16 ∨ a % 4096 = 24) (b : Nat) (w : Word) :
    (s.setReg a v).assertedBy b w = s.assertedBy b w := by
  by_cases hb : b % 0x1000 = 0x10 ∨ b % 0x1000 = 0x18
  · have hab : b + 4 ≠ a := by omega
    simp only [State.assertedBy, State.reg_setReg_other s v hab] <;> rfl
  · simp only [State.assertedBy, hb, if_false]

/-- Setting a masked bit leaves the unmasked bits. -/
theorem and_not_mask_of_masked {m i : Nat} (x : Nat) (hi : i < 32) (h : bit m i = true) :
    BitVec.ofNat 32 (x ||| 2 ^ i) &&& ~~~ BitVec.ofNat 32 m = BitVec.ofNat 32 x &&& ~~~ BitVec.ofNat 32 m := by
  apply BitVec.eq_of_getLsbD_eq
  intro j hj
  have hor : (BitVec.ofNat 32 (x ||| 2 ^ i)).getLsbD j = ((BitVec.ofNat 32 x).getLsbD j || decide (i = j)) := by
    simp only [BitVec.getLsbD_ofNat, Nat.testBit_or, Nat.testBit_two_pow, hj, decide_true, Bool.true_and]
  rw [BitVec.getLsbD_and, BitVec.getLsbD_and, hor]
  by_cases hji : i = j
  · subst hji
    simp only [BitVec.getLsbD_not, BitVec.getLsbD_ofNat, show m.testBit i = true from h, hi, decide_true, Bool.true_and,
      Bool.not_true, Bool.and_false]
  · simp [hji]

/-- Setting an unmasked bit leaves an unmasked bit set. -/
theorem and_not_mask_of_unmasked {m i : Nat} (x : Nat) (hi : i < 32) (h : bit m i = false) :
    BitVec.ofNat 32 (x ||| 2 ^ i) &&& ~~~ BitVec.ofNat 32 m ≠ 0 := by
  intro h0
  have hbit := congrArg (BitVec.getLsbD · i) h0
  simp only [BitVec.getLsbD_and, BitVec.getLsbD_not, BitVec.getLsbD_ofNat, Nat.testBit_or, Nat.testBit_two_pow_self, hi,
    show m.testBit i = false from h] at hbit
  simp at hbit

/-- What a stored value asserts depends on its unmasked bits alone. -/
theorem State.assertedBy_congr (s : State) {a : Nat} {v w : Word}
    (h : v &&& ~~~ BitVec.ofNat 32 (s.reg (a + 4)) = w &&& ~~~ BitVec.ofNat 32 (s.reg (a + 4))) :
    s.assertedBy a v = s.assertedBy a w := by
  simp only [State.assertedBy, h]

/-- A page header that holds its reset value is 0. -/
theorem State.reg_of_header {s : State} {a : Nat} (ha : a % 4096 = 16 ∨ a % 4096 = 24) (h : s.regs.get? a = none) :
    s.reg a = 0 := by
  have hr : resetAt a = 0 := by
    unfold resetAt
    split
    · next p hp =>
      have := placeOf_off hp
      rw [if_pos (by omega)]
    · rfl
  have he : a ≠ Reg.pwrEnvelope := by rintro rfl; simp [Reg.pwrEnvelope] at ha
  simp [State.reg, h, hr, he]

/-! ### What a mask stops (R32) -/

section
variable (s : State) {a i : Nat} (ha : a % 4096 = 16 ∨ a % 4096 = 24) (hi : i < 32)
include ha hi

/-- Setting a bit whose mask is 1 raises no source. -/
theorem State.pendingSources_setReg_masked (hm : bit (s.reg (a + 4)) i = true) :
    (s.setReg a (s.reg a ||| 2 ^ i)).pendingSources = s.pendingSources := by
  have hsame : (fun r : Nat × Word => (s.setReg a (s.reg a ||| 2 ^ i)).assertedBy r.1 r.2) = fun r => s.assertedBy r.1 r.2 :=
    funext fun r => s.assertedBy_setReg _ ha r.1 r.2
  have hset := s.assertedBy_congr (and_not_mask_of_masked (s.reg a) hi hm)
  unfold State.pendingSources
  rw [hsame]
  congr 2
  apply Assoc.filterMap_set
  · intro hnone
    refine hset.trans ?_
    rw [State.reg_of_header ha hnone]
    simp [State.assertedBy]
  · intro w hw
    refine hset.trans ?_
    rw [State.reg_def s a w hw, BitVec.ofNat_toNat, BitVec.setWidth_eq]

/-- Setting a bit whose mask is 0 raises the source of its page. -/
theorem State.mem_pendingSources_setReg_unmasked {p : RegPlace} {b : Nat} (hm : bit (s.reg (a + 4)) i = false)
    (hp : placeOf a = some p) (hv : s.glb.variant.hasInst p.block p.inst = true) (hb : sourceOf p.block p.inst = some b) :
    (if a % 4096 = 24 then b + 1 else b) ∈ (s.setReg a (s.reg a ||| 2 ^ i)).pendingSources := by
  refine List.mem_append_left _ (List.mem_eraseDups.mpr (List.mem_filterMap.mpr ⟨_, s.regs.mem_set a _, ?_⟩))
  rw [State.assertedBy_setReg s _ ha]
  simp only [State.assertedBy, ha, if_true, and_not_mask_of_unmasked (s.reg a) hi hm, if_false, hp, hv, hb, Option.map_some]

end

/-- Settles O58: a `PG_ERR` or `PG_EVT` keeps every bit set in it, and what it asserts are its unmasked bits. -/
theorem masksStopSourcesNotBits : Obligations.MasksStopSourcesNotBits := by
  refine ⟨?_, ?_, ?_, ?_⟩
  · intro s e off h0 hi hm
    exact ⟨s.bit_setReg_or _ hi, s.pendingSources_setReg_masked (a := e.1 + off + 0x10) (by omega) hi hm⟩
  · intro s e off h0 hi hm
    exact ⟨s.bit_setReg_or _ hi, s.pendingSources_setReg_masked (a := e.1 + off + 0x18) (by omega) hi hm⟩
  · intro s e off b p h0 hi hm hp hv hb
    have h := s.mem_pendingSources_setReg_unmasked (a := e.1 + off + 0x10) (by omega) hi hm hp hv hb
    rwa [if_neg (by omega)] at h
  · intro s e off b p h0 hi hm hp hv hb
    have h := s.mem_pendingSources_setReg_unmasked (a := e.1 + off + 0x18) (by omega) hi hm hp hv hb
    rwa [if_pos (by omega)] at h

end Sys2Proof.Machine
end

section
/-! The registers through what follows a command of Causeway: of the stored registers it changes `CWY_RING_LATMAX`, the longest
ring step, and the `PG_ERR` and `PG_EVT` of pages (R135, R228, R254). -/

namespace Sys2Proof.Machine

variable (s t : State) (a : Nat)

/-! ### Ports that fail (R228, R253, R356) -/

@[simp] theorem State.moveCopies_frameOf (i p : Nat) : (s.moveCopies i p).frameOf a = s.frameOf a := by
  unfold State.moveCopies
  split
  · rfl
  · split
    · rfl
    · split
      · rfl
      · simp

@[simp] theorem State.leaveSession_frameOf (i p : Nat) : (s.leaveSession i p).frameOf a = s.frameOf a := by
  unfold State.leaveSession
  split
  · rfl
  · simp

@[simp] theorem State.dropPort_frameOf (p : Nat) : (s.dropPort p).frameOf a = s.frameOf a := by
  simp [State.dropPort]

@[simp] theorem State.fault_frameOf (u c r x d n : Nat) : (s.fault u c r x d n).frameOf a = s.frameOf a := by
  simp +decide [State.fault]

@[simp] theorem State.setHistory_frameOf (u : Nat) (f : History → History) : (s.setHistory u f).frameOf a = s.frameOf a := (rfl)

@[simp] theorem State.declarePermanent_frameOf (u : Nat) : (s.declarePermanent u).frameOf a = s.frameOf a := by
  simp +decide [State.declarePermanent]

@[simp] theorem State.portFailed_frameOf (p : Nat) : (s.portFailed p).frameOf a = s.frameOf a := by
  simp +decide [State.portFailed]

@[simp] theorem State.blindPorts_frameOf : s.blindPorts.frameOf a = s.frameOf a := by
  simp [State.blindPorts]

@[simp] theorem State.detachSteps_frameOf : s.detachSteps.frameOf a = s.frameOf a := by
  simp [State.detachSteps]

/-! ### Rings (R121, R127, R135) -/

@[simp] theorem State.modStep_frameOf (n : Nat) (f : Step → Step) : (s.modStep n f).frameOf a = s.frameOf a := (rfl)
@[simp] theorem State.workEnds_frameOf (i : Nat) : (s.workEnds i).frameOf a = s.frameOf a := (rfl)

@[simp] theorem State.countResult_frameOf (d : Nat) (l : Bool) (c : Status) : (s.countResult d l c).frameOf a = s.frameOf a := by
  simp [State.countResult]

@[simp] theorem State.completeStep_frameOf (x : Step) (c : Status) (r : List Partial) :
    (s.completeStep x c r).frameOf a = s.frameOf a := by
  simp [State.completeStep]

@[simp] theorem State.setErrD_frameOf (d : Nat) (e : Nat × Nat) (off : Nat) (he : e.1 % 4096 = 0) (ho : off % 4096 = 0) :
    (s.setErrD d e off).frameOf a = s.frameOf a := by
  simp [State.setErrD, he, ho]

/-- The end of a ring step books its time in `CWY_RING_LATMAX`. -/
@[simp] theorem State.endRing_frameOf (x : Step) (c : Status) :
    (s.endRing x c).frameOf Reg.cwyRingLatMax = s.frameOf Reg.cwyRingLatMax := by
  simp +decide [State.endRing, State.setReg_frameOf]

@[simp] theorem State.ringCombine_frameOf (n : Nat) :
    (s.ringCombine n).frameOf Reg.cwyRingLatMax = s.frameOf Reg.cwyRingLatMax := by
  unfold State.ringCombine
  split
  · rfl
  · split
    · rfl
    · dsimp only
      split
      · simp
      · rfl

@[simp] theorem xltOff_mod (i : Nat) : xltOff i % 4096 = 0 := by unfold xltOff; omega

@[simp] theorem State.chainLostAt_frameOf (i : Nat) : (s.chainLostAt i).frameOf a = s.frameOf a := by
  unfold State.chainLostAt
  split
  · rfl
  · simp +decide

@[simp] theorem State.chainLost_frameOf : s.chainLost.frameOf a = s.frameOf a := by
  simp [State.chainLost]

@[simp] theorem State.ringLosses_frameOf : s.ringLosses.frameOf Reg.cwyRingLatMax = s.frameOf Reg.cwyRingLatMax := by
  simp [State.ringLosses]

@[simp] theorem State.ringHellos_frameOf : s.ringHellos.frameOf a = s.frameOf a := by
  unfold State.ringHellos
  refine s.forEach_frameOf a _ _ fun e t => ?_
  split <;> simp

@[simp] theorem State.sendJoin_frameOf (i p : Nat) : (s.sendJoin i p).frameOf a = s.frameOf a := by
  unfold State.sendJoin
  split <;> simp

@[simp] theorem State.ringJoins_frameOf : s.ringJoins.frameOf a = s.frameOf a := by
  unfold State.ringJoins
  refine s.forEach_frameOf a _ _ fun e t => ?_
  split <;> simp

/-! ### The log and the whole -/

@[simp] theorem State.sessionAudit_frameOf : (s.sessionAudit t).frameOf a = t.frameOf a := by
  simp [State.sessionAudit]

/-- What follows a command of Causeway leaves the frame of `CWY_RING_LATMAX`. -/
theorem State.cwyFollow_frameOf : (s.cwyFollow t).frameOf Reg.cwyRingLatMax = t.frameOf Reg.cwyRingLatMax :=
  State.only_frameOf _ (by simp)

/-- A register that is neither `CWY_RING_LATMAX` nor the `PG_ERR` or `PG_EVT` of a page stands through what follows a command of
Causeway. -/
theorem State.cwyFollow_reg {b : Nat} (hb : b ≠ Reg.cwyRingLatMax) (he : b % 4096 ≠ 16) (hv : b % 4096 ≠ 24) :
    (s.cwyFollow t).reg b = t.reg b :=
  State.reg_eq_of_frameOf (s.cwyFollow_frameOf t) hb he hv

end Sys2Proof.Machine
end

section
/-! Lemmas of register writes: fields, and the paths of a write through its page header and its register (R11, R35, R37). -/

namespace Sys2Proof.Machine

/-! ### Fields of a word -/

/-- A field of a word is that of the number it was made from. -/
theorem bits_mod_two_pow {hi lo : Nat} (v : Nat) (hl : lo ≤ hi) (h : hi < 32) : bits (v % 2 ^ 32) hi lo = bits v hi lo := by
  have hsplit : 2 ^ 32 = 2 ^ lo * 2 ^ (32 - lo) := by rw [← Nat.pow_add]; congr 1; omega
  have hdvd : 2 ^ (hi + 1 - lo) ∣ 2 ^ (32 - lo) := Nat.pow_dvd_pow 2 (by omega)
  rw [bits, bits, hsplit, Nat.mod_mul_right_div_self, Nat.mod_mod_of_dvd _ hdvd]

/-- A field with a new value holds it. -/
theorem bits_setBits (v hi lo x : Nat) : bits (setBits v hi lo x) hi lo = x % 2 ^ (hi + 1 - lo) := by
  have hrest (q w : Nat) : q - q % w = w * (q / w) := by have := Nat.div_add_mod q w; omega
  simp only [bits, setBits]
  rw [Nat.add_mul_div_right _ _ (Nat.two_pow_pos lo), Nat.mul_comm _ (2 ^ lo), Nat.sub_mul_div, hrest, Nat.mul_add_mod, Nat.mod_mod]

/-- A word replaced whole. -/
theorem setBits_word {v x : Nat} (hv : v < 2 ^ 32) (hx : x < 2 ^ 32) : setBits v 31 0 (bits x 31 0) = x := by
  simp only [setBits, bits, pow_zero, Nat.div_one, Nat.mul_one]
  omega

/-- A field of a register that is set to a value holds it. -/
theorem State.fld_setFld (s : State) (a : Nat) {hi lo : Nat} (x : Nat) (hl : lo ≤ hi) (h : hi < 32) :
    (s.setFld a hi lo x).fld a hi lo = x % 2 ^ (hi + 1 - lo) := by
  rw [State.fld, State.setFld, State.reg_setReg_same, bits_mod_two_pow _ hl h, bits_setBits]

/-- `GLB_CAL_CTL.ADDR` moves on by 4 and wraps after 4 MiB (R375). -/
theorem State.calAddr_calNext (s : State) : s.calNext.calAddr = (s.calAddr + 4) % 2 ^ 22 := by
  rw [State.calAddr, State.calNext, State.fld_setFld _ _ _ (by decide) (by decide), State.calAddr]
  omega

/-! ### The path of a write -/

section
variable {s : State} {a : Nat} {w : RegWrite} (h : s.openTo a w)
include h

/-- An open write finds the device in `SHARED` mode. -/
theorem State.sole_of_openTo : s.lve.sole = none := by
  obtain ⟨-, -, -, hsole, -⟩ := h
  exact hsole

theorem State.allServe_of_openTo : s.allServe := by
  obtain ⟨-, -, -, -, hserve, -⟩ := h
  exact hserve

theorem State.unlocked_of_openTo {p : RegPlace} (hp : placeOf a = some p) : s.presentAt p = true ∧ s.lockedAt p a = false := by
  obtain ⟨-, -, -, -, -, -, -, hpl⟩ := h
  simpa [hp] using hpl

end

/-- In `SHARED` mode Levee's mode excludes no write outside the field tests (R309, R357). -/
theorem State.deniedWrite_shared {s : State} {p : RegPlace} (v : Nat) (hs : s.lve.sole = none) (hb : p.block ≠ 0x3F) :
    s.deniedWrite p v = false := by
  simp [State.deniedWrite, State.soleDenies, hs, hb]

/-- A whole write that is open reaches its page header (R27, R29). -/
theorem regWrite_header {s : State} {a : Nat} {w : RegWrite} {p : RegPlace} (h : s.openTo a w) (hm : msixAt a = none)
    (hp : placeOf a = some p) (ho : p.off < 0x20) (h4 : a % 4 = 0) :
    s.regWrite a w = s.writeHeader w.origin p a w.value.toNat := by
  obtain ⟨hpres, -⟩ := State.unlocked_of_openTo h hp
  obtain ⟨-, hre, hbe, -⟩ := h
  have hbell : ¬ (p.block = 0x40 ∧ 4 ≤ p.page) := by
    rintro ⟨hb, hpage⟩
    simp only [State.presentAt, hb, Bool.and_eq_true, decide_eq_true_eq] at hpres
    have : p.page ≤ 0 := hpres.2
    omega
  simp [State.regWrite, hre, hbe, hm, hp, h4, hpres, ho, hbell]

/-- A write that is carried out with no bit reserved, no lock hit and no error, and that is not recorded, stores and acts alone. -/
theorem State.carryOut_plain {s : State} {o : Origin} {p : RegPlace} {a v : Nat} {r : RegSpec} {l : List FieldSpec}
    (hc : carriesReserved p r v = false) (hk : s.kindOf p v l = none) :
    s.carryOut o p a v r l false none = (s.storeWrite p a v (s.reg a) l).act o p v (s.reg a) l := by
  simp [State.carryOut, State.noteWrite, State.logWrite, hc, hk]

theorem State.kindOf_unrecorded (s : State) {p : RegPlace} (v : Nat) (l : List FieldSpec) (h : unrecorded p = true) :
    s.kindOf p v l = none := by
  simp [State.kindOf, h]

/-- A register whose fields fill the word reserves no bit. -/
theorem carriesReserved_word {p : RegPlace} {r : RegSpec} (v : Nat) (hb : p.block ≠ 0x04) (hm : maskOfFields r.fields = 2 ^ 32 - 1) :
    carriesReserved p r v = false := by
  simp [carriesReserved, hm, hb]

end Sys2Proof.Machine
end

section
/-! The register accesses that complete: plain registers, locks, the calibration registers and `GLB_T3_CTL` (R35, R36, R375,
R376, R379). -/

namespace Sys2Proof.Machine

/-! ### The parts in the scope of a command are those of its body -/

section
variable {s t : State} {c : Scope}

theorem State.afterIn_glb (h : c.glb = true) : (s.afterIn c t).glb = t.glb := by
  simp only [State.afterIn, State.after_glb, State.only, h, cond_true]

theorem State.afterIn_aud (h : c.aud = true) : (s.afterIn c t).aud = t.aud := by
  simp only [State.afterIn, State.after_aud, State.only, h, cond_true]

theorem State.afterIn_pea (h : c.pea = true) : (s.afterIn c t).pea = t.pea := by
  simp only [State.afterIn, State.after_pea, State.only, h, cond_true]

theorem State.afterIn_slc (h : c.slc = true) : (s.afterIn c t).slc = t.slc := by
  simp only [State.afterIn, State.after_slc, State.only, h, cond_true]

theorem State.afterIn_ctrs (h : c.ctrs = true) : (s.afterIn c t).ctrs = t.ctrs := by
  simp only [State.afterIn, State.after_ctrs, State.only, h, cond_true]

/-- The registers, where the scope has `GLB` too: a reset value follows the variant. -/
theorem State.afterIn_reg (hr : c.regs = true) (hg : c.glb = true) (b : Nat) : (s.afterIn c t).reg b = t.reg b := by
  simp only [State.reg, State.afterIn_glb hg]
  simp only [State.afterIn, State.after_regs, State.only, hr, cond_true]

end

/-! ### Plain registers (R11) -/

/-- A register that no unit holds takes the word that its fields give, outside the hold-off registers of R366. -/
theorem State.storeWrite_reg {s : State} {p : RegPlace} {a v : Nat} {l : List FieldSpec} (hb : p.block ≠ 0x04)
    (hh : heldElsewhere p = false) (hn : newWord (s.reg a) v l < 2 ^ 32) :
    (s.storeWrite p a v (s.reg a) l).reg a = newWord (s.reg a) v l := by
  have e : s.storeWrite p a v (s.reg a) l
      = if l.isEmpty || newWord (s.reg a) v l == s.reg a then s else s.setReg a (newWord (s.reg a) v l) := by
    simp [State.storeWrite, hb, hh]
  rw [e]
  split
  · next h =>
    rw [Bool.or_eq_true, List.isEmpty_iff, beq_iff_eq] at h
    rcases h with rfl | h
    · rfl
    · exact h.symm
  · rw [State.reg_setReg_same, Nat.mod_eq_of_lt hn]

/-- The place of a scratch register. -/
def scratchPlace (i : Nat) : RegPlace := ⟨0x01, 0, 0, 0x70 + 4 * i⟩

/-- The scratch registers as the table gives them. -/
def scratchSpec : RegSpec := { block := 0x1, page := 0, off := 0x70, n := 4, stride := 4, fields := [⟨31, 0, .rw, 0⟩] }

theorem scratch_table : ∀ i < 4, placeOf (Reg.glbScratch + 4 * i) = some (scratchPlace i) ∧
    msixAt (Reg.glbScratch + 4 * i) = none ∧ addrExists (Reg.glbScratch + 4 * i) = true ∧ resetAt (Reg.glbScratch + 4 * i) = 0 ∧
    regAt { scratchPlace i with off := (scratchPlace i).off / 4 * 4 } = some scratchSpec ∧ (Reg.glbScratch + 4 * i) % 4 = 0 ∧
    unrecorded (scratchPlace i) = true ∧ heldElsewhere (scratchPlace i) = false := by decide

/-- A scratch register acts on nothing. -/
theorem State.act_scratch (s : State) (o : Origin) {i : Nat} (hi : i < 4) (v w : Nat) (l : List FieldSpec) :
    s.act o (scratchPlace i) v w l = s := by
  obtain rfl | rfl | rfl | rfl : i = 0 ∨ i = 1 ∨ i = 2 ∨ i = 3 := by omega
  all_goals rfl

/-- A write of a scratch register stores its value. -/
theorem State.regWrite_scratch {s : State} {w : RegWrite} {i : Nat} (h : s.openTo (Reg.glbScratch + 4 * i) w) (hi : i < 4) :
    (s.regWrite (Reg.glbScratch + 4 * i) w).reg (Reg.glbScratch + 4 * i) = w.value.toNat := by
  obtain ⟨hp, hm, -, hreset, hr, h4, hu, hheld⟩ := scratch_table i hi
  generalize ha : Reg.glbScratch + 4 * i = a at *
  have hold : s.reg a < 2 ^ 32 := by
    unfold State.reg
    split
    · exact BitVec.isLt _
    · rw [if_neg (by simp only [Reg.glbScratch, Reg.pwrEnvelope] at ha ⊢; omega), hreset]
      decide
  have hfree (new : Nat) : s.formatRefused (scratchPlace i) a w.value.toNat new = false := by
    simp [State.formatRefused, scratchPlace, isRegionReg]
  have hnew : newWord (s.reg a) w.value.toNat scratchSpec.fields = w.value.toNat := setBits_word hold w.value.isLt
  have hopen : s.regWrite a w = s.storeWrite (scratchPlace i) a w.value.toNat (s.reg a) scratchSpec.fields := by
    have hden := State.deniedWrite_shared (p := scratchPlace i) w.value.toNat (State.sole_of_openTo h) (by simp [scratchPlace])
    rw [regWrite_body s a w (scratchPlace i) scratchSpec h hm hp (by simp [scratchPlace]) (by simp only [scratchPlace]; omega)
        h4 hr rfl rfl,
      writeBody_open s a w _ _ h hp rfl hden hfree (fun _ => rfl),
      State.carryOut_plain (carriesReserved_word _ (by simp [scratchPlace]) (by decide)) (s.kindOf_unrecorded _ _ hu),
      State.act_scratch _ _ hi]
    rfl
  rw [hopen, State.storeWrite_reg (by simp [scratchPlace]) hheld (hnew.symm ▸ w.value.isLt), hnew]

/-- `REGISTER_WRITE` of a scratch register stores its value. -/
theorem registerWrite_scratch {s : State} {w : RegWrite} {i : Nat} (h : s.openTo (Reg.glbScratch + 4 * i) w) (hi : i < 4) :
    ∃ t, exec (.registerWrite (Reg.glbScratch + 4 * i) w) s = .next t ∧ t.reg (Reg.glbScratch + 4 * i) = w.value.toNat := by
  obtain ⟨-, -, hex, -⟩ := scratch_table i hi
  refine ⟨_, exec_registerWrite_next s w hex, ?_⟩
  have hfollow := s.cwyFollow_reg (s.regWrite (Reg.glbScratch + 4 * i) w) (b := Reg.glbScratch + 4 * i)
    (by simp only [Reg.glbScratch, Reg.cwyRingLatMax]; omega) (by simp only [Reg.glbScratch]; omega)
    (by simp only [Reg.glbScratch]; omega)
  rw [State.afterCwyIn_eq, State.afterIn_reg rfl rfl, hfollow, State.regWrite_scratch h hi]

/-! ### Locks (R35) -/

/-- The address of `PG_CTRL` lies in a page header at its own offset. -/
theorem RegPlace.ctrl_mod {p : RegPlace} {a : Nat} (hp : placeOf a = some p) : p.ctrl a % 4096 = 8 := by
  have := placeOf_off hp
  simp only [RegPlace.ctrl]
  omega

/-- A write of `PG_CTRL` with `LOCK` locks its block. -/
theorem State.regWrite_lock {s : State} {w : RegWrite} {p : RegPlace} {a : Nat} (h : s.openTo a w) (hp : placeOf a = some p)
    (ho : p.off = 8) (hm : msixAt a = none) (hb : bit w.value.toNat 31 = true) :
    (s.regWrite a w).reg (p.ctrl a) = 2 ^ 31 := by
  have hoff := placeOf_off hp
  have hctrl := RegPlace.ctrl_mod hp
  rw [regWrite_header h hm hp (by omega) (by omega)]
  obtain ⟨-, hunlocked⟩ := State.unlocked_of_openTo h hp
  obtain ⟨-, -, -, hsole, -, haud, -⟩ := h
  have hset (u : State) : (u.setReg (p.ctrl a) (2 ^ 31)).reg (p.ctrl a) = 2 ^ 31 := by rw [State.reg_setReg_same]; rfl
  simp only [State.writeHeader, ho, hsole, hb, hunlocked, haud]
  dsimp only [Option.isSome]
  simp only [Bool.false_and, Bool.and_false, Bool.not_true, Bool.or_self, Bool.false_eq_true, if_false]
  split
  · exact hset _
  · rw [State.pageErr, State.reg_setReg_other _ _ (by omega), hset]

theorem exec_lock {s : State} {w : RegWrite} {p : RegPlace} {a : Nat} (h : s.openTo a w) (hp : placeOf a = some p)
    (ho : p.off = 8) (hm : msixAt a = none) (hb : bit w.value.toNat 31 = true) :
    ∃ t, exec (.lock a w) s = .next t ∧ bit (t.reg (p.ctrl a)) 31 = true ∧ t.lockedAt p a = true := by
  have hrow : (decide (a % 0x1000 = 0x08) && wbit w 31) = true := by
    rw [Bool.and_eq_true, decide_eq_true_eq]
    exact ⟨(placeOf_off hp).symm.trans ho, hb⟩
  have hreg : ((s.rowWrite .row true a w).reg (p.ctrl a)) = 2 ^ 31 := by
    rw [State.rowWrite_true, State.afterIn_reg rfl rfl, State.regWrite_lock h hp ho hm hb]
  refine ⟨s.rowWrite .row true a w, ?_, ?_, ?_⟩
  · change execLock a w s = _
    rw [execLock, hrow]
  · rw [hreg]; rfl
  · rw [State.lockedAt, hreg]; rfl

/-! ### The staged calibration set (R375, R376) -/

/-- What a read of a register meets first: the high word latched for the origin, or the live register (R28). -/
def State.latchedOr (s : State) (o : Origin) (a : Nat) : Nat :=
  match s.latches.get? o with
  | some (k, x) => if k = a then x.toNat else s.readReg a
  | none => s.readReg a

/-- Without a latch for the address an origin reads the live register. -/
theorem State.latchedOr_live {s : State} {o : Origin} {a : Nat} (h : (s.latches.get? o).map Prod.fst ≠ some a) :
    s.latchedOr o a = s.readReg a := by
  unfold State.latchedOr
  split
  · next k x hl =>
    have hk : k ≠ a := fun e => h (by rw [hl, e]; rfl)
    rw [if_neg hk]
  · rfl

/-- All byte lanes give the whole word (R27). -/
theorem ofNat_and_laneMask (v : Nat) : BitVec.ofNat 32 (v &&& laneMask 15) = BitVec.ofNat 32 v := by
  rw [show laneMask 15 = 2 ^ 32 - 1 by decide, Nat.and_two_pow_sub_one_eq_mod]
  exact BitVec.eq_of_toNat_eq (by simp)

/-- A read of `GLB_CAL_RDATA` gives its word and moves `ADDR` on. -/
theorem State.regRead_calRdata {s : State} {o : Origin} (h : s.reaches o Reg.glbCalRdata = true) :
    s.regRead o Reg.glbCalRdata 15
      = (({ s with latches := s.latches.erase o, fresh := s.fresh + 1 } : State).calNext).emit
          (.regData o Reg.glbCalRdata (BitVec.ofNat 32 (s.latchedOr o Reg.glbCalRdata))) := by
  rw [← ofNat_and_laneMask]
  rw [State.regRead, h]
  rfl

theorem exec_calRdataRead {s : State} {o : Origin} (h : s.reaches o Reg.glbCalRdata = true) :
    ∃ t, exec (.calRdataRead o) s = .next t ∧ t.calAddr = (s.calAddr + 4) % 2 ^ 22 ∧
      ∃ x, t.outs = .regData o Reg.glbCalRdata x :: s.outs ∧
        ((s.latches.get? o).map Prod.fst ≠ some Reg.glbCalRdata → x = BitVec.ofNat 32 (s.readReg Reg.glbCalRdata)) := by
  refine ⟨s.afterIn .reading (s.regRead o Reg.glbCalRdata 15), rfl, ?_, ?_⟩
  · rw [State.regRead_calRdata h]
    exact State.calAddr_calNext _
  · rw [State.regRead_calRdata h]
    exact ⟨_, rfl, fun hl => congrArg _ (State.latchedOr_live hl)⟩

/-- A place on the page of `GLB` that holds `GLB_CAL_CTL`, `GLB_CAL_WDATA` and `GLB_T3_CTL`. -/
def calPlace (off : Nat) : RegPlace := ⟨0x01, 0, 3, off⟩

/-- A write of a register of that page that is open and not refused for its value or its resource is carried out in full. -/
theorem State.regWrite_calPlace {s : State} {a off : Nat} {w : RegWrite} {r : RegSpec} (h : s.openTo a w)
    (hp : placeOf a = some (calPlace off)) (hm : msixAt a = none) (ho : 0x20 ≤ off) (h4 : a % 4 = 0)
    (hr : regAt (calPlace (off / 4 * 4)) = some r)
    (hf : ∀ new, s.formatRefused (calPlace off) a w.value.toNat new = false)
    (hb : ∀ new, s.busyRefused (calPlace off) a w.value.toNat new = false) :
    s.regWrite a w = s.carryOut w.origin (calPlace off) a w.value.toNat r (r.fields.filter fun f => f.acc != Access.ro) false none := by
  rw [regWrite_body s a w (calPlace off) r h hm hp (by simp [calPlace]) ho h4 hr (by simp [calPlace]) (by simp [testOnly, calPlace]),
    writeBody_open s a w (calPlace off) r h hp rfl (State.deniedWrite_shared _ (State.sole_of_openTo h) (by simp [calPlace])) hf hb]

/-- A write of `GLB_CAL_WDATA` stages its word. -/
theorem State.regWrite_calWdata {s : State} {w : RegWrite} (h : s.openTo Reg.glbCalWdata w) :
    s.regWrite Reg.glbCalWdata w = s.calWrite w.value.toNat := by
  have hstore : s.storeWrite (calPlace 0x4C) Reg.glbCalWdata w.value.toNat (s.reg Reg.glbCalWdata) [⟨31, 0, .wo, 0⟩] = s := by
    simp [State.storeWrite, newWord, calPlace]
  rw [State.regWrite_calPlace (off := 0x4C) h rfl rfl (by decide) rfl rfl (fun _ => rfl) (fun _ => rfl),
    State.carryOut_plain (carriesReserved_word _ (by decide) (by decide)) (s.kindOf_unrecorded _ _ rfl)]
  exact congrArg (State.act · w.origin (calPlace 0x4C) w.value.toNat _ _) hstore

theorem exec_calWdataWrite {s : State} {w : RegWrite} (h : s.openTo Reg.glbCalWdata w) (hc : s.glb.calState ≠ .committing) :
    ∃ t, exec (.calWdataWrite w) s = .next t ∧ t.glb.calStaged.get? s.calAddr = some w.value ∧ t.glb.calState = .staged ∧
      t.calAddr = (s.calAddr + 4) % 2 ^ 22 := by
  refine ⟨s.rowWrite .row true Reg.glbCalWdata w, rfl, ?_⟩
  rw [State.rowWrite_true, State.regWrite_calWdata h, State.calWrite, if_neg hc]
  refine ⟨?_, rfl, ?_⟩
  · refine (Assoc.get?_set_same s.glb.calStaged s.calAddr (BitVec.ofNat 32 w.value.toNat)).trans ?_
    rw [BitVec.ofNat_toNat, BitVec.setWidth_eq]
  · rw [State.calAddr, State.fld, State.afterIn_reg rfl rfl]
    exact State.calAddr_calNext _

/-! ### `COMMIT` and `DISCARD` (R376) -/

@[simp] theorem State.setBudget_glb (s : State) (d : Nat) (f : DomBudget → DomBudget) : (s.setBudget d f).glb = s.glb := rfl
@[simp] theorem State.charge_glb (s : State) (d : Nat) (k : WorkClass) (l : Bool) (n : Nat) : (s.charge d k l n).glb = s.glb := rfl

@[simp] theorem State.unqueue_glb (s : State) (w : Work) : (s.unqueue w).glb = s.glb := by
  cases w <;> rfl

@[simp] theorem State.chargeItem_glb (s : State) (i : Item) (b : Bool) : (s.chargeItem i b).glb = s.glb := by
  simp only [State.chargeItem, apply_ite State.glb, State.unqueue_glb, State.bump_glb, State.charge_glb, ite_self]

@[simp] theorem State.offer_glb (s : State) (i : Item) : (s.offer i).glb = s.glb := by
  simp only [State.offer]
  split
  · simp only [State.unqueue_glb, State.charge_glb] <;> rfl
  · split
    · split
      · exact State.chargeItem_glb _ _ _
      · rfl
    · rfl

@[simp] theorem State.sealSegment_glb (s : State) (n : Nat) : (s.sealSegment n).glb = s.glb := by
  simp only [State.sealSegment, apply_ite State.glb, State.setEvt_glb, State.offer_glb, ite_self]

/-- A persistent change leaves `GLB` until its segment is in the flash area. -/
@[simp] theorem State.auditPersist_glb (s : State) (d : Nat) (w : Who) (k n : Nat) (x y : List Byte) (p : Persist) :
    (s.auditPersist d w k n x y p).glb = s.glb := by
  simp only [State.auditPersist, apply_ite State.glb, State.sealSegment_glb, State.audit_glb, ite_self]

/-- A persistent change waits for its entry. -/
theorem State.any_waiting_auditPersist (s : State) (d : Nat) (w : Who) (k n : Nat) (x y : List Byte) (p : Persist) :
    ((s.auditPersist d w k n x y p).aud.waiting.any fun e => e.2 == p) = true := by
  simp [State.auditPersist]

/-- What a write carried out finds in `GLB` when its register acts. -/
theorem State.carryOut_acts_glb (s : State) (o : Origin) (p : RegPlace) (a v : Nat) (r : RegSpec) (l : List FieldSpec) (b : Bool)
    (e : Option (Nat × Nat)) : ∃ u : State, s.carryOut o p a v r l b e = u.act o p v (s.reg a) l ∧ u.glb = s.glb := by
  obtain ⟨u, hu, hw⟩ := carryOut_acts s o p a v r l b e
  exact ⟨u, hu, (congrArg State.glb hw).symm⟩

theorem State.act_commit {s : State} {o : Origin} {v w : Nat} {l : List FieldSpec} (h31 : bit v 31 = true) (h30 : bit v 30 = false)
    (hc : s.glb.calState ≠ .committing) : s.act o (calPlace 0x44) v w l = s.calCommit o.who := by
  change (if bit v 30 = true then (if bit v 31 = true ∧ s.glb.calState ≠ .committing then s.calCommit o.who else s).calDiscard
    else if bit v 31 = true ∧ s.glb.calState ≠ .committing then s.calCommit o.who else s) = _
  rw [if_neg (by simp [h30]), if_pos ⟨h31, hc⟩]

theorem State.act_discard {s : State} {o : Origin} {v w : Nat} {l : List FieldSpec} (h31 : bit v 31 = false) (h30 : bit v 30 = true) :
    s.act o (calPlace 0x44) v w l = s.calDiscard := by
  change (if bit v 30 = true then (if bit v 31 = true ∧ s.glb.calState ≠ .committing then s.calCommit o.who else s).calDiscard
    else if bit v 31 = true ∧ s.glb.calState ≠ .committing then s.calCommit o.who else s) = _
  rw [if_pos h30, if_neg (by simp [h31])]

/-- A write of `GLB_CAL_CTL` that commits no invalid set is carried out. -/
theorem State.regWrite_calCtl {s : State} {w : RegWrite} (h : s.openTo Reg.glbCalCtl w)
    (hv : bit w.value.toNat 31 = true → calValid s.glb.staged = true) :
    ∃ u : State, u.glb = s.glb ∧ ∃ old l, s.regWrite Reg.glbCalCtl w = u.act w.origin (calPlace 0x44) w.value.toNat old l := by
  have hf (new : Nat) : s.formatRefused (calPlace 0x44) Reg.glbCalCtl w.value.toNat new = false := by
    change (bit w.value.toNat 31 && !calValid s.glb.staged) = false
    cases hb : bit w.value.toNat 31
    · rfl
    · simp [hv hb]
  rw [State.regWrite_calPlace (off := 0x44) h rfl rfl (by decide) rfl rfl hf (fun _ => rfl)]
  obtain ⟨u, hu, hg⟩ := s.carryOut_acts_glb w.origin (calPlace 0x44) Reg.glbCalCtl w.value.toNat _ _ false none
  exact ⟨u, hg, _, _, hu⟩

theorem exec_commit {s : State} {w : RegWrite} (h : s.openTo Reg.glbCalCtl w) (h31 : bit w.value.toNat 31 = true)
    (h30 : bit w.value.toNat 30 = false) (hc : s.glb.calState ≠ .committing) (hv : calValid s.glb.staged = true) :
    ∃ t, exec (.commit w) s = .next t ∧ t.glb.calState = .committing ∧ (t.aud.waiting.any fun x => x.2 == .calCommit) = true := by
  obtain ⟨u, hg, old, l, hu⟩ := State.regWrite_calCtl h fun _ => hv
  rw [State.act_commit h31 h30 (hg ▸ hc)] at hu
  have hrow : exec (.commit w) s = .next (s.afterIn .row (s.regWrite Reg.glbCalCtl w)) := by
    change execCommit w s = _
    rw [execCommit, wbit, h31, State.rowWrite_true]
  refine ⟨_, hrow, ?_, ?_⟩
  · rw [State.afterIn_glb rfl, hu, State.calCommit, State.auditPersist_glb]
  · rw [State.afterIn_aud rfl, hu]
    exact State.any_waiting_auditPersist _ _ _ _ _ _ _ _

theorem exec_discard {s : State} {w : RegWrite} (h : s.openTo Reg.glbCalCtl w) (h31 : bit w.value.toNat 31 = false)
    (h30 : bit w.value.toNat 30 = true) (hc : s.glb.calState ≠ .committing) :
    ∃ t, exec (.discard w) s = .next t ∧ t.glb.calStaged = [] ∧ t.glb.calState = .idle := by
  obtain ⟨u, hg, old, l, hu⟩ := State.regWrite_calCtl h fun hb => absurd hb (by simp [h31])
  rw [State.act_discard h31 h30, State.calDiscard, if_neg (hg ▸ hc)] at hu
  have hrow : exec (.discard w) s = .next (s.afterIn .row (s.regWrite Reg.glbCalCtl w)) := by
    change execDiscard w s = _
    rw [execDiscard, wbit, h30, State.rowWrite_true]
  refine ⟨_, hrow, ?_, ?_⟩ <;> rw [State.afterIn_glb rfl, hu]

/-! ### `RELEASE` (R379) -/

/-- What is left to be claimed after a restart: the parked records and the retained sectors. -/
def State.unclaimed (s : State) : List Park × List (Nat × Nat) := (s.pea.parked, s.pea.retained)

section
variable (s : State)

@[simp] theorem State.unclaimed_setPea (f : Pea → Pea) (h : (f s.pea).parked = s.pea.parked ∧ (f s.pea).retained = s.pea.retained) :
    (s.setPea f).unclaimed = s.unclaimed := Prod.ext h.1 h.2

@[simp] theorem State.unclaimed_bump (c n : Nat) : (s.bump c n).unclaimed = s.unclaimed := rfl

@[simp] theorem State.unclaimed_forEach {α : Type} (l : List α) (f : α → State → State)
    (h : ∀ x t, (f x t).unclaimed = t.unclaimed) : (s.forEach l f).unclaimed = s.unclaimed := by
  induction l generalizing s with
  | nil => rfl
  | cons x xs ih => exact (ih (f x s)).trans (h x s)

@[simp] theorem State.unclaimed_touch (n : Nat) : (s.touch n).unclaimed = s.unclaimed := by
  unfold State.touch
  split <;> rfl

@[simp] theorem State.unclaimed_setUnit (u : Nat) (c : Option Coarse) : (s.setUnit u c).unclaimed = s.unclaimed :=
  State.unclaimed_touch _ _

@[simp] theorem State.unclaimed_setFine (g : Nat) (l : Option (List (Option Nat))) : (s.setFine g l).unclaimed = s.unclaimed :=
  State.unclaimed_touch _ _

@[simp] theorem State.unclaimed_setBlk (b : Nat) (f : Blk → Blk) : (s.setBlk b f).unclaimed = s.unclaimed :=
  State.unclaimed_touch _ _

theorem State.unclaimed_toFine {s : State} {u : Nat} {r : Nat × List (Option Nat) × State} (h : s.toFine u = some r) :
    r.2.2.unclaimed = s.unclaimed := by
  unfold State.toFine at h
  split at h
  · cases h; rfl
  · obtain ⟨g, _, rfl⟩ := Option.map_eq_some_iff.mp h
    simp

@[simp] theorem State.unclaimed_dropGroup (u : Nat) : (s.dropGroup u).unclaimed = s.unclaimed := by
  unfold State.dropGroup
  split <;> simp

@[simp] theorem State.unclaimed_unmapUnit (u : Nat) : (s.unmapUnit u).unclaimed = s.unclaimed := by
  unfold State.unmapUnit
  split <;> simp

@[simp] theorem State.unclaimed_trimUnit (u : Nat) (l : List Nat) : (s.trimUnit u l).unclaimed = s.unclaimed := by
  unfold State.trimUnit
  split
  · rfl
  · dsimp only
    split
    · simp
    · split
      · next h => exact (State.unclaimed_setFine _ _ _).trans (State.unclaimed_toFine h)
      · simp
  · dsimp only
    split <;> simp

@[simp] theorem State.unclaimed_freeVictims : s.freeVictims.unclaimed = s.unclaimed := by
  unfold State.freeVictims
  refine s.unclaimed_forEach _ _ fun b t => ?_
  rw [State.unclaimed_setBlk]
  rfl

/-- A trim leaves what is to be claimed. -/
@[simp] theorem State.unclaimed_trim (x n : Nat) : (s.trim x n).unclaimed = s.unclaimed := by
  unfold State.trim
  rw [State.unclaimed_freeVictims]
  change ((s.trimBuffer x n).trimMap x n).unclaimed = _
  unfold State.trimMap
  rw [State.unclaimed_forEach _ _ _ fun u t => t.unclaimed_trimUnit u _]
  rfl

/-- `RELEASE` leaves nothing to be claimed. -/
theorem State.unclaimed_t3Release : s.t3Release.unclaimed = ([], []) := by
  simp only [State.t3Release, State.unclaimed_forEach, State.unclaimed_trim, implies_true]
  rfl

end

theorem exec_release {s : State} {w : RegWrite} (h : s.openTo Reg.glbT3Ctl w) (h31 : bit w.value.toNat 31 = true)
    (hr : ((s.pea.parked.map Park.domain).any s.reinstating) = false) :
    ∃ t, exec (.release w) s = .next t ∧ t.pea.parked = [] ∧ t.pea.retained = [] := by
  have hb (new : Nat) : s.busyRefused (calPlace 0x90) Reg.glbT3Ctl w.value.toNat new = false := by
    change (bit w.value.toNat 31 && (s.pea.parked.map Park.domain).any s.reinstating) = false
    rw [hr, Bool.and_false]
  obtain ⟨u, hu, -⟩ := s.carryOut_acts_glb w.origin (calPlace 0x90) Reg.glbT3Ctl w.value.toNat
    { block := 0x1, page := 3, off := 0x90, fields := [⟨31, 31, .wo, 0⟩] } [⟨31, 31, .wo, 0⟩] false none
  have hact : s.regWrite Reg.glbT3Ctl w = u.t3Release := by
    rw [State.regWrite_calPlace (off := 0x90) h rfl rfl (by decide) rfl rfl (fun _ => rfl) hb]
    exact hu.trans (if_pos h31)
  have hrow : exec (.release w) s = .next (s.afterIn { Scope.row with pea := true } u.t3Release) := by
    change execRelease w s = _
    rw [execRelease, wbit, h31, State.rowWrite_true, hact]
  have hnone := u.unclaimed_t3Release
  refine ⟨_, hrow, ?_, ?_⟩ <;> rw [State.afterIn_pea rfl]
  · exact congrArg Prod.fst hnone
  · exact congrArg Prod.snd hnone

/-- Settles O4: each access reaches its register (`regWrite_body`, `regWrite_header`), nothing refuses it, and what the register
does is said above for each. -/
theorem registerAccessesComplete : Obligations.RegisterAccessesComplete :=
  ⟨fun _ _ _ => registerWrite_scratch, fun _ _ _ _ => exec_lock, fun _ _ => exec_calRdataRead, fun _ _ => exec_calWdataWrite,
   fun _ _ => exec_commit, fun _ _ => exec_discard, fun _ _ => exec_release⟩

end Sys2Proof.Machine
end

section
/-! Register writes that are refused, and writes none of whose fields takes its value: a lock, Levee's mode, a full audit log, a
quota out of range (R35, R37, R167, R309, R331). -/

namespace Sys2Proof.Machine

/-! ### The path to the register -/

/-- A whole write of a present register by an origin that reaches it goes through the causes of Table 2.3. -/
theorem State.regWrite_present {s : State} {a : Nat} {w : RegWrite} {p : RegPlace} {r : RegSpec} (hre : s.reaches w.origin a = true)
    (hbe : w.be = 15) (hm : msixAt a = none) (hp : placeOf a = some p) (hpres : s.presentAt p = true) (hb : p.block ≠ 0x40)
    (ho : 0x20 ≤ p.off) (h4 : a % 4 = 0) (hr : regAt { p with off := p.off / 4 * 4 } = some r) (hi : p.inst = 0)
    (ht : testOnly p = false) : s.regWrite a w = s.writeBody w.origin p a w.value.toNat r := by
  have ho' : ¬ p.off < 0x20 := by omega
  have hd : (r.dev && p.inst != 0) = false := by simp [hi]
  simp [State.regWrite, hre, hbe, hm, hp, hb, h4, hr, hd, ht, hpres, ho']

/-- While the privileged units serve, no block is in warm reset (R341). -/
theorem State.warmAt_serves {s : State} (h : s.allServe) (b : Nat) : s.warmAt b = false := by
  obtain ⟨hx, hl, he⟩ := h
  unfold State.warmAt unitOfBlock
  split_ifs <;> simp [hx, hl, he]

/-! ### Writes of which no field takes its value -/

/-- The fields of a register that a write can change. -/
def RegSpec.writable (r : RegSpec) : List FieldSpec := r.fields.filter fun f => f.acc != Access.ro

theorem State.kindOf_nil (s : State) (p : RegPlace) (v : Nat) : s.kindOf p v [] = none := by
  simp [State.kindOf]

/-- A write of which no field takes its value, and that Levee's mode and a warm reset let through, notes its errors and acts on
nothing taken: neither the checks of the value nor the log come into play. -/
theorem State.writeBody_nothing_taken {s : State} {o : Origin} {p : RegPlace} {a v : Nat} {r : RegSpec}
    (hden : s.deniedWrite p v = false) (hwarm : s.warmAt p.block = false) (hpers : s.persistent p v = false)
    (htakes : (r.writable.filter fun f => !(f.acc == Access.rwl && s.lockedAt p a) && !(s.outOfRange o p v).1.contains f.lo) = []) :
    s.writeBody o p a v r = (s.noteWrite p a v r (s.lockedAt p a && r.writable.any fun f => f.acc == Access.rwl)
      (if s.lockedAt p a && r.writable.all (fun f => f.acc == Access.rwl) then none else (s.outOfRange o p v).2)).act
        o p v (s.reg a) [] := by
  unfold RegSpec.writable at *
  simp only [State.writeBody, hden, hwarm, hpers, htakes, State.kindOf_nil]
  simp [State.carryOut, State.logWrite, State.storeWrite, State.kindOf_nil]

/-- Only `COMMIT` and `FORMAT` are persistent changes (R330). -/
theorem State.persistent_elsewhere {s : State} {p : RegPlace} {v : Nat} (hcal : ¬ (p.block = 0x01 ∧ p.page = 3 ∧ p.off = 0x44))
    (hfmt : ¬ (p.block = 0x0B ∧ p.page = 0 ∧ p.off = 0x48)) : s.persistent p v = false := by
  simp only [State.persistent, Bool.and_eq_false_imp, Bool.or_eq_false_iff, beq_iff_eq, Bool.and_eq_true]
  exact fun _ => ⟨fun h => absurd ⟨h.1.1, h.1.2, h.2⟩ hcal, fun h => absurd ⟨h.1.1, h.2, h.1.2⟩ hfmt⟩

/-! ### Locks (R35) -/

/-- Registers all of whose writable fields a lock protects, each in the first of its blocks. -/
def lockedRegs : List Nat := [Reg.glbPinmux, Reg.xltPtrBaseLo, Reg.xltPtrBaseHi, Reg.xltPtrSize, Reg.slcStage, Reg.rbdBaseLo,
  Reg.rbdBaseHi, Reg.peaFmt, Reg.atcSpillPool, Reg.hifT2BaseLo, Reg.hifT2BaseHi, Reg.hifT2Size]

/-- Whether a place in the first of its blocks holds a register whose writable fields are all protected by a lock, outside the page
headers and the windows, and that commits and formats nothing. -/
def RegPlace.locksWhole (p : RegPlace) : Bool :=
  p.actsAlone && p.inst == 0 && !([0x40, 0x3F].contains p.block) &&
    !([(0x01, 3, 0x44), (0x0B, 0, 0x48)].contains (p.block, p.page, p.off)) &&
    (regAt { p with off := p.off / 4 * 4 }).any fun r =>
      r.writable.all (fun f => f.acc == Access.rwl) && r.writable.any fun f => f.acc == Access.rwl

theorem lockedRegs_table : ∀ a ∈ lockedRegs, msixAt a = none ∧ addrExists a = true ∧ a % 4 = 0 ∧ a ≠ 0 ∧
    a % 4096 ≠ 16 ∧ a % 4096 ≠ 24 ∧ (placeOf a).all RegPlace.locksWhole = true := by decide

theorem RegPlace.locksWhole_iff (p : RegPlace) : p.locksWhole = true ↔
    p.actsAlone = true ∧ p.inst = 0 ∧ p.block ≠ 0x40 ∧ p.block ≠ 0x3F ∧
    ¬ (p.block = 0x01 ∧ p.page = 3 ∧ p.off = 0x44) ∧ ¬ (p.block = 0x0B ∧ p.page = 0 ∧ p.off = 0x48) ∧
    ∃ r, regAt { p with off := p.off / 4 * 4 } = some r ∧ (∀ f ∈ r.writable, f.acc = .rwl) ∧
      ∃ f ∈ r.writable, f.acc = .rwl := by
  simp [RegPlace.locksWhole, Option.any_eq_true, imp_iff_not_or, and_assoc]

/-- A write of a locked register notes the lock and acts on nothing taken. -/
theorem State.regWrite_locked {s : State} {w : RegWrite} {a : Nat} {p : RegPlace} (hre : s.reaches w.origin a = true)
    (hbe : w.be = 15) (hserve : s.allServe) (hsole : s.lve.sole = none) (ha : a ∈ lockedRegs) (hp : placeOf a = some p)
    (hpres : s.presentAt p = true) (hl : s.lockedAt p a = true) :
    ∃ r, s.regWrite a w = (s.noteWrite p a w.value.toNat r true none).act w.origin p w.value.toNat (s.reg a) [] := by
  obtain ⟨hm, -, h4, -, -, -, hlock⟩ := lockedRegs_table a ha
  rw [hp, Option.all_some] at hlock
  obtain ⟨hact, hi, hdom, htst, hcal, hfmt, r, hr, hall, hany⟩ := p.locksWhole_iff.mp hlock
  have ho := (p.actsAlone_iff.mp hact).1
  have hallb : (r.writable.all fun f => f.acc == Access.rwl) = true := by simpa using hall
  have hanyb : (r.writable.any fun f => f.acc == Access.rwl) = true := by simpa using hany
  refine ⟨r, ?_⟩
  rw [State.regWrite_present hre hbe hm hp hpres hdom ho h4 hr hi (by simp [testOnly, htst]),
    State.writeBody_nothing_taken (State.deniedWrite_shared _ hsole htst) (State.warmAt_serves hserve _)
      (State.persistent_elsewhere hcal hfmt), hl, hallb, hanyb]
  · rfl
  · rw [List.filter_eq_nil_iff]
    intro f hf
    simp [hall f hf, hl]

/-- The place of `GLB_PINMUX`. -/
def pinmuxPlace : RegPlace := ⟨0x01, 0, 0, 0x58⟩

/-- What a locked register does with a write of which no field takes its value: nothing, but for the pins of `GLB_PINMUX`. -/
theorem State.act_locked {a : Nat} {p : RegPlace} (ha : a ∈ lockedRegs) (hp : placeOf a = some p) :
    p = pinmuxPlace ∨ ∀ (s : State) (o : Origin) (v w : Nat), s.act o p v w [] = s := by
  simp only [lockedRegs, List.mem_cons, List.not_mem_nil, or_false] at ha
  rcases ha with rfl | ha
  · exact .inl (Option.some.inj hp).symm
  · refine .inr fun s o v w => ?_
    rcases ha with rfl | rfl | rfl | rfl | rfl | rfl | rfl | rfl | rfl | rfl | rfl <;>
      (obtain rfl := Option.some.inj hp; exact ite_self (c := s.glb.phase = .safe) s)

/-- What `PWR_ERR.PINMUX` adds leaves every bit that is set. -/
theorem State.bit_pinConflict {s : State} {b i : Nat} (hi : i < 32) (h : bit (s.reg b) i = true) :
    bit (s.pinConflict.reg b) i = true := by
  unfold State.pinConflict
  split
  · exact s.bit_setReg_or_of_bit b _ hi h
  · exact h

/-- The pins of `GLB_PINMUX` leave every register as the conflict of R283 does. -/
theorem State.reg_act_pinmux (s : State) (o : Origin) (v w b : Nat) (l : List FieldSpec) :
    (s.act o pinmuxPlace v w l).reg b = s.pinConflict.reg b := by
  change (if (!bit (s.pinConflict.reg Reg.glbPinmux) 7 && s.pinConflict.glb.smoutUntil.isSome) = true then _ else _ : State).reg b = _
  split <;> rfl

/-- Causeway, the sequences and the steps as a state holds them: what `State.linksCalm` speaks of. -/
def State.links (s : State) : Cwy × Xlt × Att := (s.cwy, s.xlt, s.att)

theorem State.linksCalm_of_links {s t : State} (h : s.linksCalm) (e : t.links = s.links) : t.linksCalm :=
  State.linksCalm_of_eq h (congrArg Prod.fst e) (congrArg (fun x => x.2.1) e) (congrArg (fun x => x.2.2) e)

theorem State.links_act_pinmux (s : State) (o : Origin) (v w : Nat) (l : List FieldSpec) :
    (s.act o pinmuxPlace v w l).links = s.links := by
  have hpin : s.pinConflict.links = s.links := by unfold State.pinConflict; split <;> rfl
  rw [← hpin]
  change (if (!bit (s.pinConflict.reg Reg.glbPinmux) 7 && s.pinConflict.glb.smoutUntil.isSome) = true then _ else _ : State).links = _
  split <;> rfl

/-- The errors that a write notes leave the links. -/
theorem State.links_noteWrite (s : State) (p : RegPlace) (a v : Nat) (r : RegSpec) (l : Bool) (e : Option (Nat × Nat)) :
    (s.noteWrite p a v r l e).links = s.links :=
  (congrArg State.links (State.only_writing_noteWrite s p a v r l e).symm).trans rfl

/-- A write that meets a lock sets `LOCK_WR` of its page. -/
theorem State.bit_noteWrite_locked (s : State) (p : RegPlace) (a v : Nat) (r : RegSpec) :
    bit ((s.noteWrite p a v r true none).reg (a - p.off + 0x10)) 31 = true :=
  State.bit_setReg_or _ _ (by decide)

/-- `REGISTER_WRITE` of a locked register leaves it and sets `LOCK_WR` of its page. -/
theorem registerWrite_locked {s : State} {w : RegWrite} {a : Nat} {p : RegPlace} (hre : s.reaches w.origin a = true)
    (hbe : w.be = 15) (hserve : s.allServe) (hsole : s.lve.sole = none) (hcalm : s.linksCalm) (ha : a ∈ lockedRegs)
    (hp : placeOf a = some p) (hpres : s.presentAt p = true) (hl : s.lockedAt p a = true) :
    ∃ t, exec (.registerWrite a w) s = .next t ∧ t.reg a = s.reg a ∧ bit (t.reg (a - p.off + 0x10)) 31 = true := by
  obtain ⟨-, hex, -, h0, he, hv, hlock⟩ := lockedRegs_table a ha
  rw [hp, Option.all_some] at hlock
  have hact := (p.locksWhole_iff.mp hlock).1
  obtain ⟨r, hw⟩ := State.regWrite_locked hre hbe hserve hsole ha hp hpres hl
  have hlinks : (s.regWrite a w).links = s.links := by
    rw [hw, ← s.links_noteWrite p a w.value.toNat r true none]
    rcases State.act_locked ha hp with rfl | hid
    · exact State.links_act_pinmux _ _ _ _ _
    · rw [hid]
  have hfollow : s.cwyFollow (s.regWrite a w) = s.regWrite a w :=
    State.cwyFollow_calm s _ (State.linksCalm_of_links hcalm hlinks) (congrArg (fun x => x.1.sessions.keys) hlinks)
  refine ⟨_, exec_registerWrite_next s w hex, ?_, ?_⟩
  all_goals rw [State.afterCwyIn_eq, State.afterIn_reg rfl rfl, hfollow, hw]
  · refine State.reg_eq_of_frameOf (a := 0) ?_ h0 he hv
    rw [State.act_frameOf _ _ hact, State.noteWrite_frameOf _ _ _ _ _ (placeOf_page hp) (by simp)]
  · have hbit := s.bit_noteWrite_locked p a w.value.toNat r
    rcases State.act_locked ha hp with rfl | hid
    · rw [State.reg_act_pinmux]
      exact State.bit_pinConflict (by decide) hbit
    · rwa [hid]

/-! ### Refusals and their record (R37) -/

section
variable {s : State} {o : Origin} {p : RegPlace} {a : Nat} {c : Status}

/-- A refusal sets `REFUSED` of the page. -/
theorem State.reg_refuseWriteReg (b : Nat) : (s.refuseWriteReg o p a c).reg b = (s.pageErr p a 28).reg b := by
  simp only [State.refuseWriteReg]
  split <;> rfl

theorem State.ctrs_refuseWriteReg : (s.refuseWriteReg o p a c).ctrs = s.ctrs := by
  simp only [State.refuseWriteReg]
  split <;> rfl

/-- A record that is held stays. -/
theorem State.refuseWriteReg_held (h : s.glb.refValid = true) : (s.refuseWriteReg o p a c).glb = s.glb := by
  have h' : (s.pageErr p a 28).glb.refValid = true := h
  simp only [State.refuseWriteReg, h', Bool.true_or, if_true]
  rfl

/-- With no record held, a refusal loads it, but for a confidential domain's write. -/
theorem State.refuseWriteReg_free (h : s.glb.refValid = false) (ho : s.confOrigin o = false) :
    (s.refuseWriteReg o p a c).glb = { s.glb with refValid := true, refAddr := a, refOrigin := o.refuseCode, refCode := c.code } := by
  have h' : (s.pageErr p a 28).glb.refValid = false := h
  have ho' : (s.pageErr p a 28).confOrigin o = false := ho
  simp only [State.refuseWriteReg, h', ho', Bool.or_self, Bool.false_eq_true, if_false]
  rfl

end

/-- A write of BAR0 is no confidential domain's: a VF reaches its own window alone (R26). -/
theorem State.confOrigin_of_bar0 {s : State} {o : Origin} {a : Nat} (h : s.reaches o a = true) (ha : a < domBase) :
    s.confOrigin o = false := by
  cases o with
  | vf n =>
    have hwin : domBase + (n + 1) * 0x8000 + 0 ≤ a := of_decide_eq_true (Bool.and_eq_true_iff.mp (Bool.and_eq_true_iff.mp h).1).2
    omega
  | _ => rfl

/-! ### `SLC_STAGE` (R167, R309, R331) -/

/-- The places of `SLC_STAGE` and of `SLC_DOM_T0_QUOTA`. -/
def slcPlace (off : Nat) : RegPlace := ⟨0x08, 0, 0, off⟩

/-- `SLC_STAGE` as the table gives it. -/
def slcStageSpec : RegSpec := { block := 0x8, page := 0, off := 0x44, fields := [⟨5, 0, .rwl, 0x30⟩] }

theorem State.regWrite_slcStage {s : State} {w : RegWrite} (hre : s.reaches w.origin Reg.slcStage = true) (hbe : w.be = 15) :
    s.regWrite Reg.slcStage w = s.writeBody w.origin (slcPlace 0x44) Reg.slcStage w.value.toNat slcStageSpec :=
  State.regWrite_present hre hbe rfl rfl rfl (by decide) (by decide) rfl rfl rfl rfl

/-- What `SLC_STAGE_WRITE` leaves where the write is refused: the register stands, `REFUSED` of its page is set, and the refusal
record is loaded unless one is held. -/
theorem slcStageWrite_refused {s u : State} {w : RegWrite} {c : Status} (hre : s.reaches w.origin Reg.slcStage = true)
    (hw : s.regWrite Reg.slcStage w = u.refuseWriteReg w.origin (slcPlace 0x44) Reg.slcStage c)
    (hreg : u.reg Reg.slcStage = s.reg Reg.slcStage) (hg : u.glb = s.glb) (hconf : u.confOrigin w.origin = s.confOrigin w.origin) :
    ∃ t, exec (.slcStageWrite w) s = .next t ∧ t.reg Reg.slcStage = s.reg Reg.slcStage ∧
      bit (t.reg (Err.slcStage.1 + 0x10)) 28 = true ∧ t.ctrs = u.ctrs ∧
      (s.glb.refValid = false → t.glb.refValid = true ∧ t.glb.refAddr = Reg.slcStage ∧ t.glb.refCode = c.code) ∧
      (s.glb.refValid = true → t.glb = s.glb) := by
  refine ⟨s.afterIn .row (s.regWrite Reg.slcStage w), rfl, ?_, ?_, ?_, fun hfree => ?_, fun hheld => ?_⟩
  · rw [State.afterIn_reg rfl rfl, hw, State.reg_refuseWriteReg, State.pageErr, State.reg_setReg_other _ _ (by decide), hreg]
  · rw [State.afterIn_reg rfl rfl, hw, State.reg_refuseWriteReg]
    exact u.bit_setReg_or _ (by decide)
  · rw [State.afterIn_ctrs rfl, hw, State.ctrs_refuseWriteReg]
  · have hno : u.confOrigin w.origin = false := hconf.trans (State.confOrigin_of_bar0 hre (by decide))
    rw [State.afterIn_glb rfl, hw, State.refuseWriteReg_free (hg ▸ hfree) hno]
    exact ⟨rfl, rfl, rfl⟩
  · rw [State.afterIn_glb rfl, hw, State.refuseWriteReg_held (hg ▸ hheld), hg]

/-- In `SOLE` mode Levee refuses a write of `SLC_STAGE`. -/
theorem State.writeBody_slcStage_sole {s : State} {o : Origin} {v d : Nat} (h : s.lve.sole = some d) :
    s.writeBody o (slcPlace 0x44) Reg.slcStage v slcStageSpec = s.refuseWriteReg o (slcPlace 0x44) Reg.slcStage .denied := by
  have hden : s.deniedWrite (slcPlace 0x44) v = true := by
    simp [State.deniedWrite, State.soleDenies, h, slcPlace, soleGrants]
  simp only [State.writeBody, hden, if_true]

/-- With nothing staged and a value in range, a write of `SLC_STAGE` is refused for want of room in the log alone. -/
theorem State.writeBody_slcStage_full {s : State} {o : Origin} {v : Nat} (hserve : s.allServe) (hsole : s.lve.sole = none)
    (hl : s.lockedAt (slcPlace 0x44) Reg.slcStage = false) (hfull : s.auditTakes = false) (hlo : 16 ≤ bits v 5 0)
    (hhi : bits v 5 0 ≤ 56) (hlines : s.linesHeld = []) (hq : s.sdg.queue = []) :
    s.writeBody o (slcPlace 0x44) Reg.slcStage v slcStageSpec
      = s.auditRefuse.refuseWriteReg o (slcPlace 0x44) Reg.slcStage .logFull := by
  have hrng : s.outOfRange o (slcPlace 0x44) v = ([], none) := by
    simp [State.outOfRange, slcPlace, hlo, hhi]
  have hbusy (new : Nat) : s.busyRefused (slcPlace 0x44) Reg.slcStage v new = false := by
    change (!s.linesHeld.isEmpty || !s.sdg.queue.isEmpty) = false
    simp [hlines, hq]
  have hform (new : Nat) : s.formatRefused (slcPlace 0x44) Reg.slcStage v new = false := rfl
  have hkind : s.kindOf (slcPlace 0x44) v [⟨5, 0, .rwl, 0x30⟩] = some 1 := rfl
  have htakes : (slcStageSpec.fields.filter fun f => f.acc != Access.ro).filter
      (fun f => !(f.acc == Access.rwl && false) && !([] : List Nat).contains f.lo) = [⟨5, 0, .rwl, 0x30⟩] := rfl
  simp only [State.writeBody, State.deniedWrite_shared v hsole (by decide : (slcPlace 0x44).block ≠ 0x3F),
    State.warmAt_serves hserve, hl, hrng, htakes, hform, hbusy, hkind, hfull]
  rfl

/-- A refusal for want of room in the log counts it, and sets `AUD_ERR.LOG_FULL`. -/
theorem State.getD_ctrs_auditRefuse (s : State) :
    s.auditRefuse.ctrs.getD Reg.audRefusedLo 0 = (s.ctrs.getD Reg.audRefusedLo 0 + 1) % 2 ^ 64 :=
  Assoc.getD_set_same _ _ _ _

theorem State.reg_auditRefuse (s : State) {a : Nat} (h : a ≠ Err.audLogFull.1 + 0x10) : s.auditRefuse.reg a = s.reg a :=
  State.reg_setReg_other _ _ h

/-! ### Quotas (R167) -/

/-- `SLC_DOM_T0_QUOTA` as the table gives it. -/
def slcQuotaSpec : RegSpec := { block := 0x8, page := 0, off := 0x50, fields := [⟨15, 0, .rw, 0⟩] }

/-- A quota that `outOfRange` refuses leaves every quota and sets `SLC_ERR.QUOTA`. -/
theorem slcDomT0QuotaWrite_refused {s : State} {w : RegWrite} (h : s.openTo Reg.slcDomT0Quota w)
    (hrng : s.outOfRange w.origin (slcPlace 0x50) w.value.toNat = ([0], some Err.slcQuota)) :
    ∃ t, exec (.slcDomT0QuotaWrite w) s = .next t ∧ t.slc.quota = s.slc.quota ∧
      bit (t.reg (Err.slcQuota.1 + 0x10)) Err.slcQuota.2 = true := by
  have hl : s.lockedAt (slcPlace 0x50) Reg.slcDomT0Quota = false :=
    (State.unlocked_of_openTo h rfl).2
  have htakes : (slcQuotaSpec.writable.filter fun f => !(f.acc == Access.rwl && s.lockedAt (slcPlace 0x50) Reg.slcDomT0Quota) &&
      !(s.outOfRange w.origin (slcPlace 0x50) w.value.toNat).1.contains f.lo) = [] := by
    rw [hrng]
    rfl
  have hw : s.regWrite Reg.slcDomT0Quota w
      = s.noteWrite (slcPlace 0x50) Reg.slcDomT0Quota w.value.toNat slcQuotaSpec false (some Err.slcQuota) := by
    rw [regWrite_body s _ w (slcPlace 0x50) slcQuotaSpec h rfl rfl (by decide) (by decide) rfl rfl rfl rfl,
      State.writeBody_nothing_taken (State.deniedWrite_shared _ (State.sole_of_openTo h) (by decide))
        (State.warmAt_serves (State.allServe_of_openTo h) _)
        (State.persistent_elsewhere (by decide) (by decide)) htakes, hl, hrng]
    exact ite_self _
  refine ⟨s.afterIn { Scope.row with slc := true } (s.regWrite Reg.slcDomT0Quota w), rfl, ?_, ?_⟩
  · have hnote := State.only_writing_noteWrite s (slcPlace 0x50) Reg.slcDomT0Quota w.value.toNat slcQuotaSpec false (some Err.slcQuota)
    rw [State.afterIn_slc rfl, hw, ← hnote]
    rfl
  · rw [State.afterIn_reg rfl rfl, hw]
    exact State.bit_setReg_or _ _ (by decide)

/-- A quota beyond the T0 pool, or of 0 for a confidential domain, is out of range. -/
theorem State.outOfRange_quota {s : State} (o : Origin) {v : Nat}
    (h : (s.t0Pool < (s.quotaSum - s.slc.quota.getD (s.fld Reg.slcDomSel 11 0) 0 + bits v 15 0) * gib) ∨
      (s.conf (s.fld Reg.slcDomSel 11 0) = true ∧ bits v 15 0 = 0)) :
    s.outOfRange o (slcPlace 0x50) v = ([0], some Err.slcQuota) := by
  have hbad : (decide (s.t0Pool < (s.quotaSum - s.slc.quota.getD (s.fld Reg.slcDomSel 11 0) 0 + bits v 15 0) * gib) ||
      (s.conf (s.fld Reg.slcDomSel 11 0) && bits v 15 0 == 0)) = true := by
    simpa using h
  simp only [State.outOfRange, slcPlace, hbad, if_true]

/-- Settles O55: a locked register takes no field (`registerWrite_locked`), a write of `SLC_STAGE` is refused by Levee's mode or for
want of room in the log (`slcStageWrite_refused`), and a quota out of range takes no field (`slcDomT0QuotaWrite_refused`). -/
theorem refusedRegisterWritesChangeNothing : Obligations.RefusedRegisterWritesChangeNothing := by
  refine ⟨?_, ?_, ?_, ?_⟩
  · intro s w a p _ hre hbe hserve hsole hcalm ha hp hpres hl
    exact registerWrite_locked hre hbe hserve hsole hcalm ha hp hpres hl
  · intro s w d _ hre hbe _ hsole
    obtain ⟨t, ht, hreg, hbit, -, hfree, hheld⟩ := slcStageWrite_refused hre
      ((State.regWrite_slcStage hre hbe).trans (State.writeBody_slcStage_sole hsole)) rfl rfl rfl
    exact ⟨t, ht, hreg, hbit, hfree, hheld⟩
  · intro s w _ hre hbe hserve hsole hl hfull hlo hhi hlines hq
    obtain ⟨t, ht, hreg, hbit, hctrs, hfree, hheld⟩ := slcStageWrite_refused hre
      ((State.regWrite_slcStage hre hbe).trans (State.writeBody_slcStage_full hserve hsole hl hfull hlo hhi hlines hq))
      (s.reg_auditRefuse (by decide)) rfl rfl
    exact ⟨t, ht, hreg, hbit, hctrs ▸ s.getD_ctrs_auditRefuse, hfree, hheld⟩
  · intro s w h hbad
    exact slcDomT0QuotaWrite_refused h (s.outOfRange_quota w.origin hbad)

end Sys2Proof.Machine
end

section
/-! The scopes of the commands of the host link, of answers, of tables and of Levee. -/

namespace Sys2Proof.Machine

/-- A command whose scope is none of those of the tiers and of the index stores no byte. -/
theorem storesMem_of_scope {i : Instr} {c : Scope} (hc : i.scope = some c)
    (hn : c ∉ [Scope.lookup, Scope.store, Scope.search, { Scope.search with lve := true, aud := true }]) :
    i.storesMem = false := by
  by_contra hi
  have hs := scope_of_storesMem (Bool.eq_true_of_not_eq_false hi)
  simp only [hc, Option.some.injEq] at hs
  exact hn (by simpa using hs)

/-- Settles O44: none of these scopes is one of a command that stores bytes, and a command that stores none keeps its scope. -/
theorem hostAndLeveeCommandsKeepTheirScope : Obligations.HostAndLeveeCommandsKeepTheirScope := by
  intro i c s t hc hscope h
  refine exec_keeps_of_scope hc (storesMem_of_scope hc ?_) h
  rcases hscope with rfl | rfl | rfl | rfl | rfl | rfl <;> decide

end Sys2Proof.Machine
end

section
/-! What a ring command that answers leaves: every table, Causeway, and each ring of the host but its own; and what its completion
gives (R264, R267). -/

namespace Sys2Proof.Machine

/-! ### The rings of the host but that of a command -/

/-- The rings of the host, but that of a command. -/
def State.otherRings (s : State) (q : CmdRef) : Nat → Nat → Option Ring :=
  fun f k => if f = q.func ∧ k = q.ring then none else some (s.ring f k)

theorem State.ring_eq_of_otherRings {s t : State} {q : CmdRef} {f k : Nat} (h : t.otherRings q = s.otherRings q)
    (hk : f ≠ q.func ∨ k ≠ q.ring) : t.ring f k = s.ring f k := by
  have hne : ¬ (f = q.func ∧ k = q.ring) := by tauto
  simpa [State.otherRings, hne] using congrFun (congrFun h f) k

theorem State.otherRings_congr {s t : State} (q : CmdRef) (h : ∀ f k, f ≠ q.func ∨ k ≠ q.ring → t.ring f k = s.ring f k) :
    t.otherRings q = s.otherRings q := by
  funext f k
  by_cases hk : f = q.func ∧ k = q.ring
  · simp [State.otherRings, hk]
  · simp [State.otherRings, hk, h f k (by tauto)]

theorem State.otherRings_of_funcs {s t : State} (q : CmdRef) (h : t.hif.funcs = s.hif.funcs) : t.otherRings q = s.otherRings q := by
  have hr (f k : Nat) : t.ring f k = s.ring f k := by simp only [State.ring, State.func, h]
  exact State.otherRings_congr q fun f k _ => hr f k

theorem State.func_setFunc_other (s : State) {fn n : Nat} (f : Func → Func) (h : n ≠ fn) : (s.setFunc fn f).func n = s.func n := by
  simp [State.func, State.setFunc, Assoc.getD_set_other _ _ _ _ _ h]

/-- A change of a function that leaves its rings leaves every ring. -/
theorem State.ring_setFunc (s : State) (fn : Nat) {f : Func → Func} (h : ∀ x, (f x).ringTab = x.ringTab) (n k : Nat) :
    (s.setFunc fn f).ring n k = s.ring n k := by
  by_cases hn : n = fn
  · subst hn
    simp [State.ring, h]
  · simp [State.ring, s.func_setFunc_other f hn]

theorem State.ring_setRing_other (s : State) {fn j n k : Nat} (f : Ring → Ring) (h : n ≠ fn ∨ k ≠ j) :
    (s.setRing fn j f).ring n k = s.ring n k := by
  by_cases hn : n = fn
  · subst hn
    have hk : k ≠ j := by tauto
    simp [State.ring, State.setRing, Assoc.getD_set_other _ _ _ _ _ hk]
  · simp [State.ring, State.setRing, s.func_setFunc_other _ hn]

section
variable (s t : State) (q : CmdRef)

@[simp] theorem State.otherRings_setRing (f : Ring → Ring) : (s.setRing q.func q.ring f).otherRings q = s.otherRings q :=
  State.otherRings_congr q fun _ _ => s.ring_setRing_other f

@[simp] theorem State.otherRings_emit (o : Out) : (s.emit o).otherRings q = s.otherRings q := rfl
@[simp] theorem State.otherRings_bump (c n : Nat) : (s.bump c n).otherRings q = s.otherRings q := rfl

@[simp] theorem State.otherRings_ite (c : Prop) [Decidable c] :
    (if c then s else t).otherRings q = if c then s.otherRings q else t.otherRings q :=
  apply_ite (State.otherRings · q) c s t

@[simp] theorem State.otherRings_msix (fn v : Nat) : (s.msix fn v).otherRings q = s.otherRings q := by
  have hpba (f : Func → Func) (h : ∀ x, (f x).ringTab = x.ringTab) : (s.setFunc fn f).otherRings q = s.otherRings q :=
    State.otherRings_congr q fun n k _ => s.ring_setFunc fn h n k
  simp [State.msix, hpba]

@[simp] theorem State.otherRings_ringSignal : (s.ringSignal q.func q.ring).otherRings q = s.otherRings q := by
  simp [State.ringSignal]

@[simp] theorem State.otherRings_postCpl (c : Cpl) : (s.postCpl q c).otherRings q = s.otherRings q := by
  simp only [State.postCpl]
  split
  · rfl
  · simp

/-- A completion on a ring leaves every other ring. -/
@[simp] theorem State.otherRings_complete (c : Cpl) : (s.complete (.ring q) c).otherRings q = s.otherRings q := by
  change (s.completeNow (.ring q) c).otherRings q = _
  simp only [State.completeNow, State.deliverCpl, State.otherRings_ite, State.otherRings_bump, State.otherRings_postCpl]
  split
  · rfl
  · split <;> rfl

end

/-! ### Levee and the fault state through a completion on a ring -/

/-- Levee and the fault state as a state holds them. -/
def State.guards (s : State) : Lve × Flt := (s.lve, s.flt)

section
variable (s t : State) (q : CmdRef)

@[simp] theorem State.guards_emit (o : Out) : (s.emit o).guards = s.guards := rfl
@[simp] theorem State.guards_bump (c n : Nat) : (s.bump c n).guards = s.guards := rfl
@[simp] theorem State.guards_setRing (n k : Nat) (f : Ring → Ring) : (s.setRing n k f).guards = s.guards := rfl
@[simp] theorem State.guards_setFunc (n : Nat) (f : Func → Func) : (s.setFunc n f).guards = s.guards := rfl

@[simp] theorem State.guards_ite (c : Prop) [Decidable c] : (if c then s else t).guards = if c then s.guards else t.guards :=
  apply_ite State.guards c s t

@[simp] theorem State.guards_postCpl (c : Cpl) : (s.postCpl q c).guards = s.guards := by
  simp only [State.postCpl]
  split
  · rfl
  · simp [State.ringSignal, State.msix]

/-- A completion on a ring that waits for no warm reset leaves Levee and the fault state. -/
theorem State.guards_complete (c : Cpl) (h : c.status ≠ .stale ∨ s.serves .xlt = true) :
    (s.complete (.ring q) c).guards = s.guards := by
  have hstale : (c.status = .stale && s.flt.xlt.warmSince.isSome) = false := by
    rcases h with h | h
    · simp [h]
    · simp only [State.serves, State.unit3, Bool.and_eq_true, Bool.not_eq_true', Option.isNone_iff_eq_none] at h
      simp [h.1]
  have hnow : (s.completeNow (.ring q) c).guards = s.guards := by
    simp only [State.completeNow, hstale, State.deliverCpl, State.guards_ite, State.guards_bump, State.guards_postCpl]
    simp [State.guards]
  have hlve : (s.completeNow (.ring q) c).lve = s.lve := congrArg Prod.fst hnow
  rw [← hnow]
  change (({ s.lve with counters := (s.completeNow (.ring q) c).lve.counters } : Lve), _) = _
  rw [hlve, ← hlve]
  rfl

end

/-! ### What a request that only answers leaves -/

/-- Every table of the translation unit, Causeway, and the rings of the host but that of a command, are as they were. -/
structure State.Answered (s : State) (q : CmdRef) (t : State) : Prop where
  xlt : t.xlt = s.xlt
  cwy : t.cwy = s.cwy
  rings : t.otherRings q = s.otherRings q

namespace State.Answered

variable {s t u : State} {q : CmdRef}

theorem refl (s : State) (q : CmdRef) : s.Answered q s := ⟨rfl, rfl, rfl⟩

theorem trans (h : s.Answered q t) (h' : t.Answered q u) : s.Answered q u :=
  ⟨h'.xlt.trans h.xlt, h'.cwy.trans h.cwy, h'.rings.trans h.rings⟩

theorem markStarted (s : State) (q : CmdRef) : s.Answered q (s.markStarted q) :=
  ⟨rfl, rfl, State.otherRings_setRing _ _ _⟩

theorem complete (h : s.Answered q t) (c : Cpl) : s.Answered q (t.complete (.ring q) c) :=
  h.trans ⟨rfl, State.complete_ring_cwy _ _ _, State.otherRings_complete _ _ _⟩

theorem fail (h : s.Answered q t) (c : Status) : s.Answered q (t.fail (.ring q) c) := h.complete _

theorem addStale (h : s.Answered q t) (u : PrivUnit) (r : Requester) (c : Cpl) : s.Answered q (t.addStale u r c) :=
  h.trans ⟨rfl, rfl, rfl⟩

theorem audit (h : s.Answered q t) (d : Nat) (w : Who) (k a : Nat) (o n : List Byte) : s.Answered q (t.audit d w k a o n) :=
  h.trans ⟨rfl, rfl, rfl⟩

theorem auditRefuse (h : s.Answered q t) : s.Answered q t.auditRefuse := h.trans ⟨rfl, rfl, rfl⟩

end State.Answered

/-! ### The ways of a ring command -/

section
variable {P : State → Prop} {s : State} {q : CmdRef} {op : Nat}

/-- A ring command waits where it cannot start, and otherwise runs on its operands in its function's domain. -/
theorem State.runCmd_cases {f : State → Requester → Nat → List Byte → State} (hwait : P s)
    (hrun : ∀ c, s.startable q op = some c → P (f (s.markStarted q) (.ring q) (s.ringDomain q) c.ops)) :
    P (s.runCmd q op f) := by
  cases hc : s.startable q op with
  | none => simpa [State.runCmd, hc] using hwait
  | some c => simpa [State.runCmd_of_startable hc] using hrun c hc

/-- A request that needs a privileged unit is refused, waits for the end of a warm reset, or is carried out (R342, R345). -/
theorem State.gate_cases {u : PrivUnit} {r : Requester} {c : Status → Cpl} {f : State → State}
    (hheld : P (s.complete r (c .unavailable))) (hwarm : P (s.addStale u r (c .stale))) (hrun : P (f s)) :
    P (s.gate u r c f) := by
  unfold State.gate
  split
  · exact hheld
  · split
    · exact hwarm
    · exact hrun

/-- A privileged change is recorded and carried out, or refused for want of room in the log (R331). -/
theorem State.privileged_cases {r : Requester} {d k a : Nat} {n : List Byte} {f : State → State}
    (hrun : P (f (s.audit d (s.whoReq r) k a [] n))) (hfull : P (s.auditRefuse.fail r .logFull)) :
    P (s.privileged r d k a n f) := by
  unfold State.privileged
  split
  · exact hrun
  · exact hfull

/-- A ring command of the translation unit leaves what a mere answer leaves, or runs. -/
theorem State.runXlt_cases {f : State → Requester → Nat → List Byte → State} (hans : ∀ t, s.Answered q t → P t)
    (hrun : ∀ c, s.startable q op = some c → P (f (s.markStarted q) (.ring q) (s.ringDomain q) c.ops)) :
    P (s.runCmd q op fun t r d o => t.gate .xlt r Status.cpl fun t => f t r d o) :=
  State.runCmd_cases (hans s (.refl s q)) fun c hc =>
    State.gate_cases (hans _ ((State.Answered.markStarted s q).complete _)) (hans _ ((State.Answered.markStarted s q).addStale _ _ _))
      (hrun c hc)

end

/-! ### What a completion gives (R264) -/

/-- The bytes that a command with a completion writes to the host, before its entry. -/
def hostBytes (q : CmdRef) (f : InFlight) (c : Cpl) : List Out :=
  if c.out.isEmpty || decide (c.status = .denied) then [] else [.hostWrite q.func (outAddr f.opcode f.ops) c.out]

/-- A completion that reaches its ring gives the command's bytes, its entry, and then its vector alone. -/
theorem State.postCpl_outs {s : State} {q : CmdRef} {f : InFlight} (c : Cpl) (hf : s.inflight? q = some f)
    (hd : f.discard = false) (hl : s.hif.linkUp = true) :
    ∃ (l : List Out) (n : Nat) (e : Completion), (s.postCpl q c).outs = l ++ .cqe q.func q.ring n e :: (hostBytes q f c ++ s.outs) ∧
      e.cid = f.cid ∧ e.status = c.status ∧ e.result = c.result ∧ e.detail = c.detail := by
  unfold State.inflight? at hf
  unfold State.postCpl
  extract_lets r s1 s2 s3 size
  have h3 : s3.outs = s.outs := by unfold s3; split <;> rfl
  have hl3 : s3.hif.linkUp = true := by unfold s3; split <;> exact hl
  have h4 (b : Bool) (o : Out) : (if b then s3 else s3.emit o).outs = (if b then [] else [o]) ++ s.outs := by
    cases b <;> simp [h3, State.emit_outs]
  simp only [r, hf, hd, hl3, Bool.not_true, Bool.or_false, Bool.false_eq_true, if_false]
  split
  · obtain ⟨l, hl⟩ := State.outs_suffix_ringSignal _ q.func q.ring
    refine ⟨l, _, _, hl.symm.trans (congrArg _ (congrArg _ (h4 _ _))), rfl, rfl, rfl, rfl⟩
  · exact ⟨[], _, _, congrArg _ (h4 _ _), rfl, rfl, rfl, rfl⟩

/-- A completion with a code that does not wait gives what its ring's completion gives. -/
theorem State.complete_outs {s : State} {q : CmdRef} {f : InFlight} (c : Cpl) (h : s.waitsFor q f) (hs : c.status ≠ .stale)
    (hn : c.status ≠ .denied) :
    ∃ (l : List Out) (n : Nat) (e : Completion),
      (s.complete (.ring q) c).outs = l ++ .cqe q.func q.ring n e :: (hostBytes q f c ++ s.outs) ∧
      e.cid = f.cid ∧ e.status = c.status ∧ e.result = c.result ∧ e.detail = c.detail := by
  obtain ⟨hf, hd, hl⟩ := h
  have e : s.completeNow (.ring q) c = s.postCpl q c := by simp [State.completeNow, State.deliverCpl, hs, hn]
  have h := State.postCpl_outs c hf hd hl
  rw [← e] at h
  exact h

/-- A command that has begun waits for its completion in every state with the same rings. -/
theorem State.waitsFor_of_offers {s u : State} {q : CmdRef} {op : Nat} {c : InFlight} (h : s.offers q op c)
    (hh : u.hif = (s.markStarted q).hif) : u.waitsFor q { c with started := true } := by
  obtain ⟨hst, hd, hl⟩ := h
  refine ⟨?_, hd, hh ▸ hl⟩
  have e : u.inflight? q = (s.markStarted q).inflight? q := by
    simp only [State.inflight?, State.ring, State.func, hh]
  change u.inflight? q = _
  rw [e, State.inflight?_markStarted, State.inflight?_of_startable hst]
  rfl

theorem State.waitsFor_of_hif {s u : State} {q : CmdRef} {c : InFlight} (h : s.waitsFor q c) (hh : u.hif = s.hif) :
    u.waitsFor q c := by
  simpa only [State.waitsFor, State.ring, State.func, hh] using h

/-- What stands before what a state had given has been given since. -/
theorem State.mem_gives {s t : State} {l k : List Out} {o : Out} (h : t.outs = l ++ o :: (k ++ s.outs)) : o ∈ s.gives t := by
  have e : t.outs = (l ++ o :: k) ++ s.outs := by simp [h]
  have hg : s.gives t = l ++ o :: k := by
    rw [State.gives, e, List.length_append, Nat.add_sub_cancel, List.take_left' rfl]
  simp [hg]

section
variable {s u : State} {q : CmdRef} {f : InFlight} {c : Cpl} (h : u.waitsFor q f) (hu : s.outs <:+ u.outs)
include h hu

/-- The entry of a completion is among what a command has given, where its other effects only gave more. -/
theorem State.cqe_mem_gives (hs : c.status ≠ .stale) (hn : c.status ≠ .denied) :
    ∃ (n : Nat) (e : Completion), Out.cqe q.func q.ring n e ∈ s.gives (u.complete (.ring q) c) ∧
      e.cid = f.cid ∧ e.status = c.status ∧ e.result = c.result ∧ e.detail = c.detail := by
  obtain ⟨k, hk⟩ := hu
  obtain ⟨l, n, e, ho, he⟩ := State.complete_outs c h hs hn
  exact ⟨n, e, State.mem_gives (l := l) (k := hostBytes q f c ++ k) (by simp [ho, ← hk]), he⟩

theorem State.posts_complete (hs : c.status ≠ .stale) (hn : c.status ≠ .denied) :
    s.posts (u.complete (.ring q) c) q f c.status = true := by
  obtain ⟨n, e, hmem, hcid, hst, -⟩ := State.cqe_mem_gives h hu (c := c) hs hn
  exact List.any_eq_true.mpr ⟨_, hmem, by simp [hcid, hst]⟩

theorem State.answersWith_complete (hok : c.status = .ok) :
    s.answersWith (u.complete (.ring q) c) q f c.result c.detail = true := by
  obtain ⟨n, e, hmem, hcid, hst, hres, hdet⟩ := State.cqe_mem_gives h hu (c := c) (by simp [hok]) (by simp [hok])
  exact List.any_eq_true.mpr ⟨_, hmem, by simp [hcid, hst, hok, hres, hdet]⟩

/-- The bytes that a command writes to the host are among what it has given. -/
theorem State.hostWrite_mem_gives (hok : c.status = .ok) (ho : c.out ≠ []) :
    Out.hostWrite q.func (outAddr f.opcode f.ops) c.out ∈ s.gives (u.complete (.ring q) c) := by
  obtain ⟨k, hk⟩ := hu
  obtain ⟨l, n, e, hout, -⟩ := State.complete_outs c h (by simp [hok]) (by simp [hok])
  have hb : hostBytes q f c = [.hostWrite q.func (outAddr f.opcode f.ops) c.out] := by simp [hostBytes, hok, ho]
  exact State.mem_gives (l := l ++ [.cqe q.func q.ring n e]) (k := k) (by simp [hout, hb, ← hk])

end

end Sys2Proof.Machine
end

section
/-! The frames of the commands on models, sequences, objects and ring slots, and of those that only answer (R52 to R57, R122, R186,
R266, R308). -/

namespace Sys2Proof.Machine

/-! ### What an effect on one table leaves -/

/-- The tables of the translation unit change as a relation says, and the rings of the host but that of a command stand. -/
structure State.ChangesTables (s : State) (q : CmdRef) (R : Xlt → Xlt → Prop) (t : State) : Prop where
  xlt : R s.xlt t.xlt
  rings : t.otherRings q = s.otherRings q

/-- The models change alone, and of them only entries that `mine` names. -/
def Xlt.modelsOf (mine : Nat × Nat → Prop) (x y : Xlt) : Prop :=
  y = { x with models := y.models } ∧ ∀ k, ¬ mine k → y.models.get? k = x.models.get? k

/-- The sequences change alone, and of them only entries that `mine` names. -/
def Xlt.seqsOf (mine : Nat → Prop) (x y : Xlt) : Prop :=
  y = { x with seqs := y.seqs } ∧ ∀ i, ¬ mine i → y.seqs.get? i = x.seqs.get? i

/-- The objects change alone, and of them only entries that `mine` names. -/
def Xlt.objsOf (mine : Nat → Prop) (x y : Xlt) : Prop :=
  y = { x with objs := y.objs } ∧ ∀ i, ¬ mine i → y.objs.get? i = x.objs.get? i

section
variable {s t v : State} {q : CmdRef} {R : Xlt → Xlt → Prop}

theorem State.Answered.changesTables (h : s.Answered q t) (hR : R s.xlt s.xlt) : s.ChangesTables q R t :=
  ⟨h.xlt.symm ▸ hR, h.rings⟩

theorem State.ChangesTables.complete (h : s.ChangesTables q R t) (c : Cpl) : s.ChangesTables q R (t.complete (.ring q) c) :=
  ⟨h.xlt, (State.otherRings_complete _ _ _).trans h.rings⟩

/-- New tables in a state that has only answered. -/
theorem State.Answered.withTables (h : s.Answered q v) {x : Xlt} (hR : R s.xlt x) :
    s.ChangesTables q R { v with xlt := x } := ⟨hR, h.rings⟩

end

theorem State.xlt_awaits (s : State) (w : Wait) : (s.awaits w).xlt = s.xlt := by
  unfold State.awaits
  split <;> rfl

theorem State.hif_awaits (s : State) (w : Wait) : (s.awaits w).hif = s.hif := by
  unfold State.awaits
  split <;> rfl

/-! ### Models (R52, R53) -/

section
variable {s v : State} {q : CmdRef} {d : Nat} {o : List Byte}

theorem State.modelRegister_changes {mine : Nat × Nat → Prop} (h : s.Answered q v) (b : HostRead) (hm : mine (d, u16 o 0)) :
    s.ChangesTables q (Xlt.modelsOf mine) (v.modelRegister (.ring q) d o b) := by
  have hans {t : State} (ht : s.Answered q t) : s.ChangesTables q (Xlt.modelsOf mine) t :=
    ht.changesTables ⟨rfl, fun _ _ => rfl⟩
  unfold State.modelRegister
  extract_lets m tag size t
  split
  · exact hans (h.fail _)
  · split
    · exact hans (h.fail _)
    · split
      · exact hans (h.complete _)
      · split
        · split
          · exact hans (h.complete _)
          · exact hans (h.fail _)
        · cases t with
          | none => exact hans (h.fail _)
          | some outliers =>
            dsimp only
            split
            · exact hans (h.fail _)
            · refine State.privileged_cases ?_ (hans (h.auditRefuse.fail _))
              refine ((h.audit _ _ _ _ _ _).withTables ?_).complete _
              rw [← h.xlt]
              exact ⟨rfl, fun k hk => Assoc.get?_set_other _ _ _ _ (fun e => hk (e ▸ hm))⟩

theorem State.modelRelease_changes {mine : Nat × Nat → Prop} (h : s.Answered q v) (hm : mine (d, u16 o 0)) :
    s.ChangesTables q (Xlt.modelsOf mine) (v.modelRelease (.ring q) d o) := by
  have hans {t : State} (ht : s.Answered q t) : s.ChangesTables q (Xlt.modelsOf mine) t :=
    ht.changesTables ⟨rfl, fun _ _ => rfl⟩
  unfold State.modelRelease
  extract_lets tag seqs bds
  split_ifs
  · exact hans (h.fail _)
  · refine State.privileged_cases ?_ (hans (h.auditRefuse.fail _))
    refine ((h.audit _ _ _ _ _ _).withTables ?_).complete _
    rw [← h.xlt]
    exact ⟨rfl, fun k hk => Assoc.get?_erase_other _ _ _ fun e => hk (e ▸ hm)⟩

/-! ### Sequences (R54, R57) -/

/-- A number that is chosen is not in use. -/
theorem not_mem_of_chooseFree {used : List Nat} {start bound free i : Nat} (h : chooseFree used start bound free = some i) :
    i ∉ used := by
  unfold chooseFree at h
  split at h
  · next hf => cases h; simpa using hf.2.2
  · have := List.find?_some h
    simp_all

theorem State.mem_usedSeqs {i : Nat} {x : Seq} (h : s.seq? i = some x) (hx : x.st ≠ .retired) : i ∈ s.usedSeqs.map Prod.fst := by
  have hmem : (i, x) ∈ s.xlt.seqs := Assoc.mem_of_get? h
  simp only [State.usedSeqs, List.map_append, List.map_map, List.mem_append, List.mem_map, List.mem_filter]
  exact .inl ⟨(i, x), ⟨hmem, by simpa using hx⟩, rfl⟩

/-- `SEQ_CREATE` sets an entry that held no sequence that is not `RETIRED`. -/
theorem State.seqCreate_changes (h : s.Answered q v) :
    s.ChangesTables q (Xlt.seqsOf fun i => ∀ x, s.seq? i = some x → x.st = .retired) (v.seqCreate (.ring q) d o) := by
  have hans {t : State} (ht : s.Answered q t) :
      s.ChangesTables q (Xlt.seqsOf fun i => ∀ x, s.seq? i = some x → x.st = .retired) t :=
    ht.changesTables ⟨rfl, fun _ _ => rfl⟩
  unfold State.seqCreate
  extract_lets tag flags x
  split_ifs
  · exact hans (h.fail _)
  · exact hans (h.fail _)
  · exact hans (h.fail _)
  · exact hans (h.fail _)
  · split
    · exact hans (h.fail _)
    · next i hi =>
      refine (State.Answered.withTables ?_ ?_).complete _
      · exact h.trans ⟨rfl, rfl, rfl⟩
      · change Xlt.seqsOf _ s.xlt { v.xlt with seqs := v.xlt.seqs.set i _ }
        rw [h.xlt]
        refine ⟨rfl, fun j hj => Assoc.get?_set_other _ _ _ _ ?_⟩
        rintro rfl
        refine hj fun y hy => ?_
        by_contra hst
        have hv : v.seq? j = some y := by rw [← hy]; simp only [State.seq?, h.xlt]
        exact not_mem_of_chooseFree hi (v.mem_usedSeqs hv hst)

theorem State.seqRetire_changes {mine : Nat → Prop} (h : s.Answered q v) {i : Nat} (hm : mine i) :
    s.ChangesTables q (Xlt.seqsOf mine) (v.seqRetire (.ring q) i) := by
  constructor
  · rw [State.seqRetire, State.xlt_awaits]
    change Xlt.seqsOf _ s.xlt { v.xlt with seqs := v.xlt.seqs.modify i _ }
    rw [h.xlt]
    exact ⟨rfl, fun j hj => Assoc.get?_modify_other _ _ _ _ fun e => hj (e ▸ hm)⟩
  · rw [← h.rings]
    exact State.otherRings_of_funcs q (by rw [State.seqRetire, State.hif_awaits]; rfl)

/-! ### Objects (R186) -/

theorem State.mem_usedObjs {n : Nat} {x : Obj} (h : s.xlt.objs.get? n = some x) (hx : x.live = true) :
    n ∈ s.usedObjs.map Prod.fst := by
  have hmem : (n, x) ∈ s.xlt.objs := Assoc.mem_of_get? h
  simp only [State.usedObjs, List.map_append, List.map_map, List.mem_append, List.mem_map, List.mem_filter]
  exact .inl ⟨(n, x), ⟨hmem, hx⟩, rfl⟩

/-- `OBJ_CREATE` sets an entry that held no live object. -/
theorem State.objCreate_changes (h : s.Answered q v) :
    s.ChangesTables q (Xlt.objsOf fun n => ∀ x, s.xlt.objs.get? n = some x → x.live = false) (v.objCreate (.ring q) d o) := by
  have hans {t : State} (ht : s.Answered q t) :
      s.ChangesTables q (Xlt.objsOf fun n => ∀ x, s.xlt.objs.get? n = some x → x.live = false) t :=
    ht.changesTables ⟨rfl, fun _ _ => rfl⟩
  unfold State.objCreate
  extract_lets x
  split_ifs
  · exact hans (h.fail _)
  · exact hans (h.fail _)
  · exact hans (h.fail _)
  · split
    · exact hans (h.fail _)
    · next n hn =>
      refine (State.Answered.withTables ?_ ?_).complete _
      · exact h.trans ⟨rfl, rfl, rfl⟩
      · change Xlt.objsOf _ s.xlt { v.xlt with objs := v.xlt.objs.set n _ }
        rw [h.xlt]
        refine ⟨rfl, fun j hj => Assoc.get?_set_other _ _ _ _ ?_⟩
        rintro rfl
        refine hj fun y hy => ?_
        by_contra hlive
        exact not_mem_of_chooseFree hn (v.mem_usedObjs (h.xlt ▸ hy) (Bool.eq_true_of_not_eq_false hlive))

theorem State.objSeal_changes {mine : Nat → Prop} (h : s.Answered q v) {n : Nat} (x : Obj) (hm : mine n) :
    s.ChangesTables q (Xlt.objsOf mine) (if x.releasing then v.fail (.ring q) .unavailable
      else (v.setObj n fun x => { x with isSealed := true }).complete (.ring q) {}) := by
  split
  · exact (h.fail _).changesTables ⟨rfl, fun _ _ => rfl⟩
  · refine (h.withTables ?_).complete _
    rw [h.xlt]
    exact ⟨rfl, fun j hj => Assoc.get?_modify_other _ _ _ _ fun e => hj (e ▸ hm)⟩

/-! ### Ring slots (R122) -/

/-- The ring slots change alone in Causeway, and of them only those that `mine` names; no table changes, and the rings of the host
but that of a command stand. -/
structure State.ChangesSlots (s : State) (q : CmdRef) (mine : Nat → Prop) (t : State) : Prop where
  xlt : t.xlt = s.xlt
  cwy : t.cwy = { s.cwy with slots := t.cwy.slots }
  slots : ∀ i, ¬ mine i → t.slot i = s.slot i
  rings : t.otherRings q = s.otherRings q

theorem State.Answered.changesSlots {t : State} (h : s.Answered q t) (mine : Nat → Prop) : s.ChangesSlots q mine t :=
  ⟨h.xlt, by rw [h.cwy], fun i _ => by simp only [State.slot, h.cwy], h.rings⟩

theorem State.ChangesSlots.complete {t : State} {mine : Nat → Prop} (h : s.ChangesSlots q mine t) (c : Cpl) :
    s.ChangesSlots q mine (t.complete (.ring q) c) := by
  have hc : (t.complete (.ring q) c).cwy = t.cwy := State.complete_ring_cwy _ _ _
  exact ⟨h.xlt, by rw [hc]; exact h.cwy, fun i hi => by simp only [State.slot, hc]; exact h.slots i hi,
    (State.otherRings_complete _ _ _).trans h.rings⟩

theorem State.Answered.setSlot {mine : Nat → Prop} (h : s.Answered q v) {k : Nat} (f : RingSlot → RingSlot) (hm : mine k) :
    s.ChangesSlots q mine (v.setSlot k f) := by
  refine ⟨h.xlt, ?_, fun i hi => ?_, h.rings⟩
  · rw [← h.cwy]
    rfl
  · simp only [State.slot, ← h.cwy]
    exact Assoc.getD_set_other _ _ _ _ _ fun e => hi (e ▸ hm)

/-- `RING_LEAVE` changes the slot of its ring alone. -/
theorem State.ringLeave_changes {mine : Nat → Prop} (h : s.Answered q v)
    (hm : ∀ i x, s.ringSlot d (u16 o 0) = some (i, x) → mine i) : s.ChangesSlots q mine (v.ringLeave (.ring q) d o) := by
  have hslot : v.ringSlot d (u16 o 0) = s.ringSlot d (u16 o 0) := by simp only [State.ringSlot, h.cwy]
  unfold State.ringLeave
  rw [hslot]
  split
  · exact (h.fail _).changesSlots _
  · split
    · exact (h.fail _).changesSlots _
    · next k x hk =>
      split
      · exact (h.fail _).changesSlots _
      · exact State.privileged_cases (((h.audit _ _ _ _ _ _).setSlot _ (hm k x hk)).complete _)
          ((h.auditRefuse.fail _).changesSlots _)

/-! ### Commands that only answer (R59, R266, R308) -/

/-- Levee and the fault state stand too: nothing waits for the end of a warm reset. -/
structure State.AnsweredNow (s : State) (q : CmdRef) (t : State) : Prop extends s.Answered q t where
  guards : t.guards = s.guards

theorem State.Answered.now (hx : s.serves .xlt = true) (c : Cpl) :
    s.AnsweredNow q ((s.markStarted q).complete (.ring q) c) :=
  ⟨(State.Answered.markStarted s q).complete c, (State.guards_complete (s.markStarted q) q c (.inr hx)).trans rfl⟩

/-- What a command in the scope `answer` leaves, where Levee, the fault state and Causeway stand. -/
theorem State.AnsweredNow.afterIn {u : State} (h : s.AnsweredNow q u) (t : State) (ht : t = s.afterIn .answer u) :
    t = { s with regs := t.regs, ctrs := t.ctrs, outs := t.outs, hif := t.hif, evc := { s.evc with groups := t.evc.groups } } ∧
      ∀ f k, f ≠ q.func ∨ k ≠ q.ring → t.ring f k = s.ring f k := by
  obtain ⟨⟨-, hcwy, hrings⟩, hguards⟩ := h
  have hlve : u.lve = s.lve := congrArg Prod.fst hguards
  have hflt : u.flt = s.flt := congrArg Prod.snd hguards
  subst ht
  refine ⟨?_, fun f k hk => State.ring_eq_of_otherRings (hrings : (s.afterIn .answer u).otherRings q = _) hk⟩
  have honly : s.only .answer u = { s with regs := u.regs, ctrs := u.ctrs, outs := u.outs, hif := u.hif } := by
    simp only [State.only, Scope.answer, cond_true, cond_false, hlve, hflt, hcwy]
  simp only [State.afterIn, honly]
  rfl

theorem nop_answers (hx : s.serves .xlt = true) :
    s.AnsweredNow q (s.runCmd q 0x00 fun s r _ _ => s.complete r {}) :=
  State.runCmd_cases ⟨.refl s q, rfl⟩ fun _ _ => State.Answered.now hx _

theorem seqQuery_answers (hx : s.serves .xlt = true) :
    s.AnsweredNow q (s.runCmd q 0x0B fun t r d o => t.gate .xlt r Status.cpl fun t => t.onSeq r d o fun i x => t.seqQuery r i x) := by
  refine State.runCmd_cases ⟨.refl s q, rfl⟩ fun c _ => ?_
  rw [State.gate_markStarted hx, State.onSeq]
  split
  · exact State.Answered.now hx _
  · exact State.Answered.now hx _

theorem domStatus_answers (hx : s.serves .xlt = true) (hl : s.serves .lve = true) :
    s.AnsweredNow q (s.runCmd q 0x4B fun t r d o => t.gate .lve r Status.cpl fun t =>
      t.domStatus r (if q.func = 0 then none else some d) o) := by
  refine State.runCmd_cases ⟨.refl s q, rfl⟩ fun c _ => ?_
  rw [State.gate_markStarted hl, State.domStatus]
  generalize (if q.func = 0 then none else some (s.ringDomain q)) = own
  dsimp only
  split
  · exact State.Answered.now hx _
  · split
    · exact State.Answered.now hx _
    · exact State.Answered.now hx _

end

/-! ### The commands -/

section
variable {s t : State} {q : CmdRef}

theorem State.ChangesTables.ring {R : Xlt → Xlt → Prop} (h : s.ChangesTables q R t) (f k : Nat) (hk : f ≠ q.func ∨ k ≠ q.ring) :
    t.ring f k = s.ring f k := State.ring_eq_of_otherRings h.rings hk

/-- A ring command of the translation unit changes the tables as its body does, in every scope that has them. -/
theorem State.changesTables_of_run {c : Scope} {op : Nat} {R : Xlt → Xlt → Prop} {f : State → Requester → Nat → List Byte → State}
    (hx : c.xlt = true) (hh : c.hif = true) (hR : R s.xlt s.xlt)
    (hrun : ∀ c, s.startable q op = some c → s.ChangesTables q R (f (s.markStarted q) (.ring q) (s.ringDomain q) c.ops))
    (h : (.next (s.afterIn c (s.runCmd q op fun t r d o => t.gate .xlt r Status.cpl fun t => f t r d o)) :
      Host.Outcome State Fault Refusal) = .next t) : s.ChangesTables q R t := by
  obtain rfl := Host.Outcome.next.inj h
  obtain ⟨hu, hr⟩ := State.runXlt_cases (P := s.ChangesTables q R) (fun t ht => ht.changesTables hR) hrun
  generalize s.runCmd q op _ = u at hu hr
  have ex : (s.afterIn c u).xlt = u.xlt := by simp only [State.afterIn, State.after_xlt, State.only, hx, cond_true]
  have eh : (s.afterIn c u).hif = u.hif := by simp only [State.afterIn, State.after_hif, State.only, hh, cond_true]
  exact ⟨ex ▸ hu, (State.otherRings_of_funcs q (by rw [eh])).trans hr⟩

theorem exec_modelRegister_changes {b : HostRead} (h : exec (.modelRegister q b) s = .next t) :
    s.ChangesTables q (Xlt.modelsOf fun k => ∃ c, s.startable q 0x01 = some c ∧ k = (s.ringDomain q, u16 c.ops 0)) t :=
  State.changesTables_of_run (f := fun t r d o => t.modelRegister r d o b) rfl rfl ⟨rfl, fun _ _ => rfl⟩
    (fun c hc => State.modelRegister_changes (.markStarted s q) b ⟨c, hc, rfl⟩) h

theorem exec_modelRelease_changes (h : exec (.modelRelease q) s = .next t) :
    s.ChangesTables q (Xlt.modelsOf fun k => ∃ c, s.startable q 0x02 = some c ∧ k = (s.ringDomain q, u16 c.ops 0)) t :=
  State.changesTables_of_run (f := State.modelRelease) rfl rfl ⟨rfl, fun _ _ => rfl⟩
    (fun c hc => State.modelRelease_changes (.markStarted s q) ⟨c, hc, rfl⟩) h

theorem exec_seqCreate_changes (h : exec (.seqCreate q) s = .next t) :
    s.ChangesTables q (Xlt.seqsOf fun i => ∀ x, s.seq? i = some x → x.st = .retired) t :=
  State.changesTables_of_run (f := State.seqCreate) rfl rfl ⟨rfl, fun _ _ => rfl⟩
    (fun _ _ => State.seqCreate_changes (.markStarted s q)) h

theorem exec_seqRetire_changes (h : exec (.seqRetire q) s = .next t) :
    s.ChangesTables q (Xlt.seqsOf fun i => ∃ c x, s.startable q 0x09 = some c ∧
      s.findSeq (s.ringDomain q) (u32 c.ops 0) = .ok (i, x)) t := by
  refine State.changesTables_of_run (f := fun t r d o => t.onSeq r d o fun i _ => t.seqRetire r i) rfl rfl
    ⟨rfl, fun _ _ => rfl⟩ (fun c hc => ?_) h
  unfold State.onSeq
  split
  · exact ((State.Answered.markStarted s q).fail _).changesTables ⟨rfl, fun _ _ => rfl⟩
  · next i x hi => exact State.seqRetire_changes (.markStarted s q) ⟨c, x, hc, hi⟩

theorem exec_objCreate_changes (h : exec (.objCreate q) s = .next t) :
    s.ChangesTables q (Xlt.objsOf fun n => ∀ x, s.xlt.objs.get? n = some x → x.live = false) t :=
  State.changesTables_of_run (f := State.objCreate) rfl rfl ⟨rfl, fun _ _ => rfl⟩
    (fun _ _ => State.objCreate_changes (.markStarted s q)) h

theorem exec_objSeal_changes (h : exec (.objSeal q) s = .next t) :
    s.ChangesTables q (Xlt.objsOf fun n => ∃ c x, s.startable q 0x2A = some c ∧
      s.findObj (s.ringDomain q) (u32 c.ops 0) = .ok (n, x)) t := by
  refine State.changesTables_of_run (f := fun t r d o => t.onObj r d o fun n x =>
    if x.releasing then t.fail r .unavailable else (t.setObj n fun x => { x with isSealed := true }).complete r {}) rfl rfl
    ⟨rfl, fun _ _ => rfl⟩ (fun c hc => ?_) h
  unfold State.onObj
  split
  · exact ((State.Answered.markStarted s q).fail _).changesTables ⟨rfl, fun _ _ => rfl⟩
  · next n x hn => exact State.objSeal_changes (.markStarted s q) x ⟨c, x, hc, hn⟩

theorem exec_ringLeave_changes (h : exec (.ringLeave q) s = .next t) :
    s.ChangesSlots q (fun i => ∃ c x, s.startable q 0x39 = some c ∧ s.ringSlot (s.ringDomain q) (u16 c.ops 0) = some (i, x)) t := by
  obtain rfl := Host.Outcome.next.inj h
  obtain ⟨hx, hc, hs, hr⟩ := State.runCmd_cases (op := 0x39) (f := State.ringLeave)
    (P := s.ChangesSlots q fun i => ∃ c x, s.startable q 0x39 = some c ∧ s.ringSlot (s.ringDomain q) (u16 c.ops 0) = some (i, x))
    ((State.Answered.refl s q).changesSlots _)
    fun c hc => State.ringLeave_changes (.markStarted s q) fun i x hi => ⟨c, x, hc, hi⟩
  exact ⟨hx, hc, hs, hr⟩

end

/-- Settles O50: a command that answers leaves every table (`State.Answered`), and each effect changes its own entry alone. -/
theorem tableCommandsChangeTheirEntryAlone : Obligations.TableCommandsChangeTheirEntryAlone := by
  refine ⟨?_, ?_, ?_, ?_, ?_, ?_, ?_, ?_, ?_, ?_⟩
  · intro s t q b h
    have hu := exec_modelRegister_changes h
    exact ⟨hu.xlt.1, fun k hk => ⟨hu.xlt.2 k fun ⟨c, hc, e⟩ => hk c hc e, hu.ring⟩⟩
  · intro s t q h
    have hu := exec_modelRelease_changes h
    exact ⟨hu.xlt.1, fun k hk => ⟨hu.xlt.2 k fun ⟨c, hc, e⟩ => hk c hc e, hu.ring⟩⟩
  · intro s t q h
    have hu := exec_seqCreate_changes h
    exact ⟨hu.xlt.1, fun i x hx hst => (hu.xlt.2 i fun hm => hst (hm x hx)).trans hx, hu.ring⟩
  · intro s t q h
    have hu := exec_seqRetire_changes h
    exact ⟨hu.xlt.1, fun i hi => hu.xlt.2 i fun ⟨c, x, hc, hx⟩ => hi c x hc hx, hu.ring⟩
  · intro s t q h
    have hu := exec_objCreate_changes h
    exact ⟨hu.xlt.1, fun n x hx hlive => (hu.xlt.2 n fun hm => absurd (hm x hx) (by simp [hlive])).trans hx, hu.ring⟩
  · intro s t q h
    have hu := exec_objSeal_changes h
    exact ⟨hu.xlt.1, fun i hi => hu.xlt.2 i fun ⟨c, x, hc, hx⟩ => hi c x hc hx, hu.ring⟩
  · intro s t q h
    have hu := exec_ringLeave_changes h
    exact ⟨hu.xlt, hu.cwy, fun i hi => hu.slots i fun ⟨c, x, hc, hx⟩ => hi c x hc hx,
      fun _ _ hj => State.ring_eq_of_otherRings hu.rings hj⟩
  · exact fun s t q hx _ h => (nop_answers hx).afterIn t (Host.Outcome.next.inj h).symm
  · exact fun s t q hx _ h => (seqQuery_answers hx).afterIn t (Host.Outcome.next.inj h).symm
  · exact fun s t q hx hl h => (domStatus_answers hx hl).afterIn t (Host.Outcome.next.inj h).symm

end Sys2Proof.Machine
end

section
/-! `MODEL_REGISTER` and `MODEL_RELEASE` that nothing refuses (R49, R52, R53, R79, R405). -/

namespace Sys2Proof.Machine

/-! ### Ring commands that nothing holds back -/

/-- A ring command of the translation unit that can start runs, while the unit serves. -/
theorem State.runXlt_of_offers {s : State} {q : CmdRef} {op : Nat} {c : InFlight} (h : s.offersXlt q op c)
    (f : State → Requester → Nat → List Byte → State) :
    (s.runCmd q op fun t r d o => t.gate .xlt r Status.cpl fun t => f t r d o)
      = f (s.markStarted q) (.ring q) (s.ringDomain q) c.ops := by
  rw [State.runCmd_of_startable h.1.1, State.gate_markStarted h.2]

/-- A privileged change is recorded and carried out, while the log has room. -/
theorem State.privileged_takes {s : State} (h : s.auditTakes = true) (r : Requester) (d k a : Nat) (n : List Byte) (f : State → State) :
    s.privileged r d k a n f = f (s.audit d (s.whoReq r) k a [] n) := by
  simp [State.privileged, h]

section
variable {s u : State} {c : Scope}

theorem State.afterIn_xlt (h : c.xlt = true) : (s.afterIn c u).xlt = u.xlt := by
  simp only [State.afterIn, State.after_xlt, State.only, h, cond_true]

theorem State.gives_afterIn (h : c.outs = true) : s.gives (s.afterIn c u) = s.gives u := by
  simp only [State.gives, State.afterIn, State.after_outs, State.only, h, cond_true]

theorem State.posts_afterIn (h : c.outs = true) (q : CmdRef) (f : InFlight) (st : Status) :
    s.posts (s.afterIn c u) q f st = s.posts u q f st := by
  rw [State.posts, State.gives_afterIn h, State.posts]

variable {q : CmdRef} {op : Nat} {f : InFlight} {k : Cpl} (h : s.offers q op f) (hh : u.hif = (s.markStarted q).hif)
  (hu : s.outs <:+ u.outs) (hc : c.outs = true)
include h hh hu hc

/-- The completion that ends a command with `OK` is posted with its words. -/
theorem State.answersWith_of_offers (hk : k.status = .ok) :
    s.answersWith (s.afterIn c (u.complete (.ring q) k)) q f k.result k.detail = true := by
  have hans := State.answersWith_complete (State.waitsFor_of_offers h hh) hu hk
  rw [State.answersWith] at hans ⊢
  rwa [State.gives_afterIn hc]

theorem State.posts_of_offers (hk : k.status = .ok) : s.posts (s.afterIn c (u.complete (.ring q) k)) q f .ok = true := by
  have hposts := State.posts_complete (c := k) (State.waitsFor_of_offers h hh) hu (by simp [hk]) (by simp [hk])
  rw [hk] at hposts
  rw [State.posts_afterIn hc]
  exact hposts

end

/-! ### Models -/

/-- The outlier table that a registration takes from a read of host memory: none is due outside format 0x4 (R79). -/
def Model.outliersFrom (m : Model) (b : HostRead) : Option (List Byte) :=
  if m.format ≠ 4 then some []
  else match b with
    | .bytes b =>
      if 4 * m.layers * m.kvHeads ≤ b.length ∧ outliersOk m (b.take (4 * m.layers * m.kvHeads)) then
        some (b.take (4 * m.layers * m.kvHeads)) else none
    | .failed => none

/-- The state once a registration has entered the table, and its change the log. -/
def State.withModel (s : State) (r : Requester) (d : Nat) (o t : List Byte) : State :=
  { s.audit d (s.whoReq r) 0x02 0x01 [] o with
    xlt := { s.xlt with models := s.xlt.models.set (d, u16 o 0) { readModel o with outliers := t } } }

theorem State.withModel_keeps (s : State) (r : Requester) (d : Nat) (o t : List Byte) :
    (s.withModel r d o t).hif = s.hif ∧ (s.withModel r d o t).outs = s.outs := ⟨rfl, rfl⟩

theorem State.model?_withModel (s : State) (r : Requester) (d : Nat) (o t : List Byte) :
    (s.withModel r d o t).xlt.models.get? (d, u16 o 0) = some { readModel o with outliers := t } := Assoc.get?_set_same _ _ _

/-- The state once a registration has left the table, and its change has entered the log. -/
def State.withoutModel (s : State) (r : Requester) (d : Nat) (o : List Byte) : State :=
  { s.audit d (s.whoReq r) 0x02 0x02 [] o with xlt := { s.xlt with models := s.xlt.models.erase (d, u16 o 0) } }

theorem State.withoutModel_keeps (s : State) (r : Requester) (d : Nat) (o : List Byte) :
    (s.withoutModel r d o).hif = s.hif ∧ (s.withoutModel r d o).outs = s.outs := ⟨rfl, rfl⟩

theorem State.model?_withoutModel (s : State) (r : Requester) (d : Nat) (o : List Byte) :
    (s.withoutModel r d o).xlt.models.get? (d, u16 o 0) = none := Assoc.get?_erase_same _ _

/-- A registration that nothing refuses enters the table (R405). -/
theorem State.modelRegister_enters {s : State} {r : Requester} {d : Nat} {o : List Byte} {b : HostRead} {t : List Byte}
    (hp : s.xlt.placed = true) (hok : modelOk o = true) (hfit : (readModel o).tooLarge = none) (hnew : s.model? d (u16 o 0) = none)
    (ht : (readModel o).outliersFrom b = some t)
    (htake : s.mayTake 4096 Domain.modelRsv (s.xlt.models.map fun e => e.1.1) d = true) (haud : s.auditTakes = true) :
    s.modelRegister r d o b = (s.withModel r d o t).complete r { result := (readModel o).word } := by
  unfold State.modelRegister
  extract_lets m tag size table
  have ht' : table = some t := ht
  rw [if_neg (by simp [hp]), if_neg (by simp [hok]), show m.tooLarge = none from hfit]
  dsimp only
  rw [show s.model? d tag = none from hnew]
  dsimp only
  rw [ht']
  dsimp only
  rw [if_neg (by simp [htake]), State.privileged_takes haud]
  rfl

/-- A registration that no sequence and no block descriptor uses leaves the table (R53). -/
theorem State.modelRelease_leaves {s : State} {r : Requester} {d : Nat} {o : List Byte}
    (hreg : (s.model? d (u16 o 0)).isSome = true)
    (hseqs : (s.xlt.seqs.any fun e => decide (e.2.st ≠ .retired) && decide (e.2.domain = d) && decide (e.2.model = u16 o 0)) = false)
    (hbds : (s.xlt.bds.any fun e => decide (e.2.domain = d) && decide (e.2.tag = u16 o 0)) = false)
    (haud : s.auditTakes = true) : s.modelRelease r d o = (s.withoutModel r d o).complete r {} := by
  have hnone : (s.model? d (u16 o 0)).isNone = false := by
    rw [← Option.not_isSome, hreg, Bool.not_true]
  unfold State.modelRelease
  extract_lets tag seqs bds
  have hused : ¬ ((s.model? d tag).isNone || seqs || bds) := by
    rw [show seqs = false from hseqs, show bds = false from hbds]
    simp [tag, hnone]
  rw [if_neg hused, State.privileged_takes haud]
  rfl

section
variable {s : State} {q : CmdRef} {c : InFlight}

/-- `MODEL_REGISTER` with a usable outlier table, or where none is due. -/
theorem exec_modelRegister_enters {b : HostRead} {t : List Byte} (h : s.offersXlt q 0x01 c) (hp : s.xlt.placed = true)
    (hok : modelOk c.ops = true) (hfit : (readModel c.ops).tooLarge = none) (hnew : s.model? (s.ringDomain q) (u16 c.ops 0) = none)
    (ht : (readModel c.ops).outliersFrom b = some t)
    (htake : s.mayTake 4096 Domain.modelRsv (s.xlt.models.map fun e => e.1.1) (s.ringDomain q) = true) (haud : s.auditTakes = true) :
    ∃ u, exec (.modelRegister q b) s = .next u ∧
      u.model? (s.ringDomain q) (u16 c.ops 0) = some { readModel c.ops with outliers := t } ∧
      s.answersWith u q c (readModel c.ops).word 0 = true ∧ s.posts u q c .ok = true := by
  have hrun := (State.runXlt_of_offers h fun t r d o => t.modelRegister r d o b).trans
    (State.modelRegister_enters (s := s.markStarted q) hp hok hfit hnew ht htake haud)
  change ∃ u, execModelRegister q b s = _ ∧ _
  rw [execModelRegister, hrun]
  obtain ⟨hh, ho⟩ := (s.markStarted q).withModel_keeps (.ring q) (s.ringDomain q) c.ops t
  have hu : s.outs <:+ ((s.markStarted q).withModel (.ring q) (s.ringDomain q) c.ops t).outs := ho ▸ List.suffix_rfl
  refine ⟨_, rfl, ?_, State.answersWith_of_offers h.1 hh hu rfl rfl, State.posts_of_offers h.1 hh hu rfl rfl⟩
  rw [State.model?, State.afterIn_xlt rfl, State.complete_xlt, State.model?_withModel]

/-- `MODEL_RELEASE` of a registration that no sequence and no block descriptor uses. -/
theorem exec_modelRelease_leaves (h : s.offersXlt q 0x02 c) (hreg : (s.model? (s.ringDomain q) (u16 c.ops 0)).isSome = true)
    (hseqs : (s.xlt.seqs.any fun e => decide (e.2.st ≠ .retired) && decide (e.2.domain = s.ringDomain q) &&
      decide (e.2.model = u16 c.ops 0)) = false)
    (hbds : (s.xlt.bds.any fun e => decide (e.2.domain = s.ringDomain q) && decide (e.2.tag = u16 c.ops 0)) = false)
    (haud : s.auditTakes = true) :
    ∃ u, exec (.modelRelease q) s = .next u ∧ u.model? (s.ringDomain q) (u16 c.ops 0) = none ∧ s.posts u q c .ok = true := by
  have hrun := (State.runXlt_of_offers h State.modelRelease).trans
    (State.modelRelease_leaves (s := s.markStarted q) hreg hseqs hbds haud)
  change ∃ u, execModelRelease q s = _ ∧ _
  rw [execModelRelease, hrun]
  obtain ⟨hh, ho⟩ := (s.markStarted q).withoutModel_keeps (.ring q) (s.ringDomain q) c.ops
  refine ⟨_, rfl, ?_, State.posts_of_offers h.1 hh (ho ▸ List.suffix_rfl) rfl rfl⟩
  rw [State.model?, State.afterIn_xlt rfl, State.complete_xlt, State.model?_withoutModel]

end

/-- Settles O20: a registration that nothing refuses enters the table, and one that nothing uses leaves it. -/
theorem modelCommandsComplete : Obligations.ModelCommandsComplete := by
  refine ⟨?_, ?_, ?_⟩
  · intro s q c b h hp hok hfit hf hnew htake haud
    obtain ⟨u, hu, hm, hans, -⟩ := exec_modelRegister_enters (b := b) (t := []) h hp hok hfit hnew (if_pos hf) htake haud
    exact ⟨u, hu, hm, hans⟩
  · intro s q c b h hp hok hfit hf hlen hout hnew htake haud
    have ht : (readModel c.ops).outliersFrom (.bytes b)
        = some (b.take (4 * (readModel c.ops).layers * (readModel c.ops).kvHeads)) := by
      simp [Model.outliersFrom, hf, hlen, hout]
    obtain ⟨u, hu, hm, -, hposts⟩ := exec_modelRegister_enters h hp hok hfit hnew ht htake haud
    exact ⟨u, hu, hm, hposts⟩
  · intro s q c h hreg hseqs hbds haud
    exact exec_modelRelease_leaves h hreg hseqs hbds haud

end Sys2Proof.Machine
end

section
/-! The commands on a sequence that a handle names: what they leave in its descriptor, and what they answer (R54, R57 to R59, R181). -/

namespace Sys2Proof.Machine

/-! ### A sequence by its handle -/

theorem State.seq?_of_findSeq {s : State} {d h i : Nat} {x : Seq} (hf : s.findSeq d h = .ok (i, x)) : s.seq? i = some x := by
  unfold State.findSeq at hf
  extract_lets j at hf
  split at hf
  · next y hy =>
    split at hf
    · obtain ⟨rfl, rfl⟩ := Prod.mk.inj (Except.ok.inj hf)
      exact hy
    · cases hf
  · split at hf <;> cases hf

theorem State.onSeq_of_findSeq {s : State} {r : Requester} {d i : Nat} {o : List Byte} {x : Seq}
    (hf : s.findSeq d (u32 o 0) = .ok (i, x)) (f : Nat → Seq → State) : s.onSeq r d o f = f i x := by
  simp [State.onSeq, hf]

theorem State.seq?_setSeq_same {s : State} {i : Nat} {x : Seq} (h : s.seq? i = some x) (f : Seq → Seq) :
    (s.setSeq i f).seq? i = some (f x) := by
  rw [State.seq?] at h ⊢
  simp [State.setSeq, Assoc.get?_modify_same, h]

theorem State.opcode_of_startable {s : State} {q : CmdRef} {op : Nat} {c : InFlight} (h : s.startable q op = some c) :
    c.opcode = op := by
  unfold State.startable at h
  extract_lets r at h
  split at h
  · cases h
  · next f hf =>
    extract_lets waits at h
    split at h
    · cases h
    · next hw =>
      obtain rfl := Option.some.inj h
      simp only [Bool.or_eq_true, decide_eq_true_eq, not_or, ne_eq, not_not] at hw
      exact hw.1.1.2

section
variable {s u : State} {c : Scope} {i : Nat}

theorem State.seq?_afterIn (h : c.xlt = true) : (s.afterIn c u).seq? i = u.seq? i := by
  rw [State.seq?, State.afterIn_xlt h, State.seq?]

@[simp] theorem State.seq?_complete (r : Requester) (k : Cpl) : (s.complete r k).seq? i = s.seq? i := rfl

@[simp] theorem State.seq?_awaits (w : Wait) : (s.awaits w).seq? i = s.seq? i := by
  rw [State.seq?, State.xlt_awaits, State.seq?]

end

section
variable {s : State} {q : CmdRef} {op : Nat} {c : InFlight} {i : Nat} {x : Seq}

/-- A command on a sequence that can start runs on the sequence that its handle names. -/
theorem State.runSeq_of_offers (h : s.offersXlt q op c) (hf : s.findSeq (s.ringDomain q) (u32 c.ops 0) = .ok (i, x))
    (f : State → Requester → Nat → List Byte → Nat → Seq → State) :
    (s.runCmd q op fun t r d o => t.gate .xlt r Status.cpl fun t => t.onSeq r d o (f t r d o))
      = f (s.markStarted q) (.ring q) (s.ringDomain q) c.ops i x :=
  (State.runXlt_of_offers h _).trans (State.onSeq_of_findSeq (s := s.markStarted q) hf _)

/-! ### `SEQ_CREATE` (R54) -/

/-- The tag of the next handle of a sequence index: the one after the last that the index carried. -/
def State.nextTag (s : State) (i : Nat) : Nat := match s.seq? i with | some y => y.tag % 255 + 1 | none => 1

/-- A new sequence of a model at an index. -/
def State.freshSeq (s : State) (d i : Nat) (o : List Byte) : Seq :=
  { tag := s.nextTag i, st := .idle, domain := d, model := u16 o 0, determ := decide (u32 o 4 = 1)
    range := some ((s.rbdDom d).lo, (s.rbdDom d).hi), lastActive := s.now }

theorem State.seqCreate_makes {s : State} {r : Requester} {d i : Nat} {o : List Byte} (hp : s.xlt.placed = true) (hfl : u32 o 4 ≤ 1)
    (hm : (s.model? d (u16 o 0)).isSome = true) (hdet : u32 o 4 = 1 → s.glb.variant.hasAttn = true)
    (htake : s.mayTake (2 ^ 24) Domain.seqRsv (s.usedSeqs.map Prod.snd) d = true)
    (hi : chooseFree (s.usedSeqs.map Prod.fst) 0 (2 ^ 24) (Config.seqIndex s.fresh) = some i) :
    s.seqCreate r d o
      = ({ s.draw.2 with xlt := { s.xlt with seqs := s.xlt.seqs.set i (s.freshSeq d i o) } } : State).complete r
          { result := handleOf (s.nextTag i) i } := by
  unfold State.seqCreate
  extract_lets tag flags draw
  have hform : ¬ (1 < flags ∨ (s.model? d tag).isNone) := by
    rw [← Option.not_isSome, show (s.model? d tag).isSome = true from hm]
    simpa using hfl
  have habs : ¬ (flags = 1 ∧ !s.glb.variant.hasAttn) := by
    rintro ⟨h1, h2⟩
    simp [hdet h1] at h2
  rw [if_neg (by simp [hp]), if_neg hform, if_neg habs, if_neg (by rw [htake]; simp)]
  dsimp only [draw, State.drawFrom]
  rw [hi]
  rfl

theorem exec_seqCreate_makes (h : s.offersXlt q 0x08 c) (hp : s.xlt.placed = true) (hfl : u32 c.ops 4 ≤ 1)
    (hm : (s.model? (s.ringDomain q) (u16 c.ops 0)).isSome = true) (hdet : u32 c.ops 4 = 1 → s.glb.variant.hasAttn = true)
    (htake : s.mayTake (2 ^ 24) Domain.seqRsv (s.usedSeqs.map Prod.snd) (s.ringDomain q) = true)
    (hi : chooseFree (s.usedSeqs.map Prod.fst) 0 (2 ^ 24) (Config.seqIndex s.fresh) = some i) :
    ∃ t, exec (.seqCreate q) s = .next t ∧ t.seq? i = some (s.freshSeq (s.ringDomain q) i c.ops) ∧
      s.answersWith t q c (handleOf (s.nextTag i) i) 0 = true := by
  have hrun := (State.runXlt_of_offers h State.seqCreate).trans
    (State.seqCreate_makes (s := s.markStarted q) hp hfl hm hdet htake hi)
  change ∃ t, execSeqCreate q s = _ ∧ _
  rw [execSeqCreate, hrun]
  refine ⟨_, rfl, ?_, State.answersWith_of_offers h.1 rfl List.suffix_rfl rfl rfl⟩
  rw [State.seq?_afterIn rfl, State.seq?_complete]
  exact Assoc.get?_set_same _ _ _

/-! ### `SEQ_RETIRE`, `SEQ_QUERY` and `SEQ_PCLASS` (R57, R59, R181) -/

theorem exec_seqRetire_drains (h : s.offersXlt q 0x09 c) (hf : s.findSeq (s.ringDomain q) (u32 c.ops 0) = .ok (i, x)) :
    ∃ t, exec (.seqRetire q) s = .next t ∧ t.seq? i = some { x with st := .draining, retirers := x.retirers ++ [.ring q] } := by
  have hrun := State.runSeq_of_offers h hf fun t r _ _ i _ => t.seqRetire r i
  change ∃ t, execSeqRetire q s = _ ∧ _
  rw [execSeqRetire, hrun]
  refine ⟨_, rfl, ?_⟩
  rw [State.seq?_afterIn rfl, State.seqRetire, State.seq?_awaits]
  exact State.seq?_setSeq_same (s := s.markStarted q) (State.seq?_of_findSeq hf) _

/-- The bytes that `SEQ_QUERY` writes for a sequence (Table 12.4). -/
def State.seqReport (s : State) (i : Nat) (x : Seq) : List Byte :=
  leBytes 1 x.st.num ++ leBytes 1 0 ++ leBytes 2 x.model ++ leBytes 4 (s.lengthOf x) ++ leBytes 4 (s.firstPoison i x) ++ leBytes 4 0

theorem State.seqReport_ne_nil (s : State) : s.seqReport i x ≠ [] :=
  List.ne_nil_of_length_pos (by simp [State.seqReport])

theorem exec_seqQuery_reports (h : s.offersXlt q 0x0B c) (hf : s.findSeq (s.ringDomain q) (u32 c.ops 0) = .ok (i, x)) :
    ∃ t, exec (.seqQuery q) s = .next t ∧ s.answersWith t q c (s.lengthOf x) (s.firstPoison i x) = true ∧ t.xlt = s.xlt ∧
      Out.hostWrite q.func (u64 c.ops 8) (s.seqReport i x) ∈ s.gives t := by
  have hrun := State.runSeq_of_offers h hf fun t r _ _ i x => t.seqQuery r i x
  change ∃ t, execSeqQuery q s = _ ∧ _
  rw [execSeqQuery, hrun]
  refine ⟨_, rfl, State.answersWith_of_offers h.1 rfl List.suffix_rfl rfl rfl, rfl, ?_⟩
  have hout := State.hostWrite_mem_gives (State.waitsFor_of_offers h.1 rfl) (s := s) (u := s.markStarted q) List.suffix_rfl
    (c := { result := s.lengthOf x, detail := s.firstPoison i x, out := s.seqReport i x }) rfl s.seqReport_ne_nil
  rw [State.opcode_of_startable h.1.1] at hout
  rw [State.gives_afterIn rfl]
  exact hout

/-- The state once a sequence has taken its pre-emption class, and the change has entered the log. -/
def State.withPclass (s : State) (r : Requester) (d : Nat) (o : List Byte) (i : Nat) : State :=
  (s.audit d (s.whoReq r) 0x03 0x0F [] o).setSeq i fun q => { q with pclass := u8 o 4 }

theorem State.withPclass_keeps (s : State) (r : Requester) (d : Nat) (o : List Byte) (i : Nat) :
    (s.withPclass r d o i).hif = s.hif ∧ (s.withPclass r d o i).outs = s.outs ∧ (s.withPclass r d o i).slc = s.slc := by
  simp [State.withPclass, State.setSeq]

theorem State.seq?_withPclass {s : State} {i : Nat} {x : Seq} (h : s.seq? i = some x) (r : Requester) (d : Nat) (o : List Byte) :
    (s.withPclass r d o i).seq? i = some { x with pclass := u8 o 4 } :=
  State.seq?_setSeq_same (s := s.audit d (s.whoReq r) 0x03 0x0F [] o) h _

theorem State.noPlacements_of_slc {s t : State} (h : s.noPlacements) (e : t.slc = s.slc) : t.noPlacements := by
  rw [State.noPlacements, e]
  exact h

/-- What `SEQ_PCLASS` does on its operands (R181), as `execSeqPclass` runs it. -/
def State.seqPclass (s : State) (r : Requester) (d : Nat) (o : List Byte) : State :=
  if 15 < u8 o 4 then s.fail r .format
  else s.onSeq r d o fun i _ =>
    s.privileged r d 0x03 0x0F o fun t => ((t.setSeq i fun q => { q with pclass := u8 o 4 }).complete r {}).sluice

/-- `SEQ_PCLASS` of a class in range, while the log has room and no placement waits. -/
theorem State.seqPclass_sets {s : State} {r : Requester} {d i : Nat} {o : List Byte} {x : Seq} (hc : u8 o 4 ≤ 15)
    (hf : s.findSeq d (u32 o 0) = .ok (i, x)) (haud : s.auditTakes = true) (hn : s.noPlacements) :
    s.seqPclass r d o = (s.withPclass r d o i).complete r {} := by
  obtain ⟨-, -, hslc⟩ := s.withPclass_keeps r d o i
  rw [State.seqPclass, if_neg (Nat.not_lt.mpr hc), State.onSeq_of_findSeq hf, State.privileged_takes haud]
  exact State.sluice_idle _ (State.noPlacements_of_slc hn ((State.complete_slc _ _ _).trans hslc))

theorem exec_seqPclass_sets (h : s.offersXlt q 0x0F c) (hc : u8 c.ops 4 ≤ 15)
    (hf : s.findSeq (s.ringDomain q) (u32 c.ops 0) = .ok (i, x)) (haud : s.auditTakes = true) (hn : s.noPlacements) :
    ∃ t, exec (.seqPclass q) s = .next t ∧ t.seq? i = some { x with pclass := u8 c.ops 4 } ∧ s.posts t q c .ok = true := by
  have hrun := (State.runXlt_of_offers h State.seqPclass).trans (State.seqPclass_sets (s := s.markStarted q) hc hf haud hn)
  change ∃ t, execSeqPclass q s = _ ∧ _
  rw [show execSeqPclass q s = .next (s.afterIn .store (s.runCmd q 0x0F fun t r d o => t.gate .xlt r Status.cpl fun t =>
    t.seqPclass r d o)) from rfl, hrun]
  obtain ⟨hh, ho, -⟩ := (s.markStarted q).withPclass_keeps (.ring q) (s.ringDomain q) c.ops i
  generalize hu : (s.markStarted q).withPclass (.ring q) (s.ringDomain q) c.ops i = u at hh ho
  refine ⟨_, rfl, ?_, State.posts_of_offers h.1 hh (ho ▸ List.suffix_rfl) rfl rfl⟩
  rw [State.seq?_afterIn rfl, State.seq?_complete]
  rw [← hu]
  exact State.seq?_withPclass (s := s.markStarted q) (State.seq?_of_findSeq hf) _ _ _

end

end Sys2Proof.Machine
end

section
/-! The commands that free pages: what a freed frame leaves, and what the end of a sequence, a truncate and a delayed unmap do
(R57, R58, R65, R66). -/

namespace Sys2Proof.Machine

/-! ### What freeing a frame leaves: the requests in flight, the placements and every sequence -/

/-- The placements in progress and those that wait. -/
def Slc.placing (x : Slc) : List Placement × List (Requester × Nat × List Byte) × List Nat × List (FrameId × Nat × Chain) :=
  (x.places, x.queue, x.spaceWait, x.chainWait)

/-- What the clients of the stores see: the host's rings, what has been given out, and the placements. -/
def State.clients (s : State) :
    Hif × List Out × List Placement × List (Requester × Nat × List Byte) × List Nat × List (FrameId × Nat × Chain) :=
  (s.hif, s.outs, s.slc.placing)

/-- The clients of the stores and the sequences. -/
def State.clientsAndSeqs (s : State) := (s.clients, s.xlt.seqs)

theorem State.noPlacements_of_clients {s t : State} (h : s.noPlacements) (e : t.clients = s.clients) : t.noPlacements := by
  simp only [State.clients, Slc.placing, Prod.mk.injEq] at e
  obtain ⟨-, -, hp, hq, hs, hc⟩ := e
  rw [State.noPlacements, hp, hq, hs, hc]
  exact h

section
variable (s t : State)

theorem State.clients_of_both {s t : State} (h : t.clientsAndSeqs = s.clientsAndSeqs) : t.clients = s.clients := congrArg Prod.fst h
theorem State.seqs_of_both {s t : State} (h : t.clientsAndSeqs = s.clientsAndSeqs) : t.xlt.seqs = s.xlt.seqs := congrArg Prod.snd h

@[simp] theorem State.clientsAndSeqs_ite (c : Prop) [Decidable c] :
    (if c then s else t).clientsAndSeqs = if c then s.clientsAndSeqs else t.clientsAndSeqs :=
  apply_ite State.clientsAndSeqs c s t

theorem State.clientsAndSeqs_forEach {α : Type} (l : List α) {f : α → State → State}
    (h : ∀ x t, (f x t).clientsAndSeqs = t.clientsAndSeqs) : (s.forEach l f).clientsAndSeqs = s.clientsAndSeqs := by
  induction l generalizing s with
  | nil => rfl
  | cons x xs ih => exact (ih (f x s)).trans (h x s)

@[simp] theorem State.clientsAndSeqs_freeExt (h : Home) : (s.freeExt h).clientsAndSeqs = s.clientsAndSeqs := by
  unfold State.freeExt
  split
  · rfl
  · split
    · rfl
    · extract_lets u
      split
      · rfl
      · split <;> rfl

@[simp] theorem State.clientsAndSeqs_freeFrame (f : FrameId) (h : Home) : (s.freeFrame f h).clientsAndSeqs = s.clientsAndSeqs := by
  unfold State.freeFrame
  split
  · rfl
  · exact s.clientsAndSeqs_freeExt h

@[simp] theorem State.clientsAndSeqs_freeMeta (f : FrameId) : (s.freeMeta f).clientsAndSeqs = s.clientsAndSeqs := by
  unfold State.freeMeta
  split
  · rfl
  · exact State.clientsAndSeqs_freeFrame _ _ _

@[simp] theorem State.clientsAndSeqs_freeTables (r : TableRoot) : (s.freeTables r).clientsAndSeqs = s.clientsAndSeqs :=
  s.clientsAndSeqs_forEach _ fun _ _ => State.clientsAndSeqs_freeMeta _ _

@[simp] theorem State.clientsAndSeqs_freeBdTables : s.freeBdTables.clientsAndSeqs = s.clientsAndSeqs :=
  s.clientsAndSeqs_forEach _ fun _ _ => State.clientsAndSeqs_freeMeta _ _

@[simp] theorem State.clientsAndSeqs_setBd (b : Nat) (f : Bd → Bd) : (s.setBd b f).clientsAndSeqs = s.clientsAndSeqs := rfl

@[simp] theorem State.clientsAndSeqs_awaits (w : Wait) : (s.awaits w).clientsAndSeqs = s.clientsAndSeqs := by
  unfold State.awaits
  split <;> rfl

/-- Freeing the frames of a block descriptor that nothing holds leaves the clients and every sequence. -/
@[simp] theorem State.clientsAndSeqs_sweepBd (b : Nat) : (s.sweepBd b).clientsAndSeqs = s.clientsAndSeqs := by
  unfold State.sweepBd
  split
  · rfl
  · next x hx =>
    split
    · rfl
    · extract_lets gone u v xlt
      have hu : u.clientsAndSeqs = s.clientsAndSeqs := s.clientsAndSeqs_forEach gone fun _ _ => State.clientsAndSeqs_freeFrame _ _ _
      have hv : v.clientsAndSeqs = s.clientsAndSeqs := hu
      split
      · rw [State.clientsAndSeqs_freeBdTables, State.clientsAndSeqs_freeMeta]
        exact hv
      · exact hv

@[simp] theorem State.clientsAndSeqs_dropPte (i : Nat) (k : Nat × Nat × Nat) (e : Pte) :
    (s.dropPte i k e).clientsAndSeqs = s.clientsAndSeqs := by
  unfold State.dropPte
  split <;> simp

end

/-! ### Unmapping pages (R66) -/

/-- A sequence whose pages under some keys have been unmapped: each is gone, or waits for the release of a pin. -/
structure Seq.Unmapped (x : Seq) (l : List (Nat × Nat × Nat)) (y : Seq) : Prop where
  rest : y = { x with ptes := y.ptes, unmapping := y.unmapping }
  ptes : ∀ e ∈ y.ptes, e ∈ x.ptes ∧ e.1 ∉ l

theorem State.seq?_of_both {s t : State} (h : t.clientsAndSeqs = s.clientsAndSeqs) (i : Nat) : t.seq? i = s.seq? i := by
  rw [State.seq?, State.seqs_of_both h, State.seq?]

theorem State.clients_unmapPage (s : State) (i : Nat) (k : Nat × Nat × Nat) : (s.unmapPage i k).clients = s.clients := by
  unfold State.unmapPage
  split
  · rfl
  · next e he =>
    extract_lets held u v
    have hu : u.clients = s.clients := State.clients_of_both (by unfold u; simp)
    have hv : v.clients = s.clients := hu
    split
    · exact (State.clients_of_both (v.clientsAndSeqs_awaits _)).trans hv
    · split
      · exact hv
      · exact (State.clients_of_both (v.clientsAndSeqs_dropPte _ _ _)).trans hv

theorem State.seq?_unmapPage {s : State} {i : Nat} {x : Seq} (h : s.seq? i = some x) (k : Nat × Nat × Nat) :
    ∃ y, (s.unmapPage i k).seq? i = some y ∧ x.Unmapped [k] y := by
  unfold State.unmapPage
  split
  · next hnone =>
    have hk : k ∉ x.ptes.keys := by
      have hhas : x.ptes.has k = false := by simpa [h, Assoc.has] using hnone
      simpa [Assoc.has_eq] using hhas
    refine ⟨x, h, rfl, fun e he => ⟨he, fun hek => hk ?_⟩⟩
    rw [← List.mem_singleton.mp hek]
    exact List.mem_map_of_mem he
  · next e he =>
    extract_lets held u v
    have hu : u.seq? i = some x := (State.seq?_of_both (by unfold u; simp) i).trans h
    have hv := State.seq?_setSeq_same hu fun q => { q with
      ptes := q.ptes.erase k, unmapping := if held then q.unmapping ++ [(k, e)] else q.unmapping }
    refine ⟨_, Eq.trans (b := v.seq? i) ?_ hv, rfl, fun e he => ?_⟩
    · split
      · exact State.seq?_of_both (v.clientsAndSeqs_awaits _) i
      · split
        · rfl
        · exact State.seq?_of_both (v.clientsAndSeqs_dropPte _ _ _) i
    · obtain ⟨hmem, hne⟩ := List.mem_filter.mp he
      exact ⟨hmem, by simpa using hne⟩

theorem State.clients_forEach_unmapPage (s : State) (i : Nat) (l : List (Nat × Nat × Nat)) :
    (s.forEach l fun k t => t.unmapPage i k).clients = s.clients := by
  induction l generalizing s with
  | nil => rfl
  | cons k l ih => exact (ih (s.unmapPage i k)).trans (s.clients_unmapPage i k)

theorem State.seq?_forEach_unmapPage {s : State} {i : Nat} {x : Seq} (h : s.seq? i = some x) (l : List (Nat × Nat × Nat)) :
    ∃ y, (s.forEach l fun k t => t.unmapPage i k).seq? i = some y ∧ x.Unmapped l y := by
  induction l generalizing s x with
  | nil => exact ⟨x, h, rfl, fun e he => ⟨he, List.not_mem_nil⟩⟩
  | cons k l ih =>
    obtain ⟨y, hy, hyr, hyp⟩ := State.seq?_unmapPage h k
    obtain ⟨z, hz, hzr, hzp⟩ := ih hy
    refine ⟨z, hz, by rw [hzr, hyr], fun e he => ?_⟩
    obtain ⟨hmem, hl⟩ := hzp e he
    obtain ⟨hmem', hk⟩ := hyp e hmem
    exact ⟨hmem', by simpa using ⟨by simpa using hk, hl⟩⟩

/-! ### Truncation (R58) -/

/-- The expected positions after a truncate to a position. -/
def State.cutNext (s : State) (x : Seq) (p : Nat) : Assoc Nat Nat :=
  (List.range (s.modelOf x).layers).map fun l => (l, min (x.nextPos l) p)

theorem State.clients_cutSeq (s : State) (i : Nat) (x : Seq) (p : Nat) : (s.cutSeq i x p).clients = s.clients :=
  s.clients_forEach_unmapPage i _

/-- A cut sequence expects no position above the cut, and maps no page from it on. -/
theorem State.seq?_cutSeq {s : State} {i : Nat} {x : Seq} (h : s.seq? i = some x) (p : Nat) :
    ∃ y, (s.cutSeq i x p).seq? i = some y ∧ y.next = s.cutNext x p ∧ y.trunc = x.trunc ∧ y.waiting = x.waiting ∧
      ∀ e ∈ y.ptes, e.1.2.2 < p / 16 := by
  unfold State.cutSeq
  extract_lets layers run gone t
  obtain ⟨y, hy, hrest, hptes⟩ := State.seq?_forEach_unmapPage h gone
  refine ⟨_, State.seq?_setSeq_same hy _, rfl, by rw [hrest], by rw [hrest], fun e he => Nat.lt_of_not_le fun hp => ?_⟩
  obtain ⟨hmem, hkeep⟩ := hptes e he
  exact hkeep (List.mem_map_of_mem (List.mem_filter.mpr ⟨hmem, by simpa using hp⟩))

section
variable {s : State} {r : Requester} {i p : Nat} {x : Seq} (h : s.seq? i = some x) (ht : x.trunc = none)
  (hd : x.st ≠ .draining) (hp : x.st ≠ .poisoned)
include h ht hd hp

theorem State.truncateArrives_cuts (hf : x.inFlight = 0) : s.truncateArrives r i p = (s.cutSeq i x p).complete r {} := by
  simp [State.truncateArrives, h, ht, hd, hp, hf]

theorem State.truncateArrives_held (hf : x.inFlight ≠ 0) :
    s.truncateArrives r i p = (s.setSeq i fun q => { q with trunc := some (r, p) }).awaits (.truncate i) := by
  simp [State.truncateArrives, h, ht, hd, hp, hf]

end

section
variable {s : State} {q : CmdRef} {c : InFlight} {i : Nat} {x : Seq} (h : s.offersXlt q 0x0A c) (hp : u32 c.ops 4 % 16 = 0)
  (hf : s.findSeq (s.ringDomain q) (u32 c.ops 0) = .ok (i, x))
include h hp hf

/-- `SEQ_TRUNCATE` to a block boundary arrives at the sequence of its handle. -/
theorem execSeqTruncate_arrives :
    execSeqTruncate q s = .next (s.afterIn .engine ((s.markStarted q).truncateArrives (.ring q) i (u32 c.ops 4))) := by
  rw [execSeqTruncate, State.runXlt_of_offers h fun t r d o =>
    if u32 o 4 % 16 ≠ 0 then t.fail r .format else t.onSeq r d o fun i _ => t.truncateArrives r i (u32 o 4),
    if_neg (by simp [hp])]
  exact congrArg (fun u => (Host.Outcome.next (s.afterIn .engine u) : Host.Outcome State Fault Refusal))
    (State.onSeq_of_findSeq (s := s.markStarted q) hf _)

variable (ht : x.trunc = none) (hd : x.st ≠ .draining) (hpo : x.st ≠ .poisoned)
include ht hd hpo

theorem exec_seqTruncate_cuts (hn : x.inFlight = 0) :
    ∃ t, exec (.seqTruncate q) s = .next t ∧ s.posts t q c .ok = true ∧
      ∃ y, t.seq? i = some y ∧ y.next = s.cutNext x (u32 c.ops 4) ∧ ∀ e ∈ y.ptes, e.1.2.2 < u32 c.ops 4 / 16 := by
  have hx : (s.markStarted q).seq? i = some x := State.seq?_of_findSeq hf
  change ∃ t, execSeqTruncate q s = _ ∧ _
  rw [execSeqTruncate_arrives h hp hf, State.truncateArrives_cuts hx ht hd hpo hn]
  have hcl := (s.markStarted q).clients_cutSeq i x (u32 c.ops 4)
  obtain ⟨y, hy, hnext, -, -, hptes⟩ := State.seq?_cutSeq hx (u32 c.ops 4)
  refine ⟨_, rfl, State.posts_of_offers h.1 (congrArg Prod.fst hcl) ?_ rfl rfl, y, ?_, hnext, hptes⟩
  · rw [show State.outs _ = s.outs from congrArg (fun z => z.2.1) hcl]
  · rw [State.seq?_afterIn rfl, State.seq?_complete, hy]

theorem exec_seqTruncate_held (hn : x.inFlight ≠ 0) :
    ∃ t, exec (.seqTruncate q) s = .next t ∧ t.seq? i = some { x with trunc := some (.ring q, u32 c.ops 4) } := by
  have hx : (s.markStarted q).seq? i = some x := State.seq?_of_findSeq hf
  change ∃ t, execSeqTruncate q s = _ ∧ _
  rw [execSeqTruncate_arrives h hp hf, State.truncateArrives_held hx ht hd hpo hn]
  refine ⟨_, rfl, ?_⟩
  rw [State.seq?_afterIn rfl, State.seq?_awaits, State.seq?_setSeq_same hx]

end

section
variable {s t u : State} {c : Scope} {i : Nat}

theorem State.seq?_afterMemIn (h : c.xlt = true) : (s.afterMemIn c u).seq? i = u.seq? i := by
  simp only [State.seq?, State.afterMemIn, State.afterMem_xlt, State.only, h, cond_true]

theorem State.outs_afterMemIn (h : c.outs = true) : (s.afterMemIn c u).outs = u.outs := by
  simp only [State.afterMemIn, State.afterMem_outs, State.only, h, cond_true]

theorem State.outs_setSeq (s : State) (i : Nat) (f : Seq → Seq) : (s.setSeq i f).outs = s.outs := rfl

theorem State.posts_of_outs (h : t.outs = u.outs) (q : CmdRef) (f : InFlight) (st : Status) : s.posts t q f st = s.posts u q f st := by
  simp only [State.posts, State.gives, h]

/-- Nothing waited behind a truncate: its end resumes nothing. -/
theorem State.resumeWaiting_none {x : Seq} (h : s.seq? i = some x) (hw : x.waiting = []) :
    s.resumeWaiting i = s.setSeq i fun x => { x with waiting := [] } := by
  simp [State.resumeWaiting, h, hw]

/-- A completion in a state with the same clients is posted. -/
theorem State.posts_complete_of_clients {q : CmdRef} {f : InFlight} (hw : s.waitsFor q f) (hcl : u.clients = s.clients) :
    s.posts (u.complete (.ring q) {}) q f .ok = true := by
  refine State.posts_complete (c := {}) (State.waitsFor_of_hif hw (congrArg Prod.fst hcl)) ?_ (by simp) (by simp)
  rw [show u.outs = s.outs from congrArg (fun z => z.2.1) hcl]

end

section
variable {s : State} {i : Nat} {x : Seq} (h : s.seq? i = some x)
include h

/-- The state once a held truncate is held no longer. -/
def State.unheld (s : State) (i : Nat) : State := (s.endWait (.truncate i)).setSeq i fun q => { q with trunc := none }

omit h in
theorem State.clients_unheld (s : State) (i : Nat) : (s.unheld i).clients = s.clients := rfl

theorem exec_truncateRelease_cuts {r : Requester} {p : Nat} (ht : x.trunc = some (r, p)) (hn : x.inFlight = 0)
    (hb : s.mayBegin (.truncate i) = true) (hx : s.serves .xlt = true) (hw : x.waiting = []) (hd : x.st ≠ .draining)
    (hp : x.st ≠ .poisoned) :
    ∃ t, exec (.truncateRelease i) s = .next t ∧ (∃ y, t.seq? i = some y ∧ y.trunc = none ∧ y.next = s.cutNext x p) ∧
      ∀ q c, r = .ring q → s.waitsFor q c → s.posts t q c .ok = true := by
  have hu : (s.unheld i).seq? i = some { x with trunc := none } := State.seq?_setSeq_same (s := s.endWait (.truncate i)) h _
  have harr := State.truncateArrives_cuts (r := r) (p := p) hu rfl hd hp hn
  obtain ⟨y, hy, hnext, htr, hwait, -⟩ := State.seq?_cutSeq hu p
  have hres := State.resumeWaiting_none (s := ((s.unheld i).cutSeq i { x with trunc := none } p).complete r {}) hy (hwait.trans hw)
  have hexec : exec (.truncateRelease i) s = .next (s.afterMemIn .lookup (((s.unheld i).truncateArrives r i p).resumeWaiting i)) := by
    change execTruncateRelease i s = _
    simp only [execTruncateRelease, h, ht, hn, hb, hx, and_self, if_true]
    rfl
  rw [hexec, harr, hres]
  refine ⟨_, rfl, ⟨{ y with waiting := [] }, ?_, htr, hnext⟩, ?_⟩
  · rw [State.seq?_afterMemIn rfl]
    exact State.seq?_setSeq_same ((State.seq?_complete _ _).trans hy) _
  · rintro q c rfl hq
    rw [State.posts_of_outs (State.outs_afterMemIn rfl), State.posts_of_outs (State.outs_setSeq _ _ _)]
    exact State.posts_complete_of_clients hq (((s.unheld i).clients_cutSeq i _ p).trans (s.clients_unheld i))

/-! ### The end of a sequence (R57) -/

/-- The state once a `DRAINING` sequence has given up its pages, its tables and its handle. -/
def State.withRetired (s : State) (i : Nat) (x : Seq) : State :=
  ((((s.endWait (.retire i)).forEach (x.ptes.map Prod.fst) fun k t => t.unmapPage i k).freeTables (.seq i)).setSeq i fun q => {
    tag := q.tag, st := .retired, domain := q.domain, model := q.model, stripe := q.stripe })

omit h in
theorem State.clients_withRetired (s : State) (i : Nat) (x : Seq) : (s.withRetired i x).clients = s.clients :=
  (State.clients_of_both (State.clientsAndSeqs_freeTables _ _)).trans (State.clients_forEach_unmapPage _ i _)

theorem State.seq?_withRetired :
    (s.withRetired i x).seq? i = some { tag := x.tag, st := .retired, domain := x.domain, model := x.model, stripe := x.stripe } := by
  obtain ⟨y, hy, hrest, -⟩ := State.seq?_forEach_unmapPage (s := s.endWait (.retire i)) h (x.ptes.map Prod.fst)
  have hz := (State.seq?_of_both (State.clientsAndSeqs_freeTables
    ((s.endWait (.retire i)).forEach (x.ptes.map Prod.fst) fun k t => t.unmapPage i k) (.seq i)) i).trans hy
  refine (State.seq?_setSeq_same hz _).trans ?_
  rw [hrest]

omit h in
theorem State.forEach_complete (s : State) (l : List Requester) :
    (s.forEach l fun r t => t.complete r {}).xlt = s.xlt ∧ (s.forEach l fun r t => t.complete r {}).slc = s.slc := by
  induction l generalizing s with
  | nil => exact ⟨rfl, rfl⟩
  | cons r l ih => exact ih (s.complete r {})

theorem exec_seqRetired_retires (hst : x.st = .draining) (hdr : s.drained i x = true) (hb : s.mayBegin (.retire i) = true)
    (hx : s.serves .xlt = true) (hn : s.noPlacements) :
    ∃ t, exec (.seqRetired i) s = .next t ∧
      t.seq? i = some { tag := x.tag, st := .retired, domain := x.domain, model := x.model, stripe := x.stripe } ∧
      ∀ q c, x.retirers = [.ring q] → s.waitsFor q c → s.posts t q c .ok = true := by
  have hcl := s.clients_withRetired i x
  obtain ⟨hxlt, hslc⟩ := (s.withRetired i x).forEach_complete x.retirers
  have hidle := State.sluice_idle _ (State.noPlacements_of_slc (State.noPlacements_of_clients hn hcl) hslc)
  have hexec : exec (.seqRetired i) s
      = .next (s.afterIn .engine ((s.withRetired i x).forEach x.retirers fun r t => t.complete r {}).sluice) := by
    change execSeqRetired i s = _
    simp only [execSeqRetired, h, hst, hdr, hb, hx, and_self, if_true]
    rfl
  rw [hexec, hidle]
  refine ⟨_, rfl, ?_, fun q c hret hq => ?_⟩
  · rw [State.seq?_afterIn rfl, State.seq?, hxlt]
    exact State.seq?_withRetired h
  · rw [State.posts_afterIn rfl, hret]
    exact State.posts_complete_of_clients hq hcl

/-! ### A delayed unmap (R66) -/

/-- The state once a page that waited for the release of a pin is given up. -/
def State.withoutPage (s : State) (i : Nat) (k : Nat × Nat × Nat) (e : Pte) (rest : Assoc (Nat × Nat × Nat) Pte) : State :=
  ((s.endWait (.unmap i k)).setSeq i fun q => { q with unmapping := rest }).dropPte i k e

theorem exec_unmap_gives_up {l g p : Nat} {e : Pte} {rest : Assoc (Nat × Nat × Nat) Pte}
    (hun : x.unmapping = ((l, g, p), e) :: rest) (hpin : s.pinned (e.frame i l g p) = false)
    (hb : s.mayBegin (.unmap i (l, g, p)) = true) (hx : s.serves .xlt = true) (hn : s.noPlacements) :
    ∃ t, exec (.unmap i l g p) s = .next t ∧ t.seq? i = some { x with unmapping := rest } := by
  have hboth := State.clientsAndSeqs_dropPte ((s.endWait (.unmap i (l, g, p))).setSeq i fun q => { q with unmapping := rest }) i (l, g, p) e
  have hcl : (s.withoutPage i (l, g, p) e rest).clients = s.clients := (State.clients_of_both hboth).trans rfl
  have hidle := State.sluice_idle _ (State.noPlacements_of_clients hn hcl)
  have hexec : exec (.unmap i l g p) s = .next (s.afterIn .engine (s.withoutPage i (l, g, p) e rest).sluice) := by
    change execUnmap i l g p s = _
    simp only [execUnmap, h, hun, takeFirst, beq_self_eq_true, if_true, hpin, hb, hx, Bool.not_false, and_self]
    rfl
  rw [hexec, hidle]
  refine ⟨_, rfl, ?_⟩
  rw [State.seq?_afterIn rfl]
  exact (State.seq?_of_both hboth i).trans (State.seq?_setSeq_same (s := s.endWait (.unmap i (l, g, p))) h _)

end

end Sys2Proof.Machine
end

section
/-! `SEQ_MAP_PREFIX` of a cached block whose tables stand (R64, R126). -/

namespace Sys2Proof.Machine

/-! ### Tables that stand (R48) -/

theorem State.addMeta_of_has {s : State} {f : FrameId} (h : s.xlt.metas.has f = true) (d fc : Nat) : s.addMeta f d fc = some s := by
  simp [State.addMeta, h]

/-- Where every table on the way to an entry stands, none is added. -/
theorem State.addTables_of_has {s : State} {r : TableRoot} {key : Nat} (h : (tablePath r key).all s.xlt.metas.has = true) (d : Nat) :
    s.addTables r key d = some s := by
  unfold State.addTables
  generalize tablePath r key = fs at h
  induction fs with
  | nil => rfl
  | cons f fs ih =>
    rw [List.all_cons, Bool.and_eq_true] at h
    obtain ⟨hf, hfs⟩ := h
    rw [List.foldl_cons, Option.bind_some, State.addMeta_of_has hf, ih hfs]

/-! ### Mapping a block -/

/-- The key of the page that slot `k` of a block maps, with `g` head groups in a layer. -/
def slotKey (g page k : Nat) : Nat × Nat × Nat := (k / g, k % g, page)

theorem slotKey_inj {g page k l : Nat} (h : slotKey g page k = slotKey g page l) : k = l := by
  simp only [slotKey, Prod.mk.injEq] at h
  obtain ⟨hd, hm, -⟩ := h
  rw [← Nat.div_add_mod k g, hd, hm, Nat.div_add_mod]

/-- A state in which the first slots of a block have been mapped as pages of a sequence, and nothing else has changed for it. -/
structure State.Maps (s : State) (i page bd g : Nat) (x : Seq) (n : Nat) (t : State) : Prop where
  metas : t.xlt.metas = s.xlt.metas
  models : t.xlt.models = s.xlt.models
  clients : t.clients = s.clients
  seq : ∃ z, t.seq? i = some z ∧ z = { x with ptes := z.ptes } ∧
    ∀ k < n, (z.ptes.get? (slotKey g page k)).bind Pte.share = some (bd, k)

theorem State.Maps.refl {s : State} {i : Nat} {x : Seq} (h : s.seq? i = some x) (page bd g : Nat) : s.Maps i page bd g x 0 s :=
  ⟨rfl, rfl, rfl, x, h, rfl, fun _ hk => absurd hk (Nat.not_lt_zero _)⟩

/-- One more slot is mapped. -/
theorem State.Maps.succ {s t : State} {i page bd g n : Nat} {x : Seq} (h : s.Maps i page bd g x n t) (e : Pte) (he : e.share = some (bd, n))
    (f : Bd → Bd) :
    s.Maps i page bd g x (n + 1) ((t.setSeq i fun q => { q with ptes := q.ptes.set (slotKey g page n) e }).setBd bd f) := by
  obtain ⟨hme, hmo, hcl, z, hz, hrest, hmap⟩ := h
  refine ⟨hme, hmo, hcl, _, State.seq?_setSeq_same hz _, by rw [hrest], fun k hk => ?_⟩
  rcases Nat.lt_succ_iff_lt_or_eq.mp hk with hlt | rfl
  · have hne : slotKey g page k ≠ slotKey g page n := fun he => absurd (slotKey_inj he) (Nat.ne_of_lt hlt)
    exact (congrArg (Option.bind · Pte.share) (Assoc.get?_set_other _ _ _ _ hne)).trans (hmap k hlt)
  · exact (congrArg (Option.bind · Pte.share) (Assoc.get?_set_same _ _ _)).trans he

theorem State.modelOfBd_of_models {s t : State} (h : t.xlt.models = s.xlt.models) (b : Bd) : t.modelOfBd b = s.modelOfBd b := by
  simp only [State.modelOfBd, State.model?, h]

/-- A block whose tables stand is mapped, slot by slot. -/
theorem State.mapBlock_maps {s : State} {i : Nat} {x : Seq} (h : s.seq? i = some x) (d page bd : Nat) (b : Bd)
    (ht : ∀ k < b.slots, (tablePath (.seq i) (pageKey (k / (s.modelOfBd b).groups) (k % (s.modelOfBd b).groups) page)).all
      s.xlt.metas.has = true) :
    ∃ t, s.mapBlock i d page bd b = some t ∧ s.Maps i page bd (s.modelOfBd b).groups x b.slots t := by
  unfold State.mapBlock
  generalize b.slots = n at ht
  induction n with
  | zero => exact ⟨s, rfl, .refl h page bd _⟩
  | succ n ih =>
    obtain ⟨t, hfold, hmaps⟩ := ih fun k hk => ht k (Nat.lt_succ_of_lt hk)
    have hadd := State.addTables_of_has (s := t) (hmaps.metas ▸ ht n (Nat.lt_succ_self n)) d
    rw [List.range_succ, List.foldl_append, hfold]
    simp only [List.foldl_cons, List.foldl_nil, Option.bind_some, State.modelOfBd_of_models hmaps.models, hadd, Option.map_some]
    exact ⟨_, rfl, hmaps.succ _ rfl _⟩

/-! ### `SEQ_MAP_PREFIX` (R64) -/

/-- The expected positions of a sequence once every layer is at one position. -/
def State.allAt (s : State) (x : Seq) (p : Nat) : Assoc Nat Nat := (List.range (s.modelOf x).layers).map fun l => (l, p)

/-- A block that a sequence may map as its first pages: it is of the sequence's model, complete, whole in every frame, and each of
its frames has room for one more reference. -/
structure State.Prefixes (s : State) (d bd : Nat) (x : Seq) (y : Bd) : Prop where
  found : s.findBd d bd = some y
  tag : y.tag = x.model
  whole : y.whole = true
  unpoisoned : (y.fds.any fun f => f.2.poison) = false
  page : s.metaPoison (.bdPage bd) = false
  refs : (y.fds.all fun f => decide (f.2.refs < 65535)) = true

/-- A sequence that maps a first block: it is not `DRAINING`, has no stripe, and every layer is at its base. -/
structure State.Empty (s : State) (x : Seq) : Prop where
  st : x.st ≠ .draining
  stripe : x.stripe = none
  next : ((List.range (s.modelOf x).layers).all fun l => decide (x.nextPos l = x.base)) = true
  room : x.base + 16 ≤ 2 ^ 24

section
variable {s : State} {d i : Nat} {x : Seq} {y : Bd} {o inp : List Byte}

theorem State.mapPrefix_maps (r : Requester) (hi : s.seq? i = some x) (h1 : u32 o 4 = 1) (he : s.Empty x)
    (hp : s.Prefixes d (u32 inp 0) x y)
    (ht : ∀ k < y.slots, (tablePath (.seq i) (pageKey (k / (s.modelOfBd y).groups) (k % (s.modelOfBd y).groups) (x.base / 16))).all
      s.xlt.metas.has = true) :
    ∃ t : State, s.mapPrefix r i d x o inp = t.complete r {} ∧ t.clients = s.clients ∧
      ∃ z : Seq, t.seq? i = some z ∧ z.next = s.allAt x (x.base + 16) ∧ z.run = y.hash ∧ z.runKnown = true ∧
        ∀ k < y.slots, (z.ptes.get? (slotKey (s.modelOfBd y).groups (x.base / 16) k)).bind Pte.share = some (u32 inp 0, k) := by
  obtain ⟨hst, hstr, hnext, hroom⟩ := he
  obtain ⟨hfound, htag, hwhole, hpoi, hpage, hrefs⟩ := hp
  obtain ⟨t, hmap, hmaps⟩ := State.mapBlock_maps hi d (x.base / 16) (u32 inp 0) y ht
  obtain ⟨-, -, hcl, z, hz, hrest, hshare⟩ := hmaps
  unfold State.mapPrefix
  extract_lets n bds found empty
  have hn : n = 1 := h1
  have hbds : bds = [u32 inp 0] := by simp [bds, hn]
  have hfd : found = [(u32 inp 0, y)] := by simp [found, hbds, hfound]
  have hroom' : x.base ≤ 16777200 := by omega
  have hform : ¬ (!empty || decide (4194304 < 16 * n) || decide (2 ^ 24 < x.base + 16 * n)
      || x.stripe.any (fun z => decide (2 ^ z.log < 16 * n)) || found.any fun f => decide (f.2.tag ≠ x.model) || !f.2.whole) := by
    simp [show empty = true from hnext, hn, hstr, hfd, htag, hwhole, hroom']
  have hclean : ¬ (found.any fun f => f.2.fds.any (fun f => f.2.poison) || s.metaPoison (.bdPage f.1)) := by
    simp only [hfd, List.any_cons, List.any_nil, hpoi, hpage, Bool.or_false, Bool.false_eq_true, not_false_iff]
  have hfit : ¬ (found.any fun f => f.2.fds.any fun g => decide (65535 < g.2.refs + bds.count f.1)) := by
    have hroom (g : Nat × Fd) (hg : g ∈ y.fds) : g.2.refs < 65535 := by simpa using List.all_eq_true.mp hrefs g hg
    simp only [hfd, hbds, List.any_cons, List.any_nil, Bool.or_false, List.count_singleton_self, List.any_eq_true,
      decide_eq_true_eq, not_exists, not_and]
    exact fun g hg => Nat.not_lt.mpr (hroom g hg)
  have hfold : (found.zipIdx).foldl (fun t f => t.bind fun (t : State) => t.mapBlock i d (x.base / 16 + f.2) f.1.1 f.1.2) (some s)
      = some t := by
    rw [hfd]
    exact hmap
  have hall : (List.range (s.modelOf x).layers).map (fun l => (l, x.base + 16 * n)) = s.allAt x (x.base + 16) := by
    rw [State.allAt, hn]
  rw [if_neg hst, if_neg (by simp [hfd, hn]), if_neg hform, if_neg hclean, if_neg hfit, hfold, hfd]
  refine ⟨_, rfl, hcl, _, State.seq?_setSeq_same (State.seq?_setSeq_same hz _) _, hall, rfl, rfl, hshare⟩

end

section
variable {s : State} {q : CmdRef} {c : InFlight} {i : Nat} {x : Seq} {y : Bd} {inp : List Byte}

/-- What `SEQ_MAP_PREFIX` does on its operands and its input, as `execSeqMapPrefix` runs it. -/
def State.seqMapPrefix (s : State) (r : Requester) (d : Nat) (o b : List Byte) : State :=
  if b.length ≠ 4 * u32 o 4 then s.fail r .format else s.onSeq r d o fun i x => s.mapPrefix r i d x o b

theorem exec_seqMapPrefix_maps (h : s.offersXlt q 0x0C c) (hin : inp.length = c.inLen) (h1 : u32 c.ops 4 = 1) (hlen : inp.length = 4)
    (hf : s.findSeq (s.ringDomain q) (u32 c.ops 0) = .ok (i, x)) (he : s.Empty x)
    (hp : s.Prefixes (s.ringDomain q) (u32 inp 0) x y)
    (ht : ∀ k < y.slots, (tablePath (.seq i) (pageKey (k / (s.modelOfBd y).groups) (k % (s.modelOfBd y).groups) (x.base / 16))).all
      s.xlt.metas.has = true) :
    ∃ t, exec (.seqMapPrefix q (.bytes inp)) s = .next t ∧ s.posts t q c .ok = true ∧
      ∃ z : Seq, t.seq? i = some z ∧ z.next = s.allAt x (x.base + 16) ∧ z.run = y.hash ∧ z.runKnown = true ∧
        ∀ k < y.slots, (z.ptes.get? (slotKey (s.modelOfBd y).groups (x.base / 16) k)).bind Pte.share = some (u32 inp 0, k) := by
  obtain ⟨t, hmap, hcl, z, hz, hall⟩ := State.mapPrefix_maps (s := s.markStarted q) (o := c.ops) (.ring q) (State.seq?_of_findSeq hf) h1
    ⟨he.st, he.stripe, he.next, he.room⟩ ⟨hp.found, hp.tag, hp.whole, hp.unpoisoned, hp.page, hp.refs⟩ ht
  have hbody : (s.markStarted q).seqMapPrefix (.ring q) (s.ringDomain q) c.ops inp = t.complete (.ring q) {} := by
    rw [State.seqMapPrefix, if_neg (by simp [hlen, h1]), State.onSeq_of_findSeq (s := s.markStarted q) hf, hmap]
  have hexec : exec (.seqMapPrefix q (.bytes inp)) s = .next (s.afterIn .engine (s.runCmdIn q 0x0C (.bytes inp) fun t r d o b =>
      t.gate .xlt r Status.cpl fun t => t.seqMapPrefix r d o b)) := rfl
  rw [hexec, State.runCmdIn_of_startable h.1.1 inp hin, State.gate_markStarted h.2, hbody]
  refine ⟨_, rfl, State.posts_of_offers h.1 (congrArg Prod.fst hcl) ?_ rfl rfl, z, ?_, hall⟩
  · rw [show t.outs = s.outs from congrArg (fun z => z.2.1) hcl]
  · rw [State.seq?_afterIn rfl, State.seq?_complete, hz]

end

end Sys2Proof.Machine
end

section
/-! `SEQ_STRIPE` (R123, R128): a running hash that waited in the slot may send records and hand blocks off, and that leaves the host's
rings and every stripe. -/

namespace Sys2Proof.Machine

/-! ### What a record to send leaves -/

/-- The stripe and the base of a sequence. -/
def Seq.place (x : Seq) : Option Stripe × Nat := (x.stripe, x.base)

/-- The rings of the host and every stripe are as they were, and more may have been given out. -/
structure State.Sends (s t : State) : Prop where
  hif : t.hif = s.hif
  outs : s.outs <:+ t.outs
  places : ∀ i, (t.seq? i).map Seq.place = (s.seq? i).map Seq.place

namespace State.Sends

variable {s t u : State}

theorem refl (s : State) : s.Sends s := ⟨rfl, List.suffix_rfl, fun _ => rfl⟩

theorem trans (h : s.Sends t) (h' : t.Sends u) : s.Sends u :=
  ⟨h'.hif.trans h.hif, h.outs.trans h'.outs, fun i => (h'.places i).trans (h.places i)⟩

/-- A change outside the host, what has been given out and the sequences. -/
theorem of_eq (hh : t.hif = s.hif) (ho : t.outs = s.outs) (hs : t.xlt.seqs = s.xlt.seqs) : s.Sends t :=
  ⟨hh, ho ▸ List.suffix_rfl, fun i => by rw [State.seq?, hs, State.seq?]⟩

theorem emit (h : s.Sends t) (o : Out) : s.Sends (t.emit o) :=
  h.trans ⟨rfl, List.suffix_cons _ _, fun _ => rfl⟩

theorem bump (h : s.Sends t) (c n : Nat) : s.Sends (t.bump c n) := h.trans (of_eq rfl rfl rfl)
theorem setErr (h : s.Sends t) (e : Nat × Nat) (off : Nat) : s.Sends (t.setErr e off) := h.trans (of_eq rfl rfl rfl)
theorem setEvt (h : s.Sends t) (e : Nat × Nat) (off : Nat) : s.Sends (t.setEvt e off) := h.trans (of_eq rfl rfl rfl)
theorem setPort (h : s.Sends t) (p : Nat) (f : Port → Port) : s.Sends (t.setPort p f) := h.trans (of_eq rfl rfl rfl)
theorem setSess (h : s.Sends t) (i : Nat) (f : Session → Session) : s.Sends (t.setSess i f) := h.trans (of_eq rfl rfl rfl)
theorem setSlot (h : s.Sends t) (k : Nat) (f : RingSlot → RingSlot) : s.Sends (t.setSlot k f) := h.trans (of_eq rfl rfl rfl)
theorem setBd (h : s.Sends t) (b : Nat) (f : Bd → Bd) : s.Sends (t.setBd b f) := h.trans (of_eq rfl rfl rfl)

/-- A change of a sequence that leaves its stripe and its base. -/
theorem setSeq (h : s.Sends t) (i : Nat) {f : Seq → Seq} (hf : ∀ x, (f x).place = x.place) : s.Sends (t.setSeq i f) := by
  refine h.trans ⟨rfl, List.suffix_rfl, fun j => ?_⟩
  by_cases hj : j = i
  · subst hj
    simp [State.seq?, State.setSeq, Assoc.get?_modify_same, Function.comp_def, hf]
  · rw [State.seq?, State.setSeq, Assoc.get?_modify_other _ _ _ _ hj, State.seq?]

theorem forEach {α : Type} (h : s.Sends t) (l : List α) {f : α → State → State} (hf : ∀ (x : α) (t : State), t.Sends (f x t)) :
    s.Sends (t.forEach l f) := by
  induction l generalizing t with
  | nil => exact h
  | cons x xs ih => exact ih (h.trans (hf x t))

theorem bumpD (h : s.Sends t) (d c n : Nat) : s.Sends (t.bumpD d c n) := by
  unfold State.bumpD
  split
  · exact h.trans (of_eq rfl rfl rfl)
  · exact h.bump c n

theorem setErrD (h : s.Sends t) (d : Nat) (e : Nat × Nat) (off : Nat) : s.Sends (t.setErrD d e off) := by
  unfold State.setErrD
  split
  · exact h
  · exact h.setErr e off

/-! ### Messages of Causeway -/

theorem linkFlit (h : s.Sends t) (p k v : Nat) : s.Sends (t.linkFlit p k v) := ((h.setPort _ _).emit _).emit _

theorem startRetrain (h : s.Sends t) (p : Nat) (w : Bool) : s.Sends (t.startRetrain p w) := ((h.setPort _ _).setErr _ _).bump _ _

theorem pump (h : s.Sends t) (p : Nat) : s.Sends (t.pump p) := by
  unfold State.pump
  extract_lets x r u
  have hu : s.Sends u := h.setPort p _
  split
  · split
    · exact hu
    · exact (hu.forEach _ fun o t => (refl t).emit _).bump _ _
  · exact h

theorem portSend (h : s.Sends t) (p v l : Nat) : s.Sends (t.portSend p v l) := by
  unfold State.portSend
  extract_lets x u w
  have hu : s.Sends u := h.setPort p _
  have hw : s.Sends w := by
    unfold w
    split
    · exact (hu.linkFlit _ _ _).setPort _ _
    · exact hu
  split
  · exact (hu.emit _).startRetrain _ _
  · exact hw.pump p

theorem transmit (h : s.Sends t) (i p n : Nat) (r : Bool) (m : TxMsg) : s.Sends (t.transmit i p n r m) := by
  unfold State.transmit
  split
  · exact h
  · exact (((h.setSess _ _).emit _).bumpD _ _ _).portSend _ _ _

theorem cwySend (h : s.Sends t) (i p : Nat) (m : TxMsg) : s.Sends (t.cwySend i p m) := by
  unfold State.cwySend
  split
  · exact h
  · split
    · exact h.setSess _ _
    · exact (h.setSess _ _).transmit _ _ _ _ _

/-- A `CHAIN` record is sent, or waits in its slot (R128). -/
theorem sendChain (h : s.Sends t) (n : Nat) (c : ChainRec) : s.Sends (t.sendChain n c) := by
  unfold State.sendChain
  extract_lets r mark
  have hmark (k : Nat) : s.Sends (mark k t) := h.setSlot n _
  split
  · split
    · exact (hmark 0).cwySend _ _ _
    · exact hmark 2
  · exact hmark 2

/-! ### Blocks that follow a running hash (R87, R88, R127) -/

theorem hashBlock (h : s.Sends t) (i b : Nat) (l : List Word) : s.Sends (t.hashBlock i b l) := by
  unfold State.hashBlock
  split
  · exact h
  · split
    · exact h
    · next n hn =>
      extract_lets keys hsh u v
      have hv : s.Sends v := (h.setBd _ _).setSeq i fun _ => by rfl
      split
      · split
        · exact (hv.setSlot _ _).sendChain _ _
        · exact hv
      · exact hv

theorem noEntry (h : s.Sends t) (x : Handoff) (b c : Nat) : s.Sends (t.noEntry x b c) := by
  unfold State.noEntry
  extract_lets d u off first v w
  have hw : s.Sends w := ((h.bumpD _ _ _).setSeq _ fun _ => by rfl).bumpD _ _ _
  split
  · exact hw.setEvt _ _
  · exact hw

theorem handOff (h : s.Sends t) (i b : Nat) : s.Sends (t.handOff i b) := by
  unfold State.handOff
  split
  · extract_lets out r x first u v
    have hv : s.Sends v := (h.setSeq i fun _ => by rfl).bumpD _ _ _
    split
    · split
      · exact hv.setEvt _ _
      · exact hv
    · split
      · exact h.noEntry _ _ _
      · exact h.trans (of_eq rfl rfl rfl)
  · exact h

/-- A running hash that reaches its stripe leaves the stripe where it is. -/
theorem giveRun (h : s.Sends t) (i : Nat) (x : DWord) : s.Sends (t.giveRun i x) := by
  unfold State.giveRun
  split
  · exact h
  · next y hy =>
    split
    · exact h
    · extract_lets u
      refine (h.setSeq i fun _ => by rfl).forEach _ fun b t => ?_
      have hb := (refl t).hashBlock i b.1 b.2
      extract_lets v
      split
      · split
        · exact hb.handOff _ _
        · exact hb
      · exact hb

end State.Sends

/-! ### `SEQ_STRIPE` (R123) -/

/-- The stripe that the operands of `SEQ_STRIPE` name in a slot. -/
def stripeOf (n : Nat) (o : List Byte) : Stripe := { slot := n, rsid := u32 o 8, k := u8 o 6, log := u8 o 7 }

/-- The state once a sequence has been bound to a stripe, and the change has entered the log. -/
def State.withStripe (s : State) (r : Requester) (d i n : Nat) (o : List Byte) : State :=
  (s.audit d (s.whoReq r) 0x03 0x10 [] o).setSeq i fun x => { x with
    stripe := some (stripeOf n o), base := u8 o 6 * 2 ^ u8 o 7, next := [], acc := [], runKnown := decide (u8 o 6 = 0) }

theorem State.withStripe_keeps (s : State) (r : Requester) (d i n : Nat) (o : List Byte) :
    (s.withStripe r d i n o).hif = s.hif ∧ (s.withStripe r d i n o).outs = s.outs := by
  simp [State.withStripe, State.setSeq]

theorem State.seq?_withStripe {s : State} {i : Nat} {x : Seq} (h : s.seq? i = some x) (r : Requester) (d n : Nat) (o : List Byte) :
    ((s.withStripe r d i n o).seq? i).map Seq.place = some (some (stripeOf n o), u8 o 6 * 2 ^ u8 o 7) :=
  congrArg (Option.map Seq.place) (State.seq?_setSeq_same (s := s.audit d (s.whoReq r) 0x03 0x10 [] o) h _)

/-- A sequence that may be bound as a stripe of a slot: it is `IDLE` and empty, has no stripe, and the stripe's share, its size and
its identifier are the slot's (R123). -/
structure State.Bindable (s : State) (x : Seq) (n : Nat) (z : RingSlot) (o : List Byte) : Prop where
  st : x.st = .idle
  empty : s.lengthOf x = 0
  base : x.base = 0
  stripe : x.stripe = none
  slot : z.st ≠ .leaving
  low : 12 ≤ u8 o 7
  high : u8 o 7 ≤ 22
  share : u8 o 6 < z.n
  room : (u8 o 6 + 1) * 2 ^ u8 o 7 ≤ 2 ^ 24
  free : s.liveStripe n (u32 o 8) = none
  slices : x.determ = true → s.detSlice ≤ 2 ^ u8 o 7

section
variable {s : State} {i n : Nat} {x : Seq} {z : RingSlot}

theorem State.seqStripe_binds {d : Nat} {o : List Byte} (r : Requester) (hf : s.findSeq d (u32 o 0) = .ok (i, x))
    (hs : s.ringSlot d (u16 o 4) = some (n, z)) (hb : s.Bindable x n z o) (haud : s.auditTakes = true) :
    ∃ t : State, s.seqStripe r d o = t.complete r {} ∧ (s.withStripe r d i n o).Sends t := by
  obtain ⟨hst, hempty, hbase, hstripe, hslot, hlow, hhigh, hshare, hroom, hfree, hslices⟩ := hb
  unfold State.seqStripe
  extract_lets k j rsid
  rw [hf]
  dsimp only
  rw [hs]
  dsimp only
  have hgood : (decide (x.st ≠ .idle) || decide (s.lengthOf x ≠ 0) || decide (x.base ≠ 0) || x.stripe.isSome
      || decide (z.st = .leaving) || decide (j < 12) || decide (22 < j) || decide (z.n ≤ k) || decide (2 ^ 24 < (k + 1) * 2 ^ j)
      || (s.liveStripe n rsid).isSome || (x.determ && decide (2 ^ j < s.detSlice))) = false := by
    have hj : 12 ≤ j ∧ j ≤ 22 := ⟨hlow, hhigh⟩
    have hk : k < z.n ∧ (k + 1) * 2 ^ j ≤ 2 ^ 24 := ⟨hshare, hroom⟩
    have hfr : s.liveStripe n rsid = none := hfree
    have hsl : (x.determ && decide (2 ^ j < s.detSlice)) = false := by
      cases hd : x.determ
      · rfl
      · exact decide_eq_false (Nat.not_lt.mpr (hslices hd))
    simp only [hst, hempty, hbase, hstripe, hslot, hfr, hsl, Nat.not_lt.mpr hj.1, Nat.not_lt.mpr hj.2, Nat.not_le.mpr hk.1,
      Nat.not_lt.mpr hk.2, ne_eq, not_true_eq_false, decide_false, Option.isSome_none, Bool.or_self]
  rw [hgood, if_neg Bool.false_ne_true, State.privileged_takes haud]
  refine ⟨_, rfl, ((State.Sends.refl _).setSlot n _).forEach _ fun c t => ?_⟩
  split
  · exact (State.Sends.refl t).giveRun i c.hash
  · exact ((State.Sends.refl t).bumpD _ _ _).setErrD _ _ _

theorem exec_seqStripe_binds {q : CmdRef} {c : InFlight} (h : s.offersXlt q 0x10 c)
    (hf : s.findSeq (s.ringDomain q) (u32 c.ops 0) = .ok (i, x)) (hs : s.ringSlot (s.ringDomain q) (u16 c.ops 4) = some (n, z))
    (hb : s.Bindable x n z c.ops) (haud : s.auditTakes = true) :
    ∃ t, exec (.seqStripe q) s = .next t ∧ s.posts t q c .ok = true ∧
      (t.seq? i).map Seq.place = some (some (stripeOf n c.ops), u8 c.ops 6 * 2 ^ u8 c.ops 7) := by
  obtain ⟨t, ht, hsend⟩ := State.seqStripe_binds (s := s.markStarted q) (.ring q) hf hs
    ⟨hb.st, hb.empty, hb.base, hb.stripe, hb.slot, hb.low, hb.high, hb.share, hb.room, hb.free, hb.slices⟩ haud
  obtain ⟨hh, ho⟩ := (s.markStarted q).withStripe_keeps (.ring q) (s.ringDomain q) i n c.ops
  have hplace := State.seq?_withStripe (s := s.markStarted q) (State.seq?_of_findSeq hf) (.ring q) (s.ringDomain q) n c.ops
  change ∃ t, execSeqStripe q s = _ ∧ _
  rw [execSeqStripe, State.runXlt_of_offers h State.seqStripe, ht]
  refine ⟨_, rfl, State.posts_of_offers h.1 (hsend.hif.trans hh) (ho ▸ hsend.outs) rfl rfl, ?_⟩
  rw [State.seq?_afterIn rfl, State.seq?_complete, hsend.places, hplace]

end

end Sys2Proof.Machine
end

section
/-! What the commands on sequences leave and answer, together (R54 to R66, R123, R181). -/

namespace Sys2Proof.Machine

/-- Settles O21: each command's own effect, from the lemma that says what it leaves. -/
theorem sequenceCommandsComplete : Obligations.SequenceCommandsComplete := by
  refine ⟨?create, ?retire, ?retired, ?cut, ?held, ?release, ?query, ?mapped, ?pclass, ?stripe, ?unmap⟩
  case create =>
    intro s q c i h hp hfl hm hdet htake hi
    exact exec_seqCreate_makes h hp hfl hm hdet htake hi
  case retire =>
    intro s q c i x h hf
    exact exec_seqRetire_drains h hf
  case retired =>
    intro s i x h hst hdr hb hx hn
    exact exec_seqRetired_retires h hst hdr hb hx hn
  case cut =>
    intro s q c i x h hp hf ht hd hpo hn
    obtain ⟨t, he, hposts, y, hy, hnext, hptes⟩ := exec_seqTruncate_cuts h hp hf ht hd hpo hn
    refine ⟨t, he, hposts, ?_, ?_⟩
    · rw [hy, Option.map_some, hnext, State.cutNext]
    · simpa [hy] using fun a b p e he => hptes ((a, b, p), e) he
  case held =>
    intro s q c i x h hp hf ht hd hpo hn
    exact exec_seqTruncate_held h hp hf ht hd hpo hn
  case release =>
    intro s i x r p h ht hn hb hx hw hd hpo
    obtain ⟨t, he, ⟨y, hy, htr, hnext⟩, hposts⟩ := exec_truncateRelease_cuts h ht hn hb hx hw hd hpo
    refine ⟨t, he, ?_, hposts⟩
    rw [hy, Option.map_some, htr, hnext, State.cutNext]
  case query =>
    intro s q c i x h hf
    obtain ⟨t, he, hans, hxlt, hmem⟩ := exec_seqQuery_reports h hf
    exact ⟨t, he, hans, hxlt, List.contains_iff_mem.mpr hmem⟩
  case mapped =>
    intro s q c i x inp y h hin h1 hlen hf hst hy hstr hnext hroom htag hwhole hpoi hpage hrefs ht
    have htables : ∀ k < y.slots, _ := fun k hk => List.all_eq_true.mp ht k (List.mem_range.mpr hk)
    obtain ⟨t, he, hposts, z, hz, hznext, hrun, hknown, hshare⟩ := exec_seqMapPrefix_maps h hin h1 hlen hf
      ⟨hst, hstr, hnext, hroom⟩ ⟨hy, htag, hwhole, hpoi, hpage, hrefs⟩ htables
    refine ⟨t, he, hposts, ?_, List.all_eq_true.mpr fun k hk => ?_⟩
    · rw [hz, Option.map_some, hznext, hrun, hknown, State.allAt]
    · rw [hz, decide_eq_true_eq]
      exact hshare k (List.mem_range.mp hk)
  case pclass =>
    intro s q c i x h hc hf haud hn
    exact exec_seqPclass_sets h hc hf haud hn
  case stripe =>
    intro s q c i x n z h hf hs hst hempty hbase hstripe hslot hlow hhigh hshare hroom hfree hslices haud
    exact exec_seqStripe_binds h hf hs ⟨hst, hempty, hbase, hstripe, hslot, hlow, hhigh, hshare, hroom, hfree, hslices⟩ haud
  case unmap =>
    intro s i x l g p e rest h hun hpin hb hx hn
    obtain ⟨t, he, ht⟩ := exec_unmap_gives_up h hun hpin hb hx hn
    exact ⟨t, he, by rw [ht]; rfl, by rw [ht]; rfl⟩

end Sys2Proof.Machine
end

section
/-! Writes of the region registers, of the shares of T0 and of `LOCKSTEP` (R47, R118, R167, R185): the fields of a stored word, and a
write that no cause of Table 2.3 refuses. -/

namespace Sys2Proof.Machine

/-! ### Fields of a word -/

/-- A new value of a field leaves the bits above it. -/
theorem setBits_div {hi lo : Nat} (hl : lo ≤ hi) (v x : Nat) : setBits v hi lo x / 2 ^ (hi + 1) = v / 2 ^ (hi + 1) := by
  have hpow : 2 ^ (hi + 1) = 2 ^ lo * 2 ^ (hi + 1 - lo) := by rw [← Nat.pow_add]; congr 1; omega
  have hrest (q w : Nat) : q - q % w = w * (q / w) := by have := Nat.div_add_mod q w; omega
  have hx : x % 2 ^ (hi + 1 - lo) / 2 ^ (hi + 1 - lo) = 0 := Nat.div_eq_of_lt (Nat.mod_lt _ (Nat.two_pow_pos _))
  have hw := Nat.two_pow_pos (hi + 1 - lo)
  rw [hpow, ← Nat.div_div_eq_div_mul, ← Nat.div_div_eq_div_mul]
  simp only [setBits, bits]
  rw [Nat.add_mul_div_right _ _ (Nat.two_pow_pos lo), Nat.mul_comm _ (2 ^ lo), Nat.sub_mul_div, hrest, Nat.mul_add_div hw, hx,
    Nat.add_zero]

theorem setBits_lt {hi lo v : Nat} (hl : lo ≤ hi) (h : hi < 32) (hv : v < 2 ^ 32) (x : Nat) : setBits v hi lo x < 2 ^ 32 := by
  have hpow : 2 ^ 32 = 2 ^ (31 - hi) * 2 ^ (hi + 1) := by rw [← Nat.pow_add]; congr 1; omega
  rw [hpow, ← Nat.div_lt_iff_lt_mul (Nat.two_pow_pos _), setBits_div hl, Nat.div_lt_iff_lt_mul (Nat.two_pow_pos _), ← hpow]
  exact hv

theorem bit_setBits_above {hi lo i : Nat} (hl : lo ≤ hi) (h : hi < i) (v x : Nat) : bit (setBits v hi lo x) i = bit v i := by
  obtain ⟨j, rfl⟩ := Nat.exists_eq_add_of_lt h
  have hshift (w : Nat) : bit w (hi + j + 1) = (w / 2 ^ (hi + 1)).testBit j := by
    rw [bit, Nat.testBit_div_two_pow]
    congr 1
    omega
  rw [hshift, hshift, setBits_div hl]

theorem bit_eq_bits (v i : Nat) : bit v i = decide (bits v i i = 1) := by
  rw [bit, Nat.testBit_eq_decide_div_mod_eq, bits, Nat.add_sub_cancel_left, pow_one]

/-- A field of one bit takes the bit of the value. -/
theorem bit_setBits_same (v i x : Nat) : bit (setBits v i i (bits x i i)) i = bit x i := by
  rw [bit_eq_bits, bits_setBits, bit_eq_bits]
  simp [bits]

/-- A field takes the field of the value. -/
theorem bits_setBits_bits (v hi lo x : Nat) : bits (setBits v hi lo (bits x hi lo)) hi lo = bits x hi lo := by
  rw [bits_setBits, bits, Nat.mod_mod]

/-! ### Rows of the register table -/

/-- The table has a register of `XLT`, `SLC`, `RBD` or `ATC` at an address: its place, with `inst` 0, and its row. -/
structure RegRow (a : Nat) (p : RegPlace) (r : RegSpec) : Prop where
  msix : msixAt a = none
  place : placeOf a = some p
  block : p.block = 0x07 ∨ p.block = 0x08 ∨ p.block = 0x09 ∨ p.block = 0x10
  off : 0x20 ≤ p.off
  align : a % 4 = 0
  row : regAt { p with off := p.off / 4 * 4 } = some r
  inst : p.inst = 0
  test : testOnly p = false
  reset : resetAt a < 2 ^ 32
  envelope : a ≠ Reg.pwrEnvelope

theorem RegRow.block_ne {a : Nat} {p : RegPlace} {r : RegSpec} (h : RegRow a p r) {b : Nat}
    (hb : b ≠ 0x07 ∧ b ≠ 0x08 ∧ b ≠ 0x09 ∧ b ≠ 0x10) : p.block ≠ b := by
  have := h.block
  omega

theorem RegRow.reg_lt {a : Nat} {p : RegPlace} {r : RegSpec} (h : RegRow a p r) (s : State) : s.reg a < 2 ^ 32 := by
  unfold State.reg
  split
  · exact BitVec.isLt _
  · rw [if_neg h.envelope]
    exact h.reset

/-! ### A write that nothing refuses -/

/-- A state in which a write of a register has been noted, recorded and stored, and the register has not yet acted. -/
structure State.Stored (s : State) (a : Nat) (p : RegPlace) (v : Nat) (l : List FieldSpec) (u : State) : Prop where
  writing : s.only .writing u = u
  frame : u.frameOf a = s.frameOf a
  word : heldElsewhere p = false → newWord (s.reg a) v l < 2 ^ 32 → u.reg a = newWord (s.reg a) v l

section
variable {s : State} {a : Nat} {w : RegWrite} {p : RegPlace} {r : RegSpec}

/-- Noting, recording and storing a write leave its register with the word that the fields give. -/
theorem State.stored_write (hr : RegRow a p r) (o : Origin) (v : Nat) (l : List FieldSpec) {e : Option (Nat × Nat)}
    (he : ∀ y, e = some y → y.1 % 4096 = 0) :
    s.Stored a p v l (((s.noteWrite p a v r false e).logWrite o p a v (s.reg a) l).storeWrite p a v (s.reg a) l) := by
  have hpage := placeOf_page hr.place
  have hoff := placeOf_off hr.place
  have hlow := hr.off
  have hwriting := State.only_writing_logWrite s _ (State.only_writing_noteWrite s p a v r false e) o p a v (s.reg a) l
  have hframe (b : Nat) : ((s.noteWrite p a v r false e).logWrite o p a v (s.reg a) l).frameOf b = s.frameOf b := by
    rw [State.logWrite_frameOf, State.noteWrite_frameOf _ _ _ _ _ hpage he]
  generalize (s.noteWrite p a v r false e).logWrite o p a v (s.reg a) l = u at hwriting hframe
  have hn : u.reg a = s.reg a := State.reg_eq_of_frameOf (hframe 0) (by rintro rfl; omega) (by omega) (by omega)
  refine ⟨State.only_writing_storeWrite s u hwriting _ _ _ _ _, (u.storeWrite_frameOf _ _ _ _ _).trans (hframe a), fun hheld hlt => ?_⟩
  rw [← hn] at hlt ⊢
  exact State.storeWrite_reg (hr.block_ne (by decide)) hheld hlt

/-- An open write of a value in range, well formed and of a resource not in use is carried out in full. -/
theorem State.writeBody_carries (h : s.openTo a w) (hr : RegRow a p r) (hrng : (s.outOfRange w.origin p w.value.toNat).1 = [])
    (hf : s.formatRefused p a w.value.toNat (newWord (s.reg a) w.value.toNat r.writable) = false)
    (hb : s.busyRefused p a w.value.toNat (newWord (s.reg a) w.value.toNat r.writable) = false) :
    s.writeBody w.origin p a w.value.toNat r
      = s.carryOut w.origin p a w.value.toNat r r.writable false (s.outOfRange w.origin p w.value.toNat).2 := by
  have hden := State.deniedWrite_shared (p := p) w.value.toNat (State.sole_of_openTo h) (hr.block_ne (by decide))
  have hwarm := State.warmAt_serves (State.allServe_of_openTo h) p.block
  obtain ⟨-, hl⟩ := State.unlocked_of_openTo h hr.place
  have hper : s.persistent p w.value.toNat = false :=
    State.persistent_elsewhere (fun h => hr.block_ne (by decide) h.1) (fun h => hr.block_ne (by decide) h.1)
  obtain ⟨-, -, -, -, -, haud, -⟩ := h
  have htakes : r.writable.filter (fun f => !(f.acc == Access.rwl && false) && !([] : List Nat).contains f.lo) = r.writable := by
    simp
  unfold RegSpec.writable at htakes hf hb ⊢
  simp only [State.writeBody, hrng, hl, htakes, hf, hb, hden, hwarm, hper, haud]
  simp

/-- Such a write of a register of the table. -/
theorem State.regWrite_stored (h : s.openTo a w) (hr : RegRow a p r) (hrng : (s.outOfRange w.origin p w.value.toNat).1 = [])
    (hf : s.formatRefused p a w.value.toNat (newWord (s.reg a) w.value.toNat r.writable) = false)
    (hb : s.busyRefused p a w.value.toNat (newWord (s.reg a) w.value.toNat r.writable) = false) :
    ∃ u, s.regWrite a w = u.act w.origin p w.value.toNat (s.reg a) r.writable ∧ s.Stored a p w.value.toNat r.writable u := by
  have hd : (r.dev && p.inst != 0) = false := by simp [hr.inst]
  rw [regWrite_body s a w p r h hr.msix hr.place (hr.block_ne (by decide)) hr.off hr.align hr.row hd hr.test,
    State.writeBody_carries h hr hrng hf hb]
  exact ⟨_, rfl, State.stored_write hr _ _ _ fun y hy => State.outOfRange_page hy⟩

theorem State.phase_of_openTo (h : s.openTo a w) : s.glb.phase = .ready := by
  obtain ⟨hphase, -⟩ := h
  exact hphase

theorem State.Stored.glb {v : Nat} {l : List FieldSpec} {u : State} (h : s.Stored a p v l u) : u.glb = s.glb :=
  (congrArg State.glb h.writing).symm

theorem State.Stored.att {v : Nat} {l : List FieldSpec} {u : State} (h : s.Stored a p v l u) : u.att = s.att :=
  (congrArg State.att h.writing).symm

theorem State.act_store {o : Origin} {v old : Nat} {l : List FieldSpec} (hb : p.block = 0x07 ∨ p.block = 0x08 ∨ p.block = 0x09)
    (hs : s.glb.phase = .ready) : s.act o p v old l = s.actStore o p v l := by
  rcases hb with hb | hb | hb <;> simp [State.act, hb, hs]

theorem State.act_ports {o : Origin} {v old : Nat} {l : List FieldSpec} (hb : p.block = 0x10) (hs : s.glb.phase = .ready) :
    s.act o p v old l = s.actPorts p v old l := by
  simp [State.act, hb, hs]

/-- A register of one lockable field takes the value of the field, and then acts. -/
theorem State.regWrite_field {hi lo x : Nat} (h : s.openTo a w) (hr : RegRow a p r) (hw : r.writable = [⟨hi, lo, .rwl, x⟩])
    (hl : lo ≤ hi) (hh : hi < 32) (hheld : heldElsewhere p = false) (hrng : (s.outOfRange w.origin p w.value.toNat).1 = [])
    (hf : s.formatRefused p a w.value.toNat (setBits (s.reg a) hi lo (bits w.value.toNat hi lo)) = false)
    (hb : s.busyRefused p a w.value.toNat (setBits (s.reg a) hi lo (bits w.value.toNat hi lo)) = false) :
    ∃ u : State, s.regWrite a w = u.act w.origin p w.value.toNat (s.reg a) [⟨hi, lo, .rwl, x⟩] ∧ u.glb.phase = .ready ∧
      u.reg a = setBits (s.reg a) hi lo (bits w.value.toNat hi lo) := by
  obtain ⟨u, hu, hst⟩ := State.regWrite_stored h hr hrng (by rw [hw]; exact hf) (by rw [hw]; exact hb)
  rw [hw] at hu hst
  exact ⟨u, hu, hst.glb ▸ State.phase_of_openTo h, hst.word hheld (setBits_lt hl hh (hr.reg_lt s) _)⟩

end

end Sys2Proof.Machine
end

section
/-! The region registers, the shares of T0 and `LOCKSTEP` (R47, R118, R167, R185), row by row. -/

namespace Sys2Proof.Machine

/-- The places of the registers of `XLT`, `RBD` and `ATC` on their first page. -/
def xltPlace (off : Nat) : RegPlace := ⟨0x07, 0, 0, off⟩
def rbdPlace (off : Nat) : RegPlace := ⟨0x09, 0, 0, off⟩
def atcPlace (off : Nat) : RegPlace := ⟨0x10, 0, 0, off⟩

/-- A row of one lockable field, as the table gives it. -/
def fieldSpec (block off hi lo reset : Nat) (wide dev : Bool) : RegSpec :=
  { block := block, page := 0, off := off, wide := wide, dev := dev, fields := [⟨hi, lo, .rwl, reset⟩] }

def rbdCfgSpec : RegSpec := { block := 0x9, page := 0, off := 0x48, fields := [⟨31, 31, .rw, 0⟩, ⟨7, 4, .rw, 1⟩, ⟨3, 0, .rw, 2⟩] }

def atcGcfgSpec : RegSpec :=
  { block := 0x10, page := 0, off := 0x40, dev := true, fields := [⟨31, 31, .rwl, 0⟩, ⟨19, 16, .rwl, 0⟩, ⟨15, 8, .rw, 0x14⟩] }

theorem xltPtrBaseLo_row : RegRow Reg.xltPtrBaseLo (xltPlace 0x40) (fieldSpec 0x07 0x40 31 30 0 true true) := by
  constructor <;> decide
theorem xltPtrBaseHi_row : RegRow Reg.xltPtrBaseHi (xltPlace 0x44) (fieldSpec 0x07 0x44 7 0 0 false true) := by
  constructor <;> decide
theorem xltPtrSize_row : RegRow Reg.xltPtrSize (xltPlace 0x48) (fieldSpec 0x07 0x48 5 0 8 false true) := by
  constructor <;> decide
theorem rbdBaseLo_row : RegRow Reg.rbdBaseLo (rbdPlace 0x40) (fieldSpec 0x09 0x40 31 30 0 true false) := by
  constructor <;> decide
theorem rbdBaseHi_row : RegRow Reg.rbdBaseHi (rbdPlace 0x44) (fieldSpec 0x09 0x44 7 0 0 false false) := by
  constructor <;> decide
theorem rbdCfg_row : RegRow Reg.rbdCfg (rbdPlace 0x48) rbdCfgSpec := by constructor <;> decide
theorem atcSpillPool_row : RegRow Reg.atcSpillPool (atcPlace 0x48) (fieldSpec 0x10 0x48 6 0 4 false true) := by
  constructor <;> decide
theorem atcGcfg_row : RegRow Reg.atcGcfg (atcPlace 0x40) atcGcfgSpec := by constructor <;> decide
theorem slcStage_row : RegRow Reg.slcStage (slcPlace 0x44) slcStageSpec := by constructor <;> decide
theorem slcDomT0Quota_row : RegRow Reg.slcDomT0Quota (slcPlace 0x50) slcQuotaSpec := by constructor <;> decide

section
variable {s : State} {c : Scope}

theorem State.afterIn_rbd {t : State} (h : c.rbd = true) : (s.afterIn c t).rbd = t.rbd := by
  simp only [State.afterIn, State.after_rbd, State.only, h, cond_true]

theorem State.afterIn_att {t : State} (h : c.att = true) : (s.afterIn c t).att = t.att := by
  simp only [State.afterIn, State.after_att, State.only, h, cond_true]

end

/-! ### Regions in which nothing lives (R47) -/

/-- A region register takes a word in which the placed regions are apart and within T0. -/
theorem State.formatRefused_region {s : State} {p : RegPlace} {a v new : Nat} (hp : isRegionReg p = true)
    (hok : (s.withRegion p a new).regionsOk = true) : s.formatRefused p a v new = false := by
  unfold State.formatRefused
  split
  case h_4 => simp [hok]
  all_goals
    next hb hpg ho => simp [isRegionReg, hb, hpg, ho] at hp

section
variable {s : State} {a v new : Nat} (he : s.slc.extents = [])
include he

theorem State.takesExtents_none (t : State) : s.takesExtents t = false := by
  simp [State.takesExtents, he]

theorem State.busyRefused_xlt (hu : s.ptrInUse = false) (off : Nat) : s.busyRefused (xltPlace off) a v new = false := by
  simp [State.busyRefused, xltPlace, hu, State.takesExtents_none he]

theorem State.busyRefused_rbd (hen : bit (s.reg Reg.rbdCfg) 31 = false) (hn : s.entryCount (fun _ => true) = 0) (off : Nat) :
    s.busyRefused (rbdPlace off) a v new = false := by
  simp [State.busyRefused, rbdPlace, hen, hn, State.takesExtents_none he]

theorem State.busyRefused_spillPool (hu : s.att.spillUsed = 0) : s.busyRefused (atcPlace 0x48) a v new = false := by
  simp [State.busyRefused, atcPlace, hu, State.takesExtents_none he]

end

section
variable {s : State} {w : RegWrite} {a : Nat} {r : RegSpec}

theorem heldElsewhere_region {p : RegPlace} (hp : isRegionReg p = true) : heldElsewhere p = false := by
  obtain ⟨b, i, pg, off⟩ := p
  simp only [isRegionReg, List.contains_iff_mem, List.mem_cons, List.not_mem_nil, Prod.mk.injEq, or_false] at hp
  rcases hp with ⟨rfl, rfl, rfl⟩ | ⟨rfl, rfl, rfl⟩ | ⟨rfl, rfl, rfl⟩ | ⟨rfl, rfl, rfl⟩ | ⟨rfl, rfl, rfl⟩ | ⟨rfl, rfl, rfl⟩ <;> rfl

/-- A region register whose resource is not in use takes a value in range with which the regions are apart, and then acts. -/
theorem State.regWrite_region {p : RegPlace} {hi lo x : Nat} (h : s.openTo a w) (hr : RegRow a p r)
    (hw : r.writable = [⟨hi, lo, .rwl, x⟩]) (hl : lo ≤ hi) (hh : hi < 32) (hp : isRegionReg p = true)
    (hrng : (s.outOfRange w.origin p w.value.toNat).1 = [])
    (hok : (s.withRegion p a (setBits (s.reg a) hi lo (bits w.value.toNat hi lo))).regionsOk = true)
    (hb : s.busyRefused p a w.value.toNat (setBits (s.reg a) hi lo (bits w.value.toNat hi lo)) = false) :
    ∃ u : State, s.regWrite a w = u.act w.origin p w.value.toNat (s.reg a) [⟨hi, lo, .rwl, x⟩] ∧ u.glb.phase = .ready ∧
      u.reg a = setBits (s.reg a) hi lo (bits w.value.toNat hi lo) :=
  State.regWrite_field h hr hw hl hh (heldElsewhere_region hp) hrng (State.formatRefused_region hp hok) hb

/-- A write of a base of the page-table region takes its value and places the region. -/
theorem exec_xltPtrBaseWrite_places {off hi lo x : Nat} (ho : off = 0x40 ∨ off = 0x44)
    (ha : (a == Reg.xltPtrBaseLo || a == Reg.xltPtrBaseHi) = true) (h : s.openTo a w) (hr : RegRow a (xltPlace off) r)
    (hw : r.writable = [⟨hi, lo, .rwl, x⟩]) (hl : lo ≤ hi) (hh : hi < 32) (hu : s.ptrInUse = false) (he : s.slc.extents = [])
    (hok : (({ s with xlt := { s.xlt with placed := true } } : State).setReg a
      (setBits (s.reg a) hi lo (bits w.value.toNat hi lo))).regionsOk = true) :
    ∃ t, exec (.xltPtrBaseWrite a w) s = .next t ∧ t.reg a = setBits (s.reg a) hi lo (bits w.value.toNat hi lo) ∧
      t.xlt.placed = true := by
  obtain ⟨u, hu, hphase, hreg⟩ := State.regWrite_region h hr hw hl hh (by rcases ho with rfl | rfl <;> rfl)
    (by rcases ho with rfl | rfl <;> rfl) (by rcases ho with rfl | rfl <;> exact hok) (State.busyRefused_xlt he hu off)
  have hact : s.regWrite a w = { u with xlt := { u.xlt with placed := true } } := by
    rw [hu, State.act_store (.inl rfl) hphase]
    rcases ho with rfl | rfl <;> rfl
  have hexec : exec (.xltPtrBaseWrite a w) s = .next (s.afterIn { Scope.row with xlt := true } (s.regWrite a w)) := by
    change execXltPtrBaseWrite a w s = _
    rw [execXltPtrBaseWrite, ha, State.rowWrite_true]
  refine ⟨_, hexec, ?_, ?_⟩
  · rw [State.afterIn_reg rfl rfl, hact]
    exact hreg
  · rw [State.afterIn_xlt rfl, hact]

/-- A write of a base of Reedbed's index takes its value and places the region. -/
theorem exec_rbdBaseWrite_places {off hi lo x : Nat} (ho : off = 0x40 ∨ off = 0x44)
    (ha : (a == Reg.rbdBaseLo || a == Reg.rbdBaseHi) = true) (h : s.openTo a w) (hr : RegRow a (rbdPlace off) r)
    (hw : r.writable = [⟨hi, lo, .rwl, x⟩]) (hl : lo ≤ hi) (hh : hi < 32) (hen : bit (s.reg Reg.rbdCfg) 31 = false)
    (hn : s.entryCount (fun _ => true) = 0) (he : s.slc.extents = [])
    (hok : (({ s with rbd := { s.rbd with placed := true } } : State).setReg a
      (setBits (s.reg a) hi lo (bits w.value.toNat hi lo))).regionsOk = true) :
    ∃ t, exec (.rbdBaseWrite a w) s = .next t ∧ t.reg a = setBits (s.reg a) hi lo (bits w.value.toNat hi lo) ∧
      t.rbd.placed = true := by
  obtain ⟨u, hu, hphase, hreg⟩ := State.regWrite_region h hr hw hl hh (by rcases ho with rfl | rfl <;> rfl)
    (by rcases ho with rfl | rfl <;> rfl) (by rcases ho with rfl | rfl <;> exact hok) (State.busyRefused_rbd he hen hn off)
  have hact : s.regWrite a w = { u with rbd := { u.rbd with placed := true } } := by
    rw [hu, State.act_store (.inr (.inr rfl)) hphase]
    rcases ho with rfl | rfl <;> rfl
  have hexec : exec (.rbdBaseWrite a w) s = .next (s.afterIn { Scope.row with rbd := true } (s.regWrite a w)) := by
    change execRbdBaseWrite a w s = _
    rw [execRbdBaseWrite, ha, State.rowWrite_true]
  refine ⟨_, hexec, ?_, ?_⟩
  · rw [State.afterIn_reg rfl rfl, hact]
    exact hreg
  · rw [State.afterIn_rbd rfl, hact]

end

/-! ### The commands -/

section
variable {s : State} {w : RegWrite}

theorem exec_xltPtrSizeWrite_takes (h : s.openTo Reg.xltPtrSize w) (hu : s.ptrInUse = false) (hlo : 4 ≤ bits w.value.toNat 5 0)
    (hhi : bits w.value.toNat 5 0 ≤ 32) (he : s.slc.extents = [])
    (hok : (s.setReg Reg.xltPtrSize (setBits (s.reg Reg.xltPtrSize) 5 0 (bits w.value.toNat 5 0))).regionsOk = true) :
    ∃ t, exec (.xltPtrSizeWrite w) s = .next t ∧
      t.reg Reg.xltPtrSize = setBits (s.reg Reg.xltPtrSize) 5 0 (bits w.value.toNat 5 0) := by
  have hrng : (s.outOfRange w.origin (xltPlace 0x48) w.value.toNat).1 = [] := by
    simp [State.outOfRange, xltPlace, hlo, hhi]
  obtain ⟨u, hu, hphase, hreg⟩ := State.regWrite_region h xltPtrSize_row rfl (by decide) (by decide) rfl hrng hok
    (State.busyRefused_xlt he hu 0x48)
  refine ⟨s.afterIn .row (s.regWrite Reg.xltPtrSize w), rfl, ?_⟩
  rw [State.afterIn_reg rfl rfl, hu, State.act_store (.inl rfl) hphase]
  exact hreg

theorem exec_atcSpillPoolWrite_takes (h : s.openTo Reg.atcSpillPool w) (hhi : bits w.value.toNat 6 0 ≤ 64)
    (hu : s.att.spillUsed = 0) (he : s.slc.extents = [])
    (hok : (s.setReg Reg.atcSpillPool (setBits (s.reg Reg.atcSpillPool) 6 0 (bits w.value.toNat 6 0))).regionsOk = true) :
    ∃ t, exec (.atcSpillPoolWrite w) s = .next t ∧
      t.reg Reg.atcSpillPool = setBits (s.reg Reg.atcSpillPool) 6 0 (bits w.value.toNat 6 0) := by
  have hrng : (s.outOfRange w.origin (atcPlace 0x48) w.value.toNat).1 = [] := by
    simp [State.outOfRange, atcPlace, Nat.not_lt.mpr hhi]
  obtain ⟨u, hu, hphase, hreg⟩ := State.regWrite_region h atcSpillPool_row rfl (by decide) (by decide) rfl hrng hok
    (State.busyRefused_spillPool he hu)
  refine ⟨s.afterIn .row (s.regWrite Reg.atcSpillPool w), rfl, ?_⟩
  rw [State.afterIn_reg rfl rfl, hu, State.act_ports rfl hphase]
  exact hreg

/-- A write of `SLC_STAGE` in range, with nothing staged, takes its value. -/
theorem exec_slcStageWrite_takes (h : s.openTo Reg.slcStage w) (hlo : 16 ≤ bits w.value.toNat 5 0) (hhi : bits w.value.toNat 5 0 ≤ 56)
    (hlines : s.linesHeld = []) (hq : s.sdg.queue = []) :
    ∃ t, exec (.slcStageWrite w) s = .next t ∧ t.fld Reg.slcStage 5 0 = bits w.value.toNat 5 0 := by
  have hrng : (s.outOfRange w.origin (slcPlace 0x44) w.value.toNat).1 = [] := by
    simp [State.outOfRange, slcPlace, hlo, hhi]
  have hb (new : Nat) : s.busyRefused (slcPlace 0x44) Reg.slcStage w.value.toNat new = false := by
    simp [State.busyRefused, slcPlace, hlines, hq]
  obtain ⟨u, hu, hphase, hreg⟩ := State.regWrite_field h slcStage_row rfl (by decide) (by decide) rfl hrng rfl (hb _)
  refine ⟨s.afterIn .row (s.regWrite Reg.slcStage w), rfl, ?_⟩
  rw [State.fld, State.afterIn_reg rfl rfl, hu, State.act_store (.inr (.inl rfl)) hphase]
  exact (congrArg (bits · 5 0) hreg).trans (bits_setBits_bits _ _ _ _)

/-- The word of a register whose fields are bit 31 and two below it: it fits, and its bit 31 is that of the value. -/
theorem top_of_three {old hi lo hi' lo' : Nat} (h : lo ≤ hi ∧ hi < 31) (h' : lo' ≤ hi' ∧ hi' < 31) (hold : old < 2 ^ 32) (v : Nat) :
    setBits (setBits (setBits old 31 31 (bits v 31 31)) hi lo (bits v hi lo)) hi' lo' (bits v hi' lo') < 2 ^ 32 ∧
    bit (setBits (setBits (setBits old 31 31 (bits v 31 31)) hi lo (bits v hi lo)) hi' lo' (bits v hi' lo')) 31 = bit v 31 := by
  refine ⟨setBits_lt h'.1 (by omega) (setBits_lt h.1 (by omega) (setBits_lt (by omega) (by omega) hold _) _) _, ?_⟩
  rw [bit_setBits_above h'.1 h'.2, bit_setBits_above h.1 h.2, bit_setBits_same]

/-- `EN` of `RBD_CFG` takes its value, where a set `EN` finds the region placed. -/
theorem exec_rbdCfgEnWrite_takes (h : s.openTo Reg.rbdCfg w) (hpl : bit w.value.toNat 31 = true → s.rbd.placed = true) :
    ∃ t, exec (.rbdCfgEnWrite w) s = .next t ∧ bit (t.reg Reg.rbdCfg) 31 = bit w.value.toNat 31 := by
  have hf (new : Nat) : s.formatRefused (rbdPlace 0x48) Reg.rbdCfg w.value.toNat new = false := by
    change (bit w.value.toNat 31 && !s.rbd.placed) = false
    cases hb : bit w.value.toNat 31
    · rfl
    · simp [hpl hb]
  obtain ⟨u, hu, hst⟩ := State.regWrite_stored h rbdCfg_row rfl (hf _) rfl
  obtain ⟨hlt, hbit⟩ := top_of_three (hi := 7) (lo := 4) (hi' := 3) (lo' := 0) (by decide) (by decide) (rbdCfg_row.reg_lt s)
    w.value.toNat
  have hphase : u.glb.phase = .ready := hst.glb ▸ State.phase_of_openTo h
  refine ⟨s.afterIn .row (s.regWrite Reg.rbdCfg w), rfl, ?_⟩
  rw [State.afterIn_reg rfl rfl, hu, State.act_store (.inr (.inr rfl)) hphase]
  exact (congrArg (bit · 31) (hst.word rfl hlt)).trans hbit

/-- The quota of the selected domain takes a value in range. -/
theorem exec_slcDomT0QuotaWrite_takes (h : s.openTo Reg.slcDomT0Quota w)
    (hsum : (s.quotaSum - s.slc.quota.getD (s.fld Reg.slcDomSel 11 0) 0 + bits w.value.toNat 15 0) * gib ≤ s.t0Pool)
    (hconf : bits w.value.toNat 15 0 ≠ 0 ∨ s.conf (s.fld Reg.slcDomSel 11 0) = false) :
    ∃ t, exec (.slcDomT0QuotaWrite w) s = .next t ∧ t.slc.quota.getD (s.fld Reg.slcDomSel 11 0) 0 = bits w.value.toNat 15 0 := by
  have hrng : (s.outOfRange w.origin (slcPlace 0x50) w.value.toNat).1 = [] := by
    rcases hconf with hne | hno
    · simp [State.outOfRange, slcPlace, Nat.not_lt.mpr hsum, hne]
    · simp [State.outOfRange, slcPlace, Nat.not_lt.mpr hsum, hno]
  obtain ⟨u, hu, hst⟩ := State.regWrite_stored h slcDomT0Quota_row hrng rfl rfl
  have hphase : u.glb.phase = .ready := hst.glb ▸ State.phase_of_openTo h
  have hsel : u.fld Reg.slcDomSel 11 0 = s.fld Reg.slcDomSel 11 0 :=
    congrArg (bits · 11 0) (State.reg_eq_of_frameOf hst.frame (by decide) (by decide) (by decide))
  refine ⟨s.afterIn { Scope.row with slc := true } (s.regWrite Reg.slcDomT0Quota w), rfl, ?_⟩
  rw [State.afterIn_slc rfl, hu, State.act_store (.inr (.inl rfl)) hphase, ← hsel]
  exact Assoc.getD_set_same _ _ _ _

/-- `ATC_GCFG` acts on the engine and on a test alone: a change of `LOCKSTEP` leaves a switch pending. -/
theorem State.actPorts_lockstep (u : State) (v old : Nat) :
    (u.actPorts (atcPlace 0x40) v old atcGcfgSpec.writable).regs = u.regs ∧
    (u.actPorts (atcPlace 0x40) v old atcGcfgSpec.writable).glb = u.glb ∧
    (u.actPorts (atcPlace 0x40) v old atcGcfgSpec.writable).att.lsPending = (u.att.lsPending || bit old 31 != bit v 31) := by
  have htakes : (atcGcfgSpec.writable.any fun f => f.lo == 31) = true := rfl
  simp only [State.actPorts, atcPlace, htakes, if_true, apply_ite State.regs, apply_ite State.glb, apply_ite State.att,
    apply_ite Att.lsPending, ite_self, true_and]
  cases bit old 31 != bit v 31 <;> simp

/-- A change of `LOCKSTEP` takes its value, and leaves a switch pending. -/
theorem exec_lockstepWrite_takes (h : s.openTo Reg.atcGcfg w) :
    ∃ t, exec (.lockstepWrite w) s = .next t ∧ bit (t.reg Reg.atcGcfg) 31 = bit w.value.toNat 31 ∧
      t.att.lsPending = (s.att.lsPending || bit (s.reg Reg.atcGcfg) 31 != bit w.value.toNat 31) := by
  have hrng : (s.outOfRange w.origin (atcPlace 0x40) w.value.toNat).1 = [] := by
    simp only [State.outOfRange, atcPlace]
    split <;> rfl
  obtain ⟨u, hu, hst⟩ := State.regWrite_stored h atcGcfg_row hrng rfl rfl
  obtain ⟨hlt, hbit⟩ := top_of_three (hi := 19) (lo := 16) (hi' := 15) (lo' := 8) (by decide) (by decide) (atcGcfg_row.reg_lt s)
    w.value.toNat
  have hphase : u.glb.phase = .ready := hst.glb ▸ State.phase_of_openTo h
  obtain ⟨hregs, hglb, hls⟩ := u.actPorts_lockstep w.value.toNat (s.reg Reg.atcGcfg)
  rw [State.act_ports rfl hphase] at hu
  refine ⟨s.afterIn { Scope.row with att := true, flt := true } (s.regWrite Reg.atcGcfg w), rfl, ?_, ?_⟩
  · rw [State.afterIn_reg rfl rfl, hu, State.reg, hregs, hglb]
    exact (congrArg (bit · 31) (hst.word rfl hlt)).trans hbit
  · rw [State.afterIn_att rfl, hu, hls, hst.att]

end

/-- Settles O5: each write is carried out (`State.regWrite_stored`), and its register takes the value of its field and acts. -/
theorem regionAndStagingWritesComplete : Obligations.RegionAndStagingWritesComplete := by
  refine ⟨?xltLo, ?xltHi, ?xltSize, ?rbdLo, ?rbdHi, ?rbdCfg, ?spillPool, ?stage, ?quota, ?lockstep⟩
  case xltLo =>
    intro s w h hu he hok
    exact exec_xltPtrBaseWrite_places (.inl rfl) rfl h xltPtrBaseLo_row rfl (by decide) (by decide) hu he hok
  case xltHi =>
    intro s w h hu he hok
    exact exec_xltPtrBaseWrite_places (.inr rfl) rfl h xltPtrBaseHi_row rfl (by decide) (by decide) hu he hok
  case xltSize =>
    intro s w h hu hlo hhi he hok
    exact exec_xltPtrSizeWrite_takes h hu hlo hhi he hok
  case rbdLo =>
    intro s w h hen hn he hok
    exact exec_rbdBaseWrite_places (.inl rfl) rfl h rbdBaseLo_row rfl (by decide) (by decide) hen hn he hok
  case rbdHi =>
    intro s w h hen hn he hok
    exact exec_rbdBaseWrite_places (.inr rfl) rfl h rbdBaseHi_row rfl (by decide) (by decide) hen hn he hok
  case rbdCfg =>
    intro s w h hpl
    exact exec_rbdCfgEnWrite_takes h hpl
  case spillPool =>
    intro s w h hhi hu he hok
    exact exec_atcSpillPoolWrite_takes h hhi hu he hok
  case stage =>
    intro s w h hlo hhi hlines hq
    exact exec_slcStageWrite_takes h hlo hhi hlines hq
  case quota =>
    intro s w h hsum hconf
    exact exec_slcDomT0QuotaWrite_takes h hsum hconf
  case lockstep =>
    intro s w h
    exact exec_lockstepWrite_takes h

end Sys2Proof.Machine
end

section
/-! The scopes of the commands that store bytes, and with them those of the stores, the attention engine, the index and the field
tests. -/

namespace Sys2Proof.Machine

/-- A command that stores bytes leaves the state by `State.afterMemIn` in its scope. -/
theorem exec_afterMemIn_of_scope {i : Instr} {c : Scope} {s t : State} (hc : i.scope = some c) (hi : i.storesMem = true)
    (h : exec i s = .next t) : ∃ u, t = s.afterMemIn c u := by
  cases i
  all_goals cases hi
  all_goals cases hc
  all_goals exact ⟨_, (Host.Outcome.next.inj h).symm⟩

/-- A command that leaves the state by `State.afterMemIn` stays within its scope, memory aside. -/
theorem State.within_afterMemIn (s u : State) (c : Scope) :
    ({ s with mem := (s.afterMemIn c u).mem } : State).within c (s.afterMemIn c u) :=
  State.within_afterIn { s with mem := (s.afterMemIn c u).mem } u c

/-- Every command with a scope keeps what lies outside it. -/
theorem exec_keeps {i : Instr} {c : Scope} {s t : State} (hc : i.scope = some c) (h : exec i s = .next t) : s.keeps i c t := by
  cases hi : i.storesMem
  case false => exact exec_keeps_of_scope hc hi h
  case true =>
    obtain ⟨u, rfl⟩ := exec_afterMemIn_of_scope hc hi h
    rw [State.keeps, hi]
    exact s.within_afterMemIn u c

/-- Settles O46: a command with a scope keeps what lies outside it, whether it stores bytes or not (`exec_keeps`). -/
theorem storeAndSearchCommandsKeepTheirScope : Obligations.StoreAndSearchCommandsKeepTheirScope :=
  fun _ _ _ _ hc _ h => exec_keeps hc h

end Sys2Proof.Machine
end

section
/-! Append records: what their checks, holds and writes read, and the changes that leave all of it as it was. -/

namespace Sys2Proof.Machine

/-! ### Sequences by their index -/

theorem State.seq?_setSeq_other {i j : Nat} (s : State) (f : Seq → Seq) (h : j ≠ i) : (s.setSeq i f).seq? j = s.seq? j := by
  rw [State.seq?, State.setSeq, Assoc.get?_modify_other _ _ _ _ h, State.seq?]

theorem State.seq?_setSeq_map (s : State) (i : Nat) (f : Seq → Seq) : (s.setSeq i f).seq? i = (s.seq? i).map f := by
  rw [State.seq?, State.setSeq, Assoc.get?_modify_same, State.seq?]

/-- What a sequence says of its pages. -/
def Seq.pages (q : Seq) : Assoc (Nat × Nat × Nat) Pte × Nat × Nat := (q.ptes, q.domain, q.model)

/-- A change of one sequence that leaves its pages leaves the pages of every sequence. -/
theorem State.pages_setSeq (s : State) (i : Nat) {f : Seq → Seq} (h : ∀ q, (f q).pages = q.pages) (j : Nat) :
    ((s.setSeq i f).seq? j).map Seq.pages = (s.seq? j).map Seq.pages := by
  by_cases hj : j = i
  · subst hj
    simp [State.seq?_setSeq_map, Function.comp_def, h]
  · rw [State.seq?_setSeq_other s f hj]

/-! ### States with the same pages -/

/-- Two states agree in all that the translation of a page reads: its entry, its frame, its bytes, its pins and its moves. -/
structure State.SamePages (s t : State) : Prop where
  mem : t.mem = s.mem
  regs : t.regs = s.regs
  fresh : t.fresh = s.fresh
  glb : t.glb = s.glb
  slc : t.slc = s.slc
  att : t.att = s.att
  pea : t.pea = s.pea
  metas : t.xlt.metas = s.xlt.metas
  bds : t.xlt.bds = s.xlt.bds
  objs : t.xlt.objs = s.xlt.objs
  models : t.xlt.models = s.xlt.models
  seqs : ∀ i, (t.seq? i).map Seq.pages = (s.seq? i).map Seq.pages

theorem State.samePages_setSeq (s : State) (i : Nat) {f : Seq → Seq} (h : ∀ q, (f q).pages = q.pages) : s.SamePages (s.setSeq i f) where
  mem := rfl
  regs := rfl
  fresh := rfl
  glb := rfl
  slc := rfl
  att := rfl
  pea := rfl
  metas := rfl
  bds := rfl
  objs := rfl
  models := rfl
  seqs := s.pages_setSeq i h

namespace State.SamePages

variable {s t u : State}

theorem trans (h : s.SamePages t) (k : t.SamePages u) : s.SamePages u where
  mem := k.mem.trans h.mem
  regs := k.regs.trans h.regs
  fresh := k.fresh.trans h.fresh
  glb := k.glb.trans h.glb
  slc := k.slc.trans h.slc
  att := k.att.trans h.att
  pea := k.pea.trans h.pea
  metas := k.metas.trans h.metas
  bds := k.bds.trans h.bds
  objs := k.objs.trans h.objs
  models := k.models.trans h.models
  seqs i := (k.seqs i).trans (h.seqs i)

variable (h : s.SamePages t)
include h

theorem modelOf (q : Seq) : t.modelOf q = s.modelOf q := by
  simp only [State.modelOf, State.model?, h.models]

theorem modelOfBd (b : Bd) : t.modelOfBd b = s.modelOfBd b := by
  simp only [State.modelOfBd, State.model?, h.models]

theorem frame? (f : FrameId) : t.frame? f = s.frame? f := by
  cases f
  case page i l g p =>
    have hpages := h.seqs i
    cases ht : t.seq? i <;> cases hs : s.seq? i <;> simp only [ht, hs, Option.map_none, Option.map_some] at hpages
    · simp [State.frame?, ht, hs]
    · cases hpages
    · cases hpages
    · next y x =>
      obtain ⟨hptes, hdom, hmod⟩ : y.ptes = x.ptes ∧ y.domain = x.domain ∧ y.model = x.model := by
        simpa [Seq.pages] using hpages
      simp only [State.frame?, ht, hs, Option.bind_some, h.modelOf, hptes]
      simp only [State.modelOf, hdom, hmod]
  all_goals simp only [State.frame?, h.bds, h.modelOfBd, h.objs, h.metas]

theorem firstOut (l : List FrameId) : t.firstOut l = s.firstOut l := by
  simp only [State.firstOut, h.frame?]

theorem tailFrames (i : Nat) (q : Seq) (l p : Nat) : t.tailFrames i q l p = s.tailFrames i q l p := by
  simp only [State.tailFrames, h.modelOf]

theorem frameBytes (a : Home) (o n : Nat) : t.frameBytes a o n = s.frameBytes a o n := by
  simp only [State.frameBytes, State.memRead, h.mem]

theorem pinned (f : FrameId) : t.pinned f = s.pinned f := by
  simp only [State.pinned, h.att, h.slc]

theorem moveOf (f : FrameId) : t.moveOf f = s.moveOf f := by
  simp only [State.moveOf, h.slc]

theorem reg (a : Nat) : t.reg a = s.reg a := by
  simp only [State.reg, h.regs, h.glb]

theorem linesFree : t.linesFree = s.linesFree := by
  simp only [State.linesFree, State.slcLines, State.fld, h.reg, State.linesHeld, h.slc]

theorem stallCause (p m : Bool) (f : FrameId) : t.stallCause p m f = s.stallCause p m f := by
  unfold State.stallCause
  rw [h.moveOf, h.frame?, h.linesFree]

theorem recordMetas (i : Nat) (q : Seq) (r : AppendRec) : t.recordMetas i q r = s.recordMetas i q r := by
  simp only [State.recordMetas, h.modelOf, State.usedBds, h.bds, h.pea, h.fresh]

/-- What a record must wait for is read from the pages and the stores alone. -/
theorem holdCause (i : Nat) (q : Seq) (r : AppendRec) (b : Bool) : t.holdCause i q r b = s.holdCause i q r b := by
  simp only [State.holdCause, h.modelOf, h.tailFrames, h.firstOut, h.frame?, h.recordMetas, State.preempting, h.slc, h.stallCause,
    h.frameBytes, h.pinned]

end State.SamePages

/-! ### The items of work that arrives -/

/-- All of a state but its budget and its counters. -/
def State.unbudgeted (s : State) : State := { s with pwr := {}, ctrs := [] }

theorem State.unbudgeted_ite (c : Prop) [Decidable c] (s t : State) :
    (if c then s else t).unbudgeted = if c then s.unbudgeted else t.unbudgeted := apply_ite State.unbudgeted c s t

@[simp] theorem State.unbudgeted_charge (s : State) (d : Nat) (c : WorkClass) (l : Bool) (n : Nat) :
    (s.charge d c l n).unbudgeted = s.unbudgeted := rfl

@[simp] theorem State.unbudgeted_unqueue (s : State) (w : Work) : (s.unqueue w).unbudgeted = s.unbudgeted := by
  cases w <;> rfl

@[simp] theorem State.unbudgeted_chargeItem (s : State) (it : Item) (b : Bool) :
    (s.chargeItem it b).unbudgeted = s.unbudgeted := by
  unfold State.chargeItem
  extract_lets n t turns p u v part
  have hu : u.unbudgeted = s.unbudgeted := by
    unfold u
    rw [State.unbudgeted_ite]
    exact ite_self _
  have hv : v.unbudgeted = s.unbudgeted := by
    unfold v
    rw [State.unbudgeted_ite]
    exact (ite_self _).trans hu
  split
  · exact hv
  · rw [State.unbudgeted_unqueue, hv]

/-- An offer changes the budget and its counters alone. -/
@[simp] theorem State.unbudgeted_offer (s : State) (it : Item) : (s.offer it).unbudgeted = s.unbudgeted := by
  unfold State.offer
  extract_lets t
  have ht : t.unbudgeted = s.unbudgeted := rfl
  split
  · simp [ht]
  · split
    · split <;> simp [ht]
    · exact ht

theorem State.waits_unqueue (s : State) (w : Work) : (s.unqueue w).waits w = false := by
  cases w <;> simp [State.unqueue, State.waits]

/-- Work in `ATTN` beside the latency queue that runs at once waits no longer once it has arrived (R290). -/
theorem State.waits_offer_of_runsAtOnce {s : State} {it : Item} (h : s.runsAtOnce it) (hc : it.cls = .att) (hl : it.latency = false)
    (hd : it.done = 0) : (s.offer it).waits it.work = false := by
  unfold State.offer
  extract_lets t
  rcases h with hlive | ⟨hnone, hfits, hparts⟩
  · rw [if_pos (by simpa [t, State.pruned, State.enqueue] using hlive)]
    exact State.waits_unqueue _ _
  · split
    · exact State.waits_unqueue _ _
    · have hitems : t.pwr.items = [it] := by simp [t, State.pruned, State.enqueue, hnone]
      have hplace : t.placeIn it = 2 := by simp [State.placeIn, hc, hl]
      have horder : t.itemOrder = [it] := by simp [State.itemOrder, hitems, hplace]
      have hfit : t.fitsItem it = true := hfits
      have hheads : t.headItems.filter t.fitsItem = [it] := by simp [State.headItems, horder, hfit]
      have hturn : t.turnOf [it] = some it := by
        simp only [State.turnOf, List.find?_cons, List.find?_nil, List.foldl_cons, List.foldl_nil]
        split <;> rfl
      have hnext : t.nextItem = some (it, true) := by
        simp [State.nextItem, hheads, hplace, hturn]
      have hone : t.partsOf it = 1 := hparts
      rw [hnext]
      simp only [beq_self_eq_true, hone, decide_true, Bool.and_self, if_true, State.chargeItem, hd]
      simp only [Nat.lt_irrefl, Nat.zero_add, if_false, false_and]
      exact State.waits_unqueue _ _

/-- Work in `ATTN` beside the latency queue that does not fit joins the pending items, and nothing is charged (R290). -/
theorem State.offer_of_waitsFirst {s : State} {it : Item} (h : s.waitsFirst it) : s.offer it = s.pruned.enqueue it := by
  obtain ⟨hlive, hnone, hfits⟩ := h
  unfold State.offer
  extract_lets t
  have hitems : t.pwr.items = [it] := by simp [t, State.pruned, State.enqueue, hnone]
  have hheads : t.headItems.filter t.fitsItem = [] := by
    have hfit : t.fitsItem it = false := hfits
    have horder : ∀ x ∈ t.headItems, x = it := by
      cases hlat : t.placeIn it == 1 <;> simp [State.headItems, State.itemOrder, hitems, hlat, bne, byArrival]
    refine List.filter_eq_nil_iff.mpr fun x hx => ?_
    rw [horder x hx, hfit]
    exact Bool.false_ne_true
  have hnext : t.nextItem = none := by simp [State.nextItem, hheads, State.turnOf]
  have hl : t.pwr.live = true := hlive
  rw [hl, hnext]
  rfl

end Sys2Proof.Machine
end

section
/-! An append record that passes its checks (Table 4.5), up to its dispatch. -/

namespace Sys2Proof.Machine

/-! ### The metadata that a record needs (R48) -/

/-- Two states agree in all that the page-table region reads. -/
structure State.SameRegion (s t : State) : Prop where
  regs : t.regs = s.regs
  glb : t.glb = s.glb
  slc : t.slc = s.slc
  metas : t.xlt.metas = s.xlt.metas
  placed : t.xlt.placed = s.xlt.placed

namespace State.SameRegion

variable {s t : State} (h : s.SameRegion t)
include h

theorem reg (a : Nat) : t.reg a = s.reg a := by
  simp only [State.reg, h.regs, h.glb]

theorem setEvt (e : Nat × Nat) (off : Nat) : (s.setEvt e off).SameRegion (t.setEvt e off) where
  regs := by simp only [State.setEvt, State.setReg, h.reg, h.regs]
  glb := h.glb
  slc := h.slc
  metas := h.metas
  placed := h.placed

theorem take (a : Home) (b d : Nat) : (s.take a b d).SameRegion (t.take a b d) where
  regs := h.regs
  glb := h.glb
  slc := by simp only [State.take, h.slc]
  metas := h.metas
  placed := h.placed

theorem ptrBase : t.ptrBase = s.ptrBase := by
  rw [State.ptrBase, h.reg, h.reg, State.ptrBase]

theorem ptrBytes : t.ptrBytes = s.ptrBytes := by
  rw [State.ptrBytes, State.fld, h.reg, State.ptrBytes, State.fld]

theorem inPtr (a : Nat) : t.inPtr a = s.inPtr a := by
  rw [State.inPtr, h.placed, h.ptrBase, h.ptrBytes, State.inPtr]

theorem ptrUse : t.ptrUse = s.ptrUse := by
  simp only [State.ptrUse, h.inPtr, h.placed, h.slc]

theorem allocMeta (d b : Nat) : Option.Rel (fun x y => x.1 = y.1 ∧ x.2.SameRegion y.2) (s.allocMeta d b) (t.allocMeta d b) := by
  unfold State.allocMeta
  rw [h.placed]
  split
  · exact .none
  · rw [h.ptrBase, h.ptrBytes, show t.usedOf 0 = s.usedOf 0 by simp only [State.usedOf, h.slc]]
    cases firstFit (s.ptrBase + 2 * gib) (s.ptrBase + s.ptrBytes) b (s.usedOf 0)
    · exact .none
    · exact .some ⟨rfl, h.take _ _ _⟩

theorem addMeta (f : FrameId) (d fc : Nat) : Option.Rel State.SameRegion (s.addMeta f d fc) (t.addMeta f d fc) := by
  unfold State.addMeta
  rw [h.metas]
  split
  · exact .some h
  · have hrel := h.allocMeta d (4096 * 2 ^ fc)
    simp only [State.alloc, if_true]
    cases hs : s.allocMeta d (4096 * 2 ^ fc) <;> cases ht : t.allocMeta d (4096 * 2 ^ fc) <;> rw [hs, ht] at hrel <;>
      cases hrel
    · exact .none
    · next x y hxy =>
      obtain ⟨hhome, hxy⟩ := hxy
      have hlow (u v : State) (k : u.SameRegion v) : (v.reg Reg.xltPtrSize * 1024 * 9 < v.ptrUse * 10)
          = (u.reg Reg.xltPtrSize * 1024 * 9 < u.ptrUse * 10) := by rw [k.reg, k.ptrUse]
      refine .some ?_
      simp only [hlow _ _ hxy, hlow _ _ h, hhome]
      split
      · have k := hxy.setEvt Evt.xltPtrLow 0
        exact ⟨k.regs, k.glb, k.slc, by simp only [k.metas], k.placed⟩
      · exact ⟨hxy.regs, hxy.glb, hxy.slc, by simp only [hxy.metas], hxy.placed⟩

end State.SameRegion

/-- A run of changes that each keep a relation keeps it, as long as none fails. -/
theorem Option.Rel.foldl_bind {α β : Type} {R : β → β → Prop} {f : β → α → Option β}
    (hf : ∀ x y a, R x y → Option.Rel R (f x a) (f y a)) (l : List α) {x y : Option β} (h : Option.Rel R x y) :
    Option.Rel R (l.foldl (fun t a => t.bind fun t => f t a) x) (l.foldl (fun t a => t.bind fun t => f t a) y) := by
  induction l generalizing x y with
  | nil => exact h
  | cons a l ih =>
    refine ih ?_
    cases h with
    | none => exact .none
    | some h => exact hf _ _ a h

theorem Option.Rel.isSome_eq {α β : Type} {R : α → β → Prop} {x : Option α} {y : Option β} (h : Option.Rel R x y) :
    y.isSome = x.isSome := by
  cases h <;> rfl

/-- Whether the metadata of a record fits is read from the page-table region and the models alone. -/
theorem State.metaFits_of_sameRegion {s t : State} (h : s.SameRegion t) (hm : t.xlt.models = s.xlt.models) (i : Nat) (x : Seq)
    (r : AppendRec) : t.metaFits i x r = s.metaFits i x r := by
  have hmod : t.modelOf x = s.modelOf x := by simp only [State.modelOf, State.model?, hm]
  unfold State.metaFits
  rw [hmod]
  extract_lets m keys u seals v
  have hstep (k : Nat) (x y : State) (h : x.SameRegion y) (d : Nat) :
      Option.Rel State.SameRegion (x.addTables (.seq i) k d) (y.addTables (.seq i) k d) :=
    Option.Rel.foldl_bind (fun _ _ f k => k.addMeta f d 0) _ (.some h)
  have htables : Option.Rel State.SameRegion v u :=
    Option.Rel.foldl_bind (fun x y k h => hstep k x y h _) keys (.some h)
  exact Option.Rel.isSome_eq (Option.Rel.foldl_bind (fun _ _ _ k => k.addMeta _ _ _) seals htables)

/-! ### The checks (R82) -/

theorem State.domain_of_findSeq {s : State} {d h i : Nat} {x : Seq} (hf : s.findSeq d h = .ok (i, x)) : x.domain = d := by
  unfold State.findSeq at hf
  extract_lets j at hf
  split at hf
  · next y hy =>
    split at hf
    · next hlive =>
      obtain ⟨rfl, rfl⟩ := Prod.mk.inj (Except.ok.inj hf)
      exact hlive.2.2
    · cases hf
  · split at hf <;> cases hf

/-- The state once the translation unit of a sequence has noted whose record it takes, with what a change of domain counts. -/
def State.noteDomain (s : State) (i d : Nat) : State :=
  let t := if (s.xlt.lastDom.get? (i % 2)).any fun o => o != d then s.bump Reg.lveScrubLo else s
  { t with xlt := { t.xlt with lastDom := t.xlt.lastDom.set (i % 2) d } }

/-- Noting the domain changes a counter and the note alone. -/
theorem State.noteDomain_eq (s : State) (i d : Nat) :
    ∃ c l, s.noteDomain i d = { s with ctrs := c, xlt := { s.xlt with lastDom := l } } := by
  simp only [State.noteDomain]
  split <;> exact ⟨_, _, rfl⟩

section
variable {s : State} {d i : Nat} {b : List Byte} {x : Seq}

theorem State.takesRecord_noteDomain (h : s.takesRecord d b i x) : (s.noteDomain i d).takesRecord d b i x := by
  obtain ⟨c, l, he⟩ := s.noteDomain_eq i d
  rw [he]
  obtain ⟨hlen, hf, htr, hst, hshape, hlayer, hpois, hfor, hblen, hpos, hfin, hnext, hpast, hover, hbytes, hmeta⟩ := h
  refine ⟨hlen, hf, htr, hst, hshape, hlayer, hpois, hfor, hblen, hpos, hfin, hnext, hpast, hover, hbytes, ?_⟩
  exact (State.metaFits_of_sameRegion (s := s) (t := { s with ctrs := c, xlt := { s.xlt with lastDom := l } })
    ⟨rfl, rfl, rfl, rfl, rfl⟩ rfl i x _).trans hmeta

/-- A record that passes checks 4 to 7 of Table 4.5 is taken. -/
theorem State.checkRecord_takes (h : s.takesRecord d b i x) (r : Requester) (ue : Bool) :
    s.checkRecord i x r b ue = s.takeRecord i r (appendRec (s.modelOf x) b) ue := by
  obtain ⟨-, hf, -, hst, -, hlayer, hpois, hfor, hblen, hpos, hfin, hnext, hpast, hover, hbytes, hmeta⟩ := h
  have hdom := State.domain_of_findSeq hf
  have hsound : x.st ≠ .poisoned := by rcases hst with h | h <;> simp [h]
  have hfits : s.recordFits i x (appendRec (s.modelOf x) b) = (true, true) := by
    simp [State.recordFits, hdom, hbytes, hmeta]
  unfold State.checkRecord
  extract_lets d' layer pos n m no r' past fits
  have hform : (decide (b.length ≠ 12 + 4 * n + 4 * n * m.kvHeads * m.headDim) || decide (m.layers ≤ layer)
      || decide (2 ^ 24 < pos + n)) = false := by
    simp only [Bool.or_eq_false_iff, decide_eq_false_iff_not, not_not, Nat.not_le, Nat.not_lt]
    exact ⟨⟨hblen, hlayer⟩, hpos⟩
  rw [if_neg hsound, if_neg (by simp [layer, hpois]), if_neg (hform ▸ Bool.false_ne_true), if_neg (by simp [r', m, hfin]),
    if_neg (by simpa [pos, layer] using hnext), if_neg (by simp [layer, pos, hfor]),
    if_neg (by simp [past, pos, n, hpast, r', m, hover, fits, hfits]), if_neg (by simp [fits, r', m, hfits])]

/-- A record that passes checks 1 to 7 of Table 4.5 is taken, once its domain is noted. -/
theorem State.appendArrives_takes (h : s.takesRecord d b i x) (r : Requester) (ue : Bool) :
    s.appendArrives r d b ue = (s.noteDomain i d).takeRecord i r (appendRec (s.modelOf x) b) ue := by
  have hnote := State.checkRecord_takes (State.takesRecord_noteDomain h) r ue
  have hmod : (s.noteDomain i d).modelOf x = s.modelOf x := by
    obtain ⟨c, l, he⟩ := s.noteDomain_eq i d
    rw [he]
    rfl
  obtain ⟨hlen, hf, htr, hst, hshape, -⟩ := h
  have hlive : x.st ≠ .draining := by rcases hst with h | h <;> simp [h]
  unfold State.appendArrives
  extract_lets layer pos n inst
  rw [if_neg (Nat.not_lt.mpr hlen), hf]
  dsimp only
  rw [if_neg (by simp [htr]), if_neg (by simp [hshape]), if_neg hlive]
  rw [hmod] at hnote
  exact hnote

end

end Sys2Proof.Machine
end

section
/-! The write of a record into open pages (R83, R86). -/

namespace Sys2Proof.Machine

/-! ### What a write of a page leaves -/

/-- All of a sequence but its pages and the tokens of its open block. -/
def Seq.unpaged (q : Seq) : Seq := { q with ptes := [], tokens := [] }

/-- All of a state but memory, the pages of the sequences, and the registers and counters in which a write reports. -/
def State.unwritten (s : State) : State :=
  { s with
    mem := [], regs := [], ctrs := [], lve := { s.lve with counters := [] }
    xlt := { s.xlt with seqs := s.xlt.seqs.map fun e => (e.1, e.2.unpaged) } }

/-- A value read from every entry of a map, and kept by a change, is kept by the change of one entry. -/
theorem Assoc.map_modify {κ α β : Type} [DecidableEq κ] (m : Assoc κ α) (k : κ) {f : α → α} {g : α → β} (h : ∀ v, g (f v) = g v) :
    (m.modify k f).map (fun e => (e.1, g e.2)) = m.map fun e => (e.1, g e.2) := by
  induction m with
  | nil => rfl
  | cons e m ih =>
    rw [Assoc.modify]
    split <;> simp [h, ih]

section
variable (s : State)

@[simp] theorem State.unwritten_bumpD (d c n : Nat) : (s.bumpD d c n).unwritten = s.unwritten := by
  unfold State.bumpD
  split <;> rfl

@[simp] theorem State.unwritten_setEvt (e : Nat × Nat) (off : Nat) : (s.setEvt e off).unwritten = s.unwritten := rfl

theorem State.unwritten_setSeq (i : Nat) {f : Seq → Seq} (h : ∀ q, (f q).unpaged = q.unpaged) :
    (s.setSeq i f).unwritten = s.unwritten := by
  simp only [State.unwritten, State.setSeq, Assoc.map_modify s.xlt.seqs i (g := Seq.unpaged) h]

@[simp] theorem State.mem_bumpD (d c n : Nat) : (s.bumpD d c n).mem = s.mem := by
  unfold State.bumpD
  split <;> rfl

@[simp] theorem State.xlt_bumpD (d c n : Nat) : (s.bumpD d c n).xlt = s.xlt := by
  unfold State.bumpD
  split <;> rfl

@[simp] theorem State.seq?_bumpD (d c n i : Nat) : (s.bumpD d c n).seq? i = s.seq? i := by
  simp only [State.seq?, State.xlt_bumpD]

theorem State.modelOf_of_unwritten {s t : State} (h : t.unwritten = s.unwritten) (q : Seq) : t.modelOf q = s.modelOf q := by
  have hmodels : t.xlt.models = s.xlt.models := congrArg (fun u => u.xlt.models) h
  simp only [State.modelOf, State.model?, hmodels]

end

/-- The state with some patches of a frame in memory. -/
def State.patch (s : State) (h : Home) (l : List Patch) : State := l.foldl (fun v p => v.putBytes h p.1 p.2) s

/-- Patches change memory alone. -/
theorem State.patch_eq (s : State) (h : Home) (l : List Patch) : s.patch h l = { s with mem := (s.patch h l).mem } := by
  induction l generalizing s with
  | nil => rfl
  | cons p l ih => exact ih (s.putBytes h p.1 p.2)

theorem State.patch_mem_congr {s t : State} (e : t.mem = s.mem) (h : Home) (l : List Patch) :
    (t.patch h l).mem = (s.patch h l).mem := by
  induction l generalizing s t with
  | nil => exact e
  | cons p l ih => exact ih (by simp only [State.putBytes, State.memWrite, e])

/-- The patches that a segment makes in an open page of one head group. -/
def State.pagePatches (s : State) (m : Model) (layer hg : Nat) (e : Pte) (g : Segment16) : List Patch :=
  (segPatches m layer hg e.head (fun o n => s.frameBytes e.home o n) g).1

theorem State.pagePatches_congr {s t : State} (h : t.mem = s.mem) (m : Model) (layer hg : Nat) (e : Pte) (g : Segment16) :
    t.pagePatches m layer hg e g = s.pagePatches m layer hg e g := by
  simp only [State.pagePatches, State.frameBytes, State.memRead, h]

/-- What a write of a segment reports of its quantisation (R77). -/
def State.reportWrite (s : State) (i d : Nat) (q : QuantStat) : State :=
  let t := if q.sat = 0 then s else (s.bumpD d (Reg.xltAppSatLo + xltOff i) q.sat).setEvt Evt.xltAppSat (xltOff i)
  if q.rescales = 0 then t else t.bumpD d (Reg.xltAppRescaleLo + xltOff i) q.rescales

theorem State.reportWrite_keeps (s : State) (i d : Nat) (q : QuantStat) :
    (s.reportWrite i d q).unwritten = s.unwritten ∧ (s.reportWrite i d q).mem = s.mem ∧ (s.reportWrite i d q).xlt = s.xlt := by
  unfold State.reportWrite
  extract_lets t
  obtain ⟨hrest, hmem, hxlt⟩ : t.unwritten = s.unwritten ∧ t.mem = s.mem ∧ t.xlt = s.xlt := by
    unfold t
    split <;> simp
  split <;> simp [hrest, hmem, hxlt]

section
variable {s : State} {i layer hg : Nat} {g : Segment16} {y : Seq} {e : Pte}

/-- A segment is written into a page that is mapped and that it does not fill: it does not seal. -/
theorem State.writeSeg_open (hy : s.seq? i = some y) (he : y.ptes.get? (layer, hg, g.page) = some e)
    (hfill : e.fill + g.ks.length < 16) :
    ∃ t, s.writeSeg i layer hg g = some t ∧ t.unwritten = s.unwritten ∧
      t.mem = (s.patch e.home (s.pagePatches (s.modelOf y) layer hg e g)).mem ∧
      t.seq? i = some { y with ptes := y.ptes.modify (layer, hg, g.page) fun e' => { e' with fill := e.fill + g.ks.length } } := by
  have hmap : s.mapPage i y (layer, hg, g.page) = some s := by
    rw [State.mapPage, if_pos (by simp [Assoc.has, he])]
  unfold State.writeSeg
  simp only [hy, hmap, Option.bind_some, he]
  rw [if_neg (Nat.not_le.mpr hfill)]
  have hpatch := s.patch_eq e.home (s.pagePatches (s.modelOf y) layer hg e g)
  have hseq : (s.patch e.home (s.pagePatches (s.modelOf y) layer hg e g)).seq? i = some y := by
    rw [hpatch]
    exact hy
  have hset := State.seq?_setSeq_same hseq fun q =>
    { q with ptes := q.ptes.modify (layer, hg, g.page) fun e' => { e' with fill := e.fill + g.ks.length } }
  have hrest : (s.patch e.home (s.pagePatches (s.modelOf y) layer hg e g)).unwritten = s.unwritten := by
    rw [hpatch]
    rfl
  obtain ⟨hreport, hmem, hxlt⟩ := State.reportWrite_keeps
    ((s.patch e.home (s.pagePatches (s.modelOf y) layer hg e g)).setSeq i fun q =>
      { q with ptes := q.ptes.modify (layer, hg, g.page) fun e' => { e' with fill := e.fill + g.ks.length } }) i y.domain
    (segPatches (s.modelOf y) layer hg e.head (fun o n => s.frameBytes e.home o n) g).2
  refine ⟨_, rfl, hreport.trans ((State.unwritten_setSeq _ _ fun _ => by rfl).trans hrest), hmem, ?_⟩
  exact (congrArg (fun x : Xlt => x.seqs.get? i) hxlt).trans hset

end

/-! ### A record, head group by head group -/

/-- The bytes of a segment put into the page of one head group, where it is mapped. -/
def Seq.storeGroup (x : Seq) (m : Model) (layer : Nat) (g : Segment16) (u : State) (h : Nat) : State :=
  match x.ptes.get? (layer, h, g.page) with
  | none => u
  | some e => u.patch e.home (u.pagePatches m layer h e g)

/-- What a record stores, by segment and head group. -/
theorem State.storeRecord_eq (s : State) (x : Seq) (r : AppendRec) :
    s.storeRecord x r = (r.segments (s.modelOf x)).foldl (fun u g =>
      (List.range (s.modelOf x).groups).foldl (x.storeGroup (s.modelOf x) r.layer g) u) s := rfl

/-- The pages of a sequence for a segment are mapped in some head groups, and the segment fills none of them. -/
def Seq.OpenFor (x : Seq) (layer : Nat) (g : Segment16) (hs : List Nat) : Prop :=
  ∀ h ∈ hs, ∃ e, x.ptes.get? (layer, h, g.page) = some e ∧ e.fill + g.ks.length < 16

/-- A segment is written into the open pages of some head groups, one after another. -/
theorem State.writeGroups_open {i layer : Nat} {g : Segment16} {x : Seq} {m : Model} {hs : List Nat} (hnd : hs.Nodup)
    (hopen : x.OpenFor layer g hs) {s u : State} {y : Seq} (hy : s.seq? i = some y) (hmem : s.mem = u.mem)
    (hmod : s.modelOf y = m) (hptes : ∀ h ∈ hs, y.ptes.get? (layer, h, g.page) = x.ptes.get? (layer, h, g.page)) :
    ∃ t, hs.foldl (fun t h => t.bind fun t => t.writeSeg i layer h g) (some s) = some t ∧ t.unwritten = s.unwritten ∧
      t.mem = (hs.foldl (x.storeGroup m layer g) u).mem ∧ ∃ z, t.seq? i = some z ∧ z.unpaged = y.unpaged := by
  induction hs generalizing s u y with
  | nil => exact ⟨s, rfl, rfl, hmem, y, hy, rfl⟩
  | cons h hs ih =>
    obtain ⟨hnot, hnd⟩ := List.nodup_cons.mp hnd
    obtain ⟨e, he, hfill⟩ := hopen h List.mem_cons_self
    obtain ⟨v, hv, hrest, hvmem, hvseq⟩ := State.writeSeg_open hy ((hptes h List.mem_cons_self).trans he) hfill
    have hstore : v.mem = (x.storeGroup m layer g u h).mem := by
      rw [hvmem, hmod, State.pagePatches_congr hmem, Seq.storeGroup, he]
      exact State.patch_mem_congr hmem _ _
    obtain ⟨t, ht, htrest, htmem, z, hz, hzy⟩ := ih hnd (fun k hk => hopen k (List.mem_cons_of_mem _ hk)) hvseq hstore
      ((State.modelOf_of_unwritten hrest _).trans hmod) fun k hk => by
        have hne : (layer, k, g.page) ≠ (layer, h, g.page) := by
          rintro hk'
          simp only [Prod.mk.injEq, true_and, and_true] at hk'
          exact hnot (hk' ▸ hk)
        rw [Assoc.get?_modify_other _ _ _ _ hne]
        exact hptes k (List.mem_cons_of_mem _ hk)
    refine ⟨t, ?_, htrest.trans hrest, htmem, z, hz, hzy⟩
    rw [List.foldl_cons, Option.bind_some, hv]
    exact ht

theorem length_chunks {α : Type} (n k : Nat) (l : List α) : (chunks n k l).length = k := by
  induction k generalizing l with
  | zero => rfl
  | succ k ih => simp [chunks, ih]

/-- A record that does not fill its page is one segment of that page. -/
theorem AppendRec.segments_open {r : AppendRec} (m : Model) (h : r.pos % 16 + r.count < 16) :
    ∃ g, r.segments m = [g] ∧ g.page = r.pos / 16 ∧ g.t0 = r.pos % 16 ∧ g.ks.length = r.count := by
  have hfirst : min r.count (16 - r.pos % 16) = r.count := by omega
  unfold AppendRec.segments
  extract_lets per vec first ks vs a
  refine ⟨a, if_pos hfirst, rfl, rfl, ?_⟩
  have hks : ks.length = r.count := by simp [ks, vec, length_chunks]
  have htake : a.ks = ks.take first := rfl
  rw [htake, List.length_take, hks]
  exact min_eq_right hfirst.ge

/-- The tokens of a record of layer 0 join those of the open block. -/
def State.takeTokens (s : State) (i : Nat) (r : AppendRec) : State :=
  if r.layer = 0 then s.setSeq i fun q => { q with tokens := q.tokens ++ r.tokens } else s

theorem State.takeTokens_keeps {s : State} {i : Nat} {y : Seq} (hy : s.seq? i = some y) (r : AppendRec) :
    (s.takeTokens i r).unwritten = s.unwritten ∧ (s.takeTokens i r).mem = s.mem ∧
      ∃ z, (s.takeTokens i r).seq? i = some z ∧ z.ptes = y.ptes ∧ z.unpaged = y.unpaged := by
  unfold State.takeTokens
  split
  · exact ⟨s.unwritten_setSeq i fun _ => by rfl, rfl, _, State.seq?_setSeq_same hy _, rfl, rfl⟩
  · exact ⟨rfl, rfl, y, hy, rfl, rfl⟩

/-- Sequences that agree but for their pages and tokens have one model. -/
theorem State.modelOf_of_unpaged {y z : Seq} (s : State) (h : z.unpaged = y.unpaged) : s.modelOf z = s.modelOf y := by
  have hd : z.domain = y.domain := (congrArg Seq.domain h :)
  have hm : z.model = y.model := (congrArg Seq.model h :)
  rw [State.modelOf, hd, hm, State.modelOf]

/-- A record that falls into open pages is written into them (R83): nothing but its bytes, its fill and its reports changes. -/
theorem State.writeRecord_open {s u : State} {i : Nat} {x y : Seq} {r : AppendRec} (hy : s.seq? i = some y)
    (hptes : y.ptes = x.ptes) (hmod : s.modelOf y = u.modelOf x) (hmem : s.mem = u.mem) (hroom : r.pos % 16 + r.count < 16)
    (hopen : ((List.range (u.modelOf x).groups).all fun h => (x.ptes.get? (r.layer, h, r.pos / 16)).any fun e =>
      e.fill == r.pos % 16) = true) :
    ∃ t, s.writeRecord i r = some t ∧ t.unwritten = s.unwritten ∧ t.mem = (u.storeRecord x r).mem ∧
      ∃ z, t.seq? i = some z ∧ z.unpaged = y.unpaged := by
  obtain ⟨g, hseg, hpage, ht0, hlen⟩ := r.segments_open (u.modelOf x) hroom
  have hpages : x.OpenFor r.layer g (List.range (u.modelOf x).groups) := by
    intro h hh
    have hany := List.all_eq_true.mp hopen h hh
    obtain ⟨e, he, hfill⟩ := (Option.any_eq_true _ _).mp hany
    exact ⟨e, hpage ▸ he, by rw [eq_of_beq hfill, hlen]; exact hroom⟩
  obtain ⟨hvrest, hvmem, z, hz, hzptes, hzrest⟩ := State.takeTokens_keeps hy r
  have hvmod : (s.takeTokens i r).modelOf z = u.modelOf x :=
    (State.modelOf_of_unwritten hvrest z).trans ((s.modelOf_of_unpaged hzrest).trans hmod)
  obtain ⟨t, ht, htrest, htmem, w, hw, hwz⟩ := State.writeGroups_open List.nodup_range hpages hz (hvmem.trans hmem) hvmod
    fun h _ => by rw [hzptes, hptes]
  refine ⟨t, ?_, htrest.trans hvrest, ?_, w, hw, hwz.trans hzrest⟩
  · have hall : (s.takeTokens i r).writeSegAll i r.layer g = some t := by
      unfold State.writeSegAll
      simp only [hz, hvmod, ht, Option.map_some]
      rw [if_neg (by omega)]
    unfold State.writeRecord
    simp only [hy, hmod, hseg]
    exact hall
  · rw [htmem, State.storeRecord_eq, hseg]
    rfl

end Sys2Proof.Machine
end

section
/-! A record that is taken: it is held, ended by an error of the datapath, or written (R82, R83, R85). -/

namespace Sys2Proof.Machine

/-! ### A record that has been taken -/

/-- A sequence that expects what follows a record, with one more work in flight. -/
def Seq.expecting (q : Seq) (r : AppendRec) (now : Nat) : Seq :=
  { q with
    next := q.next.set r.layer (r.pos + r.count), inFlight := q.inFlight + 1, lastActive := now
    st := if q.st = .idle then .active else q.st }

/-- The state once a record has been taken and offered to the scheduler. -/
def State.enterRecord (s : State) (i : Nat) (x : Seq) (req : Requester) (r : AppendRec) : State :=
  ((s.setSeq i fun q => { q with next := q.next.set r.layer (r.pos + r.count) }).workStarts i).offer (s.recordItem i x req r)

section
variable {s : State} {i : Nat} {x : Seq} (hx : s.seq? i = some x) (req : Requester) (r : AppendRec)

theorem State.clients_offer (s : State) (it : Item) : (s.offer it).clients = s.clients :=
  (congrArg State.clients (s.unbudgeted_offer it) :)

theorem State.mem_enterRecord (s : State) (i : Nat) (x : Seq) : (s.enterRecord i x req r).mem = s.mem :=
  (congrArg State.mem (State.unbudgeted_offer _ _) :)

theorem State.slc_enterRecord (s : State) (i : Nat) (x : Seq) : (s.enterRecord i x req r).slc = s.slc :=
  (congrArg State.slc (State.unbudgeted_offer _ _) :)

theorem State.clients_enterRecord (s : State) (i : Nat) (x : Seq) : (s.enterRecord i x req r).clients = s.clients :=
  State.clients_offer _ _

theorem State.samePages_of_unbudgeted {s t : State} (h : t.unbudgeted = s.unbudgeted) : s.SamePages t where
  mem := (congrArg State.mem h :)
  regs := (congrArg State.regs h :)
  fresh := (congrArg State.fresh h :)
  glb := (congrArg State.glb h :)
  slc := (congrArg State.slc h :)
  att := (congrArg State.att h :)
  pea := (congrArg State.pea h :)
  metas := (congrArg (fun u : State => u.xlt.metas) h :)
  bds := (congrArg (fun u : State => u.xlt.bds) h :)
  objs := (congrArg (fun u : State => u.xlt.objs) h :)
  models := (congrArg (fun u : State => u.xlt.models) h :)
  seqs i := (congrArg (fun u : State => (u.seq? i).map Seq.pages) h :)

theorem State.samePages_workStarts (s : State) (i : Nat) : s.SamePages (s.workStarts i) := s.samePages_setSeq i fun _ => rfl

theorem State.samePages_enterRecord (s : State) (i : Nat) (x : Seq) : s.SamePages (s.enterRecord i x req r) :=
  ((s.samePages_setSeq i (f := fun q => { q with next := q.next.set r.layer (r.pos + r.count) }) fun _ => rfl).trans
    (State.samePages_workStarts _ i)).trans (State.samePages_of_unbudgeted (State.unbudgeted_offer _ _))

include hx

theorem State.seq?_enterRecord : (s.enterRecord i x req r).seq? i = some (x.expecting r s.now) :=
  (congrArg (fun u : State => u.seq? i) (State.unbudgeted_offer _ _) :).trans
    (State.seq?_setSeq_same (State.seq?_setSeq_same hx _) _)

variable {r} (ue : Bool)

/-- What a record that has been taken goes on to. -/
theorem State.takeRecord_eq : s.takeRecord i req r ue =
    if x.held.any fun h => h.rc.layer == r.layer then (s.enterRecord i x req r).holdRecord i req r .behind
    else if (s.enterRecord i x req r).waits (.record i r.layer r.pos) then (s.enterRecord i x req r).holdRecord i req r .credit
    else
      match s.holdCause i x r false with
      | some c => (s.enterRecord i x req r).holdRecord i req r c
      | none =>
        if ue then (s.enterRecord i x req r).datapathUe i req r
        else
          match (s.enterRecord i x req r).writeRecord i r with
          | some t => t.acceptRecord i req r
          | none => ((s.enterRecord i x req r).holdRecord i req r .space).awaitSpace i x r := by
  unfold State.takeRecord
  simp only [hx]
  rw [← (s.samePages_enterRecord req r i x).holdCause]
  rfl

variable (hh : (x.held.any fun h => h.rc.layer == r.layer) = false)
  (hw : (s.enterRecord i x req r).waits (.record i r.layer r.pos) = false) (hc : s.holdCause i x r false = none)
include hh hw hc

/-- An uncorrectable error in the datapath ends a record that nothing holds. -/
theorem State.takeRecord_ue : s.takeRecord i req r true = (s.enterRecord i x req r).datapathUe i req r := by
  simp [State.takeRecord_eq hx, hh, hw, hc]

/-- A record that nothing holds is written, where its space can be had. -/
theorem State.takeRecord_writes {t : State} (ht : (s.enterRecord i x req r).writeRecord i r = some t) :
    s.takeRecord i req r false = t.acceptRecord i req r := by
  simp [State.takeRecord_eq hx, hh, hw, hc, ht]

end

end Sys2Proof.Machine
end

section
/-! The ends of a record: accepted, refused, or stopped by an error of the datapath (R82, R83, R85). -/

namespace Sys2Proof.Machine

/-! ### Acceptance (R83) -/

/-- The state once an accepted record has been counted and its layer's accepted position has advanced. -/
def State.noteAccept (s : State) (i : Nat) (r : AppendRec) : State :=
  ((s.bumpD (((s.seq? i).map Seq.domain).getD 0) (Reg.xltAppRecLo + xltOff i)).bumpD (((s.seq? i).map Seq.domain).getD 0)
    (Reg.xltAppPosLo + xltOff i) r.count).setSeq i fun q => { q with acc := q.acc.set r.layer (r.pos + r.count) }

theorem State.acceptRecord_eq (s : State) (i : Nat) (req : Requester) (r : AppendRec) :
    s.acceptRecord i req r = ((s.noteAccept i r).complete req {}).workEnds i := rfl

@[simp] theorem State.clients_bumpD (s : State) (d c n : Nat) : (s.bumpD d c n).clients = s.clients := by
  unfold State.bumpD
  split <;> rfl

@[simp] theorem State.slc_bumpD (s : State) (d c n : Nat) : (s.bumpD d c n).slc = s.slc := by
  unfold State.bumpD
  split <;> rfl

@[simp] theorem State.cwy_bumpD (s : State) (d c n : Nat) : (s.bumpD d c n).cwy = s.cwy := by
  unfold State.bumpD
  split <;> rfl

section
variable (s : State) (i : Nat) (r : AppendRec)

theorem State.clients_noteAccept : (s.noteAccept i r).clients = s.clients :=
  ((State.clients_bumpD _ _ _ _).trans (State.clients_bumpD _ _ _ _) :)

theorem State.slc_noteAccept : (s.noteAccept i r).slc = s.slc :=
  ((State.slc_bumpD _ _ _ _).trans (State.slc_bumpD _ _ _ _) :)

theorem State.mem_noteAccept : (s.noteAccept i r).mem = s.mem :=
  ((State.mem_bumpD _ _ _ _).trans (State.mem_bumpD _ _ _ _) :)

variable (req : Requester)

theorem State.mem_acceptRecord : (s.acceptRecord i req r).mem = s.mem := s.mem_noteAccept i r

theorem State.slc_acceptRecord : (s.acceptRecord i req r).slc = s.slc := s.slc_noteAccept i r

variable {s i}

theorem State.seq?_acceptRecord {z : Seq} (h : s.seq? i = some z) :
    ∃ w, (s.acceptRecord i req r).seq? i = some w ∧ w.next = z.next ∧ w.base = z.base ∧ w.held = z.held ∧
      w.acc = z.acc.set r.layer (r.pos + r.count) := by
  have hz : ((s.bumpD (((s.seq? i).map Seq.domain).getD 0) (Reg.xltAppRecLo + xltOff i)).bumpD
      (((s.seq? i).map Seq.domain).getD 0) (Reg.xltAppPosLo + xltOff i) r.count).seq? i = some z := by simpa using h
  exact ⟨_, State.seq?_setSeq_same (s := (s.noteAccept i r).complete req {})
    ((State.seq?_complete _ _).trans (State.seq?_setSeq_same hz _)) _, rfl, rfl, rfl, rfl⟩

end

/-! ### Refusal (R82) -/

/-- A refusal noted as the last of its unit, where none is noted and its domain is not confidential (R82). -/
def State.noteLastRef (s : State) (inst : Nat) (x : LastRef) : State :=
  if s.conf x.domain || (s.xlt.lastRef.get? (inst % 2)).isSome then s
  else { s with xlt := { s.xlt with lastRef := s.xlt.lastRef.set (inst % 2) x } }

/-- The state once a refusal has been counted, noted as the last and signalled. -/
def State.noteRefusal (s : State) (d inst layer pos count : Nat) (st : Status) : State :=
  let off := (inst % 2) * 0x8000
  let t := (s.bumpD d (Reg.xltAppRefuseLo + off)).noteLastRef inst
    { domain := d, layer := layer % 256, code := st.code, count := count % 32, pos := pos % 2 ^ 24 }
  match st with
  | .order => t.setErrD d Err.xltAppOrder off
  | .noSpace => t.setErrD d Err.xltAppNospace off
  | .poisoned => t.setErr Err.xltAppPoison off
  | _ => t

theorem State.refuseRecord_eq (s : State) (d inst : Nat) (req : Requester) (layer pos count : Nat) (st : Status) :
    s.refuseRecord d inst req layer pos count st = (s.noteRefusal d inst layer pos count st).complete req st.cpl := by
  unfold State.refuseRecord State.noteRefusal
  cases st <;> rfl

/-- All of a state but what a refusal notes. -/
def State.unrefused (s : State) : State :=
  { s with regs := [], ctrs := [], lve := { s.lve with counters := [] }, xlt := { s.xlt with lastRef := [] } }

/-- Every bit of a register that is set in one state is set in the other. -/
def State.BitsStand (s t : State) : Prop := ∀ a k, k < 32 → bit (s.reg a) k = true → bit (t.reg a) k = true

namespace State.BitsStand

variable {s t u : State}

theorem refl (s : State) : s.BitsStand s := fun _ _ _ h => h

theorem trans (h : s.BitsStand t) (h' : t.BitsStand u) : s.BitsStand u := fun a k hk hb => h' a k hk (h a k hk hb)

theorem of_regs (h : t.regs = s.regs) (hg : t.glb = s.glb) : s.BitsStand t := fun a k _ hb => by
  rwa [State.reg, h, hg]

theorem setErr (s : State) (e : Nat × Nat) (off : Nat) : s.BitsStand (s.setErr e off) :=
  fun _ _ hk hb => State.bit_setReg_or_of_bit s _ _ hk hb

theorem setEvt (s : State) (e : Nat × Nat) (off : Nat) : s.BitsStand (s.setEvt e off) :=
  fun _ _ hk hb => State.bit_setReg_or_of_bit s _ _ hk hb

theorem setErrD (s : State) (d : Nat) (e : Nat × Nat) (off : Nat) : s.BitsStand (s.setErrD d e off) := by
  unfold State.setErrD
  split
  · exact refl s
  · exact setErr s e off

end State.BitsStand

@[simp] theorem State.unrefused_setErrD (s : State) (d : Nat) (e : Nat × Nat) (off : Nat) :
    (s.setErrD d e off).unrefused = s.unrefused := by
  unfold State.setErrD
  split <;> rfl

/-- A refusal changes its counters, its note and its error bits alone, and clears no bit. -/
theorem State.noteRefusal_keeps (s : State) (d inst layer pos count : Nat) (st : Status) :
    (s.noteRefusal d inst layer pos count st).unrefused = s.unrefused ∧
      s.BitsStand (s.noteRefusal d inst layer pos count st) := by
  unfold State.noteRefusal
  extract_lets off t
  obtain ⟨hrest, hbits⟩ : t.unrefused = s.unrefused ∧ s.BitsStand t := by
    unfold t State.noteLastRef State.bumpD
    split <;> split <;> exact ⟨rfl, .of_regs rfl rfl⟩
  clear_value t
  cases st
  case order => exact ⟨(State.unrefused_setErrD _ _ _ _).trans hrest, hbits.trans (.setErrD _ _ _ _)⟩
  case noSpace => exact ⟨(State.unrefused_setErrD _ _ _ _).trans hrest, hbits.trans (.setErrD _ _ _ _)⟩
  case poisoned => exact ⟨hrest, hbits.trans (.setErr _ _ _)⟩
  all_goals exact ⟨hrest, hbits⟩

section
variable (s : State) (d inst : Nat) (req : Requester) (layer pos count : Nat) (st : Status)

theorem State.clients_noteRefusal : (s.noteRefusal d inst layer pos count st).clients = s.clients :=
  (congrArg State.clients (s.noteRefusal_keeps d inst layer pos count st).1 :)

theorem State.slc_refuseRecord : (s.refuseRecord d inst req layer pos count st).slc = s.slc := by
  rw [State.refuseRecord_eq, State.complete_slc]
  exact (congrArg State.slc (s.noteRefusal_keeps d inst layer pos count st).1 :)

theorem State.seq?_refuseRecord (i : Nat) : (s.refuseRecord d inst req layer pos count st).seq? i = s.seq? i := by
  rw [State.refuseRecord_eq, State.seq?_complete]
  exact (congrArg (fun u : State => u.seq? i) (s.noteRefusal_keeps d inst layer pos count st).1 :)

end

/-! ### An error of the datapath (R85) -/

/-- All of a state but its sequences. -/
def State.unsequenced (s : State) : State := { s with xlt := { s.xlt with seqs := [] } }

/-- A change of the pages of one sequence: everything else stands, and the sequence but for its pages. -/
def State.Repages (s : State) (i : Nat) (t : State) : Prop :=
  t.unsequenced = s.unsequenced ∧ (t.seq? i).map Seq.unpaged = (s.seq? i).map Seq.unpaged

theorem State.Repages.trans {s t u : State} {i : Nat} (h : s.Repages i t) (k : t.Repages i u) : s.Repages i u :=
  ⟨k.1.trans h.1, k.2.trans h.2⟩

theorem State.repages_raisePoison (s : State) (i l h p : Nat) : s.Repages i (s.raisePoison (.page i l h p)) := by
  change s.Repages i (s.setFrame (.page i l h p) _)
  unfold State.setFrame
  split
  · exact ⟨rfl, rfl⟩
  · refine ⟨rfl, ?_⟩
    rw [State.seq?_setSeq_map, Option.map_map]
    rfl

/-- The state with the tail pages of a layer poisoned. -/
def State.poisonTail (s : State) (i layer page : Nat) (groups : List Nat) : State :=
  s.forEach groups fun h t => t.raisePoison (.page i layer h page)

theorem State.repages_poisonTail (s : State) (i layer page : Nat) (groups : List Nat) :
    s.Repages i (s.poisonTail i layer page groups) := by
  induction groups generalizing s with
  | nil => exact ⟨rfl, rfl⟩
  | cons h hs ih => exact (s.repages_raisePoison i layer h page).trans (ih _)

/-- The state of a record in whose write the datapath has erred, before its request completes. -/
def State.failDatapath (s : State) (i : Nat) (q : Seq) (r : AppendRec) : State :=
  (((s.poisonTail i r.layer (r.pos / 16) (List.range (s.modelOf q).groups)).setErr Err.xltAppUe (xltOff i)).setSeq i fun q =>
    { q with next := q.next.set r.layer r.pos }).noteRefusal q.domain i r.layer r.pos r.count .poisoned

section
variable {s : State} {i : Nat} {q : Seq} {r : AppendRec} (hq : s.seq? i = some q)
include hq

/-- Pages that are mapped are not mapped again. -/
theorem State.foldl_mapPage_of_mapped (layer page : Nat) (hs : List Nat) (h : ∀ g ∈ hs, q.ptes.has (layer, g, page) = true) :
    hs.foldl (fun t g => t.bind fun (t : State) => t.mapPage i ((t.seq? i).getD q) (layer, g, page)) (some s) = some s := by
  induction hs with
  | nil => rfl
  | cons g gs ih =>
    rw [List.foldl_cons, Option.bind_some, hq, Option.getD_some, State.mapPage, if_pos (h g List.mem_cons_self)]
    exact ih fun k hk => h k (List.mem_cons_of_mem _ hk)

theorem State.datapathUe_eq (hmapped : ∀ g ∈ List.range (s.modelOf q).groups, q.ptes.has (r.layer, g, r.pos / 16) = true)
    (req : Requester) : s.datapathUe i req r = ((s.failDatapath i q r).complete req { status := .poisoned }).workEnds i := by
  unfold State.datapathUe
  simp only [hq, State.foldl_mapPage_of_mapped hq _ _ _ hmapped, Option.getD_some, State.refuseRecord_eq]
  rfl

/-- The expected position of the layer returns to the record's own. -/
theorem State.seq?_failDatapath :
    ∃ w, (s.failDatapath i q r).seq? i = some w ∧ w.next = q.next.set r.layer r.pos ∧ w.base = q.base ∧ w.held = q.held ∧
      w.acc = q.acc := by
  have hpages := (s.repages_poisonTail i r.layer (r.pos / 16) (List.range (s.modelOf q).groups)).2
  rw [hq, Option.map_some] at hpages
  obtain ⟨z, hz, hzq⟩ := Option.map_eq_some_iff.mp hpages
  have hset := State.seq?_setSeq_same
    (s := (s.poisonTail i r.layer (r.pos / 16) (List.range (s.modelOf q).groups)).setErr Err.xltAppUe (xltOff i)) hz fun q =>
      { q with next := q.next.set r.layer r.pos }
  have hnote := congrArg (fun u : State => u.seq? i) (State.noteRefusal_keeps
    (((s.poisonTail i r.layer (r.pos / 16) (List.range (s.modelOf q).groups)).setErr Err.xltAppUe (xltOff i)).setSeq i fun q =>
      { q with next := q.next.set r.layer r.pos }) q.domain i r.layer r.pos r.count .poisoned).1
  refine ⟨_, hnote.trans hset, ?_, (congrArg Seq.base hzq :), (congrArg Seq.held hzq :), (congrArg Seq.acc hzq :)⟩
  exact congrArg (fun m : Assoc Nat Nat => m.set r.layer r.pos) (congrArg Seq.next hzq :)

omit hq in
theorem State.failDatapath_keeps : (s.failDatapath i q r).clients = s.clients ∧ (s.failDatapath i q r).mem = s.mem ∧
    (s.failDatapath i q r).slc = s.slc ∧ bit ((s.failDatapath i q r).reg (Err.xltAppUe.1 + 0x10 + xltOff i)) Err.xltAppUe.2 = true := by
  have hpages := (s.repages_poisonTail i r.layer (r.pos / 16) (List.range (s.modelOf q).groups)).1
  obtain ⟨hnote, hbits⟩ := State.noteRefusal_keeps
    (((s.poisonTail i r.layer (r.pos / 16) (List.range (s.modelOf q).groups)).setErr Err.xltAppUe (xltOff i)).setSeq i fun q =>
      { q with next := q.next.set r.layer r.pos }) q.domain i r.layer r.pos r.count .poisoned
  refine ⟨(congrArg State.clients hnote :).trans (congrArg State.clients hpages :),
    (congrArg State.mem hnote :).trans (congrArg State.mem hpages :), (congrArg State.slc hnote :).trans (congrArg State.slc hpages :), ?_⟩
  refine hbits _ _ (by decide) ?_
  have hset := State.bit_setReg_or (s.poisonTail i r.layer (r.pos / 16) (List.range (s.modelOf q).groups))
    (Err.xltAppUe.1 + xltOff i + 0x10) (i := Err.xltAppUe.2) (by decide)
  rw [Nat.add_right_comm]
  exact hset

end

end Sys2Proof.Machine
end

section
/-! The commands that bring an append record: what they store (R71, R77, R83, R85). -/

namespace Sys2Proof.Machine

/-! ### A record that arrives -/

/-- A command and its record have been noted: the rings, a counter and the notes of the domains change alone. -/
def State.Notes (s t : State) : Prop := ∃ h c l, t = { s with hif := h, ctrs := c, xlt := { s.xlt with lastDom := l } }

theorem State.notes_noteDomain (s : State) (i d : Nat) : s.Notes (s.noteDomain i d) := by
  obtain ⟨c, l, he⟩ := s.noteDomain_eq i d
  exact ⟨s.hif, c, l, he⟩

theorem State.notes_noteDomain_markStarted (s : State) (q : CmdRef) (i d : Nat) : s.Notes ((s.markStarted q).noteDomain i d) := by
  obtain ⟨c, l, he⟩ := (s.markStarted q).noteDomain_eq i d
  exact ⟨(s.markStarted q).hif, c, l, he⟩

section
variable {s t : State} (h : s.Notes t)
include h

theorem State.Notes.samePages : s.SamePages t := by
  obtain ⟨_, _, _, rfl⟩ := h
  exact ⟨rfl, rfl, rfl, rfl, rfl, rfl, rfl, rfl, rfl, rfl, rfl, fun _ => rfl⟩

theorem State.Notes.seq? (i : Nat) : t.seq? i = s.seq? i := by
  obtain ⟨_, _, _, rfl⟩ := h
  rfl

theorem State.Notes.runsAtOnce {i : Nat} {x : Seq} {req : Requester} {r : AppendRec} (k : s.runsAtOnce (s.recordItem i x req r)) :
    t.runsAtOnce (t.recordItem i x req r) := by
  obtain ⟨_, _, _, rfl⟩ := h
  exact k

theorem State.Notes.waitsFirst {i : Nat} {x : Seq} {req : Requester} {r : AppendRec} (k : s.waitsFirst (s.recordItem i x req r)) :
    t.waitsFirst (t.recordItem i x req r) := by
  obtain ⟨_, _, _, rfl⟩ := h
  exact k

end

section
variable {s : State} {i : Nat} {x : Seq} {req : Requester} {r : AppendRec}

/-- A record that is dispatched at once waits for no dispatch once it has been taken. -/
theorem State.waits_enterRecord (h : s.runsAtOnce (s.recordItem i x req r)) :
    (s.enterRecord i x req r).waits (.record i r.layer r.pos) = false :=
  State.waits_offer_of_runsAtOnce (s := (s.setSeq i fun q => { q with next := q.next.set r.layer (r.pos + r.count) }).workStarts i)
    (it := s.recordItem i x req r) h rfl rfl rfl

/-- The pages of a record that falls into open pages are mapped. -/
theorem State.mapped_of_opensFor {b : Bool} (h : s.opensFor i x r b) :
    ∀ g ∈ List.range (s.modelOf x).groups, x.ptes.has (r.layer, g, r.pos / 16) = true := by
  intro g hg
  obtain ⟨e, he, -⟩ := (Option.any_eq_true _ _).mp (List.all_eq_true.mp h.2.1 g hg)
  simp [Assoc.has, he]

/-- The pages of a record that falls into open pages are filled up to its position. -/
theorem State.filled_of_opensFor {b : Bool} (h : s.opensFor i x r b) :
    ((List.range (s.modelOf x).groups).all fun g => (x.ptes.get? (r.layer, g, r.pos / 16)).any fun e =>
      e.fill == r.pos % 16) = true := by
  refine List.all_eq_true.mpr fun g hg => ?_
  obtain ⟨e, he, hfill⟩ := (Option.any_eq_true _ _).mp (List.all_eq_true.mp h.2.1 g hg)
  exact (Option.any_eq_true _ _).mpr ⟨e, he, (Bool.and_eq_true _ _ ▸ hfill).1⟩

end

section
variable {s t : State} {i : Nat} {x : Seq} {req : Requester} {r : AppendRec} (hn : s.Notes t) (hx : s.seq? i = some x)
include hn hx

/-- A record that is taken, dispatched and falls into open pages is written, and accepted. -/
theorem State.takeRecord_open (hh : (x.held.any fun h => h.rc.layer == r.layer) = false) (ho : s.opensFor i x r false)
    (hr : s.runsAtOnce (s.recordItem i x req r)) :
    ∃ u : State, t.takeRecord i req r false = u.acceptRecord i req r ∧ u.clients = t.clients ∧ u.mem = (s.storeRecord x r).mem ∧
      u.unwritten = (t.enterRecord i x req r).unwritten ∧ ∃ z : Seq, u.seq? i = some z ∧ z.unpaged = (x.expecting r t.now).unpaged := by
  have hxt : t.seq? i = some x := (hn.seq? i).trans hx
  have hpages := hn.samePages.trans (t.samePages_enterRecord req r i x)
  obtain ⟨u, hu, hrest, hmem, z, hz, hzx⟩ := State.writeRecord_open (State.seq?_enterRecord hxt req r) (x := x) rfl
    (hpages.modelOf x) hpages.mem ho.1 (State.filled_of_opensFor ho)
  refine ⟨u, State.takeRecord_writes hxt req hh (State.waits_enterRecord (hn.runsAtOnce hr)) ?_ hu, ?_, hmem, hrest, z, hz, hzx⟩
  · exact (hn.samePages.holdCause i x r false).trans ho.2.2
  · exact (congrArg State.clients hrest :).trans (t.clients_enterRecord req r i x)

/-- A record that is taken, dispatched and meets an error of the datapath ends. -/
theorem State.takeRecord_fails (hh : (x.held.any fun h => h.rc.layer == r.layer) = false) (ho : s.opensFor i x r false)
    (hw : (t.enterRecord i x req r).waits (.record i r.layer r.pos) = false) :
    t.takeRecord i req r true = (((t.enterRecord i x req r).failDatapath i (x.expecting r t.now) r).complete req
      { status := .poisoned }).workEnds i := by
  have hxt : t.seq? i = some x := (hn.seq? i).trans hx
  have hpages := hn.samePages.trans (t.samePages_enterRecord req r i x)
  rw [State.takeRecord_ue hxt req hh hw ((hn.samePages.holdCause i x r false).trans ho.2.2)]
  refine State.datapathUe_eq (State.seq?_enterRecord hxt req r) ?_ req
  have hmod : (t.enterRecord i x req r).modelOf (x.expecting r t.now) = s.modelOf x := hpages.modelOf x
  rw [hmod]
  exact State.mapped_of_opensFor ho

end

/-! ### `KV_APPEND` on its two paths -/

section
variable {s : State} {q : CmdRef} {c : InFlight} {inp : List Byte} {i : Nat} {x : Seq}

/-- The state in which a ring command's record is taken. -/
def State.cmdArrives (s : State) (q : CmdRef) (i : Nat) : State := (s.markStarted q).noteDomain i (s.ringDomain q)

theorem exec_cmdKvAppend_takes (h : s.offersXlt q 0x18 c) (hl : inp.length = c.inLen) (ht : s.takesRecord (s.ringDomain q) inp i x)
    (ue : Bool) : exec (.cmdKvAppend q ⟨.bytes inp, ue⟩) s = .next (s.afterMemIn .lookup
      ((s.cmdArrives q i).takeRecord i (.ring q) (appendRec (s.modelOf x) inp) ue).sluice) := by
  change execCmdKvAppend q ⟨.bytes inp, ue⟩ s = _
  have hts : (s.markStarted q).takesRecord (s.ringDomain q) inp i x := by
    obtain ⟨hlen, hf, htr, hst, hshape, hlayer, hpois, hfor, hblen, hpos, hfin, hnext, hpast, hover, hbytes, hmeta⟩ := ht
    refine ⟨hlen, hf, htr, hst, hshape, hlayer, hpois, hfor, hblen, hpos, hfin, hnext, hpast, hover, hbytes, ?_⟩
    exact (State.metaFits_of_sameRegion (s := s) (t := s.markStarted q) ⟨rfl, rfl, rfl, rfl, rfl⟩ rfl i x _).trans hmeta
  have harr := State.appendArrives_takes hts (.ring q) ue
  rw [execCmdKvAppend, State.runCmdIn_of_startable h.1.1 _ hl, State.gate_markStarted h.2]
  exact congrArg (fun u : State => (Host.Outcome.next (s.afterMemIn .lookup u.sluice) : Host.Outcome State Fault Refusal)) harr

/-- A unit that serves lets a request through. -/
theorem State.gate_of_serves {s : State} {u : PrivUnit} (h : s.serves u = true) (r : Requester) (c : Status → Cpl)
    (f : State → State) : s.gate u r c f = f s := by
  simp only [State.serves, Bool.and_eq_true, Bool.not_eq_true', Option.isNone_iff_eq_none] at h
  simp [State.gate, h.1, h.2]

theorem exec_kvAppend_takes {m : RxMsg} {j : Nat} (h : s.passes m 0x10 j) (hx : (s.received m).serves .xlt = true)
    (ht : (s.received m).takesRecord ((s.received m).domainOf (m.requester j)) m.body i x) (ue : Bool) :
    exec (.kvAppend ⟨m, ue⟩) s = .next (s.afterMemIn .lookup (s.cwyFollow
      (((s.received m).noteDomain i ((s.received m).domainOf (m.requester j))).takeRecord i (m.requester j)
        (appendRec ((s.received m).modelOf x) m.body) ue).sluice)) := by
  change execKvAppend ⟨m, ue⟩ s = _
  obtain ⟨htakes, hpass⟩ := h
  have hrec : s.receive m none = (s.received m, .pass j) := Prod.ext rfl hpass
  rw [execKvAppend, if_pos htakes, hrec]
  dsimp only
  rw [State.gate_of_serves hx, State.appendArrives_takes ht]

end

end Sys2Proof.Machine
end

section
/-! The first held record of a layer, once its hold ends (R83, R182). -/

namespace Sys2Proof.Machine

/-! ### The end of a stall -/

section
variable (s : State) (w : Staller)

/-- All of a state but what the end of a stall changes: the stalls and their times. -/
def State.unstalled (s : State) : State :=
  { s with ctrs := [], lve := { s.lve with counters := [] }, slc := { s.slc with stalls := [], domStalls := [], waits := [] } }

@[simp] theorem State.unstalled_bumpD (d c n : Nat) : (s.bumpD d c n).unstalled = s.unstalled := by
  unfold State.bumpD
  split <;> rfl

@[simp] theorem State.unstalled_endStall : (s.endStall w).unstalled = s.unstalled := by
  unfold State.endStall
  split
  · rfl
  · extract_lets ns n t
    split
    · rfl
    · exact State.unstalled_bumpD _ _ _ _

@[simp] theorem State.unstalled_endWait (v : Wait) : (s.endWait v).unstalled = s.unstalled := rfl

/-- A stall that has ended is not listed. -/
theorem State.stalls_endStall : ((s.endStall w).slc.stalls.any fun z => z.who == w) = false := by
  unfold State.endStall
  split
  · next hnone => simpa using hnone
  · next x hx =>
    dsimp only
    split <;> simp

end

/-! ### A held record that is let go -/

/-- A sequence that holds the first record of a layer no longer. -/
def Seq.released (q : Seq) (layer : Nat) : Seq :=
  { q with held := ((takeFirst (fun (x : HeldRec) => x.rc.layer == layer) q.held).map Prod.snd).getD q.held }

/-- The state once the first held record of a layer is held no longer. -/
def State.letGo (s : State) (i layer : Nat) : State :=
  ((s.setSeq i fun q => q.released layer).endStall (.held i layer)).endWait (.rescale i layer)

section
variable (s : State) (i layer : Nat)

theorem State.unstalled_letGo : (s.letGo i layer).unstalled = (s.setSeq i fun q => q.released layer).unstalled :=
  (State.unstalled_endWait _ _).trans (State.unstalled_endStall _ _)

theorem State.clients_letGo : (s.letGo i layer).clients = s.clients := (congrArg State.clients (s.unstalled_letGo i layer) :)
theorem State.mem_letGo : (s.letGo i layer).mem = s.mem := (congrArg State.mem (s.unstalled_letGo i layer) :)

theorem State.stalls_letGo : ((s.letGo i layer).slc.stalls.any fun z => z.who == .held i layer) = false :=
  (s.setSeq i fun q => q.released layer).stalls_endStall _

theorem State.seq?_letGo {s : State} {i : Nat} {x : Seq} (h : s.seq? i = some x) (layer : Nat) :
    (s.letGo i layer).seq? i = some (x.released layer) :=
  (congrArg (fun u : State => u.seq? i) (s.unstalled_letGo i layer) :).trans (State.seq?_setSeq_same h _)

end

/-- Without the one element that satisfies a test, a list has none. -/
theorem filter_takeFirst {α : Type} {p : α → Bool} {l : List α} {a : α} (h : l.filter p = [a]) :
    (((takeFirst p l).map Prod.snd).getD l).filter p = [] := by
  obtain ⟨k, hk, hkp⟩ : ∃ k, takeFirst p l = some (a, k) ∧ k.filter p = [] := by
    induction l with
    | nil => simp at h
    | cons b l ih =>
      by_cases hb : p b = true
      · rw [List.filter_cons_of_pos hb, List.cons.injEq] at h
        exact ⟨l, by rw [takeFirst, if_pos hb, h.1], h.2⟩
      · rw [List.filter_cons_of_neg hb] at h
        obtain ⟨k, hk, hkp⟩ := ih h
        exact ⟨b :: k, by rw [takeFirst, if_neg hb, hk]; rfl, by rwa [List.filter_cons_of_neg hb]⟩
  simpa [hk] using hkp

/-- The only held record of a layer, let go, leaves none of the layer. -/
theorem Seq.released_none {q : Seq} {layer : Nat} {h : HeldRec} (hf : q.held.filter (fun y => y.rc.layer == layer) = [h]) :
    (q.released layer).held.filter (fun y => y.rc.layer == layer) = [] := filter_takeFirst hf

theorem Seq.first_held {q : Seq} {layer : Nat} {h : HeldRec} (hf : q.held.filter (fun y => y.rc.layer == layer) = [h]) :
    q.held.find? (fun y => y.rc.layer == layer) = some h := by
  rw [← List.head?_filter, hf, List.head?_cons]

theorem State.drainHeld_none {s : State} {i layer : Nat} {x : Seq} (hx : s.seq? i = some x)
    (hf : x.held.filter (fun y => y.rc.layer == layer) = []) (ue : Bool) (n : Nat) : s.drainHeld i layer ue n = s := by
  have hnone : x.held.find? (fun y => y.rc.layer == layer) = none := by rw [← List.head?_filter, hf, List.head?_nil]
  cases n with
  | zero => rfl
  | succ n => simp [State.drainHeld, hx, hnone]

/-! ### The release of a held record (R83) -/

/-- A sequence whose held work goes on. -/
def Seq.resumed (q : Seq) : Seq := { q with st := if q.st = .idle ∧ q.inFlight ≠ 0 then .active else q.st }

/-- The tail pages of a record that falls into open pages are mapped and sound. -/
theorem State.tail_sound {s : State} {i : Nat} {x : Seq} {r : AppendRec} {b : Bool} (h : s.opensFor i x r b) {f : FrameId}
    (hf : f ∈ s.tailFrames i x r.layer (r.pos / 16)) : ∃ g e, f = .page i r.layer g (r.pos / 16) ∧
      x.ptes.get? (r.layer, g, r.pos / 16) = some e ∧ s.pagePoison i r.layer g (r.pos / 16) e = false := by
  obtain ⟨g, hg, rfl⟩ := List.mem_map.mp hf
  obtain ⟨e, he, hsound⟩ := (Option.any_eq_true _ _).mp (List.all_eq_true.mp h.2.1 g (List.mem_filter.mp hg).1)
  simp only [Bool.and_eq_true, Bool.not_eq_true'] at hsound
  exact ⟨g, e, rfl, he, hsound.2⟩

section
variable {s : State} {i layer : Nat} {x : Seq} {h : HeldRec} (hx : s.seq? i = some x)
  (hf : x.held.filter (fun y => y.rc.layer == layer) = [h]) (hfor : s.tailForeign x layer (h.rc.pos / 16) = false)
  (ho : s.opensFor i x h.rc h.before) (hw : s.waits (.record i layer h.rc.pos) = false)
include hx hf hfor ho hw

/-- The first held record of a layer, once nothing holds it, is written, or ended by an error of the datapath. -/
theorem State.drainHeld_eq (ue : Bool) (n : Nat) : s.drainHeld i layer ue (n + 1) =
    if ue then (((s.workResumes i).letGo i layer).datapathUe i h.req h.rc).failBehind i layer []
    else
      match (s.workResumes i).writeRecord i h.rc with
      | some t => ((t.letGo i layer).acceptRecord i h.req h.rc).drainHeld i layer false n
      | none =>
        let u := s.workResumes i
        let fits := u.recordFits i x h.rc
        if fits.1 && fits.2 then (u.reholdFirst i x h .space).awaitSpace i x h.rc
        else (if fits.1 then u.setErr Err.xltPtrFull else u).failHeld i layer .noSpace .order := by
  have hmem : h ∈ x.held.filter (fun y => y.rc.layer == layer) := by rw [hf]; exact List.mem_singleton_self h
  obtain rfl : h.rc.layer = layer := by simpa using (List.mem_filter.mp hmem).2
  have hrest : (x.held.filter fun y => y.rc.layer == h.rc.layer).drop 1 = [] := by rw [hf]; rfl
  rw [State.drainHeld]
  simp only [hx, Seq.first_held hf, hfor, hw, ho.2.2, Bool.false_eq_true, if_false]
  refine (if_neg ?_).trans ?_
  · rintro ⟨-, hbad⟩
    obtain ⟨f, hf, hfbad⟩ := List.any_eq_true.mp hbad
    obtain ⟨g, e, rfl, he, hpois⟩ := State.tail_sound ho hf
    simp [he, hpois] at hfbad
  · rw [hrest]
    rfl

omit hf hfor hw in
/-- The tail pages that the resumed work of a sequence finds are those before. -/
theorem State.writeRecord_resumed :
    ∃ t : State, (s.workResumes i).writeRecord i h.rc = some t ∧ t.unwritten = (s.workResumes i).unwritten ∧
      t.mem = (s.storeRecord x h.rc).mem ∧
      ∃ z : Seq, t.seq? i = some z ∧ z.unpaged = x.resumed.unpaged :=
  State.writeRecord_open (s := s.workResumes i) (State.seq?_setSeq_same hx _) rfl rfl rfl ho.1 (State.filled_of_opensFor ho)

/-- The first held record of a layer, and the only one, is written, and accepted. -/
theorem State.drainHeld_writes (n : Nat) :
    ∃ u : State, s.drainHeld i layer false (n + 1) = u.acceptRecord i h.req h.rc ∧ u.clients = s.clients ∧
      u.mem = (s.storeRecord x h.rc).mem ∧ (u.slc.stalls.any fun z => z.who == .held i layer) = false ∧
      ∃ z : Seq, u.seq? i = some z ∧ z.held.filter (fun y => y.rc.layer == layer) = [] := by
  obtain ⟨t, ht, hrest, hmem, z, hz, hzx⟩ := State.writeRecord_resumed hx ho
  have hheld : z.held = x.held := (congrArg Seq.held hzx :)
  have hnone : (z.released layer).held.filter (fun y => y.rc.layer == layer) = [] :=
    Seq.released_none (h := h) (by rw [hheld, hf])
  have hseq := State.seq?_letGo hz layer
  obtain ⟨w, hw', -, -, hwheld, -⟩ := State.seq?_acceptRecord h.rc h.req hseq
  refine ⟨t.letGo i layer, ?_, (t.clients_letGo i layer).trans (congrArg State.clients hrest :),
    (t.mem_letGo i layer).trans hmem, t.stalls_letGo i layer, _, hseq, hnone⟩
  rw [State.drainHeld_eq hx hf hfor ho hw, ht]
  exact State.drainHeld_none hw' (by rw [hwheld, hnone]) false n

/-- The state of a held record in whose write the datapath has erred, before its request completes. -/
theorem State.drainHeld_fails (n : Nat) : s.drainHeld i layer true (n + 1)
    = (((((s.workResumes i).letGo i layer).failDatapath i (x.resumed.released layer) h.rc).complete h.req
        { status := .poisoned }).workEnds i).failBehind i layer [] := by
  rw [State.drainHeld_eq hx hf hfor ho hw, if_pos rfl]
  have hseq : ((s.workResumes i).letGo i layer).seq? i = some (x.resumed.released layer) :=
    State.seq?_letGo (State.seq?_setSeq_same hx _) layer
  rw [State.datapathUe_eq hseq]
  have hmod : ((s.workResumes i).letGo i layer).modelOf (x.resumed.released layer) = s.modelOf x :=
    (congrArg (fun u : State => u.modelOf x) ((s.workResumes i).unstalled_letGo i layer) :)
  rw [hmod]
  exact State.mapped_of_opensFor ho

end

end Sys2Proof.Machine
end

section
/-! What a message of Causeway and an answer leave: every unit but the links and the host, the bits that are set, and links that
are calm (R121, R228, R236, R254). -/

namespace Sys2Proof.Machine

/-! ### Messages and answers -/

/-- Every entry of a changed map was there, or is the change of one that was. -/
theorem Assoc.mem_modify {κ α : Type} [DecidableEq κ] {m : Assoc κ α} {k : κ} {f : α → α} {e : κ × α} (h : e ∈ m.modify k f) :
    ∃ d ∈ m, e = d ∨ e = (d.1, f d.2) := by
  induction m with
  | nil => exact absurd h List.not_mem_nil
  | cons d m ih =>
    obtain ⟨l, v⟩ := d
    rw [Assoc.modify] at h
    split at h
    · rcases List.mem_cons.mp h with rfl | h
      · exact ⟨(l, v), List.mem_cons_self, .inr rfl⟩
      · exact ⟨e, List.mem_cons_of_mem _ h, .inl rfl⟩
    · rcases List.mem_cons.mp h with rfl | h
      · exact ⟨(l, v), List.mem_cons_self, .inl rfl⟩
      · obtain ⟨d, hd, he⟩ := ih h
        exact ⟨d, List.mem_cons_of_mem _ hd, he⟩

/-- A port whose lanes would fail it at once, or as a message wakes it. -/
def Port.blind (p : Port) : Bool :=
  (decide (p.st = .retrain) || decide (p.power = .sleep)) && (lanesFor false p.unusableLanes).isNone

/-- All of a state but what an answer changes: the links, the host, what has been given out, registers, counters and faults. -/
def State.silent (s : State) : State :=
  { s with regs := [], ctrs := [], outs := [], hif := {}, flt := {}, cwy := {}, lve := { s.lve with counters := [] } }

/-- A state follows another by messages and answers alone. -/
structure State.Speaks (s t : State) : Prop where
  silent : t.silent = s.silent
  bits : s.BitsStand t
  slots : s.cwy.slots = [] → t.cwy.slots = []
  blind : ∀ p, (t.port p).blind = true → (s.port p).blind = true
  closing : ∀ e ∈ t.cwy.sessions, e.2.st = .detaching → ∃ d ∈ s.cwy.sessions, d.2.st = .detaching

namespace State.Speaks

variable {s t u : State}

theorem refl (s : State) : s.Speaks s := ⟨rfl, .refl s, id, fun _ => id, fun e he hd => ⟨e, he, hd⟩⟩

theorem trans (h : s.Speaks t) (k : t.Speaks u) : s.Speaks u where
  silent := k.silent.trans h.silent
  bits := h.bits.trans k.bits
  slots hs := k.slots (h.slots hs)
  blind p hp := h.blind p (k.blind p hp)
  closing e he hd := by
    obtain ⟨d, hm, hc⟩ := k.closing e he hd
    exact h.closing d hm hc

/-- A change that leaves the links and the registers. -/
theorem of_eq (hs : t.silent = s.silent) (hr : t.regs = s.regs) (hc : t.cwy = s.cwy) : s.Speaks t where
  silent := hs
  bits := .of_regs hr (congrArg State.glb hs :)
  slots h := hc ▸ h
  blind p h := by rwa [State.port, hc] at h
  closing e he hd := ⟨e, hc ▸ he, hd⟩

theorem bump (h : s.Speaks t) (c n : Nat) : s.Speaks (t.bump c n) := h.trans (of_eq rfl rfl rfl)
theorem emit (h : s.Speaks t) (o : Out) : s.Speaks (t.emit o) := h.trans (of_eq rfl rfl rfl)

theorem bumpD (h : s.Speaks t) (d c n : Nat) : s.Speaks (t.bumpD d c n) := by
  unfold State.bumpD
  split
  · exact h.trans (of_eq rfl rfl rfl)
  · exact h.bump c n

theorem setErr (h : s.Speaks t) (e : Nat × Nat) (off : Nat) : s.Speaks (t.setErr e off) :=
  h.trans ⟨rfl, .setErr t e off, id, fun _ => id, fun e he hd => ⟨e, he, hd⟩⟩

theorem setEvt (h : s.Speaks t) (e : Nat × Nat) (off : Nat) : s.Speaks (t.setEvt e off) :=
  h.trans ⟨rfl, .setEvt t e off, id, fun _ => id, fun e he hd => ⟨e, he, hd⟩⟩

/-- A change of a port that does not blind it. -/
theorem setPort (h : s.Speaks t) (p : Nat) {f : Port → Port} (hf : (f (t.port p)).blind = true → (t.port p).blind = true) :
    s.Speaks (t.setPort p f) := by
  refine h.trans ⟨rfl, .of_regs rfl rfl, id, fun q hq => ?_, fun e he hd => ⟨e, he, hd⟩⟩
  by_cases hp : q = p
  · subst hp
    refine hf ?_
    simpa [State.port, State.setPort] using hq
  · simpa [State.port, State.setPort, Assoc.getD_set_other _ _ _ _ _ hp] using hq

/-- A change of a session that does not begin to close it. -/
theorem setSess (h : s.Speaks t) (i : Nat) {f : Session → Session} (hf : ∀ x, (f x).st = x.st) : s.Speaks (t.setSess i f) := by
  refine h.trans ⟨rfl, .of_regs rfl rfl, id, fun _ => id, fun e he hd => ?_⟩
  obtain ⟨d, hm, rfl | rfl⟩ := Assoc.mem_modify he
  · exact ⟨e, hm, hd⟩
  · exact ⟨d, hm, (hf d.2).symm.trans hd⟩

theorem forEach {α : Type} (h : s.Speaks t) (l : List α) {f : α → State → State} (hf : ∀ x (t : State), t.Speaks (f x t)) :
    s.Speaks (t.forEach l f) := by
  induction l generalizing t with
  | nil => exact h
  | cons x l ih => exact ih (h.trans (hf x t))

end State.Speaks

/-! ### Flits (R230 to R233) -/

section
variable (p : Port)

/-- A port that a change makes blind with its own lanes was blind where it slept. -/
theorem Port.blind_of_sleep {p q : Port} (hq : q.blind = true) (hl : q.unusableLanes = p.unusableLanes) (hp : p.power = .sleep) :
    p.blind = true := by
  simp only [Port.blind, Bool.and_eq_true, hl] at hq
  simp [Port.blind, hp, hq.2]

theorem Port.blind_of_active {p : Port} (h : ({ p with power := .active } : Port).blind = true) : p.blind = true := by
  simp only [Port.blind, Port.unusableLanes, Bool.and_eq_true, Bool.or_eq_true, decide_eq_true_eq, reduceCtorEq, or_false] at h ⊢
  exact ⟨.inl h.1, h.2⟩

theorem Port.blind_takeReturn : p.takeReturn.2.blind = p.blind := by
  unfold Port.takeReturn
  extract_lets spent
  split <;> rfl

theorem Port.blind_stamp (vc type : Nat) (som eom : Bool) (n : Nat) : (p.stamp vc type som eom n).2.blind = p.blind :=
  p.blind_takeReturn

theorem Port.blind_sendFlit {p q : Port} {now h : Nat} (k : p.sendFlit now = some (h, q)) : q.blind = p.blind := by
  unfold Port.sendFlit at k
  split at k
  · cases k
  · split at k
    · cases k
    · obtain ⟨x, -, hx⟩ := Option.map_eq_some_iff.mp k
      obtain ⟨-, rfl⟩ := Prod.mk.inj hx
      exact p.blind_takeReturn

theorem Port.blind_pump (now n : Nat) : (p.pump now n).2.blind = p.blind := by
  induction n generalizing p with
  | zero => rfl
  | succ n ih =>
    unfold Port.pump
    split
    · rfl
    · next h q hq => exact (ih q).trans (Port.blind_sendFlit hq)

end

/-- A ring slot whose neighbour is lost with a session (Table 6.2). -/
def State.loseNeighbour (s : State) (i k : Nat) (r : RingSlot) : State :=
  let u := s.setSlot k fun r => { r with
    pred := if r.pred == some i then none else r.pred
    succ := if r.succ == some i then none else r.succ
    toSend := if r.succ == some i then r.toSend.map fun c => { c with last := 2 } else r.toSend
    st := if r.st = .ready ∨ r.st = .degraded then .degraded else r.st }
  if r.st = .ready then (u.setEvt Evt.cwyRingDegraded).setErr Err.cwyRingNeighbour else u

theorem State.slots_loseNeighbour (s : State) (i k : Nat) (r : RingSlot) : (s.loseNeighbour i k r).cwy.slots ≠ [] := by
  have hset (m : Assoc Nat RingSlot) (v : RingSlot) : m.set k v ≠ [] := by
    cases m with
    | nil => exact List.cons_ne_nil _ _
    | cons e m =>
      rw [Assoc.set]
      split <;> exact List.cons_ne_nil _ _
  unfold State.loseNeighbour
  dsimp only
  split <;> exact hset _ _

namespace State.Speaks

variable {s t : State} (h : s.Speaks t)
include h

theorem pump (p : Nat) : s.Speaks (t.pump p) := by
  unfold State.pump
  extract_lets x r u
  have hu : s.Speaks u := h.setPort p fun hb => by
    rw [← x.blind_pump t.now (min 2047 (sumNat (x.txq.map fun q => q.flits - q.sent)))]
    exact hb
  split
  · split
    · exact hu
    · exact (hu.forEach _ fun o t => (refl t).emit _).bump _ _
  · exact h

theorem linkFlit (p k v : Nat) : s.Speaks (t.linkFlit p k v) :=
  ((h.setPort p fun hb => by rwa [Port.blind_stamp] at hb).emit _).emit _

/-- A sleeping port that retrains to wake is no blinder than it was. -/
theorem startRetrain (p : Nat) (w : Bool) (hp : (t.port p).power = .sleep) : s.Speaks (t.startRetrain p w) := by
  exact ((h.setPort p fun hb => Port.blind_of_sleep hb rfl hp).setErr _ _).bump _ _

theorem portSend (p v l : Nat) : s.Speaks (t.portSend p v l) := by
  unfold State.portSend
  extract_lets x u w
  have hu : s.Speaks u := h.setPort p id
  have hw : s.Speaks w := by
    unfold w
    split
    · exact (hu.linkFlit _ _ _).setPort _ Port.blind_of_active
    · exact hu
  split
  · next hsleep =>
    refine (hu.emit _).startRetrain _ _ ?_
    simp only [u, State.port, State.setPort, State.emit, Assoc.getD_set_same]
    exact hsleep.1
  · exact hw.pump p

/-! ### Messages (R239) -/

theorem sendPlain (p : Nat) (m : TxMsg) : s.Speaks (t.sendPlain p m) := ((h.emit _).bump _ _).portSend _ _ _

theorem transmit (i p n : Nat) (r : Bool) (m : TxMsg) : s.Speaks (t.transmit i p n r m) := by
  unfold State.transmit
  split
  · exact h
  · exact (((h.setSess _ fun _ => by rfl).emit _).bumpD _ _ _).portSend _ _ _

theorem cwySend (i p : Nat) (m : TxMsg) : s.Speaks (t.cwySend i p m) := by
  unfold State.cwySend
  split
  · exact h
  · split
    · exact h.setSess _ fun _ => by rfl
    · exact (h.setSess _ fun _ => by rfl).transmit _ _ _ _ _

theorem drainWith {next : State → Session → Nat → TxMsg → Option Nat} {num : Nat → Nat}
    {send : State → Nat → Nat → Nat → Bool → TxMsg → State} (hsend : ∀ (t : State) i p n r m, t.Speaks (send t i p n r m)) (i n : Nat) :
    s.Speaks (t.drainWith next num send i n) := by
  induction n generalizing t with
  | zero => exact h
  | succ n ih =>
    unfold State.drainWith
    split
    · exact h
    · split
      · exact h
      · split
        · exact h
        · exact ih ((h.setSess _ fun _ => by rfl).trans (hsend _ _ _ _ _ _))

theorem drainSendq (i n : Nat) : s.Speaks (t.drainSendq i n) := by
  rw [State.drainSendq_eq_drainWith]
  exact h.drainWith (fun t i p n r m => (refl t).transmit i p n r m) i n

theorem drainAll : s.Speaks t.drainAll := h.forEach _ fun _ u => (refl u).drainSendq _ _

theorem sendReply (i : Option Nat) (p : Nat) (m : TxMsg) (st : Status) : s.Speaks (t.sendReply i p m st) := by
  unfold State.sendReply
  extract_lets d u
  have hu : s.Speaks u := by
    unfold u
    split
    · exact h
    · exact h.bumpD _ _ _
  split
  · exact hu.cwySend _ _ _
  · exact hu.sendPlain _ _

theorem replyOr (i : Option Nat) (p : Nat) (m : TxMsg) (st : Status) : s.Speaks (t.replyOr i p m st) := by
  have hkeep (l : List (Option Nat × Nat × TxMsg × Nat)) : s.Speaks { t with cwy := { t.cwy with refusals := l } } :=
    h.trans ⟨rfl, .of_regs rfl rfl, id, fun _ => id, fun e he hd => ⟨e, he, hd⟩⟩
  unfold State.replyOr
  split
  · exact (hkeep _).bump _ _
  · split
    · exact hkeep _
    · exact h.sendReply _ _ _ _

/-! ### The end of a session (R253, R254) -/

theorem setSlot (hne : t.cwy.slots ≠ []) (k : Nat) (f : RingSlot → RingSlot) : s.Speaks (t.setSlot k f) :=
  h.trans ⟨rfl, .of_regs rfl rfl, fun hs => absurd hs hne, fun _ => id, fun e he hd => ⟨e, he, hd⟩⟩

theorem loseNeighbour (hne : t.cwy.slots ≠ []) (i k : Nat) (r : RingSlot) : s.Speaks (t.loseNeighbour i k r) := by
  unfold State.loseNeighbour
  dsimp only
  split
  · exact ((h.setSlot hne _ _).setEvt _ _).setErr _ _
  · exact h.setSlot hne _ _

/-- Where no ring is formed, none loses a neighbour. -/
theorem slotLosesSession (i : Nat) : s.Speaks (t.slotLosesSession i) := by
  have hloss (l : List (Nat × RingSlot)) (u : State) (hu : s.Speaks u) (hne : u.cwy.slots ≠ []) :
      s.Speaks (u.forEach l fun e t => t.loseNeighbour i e.1 e.2) := by
    induction l generalizing u with
    | nil => exact hu
    | cons e l ih =>
      exact ih (u.loseNeighbour i e.1 e.2) (hu.loseNeighbour hne i e.1 e.2) (u.slots_loseNeighbour i e.1 e.2)
  by_cases hne : t.cwy.slots = []
  · rw [State.slotLosesSession, hne]
    exact h
  · exact hloss _ t h hne

/-- A session is removed. -/
theorem dropSess (i d : Nat) :
    s.Speaks { t with cwy := { t.cwy with sessions := t.cwy.sessions.erase i, closed := t.cwy.closed.set i d } } :=
  h.trans ⟨rfl, .of_regs rfl rfl, id, fun _ => id, fun e he hd => ⟨e, (List.mem_filter.mp he).1, hd⟩⟩

theorem freeSession (i : Nat) : s.Speaks (t.freeSession i) := by
  unfold State.freeSession
  split
  · exact h
  · next x hx =>
    have hv := (h.dropSess i x.domain).forEach x.ports.keys
      (f := fun p t => (t.setEvt Evt.cwySessionDown (cwyOff p)).setPort p fun q => { q with lastUse := t.now })
      fun p u => ((refl u).setEvt _ _).setPort p fun hb => hb
    dsimp only
    split
    · exact (hv.slotLosesSession i).drainAll
    · exact ((hv.bumpD _ _ _).slotLosesSession i).drainAll

theorem detachClose (i : Nat) : s.Speaks (t.detachClose i) := by
  unfold State.detachClose
  split
  · split
    · split
      · exact h.freeSession i
      · exact h
    · exact h
  · exact h

theorem detachStep (i : Nat) : s.Speaks (t.detachStep i) := by
  unfold State.detachStep
  split
  · split
    · split
      · exact ((h.cwySend _ _ _).setSess _ fun _ => by rfl).detachClose i
      · exact h.detachClose i
    · exact h
  · exact h

theorem answer (i p n m : Nat) (r : Bool) (l k q : Nat) (c : Cpl) : s.Speaks (t.answer i p n m r l k q c) := by
  unfold State.answer
  extract_lets body msg quiet u
  have hu : s.Speaks u := by
    unfold u
    split
    · split
      · exact h
      · exact h.replyOr _ _ _ _
    · split
      · exact h.bumpD _ _ _
      · exact h
  exact (hu.setSess _ fun _ => by rfl).detachStep i

end State.Speaks

/-! ### Completions (R264, R265, R321) -/

/-- All of a state but what a completion to the host or to the management network changes. -/
def State.unhosted (s : State) : State := { s with ctrs := [], outs := [], hif := {}, flt := {} }

section
variable (s : State)

theorem State.unhosted_ite (c : Prop) [Decidable c] (s t : State) :
    (if c then s else t).unhosted = if c then s.unhosted else t.unhosted := apply_ite State.unhosted c s t

theorem State.unhosted_emit (o : Out) : (s.emit o).unhosted = s.unhosted := rfl
theorem State.unhosted_bump (c n : Nat) : (s.bump c n).unhosted = s.unhosted := rfl
theorem State.unhosted_setFunc (n : Nat) (f : Func → Func) : (s.setFunc n f).unhosted = s.unhosted := rfl
theorem State.unhosted_setRing (n k : Nat) (f : Ring → Ring) : (s.setRing n k f).unhosted = s.unhosted := rfl

theorem State.unhosted_postCpl (q : CmdRef) (c : Cpl) : (s.postCpl q c).unhosted = s.unhosted := by
  simp only [State.postCpl]
  split
  · rfl
  · simp only [State.unhosted_ite, State.ringSignal, State.msix, State.unhosted_setRing, State.unhosted_setFunc,
      State.unhosted_emit, State.unhosted_bump, ite_self]

theorem State.unhosted_spdmOut (n : Nat) (v : Option CmdRef) (b : List Byte) : (s.spdmOut n v b).unhosted = s.unhosted := by
  unfold State.spdmOut
  split
  · rfl
  · simp only [State.unhosted_ite, State.unhosted_postCpl, ite_self]

theorem State.speaks_of_unhosted {s t : State} (h : t.unhosted = s.unhosted) : s.Speaks t :=
  .of_eq (congrArg State.silent h :) (congrArg State.regs h :) (congrArg State.cwy h :)

theorem State.speaks_deliverCpl (r : Requester) (c : Cpl) : s.Speaks (s.deliverCpl r c) := by
  unfold State.deliverCpl
  split
  · exact State.speaks_of_unhosted (s.unhosted_postCpl _ _)
  · exact (State.Speaks.refl s).answer _ _ _ _ _ _ _ _ _
  · exact State.speaks_of_unhosted (s.unhosted_spdmOut _ _ _)
  · exact State.speaks_of_unhosted (s.unhosted_spdmOut _ _ _)
  · exact State.Speaks.refl s

theorem State.speaks_completeNow (r : Requester) (c : Cpl) : s.Speaks (s.completeNow r c) := by
  unfold State.completeNow
  split
  · exact State.speaks_of_unhosted rfl
  · split
    · split
      · exact s.speaks_deliverCpl _ _
      · exact State.Speaks.refl s
      · exact State.speaks_of_unhosted rfl
    · exact s.speaks_deliverCpl _ _

/-- An answer to any requester is an answer alone. -/
theorem State.speaks_complete (r : Requester) (c : Cpl) : s.Speaks (s.complete r c) := by
  have h := s.speaks_completeNow r c
  refine ⟨rfl, fun a k hk hb => ?_, h.slots, h.blind, h.closing⟩
  have hbit := h.bits a k hk hb
  have hglb : (s.completeNow r c).glb = s.glb := (congrArg State.glb h.silent :)
  rw [State.reg, hglb] at hbit
  exact hbit

end

/-- Links that are calm stay calm as messages and answers leave. -/
theorem State.Speaks.linksCalm {s t : State} (h : s.Speaks t) (hc : s.linksCalm) : t.linksCalm := by
  obtain ⟨⟨hslots, hseqs, hsteps⟩, hports, hclosing⟩ := hc
  have hx : t.xlt = s.xlt := (congrArg State.xlt h.silent :)
  have ha : t.att = s.att := (congrArg State.att h.silent :)
  refine ⟨⟨h.slots hslots, by rwa [hx], by rwa [ha]⟩, ?_, ?_⟩
  · refine List.all_eq_true.mpr fun p hp => ?_
    have hsee : (!(s.port p).blind) = true := List.all_eq_true.mp hports p hp
    change (!(t.port p).blind) = true
    rw [Bool.not_eq_true'] at hsee ⊢
    exact Bool.eq_false_iff.mpr fun hb => Bool.eq_false_iff.mp hsee (h.blind p hb)
  · refine List.all_eq_true.mpr fun e he => ?_
    by_contra hd
    obtain ⟨d, hm, hd'⟩ := h.closing e he (by simpa using hd)
    have hopen := List.all_eq_true.mp hclosing d hm
    simp [hd'] at hopen

end Sys2Proof.Machine
end

section
/-! What the stores, the index and the tables do beneath a command: frames freed, entries withdrawn, poison raised, faults noted.
None of it stores a byte, sends a message or touches a step. -/

namespace Sys2Proof.Machine

/-! ### What stands -/

/-- The stripes that the sequences are. -/
def State.stripes (s : State) : List (Nat × Option Stripe) := s.xlt.seqs.map fun e => (e.1, e.2.stripe)

/-- What a change of the stores' tables leaves: memory, their clients, the links, the attention engine, the stripes and the
deliveries. -/
def State.still (s : State) := (s.mem, s.clients, s.cwy, s.att, s.stripes, s.slc.pageReads)

/-- Links that are calm stay so while the links, the steps and the stripes stand. -/
theorem State.linksCalm_of_stripes {s t : State} (hcwy : t.cwy = s.cwy) (hatt : t.att = s.att) (hstripes : t.stripes = s.stripes)
    (hc : s.linksCalm) : t.linksCalm := by
  obtain ⟨⟨hslots, hseqs, hsteps⟩, hports, hclosing⟩ := hc
  have hall := congrArg (fun l => l.all fun p : Nat × Option Stripe => p.2.isNone) hstripes
  simp only [State.stripes, List.all_map, Function.comp_def] at hall
  refine ⟨⟨by rwa [hcwy], hall.trans hseqs, by rwa [hatt]⟩, ?_, by rwa [hcwy]⟩
  exact List.all_eq_true.mpr fun p hp => by
    rw [State.port, hcwy]
    exact List.all_eq_true.mp hports p hp

section
variable {s t : State} (h : t.still = s.still)
include h

theorem State.mem_of_still : t.mem = s.mem := (congrArg Prod.fst h :)
theorem State.clients_of_still : t.clients = s.clients := (congrArg (fun p => p.2.1) h :)
theorem State.cwy_of_still : t.cwy = s.cwy := (congrArg (fun p => p.2.2.1) h :)

theorem State.linksCalm_of_still (hc : s.linksCalm) : t.linksCalm :=
  State.linksCalm_of_stripes (State.cwy_of_still h) (congrArg (fun p => p.2.2.2.1) h :) (congrArg (fun p => p.2.2.2.2.1) h :) hc

theorem State.pageRead?_of_still (id : Nat) : t.pageRead? id = s.pageRead? id := by
  have hreads : t.slc.pageReads = s.slc.pageReads := (congrArg (fun p => p.2.2.2.2.2) h :)
  rw [State.pageRead?, hreads, State.pageRead?]

end

section
variable (s t : State)

@[simp] theorem State.still_ite (c : Prop) [Decidable c] :
    (if c then s else t).still = if c then s.still else t.still := apply_ite State.still c s t

theorem State.still_forEach {α : Type} (l : List α) {f : α → State → State} (h : ∀ x t, (f x t).still = t.still) :
    (s.forEach l f).still = s.still := by
  induction l generalizing s with
  | nil => rfl
  | cons x xs ih => exact (ih (f x s)).trans (h x s)

/-! ### Counters, bits, budgets, stalls and faults -/

@[simp] theorem State.still_bump (c n : Nat) : (s.bump c n).still = s.still := rfl
@[simp] theorem State.still_setErr (e : Nat × Nat) (off : Nat) : (s.setErr e off).still = s.still := rfl
@[simp] theorem State.still_setEvt (e : Nat × Nat) (off : Nat) : (s.setEvt e off).still = s.still := rfl
@[simp] theorem State.still_setBudget (d : Nat) (f : DomBudget → DomBudget) : (s.setBudget d f).still = s.still := rfl
@[simp] theorem State.still_setHistory (u : Nat) (f : History → History) : (s.setHistory u f).still = s.still := rfl

@[simp] theorem State.still_bumpD (d c n : Nat) : (s.bumpD d c n).still = s.still := by
  unfold State.bumpD
  split <;> rfl

@[simp] theorem State.still_setErrD (d : Nat) (e : Nat × Nat) (off : Nat) : (s.setErrD d e off).still = s.still := by
  unfold State.setErrD
  split <;> rfl

@[simp] theorem State.still_setSeq (i : Nat) {f : Seq → Seq} (h : ∀ q, (f q).stripe = q.stripe) : (s.setSeq i f).still = s.still := by
  simp only [State.still, State.stripes, State.setSeq, Assoc.map_modify s.xlt.seqs i (g := Seq.stripe) h]
  rfl

@[simp] theorem State.still_setBd (b : Nat) (f : Bd → Bd) : (s.setBd b f).still = s.still := rfl
@[simp] theorem State.still_setObj (n : Nat) (f : Obj → Obj) : (s.setObj n f).still = s.still := rfl
@[simp] theorem State.still_workEnds (i : Nat) : (s.workEnds i).still = s.still := s.still_setSeq i fun _ => rfl
@[simp] theorem State.still_workStarts (i : Nat) : (s.workStarts i).still = s.still := s.still_setSeq i fun _ => rfl
@[simp] theorem State.still_poisonSeq (i : Nat) : (s.poisonSeq i).still = s.still := s.still_setSeq i fun _ => rfl

@[simp] theorem State.still_domFault (d i : Nat) : (s.domFault d i).still = s.still := by simp [State.domFault]

@[simp] theorem State.still_release (d c : Nat) : (s.release d c).still = s.still := by simp [State.release]

@[simp] theorem State.still_beginStall (w : Staller) (d : Nat) (c : StallCause) (f : Option FrameId) (p : Bool) :
    (s.beginStall w d c f p).still = s.still := s.still_bumpD _ _ _

@[simp] theorem State.still_endStall (w : Staller) : (s.endStall w).still = s.still := by
  unfold State.endStall
  split
  · rfl
  · dsimp only
    split
    · rfl
    · exact State.still_bumpD _ _ _ _

@[simp] theorem State.still_fault (u c r a d n : Nat) : (s.fault u c r a d n).still = s.still := by
  unfold State.fault
  dsimp only
  split <;> rfl

@[simp] theorem State.still_declarePermanent (u : Nat) : (s.declarePermanent u).still = s.still := by simp [State.declarePermanent]

@[simp] theorem State.still_holdOut (a : Nat) : (s.holdOut a).still = s.still := by
  unfold State.holdOut
  dsimp only
  split <;> rfl

@[simp] theorem State.still_t0Ue (a : Nat) : (s.t0Ue a).still = s.still := by
  unfold State.t0Ue
  extract_lets unit u flt v w
  have hu : u.still = s.still := s.still_fault _ _ _ _ _ _
  have hv : v.still = s.still := by
    unfold v
    split
    · split
      · exact hu
      · exact (State.still_fault _ _ _ _ _ _ _).trans hu
    · exact (u.still_holdOut a).trans hu
  have hw : w.still = s.still := hv
  split
  · exact (w.still_declarePermanent unit).trans hw
  · exact hw

@[simp] theorem State.still_tierUe (h : Home) : (s.tierUe h).still = s.still := by
  unfold State.tierUe
  split <;> simp

@[simp] theorem State.still_notAnswered (h : Home) : (s.notAnswered h).still = s.still := by simp [State.notAnswered]

@[simp] theorem State.still_issueRead (m : Nat) (l : List Nat) : (s.issueRead m l).still = s.still := rfl

@[simp] theorem State.still_countPort (h : Home) (w : Bool) (n : Nat) : (s.countPort h w n).still = s.still := by
  unfold State.countPort
  split <;> rfl

@[simp] theorem State.still_readBlocks (d : Nat) (h : Home) (n : Nat) (b : List Byte) (m : MediaRead) (p : Nat) :
    (s.readBlocks d h n b m p).2.still = s.still := by
  unfold State.readBlocks
  dsimp only
  split
  · rfl
  · simp [State.countLink]

/-! ### Frames freed (R65, R66) -/

@[simp] theorem State.still_freeExt (h : Home) : (s.freeExt h).still = s.still := by
  unfold State.freeExt
  split
  · rfl
  · split
    · rfl
    · dsimp only
      split
      · rfl
      · split <;> rfl

@[simp] theorem State.still_freeFrame (f : FrameId) (h : Home) : (s.freeFrame f h).still = s.still := by
  unfold State.freeFrame
  split
  · rfl
  · exact s.still_freeExt h

@[simp] theorem State.still_freeMeta (f : FrameId) : (s.freeMeta f).still = s.still := by
  unfold State.freeMeta
  split
  · rfl
  · exact State.still_freeFrame _ _ _

@[simp] theorem State.still_freeTables (r : TableRoot) : (s.freeTables r).still = s.still :=
  s.still_forEach _ fun _ _ => State.still_freeMeta _ _

@[simp] theorem State.still_freeBdTables : s.freeBdTables.still = s.still := s.still_forEach _ fun _ _ => State.still_freeMeta _ _

@[simp] theorem State.still_awaits (w : Wait) : (s.awaits w).still = s.still := by
  unfold State.awaits
  split <;> rfl

@[simp] theorem State.still_sweepBd (b : Nat) : (s.sweepBd b).still = s.still := by
  unfold State.sweepBd
  split
  · rfl
  · next x hx =>
    split
    · rfl
    · extract_lets gone u v xlt
      have hv : v.still = s.still := s.still_forEach gone fun _ _ => State.still_freeFrame _ _ _
      split
      · rw [State.still_freeBdTables, State.still_freeMeta]
        exact hv
      · exact hv

@[simp] theorem State.still_dropPte (i : Nat) (k : Nat × Nat × Nat) (e : Pte) : (s.dropPte i k e).still = s.still := by
  unfold State.dropPte
  split <;> simp

@[simp] theorem State.still_unmapPage (i : Nat) (k : Nat × Nat × Nat) : (s.unmapPage i k).still = s.still := by
  unfold State.unmapPage
  split
  · rfl
  · next e he =>
    extract_lets held u v
    have hv : v.still = s.still := (u.still_setSeq i fun _ => by rfl).trans (by unfold u; simp)
    split
    · exact (v.still_awaits _).trans hv
    · split
      · exact hv
      · exact (v.still_dropPte _ _ _).trans hv

@[simp] theorem State.still_freeObj (n : Nat) : (s.freeObj n).still = s.still := by
  unfold State.freeObj
  split
  · rfl
  · next o ho =>
    split
    · exact (State.still_freeTables _ _).trans (s.still_forEach _ fun _ _ => State.still_freeFrame _ _ _)
    · rfl

/-! ### Entries of the index (R142, R147 to R151) -/

@[simp] theorem State.still_setRow (n : Nat) (r : Assoc Nat Entry) : (s.setRow n r).still = s.still := rfl

@[simp] theorem State.still_restoreNow (n : Nat) : (s.restoreNow n).still = s.still := by
  unfold State.restoreNow
  extract_lets x t
  have ht : t.still = s.still := by
    clear_value x
    unfold t
    split <;> rfl
  clear_value t
  exact ht

@[simp] theorem State.still_noteRow (n : Nat) : (s.noteRow n).still = s.still := by
  unfold State.noteRow
  split <;> rfl

@[simp] theorem State.still_modEntry (n b : Nat) (f : Entry → Entry) : (s.modEntry n b f).still = s.still := by
  unfold State.modEntry
  dsimp only
  split <;> simp

@[simp] theorem State.still_noEntry (h : Handoff) (b c : Nat) : (s.noEntry h b c).still = s.still := by
  unfold State.noEntry
  dsimp only
  split <;> simp

@[simp] theorem State.still_rbdInsert (h : Handoff) : (s.rbdInsert h).still = s.still := by
  unfold State.rbdInsert
  split
  · rfl
  · next b hb =>
    extract_lets d st pred lo hi n eq u e x before v w z y
    have hw : w.still = s.still := by simp [w, v, u]
    have hz : z.still = s.still := by
      unfold z
      split
      · rw [State.still_modEntry, hw]
      · exact hw
    have hy : y.still = s.still := hz
    split
    · exact s.still_noEntry _ _ _
    · simp [hy]

@[simp] theorem State.still_recordBreak (b : Break) : (s.recordBreak b).still = s.still := by
  unfold State.recordBreak
  dsimp only
  split <;> split <;> rfl

@[simp] theorem State.still_withdraw (n b : Nat) : (s.withdraw n b).still = s.still := by
  unfold State.withdraw
  dsimp only
  split <;> simp

@[simp] theorem State.still_withdrawBlock (b : Nat) : (s.withdrawBlock b).still = s.still := by
  unfold State.withdrawBlock
  split
  · simp
  · rfl

@[simp] theorem State.still_arrivedFirst (d : Nat) : (s.arrivedFirst d).still = s.still :=
  (State.still_forEach _ _ fun _ _ => State.still_rbdInsert _ _).trans rfl

@[simp] theorem State.still_withdrawPoison (b : Nat) : (s.withdrawPoison b).still = s.still := by
  unfold State.withdrawPoison
  split <;> simp

/-! ### Poison (R63) -/

@[simp] theorem State.still_setFrame (f : FrameId) (u : FrameInfo → FrameInfo) : (s.setFrame f u).still = s.still := by
  unfold State.setFrame
  split
  · rfl
  · cases f
    case page => exact s.still_setSeq _ fun _ => rfl
    all_goals rfl

@[simp] theorem State.still_raisePoison (f : FrameId) : (s.raisePoison f).still = s.still := by
  unfold State.raisePoison
  cases f <;> simp

end

end Sys2Proof.Machine
end

section
/-! What appends, and the ends of stalls and of truncates, store (R71, R77, R83, R86). -/

namespace Sys2Proof.Machine

/-! ### Memory at the end of a command -/

section
variable (s : State)

theorem State.mem_afterMemIn (c : Scope) (u : State) : (s.afterMemIn c u).mem = Memory.canon u.mem := State.afterMem_mem _ _

@[simp] theorem State.mem_sluice : s.sluice.mem = s.mem := State.only_mem _ _ _

/-! ### Records that are held, or that fail -/

@[simp] theorem State.still_holdRecord (i : Nat) (req : Requester) (r : AppendRec) (c : HoldCause) :
    (s.holdRecord i req r c).still = s.still := by
  unfold State.holdRecord
  extract_lets d t u
  have ht : t.still = s.still := s.still_setSeq i fun _ => by rfl
  have hu : u.still = s.still := by
    unfold u
    split
    · exact ht
    · exact (t.still_bumpD _ _ _).trans ht
  split
  · exact (u.still_beginStall _ _ _ _ _).trans hu
  · exact (State.still_awaits _ _).trans ((u.still_bumpD _ _ _).trans hu)
  · exact hu

/-- The fall of the records behind one that failed, where there are none. -/
theorem State.mem_failBehind_nil (i layer : Nat) : (s.failBehind i layer []).mem = s.mem := rfl

end

section
variable {s t : State} {i : Nat} {x : Seq} {req : Requester} {r : AppendRec} (hn : s.Notes t) (hx : s.seq? i = some x)
include hn hx

/-- A record that is taken behind a held record of its layer is held, and stores nothing. -/
theorem State.takeRecord_behind (hh : (x.held.any fun h => h.rc.layer == r.layer) = true) (ue : Bool) :
    t.takeRecord i req r ue = (t.enterRecord i x req r).holdRecord i req r .behind := by
  rw [State.takeRecord_eq ((hn.seq? i).trans hx), if_pos hh]

omit hx in
/-- A record that is held stores nothing. -/
theorem State.mem_holdRecord_enterRecord (c : HoldCause) : ((t.enterRecord i x req r).holdRecord i req r c).mem = s.mem :=
  (State.mem_of_still (State.still_holdRecord _ _ _ _ _)).trans ((State.mem_enterRecord _ _ _ _ _).trans hn.samePages.mem)

/-- A record in whose write the datapath errs stores nothing, whether it is held or not. -/
theorem State.mem_takeRecord_ue (ho : s.opensFor i x r false) : (t.takeRecord i req r true).mem = s.mem := by
  have hxt : t.seq? i = some x := (hn.seq? i).trans hx
  cases hh : x.held.any fun h => h.rc.layer == r.layer
  case true =>
    rw [State.takeRecord_behind hn hx hh]
    exact State.mem_holdRecord_enterRecord hn _
  case false =>
    cases hw : (t.enterRecord i x req r).waits (.record i r.layer r.pos)
    case true =>
      rw [State.takeRecord_eq hxt, hh, if_neg Bool.false_ne_true, if_pos hw]
      exact State.mem_holdRecord_enterRecord hn _
    case false =>
      rw [State.takeRecord_fails hn hx hh ho hw]
      have hfail := (State.failDatapath_keeps (s := t.enterRecord i x req r) (i := i) (q := x.expecting r t.now) (r := r)).2.1
      exact hfail.trans ((State.mem_enterRecord _ _ _ _ _).trans hn.samePages.mem)

end

/-! ### Steps (R103, R134) -/

section
variable (s : State)

@[simp] theorem State.mem_endStall (w : Staller) : (s.endStall w).mem = s.mem := State.mem_of_still (s.still_endStall w)
@[simp] theorem State.mem_release (d c : Nat) : (s.release d c).mem = s.mem := State.mem_of_still (s.still_release d c)
@[simp] theorem State.mem_modStep (id : Nat) (f : Step → Step) : (s.modStep id f).mem = s.mem := rfl
@[simp] theorem State.mem_workEnds (i : Nat) : (s.workEnds i).mem = s.mem := rfl

@[simp] theorem State.mem_endWork (t : Step) : (s.endWork t).mem = s.mem := by
  unfold State.endWork
  extract_lets u ran att pwr v w y
  have hy : y.mem = s.mem := by
    unfold y
    split <;> exact s.mem_endStall _
  exact (y.mem_release _ _).trans hy

@[simp] theorem State.mem_countResult (d : Nat) (l : Bool) (st : Status) : (s.countResult d l st).mem = s.mem := by
  unfold State.countResult
  split
  · rfl
  · split <;> exact s.mem_bumpD _ _ _

@[simp] theorem State.mem_completeStep (t : Step) (st : Status) (rows : List Partial) : (s.completeStep t st rows).mem = s.mem := by
  unfold State.completeStep
  exact State.mem_countResult _ _ _ _

@[simp] theorem State.mem_endRing (t : Step) (st : Status) : (s.endRing t st).mem = s.mem := by
  unfold State.endRing
  extract_lets ns slow u v
  have hu : u.mem = s.mem := by
    unfold u
    split
    · rfl
    · exact s.mem_bumpD _ _ _
  have hv : v.mem = s.mem := by
    unfold v
    split <;> exact hu
  split <;> exact hv

@[simp] theorem State.mem_ringCombine (id : Nat) : (s.ringCombine id).mem = s.mem := by
  unfold State.ringCombine
  split
  · rfl
  · split
    · rfl
    · dsimp only
      split
      · split
        · rw [State.mem_completeStep]
          split
          · exact State.mem_endRing _ _ _
          · rfl
        · rfl
      · rfl

@[simp] theorem State.mem_finishWork (id : Nat) (st : Status) (rows : List Partial) : (s.finishWork id st rows).mem = s.mem := by
  unfold State.finishWork
  split
  · rfl
  · dsimp only
    split <;> simp

@[simp] theorem State.mem_failStep (id : Nat) (st : Status) : (s.failStep id st).mem = s.mem := by
  unfold State.failStep
  dsimp only
  split
  · rfl
  · exact s.mem_finishWork _ _ _

@[simp] theorem State.mem_cutTasks (t : Step) : (s.cutTasks t).mem = s.mem := by
  unfold State.cutTasks
  split
  · exact s.mem_failStep _ _
  · extract_lets kept c need m all cells tasks att u v
    have hv : v.mem = s.mem := by
      unfold v
      split
      · rfl
      · simp [u]
    split
    · exact s.mem_finishWork _ _ _
    · split
      · exact s.mem_failStep _ _
      · split
        · exact s.mem_failStep _ _
        · exact hv

@[simp] theorem State.mem_resolveStep (id : Nat) : (s.resolveStep id).mem = s.mem := by
  unfold State.resolveStep
  split
  · rfl
  · split
    · exact s.mem_failStep _ _
    · extract_lets ps pre metaAway first page frame stall u v
      have hstall : (stall s).mem = s.mem := by
        unfold stall
        dsimp only
        rw [apply_ite State.mem, State.mem_of_still (State.still_beginStall _ _ _ _ _ _)]
        exact ite_self _
      have hv : v.mem = s.mem := (s.workResumes _).mem_endStall _
      split
      · exact hstall
      · split
        · exact (State.mem_failStep _ _ _).trans (State.mem_of_still (s.still_domFault _ _))
        · split
          · exact State.mem_failStep _ _ _
          · split
            · exact hstall
            · split
              · exact (v.mem_cutTasks _).trans hv
              · exact hv

/-! ### Deliveries (R187) -/

@[simp] theorem State.mem_sendPage (r : Requester) (st : Status) (b : List Byte) : (s.sendPage r st b).mem = s.mem := by
  unfold State.sendPage
  split
  · split
    · exact (congrArg State.mem ((State.Speaks.refl s).sendReply _ _ _ _).silent :)
    · rfl
  · rfl

@[simp] theorem State.mem_endRead (r : PageRead) (st : Status) (b : List Byte) : (s.endRead r st b).mem = s.mem := by
  unfold State.endRead
  extract_lets slc pea u v w
  have hv : v.mem = s.mem := (State.mem_release _ _ _).trans (u.mem_endStall _)
  have hw : w.mem = s.mem := hv
  split
  · exact (State.mem_of_still (w.still_freeObj _)).trans hw
  · exact hw

theorem State.mem_forEach {α : Type} (l : List α) {f : α → State → State} (h : ∀ x t, (f x t).mem = t.mem) :
    (s.forEach l f).mem = s.mem := by
  induction l generalizing s with
  | nil => rfl
  | cons x xs ih => exact (ih (f x s)).trans (h x s)

@[simp] theorem State.mem_failPages (r : PageRead) (st : Status) : (s.failPages r st).mem = s.mem :=
  (State.mem_endRead _ _ _ _).trans (s.mem_forEach _ fun _ _ => State.mem_sendPage _ _ _ _)

@[simp] theorem State.mem_deliverPage (r : PageRead) (n : Nat) (b : List Byte) : (s.deliverPage r n b).mem = s.mem := by
  unfold State.deliverPage
  dsimp only
  split
  · exact s.mem_sendPage _ _ _
  · exact s.mem_endRead _ _ _

@[simp] theorem State.mem_seqPage (r : PageRead) : (s.seqPage r).mem = s.mem := by
  unfold State.seqPage
  split
  · exact s.mem_failPages _ _
  · extract_lets m p
    split
    · exact s.mem_failPages _ _
    · next e he =>
      extract_lets f metaOut home
      have hue : ((((s.endStall (.read r.id)).tierUe home).raisePoison f).poisonSeq r.target).mem = s.mem :=
        State.mem_of_still (by simp)
      repeat' split
      all_goals simp [State.mem_of_still (s.still_domFault _ _), State.mem_of_still (s.still_poisonSeq _),
        State.mem_of_still (s.still_beginStall _ _ _ _ _), hue]

@[simp] theorem State.mem_deliverObj (r : PageRead) (h : Home) (n : Nat) (b : List Byte) : (s.deliverObj r h n b).mem = s.mem := by
  unfold State.deliverObj
  extract_lets f x u
  have hx : x.2.still = s.still := s.still_readBlocks _ _ _ _ _ _
  have hu : u.still = s.still := by
    unfold u
    split
    · exact (x.2.still_tierUe h).trans hx
    · exact hx
  split
  · exact (State.mem_failPages _ _ _).trans (State.mem_of_still ((u.still_raisePoison f).trans hu))
  · exact (State.mem_deliverPage _ _ _ _).trans (State.mem_of_still hx)

@[simp] theorem State.mem_objPage (r : PageRead) : (s.objPage r).mem = s.mem := by
  unfold State.objPage
  split
  · exact s.mem_failPages _ _
  · dsimp only
    repeat' split
    all_goals simp [State.mem_of_still (s.still_domFault _ _), State.mem_of_still (s.still_notAnswered _),
      State.mem_of_still (s.still_beginStall _ _ _ _ _), State.mem_of_still (State.still_issueRead _ _ _)]

@[simp] theorem State.mem_pumpRead (id n : Nat) : (s.pumpRead id n).mem = s.mem := by
  induction n generalizing s with
  | zero => rfl
  | succ n ih =>
    unfold State.pumpRead
    split
    · rfl
    · split
      · rfl
      · next r hr hw =>
        extract_lets t
        have ht : t.mem = s.mem := by
          unfold t
          split
          · exact s.mem_objPage r
          · exact s.mem_seqPage r
        split
        · split
          · exact ht
          · exact (ih t).trans ht
        · exact ht

/-! ### Truncation (R58) -/

theorem State.mem_cutSeq (i : Nat) (x : Seq) (p : Nat) : (s.cutSeq i x p).mem = s.mem :=
  s.mem_forEach _ fun _ t => State.mem_of_still (t.still_unmapPage _ _)

@[simp] theorem State.mem_truncateArrives (r : Requester) (i p : Nat) : (s.truncateArrives r i p).mem = s.mem := by
  unfold State.truncateArrives
  split
  · rfl
  · next x hx =>
    split
    · rfl
    · split
      · rfl
      · split
        · rfl
        · split
          · exact State.mem_of_still ((State.still_awaits _ _).trans (s.still_setSeq i fun _ => by rfl))
          · exact s.mem_cutSeq i x p

end

/-! ### The commands (R82, R83, R182) -/

/-- A truncate that nothing waits behind stores nothing once it proceeds. -/
theorem State.waiting_truncateArrives {s : State} {i : Nat} {x : Seq} (h : s.seq? i = some x) (ht : x.trunc = none)
    (hw : x.waiting = []) (r : Requester) (p : Nat) : ∃ y, (s.truncateArrives r i p).seq? i = some y ∧ y.waiting = [] := by
  unfold State.truncateArrives
  simp only [h, ht, Option.isSome_none, Bool.false_eq_true, if_false]
  split
  · exact ⟨x, (State.seq?_complete _ _).trans h, hw⟩
  · split
    · exact ⟨x, (State.seq?_complete _ _).trans h, hw⟩
    · split
      · exact ⟨_, (State.seq?_awaits _).trans (State.seq?_setSeq_same h _), hw⟩
      · obtain ⟨y, hy, -, -, hwait, -⟩ := State.seq?_cutSeq h p
        exact ⟨y, (State.seq?_complete _ _).trans hy, hwait.trans hw⟩

theorem exec_truncateRelease_mem {s t : State} {i : Nat} (hw : ((s.seq? i).all fun x => x.waiting.isEmpty) = true)
    (h : exec (.truncateRelease i) s = .next t) : t.mem = Memory.canon s.mem := by
  obtain rfl := Host.Outcome.next.inj h
  refine (State.mem_afterMemIn _ _ _).trans (congrArg Memory.canon ?_)
  split
  · next x hx =>
    split
    · split
      · next r p htr hgo =>
        dsimp only
        have hwait : x.waiting = [] := by simpa [hx] using hw
        obtain ⟨y, hy, hyw⟩ := State.waiting_truncateArrives (State.seq?_setSeq_same (s := s.endWait (.truncate i)) hx
          fun q => { q with trunc := none }) rfl hwait r p
        rw [State.resumeWaiting_none hy hyw]
        exact State.mem_truncateArrives _ _ _ _
      · rfl
    · rfl
  · rfl

theorem exec_stallEnd_mem {s t : State} {n : Nat} {y : Stall} (hy : s.slc.stalls[n]? = some y) (hw : ∀ i l, y.who ≠ .held i l)
    (h : exec (.stallEnd n) s = .next t) : t.mem = Memory.canon s.mem := by
  obtain rfl := Host.Outcome.next.inj h
  refine (State.mem_afterMemIn _ _ _).trans (congrArg Memory.canon ?_)
  rw [hy]
  dsimp only
  split
  · rw [State.mem_sluice]
    cases hwho : y.who
    case step id => exact s.mem_resolveStep id
    case held i l => exact absurd hwho (hw i l)
    case read id => exact s.mem_pumpRead id 65
  · rfl

section
variable {s t : State} {i : Nat} {x : Seq} {n : Nat} {h : HeldRec} (hs : s.serves .xlt = true)
  (hb : s.mayBegin (.rescale i n) = true) (hr : s.releaseTurn (.held i n) = true) (hx : s.seq? i = some x)
include hs hb hr hx

/-- The first held record of a layer is tried once nothing holds it. -/
theorem exec_heldRecordWrite_drains (ue : Bool) :
    exec (.heldRecordWrite i ⟨n, ue⟩) s = .next (s.afterMemIn .lookup (s.drainHeld i n ue (x.held.length + 1)).sluice) := by
  change execHeldRecordWrite i ⟨n, ue⟩ s = _
  rw [execHeldRecordWrite, if_pos ⟨hs, hb, hr⟩, hx]
  rfl

end

/-- Settles O49: the record that is written stores `State.storeRecord` (`takeRecord_open`, `drainHeld_writes`), one that waits or
fails stores nothing (`takeRecord_behind`, `mem_takeRecord_ue`), and neither does the end of a stall or of a truncate. -/
theorem appendsStoreTheirPatchesAlone : Obligations.AppendsStoreTheirPatchesAlone := by
  refine ⟨?ring, ?link, ?error, ?behind, ?heldError, ?held, fun _ _ _ _ => exec_stallEnd_mem, fun _ _ _ => exec_truncateRelease_mem⟩
  case ring =>
    intro s t q c inp i x hoff hlen _ htakes hh hopen hruns he
    rw [exec_cmdKvAppend_takes hoff hlen htakes] at he
    obtain rfl := Host.Outcome.next.inj he
    obtain ⟨u, hu, -, hmem, -⟩ := State.takeRecord_open (req := .ring q) (s.notes_noteDomain_markStarted q i (s.ringDomain q))
      (State.seq?_of_findSeq htakes.2.1) hh hopen hruns
    rw [State.mem_afterMemIn, State.mem_sluice, State.cmdArrives, hu, State.mem_acceptRecord, hmem]
  case link =>
    intro s t m i n x hpass hs _ _ htakes hh hopen hruns he
    rw [exec_kvAppend_takes hpass hs htakes] at he
    obtain rfl := Host.Outcome.next.inj he
    obtain ⟨u, hu, -, hmem, -⟩ := State.takeRecord_open (req := m.requester i)
      ((s.received m).notes_noteDomain n ((s.received m).domainOf (m.requester i))) (State.seq?_of_findSeq htakes.2.1) hh hopen hruns
    rw [State.mem_afterMemIn, State.cwyFollow_mem, State.mem_sluice, hu, State.mem_acceptRecord, hmem]
  case error =>
    intro s t q c inp i x hoff hlen _ htakes hopen he
    rw [exec_cmdKvAppend_takes hoff hlen htakes] at he
    obtain rfl := Host.Outcome.next.inj he
    rw [State.mem_afterMemIn, State.mem_sluice, State.cmdArrives, State.mem_takeRecord_ue
      (s.notes_noteDomain_markStarted q i (s.ringDomain q)) (State.seq?_of_findSeq htakes.2.1) hopen]
  case behind =>
    intro s t q c inp i x ue hoff hlen _ htakes hh he
    rw [exec_cmdKvAppend_takes hoff hlen htakes] at he
    obtain rfl := Host.Outcome.next.inj he
    have hn := s.notes_noteDomain_markStarted q i (s.ringDomain q)
    rw [State.mem_afterMemIn, State.mem_sluice, State.cmdArrives,
      State.takeRecord_behind hn (State.seq?_of_findSeq htakes.2.1) hh, State.mem_holdRecord_enterRecord hn]
  case heldError =>
    intro s t i x n h hs _ hb hr hx hf hfor hopen hw he
    rw [exec_heldRecordWrite_drains hs hb hr hx] at he
    obtain rfl := Host.Outcome.next.inj he
    rw [State.mem_afterMemIn, State.mem_sluice, State.drainHeld_fails hx hf hfor hopen hw, State.mem_failBehind_nil,
      State.mem_workEnds, State.complete_mem, State.failDatapath_keeps.2.1, State.mem_letGo]
    rfl
  case held =>
    intro s t i x n h hs _ hb hr hx hf hfor hopen hw he
    rw [exec_heldRecordWrite_drains hs hb hr hx] at he
    obtain rfl := Host.Outcome.next.inj he
    obtain ⟨u, hu, -, hmem, -⟩ := State.drainHeld_writes hx hf hfor hopen hw x.held.length
    rw [State.mem_afterMemIn, State.mem_sluice, hu, State.mem_acceptRecord, hmem]

end Sys2Proof.Machine
end

section
/-! How an append record ends (R82, R83, R85): what its sequence, its requester and the error word show of it. -/

namespace Sys2Proof.Machine

/-! ### The end of a command that stores bytes -/

section
variable {s u : State} {c : Scope}

theorem State.slc_afterMemIn (h : c.slc = true) : (s.afterMemIn c u).slc = u.slc := by
  simp only [State.afterMemIn, State.afterMem_slc, State.only, h, cond_true]

theorem State.pwr_afterMemIn (h : c.pwr = true) : (s.afterMemIn c u).pwr = u.pwr := by
  simp only [State.afterMemIn, State.afterMem_pwr, State.only, h, cond_true]

/-- A register reads what its value and the variant of the device say. -/
theorem State.reg_of_regs {s t : State} (h : t.regs = s.regs) (hg : t.glb = s.glb) (a : Nat) : t.reg a = s.reg a := by
  rw [State.reg, h, hg, State.reg]

theorem State.reg_afterMemIn (h : c.regs = true) (hg : u.glb = s.glb) (a : Nat) : (s.afterMemIn c u).reg a = u.reg a := by
  refine State.reg_of_regs ?_ ?_ a
  · simp only [State.afterMemIn, State.afterMem_regs, State.only, h, cond_true]
  · cases hc : c.glb <;> simp [State.afterMemIn, State.only, hc, hg]

/-- A completion to a command that waits is posted, whatever else its end does. -/
theorem State.posts_of_complete {v : State} {q : CmdRef} {f : InFlight} {k : Cpl} (hw : u.waitsFor q f) (hu : s.outs <:+ u.outs)
    (hv : v.outs = (u.complete (.ring q) k).outs) (hs : k.status ≠ .stale) (hn : k.status ≠ .denied) :
    s.posts v q f k.status = true := by
  rw [State.posts_of_outs hv]
  exact State.posts_complete hw hu hs hn

/-- A command that waits still does so while the clients of the stores stand. -/
theorem State.posts_of_clients {v : State} {q : CmdRef} {f : InFlight} {k : Cpl} (hw : s.waitsFor q f) (hcl : u.clients = s.clients)
    (hv : v.outs = (u.complete (.ring q) k).outs) (hs : k.status ≠ .stale) (hn : k.status ≠ .denied) :
    s.posts v q f k.status = true :=
  State.posts_of_complete (State.waitsFor_of_hif hw (congrArg Prod.fst hcl))
    (by rw [show u.outs = s.outs from congrArg (fun z => z.2.1) hcl]) hv hs hn

/-- A command that has begun is posted its completion. -/
theorem State.posts_of_started {v : State} {q : CmdRef} {op : Nat} {f : InFlight} {k : Cpl} (h : s.offers q op f)
    (hcl : u.clients = (s.markStarted q).clients) (hv : v.outs = (u.complete (.ring q) k).outs) (hs : k.status ≠ .stale)
    (hn : k.status ≠ .denied) : s.posts v q f k.status = true :=
  State.posts_of_complete (f := { f with started := true }) (State.waitsFor_of_offers h (congrArg Prod.fst hcl))
    (by rw [show u.outs = s.outs from congrArg (fun z => z.2.1) hcl]) hv hs hn

end

/-! ### Notes and positions -/

section
variable {s t : State} (h : s.Notes t)
include h

theorem State.Notes.noPlacements (hn : s.noPlacements) : t.noPlacements := State.noPlacements_of_slc hn h.samePages.slc

theorem State.Notes.pwr : t.pwr = s.pwr := by
  obtain ⟨_, _, _, rfl⟩ := h
  rfl

theorem State.Notes.glb : t.glb = s.glb := h.samePages.glb

end

theorem State.clients_noteDomain (s : State) (i d : Nat) : (s.noteDomain i d).clients = s.clients := by
  obtain ⟨_, _, he⟩ := s.noteDomain_eq i d
  rw [he]
  rfl

theorem State.outs_workEnds (s : State) (i : Nat) : (s.workEnds i).outs = s.outs := rfl

theorem State.glb_enterRecord (s : State) (i : Nat) (x : Seq) (req : Requester) (r : AppendRec) :
    (s.enterRecord i x req r).glb = s.glb := (s.samePages_enterRecord req r i x).glb

theorem State.glb_failDatapath (s : State) (i : Nat) (q : Seq) (r : AppendRec) : (s.failDatapath i q r).glb = s.glb := by
  have hpages := (s.repages_poisonTail i r.layer (r.pos / 16) (List.range (s.modelOf q).groups)).1
  have hnote := (State.noteRefusal_keeps
    (((s.poisonTail i r.layer (r.pos / 16) (List.range (s.modelOf q).groups)).setErr Err.xltAppUe (xltOff i)).setSeq i fun q =>
      { q with next := q.next.set r.layer r.pos }) q.domain i r.layer r.pos r.count .poisoned).1
  exact (congrArg State.glb hnote :).trans (congrArg State.glb hpages :)

/-- A sequence that agrees in its positions with one that expects a record expects what follows the record. -/
theorem Seq.nextPos_expecting {w z x : Seq} {r : AppendRec} {now : Nat} (hn : w.next = z.next)
    (h : z.unpaged = (x.expecting r now).unpaged) : w.nextPos r.layer = r.pos + r.count := by
  have hz : z.next = (x.expecting r now).next := (congrArg Seq.next h :)
  rw [Seq.nextPos, hn, hz]
  exact Assoc.getD_set_same _ _ _ _

/-! ### A record that is accepted -/

theorem State.seq?_acceptRecord_pos {u : State} {i : Nat} {x z : Seq} {r : AppendRec} {now : Nat} (req : Requester)
    (hz : u.seq? i = some z) (h : z.unpaged = (x.expecting r now).unpaged) :
    ((u.acceptRecord i req r).seq? i).map (fun y => (y.nextPos r.layer, y.accPos r.layer))
      = some (r.pos + r.count, r.pos + r.count) := by
  obtain ⟨w, hw, hnext, -, -, hacc⟩ := State.seq?_acceptRecord r req hz
  rw [hw, Option.map_some, Seq.nextPos_expecting hnext h, Seq.accPos, hacc, Assoc.getD_set_same]

/-! ### The links of a record that is accepted -/

theorem State.stripes_unwritten (s : State) : s.unwritten.stripes = s.stripes := by
  simp only [State.stripes, State.unwritten, List.map_map]
  rfl

theorem State.stripes_of_unwritten {s t : State} (h : t.unwritten = s.unwritten) : t.stripes = s.stripes := by
  rw [← t.stripes_unwritten, h, s.stripes_unwritten]

theorem State.still_enterRecord (s : State) (i : Nat) (x : Seq) (req : Requester) (r : AppendRec) :
    (s.enterRecord i x req r).still = s.still :=
  (congrArg State.still (State.unbudgeted_offer _ _) :).trans
    ((State.still_workStarts _ i).trans (s.still_setSeq i fun _ => by rfl))

theorem State.still_noteDomain (s : State) (i d : Nat) : (s.noteDomain i d).still = s.still := by
  obtain ⟨_, _, he⟩ := s.noteDomain_eq i d
  rw [he]
  rfl

theorem State.still_noteAccept (s : State) (i : Nat) (r : AppendRec) : (s.noteAccept i r).still = s.still :=
  (State.still_setSeq _ i fun _ => by rfl).trans ((State.still_bumpD _ _ _ _).trans (State.still_bumpD _ _ _ _))

theorem State.linksCalm_acceptRecord {s : State} (h : s.linksCalm) (i : Nat) (req : Requester) (r : AppendRec) :
    (s.acceptRecord i req r).linksCalm := by
  rw [State.acceptRecord_eq]
  exact State.linksCalm_of_still (State.still_workEnds _ _)
    ((State.speaks_complete _ _ _).linksCalm (State.linksCalm_of_still (s.still_noteAccept i r) h))

/-- A write of a record leaves calm links calm. -/
theorem State.linksCalm_of_unwritten {s t : State} (h : t.unwritten = s.unwritten) (hc : s.linksCalm) : t.linksCalm :=
  State.linksCalm_of_stripes (s := s) (t := t) (congrArg State.cwy h :) (congrArg State.att h :) (State.stripes_of_unwritten h) hc

/-- The translation unit and the links. -/
def State.xltAndCwy (s : State) : Xlt × Cwy := (s.xlt, s.cwy)

section
variable {s t : State} (h : t.xltAndCwy = s.xltAndCwy)
include h

theorem State.xlt_of_xltAndCwy : t.xlt = s.xlt := congrArg Prod.fst h
theorem State.cwy_of_xltAndCwy : t.cwy = s.cwy := congrArg Prod.snd h

end

theorem State.xltAndCwy_forEach_ite (s : State) {α : Type} (l : List α) {c : State → Prop} [∀ u, Decidable (c u)]
    {f : α → State → State} (hf : ∀ e u, (f e u).xltAndCwy = u.xltAndCwy) :
    (s.forEach l fun e u => if c u then f e u else u).xltAndCwy = s.xltAndCwy := by
  induction l generalizing s with
  | nil => rfl
  | cons e l ih =>
    refine (ih _).trans ?_
    rw [apply_ite State.xltAndCwy, hf]
    exact ite_self _

/-- The entries of the log for sessions opened and closed leave the translation unit and the links. -/
theorem State.xltAndCwy_sessionAudit (s t : State) : (s.sessionAudit t).xltAndCwy = t.xltAndCwy :=
  (State.xltAndCwy_forEach_ite _ _ fun _ _ => by rfl).trans (State.xltAndCwy_forEach_ite _ _ fun _ _ => by rfl)

/-- What follows a command of Causeway on calm links leaves the translation unit and the links. -/
theorem State.cwyFollow_keeps (s : State) {t : State} (h : t.linksCalm) :
    (s.cwyFollow t).xltAndCwy = t.xltAndCwy := by
  have haudit := s.xltAndCwy_sessionAudit t
  have hslots : (s.sessionAudit t).cwy.slots = [] := by
    rw [State.cwy_of_xltAndCwy haudit]
    exact h.1.1
  have hrest : ((s.sessionAudit t).ringHellos).ringJoins = s.sessionAudit t := by
    have hh : (s.sessionAudit t).ringHellos = s.sessionAudit t := by simp only [State.ringHellos, hslots, State.forEach_nil]
    rw [hh]
    simp only [State.ringJoins, hslots, State.forEach_nil]
  rw [State.cwyFollow, t.blindPorts_calm h, t.detachSteps_calm h, t.ringLosses_noRings h.1, hrest]
  exact haudit

theorem State.seq?_cwyFollow (s : State) {t : State} (h : t.linksCalm) (i : Nat) : (s.cwyFollow t).seq? i = t.seq? i := by
  rw [State.seq?, State.xlt_of_xltAndCwy (s.cwyFollow_keeps h), State.seq?]

theorem State.cwy_cwyFollow (s : State) {t : State} (h : t.linksCalm) : (s.cwyFollow t).cwy = t.cwy :=
  State.cwy_of_xltAndCwy (s.cwyFollow_keeps h)

/-- A record of a session that is accepted: both positions advance. -/
theorem exec_kvAppend_accepts {s : State} {m : RxMsg} {j i : Nat} {x : Seq} (hp : s.passes m 0x10 j)
    (hs : (s.received m).serves .xlt = true) (hc : (s.received m).linksCalm) (hn : (s.received m).noPlacements)
    (ht : (s.received m).takesRecord ((s.received m).domainOf (m.requester j)) m.body i x)
    (hh : (x.held.any fun h => h.rc.layer == u16 m.body 4) = false)
    (ho : (s.received m).opensFor i x (appendRec ((s.received m).modelOf x) m.body) false)
    (hr : (s.received m).runsAtOnce ((s.received m).recordItem i x (m.requester j) (appendRec ((s.received m).modelOf x) m.body))) :
    ∃ t, exec (.kvAppend ⟨m, false⟩) s = .next t ∧
      (t.seq? i).map (fun y => (y.nextPos (u16 m.body 4), y.accPos (u16 m.body 4)))
        = some (u32 m.body 8 + u8 m.body 6, u32 m.body 8 + u8 m.body 6) := by
  have hnotes := (s.received m).notes_noteDomain i ((s.received m).domainOf (m.requester j))
  obtain ⟨u, hu, hcl, -, hrest, z, hz, hzx⟩ :=
    State.takeRecord_open (req := m.requester j) hnotes (State.seq?_of_findSeq ht.2.1) hh ho hr
  have hidle := State.sluice_idle (u.acceptRecord i (m.requester j) (appendRec ((s.received m).modelOf x) m.body))
    (State.noPlacements_of_slc (State.noPlacements_of_clients (hnotes.noPlacements hn) hcl) (u.slc_acceptRecord _ _ _))
  have hcalm : u.linksCalm := State.linksCalm_of_unwritten hrest
    (State.linksCalm_of_still ((State.still_enterRecord _ _ _ _ _).trans (State.still_noteDomain _ _ _)) hc)
  refine ⟨_, exec_kvAppend_takes hp hs ht false, ?_⟩
  rw [hu, hidle, State.seq?_afterMemIn rfl, State.seq?_cwyFollow s (State.linksCalm_acceptRecord hcalm _ _ _)]
  exact State.seq?_acceptRecord_pos (m.requester j) hz hzx

/-! ### A record in whose write the datapath errs -/

theorem State.seq?_workEnds {s : State} {i : Nat} {w : Seq} (h : s.seq? i = some w) :
    ∃ y, (s.workEnds i).seq? i = some y ∧ y.next = w.next ∧ y.base = w.base ∧ y.held = w.held ∧ y.acc = w.acc :=
  ⟨_, State.seq?_setSeq_same h _, rfl, rfl, rfl, rfl⟩

/-- The state of a record that an error of the datapath has ended, its request completed. -/
def State.endDatapath (s : State) (i : Nat) (q : Seq) (req : Requester) (r : AppendRec) : State :=
  ((s.failDatapath i q r).complete req { status := .poisoned }).workEnds i

section
variable {s : State} {i : Nat} {q : Seq} (h : s.seq? i = some q) (req : Requester) (r : AppendRec)

theorem State.slc_endDatapath (s : State) (q : Seq) : (s.endDatapath i q req r).slc = s.slc := State.failDatapath_keeps.2.2.1

theorem State.outs_endDatapath (s : State) (q : Seq) :
    (s.endDatapath i q req r).outs = ((s.failDatapath i q r).complete req { status := .poisoned }).outs := State.outs_workEnds _ _

theorem State.glb_endDatapath (s : State) (q : Seq) : (s.endDatapath i q req r).glb = s.glb := s.glb_failDatapath i q r

theorem State.bit_endDatapath (s : State) (q : Seq) :
    bit ((s.endDatapath i q req r).reg (Err.xltAppUe.1 + 0x10 + xltOff i)) Err.xltAppUe.2 = true :=
  (State.speaks_complete _ req _).bits _ _ (by decide) State.failDatapath_keeps.2.2.2

include h

/-- The expected position of the layer has returned, and its accepted position stands. -/
theorem State.seq?_endDatapath : ∃ w, (s.endDatapath i q req r).seq? i = some w ∧ w.nextPos r.layer = r.pos ∧
    w.held = q.held ∧ w.accPos r.layer = q.accPos r.layer := by
  obtain ⟨w, hw, hnext, hbase, hheld, hacc⟩ := State.seq?_failDatapath (r := r) h
  obtain ⟨y, hy, hynext, hybase, hyheld, hyacc⟩ := State.seq?_workEnds
    (s := (s.failDatapath i q r).complete req { status := .poisoned }) ((State.seq?_complete _ _).trans hw)
  refine ⟨y, hy, ?_, hyheld.trans hheld, ?_⟩
  · rw [Seq.nextPos, hynext, hnext, Assoc.getD_set_same]
  · rw [Seq.accPos, hyacc, hacc, hybase, hbase, Seq.accPos]

end

/-! ### A record that is held (R83) -/

theorem State.seq?_holdRecord {s : State} {i : Nat} {z : Seq} (h : s.seq? i = some z) (req : Requester) (r : AppendRec)
    (c : HoldCause) : (s.holdRecord i req r c).seq? i =
      some { z with held := z.held ++ [{ req := req, rc := r, cause := c, since := s.now }] } := by
  unfold State.holdRecord
  extract_lets d t u
  have ht := State.seq?_setSeq_same h fun q => { q with held := q.held ++ [{ req := req, rc := r, cause := c, since := s.now }] }
  have hu : u.seq? i = t.seq? i := by
    unfold u
    split
    · rfl
    · exact t.seq?_bumpD _ _ _ _
  refine Eq.trans ?_ (hu.trans ht)
  split
  · exact u.seq?_bumpD _ _ _ _
  · exact (State.seq?_awaits _).trans (u.seq?_bumpD _ _ _ _)
  · rfl

theorem State.pwr_bumpD (s : State) (d c n : Nat) : (s.bumpD d c n).pwr = s.pwr := by
  unfold State.bumpD
  split <;> rfl

theorem State.pwr_holdRecord (s : State) (i : Nat) (req : Requester) (r : AppendRec) (c : HoldCause) :
    (s.holdRecord i req r c).pwr = s.pwr := by
  unfold State.holdRecord
  extract_lets d t u
  have hu : u.pwr = s.pwr := by
    unfold u
    split
    · rfl
    · exact t.pwr_bumpD _ _ _
  refine Eq.trans ?_ hu
  split
  · exact u.pwr_bumpD _ _ _
  · unfold State.rescaleHold State.awaits
    split <;> exact u.pwr_bumpD _ _ _
  · rfl

/-- A record that does not fit the credits has joined the pending items, and nothing has been charged. -/
theorem State.enterRecord_waits {s t : State} {i : Nat} {x : Seq} {req : Requester} {r : AppendRec} (hn : s.Notes t)
    (hw : s.waitsFirst (s.recordItem i x req r)) : (t.enterRecord i x req r).waits (.record i r.layer r.pos) = true ∧
      (t.enterRecord i x req r).pwr.spent = s.pwr.spent := by
  have hoffer := State.offer_of_waitsFirst (it := t.recordItem i x req r)
    (s := (t.setSeq i fun q => { q with next := q.next.set r.layer (r.pos + r.count) }).workStarts i) (hn.waitsFirst hw)
  rw [State.enterRecord, hoffer]
  refine ⟨?_, ?_⟩
  · exact List.any_eq_true.mpr ⟨t.recordItem i x req r, List.mem_append_right _ (List.mem_singleton_self _), beq_self_eq_true _⟩
  · exact (congrArg Pwr.spent hn.pwr :)

/-- A record that is taken, and that stands behind another or waits for its dispatch, is held. -/
theorem State.takeRecord_held {s t : State} {i : Nat} {x : Seq} {req : Requester} {r : AppendRec} (hn : s.Notes t)
    (hx : s.seq? i = some x) {c : HoldCause}
    (hc : (x.held.any fun h => h.rc.layer == r.layer) = true ∧ c = .behind ∨
      (x.held.any fun h => h.rc.layer == r.layer) = false ∧ (t.enterRecord i x req r).waits (.record i r.layer r.pos) = true ∧
        c = .credit) (ue : Bool) :
    ∃ u : State, t.takeRecord i req r ue = u ∧ u.clients = t.clients ∧ u.pwr = (t.enterRecord i x req r).pwr ∧
      u.seq? i = some { x.expecting r t.now with
        held := x.held ++ [{ req := req, rc := r, cause := c, since := (t.enterRecord i x req r).now }] } := by
  have hxt : t.seq? i = some x := (hn.seq? i).trans hx
  refine ⟨(t.enterRecord i x req r).holdRecord i req r c, ?_, ?_, ?_, ?_⟩
  · rcases hc with ⟨hh, rfl⟩ | ⟨hh, hw, rfl⟩
    · exact State.takeRecord_behind hn hx hh ue
    · rw [State.takeRecord_eq hxt, hh, if_neg Bool.false_ne_true, if_pos hw]
  · exact (State.clients_of_still (State.still_holdRecord _ _ _ _ _)).trans (t.clients_enterRecord req r i x)
  · exact State.pwr_holdRecord _ _ _ _ _
  · exact State.seq?_holdRecord (State.seq?_enterRecord hxt req r) req r c

/-- A record that is taken and dispatched, and in whose write the datapath errs, ends. -/
theorem State.takeRecord_ends {s t : State} {i : Nat} {x : Seq} {req : Requester} {r : AppendRec} (hn : s.Notes t)
    (hx : s.seq? i = some x) (hh : (x.held.any fun h => h.rc.layer == r.layer) = false) (ho : s.opensFor i x r false)
    (hr : s.runsAtOnce (s.recordItem i x req r)) :
    ∃ (u : State) (y : Seq), t.takeRecord i req r true = u.endDatapath i y req r ∧ u.seq? i = some y ∧ u.clients = t.clients ∧
      u.slc = s.slc ∧ u.glb = s.glb ∧ y.accPos r.layer = x.accPos r.layer :=
  ⟨_, _, State.takeRecord_fails hn hx hh ho (State.waits_enterRecord (hn.runsAtOnce hr)),
    State.seq?_enterRecord ((hn.seq? i).trans hx) req r, t.clients_enterRecord req r i x,
    (t.slc_enterRecord req r i x).trans hn.samePages.slc, (t.glb_enterRecord i x req r).trans hn.glb, rfl⟩

section
variable {s : State} {q : CmdRef} {c : InFlight} {inp : List Byte} {i : Nat} {x : Seq} (hoff : s.offersXlt q 0x18 c)
  (hlen : inp.length = c.inLen) (hn : s.noPlacements) (ht : s.takesRecord (s.ringDomain q) inp i x)
include hoff hlen hn ht

/-- A ring command's record that is accepted: both positions advance, and the command completes. -/
theorem exec_cmdKvAppend_accepts (hh : (x.held.any fun h => h.rc.layer == u16 inp 4) = false)
    (ho : s.opensFor i x (appendRec (s.modelOf x) inp) false)
    (hr : s.runsAtOnce (s.recordItem i x (.ring q) (appendRec (s.modelOf x) inp))) :
    ∃ t, exec (.cmdKvAppend q ⟨.bytes inp, false⟩) s = .next t ∧
      (t.seq? i).map (fun y => (y.nextPos (u16 inp 4), y.accPos (u16 inp 4)))
        = some (u32 inp 8 + u8 inp 6, u32 inp 8 + u8 inp 6) ∧ s.posts t q c .ok = true := by
  have hnotes := s.notes_noteDomain_markStarted q i (s.ringDomain q)
  obtain ⟨u, hu, hcl, -, -, z, hz, hzx⟩ := State.takeRecord_open (req := .ring q) hnotes (State.seq?_of_findSeq ht.2.1) hh ho hr
  have hidle : (u.acceptRecord i (.ring q) (appendRec (s.modelOf x) inp)).sluice = _ := State.sluice_idle _
    (State.noPlacements_of_slc (State.noPlacements_of_clients (hnotes.noPlacements hn) hcl) (u.slc_acceptRecord _ _ _))
  refine ⟨_, exec_cmdKvAppend_takes hoff hlen ht false, ?_⟩
  rw [State.cmdArrives, hu, hidle, State.seq?_afterMemIn rfl]
  exact ⟨State.seq?_acceptRecord_pos (.ring q) hz hzx, State.posts_of_started (k := {}) hoff.1
    ((u.clients_noteAccept _ _).trans (hcl.trans (State.clients_noteDomain _ _ _))) (State.outs_afterMemIn rfl) nofun nofun⟩

/-- A ring command's record in whose write the datapath errs: the expected position returns, and the command fails. -/
theorem exec_cmdKvAppend_fails (hh : (x.held.any fun h => h.rc.layer == u16 inp 4) = false)
    (ho : s.opensFor i x (appendRec (s.modelOf x) inp) false)
    (hr : s.runsAtOnce (s.recordItem i x (.ring q) (appendRec (s.modelOf x) inp))) :
    ∃ t, exec (.cmdKvAppend q ⟨.bytes inp, true⟩) s = .next t ∧
      (t.seq? i).map (fun y => (y.nextPos (u16 inp 4), y.accPos (u16 inp 4))) = some (u32 inp 8, x.accPos (u16 inp 4)) ∧
      s.posts t q c .poisoned = true ∧ bit (t.reg (Err.xltAppUe.1 + 0x10 + xltOff i)) Err.xltAppUe.2 = true := by
  obtain ⟨u, y, hu, hy, hcl, hslc, hglb, hyacc⟩ := State.takeRecord_ends (req := .ring q)
    (s.notes_noteDomain_markStarted q i (s.ringDomain q)) (State.seq?_of_findSeq ht.2.1) hh ho hr
  have hidle := State.sluice_idle (u.endDatapath i y (.ring q) (appendRec (s.modelOf x) inp))
    (State.noPlacements_of_slc hn ((u.slc_endDatapath _ _ y).trans hslc))
  refine ⟨_, exec_cmdKvAppend_takes hoff hlen ht true, ?_⟩
  rw [State.cmdArrives, hu, hidle, State.seq?_afterMemIn rfl, State.reg_afterMemIn rfl ((u.glb_endDatapath _ _ y).trans hglb)]
  refine ⟨?_, ?_, u.bit_endDatapath _ _ y⟩
  · obtain ⟨w, hw, hnext, -, hacc⟩ := State.seq?_endDatapath hy (.ring q) (appendRec (s.modelOf x) inp)
    rw [hw]
    exact congrArg some (Prod.ext hnext (hacc.trans hyacc))
  · exact State.posts_of_started (u := u.failDatapath i y (appendRec (s.modelOf x) inp)) (k := { status := .poisoned }) hoff.1
      (State.failDatapath_keeps.1.trans (hcl.trans (State.clients_noteDomain _ _ _)))
      ((State.outs_afterMemIn rfl).trans (u.outs_endDatapath _ _ y)) nofun nofun

/-- A ring command's record behind a held record of its layer is held, and the expected position advances. -/
theorem exec_cmdKvAppend_behind (hh : (x.held.any fun h => h.rc.layer == u16 inp 4) = true) (ue : Bool) :
    ∃ t, exec (.cmdKvAppend q ⟨.bytes inp, ue⟩) s = .next t ∧
      (t.seq? i).map (fun y => (y.nextPos (u16 inp 4), y.held.length)) = some (u32 inp 8 + u8 inp 6, x.held.length + 1) ∧
      (((t.seq? i).bind fun y => y.held.getLast?).any fun h =>
        h.req == .ring q && h.rc == appendRec (s.modelOf x) inp && h.cause == .behind) = true := by
  have hnotes := s.notes_noteDomain_markStarted q i (s.ringDomain q)
  have hx := State.seq?_of_findSeq ht.2.1
  obtain ⟨u, hu, hcl, -, hseq⟩ := State.takeRecord_held (req := .ring q) (r := appendRec (s.modelOf x) inp) hnotes hx (.inl ⟨hh, rfl⟩) ue
  have hidle := State.sluice_idle u (State.noPlacements_of_clients (hnotes.noPlacements hn) hcl)
  refine ⟨_, exec_cmdKvAppend_takes hoff hlen ht ue, ?_⟩
  rw [State.cmdArrives, hu, hidle, State.seq?_afterMemIn rfl, hseq]
  simp [Seq.nextPos, Seq.expecting, appendRec]

/-- A ring command's record that does not fit the credits waits for its dispatch, and nothing is charged. -/
theorem exec_cmdKvAppend_waits (hh : (x.held.any fun h => h.rc.layer == u16 inp 4) = false)
    (hw : s.waitsFirst (s.recordItem i x (.ring q) (appendRec (s.modelOf x) inp))) :
    ∃ t, exec (.cmdKvAppend q ⟨.bytes inp, false⟩) s = .next t ∧
      (t.seq? i).map (fun y => (y.nextPos (u16 inp 4), y.accPos (u16 inp 4))) = some (u32 inp 8 + u8 inp 6, x.accPos (u16 inp 4)) ∧
      t.waits (.record i (u16 inp 4) (u32 inp 8)) = true ∧
      (((t.seq? i).bind fun y => y.held.getLast?).any fun h =>
        h.req == .ring q && h.rc == appendRec (s.modelOf x) inp && h.cause == .credit) = true ∧ t.pwr.spent = s.pwr.spent := by
  have hnotes := s.notes_noteDomain_markStarted q i (s.ringDomain q)
  have hx := State.seq?_of_findSeq ht.2.1
  obtain ⟨hwaits, hspent⟩ := State.enterRecord_waits hnotes hw
  obtain ⟨u, hu, hcl, hpwr, hseq⟩ := State.takeRecord_held (req := .ring q) (r := appendRec (s.modelOf x) inp) hnotes hx
    (.inr ⟨hh, hwaits, rfl⟩) false
  have hidle := State.sluice_idle u (State.noPlacements_of_clients (hnotes.noPlacements hn) hcl)
  refine ⟨_, exec_cmdKvAppend_takes hoff hlen ht false, ?_⟩
  rw [State.cmdArrives, hu, hidle, State.seq?_afterMemIn rfl, hseq, State.waits, State.pwr_afterMemIn rfl, hpwr]
  refine ⟨?_, hwaits, ?_, hspent⟩ <;> simp [Seq.nextPos, Seq.accPos, Seq.expecting, appendRec]

end

end Sys2Proof.Machine
end

section
/-! How the first held record of a layer ends: written, stopped by an error of the datapath, or timed out (R83, R182, R183). -/

namespace Sys2Proof.Machine

/-! ### The only held record of a layer -/

section
variable {q : Seq} {layer : Nat} {h : HeldRec}

theorem Seq.layer_held (hf : q.held.filter (fun y => y.rc.layer == layer) = [h]) : h.rc.layer = layer := by
  have hmem : h ∈ q.held.filter (fun y => y.rc.layer == layer) := by rw [hf]; exact List.mem_singleton_self h
  exact eq_of_beq (List.mem_filter.mp hmem).2

theorem any_eq_false_of_filter {α : Type} {p : α → Bool} {l : List α} (h : l.filter p = []) : l.any p = false := by
  rw [List.any_eq_false]
  exact List.filter_eq_nil_iff.mp h

/-- Without the records of a layer, none of the layer is held. -/
theorem any_filter_ne (l : List HeldRec) (layer : Nat) :
    ((l.filter fun h => h.rc.layer != layer).any fun h => h.rc.layer == layer) = false := by
  rw [List.any_eq_false]
  intro h hm
  simpa using (List.mem_filter.mp hm).2

end

theorem State.glb_letGo (s : State) (i layer : Nat) : (s.letGo i layer).glb = s.glb :=
  (congrArg State.glb (s.unstalled_letGo i layer) :)

/-! ### A held record is written, or meets an error of the datapath -/

section
variable {s : State} {i n : Nat} {x : Seq} {h : HeldRec} (hs : s.serves .xlt = true) (hp : s.noPlacements) (hx : s.seq? i = some x)
  (hf : x.held.filter (fun y => y.rc.layer == n) = [h]) (hfor : s.tailForeign x n (h.rc.pos / 16) = false)
  (ho : s.opensFor i x h.rc h.before) (hw : s.waits (.record i n h.rc.pos) = false)
include hs hp hx hf hfor ho hw

omit hs in
/-- What the write of the only held record of a layer leaves: it is accepted and answered, and its stall has ended. -/
theorem State.drainHeld_accepts : ∃ u : State, (s.drainHeld i n false (x.held.length + 1)).sluice = u ∧
    (u.seq? i).map (fun y => (y.accPos n, y.held.any fun y => y.rc.layer == n)) = some (h.rc.pos + h.rc.count, false) ∧
    (u.slc.stalls.any fun z => z.who == .held i n) = false ∧
    ∃ v : State, u.outs = (v.complete h.req {}).outs ∧ v.clients = s.clients := by
  obtain ⟨v, hv, hcl, -, hstall, z, hz, hnone⟩ := State.drainHeld_writes hx hf hfor ho hw x.held.length
  have hidle := State.sluice_idle (v.acceptRecord i h.req h.rc)
    (State.noPlacements_of_slc (State.noPlacements_of_clients hp hcl) (v.slc_acceptRecord _ _ _))
  obtain ⟨w, hw', -, -, hheld, hacc⟩ := State.seq?_acceptRecord h.rc h.req hz
  refine ⟨v.acceptRecord i h.req h.rc, by rw [hv, hidle], ?_, ?_, v.noteAccept i h.rc, ?_, (v.clients_noteAccept _ _).trans hcl⟩
  · have hpos : w.accPos n = h.rc.pos + h.rc.count := by
      rw [Seq.accPos, hacc, ← Seq.layer_held hf, Assoc.getD_set_same]
    rw [hw', Option.map_some, hpos, hheld, any_eq_false_of_filter hnone]
  · rw [State.slc_acceptRecord, hstall]
  · rw [State.acceptRecord_eq, State.outs_workEnds]

variable (hb : s.mayBegin (.rescale i n) = true) (hr : s.releaseTurn (.held i n) = true)
include hb hr

theorem exec_heldRecordWrite_accepts :
    ∃ t, exec (.heldRecordWrite i ⟨n, false⟩) s = .next t ∧
      (t.seq? i).map (fun y => (y.accPos n, y.held.any fun y => y.rc.layer == n)) = some (h.rc.pos + h.rc.count, false) ∧
      ∀ q c, h.req = .ring q → s.waitsFor q c → s.posts t q c .ok = true := by
  obtain ⟨u, hu, hseq, -, v, hout, hcl⟩ := State.drainHeld_accepts hp hx hf hfor ho hw
  refine ⟨_, exec_heldRecordWrite_drains hs hb hr hx false, ?_, fun q c hq hwait => ?_⟩
  · rw [hu, State.seq?_afterMemIn rfl]
    exact hseq
  · rw [hq] at hout
    exact State.posts_of_clients (k := {}) hwait hcl ((State.outs_afterMemIn rfl).trans ((congrArg State.outs hu).trans hout)) nofun nofun

theorem exec_heldRecordWrite_fails :
    ∃ t, exec (.heldRecordWrite i ⟨n, true⟩) s = .next t ∧
      (t.seq? i).map (fun y => (y.nextPos n, y.accPos n, y.held.any fun y => y.rc.layer == n))
        = some (h.rc.pos, x.accPos n, false) ∧
      bit (t.reg (Err.xltAppUe.1 + 0x10 + xltOff i)) Err.xltAppUe.2 = true := by
  have hlayer := Seq.layer_held hf
  have hdrain : s.drainHeld i n true (x.held.length + 1) = (((s.workResumes i).letGo i n).endDatapath i (x.resumed.released n) h.req
    h.rc).failBehind i n [] := State.drainHeld_fails hx hf hfor ho hw _
  have hgone : ((s.workResumes i).letGo i n).seq? i = some (x.resumed.released n) :=
    State.seq?_letGo (State.seq?_setSeq_same hx _) n
  obtain ⟨w, hw', hnext, -, hacc⟩ := State.seq?_endDatapath hgone h.req h.rc
  have hslc := ((s.workResumes i).letGo i n).slc_endDatapath (i := i) h.req h.rc (x.resumed.released n)
  have hglb := ((s.workResumes i).letGo i n).glb_endDatapath (i := i) h.req h.rc (x.resumed.released n)
  have hbit := ((s.workResumes i).letGo i n).bit_endDatapath (i := i) h.req h.rc (x.resumed.released n)
  generalize ((s.workResumes i).letGo i n).endDatapath i (x.resumed.released n) h.req h.rc = u at *
  have hidle := State.sluice_idle (u.failBehind i n []) (State.noPlacements_of_slc
    (State.noPlacements_of_clients hp ((s.workResumes i).clients_letGo i n)) hslc)
  have hsame : (u.failBehind i n []).glb = s.glb := hglb.trans ((s.workResumes i).glb_letGo i n)
  refine ⟨_, exec_heldRecordWrite_drains hs hb hr hx true, ?_⟩
  rw [hdrain, hidle, State.seq?_afterMemIn rfl, State.reg_afterMemIn rfl hsame]
  refine ⟨?_, hbit⟩
  have hseq : (u.failBehind i n []).seq? i = some { w with held := w.held.filter fun h => h.rc.layer != n } :=
    State.seq?_setSeq_same hw' _
  have hn : w.nextPos n = h.rc.pos := hlayer ▸ hnext
  have ha : w.accPos n = x.accPos n := hlayer ▸ hacc
  rw [hseq, Option.map_some, any_filter_ne]
  exact congrArg some (Prod.ext hn (Prod.ext ha rfl))

omit hb hr in
theorem exec_stallEnd_accepts {k : Nat} {y : Stall} (hy : s.slc.stalls[k]? = some y) (hwho : y.who = .held i n)
    (hr : s.releaseTurn y.who = true) :
    ∃ t, exec (.stallEnd k) s = .next t ∧
      (t.seq? i).map (fun y => (y.accPos n, y.held.any fun y => y.rc.layer == n)) = some (h.rc.pos + h.rc.count, false) ∧
      (t.slc.stalls.any fun z => z.who == .held i n) = false := by
  obtain ⟨u, hu, hseq, hstall, -⟩ := State.drainHeld_accepts hp hx hf hfor ho hw
  have hexec : exec (.stallEnd k) s = .next (s.afterMemIn .lookup u) := by
    change execStallEnd k s = _
    rw [execStallEnd, hy]
    dsimp only
    rw [if_pos ⟨hs, hr⟩, hwho, ← hu]
    dsimp only
    rw [hx]
    rfl
  refine ⟨_, hexec, ?_, ?_⟩
  · rw [State.seq?_afterMemIn rfl]
    exact hseq
  · rw [State.slc_afterMemIn rfl]
    exact hstall

end

/-! ### A hold that reaches its limit (R83, R183) -/

/-- The state once the records of a layer are held no longer, and their first gives its position back. -/
def State.dropHeld (s : State) (i layer pos : Nat) : State :=
  (s.setSeq i fun q => { q with
    held := q.held.filter fun h => h.rc.layer != layer, next := q.next.set layer pos }).endStall (.held i layer)

section
variable {s : State} {i layer : Nat} {x : Seq} {h : HeldRec} (hx : s.seq? i = some x)
  (hf : x.held.filter (fun y => y.rc.layer == layer) = [h])
include hx hf

/-- The only held record of a layer that fails is refused alone. -/
theorem State.failHeld_eq (st rest : Status) : s.failHeld i layer st rest =
    ((s.dropHeld i layer h.rc.pos).refuseRecord x.domain i h.req layer h.rc.pos h.rc.count st).workEnds i := by
  unfold State.failHeld
  simp only [hx, hf]
  rfl

/-- What the failure of the only held record of a layer leaves. -/
theorem State.failHeld_ends (hp : s.noPlacements) (st rest : Status) : ∃ u : State, (s.failHeld i layer st rest).sluice = u ∧
    (u.seq? i).map (fun z => (z.nextPos layer, z.held.any fun z => z.rc.layer == layer)) = some (h.rc.pos, false) ∧
    (u.slc.stalls.any fun z => z.who == .held i layer) = false ∧
    ∃ v : State, u.outs = (v.complete h.req st.cpl).outs ∧ v.clients = s.clients := by
  have hcl : (s.dropHeld i layer h.rc.pos).clients = s.clients := (State.clients_of_still (State.still_endStall _ _)).trans rfl
  have hseq : (s.dropHeld i layer h.rc.pos).seq? i = some { x with
      held := x.held.filter fun h => h.rc.layer != layer, next := x.next.set layer h.rc.pos } :=
    (congrArg (fun u : State => u.seq? i) (State.unstalled_endStall _ _) :).trans (State.seq?_setSeq_same hx _)
  have hstall : ((s.dropHeld i layer h.rc.pos).slc.stalls.any fun z => z.who == .held i layer) = false := State.stalls_endStall _ _
  have hfail := State.failHeld_eq hx hf st rest
  generalize s.dropHeld i layer h.rc.pos = v at *
  have hslc := v.slc_refuseRecord x.domain i h.req layer h.rc.pos h.rc.count st
  obtain ⟨y, hy, hnext, -, hheld, -⟩ := State.seq?_workEnds ((v.seq?_refuseRecord x.domain i h.req layer h.rc.pos h.rc.count st i).trans hseq)
  refine ⟨(v.refuseRecord x.domain i h.req layer h.rc.pos h.rc.count st).workEnds i, ?_, ?_, ?_,
    v.noteRefusal x.domain i layer h.rc.pos h.rc.count st, ?_, (v.clients_noteRefusal _ _ _ _ _ _).trans hcl⟩
  · rw [hfail]
    exact State.sluice_idle _ (State.noPlacements_of_slc (State.noPlacements_of_clients hp hcl) hslc)
  · rw [hy, Option.map_some, Seq.nextPos, hnext, Assoc.getD_set_same, hheld, any_filter_ne]
  · exact (congrArg (fun c : Slc => c.stalls.any fun z => z.who == .held i layer) hslc).trans hstall
  · rw [State.outs_workEnds, State.refuseRecord_eq]

end

section
variable {s : State} {i layer : Nat} {x : Seq} {h : HeldRec} (hp : s.noPlacements) (hx : s.seq? i = some x)
  (hf : x.held.filter (fun y => y.rc.layer == layer) = [h])
include hp hx hf

/-- The stall of a held record reaches the limit. -/
theorem exec_stallTimeout_stalled {k : Nat} {y : Stall} (hy : s.slc.stalls[k]? = some y) (hwho : y.who = .held i layer)
    (hlate : y.since + s.stallLimit ≤ s.now) :
    ∃ t, exec (.stallTimeout k) s = .next t ∧
      (t.seq? i).map (fun z => (z.nextPos layer, z.held.any fun z => z.rc.layer == layer)) = some (h.rc.pos, false) ∧
      (t.slc.stalls.any fun z => z.who == .held i layer) = false ∧
      ∀ q c, h.req = .ring q → s.waitsFor q c → s.posts t q c .timeout = true := by
  have hstill : (s.stallTimedOut (.held i layer) y.domain).still = s.still :=
    (State.still_bumpD _ _ _ _).trans (s.still_endStall _)
  have hseq : (s.stallTimedOut (.held i layer) y.domain).seq? i = some x :=
    (State.seq?_bumpD _ _ _ _ _).trans ((congrArg (fun u : State => u.seq? i) (s.unstalled_endStall _) :).trans hx)
  have hcl := State.clients_of_still hstill
  have hexec : exec (.stallTimeout k) s = .next (s.afterIn .engine
      ((s.stallTimedOut (.held i layer) y.domain).failHeld i layer .timeout .order).sluice) := by
    change execStallTimeout k s = _
    rw [execStallTimeout, hy]
    dsimp only
    rw [if_pos hlate, hwho]
  obtain ⟨u, hu, hpos, hstall, v, hout, hv⟩ := State.failHeld_ends hseq hf (State.noPlacements_of_clients hp hcl) .timeout .order
  refine ⟨_, hexec, ?_, ?_, fun q c hq hwait => ?_⟩
  · rw [hu, State.seq?_afterIn rfl]
    exact hpos
  · rw [hu, State.afterIn_slc rfl]
    exact hstall
  · rw [hq] at hout
    rw [hu, State.posts_afterIn rfl]
    exact State.posts_of_clients (k := Status.timeout.cpl) hwait (hv.trans hcl) hout nofun nofun

/-- A hold without a stall reaches the limit. -/
theorem exec_stallTimeout_quiet {k since : Nat} (hk : s.slc.stalls.length ≤ k)
    (hq : s.quietHolds[k - s.slc.stalls.length]? = some (i, layer, since)) (hlate : since + s.stallLimit ≤ s.now) :
    ∃ t, exec (.stallTimeout k) s = .next t ∧
      (t.seq? i).map (fun z => (z.nextPos layer, z.held.any fun z => z.rc.layer == layer)) = some (h.rc.pos, false) := by
  have hexec : exec (.stallTimeout k) s = .next (s.afterIn .engine (s.failHeld i layer .timeout .order).sluice) := by
    change execStallTimeout k s = _
    rw [execStallTimeout, List.getElem?_eq_none hk, hq]
    dsimp only
    rw [if_pos hlate]
  obtain ⟨u, hu, hpos, -⟩ := State.failHeld_ends hx hf hp .timeout .order
  refine ⟨_, hexec, ?_⟩
  rw [hu, State.seq?_afterIn rfl]
  exact hpos

end

end Sys2Proof.Machine
end

section
/-! An answer to a request of a session: it is on its way once it has been given (R239, R241). -/

namespace Sys2Proof.Machine

/-- A session has a message of a type and body on its way. -/
def Session.tells (x : Session) (mtype : Nat) (body : List Byte) : Bool :=
  (x.copies.any fun c => c.msg.mtype == mtype && c.msg.body == body) || x.sendq.any fun q => q.2.mtype == mtype && q.2.body == body

theorem State.tells_iff (t : State) (i mtype : Nat) (body : List Byte) :
    t.tells i mtype body = (t.cwy.sessions.get? i).any fun x => x.tells mtype body := rfl

theorem State.tells_of_cwy {s t : State} (h : t.cwy = s.cwy) (i mtype : Nat) (body : List Byte) :
    t.tells i mtype body = s.tells i mtype body := by
  rw [State.tells_iff, h, State.tells_iff]

/-- The sessions, by index. -/
def State.sessions (s : State) : Assoc Nat Session := s.cwy.sessions

section
variable (s : State)

theorem State.sessions_forEach {α : Type} (l : List α) {f : α → State → State} (h : ∀ x t, (f x t).sessions = t.sessions) :
    (s.forEach l f).sessions = s.sessions := by
  induction l generalizing s with
  | nil => rfl
  | cons x xs ih => exact (ih (f x s)).trans (h x s)

theorem State.sessions_bumpD (d c n : Nat) : (s.bumpD d c n).sessions = s.sessions := congrArg Cwy.sessions (s.cwy_bumpD d c n)

theorem State.sessions_pump (p : Nat) : (s.pump p).sessions = s.sessions := by
  unfold State.pump
  extract_lets x r u
  split
  · split
    · rfl
    · exact u.sessions_forEach _ fun _ _ => rfl
  · rfl

/-- A message that waits in a port changes no session. -/
theorem State.sessions_portSend (p v l : Nat) : (s.portSend p v l).sessions = s.sessions := by
  unfold State.portSend
  extract_lets x u w
  have hw : w.sessions = s.sessions := by
    unfold w
    split <;> rfl
  split
  · rfl
  · exact (w.sessions_pump p).trans hw

variable {s} {i : Nat} {x : Session} (h : s.sessions.get? i = some x)
include h

theorem State.sessions_setSess (f : Session → Session) : (s.setSess i f).sessions.get? i = some (f x) := by
  change (s.cwy.sessions.modify i f).get? i = _
  rw [Assoc.get?_modify_same]
  exact congrArg (Option.map f) h

/-- What a message put on a port leaves of its session. -/
theorem State.sessions_transmit (p n : Nat) (r : Bool) (m : TxMsg) : ∃ y, (s.transmit i p n r m).sessions.get? i = some y ∧
    y.copies = x.copies ∧ y.sendq = x.sendq ∧ y.peerLast = x.peerLast := by
  have hx : s.cwy.sessions.get? i = some x := h
  unfold State.transmit
  rw [hx]
  dsimp only
  exact ⟨_, (congrArg (fun l : Assoc Nat Session => l.get? i) ((State.sessions_portSend _ _ _ _).trans
    (State.sessions_bumpD _ _ _ _))).trans (State.sessions_setSess h _), rfl, rfl, rfl⟩

/-- A message sent in a session is on its way. -/
theorem State.tells_cwySend (p : Nat) (m : TxMsg) : ∃ y, (s.cwySend i p m).sessions.get? i = some y ∧
    y.tells m.mtype m.body = true ∧ y.peerLast = x.peerLast := by
  have hx : s.cwy.sessions.get? i = some x := h
  unfold State.cwySend
  rw [hx]
  dsimp only
  split
  · exact ⟨_, State.sessions_setSess h _, by simp [Session.tells], rfl⟩
  · next q hq =>
    obtain ⟨y, hy, hcopies, -, hlast⟩ := State.sessions_transmit (State.sessions_setSess h fun y =>
      { y with txMsn := nextMsn x.txMsn, copies := y.copies ++ [{ msn := nextMsn x.txMsn, port := q, msg := m }] })
      q (nextMsn x.txMsn) false m
    exact ⟨y, hy, by simp [Session.tells, hcopies], hlast⟩

theorem State.replyOr_sends {c : Status} (hd : c ≠ .denied) (hs : c ≠ .stale) (p : Nat) (m : TxMsg) :
    ∃ y, (s.replyOr (some i) p m c).sessions.get? i = some y ∧ y.tells m.mtype m.body = true ∧ y.peerLast = x.peerLast := by
  have hreply : s.replyOr (some i) p m c = s.sendReply (some i) p m c := by simp [State.replyOr, hd, hs]
  rw [hreply]
  unfold State.sendReply
  extract_lets d u
  have hu : u.sessions = s.sessions := by
    unfold u
    split
    · rfl
    · exact s.sessions_bumpD _ _ _
  exact State.tells_cwySend (hu ▸ h) p m

/-- The answer to a `PAGE_READ` of a session that does not close is on its way. -/
theorem State.tells_answer (hp : x.peerLast = none) {c : Cpl} (hd : c.status ≠ .denied) (hs : c.status ≠ .stale) (p n : Nat)
    (r : Bool) (l k q : Nat) : (s.answer i p n 0x18 r l k q c).tells i 0x19 c.out = true := by
  obtain ⟨y, hy, htells, hlast⟩ := State.replyOr_sends h hd hs p { mtype := 0x19, vc := 3, retryUs := c.retryUs, body := c.out }
  have hx : s.cwy.sessions.get? i = some x := h
  have hhas : s.cwy.sessions.has i = true := by simp [Assoc.has, hx]
  have hset := State.sessions_setSess hy fun x => { x with openReqs := x.openReqs.filter (· != n) }
  generalize hu : ((s.replyOr (some i) p { mtype := 0x19, vc := 3, retryUs := c.retryUs, body := c.out } c.status).setSess i fun x =>
    { x with openReqs := x.openReqs.filter (· != n) }) = u at hset
  have hstep : u.detachStep i = u := by
    have hget : u.cwy.sessions.get? i = _ := hset
    unfold State.detachStep
    rw [hget]
    simp [hlast, hp]
  have hanswer : s.answer i p n 0x18 r l k q c = u.detachStep i := by
    unfold State.answer
    rw [hhas]
    exact congrArg (fun v : State => v.detachStep i) hu
  rw [hanswer, hstep, State.tells_iff]
  change (u.sessions.get? i).any _ = true
  rw [hset]
  exact htells

end

/-- The answer to a `PAGE_READ` is on its way once the request has completed. -/
theorem State.tells_complete {s : State} {i : Nat} {x : Session} (h : s.cwy.sessions.get? i = some x) (hp : x.peerLast = none) {m : RxMsg}
    (hm : m.head.mtype = 0x18) {c : Cpl} (hd : c.status ≠ .denied) (hs : c.status ≠ .stale) :
    (s.complete (m.requester i) c).tells i 0x19 c.out = true := by
  have hnow : s.completeNow (m.requester i) c = s.deliverCpl (m.requester i) c := by simp [State.completeNow, hd, hs]
  have hcwy : (s.complete (m.requester i) c).cwy = (s.completeNow (m.requester i) c).cwy := rfl
  rw [State.tells_of_cwy hcwy, hnow, RxMsg.requester, State.deliverCpl, hm]
  exact State.tells_answer h hp hd hs _ _ _ _ _ _

end Sys2Proof.Machine
end

section
/-! Deliveries: the last page of a `PAGE_READ` that rests in T0 (R187, R221). -/

namespace Sys2Proof.Machine

/-! ### The end of a delivery -/

/-- The state with a delivery off the list of the deliveries. -/
def State.unread (s : State) (r : PageRead) : State :=
  { s with slc := { s.slc with pageReads := s.slc.pageReads.filter fun x => x.id != r.id } }

/-- The state once a delivery has left the lists of the stores, before its request completes. -/
def State.closeRead (s : State) (r : PageRead) : State :=
  (({ s with
    slc := { s.slc with pageReads := s.slc.pageReads.filter fun x => x.id != r.id }
    pea := { s.pea with reads := s.pea.reads.filter fun x => x.move != readBase + r.id } } : State).endStall (.read r.id)).release
      r.domain r.cost

section
variable (s : State) (r : PageRead)

theorem State.endRead_eq (st : Status) (b : List Byte) : s.endRead r st b =
    if r.obj then ((s.closeRead r).complete r.req { status := st, out := b }).freeObj r.target
    else ((s.closeRead r).complete r.req { status := st, out := b }).workEnds r.target := rfl

theorem State.still_closeRead : (s.closeRead r).still = (s.unread r).still :=
  (State.still_release _ _ _).trans (State.still_endStall _ _)

theorem State.slc_release (d c : Nat) : (s.release d c).slc = s.slc := by
  unfold State.release
  dsimp only
  split <;> rfl

/-- What the end of a delivery leaves: the links as its answer leaves them, and neither the delivery nor its stall. -/
theorem State.endRead_keeps (st : Status) (b : List Byte) :
    (s.endRead r st b).still = ((s.closeRead r).complete r.req { status := st, out := b }).still := by
  rw [State.endRead_eq]
  split
  · exact State.still_freeObj _ _
  · exact State.still_workEnds _ _

theorem State.pageRead?_endRead (st : Status) (b : List Byte) : (s.endRead r st b).pageRead? r.id = none := by
  rw [State.pageRead?_of_still (s.endRead_keeps r st b)]
  have hclose : ((s.closeRead r).complete r.req { status := st, out := b }).pageRead? r.id = (s.closeRead r).pageRead? r.id := rfl
  rw [hclose, State.pageRead?_of_still (s.still_closeRead r)]
  simp [State.unread, State.pageRead?]

theorem State.noPlacements_endRead (st : Status) (b : List Byte) (h : s.noPlacements) : (s.endRead r st b).noPlacements := by
  refine State.noPlacements_of_clients ?_ (State.clients_of_still (s.endRead_keeps r st b))
  refine State.noPlacements_of_slc (s := s.closeRead r) ?_ (State.complete_slc _ _ _)
  exact State.noPlacements_of_clients (s := s.unread r) h (State.clients_of_still (s.still_closeRead r))

theorem State.linksCalm_endRead (st : Status) (b : List Byte) (h : s.linksCalm) : (s.endRead r st b).linksCalm := by
  refine State.linksCalm_of_still (s.endRead_keeps r st b) ((State.speaks_complete _ _ _).linksCalm ?_)
  exact State.linksCalm_of_still (s := s.unread r) (s.still_closeRead r) h

/-- The stall of a delivery of a sequence ends with it. -/
theorem State.stalls_endRead (st : Status) (b : List Byte) (ho : r.obj = false) :
    ((s.endRead r st b).slc.stalls.any fun z => z.who == .read r.id) = false := by
  rw [State.endRead_eq, ho, if_neg Bool.false_ne_true]
  change ((s.closeRead r).slc.stalls.any fun z => z.who == .read r.id) = false
  rw [State.closeRead, State.slc_release]
  exact State.stalls_endStall _ _

/-- The answer of a delivery to a session that does not close is on its way. -/
theorem State.tells_endRead {i : Nat} {y : Session} (hy : s.cwy.sessions.get? i = some y) (hp : y.peerLast = none) {m : RxMsg}
    (hm : m.head.mtype = 0x18) (hr : r.req = m.requester i) {st : Status} (hd : st ≠ .denied) (hs : st ≠ .stale) (b : List Byte) :
    (s.endRead r st b).tells i 0x19 b = true := by
  rw [State.tells_of_cwy (State.cwy_of_still (s.endRead_keeps r st b)), hr]
  refine State.tells_complete (c := { status := st, out := b }) ?_ hp hm hd hs
  rw [State.cwy_of_still (s.still_closeRead r)]
  exact hy

theorem State.failPages_last (st : Status) (h : r.next + 1 = r.count) : s.failPages r st =
    s.endRead r st (pageData r.tag st 0 r.next (r.page + r.next) []) := by
  have hnone : ((List.range r.count).filter fun k => decide (r.next ≤ k)).filter (fun k => decide (k + 1 < r.count)) = [] := by
    rw [List.filter_eq_nil_iff]
    intro k hk
    have hle : r.next ≤ k := by simpa using (List.mem_filter.mp hk).2
    simp only [decide_eq_true_eq]
    omega
  have hlast : r.count - 1 = r.next := by omega
  unfold State.failPages
  dsimp only
  rw [hnone, hlast]
  rfl

theorem State.deliverPage_last (n : Nat) (b : List Byte) (h : r.next + 1 = r.count) : s.deliverPage r n b =
    s.endRead r .ok (pageData r.tag .ok n r.next (r.page + r.next) b) := by
  unfold State.deliverPage
  dsimp only
  rw [if_neg (by omega)]

/-- A delivery that has been dispatched, and whose next page ends it, ends. -/
theorem State.pumpRead_ends {s : State} {r : PageRead} {id n : Nat} (h : s.pageRead? id = some r) (hw : s.waits (.read id) = false)
    {t : State} (ht : (if r.obj then s.objPage r else s.seqPage r) = t) (hend : t.pageRead? id = none) : s.pumpRead id (n + 1) = t := by
  subst ht
  unfold State.pumpRead
  simp only [h, hw, Bool.false_eq_true, if_false, hend]

end

/-! ### The last page of a sequence -/

section
variable {s : State} {r : PageRead} {x : Seq} {e : Pte} (hd : s.deliverable r x e) (hl : r.next + 1 = r.count)
include hd hl

/-- The last page of a delivery of a sequence, at rest in T0, ends the delivery: with its bytes, or poisoned by its medium. -/
theorem State.seqPage_last : ∃ (w : State) (st : Status) (b : List Byte), s.seqPage r = w.endRead r st b ∧ w.still = s.still ∧
    ((r.media.bad.any fun y => y.1 == r.next) = false → st = .ok ∧ b = pageData r.tag .ok e.fill r.next (r.page + r.next)
      (s.deliverBytes (s.modelOf x)
        (((s.frame? (e.frame r.target r.layer r.hg (r.page + r.next))).map FrameInfo.home).getD e.home))) ∧
    ((r.media.bad.any fun y => y.1 == r.next) = true → st = .poisoned ∧
      b = pageData r.tag .poisoned 0 r.next (r.page + r.next) []) := by
  obtain ⟨hx, hlayer, hhg, he, hfor, hpois, hmeta, hrest⟩ := hd
  have hpage : s.seqPage r =
      if r.media.bad.any fun y => y.1 == r.next then
        (((s.endStall (.read r.id)).tierUe
          (((s.frame? (e.frame r.target r.layer r.hg (r.page + r.next))).map FrameInfo.home).getD e.home)).raisePoison
            (e.frame r.target r.layer r.hg (r.page + r.next)) |>.poisonSeq r.target).failPages r .poisoned
      else (s.endStall (.read r.id)).deliverPage r e.fill (s.deliverBytes (s.modelOf x)
        (((s.frame? (e.frame r.target r.layer r.hg (r.page + r.next))).map FrameInfo.home).getD e.home)) := by
    have haway : (s.firstOut (e.metaPath r.target r.layer r.hg (r.page + r.next))).isSome = false := by
      rw [Option.isNone_iff_eq_none.mp hmeta]
      rfl
    unfold State.seqPage
    simp only [hx, hlayer, hhg, and_self, if_true, he, hfor, hpois, haway, hrest, Bool.false_eq_true, if_false, Bool.not_true,
      Bool.or_false]
  rw [hpage]
  cases hbad : r.media.bad.any fun y => y.1 == r.next
  case false =>
    rw [if_neg Bool.false_ne_true, State.deliverPage_last _ _ _ _ hl]
    exact ⟨_, _, _, rfl, s.still_endStall _, fun _ => ⟨rfl, rfl⟩, nofun⟩
  case true =>
    rw [if_pos rfl, State.failPages_last _ _ _ hl]
    exact ⟨_, _, _, rfl, by simp, nofun, fun _ => ⟨rfl, rfl⟩⟩

end

end Sys2Proof.Machine
end

section
/-! `PAGE_READ`, and the end of a stalled delivery (R182, R187, R221, R241). -/

namespace Sys2Proof.Machine

/-! ### Raw blocks of T0 (R221) -/

theorem flatten_chunks {α : Type} (n k : Nat) (l : List α) : (chunks n k l).flatten = l.take (n * k) := by
  induction k generalizing l with
  | zero => simp [chunks]
  | succ k ih => rw [chunks, List.flatten_cons, ih, Nat.mul_succ, Nat.add_comm, List.take_add]

theorem length_of_mem_chunks {α : Type} {n k : Nat} {l b : List α} (h : b ∈ chunks n k l) : b.length ≤ n := by
  induction k generalizing l with
  | zero => cases h
  | succ k ih =>
    rcases List.mem_cons.mp h with rfl | h
    · exact List.length_take_le _ _
    · exact ih h

section
variable {s : State} {h : Home} {n page : Nat} {media : MediaRead} (ht : h.tier = 0)
  (hwire : ∀ k < n, s.wireAt (placeAt h k) = none) (hbad : (media.bad.any fun y => y.1 == page) = false)
  (halt : (media.altered.any fun y => y.1.1 == page) = false)
include ht hwire hbad halt

/-- A raw block of T0 that its medium leaves sound is read as it is stored. -/
theorem State.readBlock_raw {k : Nat} (hk : k < n) {b : List Byte} (hb : b.length ≤ 4096) :
    s.readBlock h (4096 * n) b media page k = .raw b false := by
  have hgot : media.altered.find? (fun x => x.1 == (page, k)) = none := by
    refine List.find?_eq_none.mpr fun x hx hk => ?_
    rw [List.any_eq_false] at halt
    exact halt x hx (by simp [eq_of_beq hk])
  have hsound : media.bad.contains (page, k) = false := by
    refine Bool.eq_false_iff.mpr fun hc => ?_
    rw [List.any_eq_false] at hbad
    exact hbad (page, k) (List.contains_iff_mem.mp hc) (beq_self_eq_true page)
  have hlen : blockLen h.tier (4096 * n) k = 4096 := by
    rw [blockLen, ht, if_neg (by decide)]
    omega
  unfold State.readBlock
  rw [hgot, hwire k hk, hsound, hlen]
  exact congrArg (fun d => BlockRead.raw d false) (List.take_of_length_le hb)

theorem State.readBlocks_raw (d : Nat) (l : List Byte) :
    s.readBlocks d h (4096 * n) l media page = ((chunks 4096 n l).map fun b => .raw b false, s) := by
  have hn : ceilDiv (4096 * n) 4096 = n := by
    rw [ceilDiv, if_neg (by decide)]
    omega
  have hmap : (chunks 4096 n l).zipIdx.map (fun x => s.readBlock h (4096 * n) x.1 media page x.2)
      = (chunks 4096 n l).zipIdx.map fun x => BlockRead.raw x.1 false := by
    refine List.map_congr_left fun x hx => ?_
    have hmem := List.mem_zipIdx hx
    rw [length_chunks] at hmem
    exact State.readBlock_raw ht hwire hbad halt (by omega) (length_of_mem_chunks (List.fst_mem_of_mem_zipIdx hx))
  unfold State.readBlocks
  simp only [hn, ht, if_true, hmap]
  conv_rhs => rw [← List.zipIdx_map_fst 0 (chunks 4096 n l), List.map_map]
  rfl

end

/-! ### The last page of an object -/

/-- The next page of a delivery of an object rests in T0, in its raw form, and its medium reads it soundly. -/
structure State.ObjRests (s : State) (r : PageRead) (o : Obj) (e : Pte) : Prop where
  obj : s.xlt.objs.get? r.target = some o
  page : o.map.get? (r.page + r.next) = some e
  domain : e.domain = r.domain
  near : (s.firstOut (tablePath (.obj r.target) (r.page + r.next))).isNone = true
  sound : e.poison = false
  tables : ((tablePath (.obj r.target) (r.page + r.next)).any s.metaPoison) = false
  plain : s.xlt.metas.has (.obj r.target (r.page + r.next)) = false
  t0 : e.home.tier = 0
  unpacked : ∀ k < 2 ^ o.fc, s.wireAt (placeAt e.home k) = none
  good : (r.media.bad.any fun y => y.1 == r.next) = false
  unaltered : (r.media.altered.any fun y => y.1.1 == r.next) = false

theorem State.length_frameBytes (s : State) (h : Home) (o n : Nat) : (s.frameBytes h o n).length = n := by
  simp [State.frameBytes, State.memRead]

section
variable {s t : State} {r : PageRead} {o : Obj} {e : Pte} (h : s.ObjRests r o e)
include h

/-- Where a page rests does not depend on budgets. -/
theorem State.ObjRests.of_unbudgeted (k : t.unbudgeted = s.unbudgeted) : t.ObjRests r o e := by
  have hpages := State.samePages_of_unbudgeted k
  have hpoison : t.metaPoison = s.metaPoison := funext fun f => by rw [State.metaPoison, hpages.metas, State.metaPoison]
  have hwire : t.wireAt = s.wireAt := funext fun p => by
    rw [State.wireAt, hpages.pea, show t.sdg = s.sdg from (congrArg State.sdg k :), State.wireAt]
  obtain ⟨obj, page, domain, near, sound, tables, plain, t0, unpacked, good, unaltered⟩ := h
  exact ⟨hpages.objs ▸ obj, page, domain, (hpages.firstOut _).symm ▸ near, sound, hpoison ▸ tables, hpages.metas ▸ plain, t0,
    hwire ▸ unpacked, good, unaltered⟩

/-- The last page of a delivery of an object, at rest in T0, ends the delivery with its bytes. -/
theorem State.objPage_last (hl : r.next + 1 = r.count) : ∃ w : State, s.objPage r = w.endRead r .ok (pageData r.tag .ok 0 r.next
    (r.page + r.next) (s.frameBytes e.home 0 (4096 * 2 ^ o.fc))) ∧ w.still = s.still := by
  obtain ⟨hobj, hpage, hdom, hnear, hsound, htables, hplain, ht0, hwire, hgood, haltered⟩ := h
  have haway : (s.firstOut (tablePath (.obj r.target) (r.page + r.next))).isSome = false := by
    rw [Option.isNone_iff_eq_none.mp hnear]
    rfl
  have hanswers : s.answers e.home = true := by
    rw [State.answers, ht0]
    rfl
  have hobjPage : s.objPage r = (s.endStall (.read r.id)).deliverObj r e.home (4096 * 2 ^ o.fc) [] := by
    unfold State.objPage
    simp [hobj, hpage, hdom, haway, hsound, htables, ht0, hanswers]
  have hstill := s.still_endStall (.read r.id)
  have hbytes : (s.endStall (.read r.id)).storedAt (.obj r.target (r.page + r.next)) e.home (4096 * 2 ^ o.fc) [] =
      s.frameBytes e.home 0 (4096 * 2 ^ o.fc) := by
    have hxlt : (s.endStall (.read r.id)).xlt = s.xlt := (congrArg State.xlt (s.unstalled_endStall _) :)
    rw [State.storedAt, ht0]
    change (if (s.endStall (.read r.id)).xlt.metas.has _ then _ else _) = _
    rw [hxlt, hplain, if_neg Bool.false_ne_true]
    simp only [State.frameBytes, State.memRead, State.mem_of_still hstill]
  have hwires : ∀ k < 2 ^ o.fc, (s.endStall (.read r.id)).wireAt (placeAt e.home k) = none := fun k hk => by
    rw [← hwire k hk]
    exact (congrArg (fun u : State => u.wireAt (placeAt e.home k)) (s.unstalled_endStall _) :)
  have hread := State.readBlocks_raw (d := r.domain) ht0 hwires hgood haltered (s.frameBytes e.home 0 (4096 * 2 ^ o.fc))
  rw [← hbytes] at hread
  have hdata : (((chunks 4096 (2 ^ o.fc) (s.frameBytes e.home 0 (4096 * 2 ^ o.fc))).map fun b => BlockRead.raw b false).flatMap
      BlockRead.data) = s.frameBytes e.home 0 (4096 * 2 ^ o.fc) := by
    rw [List.flatMap_map]
    change (chunks 4096 (2 ^ o.fc) _).flatMap id = _
    rw [List.flatMap_id, flatten_chunks, List.take_of_length_le (s.length_frameBytes _ _ _).le]
  have hclean : ((chunks 4096 (2 ^ o.fc) (s.frameBytes e.home 0 (4096 * 2 ^ o.fc))).map fun b => BlockRead.raw b false).any
      BlockRead.poison = false := by simp [BlockRead.poison]
  refine ⟨s.endStall (.read r.id), ?_, hstill⟩
  rw [hobjPage, State.deliverObj]
  dsimp only
  rw [hread, hbytes, hclean, if_neg Bool.false_ne_true, hdata, State.deliverPage_last _ _ _ _ hl]

end

/-! ### A `PAGE_READ` that is accepted -/

/-- The delivery that a `PAGE_READ` asks for. -/
def State.newRead (s : State) (req : Requester) (d : Nat) (b : List Byte) (media : MediaRead) (obj : Bool) (target : Nat) : PageRead :=
  { id := s.slc.nextRead, media := media, req := req, domain := d, obj := obj, target := target, layer := u16 b 6, hg := u8 b 5
    page := u32 b 8, count := u16 b 12, tag := u32 b 16, cost := s.readCost b d }

/-- The state with a delivery on the list. -/
def State.noteRead (s : State) (x : PageRead) : State :=
  { s with slc := { s.slc with pageReads := s.slc.pageReads ++ [x], nextRead := x.id + 1 } }

/-- The state once a delivery has been admitted and offered to the scheduler. -/
def State.enterRead (s : State) (x : PageRead) : State :=
  ((s.admitWork x.domain x.cost).noteRead x).offer (s.readItem x.domain x.cost x.id)

theorem State.startRead_eq (s : State) (req : Requester) (d : Nat) (b : List Byte) (media : MediaRead) (obj : Bool) (target : Nat) :
    s.startRead req d b media obj target =
      (if obj then s.enterRead (s.newRead req d b media obj target)
        else (s.enterRead (s.newRead req d b media obj target)).workStarts target).pumpRead s.slc.nextRead 65 := rfl

section
variable {s : State} {x : PageRead}

theorem State.unbudgeted_enterRead (s : State) (x : PageRead) : (s.enterRead x).unbudgeted = (s.noteRead x).unbudgeted :=
  State.unbudgeted_offer _ _

/-- An admission leaves the shaper of every domain. -/
theorem State.shaper_admitWork (s : State) (d c e : Nat) : ((s.admitWork d c).budget e).rate = (s.budget e).rate ∧
    ((s.admitWork d c).budget e).bucket = (s.budget e).bucket := by
  by_cases he : e = d
  · subst he
    simp [State.admitWork, State.setBudget, State.budget]
  · simp [State.admitWork, State.setBudget, State.budget, Assoc.getD_set_other _ _ _ _ _ he]

/-- Work that runs at once still does so once its cost has been admitted. -/
theorem State.runsAtOnce_admitWork {it : Item} (h : s.runsAtOnce it) (d c : Nat) (x : PageRead) :
    ((s.admitWork d c).noteRead x).runsAtOnce it := by
  obtain ⟨hrate, hbucket⟩ := s.shaper_admitWork d c it.domain
  have hfits : ((s.admitWork d c).noteRead x).fitsItem it = s.fitsItem it := by
    change ((decide (((s.admitWork d c).budget it.domain).rate = 0) || decide (0 < ((s.admitWork d c).budget it.domain).bucket)) && _
      && _ && _ && _ && _) = _
    rw [hrate, hbucket]
    rfl
  rcases h with hlive | ⟨hnone, hfit, hparts⟩
  · exact .inl hlive
  · exact .inr ⟨hnone, hfits.trans hfit, hparts⟩

theorem State.waits_enterRead (h : s.runsAtOnce (s.readItem x.domain x.cost x.id)) : (s.enterRead x).waits (.read x.id) = false :=
  State.waits_offer_of_runsAtOnce (State.runsAtOnce_admitWork h _ _ x) rfl rfl rfl

theorem State.pageRead?_noteRead (h : (s.slc.pageReads.any fun r => r.id == x.id) = false) :
    (s.noteRead x).pageRead? x.id = some x := by
  have hnone : s.slc.pageReads.find? (fun r => r.id == x.id) = none := by
    rw [List.any_eq_false] at h
    exact List.find?_eq_none.mpr h
  simp [State.pageRead?, State.noteRead, List.find?_append, hnone]

theorem State.still_enterRead (s : State) (x : PageRead) : (s.enterRead x).still = (s.noteRead x).still :=
  (congrArg State.still (s.unbudgeted_enterRead x) :)

/-- A `PAGE_READ` that is dispatched at once, and whose first page ends its delivery, ends. -/
theorem State.startRead_ends {req : Requester} {d target : Nat} {b : List Byte} {media : MediaRead} {obj : Bool}
    (hnew : (s.slc.pageReads.any fun r => r.id == s.slc.nextRead) = false)
    (hruns : s.runsAtOnce (s.readItem d (s.readCost b d) s.slc.nextRead)) (hx : x = s.newRead req d b media obj target) {w : State}
    {st : Status} {body : List Byte} (hw : (if obj then (s.enterRead x).objPage x else ((s.enterRead x).workStarts target).seqPage x)
      = w.endRead x st body) : s.startRead req d b media obj target = w.endRead x st body := by
  have hend : (w.endRead x st body).pageRead? x.id = none := w.pageRead?_endRead x st body
  obtain ⟨hid, hdom, hcost, hobj⟩ : x.id = s.slc.nextRead ∧ x.domain = d ∧ x.cost = s.readCost b d ∧ x.obj = obj := by
    rw [hx]
    exact ⟨rfl, rfl, rfl, rfl⟩
  have hread : (s.enterRead x).pageRead? x.id = some x := by
    rw [State.pageRead?_of_still (s.still_enterRead x)]
    exact State.pageRead?_noteRead (by rwa [hid])
  have hwaits : (s.enterRead x).waits (.read x.id) = false := State.waits_enterRead (by rwa [hid, hdom, hcost])
  rw [State.startRead_eq, ← hx, ← hid]
  cases obj
  · rw [if_neg Bool.false_ne_true] at hw ⊢
    have hstarted : ((s.enterRead x).workStarts target).pageRead? x.id = some x :=
      (State.pageRead?_of_still (State.still_workStarts _ _) _).trans hread
    refine State.pumpRead_ends hstarted hwaits ?_ hend
    rw [hobj, if_neg Bool.false_ne_true, hw]
  · rw [if_pos rfl] at hw ⊢
    refine State.pumpRead_ends hread hwaits ?_ hend
    rw [hobj, if_pos rfl, hw]

end

end Sys2Proof.Machine
end

section
/-! Appends and deliveries, as the requesters see them end. -/

namespace Sys2Proof.Machine

/-! ### A delivery of one page -/

/-- The next page of a delivery of a sequence stays deliverable while the pages stand. -/
theorem State.SamePages.deliverable {s t : State} (h : s.SamePages t) {r : PageRead} {x : Seq} {e : Pte} (hd : s.deliverable r x e) :
    ∃ y, t.deliverable r y e ∧ t.modelOf y = s.modelOf x := by
  obtain ⟨hx, hlayer, hhg, he, hfor, hpois, hmeta, hrest⟩ := hd
  have hpages := h.seqs r.target
  rw [hx, Option.map_some] at hpages
  obtain ⟨y, hy, hyx⟩ := Option.map_eq_some_iff.mp hpages
  obtain ⟨hptes, hdom, hmod⟩ : y.ptes = x.ptes ∧ y.domain = x.domain ∧ y.model = x.model := by simpa [Seq.pages] using hyx
  have hmodel : t.modelOf y = s.modelOf x := by rw [h.modelOf, State.modelOf, hdom, hmod, State.modelOf]
  have hmetas : t.metaPoison = s.metaPoison := funext fun f => by rw [State.metaPoison, h.metas, State.metaPoison]
  have hmoves : t.inT0 (e.frame r.target r.layer r.hg (r.page + r.next)) = s.inT0 (e.frame r.target r.layer r.hg (r.page + r.next)) := by
    rw [State.inT0, h.frame?, h.moveOf, State.inT0]
  refine ⟨y, ⟨hy, hmodel ▸ hlayer, hmodel ▸ hhg, hptes ▸ he, ?_, ?_, ?_, hmoves.trans hrest⟩, hmodel⟩
  · rw [← hfor, State.foreignPte, h.bds, State.foreignPte]
  · rw [← hpois, State.pagePoison, h.frame?, hmetas, State.pagePoison]
  · rw [h.firstOut]
    exact hmeta

theorem State.cwy_afterIn {s u : State} {c : Scope} (h : c.cwy = true) : (s.afterIn c u).cwy = u.cwy := by
  simp only [State.afterIn, State.after_cwy, State.only, h, cond_true]

theorem State.obj_of_findObj {s : State} {d h n : Nat} {o : Obj} (hf : s.findObj d h = .ok (n, o)) : s.xlt.objs.get? n = some o := by
  unfold State.findObj at hf
  extract_lets j named at hf
  split at hf
  · next y hy =>
    split at hf
    · obtain ⟨rfl, rfl⟩ := Prod.mk.inj (Except.ok.inj hf)
      exact hy
    · cases hf
  · split at hf <;> cases hf

/-- A message that a state takes has the type asked for. -/
theorem State.mtype_of_takes {s : State} {m : RxMsg} {n : Nat} (h : s.takes m n = true) : m.head.mtype = n := by
  simp only [State.takes, Bool.and_eq_true, decide_eq_true_eq] at h
  exact h.1.1.2

section
variable {s u : State} {m : RxMsg} {b : MediaRead} {i : Nat} (ht : s.takes m 0x18 = true)
  (hpass : (s.receive m (some (State.readCost m.body))).2 = .pass i) (hu : u = (s.receive m (some (State.readCost m.body))).1)
  (hs : u.serves .xlt = true)
include ht hpass hu hs

/-- A `PAGE_READ` that is received is checked. -/
theorem exec_pageRead_arrives : exec (.pageRead ⟨m, b⟩) s = .next (s.afterIn .lookup (s.cwyFollow
    (u.readArrives (m.requester i) (u.domainOf (m.requester i)) m.body b).sluice)) := by
  have hrec : s.receive m (some (State.readCost m.body)) = (u, .pass i) := Prod.ext hu.symm hpass
  change execPageRead ⟨m, b⟩ s = _
  rw [execPageRead, if_pos ht, hrec]
  dsimp only
  rw [State.gate_of_serves hs]
  rfl

variable (hpeer : (u.cwy.sessions.get? i).map Session.peerLast = some none) (hc : u.linksCalm) (hn : u.noPlacements)
include hpeer hc hn

/-- A `PAGE_READ` whose delivery ends at once is answered with its last page. -/
theorem exec_pageRead_tells {x r : PageRead} {w : State} {st : Status} {body : List Byte}
    (harr : u.readArrives (m.requester i) (u.domainOf (m.requester i)) m.body b = w.endRead r st body)
    (hw : w.still = (u.noteRead x).still) (hr : r.req = m.requester i) (hd : st ≠ .denied) (hst : st ≠ .stale) :
    ∃ t, exec (.pageRead ⟨m, b⟩) s = .next t ∧ t.tells i 0x19 body = true := by
  obtain ⟨y, hy, hyp⟩ := Option.map_eq_some_iff.mp hpeer
  have hidle := State.sluice_idle (w.endRead r st body) (w.noPlacements_endRead r st body
    (State.noPlacements_of_clients (s := u.noteRead x) hn (State.clients_of_still hw)))
  have hcalm := w.linksCalm_endRead r st body (State.linksCalm_of_still (s := u.noteRead x) hw hc)
  have htells := w.tells_endRead r (by rw [State.cwy_of_still hw]; exact hy) hyp (State.mtype_of_takes ht) hr hd hst body
  refine ⟨_, exec_pageRead_arrives ht hpass hu hs, ?_⟩
  rw [harr, hidle]
  generalize w.endRead r st body = v at *
  rw [State.tells_of_cwy ((State.cwy_afterIn rfl).trans (State.cwy_cwyFollow s hcalm))]
  exact htells

variable (hshape : pageReadShape m.body = true) (hone : u16 m.body 12 = 1)
  (hnew : (u.slc.pageReads.any fun r => r.id == u.slc.nextRead) = false)
  (hruns : u.runsAtOnce (u.readItem (u.domainOf (m.requester i)) (State.readCost m.body u (u.domainOf (m.requester i))) u.slc.nextRead))
include hshape hone hnew hruns

/-- A `PAGE_READ` of an object's page that rests in T0 is answered with the page. -/
theorem exec_pageRead_object {n : Nat} {o : Obj} {e : Pte} (hk : u8 m.body 4 = 1)
    (hf : u.findObj (u.domainOf (m.requester i)) (u32 m.body 0) = .ok (n, o)) (hrel : o.releasing = false) (hseal : o.isSealed = true)
    (hrests : u.ObjRests (u.newRead (m.requester i) (u.domainOf (m.requester i)) m.body b true n) o e) :
    ∃ t, exec (.pageRead ⟨m, b⟩) s = .next t ∧
      t.tells i 0x19 (pageData (u32 m.body 16) .ok 0 0 (u32 m.body 8) (u.frameBytes e.home 0 (4096 * 2 ^ o.fc))) = true := by
  obtain ⟨x, hx⟩ : ∃ x, x = u.newRead (m.requester i) (u.domainOf (m.requester i)) m.body b true n := ⟨_, rfl⟩
  have hnote : (u.noteRead x).ObjRests x o e := by
    rw [← hx] at hrests
    exact ⟨hrests.obj, hrests.page, hrests.domain, hrests.near, hrests.sound, hrests.tables, hrests.plain, hrests.t0, hrests.unpacked,
      hrests.good, hrests.unaltered⟩
  have hbud := u.unbudgeted_enterRead x
  obtain ⟨w, hw, hwstill⟩ := State.objPage_last (hnote.of_unbudgeted hbud) (by rw [hx]; exact hone.symm)
  rw [(State.samePages_of_unbudgeted hbud).frameBytes] at hw
  have harr : u.readArrives (m.requester i) (u.domainOf (m.requester i)) m.body b = w.endRead x .ok (pageData x.tag .ok 0 x.next
      (x.page + x.next) ((u.noteRead x).frameBytes e.home 0 (4096 * 2 ^ o.fc))) := by
    rw [State.readArrives, hshape, hk, hf]
    dsimp only
    rw [hrel, hseal]
    exact State.startRead_ends hnew hruns hx hw
  have htells := exec_pageRead_tells ht hpass hu hs hpeer hc hn harr (hwstill.trans (u.still_enterRead x)) (by rw [hx]; rfl) nofun nofun
  rw [hx] at htells
  exact htells

/-- A `PAGE_READ` of a sequence's page that rests in T0 is answered with the page, or with poison where its medium cannot
correct it. -/
theorem exec_pageRead_sequence {n : Nat} {q : Seq} {e : Pte} (hk : u8 m.body 4 = 0)
    (hf : u.findSeq (u.domainOf (m.requester i)) (u32 m.body 0) = .ok (n, q)) (hlive : q.st = .idle ∨ q.st = .active)
    (hdel : u.deliverable (u.newRead (m.requester i) (u.domainOf (m.requester i)) m.body b false n) q e) :
    ∃ t, exec (.pageRead ⟨m, b⟩) s = .next t ∧
      ((b.bad.any fun y => y.1 == 0) = false → ((u.frame? (e.frame n (u16 m.body 6) (u8 m.body 5) (u32 m.body 8))).all fun v =>
        t.tells i 0x19 (pageData (u32 m.body 16) .ok e.fill 0 (u32 m.body 8) (u.deliverBytes (u.modelOf q) v.home))) = true) ∧
      ((b.bad.any fun y => y.1 == 0) = true → t.tells i 0x19 (pageData (u32 m.body 16) .poisoned 0 0 (u32 m.body 8) []) = true) := by
  obtain ⟨x, hx⟩ : ∃ x, x = u.newRead (m.requester i) (u.domainOf (m.requester i)) m.body b false n := ⟨_, rfl⟩
  have hpages : (u.noteRead x).SamePages ((u.enterRead x).workStarts n) :=
    (State.samePages_of_unbudgeted (u.unbudgeted_enterRead x)).trans (State.samePages_workStarts _ _)
  obtain ⟨y, hy, hmod⟩ := hpages.deliverable (r := x) (x := q) (e := e) (hx ▸ hdel)
  obtain ⟨w, st, body, hw, hwstill, hgood, hbad⟩ := State.seqPage_last hy (by rw [hx]; exact hone.symm)
  have hst : st = .ok ∨ st = .poisoned := by
    cases hb : x.media.bad.any fun y => y.1 == x.next
    · exact .inl (hgood hb).1
    · exact .inr (hbad hb).1
  have harr : u.readArrives (m.requester i) (u.domainOf (m.requester i)) m.body b = w.endRead x st body := by
    have hopen : q.st ≠ .draining := by rcases hlive with h | h <;> simp [h]
    rw [State.readArrives, hshape, hk, hf]
    dsimp only
    rw [if_neg hopen]
    exact State.startRead_ends hnew hruns hx hw
  obtain ⟨t, hexec, htells⟩ := exec_pageRead_tells ht hpass hu hs hpeer hc hn harr
    (hwstill.trans ((State.still_workStarts _ _).trans (u.still_enterRead x))) (by rw [hx]; rfl)
    (by rcases hst with rfl | rfl <;> nofun) (by rcases hst with rfl | rfl <;> nofun)
  refine ⟨t, hexec, fun hb => ?_, fun hb => ?_⟩
  · obtain ⟨rfl, rfl⟩ := hgood (by rw [hx]; exact hb)
    refine (Option.all_eq_true _ _).mpr fun v hv => ?_
    have hframe : ((u.enterRead x).workStarts n).frame? (e.frame x.target x.layer x.hg (x.page + x.next)) = some v := by
      rw [hpages.frame?, hx]
      exact hv
    have hbytes : ((u.enterRead x).workStarts n).deliverBytes (((u.enterRead x).workStarts n).modelOf y) v.home
        = u.deliverBytes (u.modelOf q) v.home := by
      rw [hmod]
      exact hpages.frameBytes _ _ _
    rw [hframe, Option.map_some, Option.getD_some, hbytes, hx] at htells
    exact htells
  · obtain ⟨rfl, rfl⟩ := hbad (by rw [hx]; exact hb)
    rw [hx] at htells
    exact htells

end

/-- A stalled delivery whose last page has reached T0 ends. -/
theorem exec_stallEnd_delivers {s : State} {n : Nat} {y : Stall} {r : PageRead} {x : Seq} {e : Pte} (hs : s.serves .xlt = true)
    (hn : s.noPlacements) (hy : s.slc.stalls[n]? = some y) (hwho : y.who = .read r.id) (hturn : s.releaseTurn y.who = true)
    (hr : s.pageRead? r.id = some r) (ho : r.obj = false) (hl : r.next + 1 = r.count) (hd : s.deliverable r x e)
    (hw : s.waits (.read r.id) = false) :
    ∃ t, exec (.stallEnd n) s = .next t ∧ t.pageRead? r.id = none ∧ (t.slc.stalls.any fun z => z.who == .read r.id) = false := by
  obtain ⟨w, st, body, hpage, hstill, -, -⟩ := State.seqPage_last hd hl
  have hend := w.pageRead?_endRead r st body
  have hstall := w.stalls_endRead r st body ho
  have hidle := State.sluice_idle (w.endRead r st body) (w.noPlacements_endRead r st body
    (State.noPlacements_of_clients hn (State.clients_of_still hstill)))
  have hpump : s.pumpRead r.id 65 = w.endRead r st body := State.pumpRead_ends hr hw (by rw [ho, if_neg Bool.false_ne_true, hpage]) hend
  have hexec : exec (.stallEnd n) s = .next (s.afterMemIn .lookup (s.pumpRead r.id 65).sluice) := by
    change execStallEnd n s = _
    rw [execStallEnd, hy]
    dsimp only
    rw [if_pos ⟨hs, hturn⟩, hwho]
  refine ⟨_, hexec, ?_⟩
  rw [hpump, hidle, State.pageRead?, State.slc_afterMemIn rfl]
  exact ⟨hend, hstall⟩

/-- Settles O25: by how a record that is taken goes on (`takeRecord_open`, `takeRecord_held`, `takeRecord_ends`), how the first held
record of a layer ends (`drainHeld_accepts`, `drainHeld_fails`, `failHeld_ends`), and how the last page of a delivery ends it
(`objPage_last`, `seqPage_last`). -/
theorem appendAndDeliveryCommandsComplete : Obligations.AppendAndDeliveryCommandsComplete := by
  refine ⟨?accepted, ?behind, ?link, ?error, ?heldError, ?stallEnd, ?held, ?object, ?sequence, ?stalled, ?credit, ?timeout, ?quiet⟩
  case accepted => exact fun s q c inp i x hoff hlen hn ht hh ho hr => exec_cmdKvAppend_accepts hoff hlen hn ht hh ho hr
  case behind => exact fun s q c inp i x ue hoff hlen hn ht hh => exec_cmdKvAppend_behind hoff hlen hn ht hh ue
  case link => exact fun s m j i x hp hs hc hn ht hh ho hr => exec_kvAppend_accepts hp hs hc hn ht hh ho hr
  case error => exact fun s q c inp i x hoff hlen hn ht hh ho hr => exec_cmdKvAppend_fails hoff hlen hn ht hh ho hr
  case heldError => exact fun s i x n h hs hn hb hr hx hf hfor ho hw => exec_heldRecordWrite_fails hs hn hx hf hfor ho hw hb hr
  case stallEnd =>
    exact fun s n y i x l h hy hwho hr hs hn hx hf hfor ho hw => exec_stallEnd_accepts hs hn hx hf hfor ho hw hy hwho hr
  case held => exact fun s i x n h hs hn hb hr hx hf hfor ho hw => exec_heldRecordWrite_accepts hs hn hx hf hfor ho hw hb hr
  case object =>
    intro s m b i u n o e ht hpass hu hs hshape hk hf hrel hseal he hpois hdom hplain hnear htab ht0 hwire hgood halt hone hnew hpeer hc
      hn hr
    exact exec_pageRead_object ht hpass hu hs hpeer hc hn hshape hone hnew hr hk hf hrel hseal
      ⟨State.obj_of_findObj hf, he, hdom, hnear, hpois, htab, hplain, ht0, hwire, hgood, halt⟩
  case sequence =>
    intro s m b i u n q e ht hpass hu hs hshape hk hf hlive hdel hone hnew hpeer hc hn hr
    have hdom := State.domain_of_findSeq hf
    rw [hdom] at hdel
    exact exec_pageRead_sequence ht hpass hu hs hpeer hc hn hshape hone hnew hr hk hf hlive hdel
  case stalled => exact fun s n y r x e hs hn hy hwho hturn hr ho hl hd hw => exec_stallEnd_delivers hs hn hy hwho hturn hr ho hl hd hw
  case credit => exact fun s q c inp i x hoff hlen hn ht hh hw => exec_cmdKvAppend_waits hoff hlen hn ht hh hw
  case timeout => exact fun s n y i x l h hn hy hwho hlate hx hf => exec_stallTimeout_stalled hn hx hf hy hwho hlate
  case quiet => exact fun s n i x l h since hn hlen hq hlate hx hf => exec_stallTimeout_quiet hn hx hf hlen hq hlate

end Sys2Proof.Machine
end

section
/-! The scope of the commands of ports, links, sessions and rings of devices. -/

namespace Sys2Proof.Machine

/-- Settles O45: a command of Causeway has a scope, and a command with a scope keeps what lies outside it (`exec_keeps`). -/
theorem causewayCommandsKeepTheirScope : Obligations.CausewayCommandsKeepTheirScope :=
  fun _ _ _ _ hc _ h => exec_keeps hc h

end Sys2Proof.Machine
end

section
/-! A `STEP` record at a member of a ring that keeps none of its positions and whose stripe still misses appends (R130, R131). -/

namespace Sys2Proof.Machine

/-- Stripe 1 of `RSID` 9 in slot 0: positions 4,096 to 8,191. -/
def middleStripe : Stripe := { slot := 0, rsid := 9, k := 1, log := 12 }

/-- A sequence of domain 1 that holds that stripe, with no position appended yet. -/
def unfilledSeq : Seq := { tag := 1, st := .idle, domain := 1, model := 3, stripe := some middleStripe, base := 4096 }

/-- The place of its member in a ring of three: session 2 leads to the successor, session 3 to the predecessor. -/
def middleSlot : RingSlot :=
  { st := .ready, domain := 1, ringId := 4, n := 3, index := 1, predPorts := 16, succPorts := 8, pred := some 3, succ := some 2 }

/-- A ring-peer session of that ring on one port, with `SID` 1. -/
def ringSession (port : Nat) : Session := { st := .attached, domain := 1, role := 1, ringId := 4, ports := [(port, 1)] }

/-- The member that holds that sequence. -/
def unfilledMember : State :=
  { State.reset with
    glb := { State.reset.glb with phase := .ready }
    lve := { doms := [(1, { st := .active })] }
    xlt := {
      placed := true
      models := [((1, 3), { layers := 1, kvHeads := 1, qHeads := 1, headDim := 32, format := 1, maxHg := 0 })]
      seqs := [(7, unfilledSeq)] }
    pwr := { live := true, planned := 250000, grant := 175000, islands := [(16, .on)] }
    cwy := {
      ports := [(3, { st := .ready, credits := [64, 64, 64, 64] }), (4, { st := .ready, credits := [64, 64, 64, 64] })]
      sessions := [(2, ringSession 3), (3, ringSession 4)]
      slots := [(0, middleSlot)] } }

/-- A query with one sink, a window of one position and `CTX` = 8,193: it keeps positions 0 and 8,192 alone. -/
def sinkAndLastQuery : Query :=
  { handle := 0, layer := 0, latency := false, outFp32 := false, retPart := false, ctx := 8193, window := 1, sinks := 1
    scale := 0x3F800000#32, stepTag := 0, q := List.replicate 32 0#16 }

/-- The `STEP` record of that query, from the tail, stripe 2, down to stripe 0. -/
def sinkAndLastRecord : List Byte := ringQueryBody 9 sinkAndLastQuery 0 2 6 sinkAndLastQuery.scale

/-- The message that brings the record from the successor. -/
def sinkAndLastMsg : RxMsg :=
  { port := 3, vc := 1, hdr := msgHeader 0x28 1 1 sinkAndLastRecord.length 1 0 0 0, body := sinkAndLastRecord, tagOk := true
    lenOk := true, flits := 1 }

/-- The query keeps no position of the stripe. -/
theorem keptOf_unfilledSeq : unfilledSeq.keptOf (readRingQuery sinkAndLastRecord) = [] := by decide +kernel

/-- The member holds the step all the same, until its own stripe is complete (R131). -/
theorem exec_ringQueryStep_holds :
    ∃ t, exec (.ringQueryStep sinkAndLastMsg) unfilledMember = .next t ∧ (t.step? 0).map Step.phase = some .held :=
  ⟨_, rfl, by decide +kernel⟩

/-- Refutes O27: a `STEP` record becomes a step that is held until the last position of its context in the stripe has been accepted,
whatever the step keeps (R131; `State.ready?`). The clause of `STEP` records claims that a step of which the member keeps no position
is queued at once. -/
theorem not_deviceRingCommandsComplete : ¬ Obligations.DeviceRingCommandsComplete := by
  unfold Obligations.DeviceRingCommandsComplete
  rintro ⟨-, -, -, stepRecord, -⟩
  obtain ⟨t, ht, -, hqueued, -⟩ := stepRecord unfilledMember sinkAndLastMsg 2 _ 0 7 unfilledSeq middleStripe (by decide +kernel)
    (by decide +kernel) (by decide +kernel) rfl (by decide +kernel) (by decide +kernel) (by decide +kernel) (by decide +kernel)
  obtain ⟨u, hu, hheld⟩ := exec_ringQueryStep_holds
  obtain rfl : u = t := Host.Outcome.next.inj (hu.symm.trans ht)
  have hempty : (unfilledSeq.keptOf (readRingQuery sinkAndLastMsg.body)).isEmpty = true := List.isEmpty_iff.mpr keptOf_unfilledSeq
  have hpending := congrArg (Option.map fun p => p.2.2) hqueued
  rw [if_pos (.inr hempty), Option.map_map] at hpending
  exact absurd (hheld.symm.trans hpending) (by decide)

end Sys2Proof.Machine
end

section
/-! The forms that are read back: a packed block through the expander and the seal test (R217, R220, R221), an entry of a row (R140)
and the header of a flit (R230). -/

namespace Sys2Proof.Machine

/-! ### Words of a block (R217) -/

/-- Words of one length are cut again out of what they make together. -/
theorem chunks_flatten {α : Type} {n : Nat} {ws : List (List α)} (h : ∀ w ∈ ws, w.length = n) (tail : List α) :
    chunks n ws.length (ws.flatten ++ tail) = ws := by
  induction ws with
  | nil => rfl
  | cons w ws ih =>
    have hw : w.length = n := h w List.mem_cons_self
    rw [List.flatten_cons, List.append_assoc, List.length_cons, chunks, List.take_left' hw, List.drop_left' hw,
      ih fun v hv => h v (List.mem_cons_of_mem _ hv)]

/-- Chunks of a list that fills them all have their full length. -/
theorem length_of_mem_chunks_full {α : Type} {n k : Nat} {l b : List α} (hl : n * k ≤ l.length) (h : b ∈ chunks n k l) :
    b.length = n := by
  induction k generalizing l with
  | zero => cases h
  | succ k ih =>
    rw [Nat.mul_succ] at hl
    rcases List.mem_cons.mp h with rfl | h
    · rw [List.length_take]
      omega
    · exact ih (by rw [List.length_drop]; omega) h

theorem eq_zeros_of_not_nonzeroWord {w : List Byte} (h : nonzeroWord w = false) : w = List.replicate w.length 0#8 :=
  List.eq_replicate_iff.mpr ⟨rfl, fun b hb => by simpa using List.any_eq_false.mp h b hb⟩

/-- The map of the nonzero words says where each of them stands. -/
theorem placeWords_map_filter {ws : List (List Byte)} (h : ∀ w ∈ ws, w.length = 8) :
    placeWords (ws.map nonzeroWord) (ws.filter nonzeroWord) = ws.flatten := by
  induction ws with
  | nil => rfl
  | cons w ws ih =>
    have ih := ih fun v hv => h v (List.mem_cons_of_mem _ hv)
    cases hw : nonzeroWord w with
    | true => rw [List.map_cons, hw, List.filter_cons_of_pos hw, placeWords, ih, List.flatten_cons]
    | false =>
      have hz := eq_zeros_of_not_nonzeroWord hw
      rw [h w List.mem_cons_self] at hz
      rw [List.map_cons, hw, List.filter_cons_of_neg (by simp [hw]), placeWords, ih, List.flatten_cons, ← hz]

theorem count_map_nonzeroWord (ws : List (List Byte)) : (ws.map nonzeroWord).count true = (ws.filter nonzeroWord).length := by
  rw [List.count_eq_countP, List.countP_map, ← List.countP_eq_length_filter]
  exact List.countP_congr fun w _ => by simp

/-! ### The map of a packed block (Table 10.1) -/

theorem testBit_foldr_bits (bs : List Bool) (i : Nat) :
    (bs.foldr (fun (b : Bool) v => b.toNat + 2 * v) 0).testBit i = bs.getD i false := by
  induction bs generalizing i with
  | nil => simp
  | cons b bs ih =>
    rw [List.foldr_cons, Nat.add_comm]
    cases i with
    | zero => cases b <;> simp [Nat.testBit_zero]
    | succ i =>
      rw [Nat.testBit_succ, Nat.mul_add_div (by decide), Nat.div_eq_of_lt (by cases b <;> decide), Nat.add_zero, ih,
        List.getD_cons_succ]

/-- Eight bits are read back from their byte. -/
theorem byteBits_singleton {bs : List Bool} (h : bs.length = 8) :
    (List.range 8).map (BitVec.ofNat 8 (bs.foldr (fun (b : Bool) v => b.toNat + 2 * v) 0)).getLsbD = bs := by
  refine List.ext_getElem (by simp [h]) fun i hi hb => ?_
  rw [h] at hb
  simp only [List.getElem_map, List.getElem_range, BitVec.getLsbD_ofNat, testBit_foldr_bits, hb, decide_true, Bool.true_and]
  exact List.getD_eq_getElem _ _ _

theorem byteBits_bitBytes {n : Nat} {bs : List Bool} (h : bs.length = 8 * n) : byteBits (bitBytes n bs) = bs := by
  induction n generalizing bs with
  | zero => rw [List.length_eq_zero_iff.mp h]; rfl
  | succ n ih =>
    have hrest := ih (bs := bs.drop 8) (by rw [List.length_drop]; omega)
    rw [byteBits] at hrest
    rw [bitBytes, byteBits, List.flatMap_cons, hrest, byteBits_singleton (by rw [List.length_take]; omega), List.take_append_drop]

theorem length_bitBytes (n : Nat) (bs : List Bool) : (bitBytes n bs).length = n := by
  induction n generalizing bs with
  | zero => rfl
  | succ n ih => rw [bitBytes, List.length_cons, ih]

/-! ### The packed form (R217, R220, R221) -/

/-- The first 16 bytes of a packed block: `MAGIC`, `NWORDS` and zeros (Table 10.1). -/
def packHead (n : Nat) : List Byte := leBytes 8 packMagic ++ leBytes 2 n ++ leBytes 6 0

/-- A block of Table 10.1 with a map, its nonzero words and some padding. -/
def packedForm (map : List Bool) (ws : List (List Byte)) (pad : Nat) : List Byte :=
  packHead ws.length ++ (bitBytes 64 map ++ (ws.flatten ++ List.replicate pad 0#8))

theorem packBlock_eq (data : List Byte) :
    packBlock data = packedForm ((wordsOf data).map nonzeroWord) ((wordsOf data).filter nonzeroWord)
      (wireLen (nonzeroWords data) - (80 + 8 * nonzeroWords data)) := by
  simp only [packBlock, packedForm, packHead, List.append_assoc]
  rfl

theorem length_packHead (n : Nat) : (packHead n).length = 16 := by simp [packHead]

theorem length_flatten_words {ws : List (List Byte)} (h : ∀ w ∈ ws, w.length = 8) : ws.flatten.length = 8 * ws.length := by
  rw [List.length_flatten, List.map_congr_left h, List.map_const', List.sum_replicate_nat, Nat.mul_comm]

section
variable {n : Nat} (hn : n < 65536) (rest : List Byte)
include hn

theorem u16_packHead : u16 (packHead n ++ rest) 8 = n := by
  have hf := field_append_right (leBytes 8 packMagic) (leBytes 2 n ++ (leBytes 6 0 ++ rest)) 0 2
  rw [leBytes_length, field_leBytes, Nat.mod_eq_of_lt (show n < 256 ^ 2 from hn)] at hf
  simpa only [u16, packHead, List.append_assoc, Nat.add_zero] using hf

/-- The seal test takes a packed block whose number of nonzero words lets it cross packed (R217, R220). -/
theorem sealTest_packHead (h : n ≤ 470) : sealTest (packHead n ++ rest) = true := by
  have hmagic : u64 (packHead n ++ rest) 0 = packMagic := by
    have hf := field_leBytes 8 packMagic (leBytes 2 n ++ (leBytes 6 0 ++ rest))
    rw [Nat.mod_eq_of_lt (by decide)] at hf
    simpa only [u64, packHead, List.append_assoc] using hf
  have hzeros : zeros (packHead n ++ rest) 10 6 = true := by
    have hlen : (leBytes 8 packMagic ++ leBytes 2 n).length = 10 := by simp
    rw [zeros, packHead, List.append_assoc, List.drop_left' hlen, List.take_left' (leBytes_length 6 0)]
    decide
  simp [sealTest, hmagic, hzeros, u16_packHead hn rest, h]

end

/-- The expander gives back the words of a map and its nonzero words. -/
theorem expandBlock_packedForm {map : List Bool} {ws : List (List Byte)} (pad : Nat) (hmap : map.length = 512)
    (hws : ∀ w ∈ ws, w.length = 8) (hn : ws.length < 65536) (hcount : map.count true = ws.length) :
    expandBlock (packedForm map ws pad) = some (placeWords map ws) := by
  have hmaps : (bitBytes 64 map).length = 64 := length_bitBytes _ _
  have hbody := List.drop_left' (l₂ := bitBytes 64 map ++ (ws.flatten ++ List.replicate pad 0#8)) (length_packHead ws.length)
  have hread : byteBits (((packedForm map ws pad).drop 16).take 64) = map := by
    rw [packedForm, hbody, List.take_left' hmaps, byteBits_bitBytes hmap]
  have hwords : (packedForm map ws pad).drop 80 = ws.flatten ++ List.replicate pad 0#8 := by
    rw [packedForm, ← List.drop_drop (i := 64) (j := 16), hbody, List.drop_left' hmaps]
  have hpad : (packedForm map ws pad).drop (80 + 8 * ws.length) = List.replicate pad 0#8 := by
    rw [← List.drop_drop, hwords, List.drop_left' (length_flatten_words hws)]
  have hnum : u16 (packedForm map ws pad) 8 = ws.length := u16_packHead hn _
  simp only [expandBlock, hnum, hread, hwords, hpad, chunks_flatten hws, hcount]
  simp

/-- A packed block is as long as its wire length (R217). -/
theorem length_packedForm {map : List Bool} {ws : List (List Byte)} (hws : ∀ w ∈ ws, w.length = 8) :
    (packedForm map ws (wireLen ws.length - (80 + 8 * ws.length))).length = wireLen ws.length := by
  have hle : 80 + 8 * ws.length ≤ wireLen ws.length := by
    rw [wireLen, ceilDiv, if_neg (by decide)]
    omega
  simp only [packedForm, List.length_append, length_packHead, length_bitBytes, length_flatten_words hws, List.length_replicate]
  omega

section
variable {data : List Byte} (h : data.length = 4096)
include h

theorem length_of_mem_wordsOf {w : List Byte} (hw : w ∈ wordsOf data) : w.length = 8 :=
  length_of_mem_chunks_full (by omega) hw

theorem flatten_wordsOf : (wordsOf data).flatten = data := by
  rw [wordsOf, flatten_chunks, List.take_of_length_le (by omega)]

omit h in
theorem nonzeroWords_le (data : List Byte) : nonzeroWords data ≤ 512 :=
  (List.length_filter_le _ _).trans (length_chunks 8 512 data).le

/-- The expander gives back every block from its packed form (R221). -/
theorem expandBlock_packBlock : expandBlock (packBlock data) = some data := by
  have hn := nonzeroWords_le data
  rw [packBlock_eq, expandBlock_packedForm _ ((List.length_map (as := wordsOf data) _).trans (length_chunks 8 512 data))
    (fun w hw => length_of_mem_wordsOf h (List.mem_of_mem_filter hw)) (hn.trans_lt (by decide)) (count_map_nonzeroWord _),
    placeWords_map_filter fun w hw => length_of_mem_wordsOf h hw, flatten_wordsOf h]

theorem length_packBlock : (packBlock data).length = wireLen (nonzeroWords data) := by
  rw [packBlock_eq]
  exact length_packedForm fun w hw => length_of_mem_wordsOf h (List.mem_of_mem_filter hw)

omit h in
theorem sealTest_packBlock (hp : 80 + 8 * nonzeroWords data ≤ 3840) : sealTest (packBlock data) = true := by
  rw [packBlock_eq]
  have hn : nonzeroWords data ≤ 470 := by omega
  exact sealTest_packHead (hn.trans_lt (by decide)) _ hn

end

/-! ### Entries and flit headers (R140, R230) -/

theorem bit_of_mod {n i : Nat} {b : Bool} (h : n / 2 ^ i % 2 = b.toNat) : bit n i = b := by
  rw [bit, Nat.testBit_eq_decide_div_mod_eq, h]
  cases b <;> rfl

/-- The 32 bytes of an entry whose fields fit hold that entry (Table 7.2). -/
theorem readEntry_bytes {e : Entry} (h : e.wf = true) : readEntry (ofLe e.bytes) = e := by
  obtain ⟨hash, check, domain, tag, valid, writing, lo, hi, bd, refs⟩ := e
  simp only [Entry.wf, Bool.and_eq_true, decide_eq_true_eq] at h
  obtain ⟨⟨⟨⟨⟨hdomain, htag⟩, hlo⟩, hhi⟩, hbd⟩, hrefs⟩ := h
  have hhash := hash.isLt
  have hcheck := check.isLt
  have hvalid := valid.toNat_lt
  have hwriting := writing.toNat_lt
  rw [Entry.bytes, ofLe_leBytes, Nat.mod_eq_of_lt (by simp only [Entry.word]; omega), readEntry, Entry.mk.injEq]
  simp only [Entry.word]
  refine ⟨BitVec.eq_of_toNat_eq ?_, BitVec.eq_of_toNat_eq ?_, ?_, ?_, bit_of_mod (i := 0) ?_, bit_of_mod (i := 0) ?_, ?_⟩
  case refine_1 | refine_2 =>
    rw [BitVec.toNat_ofNat]
    omega
  all_goals omega

/-- The header of a flit holds each of its fields (Table 11.2). -/
theorem flitHeader_fields {seq ack vc ty n cv cc : Nat} (som eom : Bool) (hseq : seq < 4096) (hack : ack < 4096) (hvc : vc < 4)
    (hty : ty < 4) (hn : n < 256) (hcv : cv < 4) (hcc : cc < 1024) {h : Nat} (hh : h = flitHeader seq ack vc ty som eom n cv cc) :
    h < 2 ^ 64 ∧ bits h 63 52 = seq ∧ bits h 51 40 = ack ∧ bits h 39 38 = vc ∧ bits h 37 36 = ty ∧ bit h 35 = som ∧
      bit h 34 = eom ∧ bits h 33 26 = n ∧ bits h 25 24 = cv ∧ bits h 23 14 = cc ∧ bits h 13 0 = 0 := by
  have hbit (b : Bool) (k : Nat) : (if b then k else 0) = b.toNat * k := by cases b <;> simp
  rw [flitHeader, hbit, hbit] at hh
  have hsom := som.toNat_lt
  have heom := eom.toNat_lt
  simp only [bits]
  refine ⟨?_, ?_, ?_, ?_, ?_, bit_of_mod ?_, bit_of_mod ?_, ?_, ?_, ?_, ?_⟩ <;> omega

/-- Settles O60: a packed block is read back word by word along its map, and the fields of an entry and of a flit header stand apart. -/
theorem packedBlocksEntriesAndFlitsReadBack : Obligations.PackedBlocksEntriesAndFlitsReadBack := by
  refine ⟨fun data h => ⟨expandBlock_packBlock h, length_packBlock h, sealTest_packBlock⟩, fun e he => ⟨readEntry_bytes he, ?_⟩, ?_⟩
  · exact leBytes_length 32 _
  · intro seq ack vc ty n cv cc som eom hseq hack hvc hty hn hcv hcc h hh
    exact flitHeader_fields som eom hseq hack hvc hty hn hcv hcc hh

end Sys2Proof.Machine
end

section
/-! When a block hits (R139), and what the operations on its rows leave of Reedbed: breaks, scans, searches, lists and the state of its
domains (R142, R148, R149). -/

namespace Sys2Proof.Machine

/-! ### Hits (R139) -/

/-- The range predicate of Table 7.4, mode by mode. -/
theorem rangeOk_iff (m a b : Nat) (e : Entry) : rangeOk m a b e = true ↔
    m = 0 ∨ (m = 1 ∧ e.lo ≤ a ∧ a ≤ e.hi) ∨ (m = 2 ∧ e.lo ≤ b ∧ a ≤ e.hi) ∨ (3 ≤ m ∧ a ≤ e.lo ∧ e.hi ≤ b) := by
  unfold rangeOk
  split
  case h_4 h0 h1 h2 =>
    have h3 : 3 ≤ m := by
      have h0 : m ≠ 0 := h0
      have h1 : m ≠ 1 := h1
      have h2 : m ≠ 2 := h2
      omega
    simp [h3]
    omega
  all_goals simp

/-- Settles O59: the probe finds an entry of the row for which each part of the test holds. -/
theorem probesMatchValidEntriesOfTheirOwn : Obligations.ProbesMatchValidEntriesOfTheirOwn := by
  intro s p h hfloor
  simp only [State.probe, Option.isSome_map, List.find?_isSome, Prod.exists, Bool.and_eq_true, Bool.not_eq_true', beq_iff_eq,
    decide_eq_true_eq, rangeOk_iff, ← hfloor, and_assoc]

/-! ### Frames freed (R65) -/

/-- The index and the block descriptors. -/
def State.index (s : State) : Rbd × Assoc Nat Bd := (s.rbd, s.xlt.bds)

/-- Reedbed but for its rows and their layout. -/
def State.rbdRest (s : State) : Rbd := { s.rbd with rows := [], dirtyRows := [] }

section
variable (s : State)

theorem State.index_forEach {α : Type} (l : List α) {f : α → State → State} (h : ∀ x t, (f x t).index = t.index) :
    (s.forEach l f).index = s.index := by
  induction l generalizing s with
  | nil => rfl
  | cons x xs ih => exact (ih (f x s)).trans (h x s)

theorem State.index_freeExt (h : Home) : (s.freeExt h).index = s.index := by
  unfold State.freeExt
  split
  · rfl
  · split
    · rfl
    · dsimp only
      split
      · rfl
      · split <;> rfl

theorem State.index_freeFrame (f : FrameId) (h : Home) : (s.freeFrame f h).index = s.index := by
  unfold State.freeFrame
  split
  · rfl
  · exact s.index_freeExt h

theorem State.index_freeMeta (f : FrameId) : (s.freeMeta f).index = s.index := by
  unfold State.freeMeta
  split
  · rfl
  · exact State.index_freeFrame _ _ _

theorem State.index_freeBdTables : s.freeBdTables.index = s.index := s.index_forEach _ fun _ _ => State.index_freeMeta _ _

/-- What freeing the frames of a block descriptor leaves: Reedbed, and the descriptor unindexed. -/
theorem State.sweepBd_keeps (b : Nat) :
    (s.sweepBd b).rbd = s.rbd ∧
      (((s.xlt.bds.get? b).all fun y => !y.indexed) = true → (((s.sweepBd b).xlt.bds.get? b).all fun y => !y.indexed) = true) := by
  unfold State.sweepBd
  split
  · exact ⟨rfl, id⟩
  · next x hx =>
    split
    · exact ⟨rfl, id⟩
    · extract_lets gone u v src xlt
      have hu : u.index = s.index := s.index_forEach gone fun _ _ => State.index_freeFrame _ _ _
      have hrbd : u.rbd = s.rbd := congrArg Prod.fst hu
      have hbds : u.xlt.bds = s.xlt.bds := congrArg Prod.snd hu
      split
      · have hfreed := (State.index_freeBdTables _).trans (({ v with xlt := xlt } : State).index_freeMeta (.bdPage b))
        refine ⟨(congrArg Prod.fst hfreed :).trans hrbd, fun _ => ?_⟩
        rw [show (State.xlt _).bds = v.xlt.bds.erase b from congrArg Prod.snd hfreed, Assoc.get?_erase_same]
        rfl
      · refine ⟨hrbd, fun h => ?_⟩
        have hget := Assoc.get?_modify_same u.xlt.bds b fun x : Bd => { x with fds := x.fds.filter fun e => e.2.refs != 0 }
        rw [hbds, hx] at hget
        rw [show v.xlt.bds.get? b = _ from hbds ▸ hget]
        rw [hx] at h
        exact h

theorem State.rbd_sweepBd (b : Nat) : (s.sweepBd b).rbd = s.rbd := (s.sweepBd_keeps b).1

theorem State.rbd_bumpD (d c n : Nat) : (s.bumpD d c n).rbd = s.rbd := by
  unfold State.bumpD
  split <;> rfl

/-! ### Updates of rows (R142, R147 to R149) -/

theorem State.rbdRest_of_rbd {s t : State} (h : t.rbd = s.rbd) : t.rbdRest = s.rbdRest := by
  rw [State.rbdRest, h, State.rbdRest]

@[simp] theorem State.rbdRest_ite (c : Prop) [Decidable c] (t u : State) :
    (if c then t else u).rbdRest = if c then t.rbdRest else u.rbdRest := apply_ite State.rbdRest c t u

@[simp] theorem State.rbdRest_bump (c n : Nat) : (s.bump c n).rbdRest = s.rbdRest := rfl
@[simp] theorem State.rbdRest_setEvt (e : Nat × Nat) (off : Nat) : (s.setEvt e off).rbdRest = s.rbdRest := rfl
@[simp] theorem State.rbdRest_setBd (b : Nat) (f : Bd → Bd) : (s.setBd b f).rbdRest = s.rbdRest := rfl

theorem State.rbdRest_forEach {α : Type} (l : List α) {f : α → State → State} (h : ∀ x t, (f x t).rbdRest = t.rbdRest) :
    (s.forEach l f).rbdRest = s.rbdRest := by
  induction l generalizing s with
  | nil => rfl
  | cons x xs ih => exact (ih (f x s)).trans (h x s)

@[simp] theorem State.rbdRest_setRow (n : Nat) (r : Assoc Nat Entry) : (s.setRow n r).rbdRest = s.rbdRest := rfl

@[simp] theorem State.rbdRest_noteRow (n : Nat) : (s.noteRow n).rbdRest = s.rbdRest := by
  unfold State.noteRow
  split <;> rfl

@[simp] theorem State.rbdRest_restoreNow (n : Nat) : (s.restoreNow n).rbdRest = s.rbdRest := by
  unfold State.restoreNow
  extract_lets x t
  clear_value x
  have ht : t.rbdRest = s.rbdRest := by
    unfold t
    split <;> rfl
  exact ht

@[simp] theorem State.rbdRest_modEntry (n b : Nat) (f : Entry → Entry) : (s.modEntry n b f).rbdRest = s.rbdRest := by
  unfold State.modEntry
  extract_lets t
  have ht : t.rbdRest = s.rbdRest := s.rbdRest_restoreNow n
  split
  · exact (t.rbdRest_setRow n _).trans ht
  · exact ht

/-- A block that is not entered leaves Reedbed and the block descriptors. -/
theorem State.index_noEntry (h : Handoff) (k c : Nat) : (s.noEntry h k c).index = s.index := by
  have hbump (t : State) (d c : Nat) : (t.bumpD d c).index = t.index := by
    unfold State.bumpD
    split <;> rfl
  unfold State.noEntry
  extract_lets d u off first v w
  have hw : w.index = s.index := (hbump v d _).trans (hbump s d c)
  split <;> exact hw

/-- An insert changes rows alone. -/
theorem State.rbdRest_rbdInsert (h : Handoff) : (s.rbdInsert h).rbdRest = s.rbdRest := by
  have hno (k c : Nat) : (s.noEntry h k c).rbdRest = s.rbdRest := State.rbdRest_of_rbd (congrArg Prod.fst (s.index_noEntry h k c))
  unfold State.rbdInsert
  split
  · rfl
  · next b hb =>
    extract_lets d st pred lo hi n eq u e x before v w z y
    have hw : w.rbdRest = s.rbdRest := by simp [w, v, u]
    have hy : y.rbdRest = s.rbdRest := by
      change z.rbdRest = _
      unfold z
      split
      · rw [State.rbdRest_modEntry, hw]
      · exact hw
    split
    · exact hno _ _
    · simp [hno, hy]

theorem State.rbdRest_arrivedFirst (d : Nat) : (s.arrivedFirst d).rbdRest = s.rbdRest :=
  (State.rbdRest_forEach _ _ fun _ _ => State.rbdRest_rbdInsert _ _).trans rfl

theorem State.rbdRest_withdraw (n b : Nat) : (s.withdraw n b).rbdRest = s.rbdRest := by
  unfold State.withdraw
  extract_lets t
  have ht : t.rbdRest = s.rbdRest := s.rbdRest_restoreNow n
  split
  · rw [State.rbdRest_of_rbd (State.rbd_sweepBd _ b)]
    simp [ht]
  · exact ht

theorem State.rbdRest_resolveBd (b : Nat) : (s.resolveBd b).rbdRest = s.rbdRest := by
  unfold State.resolveBd
  split
  · rfl
  · split
    · rfl
    · split
      · exact s.rbdRest_withdraw _ _
      · exact State.rbdRest_of_rbd (State.rbd_sweepBd _ b)

end

end Sys2Proof.Machine
end

section
/-! Reedbed's update engine: inserts, the layout rule, and the loss of a row (R142, R146, R147, R152). -/

namespace Sys2Proof.Machine

/-! ### Rows (R141, R142) -/

theorem State.row_of_rbd {s t : State} (h : t.rbd = s.rbd) (n : Nat) : t.row n = s.row n := by
  rw [State.row, h, State.row]

theorem State.row_setRow_same (s : State) (n : Nat) (r : Assoc Nat Entry) : (s.setRow n r).row n = r := by
  unfold State.setRow State.row
  split
  · next h => simp [Assoc.getD, Assoc.get?_erase_same, List.isEmpty_iff.mp h]
  · exact Assoc.getD_set_same _ _ _ _

theorem State.row_noteRow (s : State) (m n : Nat) : (s.noteRow m).row n = s.row n := by
  unfold State.noteRow
  split <;> rfl

theorem State.row_restoreNow_of_rule {s : State} {n : Nat} (h : rowRule (s.row n) = true) : (s.restoreNow n).row n = s.row n := by
  have hx : restoreRow 4096 (s.row n) = (0, s.row n) := by
    rw [restoreRow, restoreStep, if_pos h]
  rw [State.restoreNow, hx]
  rfl

/-- A row with room has a free slot. -/
theorem exists_free_slot {r : Assoc Nat Entry} (h : r.length < 64) : ∃ k < 64, r.has k = false := by
  by_contra hall
  push Not at hall
  have hsub : List.range 64 ⊆ r.keys := fun k hk => by
    have hhas := hall k (List.mem_range.mp hk)
    simpa [Assoc.has_eq] using hhas
  have hle := (List.nodup_range.subperm hsub).length_le
  rw [List.length_range, Assoc.keys, List.length_map] at hle
  omega

/-- An entry is put into a row that has room. -/
theorem mem_insertRow {r : Assoc Nat Entry} (e : Entry) (h : r.length < 64) : ∃ k, (k, e) ∈ (insertRow r e).2 := by
  unfold insertRow
  extract_lets sl lo hi first last down up shiftDown shiftUp
  split
  · exact ⟨_, Assoc.mem_set _ _ _⟩
  · next hfull =>
    cases hdown : down with
    | some a =>
      cases up with
      | some b =>
        dsimp only
        split <;> exact ⟨_, Assoc.mem_set _ _ _⟩
      | none => exact ⟨_, Assoc.mem_set _ _ _⟩
    | none =>
      cases hup : up with
      | some b => exact ⟨_, Assoc.mem_set _ _ _⟩
      | none =>
        obtain ⟨k, hk, hfree⟩ := exists_free_slot h
        have hge : first ≤ k := by
          by_contra hlt
          have hnot := List.find?_eq_none.mp hdown k (by simpa using hlt)
          simp [hfree] at hnot
        have hle : k ≤ last := by
          by_contra hlt
          have hnot := List.find?_eq_none.mp hup k (by simpa using hk)
          simp [hfree] at hnot
          omega
        have hlast : k = last := by omega
        cases hhi : hi with
        | some j =>
          have hheld := List.find?_some hhi
          obtain rfl : k = j := by simpa only [last, hhi] using hlast
          rw [Assoc.has, Option.isSome_eq_false_iff, Option.isNone_iff_eq_none] at hfree
          simp [hfree] at hheld
        | none =>
          have hend : k = 64 := by simpa only [last, hhi] using hlast
          omega

/-! ### `REEDBED_INSERT` (R146, R147) -/

/-- The entry of a block that no entry of a predecessor bounds, with the range of its hand-off. -/
def Handoff.entry (h : Handoff) (b : Bd) : Entry :=
  { hash := b.hash, check := b.check, domain := b.domain, tag := b.tag, lo := h.lo, hi := h.hi, bd := h.bd }

/-- An entry equal to the one that a block would get stands in its row (row 4 of Table 7.5). -/
def State.duplicates (s : State) (b : Bd) : Bool :=
  (s.row (rowOf b.hash)).any fun x => x.2.valid && !x.2.writing && x.2.hash == b.hash && x.2.check == b.check && x.2.domain == b.domain &&
    x.2.tag == b.tag && decide ((s.rbdDom b.domain).floor ≤ x.2.hi)

/-- The state once a root block has its entry, and its descriptor says so. -/
def State.withEntry (s : State) (h : Handoff) (b : Bd) : State :=
  let u := s.restoreNow (rowOf b.hash)
  let x := insertRow (u.row (rowOf b.hash)) (h.entry b)
  ((((u.setRow (rowOf b.hash) x.2).bump Reg.rbdMoveLo x.1).noteRow (rowOf b.hash)).setBd h.bd fun b => { b with indexed := true }).bump
    Reg.rbdInsertLo

section
variable {s : State} {h : Handoff} {b : Bd}

theorem State.xlt_restoreNow (s : State) (n : Nat) : (s.restoreNow n).xlt = s.xlt := by
  unfold State.restoreNow
  extract_lets x t
  clear_value x
  have ht : t.xlt = s.xlt := by
    unfold t
    split <;> rfl
  exact ht

theorem State.xlt_noteRow (s : State) (n : Nat) : (s.noteRow n).xlt = s.xlt := by
  unfold State.noteRow
  split <;> rfl

theorem State.withEntry_xlt (s : State) (h : Handoff) (b : Bd) :
    (s.withEntry h b).xlt = { s.xlt with bds := s.xlt.bds.modify h.bd fun b => { b with indexed := true } } := by
  unfold State.withEntry
  extract_lets u x
  have hu : u.xlt = s.xlt := s.xlt_restoreNow (rowOf b.hash)
  clear_value x u
  have hv : (((u.setRow (rowOf b.hash) x.2).bump Reg.rbdMoveLo x.1).noteRow (rowOf b.hash)).xlt = s.xlt :=
    (State.xlt_noteRow _ _).trans hu
  rw [State.bump_xlt, State.setBd, hv]

theorem State.mem_row_withEntry (hroom : (s.row (rowOf b.hash)).length < 64) (hrule : rowRule (s.row (rowOf b.hash)) = true) :
    ∃ k, (k, h.entry b) ∈ (s.withEntry h b).row (rowOf b.hash) := by
  unfold State.withEntry
  extract_lets u x
  have hu : u.row (rowOf b.hash) = s.row (rowOf b.hash) := State.row_restoreNow_of_rule hrule
  have hx : ∃ k, (k, h.entry b) ∈ x.2 := by
    unfold x
    rw [hu]
    exact mem_insertRow (h.entry b) hroom
  clear_value x u
  obtain ⟨k, hk⟩ := hx
  refine ⟨k, ?_⟩
  have hrow : (((u.setRow (rowOf b.hash) x.2).bump Reg.rbdMoveLo x.1).noteRow (rowOf b.hash)).row (rowOf b.hash) = x.2 :=
    (State.row_noteRow _ _ _).trans (State.row_setRow_same u _ _)
  generalize ((u.setRow (rowOf b.hash) x.2).bump Reg.rbdMoveLo x.1).noteRow (rowOf b.hash) = v at hrow ⊢
  change (k, h.entry b) ∈ v.row (rowOf b.hash)
  rwa [hrow]

/-- A root block is entered with the range of its hand-off, where nothing keeps it out (Table 7.5). -/
theorem State.rbdInsert_root (hb : s.xlt.bds.get? h.bd = some b) (hkeys : (s.rbdKeys b.domain).isSome = true)
    (hon : s.islandOn searchIsland = true) (hpurge : (s.rbdDom b.domain).purging = false) (hen : bit (s.reg Reg.rbdCfg) 31 = true)
    (hroot : b.root = true) (hrange : h.lo ≤ h.hi) (hhi : h.hi ≤ 0xFFFFFFFF) (hdup : s.duplicates b = false)
    (hquota : (s.rbdDom b.domain).quota = 0) (hroom : (s.row (rowOf b.hash)).length < 64) :
    (s.rbdInsert h).xlt = (s.withEntry h b).xlt ∧ (s.rbdInsert h).rbd = (s.withEntry h b).rbd := by
  obtain ⟨keys, hkeys⟩ := Option.isSome_iff_exists.mp hkeys
  have hruns : s.searchRuns = true := by simp [State.searchRuns, hon]
  rw [State.duplicates] at hdup
  have heq : s.rbdInsert h = if ((s.restoreNow (rowOf b.hash)).entryCount fun _ => true) = 201326592
      then (s.withEntry h b).setEvt Evt.rbdFillHigh else s.withEntry h b := by
    simp only [State.rbdInsert, hb, hkeys, hruns, hpurge, hen, hroot, hdup, hquota, Nat.not_le.mpr hroom, Nat.not_lt.mpr hrange,
      if_true, Option.map_none, Option.getD_none, Nat.max_zero, Nat.min_eq_left hhi, Bool.not_true, Bool.or_false, Bool.false_and,
      Bool.false_eq_true, if_false, ne_eq, not_true_eq_false, false_and]
    rfl
  rw [heq]
  split
  · exact ⟨State.setEvt_xlt _ _ _, State.setEvt_rbd _ _ _⟩
  · exact ⟨rfl, rfl⟩

theorem exec_reedbedInsert_takes {rest : List Handoff} (hq : s.xlt.handoffs = h :: rest) (hx : s.serves .xlt = true) :
    exec .reedbedInsert s = .next (s.afterIn .index (({ s with xlt := { s.xlt with handoffs := rest } } : State).rbdInsert h)) := by
  change execReedbedInsert s = _
  rw [execReedbedInsert, hq]
  dsimp only
  rw [if_pos hx]

theorem exec_reedbedInsert_enters {rest : List Handoff} (hq : s.xlt.handoffs = h :: rest) (hx : s.serves .xlt = true)
    (hb : s.xlt.bds.get? h.bd = some b) (hkeys : (s.rbdKeys b.domain).isSome = true) (hon : s.islandOn searchIsland = true)
    (hpurge : (s.rbdDom b.domain).purging = false) (hen : bit (s.reg Reg.rbdCfg) 31 = true) (hroot : b.root = true)
    (hrange : h.lo ≤ h.hi) (hhi : h.hi ≤ 0xFFFFFFFF) (hdup : s.duplicates b = false) (hquota : (s.rbdDom b.domain).quota = 0)
    (hroom : (s.row (rowOf b.hash)).length < 64) (hrule : rowRule (s.row (rowOf b.hash)) = true) :
    ∃ t, exec .reedbedInsert s = .next t ∧ t.xlt.handoffs = rest ∧ t.xlt.bds.get? h.bd = some { b with indexed := true } ∧
      ((t.row (rowOf b.hash)).any fun x => x.2 == h.entry b) = true := by
  refine ⟨_, exec_reedbedInsert_takes hq hx, ?_⟩
  rw [State.afterIn_xlt rfl, State.row_of_rbd (State.afterIn_rbd rfl)]
  obtain ⟨hxlt, hrbd⟩ := State.rbdInsert_root (s := { s with xlt := { s.xlt with handoffs := rest } }) hb hkeys hon hpurge hen hroot
    hrange hhi hdup hquota hroom
  obtain ⟨k, hk⟩ := State.mem_row_withEntry (s := { s with xlt := { s.xlt with handoffs := rest } }) (h := h) hroom hrule
  rw [hxlt, State.row_of_rbd hrbd, State.withEntry_xlt]
  exact ⟨rfl, by rw [Assoc.get?_modify_same, hb]; rfl, List.any_eq_true.mpr ⟨_, hk, by simp⟩⟩

/-- A block that is not entered breaks the hand-off of its sequence there (R88), and leaves the other hand-offs. -/
theorem State.noIdx_noEntry {x : Seq} (hx : s.seq? h.seq = some x) (k c : Nat) :
    ((s.noEntry h k c).seq? h.seq).bind Seq.noIdx = some (x.noIdx.elim k (min · k)) := by
  unfold State.noEntry
  extract_lets d u off first v w
  have hu : u.xlt = s.xlt := s.xlt_bumpD d c 1
  have hv : v.seq? h.seq = some { x with noIdx := some (x.noIdx.elim k (min · k)) } := by
    have hset := State.seq?_setSeq_same (s := u) ((congrArg (fun y : Xlt => y.seqs.get? h.seq) hu).trans hx) fun q =>
      { q with noIdx := some (match q.noIdx with | some b => min b k | none => k) }
    refine hset.trans ?_
    cases x.noIdx <;> rfl
  have hw : w.seq? h.seq = v.seq? h.seq := congrArg (fun y : Xlt => y.seqs.get? h.seq) (v.xlt_bumpD d _ 1)
  rw [show State.seq? (if first = true then _ else _) _ = w.seq? h.seq from by split <;> rfl, hw, hv]
  rfl

theorem State.handoffs_noEntry (s : State) (h : Handoff) (k c : Nat) : (s.noEntry h k c).xlt.handoffs = s.xlt.handoffs := by
  unfold State.noEntry
  extract_lets d u off first v w
  have hu : u.xlt = s.xlt := s.xlt_bumpD d c 1
  have hw : w.xlt = v.xlt := v.xlt_bumpD d _ 1
  have hv : w.xlt.handoffs = s.xlt.handoffs := by
    rw [hw]
    exact (congrArg Xlt.handoffs hu :)
  split <;> exact hv

theorem exec_reedbedInsert_noKeys {rest : List Handoff} (hq : s.xlt.handoffs = h :: rest) (hx : s.serves .xlt = true)
    (hb : s.xlt.bds.get? h.bd = some b) (hkeys : s.rbdKeys b.domain = none) :
    ∃ t, exec .reedbedInsert s = .next t ∧ t.xlt.handoffs = rest ∧ t.xlt.bds = s.xlt.bds ∧ t.rbd = s.rbd ∧
      ∀ x, s.seq? h.seq = some x → ((t.seq? h.seq).bind Seq.noIdx) = some (x.noIdx.elim b.block (min · b.block)) := by
  have hno : ({ s with xlt := { s.xlt with handoffs := rest } } : State).rbdInsert h
      = State.noEntry { s with xlt := { s.xlt with handoffs := rest } } h b.block Reg.rbdNoentStateLo := by
    have hkeys' : ({ s with xlt := { s.xlt with handoffs := rest } } : State).rbdKeys b.domain = none := hkeys
    simp only [State.rbdInsert, hb, hkeys']
  refine ⟨_, exec_reedbedInsert_takes hq hx, ?_⟩
  rw [hno, State.afterIn_xlt rfl, State.afterIn_rbd rfl]
  have hindex := State.index_noEntry { s with xlt := { s.xlt with handoffs := rest } } h b.block Reg.rbdNoentStateLo
  refine ⟨State.handoffs_noEntry _ _ _ _, congrArg Prod.snd hindex, congrArg Prod.fst hindex, fun x hs => ?_⟩
  rw [State.seq?_afterIn rfl]
  exact State.noIdx_noEntry (s := { s with xlt := { s.xlt with handoffs := rest } }) hs _ _

/-! ### `ROW_MOVE` and `ROW_UE` (R142, R152) -/

theorem exec_rowMove_moves {n : Nat} {r : Assoc Nat Entry} (hd : s.rbd.dirtyRows.contains n = true)
    (hr : restoreStep (s.row n) = some r) :
    ∃ t, exec (.rowMove n) s = .next t ∧ t.row n = r ∧ (t.rbd.dirtyRows.contains n) = !rowRule r := by
  have hexec : exec (.rowMove n) s = .next (s.afterIn .index (if rowRule r then
      { (s.setRow n r).bump Reg.rbdMoveLo with
        rbd := { (s.setRow n r).rbd with dirtyRows := s.rbd.dirtyRows.filter (· != n) } }
      else (s.setRow n r).bump Reg.rbdMoveLo)) := by
    change execRowMove n s = _
    rw [execRowMove, if_pos hd, hr]
    rfl
  refine ⟨_, hexec, ?_⟩
  rw [State.row_of_rbd (State.afterIn_rbd rfl), State.afterIn_rbd rfl]
  split
  · next hrule =>
    refine ⟨s.row_setRow_same n r, ?_⟩
    simp [hrule]
  · next hrule =>
    refine ⟨s.row_setRow_same n r, ?_⟩
    rw [Bool.not_eq_true] at hrule
    rw [hrule]
    exact hd

/-- An error bit that a command sets last is set in the state after it. -/
theorem State.bit_setErr_afterIn {s u : State} {c : Scope} (h : c.regs = true) (e : Nat × Nat) (off : Nat) (he : e.2 < 32) :
    bit ((s.afterIn c (u.setErr e off)).reg (e.1 + off + 0x10)) e.2 = true := by
  have hset : bit ((u.setErr e off).reg (e.1 + off + 0x10)) e.2 = true := u.bit_setReg_or (e.1 + off + 0x10) he
  have hregs : (s.afterIn c (u.setErr e off)).regs = (u.setErr e off).regs := by
    simp only [State.afterIn, State.after_regs, State.only, h, cond_true]
  obtain ⟨v, hv⟩ : ∃ v, (u.setErr e off).regs.get? (e.1 + off + 0x10) = some v := ⟨_, Assoc.get?_set_same _ _ _⟩
  have hu : (u.setErr e off).reg (e.1 + off + 0x10) = v.toNat := by rw [State.reg, hv]
  rw [hu] at hset
  rw [State.reg, hregs, hv]
  exact hset

theorem State.rbd_fault (s : State) (u c r a d n : Nat) : (s.fault u c r a d n).rbd = s.rbd := by
  unfold State.fault
  dsimp only
  split <;> rfl

theorem State.rbd_declarePermanent (s : State) (u : Nat) : (s.declarePermanent u).rbd = s.rbd := by
  unfold State.declarePermanent
  split
  · rfl
  · rw [State.setEvt_rbd, State.rbd_fault]
    rfl

theorem State.rbd_holdOut (s : State) (a : Nat) : (s.holdOut a).rbd = s.rbd := by
  unfold State.holdOut
  extract_lets out
  split <;> rfl

theorem State.rbd_t0Ue (s : State) (a : Nat) : (s.t0Ue a).rbd = s.rbd := by
  unfold State.t0Ue
  extract_lets unit u flt v w
  have hu : u.rbd = s.rbd := s.rbd_fault _ _ _ _ _ _
  have hv : v.rbd = s.rbd := by
    unfold v
    split
    · split
      · exact hu
      · rw [State.setEvt_rbd, State.rbd_fault]
        exact hu
    · exact (u.rbd_holdOut a).trans hu
  have hw : w.rbd = s.rbd := hv
  split
  · exact (w.rbd_declarePermanent unit).trans hw
  · exact hw

theorem State.rbd_foldl_bump {α : Type} (s : State) (c : Nat) (l : List α) : (l.foldl (fun t _ => t.bump c) s).rbd = s.rbd := by
  induction l generalizing s with
  | nil => rfl
  | cons x l ih => exact ih (s.bump c)

/-- The state once a row is lost and written back empty, and its repair scan has started. -/
def State.withoutRow (s : State) (n : Nat) : State :=
  let t := (((s.row n).foldl (fun t _ => t.bump Reg.rbdWithdrawLo) s).setRow n []).t0Ue (s.rowAddr n)
  { t with rbd := { t.rbd with
    dirtyRows := t.rbd.dirtyRows.filter (· != n), scans := t.rbd.scans ++ [{ kind := .repair n, domains := [] }] } }

theorem State.withoutRow_keeps (s : State) (n : Nat) :
    (s.withoutRow n).row n = [] ∧ (s.withoutRow n).rbd.scans = s.rbd.scans ++ [{ kind := .repair n, domains := [] }] := by
  have hfold := s.rbd_foldl_bump Reg.rbdWithdrawLo (s.row n)
  unfold State.withoutRow
  generalize (s.row n).foldl (fun t _ => t.bump Reg.rbdWithdrawLo) s = u at hfold ⊢
  have hrbd := (u.setRow n []).rbd_t0Ue (s.rowAddr n)
  have hrow := (State.row_of_rbd hrbd n).trans (u.row_setRow_same n [])
  have hscans := congrArg Rbd.scans (hrbd.trans (congrArg (fun x : Rbd => { x with rows := (u.setRow n []).rbd.rows }) hfold))
  generalize (u.setRow n []).t0Ue (s.rowAddr n) = t at hrow hscans ⊢
  exact ⟨hrow, congrArg (· ++ [({ kind := .repair n, domains := [] } : Scan)]) hscans⟩

theorem exec_rowUe_loses {n : Nat} (hp : s.rbd.placed = true) (hn : n < 2 ^ 22) :
    ∃ t, exec (.rowUe n) s = .next t ∧ t.row n = [] ∧ t.rbd.scans = s.rbd.scans ++ [{ kind := .repair n, domains := [] }] ∧
      bit (t.reg (Err.rbdRowUe.1 + 0x10)) Err.rbdRowUe.2 = true := by
  have hexec : exec (.rowUe n) s = .next (s.afterIn .index ((s.withoutRow n).setErr Err.rbdRowUe)) := by
    change execRowUe n s = _
    rw [execRowUe, if_pos ⟨hp, hn⟩]
    rfl
  obtain ⟨hrow, hscans⟩ := s.withoutRow_keeps n
  have hrbd : (s.afterIn .index ((s.withoutRow n).setErr Err.rbdRowUe)).rbd = (s.withoutRow n).rbd := State.afterIn_rbd rfl
  refine ⟨_, hexec, (State.row_of_rbd hrbd n).trans hrow, (congrArg Rbd.scans hrbd).trans hscans, ?_⟩
  have hbit := State.bit_setErr_afterIn (s := s) (u := s.withoutRow n) (c := .index) rfl Err.rbdRowUe 0 (by decide)
  rwa [Nat.add_zero] at hbit

end

end Sys2Proof.Machine
end

section
/-! Reedbed's scans (R151, R152): the repair scan of a lost row and the resolve scan of its domains. -/

namespace Sys2Proof.Machine

/-! ### Work that the device runs for itself (R289 to R292) -/

/-- A scan that fits runs, once its cost has been charged. -/
theorem State.scanWork_of_fits {s : State} {n : Nat} (f : State → State)
    (h : s.backgroundFits .scrub (s.rowCost 0 0 n) (n / 8) = true) :
    ∃ u, s.scanWork n f = f u ∧ u.xlt = s.xlt ∧ u.rbd = s.rbd ∧ u.clients = s.clients := by
  unfold State.scanWork State.background
  extract_lets parts
  rw [if_pos h]
  refine ⟨_, rfl, ?_⟩
  split <;> exact ⟨rfl, rfl, rfl⟩

/-- Reedbed with other scans in progress. -/
def State.withScans (s : State) (l : List Scan) : State := { s with rbd := { s.rbd with scans := l } }

/-- Reedbed without the breaks of some domains. -/
def State.withoutBreaks (s : State) (ds : List Nat) : State :=
  { s with rbd := { s.rbd with breaks := s.rbd.breaks.filter fun b => !ds.contains b.domain } }

theorem State.rbdDom_of_rbd {s t : State} (h : t.rbd = s.rbd) (d : Nat) : t.rbdDom d = s.rbdDom d := by
  rw [State.rbdDom, h, State.rbdDom]

/-! ### `REPAIR_SCAN` (R152) -/

/-- A scan that clears `INDEXED` in the descriptors of a lost row. -/
def ScanKind.repairs : ScanKind → Bool
  | .repair _ => true
  | _ => false

/-- The row that a repair scan is of. -/
def ScanKind.lostRow : ScanKind → Nat
  | .repair n => n
  | _ => 0

/-- A block descriptor that no entry holds any more. -/
def State.unindex (s : State) (b : Nat) : State := (s.setBd b fun x => { x with indexed := false }).sweepBd b

theorem State.unindex_keeps (s : State) (b : Nat) : (s.unindex b).rbd = s.rbd ∧ (s.unindex b).clients = s.clients ∧
    (((s.unindex b).xlt.bds.get? b).all fun y => !y.indexed) = true := by
  obtain ⟨hrbd, hbds⟩ := (s.setBd b fun x => { x with indexed := false }).sweepBd_keeps b
  refine ⟨hrbd, State.clients_of_both (State.clientsAndSeqs_sweepBd _ b), hbds ?_⟩
  rw [State.setBd, Assoc.get?_modify_same]
  cases s.xlt.bds.get? b <;> rfl

/-- What a repair scan of a row does once its cost has been charged, where `hit` are the descriptors of that row. -/
def State.repairRow (s : State) (rest : List Scan) (hit : Assoc Nat Bd) : State :=
  let t := (s.withScans rest).forEach hit fun b t => t.unindex b.1
  let ds := (hit.map fun b => b.2.domain).eraseDups
  let t := if ds.isEmpty then t else t.startResolve ds (ds.filter fun d => (t.rbdDom d).linear)
  (t.setEvt Evt.rbdRepairDone).sluice

/-- The descriptors whose hash maps to a row and that say that an entry holds them. -/
def State.indexedIn (s : State) (n : Nat) : Assoc Nat Bd := s.xlt.bds.filter fun b => b.2.indexed && decide (rowOf b.2.hash = n)

theorem exec_repairScan_eq (s : State) : exec .repairScan s = .next (s.afterIn .search (match s.takeScan ScanKind.repairs with
    | some (x, rest) => s.scanWork s.bdBytes fun t => t.repairRow rest (s.indexedIn x.kind.lostRow)
    | none => s)) := rfl

/-- The resolve scan of a domain, which ends its linear search. -/
def State.resolveOf (s : State) (d : Nat) : Scan :=
  { kind := .resolve, domains := [d], linear := [d].filter fun d => (s.rbdDom d).linear }

/-- A repair scan of a row to which one descriptor maps. -/
theorem State.repairRow_one {s : State} (rest : List Scan) (y : Nat × Bd) (hn : s.noPlacements) :
    (s.repairRow rest [y]).rbd.scans = rest ++ [s.resolveOf y.2.domain] ∧
      (((s.repairRow rest [y]).xlt.bds.get? y.1).all fun b => !b.indexed) = true := by
  obtain ⟨hrbd, hcl, hbds⟩ := (s.withScans rest).unindex_keeps y.1
  have hone : (y.2.domain :: List.map (fun b : Nat × Bd => b.2.domain) []).eraseDups = [y.2.domain] := rfl
  rw [State.repairRow, List.map_cons, hone, State.forEach, List.foldl_cons, List.foldl_nil]
  generalize (s.withScans rest).unindex y.1 = u at hrbd hcl hbds ⊢
  have hdom (d : Nat) : u.rbdDom d = s.rbdDom d := State.rbdDom_of_rbd (s := s.withScans rest) hrbd d
  have hidle : ((u.startResolve [y.2.domain] ([y.2.domain].filter fun d => (u.rbdDom d).linear)).setEvt Evt.rbdRepairDone).noPlacements :=
    State.noPlacements_of_clients hn hcl
  dsimp only [List.isEmpty_cons]
  rw [if_neg Bool.false_ne_true, State.sluice_idle _ hidle, State.setEvt_rbd, State.setEvt_xlt, State.startResolve]
  simp only [hdom, hrbd]
  exact ⟨rfl, hbds⟩

theorem exec_repairScan_ends {s : State} {x : Scan} {rest : List Scan} {n : Nat} {y : Nat × Bd}
    (hx : s.takeScan ScanKind.repairs = some (x, rest)) (hk : x.kind = .repair n) (hy : s.indexedIn n = [y])
    (hfit : s.backgroundFits .scrub (s.rowCost 0 0 s.bdBytes) (s.bdBytes / 8) = true) (hn : s.noPlacements) :
    ∃ t, exec .repairScan s = .next t ∧ t.rbd.scans = rest ++ [s.resolveOf y.2.domain] ∧
      ((t.xlt.bds.get? y.1).all fun b => !b.indexed) = true := by
  have hrow : x.kind.lostRow = n := by rw [hk, ScanKind.lostRow]
  obtain ⟨u, hu, -, hrbd, hcl⟩ := State.scanWork_of_fits (fun t => t.repairRow rest [y]) hfit
  refine ⟨_, exec_repairScan_eq s, ?_⟩
  rw [hx]
  dsimp only
  rw [hrow, hy, hu, State.afterIn_rbd rfl, State.afterIn_xlt rfl]
  obtain ⟨hscans, hbds⟩ := State.repairRow_one rest y (State.noPlacements_of_clients hn hcl)
  refine ⟨hscans.trans ?_, hbds⟩
  simp only [State.resolveOf, State.rbdDom_of_rbd hrbd]

/-! ### `RESOLVE_SCAN` (R151, R152) -/

/-- Some domains search by galloping again. -/
def State.leaveLinear (s : State) (l : List Nat) : State := s.forEach l fun d t => t.setRbdDom d fun y => { y with linear := false }

theorem State.rbdDom_setRbdDom (s : State) (d e : Nat) (f : RbdDom → RbdDom) :
    (s.setRbdDom d f).rbdDom e = if e = d then f (s.rbdDom d) else s.rbdDom e := by
  rw [State.rbdDom, State.setRbdDom]
  split
  · next h => rw [h, Assoc.getD_set_same]
  · next h => rw [Assoc.getD_set_other _ _ _ _ _ h, State.rbdDom]

theorem State.leaveLinear_keeps (s : State) (l : List Nat) : (s.leaveLinear l).rbd.scans = s.rbd.scans ∧
    (s.leaveLinear l).rbd.breaks = s.rbd.breaks ∧ (s.leaveLinear l).clients = s.clients ∧
    ∀ d, (s.rbdDom d).linear = false ∨ d ∈ l → ((s.leaveLinear l).rbdDom d).linear = false := by
  induction l generalizing s with
  | nil => exact ⟨rfl, rfl, rfl, fun d hd => hd.resolve_right List.not_mem_nil⟩
  | cons e l ih =>
    obtain ⟨hscans, hbreaks, hcl, hlin⟩ := ih (s.setRbdDom e fun y => { y with linear := false })
    refine ⟨hscans, hbreaks, hcl, fun d hd => hlin d ?_⟩
    rw [State.rbdDom_setRbdDom]
    split
    · exact .inl rfl
    · next hne => simpa [hne] using hd

/-- What a resolve scan does once its cost has been charged. -/
def State.resolveAll (s : State) (x : Scan) (rest : List Scan) : State :=
  let t := x.domains.foldl State.arrivedFirst (s.withScans rest)
  let t := (t.indexedBds x.domains).foldl (fun t b => t.resolveBd b.1) t
  (((t.withoutBreaks x.domains).leaveLinear x.linear).setEvt Evt.rbdRepairDone).sluice

theorem State.clients_resolveBd (s : State) (b : Nat) : (s.resolveBd b).clients = s.clients := by
  unfold State.resolveBd
  split
  · rfl
  · split
    · rfl
    · split
      · exact State.clients_of_still (s.still_withdraw _ _)
      · exact (s.unindex_keeps b).2.1

/-- A sequence of changes to rows alone leaves the rest of Reedbed and the clients of the stores. -/
theorem State.foldl_keeps {α : Type} {f : State → α → State} (h : ∀ t x, (f t x).rbdRest = t.rbdRest ∧ (f t x).clients = t.clients)
    (l : List α) (s : State) : (l.foldl f s).rbdRest = s.rbdRest ∧ (l.foldl f s).clients = s.clients := by
  induction l generalizing s with
  | nil => exact ⟨rfl, rfl⟩
  | cons x l ih =>
    obtain ⟨hrest, hcl⟩ := ih (f s x)
    obtain ⟨hrest', hcl'⟩ := h s x
    exact ⟨hrest.trans hrest', hcl.trans hcl'⟩

theorem State.resolveAll_ends {s : State} (x : Scan) (rest : List Scan) (hn : s.noPlacements) :
    (s.resolveAll x rest).rbd.scans = rest ∧ ((s.resolveAll x rest).rbd.breaks.any fun b => x.domains.contains b.domain) = false ∧
      (x.linear.any fun d => ((s.resolveAll x rest).rbdDom d).linear) = false := by
  unfold State.resolveAll
  extract_lets t u
  obtain ⟨ht, htcl⟩ := State.foldl_keeps (f := State.arrivedFirst)
    (fun t d => ⟨t.rbdRest_arrivedFirst d, State.clients_of_still (t.still_arrivedFirst d)⟩) x.domains (s.withScans rest)
  obtain ⟨hu, hucl⟩ := State.foldl_keeps (f := fun t (b : Nat × Bd) => t.resolveBd b.1)
    (fun t b => ⟨t.rbdRest_resolveBd b.1, t.clients_resolveBd b.1⟩) (t.indexedBds x.domains) t
  obtain ⟨hscans, hbreaks, hcl, hlin⟩ := (u.withoutBreaks x.domains).leaveLinear_keeps x.linear
  have hidle : (((u.withoutBreaks x.domains).leaveLinear x.linear).setEvt Evt.rbdRepairDone).noPlacements :=
    State.noPlacements_of_clients hn (hcl.trans (hucl.trans htcl))
  rw [State.sluice_idle _ hidle, State.setEvt_rbd]
  refine ⟨hscans.trans (congrArg Rbd.scans (hu.trans ht) :), ?_, ?_⟩
  · rw [hbreaks, List.any_eq_false]
    intro b hb
    simpa using (List.mem_filter.mp hb).2
  · exact List.any_eq_false.mpr fun d hd => Bool.not_eq_true _ ▸ hlin d (.inr hd)

theorem exec_resolveScan_eq (s : State) : exec .resolveScan s = .next (s.afterIn .search
    (match s.takeScan fun k => k == .resolve with
     | some (x, rest) => if s.islandOn searchIsland then
         s.scanWork (s.bdBytes + 2048 * (s.indexedBds x.domains).length) fun t => t.resolveAll x rest
       else s
     | none => s)) := rfl

theorem exec_resolveScan_ends {s : State} {x : Scan} {rest : List Scan} {n : Nat}
    (hx : s.takeScan (fun k => k == .resolve) = some (x, rest)) (hon : s.islandOn searchIsland = true)
    (hbytes : s.bdBytes + 2048 * (s.indexedBds x.domains).length = n)
    (hfit : s.backgroundFits .scrub (s.rowCost 0 0 n) (n / 8) = true) (hn : s.noPlacements) :
    ∃ t, exec .resolveScan s = .next t ∧ t.rbd.scans = rest ∧ (t.rbd.breaks.any fun b => x.domains.contains b.domain) = false ∧
      (x.linear.any fun d => (t.rbdDom d).linear) = false := by
  obtain ⟨u, hu, -, -, hcl⟩ := State.scanWork_of_fits (fun t => t.resolveAll x rest) hfit
  obtain ⟨hscans, hbreaks, hlin⟩ := State.resolveAll_ends x rest (State.noPlacements_of_clients hn hcl)
  refine ⟨_, exec_resolveScan_eq s, ?_⟩
  rw [hx]
  dsimp only
  rw [if_pos hon, hbytes, hu]
  have hrbd : (s.afterIn .search (u.resolveAll x rest)).rbd = (u.resolveAll x rest).rbd := State.afterIn_rbd rfl
  simp only [hrbd, State.rbdDom_of_rbd hrbd]
  exact ⟨hscans, hbreaks, hlin⟩

end Sys2Proof.Machine
end

section
/-! Probe slots and the sensor of Reedbed's search (R145, R158, R160, R161), and with them the commands of Reedbed's engines. -/

namespace Sys2Proof.Machine

/-! ### The end of a search (R145) -/

section
variable (s : State)

theorem State.clients_modEntry (n b : Nat) (f : Entry → Entry) : (s.modEntry n b f).clients = s.clients :=
  State.clients_of_still (s.still_modEntry n b f)

/-- The state once a search has left the table, its cost its domain's backlog, and the counters of lookups have moved. -/
def State.withoutSearch (x : Search) : State :=
  let s := { s with rbd := { s.rbd with searches := s.rbd.searches.filter fun y => y.num != x.num } }
  let s := (s.bump Reg.rbdLookupLo).release x.domain x.cost
  if x.gallop then s.bump Reg.rbdGallopLo else s

/-- The touches of a search, after the hand-offs that arrived before them (R145, R156). -/
def State.writeTouches (x : Search) : State :=
  (if x.touches.isEmpty then s else s.arrivedFirst x.domain).forEach x.touches fun t s =>
    s.modEntry t.1 t.2 fun e => { e with hi := max e.hi x.touchHi }

theorem State.endSearch_eq (x : Search) : s.endSearch x = ((s.withoutSearch x).complete x.req x.result).writeTouches x := rfl

/-- Work that completes moves budgets alone. -/
theorem State.release_keeps (d cost : Nat) : (s.release d cost).clients = s.clients ∧ (s.release d cost).rbd = s.rbd := by
  unfold State.release
  extract_lets t
  split <;> exact ⟨rfl, rfl⟩

theorem State.withoutSearch_keeps (x : Search) : (s.withoutSearch x).clients = s.clients ∧
    (s.withoutSearch x).rbd.searches = s.rbd.searches.filter fun y => y.num != x.num := by
  unfold State.withoutSearch
  extract_lets src t u
  obtain ⟨hcl, hrbd⟩ := (t.bump Reg.rbdLookupLo).release_keeps x.domain x.cost
  have hu : u.clients = s.clients ∧ u.rbd.searches = s.rbd.searches.filter fun y => y.num != x.num :=
    ⟨hcl, congrArg Rbd.searches hrbd⟩
  split <;> exact hu

theorem State.writeTouches_keeps (x : Search) :
    (s.writeTouches x).rbdRest = s.rbdRest ∧ (s.writeTouches x).clients = s.clients := by
  have harr : (if x.touches.isEmpty then s else s.arrivedFirst x.domain).rbdRest = s.rbdRest ∧
      (if x.touches.isEmpty then s else s.arrivedFirst x.domain).clients = s.clients := by
    split
    · exact ⟨rfl, rfl⟩
    · exact ⟨s.rbdRest_arrivedFirst _, State.clients_of_still (s.still_arrivedFirst _)⟩
  obtain ⟨hrest, hcl⟩ := State.foldl_keeps (f := fun (s : State) (t : Nat × Nat) => s.modEntry t.1 t.2 fun e =>
    { e with hi := max e.hi x.touchHi }) (fun t y => ⟨t.rbdRest_modEntry _ _ _, t.clients_modEntry _ _ _⟩) x.touches _
  exact ⟨hrest.trans harr.1, hcl.trans harr.2⟩

end

/-- A search that ends is gone, and its requester, one that waited before the search's last steps, has its result (R145). -/
theorem State.endSearch_ends {s u : State} (x : Search) (hcl : u.clients = s.clients) :
    ((u.endSearch x).rbd.searches.any fun y => y.num == x.num) = false ∧
      ∀ q c, x.req = .ring q → x.result.status = .ok → s.waitsFor q c → s.posts (u.endSearch x) q c .ok = true := by
  obtain ⟨hcl', hsearches⟩ := u.withoutSearch_keeps x
  obtain ⟨hrest, hdone⟩ := ((u.withoutSearch x).complete x.req x.result).writeTouches_keeps x
  rw [State.endSearch_eq]
  refine ⟨?_, fun q c hq hok hw => ?_⟩
  · rw [show (State.writeTouches _ x).rbd.searches = (u.withoutSearch x).rbd.searches from (congrArg Rbd.searches hrest :),
      hsearches, List.any_eq_false]
    intro y hy
    simpa using (List.mem_filter.mp hy).2
  · rw [← hok]
    refine State.posts_of_clients (k := x.result) hw (hcl'.trans hcl) ?_ (by simp [hok]) (by simp [hok])
    rw [hq] at hdone ⊢
    exact congrArg (fun z => z.2.1) hdone

/-! ### `PROBE_GRANT` (R158, R161) -/

/-- The state once a probe slot has gone to a search of a domain. -/
def State.granted (s : State) (d : Nat) (x : Search) : State :=
  let wrap := decide (s.rbd.slot16 = 15)
  let t := ({ s with rbd := { s.rbd with
    slot16 := if wrap then 0 else s.rbd.slot16 + 1, scan16 := if wrap then 0 else s.rbd.scan16 + 0 } } : State).probeRow d (x.probes.headD 0)
  let slots := if t.rbd.rrDom = d then t.rbd.rrSlots + 1 else 1
  { t with rbd := { t.rbd with
    rrDom := d, rrSlots := slots
    searches := updFirst (fun y => y.num == x.num) (fun y => { y with probes := y.probes.drop 1 }) t.rbd.searches } }

/-- The state once a probe slot has gone to the scans. -/
def State.scanned (s : State) : State :=
  let wrap := decide (s.rbd.slot16 = 15)
  ({ s with rbd := { s.rbd with
    slot16 := if wrap then 0 else s.rbd.slot16 + 1, scan16 := if wrap then 0 else s.rbd.scan16 + 1 } } : State).bump Reg.rbdProbeLo

theorem State.probeRow_keeps (s : State) (d n : Nat) : (s.probeRow d n).clients = s.clients ∧
    (s.probeRow d n).rbd.searches = s.rbd.searches ∧ (s.probeRow d n).rbd.lastDom = some d := by
  unfold State.probeRow
  extract_lets x t u src v hit lines w
  have hu : u.clients = s.clients ∧ u.rbd = s.rbd := by
    unfold u
    split <;> exact ⟨rfl, rfl⟩
  obtain ⟨hcl, hrbd⟩ := hu
  rw [State.clients_bumpD, State.rbd_bumpD]
  exact ⟨hcl, (congrArg Rbd.searches hrbd :), rfl⟩

theorem State.granted_keeps (s : State) (d : Nat) (x : Search) : (s.granted d x).clients = s.clients ∧
    (s.granted d x).rbd.searches = updFirst (fun y => y.num == x.num) (fun y => { y with probes := y.probes.drop 1 }) s.rbd.searches ∧
    (s.granted d x).rbd.rrDom = d ∧ (s.granted d x).rbd.lastDom = some d := by
  unfold State.granted
  extract_lets wrap src t slots
  obtain ⟨hcl, hsearches, hlast⟩ := State.probeRow_keeps _ d (x.probes.headD 0)
  exact ⟨(hcl :), (congrArg (updFirst _ _) hsearches :), rfl, (hlast :)⟩

/-- While no scan is in progress, the slot goes to the search of the domain whose turn it is. -/
theorem exec_probeGrant_search {s : State} {d : Nat} {x : Search} (hrun : s.searchRuns = true) (hscans : s.rbd.scans = [])
    (hturn : s.probeTurn = some d) (hx : (s.searchesRun.find? fun y => y.domain == d && !y.probes.isEmpty) = some x) :
    exec .probeGrant s
      = .next (s.afterIn .search (if x.probes.length ≤ 1 then (s.granted d x).endSearch x else s.granted d x)) := by
  change execProbeGrant s = _
  unfold execProbeGrant
  extract_lets share scans wrap base
  have hno : scans = false := by
    unfold scans
    rw [hscans, List.any_nil]
  rw [if_pos hrun, hno, Bool.false_and, if_neg Bool.false_ne_true, hturn]
  dsimp only
  rw [hx]
  rfl

section
variable {s : State} {d n : Nat} {x : Search} (hrun : s.searchRuns = true) (hscans : s.rbd.scans = []) (hturn : s.probeTurn = some d)
  (hx : (s.searchesRun.find? fun y => y.domain == d && !y.probes.isEmpty) = some x)
include hrun hscans hturn hx

/-- The last probe of a search ends it. -/
theorem exec_probeGrant_last (hp : x.probes = [n]) (hok : x.result.status = .ok) :
    ∃ t, exec .probeGrant s = .next t ∧ (t.rbd.searches.any fun y => y.num == x.num) = false ∧
      ∀ q c, x.req = .ring q → s.waitsFor q c → s.posts t q c .ok = true := by
  obtain ⟨hcl, -, -, -⟩ := s.granted_keeps d x
  obtain ⟨hgone, hposts⟩ := State.endSearch_ends x hcl
  refine ⟨_, exec_probeGrant_search hrun hscans hturn hx, ?_, fun q c hq hw => ?_⟩
  · rw [State.afterIn_rbd rfl, if_pos (by simp [hp])]
    exact hgone
  · rw [State.posts_afterIn rfl, if_pos (by simp [hp])]
    exact hposts q c hq hok hw

/-- The next probe of a search leaves its other probes waiting. -/
theorem exec_probeGrant_more {ps : List Nat} (hp : x.probes = n :: ps) (hne : ps ≠ [])
    (hfind : (s.rbd.searches.find? fun y => y.num == x.num) = some x) :
    ∃ t, exec .probeGrant s = .next t ∧ ((t.rbd.searches.find? fun y => y.num == x.num).map Search.probes) = some ps ∧
      t.rbd.rrDom = d ∧ t.rbd.lastDom = some d := by
  obtain ⟨-, hsearches, hdom, hlast⟩ := s.granted_keeps d x
  have hmore : ¬ x.probes.length ≤ 1 := by
    rw [hp, List.length_cons]
    have := List.length_pos_iff.mpr hne
    omega
  refine ⟨_, exec_probeGrant_search hrun hscans hturn hx, ?_⟩
  rw [if_neg hmore, State.afterIn_rbd rfl, hsearches]
  refine ⟨?_, hdom, hlast⟩
  rw [find?_updFirst (fun y : Search => y.num == x.num) (fun y => { y with probes := y.probes.drop 1 }) (fun _ h => h), hfind]
  simp [hp]

end

/-- A slot within the share of the scans goes to them. -/
theorem exec_probeGrant_scan {s : State} (hrun : s.searchRuns = true) (hscan : (s.rbd.scans.any fun x => x.kind == .resolve) = true)
    (hshare : s.rbd.scan16 < max 1 (s.fld Reg.rbdCfg 3 0)) : exec .probeGrant s = .next (s.afterIn .search s.scanned) := by
  change execProbeGrant s = _
  unfold execProbeGrant
  extract_lets share scans wrap base
  have hany : scans = true := by
    obtain ⟨y, hy, hk⟩ := List.any_eq_true.mp hscan
    refine List.any_eq_true.mpr ⟨y, hy, ?_⟩
    rw [eq_of_beq hk]
  rw [if_pos hrun, hany, Bool.true_and, if_pos (decide_eq_true hshare)]
  rfl

theorem State.scanned_keeps (s : State) : s.scanned.rbd.searches = s.rbd.searches ∧
    (s.scanned.rbd.slot16, s.scanned.rbd.scan16) = (if s.rbd.slot16 = 15 then (0, 0) else (s.rbd.slot16 + 1, s.rbd.scan16 + 1)) ∧
    s.scanned.ctrs.getD Reg.rbdProbeLo 0 = (s.ctrs.getD Reg.rbdProbeLo 0 + 1) % 2 ^ 64 := by
  refine ⟨rfl, ?_, Assoc.getD_set_same _ _ _ _⟩
  unfold State.scanned
  by_cases h : s.rbd.slot16 = 15 <;> simp [h, State.bump]

/-! ### `PROBE_RATE_SAMPLE` (R160) -/

theorem exec_probeRateSample_samples (s : State) (v : Int) :
    ∃ t, exec (.probeRateSample v) s = .next t ∧ t.rbd.rateShift = nextShift s.rbd.rateShift (s.fld Reg.rbdCfg 7 4) v ∧
      t.rbd.temp = v / 10 ∧ t.rbd.rows = s.rbd.rows := by
  change ∃ t, execProbeRateSample v s = .next t ∧ _
  unfold execProbeRateSample
  extract_lets old new src t u
  have hu : u.rbd = { s.rbd with temp := v / 10, rateShift := new } := by
    unfold u
    split <;> rfl
  refine ⟨_, rfl, ?_⟩
  have hend : (if new = old then u else u.setEvt Evt.rbdThrottle).rbd = u.rbd := by
    split <;> rfl
  rw [State.afterIn_rbd rfl, hend, hu]
  exact ⟨rfl, rfl, rfl⟩

/-! ### The commands of Reedbed's engines -/

/-- Settles O29: each command of the update engine, of the scans and of the search itself has the effect its rule gives. -/
theorem reedbedEngineCommandsComplete : Obligations.ReedbedEngineCommandsComplete := by
  refine ⟨?_, ?_, ?_, ?_, ?_, ?_, ?_, ?_, ?_, ?_⟩
  · intro s h rest b hq hx hb hkeys hon hpurge hen hroot hrange hhi hdup hquota hroom hrule
    exact exec_reedbedInsert_enters hq hx hb hkeys hon hpurge hen hroot hrange hhi hdup hquota hroom hrule
  · intro s h rest b hq hx hb hkeys
    obtain ⟨t, ht, hrest, hbds, hrbd, hno⟩ := exec_reedbedInsert_noKeys hq hx hb hkeys
    refine ⟨t, ht, hrest, hbds, hrbd, fun x hs => (hno x hs).trans ?_⟩
    cases x.noIdx <;> rfl
  · intro s n r hd hr
    exact exec_rowMove_moves hd hr
  · intro s n hp hn
    exact exec_rowUe_loses hp hn
  · intro s x rest n y hx hk hy _ hfit hn
    exact exec_repairScan_ends hx hk hy hfit hn
  · intro s x rest hx hon hfit hn
    exact exec_resolveScan_ends hx hon rfl hfit hn
  · intro s d x n hrun hscans hturn hx hp hok
    exact exec_probeGrant_last hrun hscans hturn hx hp hok
  · intro s d x n ps hrun hscans hturn hx hp hne hfind
    exact exec_probeGrant_more hrun hscans hturn hx hp hne hfind
  · intro s hrun hscan hshare
    obtain ⟨hsearches, hslots, hctr⟩ := s.scanned_keeps
    refine ⟨_, exec_probeGrant_scan hrun hscan hshare, ?_⟩
    rw [State.afterIn_rbd rfl, State.afterIn_ctrs rfl]
    exact ⟨hsearches, hslots, hctr⟩
  · exact exec_probeRateSample_samples

end Sys2Proof.Machine
end

section
/-! A lookup admitted under a number that an ended search still bears (R154): the counterexample to `PrefixCommandsComplete`. -/

namespace Sys2Proof.Machine

/-- `PREFIX_LOOKUP` of kind 2 in flight, with 48 bytes of input and room for 64 of output. -/
def oneBlockLookupCmd : InFlight :=
  { num := 0, cid := 7, opcode := 0x1A, fence := false, inLen := 48, inAddr := 4096
    ops := leBytes 8 0 ++ leBytes 4 64 ++ List.replicate 36 0#8, sqHead := 1, arrived := 0 }

/-- The command's input: one block of list 5, under model tag 3, with no range predicate. -/
def oneBlockLookup : List Byte :=
  leBytes 1 2 ++ leBytes 1 0 ++ leBytes 2 3 ++ leBytes 2 0 ++ leBytes 2 5 ++ leBytes 24 0 ++ leBytes 4 1 ++ leBytes 12 0

/-- The list, of one block. -/
def oneBlockList : HashList := { domain := 1, tag := 3, blocks := [(9#64, 9#32)] }

/-- The reference to the command: ring 0 of VF 0. -/
def oneBlockRef : CmdRef := { func := 1, ring := 0, num := 0 }

/-- The ring that has fetched the command. -/
def oneBlockRing : Ring := { st := .active, inflight := [oneBlockLookupCmd], sqHead := 1, sqTail := 1, nextNum := 1 }

/-- A search that has no row left to probe, and bears the number of the next admission. -/
def straySearch : Search := { num := 0, domain := 1, probes := [], req := .device, result := {} }

/-- Reedbed with that search: its island is on, it is enabled, and no credits are counted yet. -/
def strayState : State :=
  { State.reset with
    regs := State.reset.regs.set Reg.rbdCfg 0x80000012#32
    glb := { State.reset.glb with phase := .ready }
    hif := { State.reset.hif with
      linkUp := true
      funcs := [(1, { bound := true, domain := 1, rings := 4, ringTab := [(0, oneBlockRing)] })] }
    lve := { doms := [(1, { st := .active })] }
    xlt := {
      placed := true
      models := [((1, 3), { layers := 1, kvHeads := 1, qHeads := 1, headDim := 32, format := 1, maxHg := 0 })] }
    pwr := { State.reset.pwr with islands := [(searchIsland, .on)] }
    rbd := { placed := true, searches := [straySearch], lists := [(5, oneBlockList)] } }

/-- The lookup joins the searches under the stray search's number, and goes with it when that one ends. -/
theorem exec_cmdPrefixLookup_stray :
    ∃ t, exec (.cmdPrefixLookup oneBlockRef (.bytes oneBlockLookup)) strayState = .next t ∧ t.rbd.searches = [] :=
  ⟨_, rfl, by decide +kernel⟩

/-- Refutes O28: the clauses of the lookups hold only while no live search bears the number of the next admission, and they do not ask
for it. An admission begins the search of its number; where a search without probes already bears that number, it is this one that
ends, and the new search leaves the table with it. No command brings such a state about, since every admission counts on. -/
theorem not_prefixCommandsComplete : ¬ Obligations.PrefixCommandsComplete := by
  unfold Obligations.PrefixCommandsComplete
  rintro ⟨-, -, -, lookupByList, -⟩
  obtain ⟨t, ht, -, -, hgrown⟩ := lookupByList strayState oneBlockRef oneBlockLookupCmd oneBlockLookup _ _ oneBlockList
    (by decide +kernel) (by decide +kernel) rfl (by decide +kernel) (by decide +kernel) (by decide +kernel) (by decide +kernel)
    (by decide +kernel) (by decide +kernel) (by decide +kernel) rfl (by decide +kernel)
  obtain ⟨u, hu, hnone⟩ := exec_cmdPrefixLookup_stray
  obtain rfl : u = t := Host.Outcome.next.inj (hu.symm.trans ht)
  rw [hnone] at hgrown
  exact absurd hgrown (by decide)

end Sys2Proof.Machine
end

section
/-! Bytes that have been stored read back, and listing memory again changes no byte (R15, R16). -/

namespace Sys2Proof.Machine

/-! ### Memory -/

/-- Listing any cells in canonical form changes no byte: the first cell of an address is the one that counts in both. -/
theorem Memory.read_canon_any (m : List Host.Cell) (x : Nat) : Memory.read (Memory.canon m) x = Memory.read m x := by
  induction m with
  | nil => rfl
  | cons c m ih =>
    obtain ⟨k, d⟩ := c
    change Memory.read (Memory.write (Memory.canon m) k d) x = _
    by_cases hx : x = k
    · subst hx
      simp [Memory.read_write_same _ _ _ (Memory.canon_wf m), Memory.read]
    · rw [Memory.read_write_other _ _ _ _ hx, ih, Memory.read, if_neg (Ne.symm hx)]

/-- Cells of other addresses can be left out of a read. -/
theorem Memory.read_filter {m : List Host.Cell} {p : Host.Cell → Bool} {x : Nat} (h : ∀ d, p (x, d) = true) :
    Memory.read (m.filter p) x = Memory.read m x := by
  induction m with
  | nil => rfl
  | cons c m ih =>
    obtain ⟨k, d⟩ := c
    by_cases hk : k = x
    · subst hk
      simp [h, Memory.read]
    · rw [List.filter_cons, Memory.read, if_neg hk, ← ih]
      split
      · rw [Memory.read, if_neg hk]
      · rfl

/-- Cells before an address can be left out of a read. -/
theorem Memory.read_append {m : List Host.Cell} (n : List Host.Cell) {x : Nat} (h : ∀ c ∈ m, c.1 ≠ x) :
    Memory.read (m ++ n) x = Memory.read n x := by
  induction m with
  | nil => rfl
  | cons c m ih =>
    rw [List.cons_append, Memory.read, if_neg (h c List.mem_cons_self)]
    exact ih fun d hd => h d (List.mem_cons_of_mem _ hd)

theorem le_of_mem_cellsAt {a : Nat} {bs : List Byte} {c : Host.Cell} (h : c ∈ cellsAt a bs) : a ≤ c.1 := by
  induction bs generalizing a with
  | nil => cases h
  | cons b bs ih =>
    rw [cellsAt] at h
    split at h
    · have := ih h
      omega
    · rcases List.mem_cons.mp h with rfl | h
      · exact Nat.le_refl _
      · have := ih h
        omega

/-- The cells of a run of bytes give those bytes. -/
theorem Memory.read_cellsAt {bs : List Byte} {a i : Nat} (n : List Host.Cell) (hi : i < bs.length)
    (hn : ∀ c ∈ n, a + bs.length ≤ c.1) : Memory.read (cellsAt a bs ++ n) (a + i) = bs[i] := by
  induction bs generalizing a i with
  | nil => cases hi
  | cons b bs ih =>
    rw [List.length_cons] at hn hi
    have hrest : ∀ c ∈ n, a + 1 + bs.length ≤ c.1 := fun c hc => by
      have := hn c hc
      omega
    cases i with
    | zero =>
      rw [cellsAt]
      split
      · next hb =>
        refine (Memory.read_of_lt _ _ fun c hc => ?_).trans hb.symm
        rcases List.mem_append.mp hc with hc | hc
        · have := le_of_mem_cellsAt hc
          omega
        · have := hrest c hc
          omega
      · exact if_pos rfl
    | succ i =>
      have hstep := ih (i := i) (by omega) hrest
      rw [show a + (i + 1) = a + 1 + i by omega, cellsAt]
      split
      · exact hstep
      · rw [List.cons_append, Memory.read, if_neg (by omega)]
        exact hstep

theorem State.memRead_eq (s : State) (tier a n : Nat) :
    s.memRead tier a n = (List.range n).map fun i => Memory.read s.mem (memKey tier a + i) := by
  refine List.map_congr_left fun i hi => Memory.read_filter fun d => ?_
  have := List.mem_range.mp hi
  simp [this]

/-- A run of bytes that has been written reads back. -/
theorem State.memRead_memWrite (s : State) (tier a : Nat) (bs : List Byte) : (s.memWrite tier a bs).memRead tier a bs.length = bs := by
  rw [State.memRead_eq]
  refine List.ext_getElem (by simp) fun i hi hb => ?_
  rw [List.getElem_map, List.getElem_range, State.memWrite, List.append_assoc,
    Memory.read_append _ fun c hc => Nat.ne_of_lt (Nat.lt_add_right i (of_decide_eq_true (List.mem_filter.mp hc).2))]
  exact Memory.read_cellsAt _ hb fun c hc => of_decide_eq_true (List.mem_filter.mp hc).2

theorem State.memRead_of_mem {s t : State} (h : t.mem = s.mem) (tier a n : Nat) : t.memRead tier a n = s.memRead tier a n := by
  rw [State.memRead, h, State.memRead]

/-- The end of a command that stores bytes changes none. -/
theorem State.memRead_afterMemIn (s : State) (c : Scope) (u : State) (tier a n : Nat) :
    (s.afterMemIn c u).memRead tier a n = u.memRead tier a n := by
  simp only [State.memRead_eq, State.mem_afterMemIn, Memory.read_canon_any]

end Sys2Proof.Machine
end

section
/-! Frames and their entries, and what the operations on frames, extents and lines leave alone (R166, R171, R185). -/

namespace Sys2Proof.Machine

/-! ### Frames -/

/-- The entry of a frame is read from the tables of the translation unit alone. -/
theorem State.frame?_of_xlt {s t : State} (h : t.xlt = s.xlt) (f : FrameId) : t.frame? f = s.frame? f := by
  cases f <;> simp only [State.frame?, State.seq?, State.modelOf, State.modelOfBd, State.model?, h]

/-- What an entry says of its frame once its generation, home, poison and moving state are those of another. -/
def FrameInfo.retold (i v : FrameInfo) : FrameInfo := { i with gen := v.gen, home := v.home, poison := v.poison, moving := v.moving }

/-- A change of a frame's entry shows in it. -/
theorem State.frame?_setFrame (s : State) (f : FrameId) (u : FrameInfo → FrameInfo) :
    (s.setFrame f u).frame? f = (s.frame? f).map fun i => i.retold (u i) := by
  unfold State.setFrame
  cases hf : s.frame? f with
  | none => simpa using hf
  | some v =>
    dsimp only
    cases f with
    | page i l h p =>
      simp only [State.frame?, Option.bind_eq_some_iff] at hf
      obtain ⟨q, hq, e, he, hv⟩ := hf
      split at hv
      · cases hv
      · next hs =>
        obtain rfl := Option.some.inj hv
        rw [State.frame?, State.seq?_setSeq_same hq]
        simp only [Option.bind_some, Assoc.get?_modify_same, he, Option.map_some, hs, FrameInfo.retold]
        rfl
    | slot b k =>
      simp only [State.frame?, Option.bind_eq_some_iff, Option.map_eq_some_iff] at hf
      obtain ⟨x, hx, e, he, rfl⟩ := hf
      simp [State.frame?, State.setBd, Assoc.get?_modify_same, hx, he, FrameInfo.retold, State.modelOfBd, State.model?]
    | obj n p =>
      simp only [State.frame?, Option.bind_eq_some_iff, Option.map_eq_some_iff] at hf
      obtain ⟨o, ho, e, he, rfl⟩ := hf
      simp [State.frame?, State.setObj, Assoc.get?_modify_same, ho, he, FrameInfo.retold]
    | table | bdPage =>
      simp only [State.frame?, Option.map_eq_some_iff] at hf
      obtain ⟨e, he, rfl⟩ := hf
      simp [State.frame?, Assoc.get?_modify_same, he, FrameInfo.retold]

/-- A change of a frame's entry changes the tables of the translation unit alone. -/
theorem State.setFrame_eq (s : State) (f : FrameId) (u : FrameInfo → FrameInfo) :
    ∃ x, s.setFrame f u = { s with xlt := x } := by
  unfold State.setFrame
  split
  · exact ⟨_, rfl⟩
  · dsimp only
    split <;> exact ⟨_, rfl⟩

/-- A change of a page's entry leaves its sequence, but for its pages. -/
theorem State.seq?_setFrame (s : State) (f : FrameId) (u : FrameInfo → FrameInfo) (i : Nat) :
    ((s.setFrame f u).seq? i).map (fun q => { q with ptes := [] }) = (s.seq? i).map fun q => { q with ptes := [] } := by
  unfold State.setFrame
  split
  · rfl
  · dsimp only
    split
    · next j l h p _ =>
      by_cases hj : i = j
      · subst hj
        simp [State.seq?_setSeq_map, Function.comp_def]
      · rw [State.seq?_setSeq_other s _ hj]
    all_goals rfl

/-! ### Counters, lines and blocks -/

/-- A counter of a domain changes counters alone. -/
theorem State.bumpD_eq (s : State) (d c n : Nat) :
    ∃ a b, s.bumpD d c n = { s with ctrs := a, lve := { s.lve with counters := b } } := by
  unfold State.bumpD
  split <;> exact ⟨_, _, rfl⟩

theorem State.dropLines_eq (s : State) (d : Nat) (ls : List Nat) :
    ∃ a b, s.dropLines d ls = { s with ctrs := a, slc := { s.slc with lines := b } } := by
  unfold State.dropLines
  split <;> exact ⟨_, _, rfl⟩

theorem State.forEach_dropLines_eq (s : State) (l : List SdgBlock) :
    ∃ a b, (s.forEach l fun b t => t.dropLines b.domain [b.line]) = { s with ctrs := a, slc := { s.slc with lines := b } } := by
  induction l generalizing s with
  | nil => exact ⟨_, _, rfl⟩
  | cons x l ih =>
    obtain ⟨a, b, h⟩ := s.dropLines_eq x.domain [x.line]
    obtain ⟨a', b', h'⟩ := ih (s.dropLines x.domain [x.line])
    refine ⟨a', b', h'.trans ?_⟩
    rw [h]

/-- Blocks leave the queue of Sedge: beside it, lines and counters alone change. -/
theorem State.dropBlocks_eq (s : State) (p : SdgBlock → Bool) :
    ∃ a b, s.dropBlocks p =
      { s with ctrs := a, slc := { s.slc with lines := b }, sdg := { s.sdg with queue := s.sdg.queue.filter fun b => !p b } } := by
  obtain ⟨a, b, h⟩ := s.forEach_dropLines_eq (s.sdg.queue.filter p)
  refine ⟨a, b, ?_⟩
  unfold State.dropBlocks
  rw [h]
  rfl

/-! ### Extents -/

/-- An extent is released: the extents, what Peat has to trim and what T0 has retired change alone, and no extent is left at the home
unless it is stranded. -/
theorem State.freeExt_eq (s : State) (h : Home) :
    ∃ e a f, s.freeExt h = { s with slc := { s.slc with extents := e }, pea := { s.pea with released := a }, flt := f } ∧
      (h ∉ s.flt.strandedHomes → (e.any fun x => x.1 == h) = false) := by
  unfold State.freeExt
  split
  · next hnone =>
    exact ⟨_, _, _, rfl, fun _ => List.any_eq_false.mpr fun x hx => List.find?_eq_none.mp hnone x hx⟩
  · split
    · next hs => exact ⟨_, _, _, rfl, fun hn => absurd (List.contains_iff_mem.mp hs) hn⟩
    · have hgone : ((s.slc.extents.filter fun e => e.1 != h).any fun x => x.1 == h) = false :=
        List.any_eq_false.mpr fun x hx => by simpa using (List.mem_filter.mp hx).2
      dsimp only
      split
      · exact ⟨_, _, _, rfl, fun _ => hgone⟩
      · split <;> exact ⟨_, _, _, rfl, fun _ => hgone⟩

end Sys2Proof.Machine
end

section
/-! Room for frames (R48, R166, R167): what an allocation changes, and that it reads nothing but the room. -/

namespace Sys2Proof.Machine

/-! ### What an allocation changes -/

/-- A state follows another by allocations alone: extents, the cursors of T1 and T3 and the registers that report low space. -/
def State.Allocates (s t : State) : Prop :=
  ∃ g e n x y, t = { s with
    regs := g, slc := { s.slc with extents := e, t1Next := n }, pea := { s.pea with hotCur := x, coldCur := y } }

theorem State.Allocates.refl (s : State) : s.Allocates s := ⟨_, _, _, _, _, rfl⟩

theorem State.Allocates.trans {s t u : State} (h : s.Allocates t) (k : t.Allocates u) : s.Allocates u := by
  obtain ⟨g, e, n, x, y, rfl⟩ := h
  obtain ⟨g', e', n', x', y', rfl⟩ := k
  exact ⟨_, _, _, _, _, rfl⟩

theorem State.Allocates.take (s : State) (h : Home) (b d : Nat) : s.Allocates (s.take h b d) := ⟨_, _, _, _, _, rfl⟩

theorem State.Allocates.setEvt {s t : State} (h : s.Allocates t) (e : Nat × Nat) (off : Nat) : s.Allocates (t.setEvt e off) :=
  h.trans ⟨_, _, _, _, _, rfl⟩

theorem State.allocT0_allocates {s : State} {d b : Nat} {r : Home × State} (h : s.allocT0 d b = some r) :
    s.Allocates r.2 ∧ r.1.tier = 0 := by
  obtain ⟨-, h⟩ := Option.ite_none_left_eq_some.mp h
  obtain ⟨a, -, rfl⟩ := Option.map_eq_some_iff.mp h
  refine ⟨?_, rfl⟩
  dsimp only [State.t0LowFrom]
  split
  · exact (State.Allocates.take ..).setEvt ..
  · exact State.Allocates.take ..

theorem State.allocMeta_allocates {s : State} {d b : Nat} {r : Home × State} (h : s.allocMeta d b = some r) :
    s.Allocates r.2 ∧ r.1.tier = 0 := by
  obtain ⟨-, h⟩ := Option.ite_none_left_eq_some.mp h
  obtain ⟨a, -, rfl⟩ := Option.map_eq_some_iff.mp h
  exact ⟨State.Allocates.take .., rfl⟩

theorem State.allocT1_allocates {s : State} {d b : Nat} {r : Home × State} (h : s.allocT1 d b = some r) :
    s.Allocates r.2 ∧ r.1.tier = 1 := by
  obtain ⟨p, -, hp⟩ := List.exists_of_findSome?_eq_some h
  split at hp
  · cases hp
  · obtain ⟨a, -, rfl⟩ := Option.map_eq_some_iff.mp hp
    exact ⟨⟨_, _, _, _, _, rfl⟩, rfl⟩

theorem State.allocT2_allocates {s : State} {d b : Nat} {r : Home × State} (h : s.allocT2 d b = some r) :
    s.Allocates r.2 ∧ r.1.tier = 2 := by
  obtain ⟨a, -, rfl⟩ := Option.map_eq_some_iff.mp h
  exact ⟨State.Allocates.take .., rfl⟩

theorem State.allocT3_allocates {s : State} {d b : Nat} {m : Bool} {r : Home × State} (h : s.allocT3 d b m = some r) :
    s.Allocates r.2 ∧ r.1.tier = 3 := by
  obtain ⟨-, h⟩ := Option.ite_none_left_eq_some.mp h
  obtain ⟨a, -, rfl⟩ := Option.map_eq_some_iff.mp h
  refine ⟨?_, rfl⟩
  cases m <;> exact ⟨_, _, _, _, _, rfl⟩

/-- Whether the page-table region is more than nine tenths full. -/
def State.ptrLow (s : State) : Bool := decide (s.reg Reg.xltPtrSize * 1024 * 9 < s.ptrUse * 10)

theorem State.alloc_metadata (s : State) (d b : Nat) : s.alloc d 0 b true =
    (s.allocMeta d b).map fun r => (r.1, if r.2.ptrLow && !s.ptrLow then r.2.setEvt Evt.xltPtrLow else r.2) := by
  simp only [State.alloc, if_true]
  rfl

theorem State.alloc_data (s : State) (d b : Nat) : s.alloc d 0 b false = s.allocT0 d b := by
  simp only [State.alloc, if_false, Bool.false_eq_true]

/-- An extent that an allocation finds lies in the tier that it was asked for (R166). -/
theorem State.alloc_allocates {s : State} {d tier b : Nat} {m : Bool} {r : Home × State} (h : s.alloc d tier b m = some r) :
    s.Allocates r.2 ∧ (tier ≤ 3 → r.1.tier = tier) := by
  rcases tier with _ | _ | _ | k
  · cases m with
    | false =>
      rw [State.alloc_data] at h
      exact ⟨(State.allocT0_allocates h).1, fun _ => (State.allocT0_allocates h).2⟩
    | true =>
      rw [State.alloc_metadata] at h
      obtain ⟨v, hv, rfl⟩ := Option.map_eq_some_iff.mp h
      obtain ⟨ha, ht⟩ := State.allocMeta_allocates hv
      refine ⟨?_, fun _ => ht⟩
      dsimp only
      split
      · exact ha.setEvt ..
      · exact ha
  · exact ⟨(State.allocT1_allocates h).1, fun _ => (State.allocT1_allocates h).2⟩
  · exact ⟨(State.allocT2_allocates h).1, fun _ => (State.allocT2_allocates h).2⟩
  · obtain ⟨ha, ht⟩ := State.allocT3_allocates h
    exact ⟨ha, fun hk => by omega⟩

/-! ### What an allocation reads -/

/-- A state with the room that another has for frames. -/
def State.withRoom (e s : State) : State :=
  { e with
    regs := s.regs, glb := s.glb, flt := s.flt, lve := s.lve, pea := s.pea, rbd := s.rbd, xlt := s.xlt
    hif := { e.hif with cxl := s.hif.cxl }
    slc := { e.slc with extents := s.slc.extents, quota := s.slc.quota, t1Next := s.slc.t1Next } }

section
variable (e s : State)

theorem State.withRoom_setEvt (v : Nat × Nat) (off : Nat) : (e.withRoom s).setEvt v off = e.withRoom (s.setEvt v off) := rfl

theorem State.withRoom_take (h : Home) (b d : Nat) : (e.withRoom s).take h b d = e.withRoom (s.take h b d) := rfl

theorem State.withRoom_t0Pool : (e.withRoom s).t0Pool = s.t0Pool := rfl

theorem State.withRoom_t0Free : (e.withRoom s).t0Free = s.t0Free := rfl

theorem State.withRoom_ptrLow : (e.withRoom s).ptrLow = s.ptrLow := rfl

theorem State.withRoom_t0LowFrom (t : State) : (e.withRoom s).t0LowFrom (e.withRoom t) = e.withRoom (s.t0LowFrom t) := by
  unfold State.t0LowFrom
  rw [State.withRoom_t0Pool, State.withRoom_t0Free, State.withRoom_t0Free, State.withRoom_setEvt]
  split <;> rfl

theorem State.allocT0_withRoom (d b : Nat) : (e.withRoom s).allocT0 d b = (s.allocT0 d b).map fun r => (r.1, e.withRoom r.2) := by
  have hshare : (e.withRoom s).t0Share d = s.t0Share d := rfl
  have hbytes : (e.withRoom s).t0Bytes = s.t0Bytes := rfl
  have hregions : (e.withRoom s).t0Regions = s.t0Regions := rfl
  have hused : (e.withRoom s).usedOf 0 = s.usedOf 0 := rfl
  have hflt : (e.withRoom s).flt = s.flt := rfl
  unfold State.allocT0
  rw [hshare, hbytes, hregions, hused, hflt]
  split
  · rfl
  · simp only [Option.map_map, Function.comp_def, State.withRoom_take, State.withRoom_t0LowFrom]

theorem State.allocT1_withRoom (d b : Nat) : (e.withRoom s).allocT1 d b = (s.allocT1 d b).map fun r => (r.1, e.withRoom r.2) := by
  have hports : (e.withRoom s).t1Ports = s.t1Ports := rfl
  have hused : (e.withRoom s).usedOf 1 = s.usedOf 1 := rfl
  have hnext : (e.withRoom s).slc.t1Next = s.slc.t1Next := rfl
  unfold State.allocT1
  rw [hports, hused, hnext, List.map_findSome?]
  refine congrArg (fun f => List.findSome? f _) (funext fun p => ?_)
  rw [Function.comp_apply]
  split
  · rfl
  · rw [Option.map_map]
    rfl

theorem State.allocT2_withRoom (d b : Nat) : (e.withRoom s).allocT2 d b = (s.allocT2 d b).map fun r => (r.1, e.withRoom r.2) := by
  unfold State.allocT2
  rw [Option.map_map]
  rfl

theorem State.allocT3_withRoom (d b : Nat) (m : Bool) :
    (e.withRoom s).allocT3 d b m = (s.allocT3 d b m).map fun r => (r.1, e.withRoom r.2) := by
  have hopen : (e.withRoom s).t3Open = s.t3Open := rfl
  have hpea : (e.withRoom s).pea = s.pea := rfl
  have hgib : (e.withRoom s).t3Gib = s.t3Gib := rfl
  have hused : (e.withRoom s).usedOf 3 = s.usedOf 3 := rfl
  unfold State.allocT3
  rw [hopen, hpea, hgib, hused]
  split
  · rfl
  · rw [Option.map_map]
    rfl

theorem State.allocMeta_withRoom (d b : Nat) :
    (e.withRoom s).allocMeta d b = (s.allocMeta d b).map fun r => (r.1, e.withRoom r.2) := by
  have hxlt : (e.withRoom s).xlt = s.xlt := rfl
  have hbase : (e.withRoom s).ptrBase = s.ptrBase := rfl
  have hbytes : (e.withRoom s).ptrBytes = s.ptrBytes := rfl
  have hused : (e.withRoom s).usedOf 0 = s.usedOf 0 := rfl
  unfold State.allocMeta
  rw [hxlt, hbase, hbytes, hused]
  split
  · rfl
  · rw [Option.map_map]
    rfl

/-- An allocation reads the room of a state alone. -/
theorem State.alloc_withRoom (d tier b : Nat) (m : Bool) :
    (e.withRoom s).alloc d tier b m = (s.alloc d tier b m).map fun r => (r.1, e.withRoom r.2) := by
  rcases tier with _ | _ | _ | k
  · cases m with
    | false => rw [State.alloc_data, State.alloc_data, State.allocT0_withRoom]
    | true =>
      rw [State.alloc_metadata, State.alloc_metadata, State.allocMeta_withRoom, Option.map_map, Option.map_map]
      refine congrArg (fun f => Option.map f _) (funext fun r => congrArg (Prod.mk _) ?_)
      rw [State.withRoom_ptrLow, State.withRoom_ptrLow, State.withRoom_setEvt]
      exact (apply_ite ..).symm
  · exact State.allocT1_withRoom e s d b
  · exact State.allocT2_withRoom e s d b
  · exact State.allocT3_withRoom e s d b m

end

end Sys2Proof.Machine
end

section
/-! Tables, pages of objects and reserved space: runs of allocations (R48, R179, R186). -/

namespace Sys2Proof.Machine

section
variable (e s : State)

/-- A state that has the room of another keeps its own where the two agree. -/
theorem State.withRoom_of_unbudgeted {e s : State} (h : e.unbudgeted = s.unbudgeted) : e.withRoom s = e := by
  have hregs : e.regs = s.regs := (congrArg State.regs h :)
  have hglb : e.glb = s.glb := (congrArg State.glb h :)
  have hflt : e.flt = s.flt := (congrArg State.flt h :)
  have hlve : e.lve = s.lve := (congrArg State.lve h :)
  have hpea : e.pea = s.pea := (congrArg State.pea h :)
  have hrbd : e.rbd = s.rbd := (congrArg State.rbd h :)
  have hxlt : e.xlt = s.xlt := (congrArg State.xlt h :)
  have hhif : e.hif = s.hif := (congrArg State.hif h :)
  have hslc : e.slc = s.slc := (congrArg State.slc h :)
  rw [State.withRoom, ← hregs, ← hglb, ← hflt, ← hlve, ← hpea, ← hrbd, ← hxlt, ← hhif, ← hslc]

theorem State.addMeta_withRoom (f : FrameId) (d fc : Nat) :
    (e.withRoom s).addMeta f d fc = (s.addMeta f d fc).map e.withRoom := by
  have hxlt : (e.withRoom s).xlt = s.xlt := rfl
  unfold State.addMeta
  rw [hxlt, State.alloc_withRoom]
  split
  · rfl
  · rw [Option.map_map, Option.map_map]
    rfl

/-- Changes that can fail, one after another, read the room alone when each does. -/
theorem State.foldl_bind_withRoom {α : Type} {f : State → α → Option State}
    (h : ∀ s a, f (e.withRoom s) a = (f s a).map e.withRoom) (l : List α) (o : Option State) :
    l.foldl (fun t a => t.bind fun t => f t a) (o.map e.withRoom) =
      (l.foldl (fun t a => t.bind fun t => f t a) o).map e.withRoom := by
  induction l generalizing o with
  | nil => rfl
  | cons a l ih =>
    rw [List.foldl_cons, List.foldl_cons, ← ih]
    cases o with
    | none => rfl
    | some s => exact congrArg (List.foldl _ · l) (h s a)

theorem State.addTables_withRoom (r : TableRoot) (k d : Nat) :
    (e.withRoom s).addTables r k d = (s.addTables r k d).map e.withRoom :=
  e.foldl_bind_withRoom (fun s f => e.addMeta_withRoom s f d 0) (tablePath r k) (some s)

theorem State.mapPages_withRoom (n : Nat) (o : Obj) (tier : Nat) (ps : List Nat) :
    (e.withRoom s).mapPages n o tier ps = (s.mapPages n o tier ps).map e.withRoom := by
  induction ps generalizing s with
  | nil => rfl
  | cons p ps ih =>
    rw [State.mapPages, State.addTables_withRoom, State.mapPages, Option.bind_map, Option.map_bind]
    refine congrArg (Option.bind _) (funext fun t => ?_)
    rw [Function.comp_apply, Function.comp_apply, State.alloc_withRoom, Option.bind_map, Option.map_bind]
    exact congrArg (Option.bind _) (funext fun x => ih (x.2.setObj n fun q => { q with map := q.map.set p _ }))

theorem State.reserveT2_withRoom (d : Nat) (bs : List Nat) :
    (e.withRoom s).reserveT2 d bs = (s.reserveT2 d bs).map fun y => (y.1, e.withRoom y.2) := by
  induction bs generalizing s with
  | nil => rfl
  | cons b bs ih =>
    rw [State.reserveT2, State.allocT2_withRoom, State.reserveT2, Option.bind_map, Option.map_bind]
    refine congrArg (Option.bind _) (funext fun x => ?_)
    rw [Function.comp_apply, Function.comp_apply, ih, Option.map_map, Option.map_map]
    rfl

end

/-! ### What the runs change -/

theorem State.reserveT2_allocates {s : State} {d : Nat} {bs : List Nat} {y : List (Home × Nat) × State}
    (h : s.reserveT2 d bs = some y) : s.Allocates y.2 := by
  induction bs generalizing s y with
  | nil =>
    obtain rfl := Option.some.inj h
    exact .refl s
  | cons b bs ih =>
    obtain ⟨x, hx, h⟩ := Option.bind_eq_some_iff.mp h
    obtain ⟨z, hz, rfl⟩ := Option.map_eq_some_iff.mp h
    exact (State.allocT2_allocates hx).1.trans (ih (y := z) hz)

/-- A state follows another by the mapping of pages of objects: allocations, metadata frames and the maps of objects. -/
def State.MapsPages (s t : State) : Prop :=
  ∃ g e k x y ms os, t = { s with
    regs := g, slc := { s.slc with extents := e, t1Next := k }, pea := { s.pea with hotCur := x, coldCur := y }
    xlt := { s.xlt with metas := ms, objs := os } }

theorem State.MapsPages.refl (s : State) : s.MapsPages s := ⟨_, _, _, _, _, _, _, rfl⟩

theorem State.MapsPages.trans {s t u : State} (h : s.MapsPages t) (k : t.MapsPages u) : s.MapsPages u := by
  obtain ⟨g, e, n, x, y, m, o, rfl⟩ := h
  obtain ⟨g', e', n', x', y', m', o', rfl⟩ := k
  exact ⟨_, _, _, _, _, _, _, rfl⟩

theorem State.Allocates.maps {s t : State} (h : s.Allocates t) : s.MapsPages t := by
  obtain ⟨g, e, n, x, y, rfl⟩ := h
  exact ⟨_, _, _, _, _, _, _, rfl⟩

theorem State.maps_addMeta {s t : State} {f : FrameId} {d fc : Nat} (h : s.addMeta f d fc = some t) :
    s.MapsPages t ∧ t.xlt.objs = s.xlt.objs := by
  unfold State.addMeta at h
  split at h
  · obtain rfl := Option.some.inj h
    exact ⟨.refl s, rfl⟩
  · obtain ⟨r, hr, rfl⟩ := Option.map_eq_some_iff.mp h
    obtain ⟨g, e, n, x, y, hr⟩ := (State.alloc_allocates hr).1
    rw [hr]
    exact ⟨⟨_, _, _, _, _, _, _, rfl⟩, rfl⟩

theorem State.maps_addTables {s t : State} {r : TableRoot} {k d : Nat} (h : s.addTables r k d = some t) :
    s.MapsPages t ∧ t.xlt.objs = s.xlt.objs := by
  unfold State.addTables at h
  revert h
  generalize tablePath r k = l
  induction l generalizing s with
  | nil =>
    intro h
    obtain rfl := Option.some.inj h
    exact ⟨.refl s, rfl⟩
  | cons f l ih =>
    intro h
    rw [List.foldl_cons, Option.bind_some] at h
    cases hs : s.addMeta f d 0 with
    | none =>
      rw [hs] at h
      have hnone : l.foldl (fun t f => t.bind fun t => t.addMeta f d 0) (none : Option State) = none := by
        clear h ih hs
        induction l with
        | nil => rfl
        | cons f l ih => exact ih
      rw [hnone] at h
      cases h
    | some u =>
      rw [hs] at h
      obtain ⟨hu, huo⟩ := State.maps_addMeta hs
      obtain ⟨ht, hto⟩ := ih h
      exact ⟨hu.trans ht, hto.trans huo⟩

/-- A page of an object lies in a tier. -/
def Obj.pageIn (x : Obj) (tier p : Nat) : Prop := ∃ e, x.map.get? p = some e ∧ e.home.tier = tier

theorem Obj.pageIn_set {x : Obj} {tier p : Nat} (q : Nat) {e : Pte} (he : e.home.tier = tier) (h : p = q ∨ x.pageIn tier p) :
    ({ x with map := x.map.set q e } : Obj).pageIn tier p := by
  by_cases hp : p = q
  · subst hp
    exact ⟨e, Assoc.get?_set_same _ _ _, he⟩
  · obtain ⟨v, hv, ht⟩ := h.resolve_left hp
    exact ⟨v, (Assoc.get?_set_other _ _ _ _ hp).trans hv, ht⟩

/-- Mapped pages of an object lie in the tier that the mapping names (R186). -/
theorem State.mapPages_maps {s t : State} {n : Nat} {o x : Obj} {tier : Nat} {ps : List Nat}
    (h : s.mapPages n o tier ps = some t) (ht : tier ≤ 3) (hx : s.xlt.objs.get? n = some x) :
    s.MapsPages t ∧ ∃ y, t.xlt.objs.get? n = some y ∧ y.releasing = x.releasing ∧ ∀ p, p ∈ ps ∨ x.pageIn tier p → y.pageIn tier p := by
  induction ps generalizing s x with
  | nil =>
    obtain rfl := Option.some.inj h
    exact ⟨.refl s, x, hx, rfl, fun p hp => hp.resolve_left List.not_mem_nil⟩
  | cons p ps ih =>
    obtain ⟨u, hu, h⟩ := Option.bind_eq_some_iff.mp h
    obtain ⟨r, hr, h⟩ := Option.bind_eq_some_iff.mp h
    obtain ⟨hum, huo⟩ := State.maps_addTables hu
    obtain ⟨hra, htier⟩ := State.alloc_allocates hr
    have hxr : r.2.xlt.objs.get? n = some x := by
      obtain ⟨g, e, k, a, b, hra⟩ := hra
      rw [hra]
      exact (congrArg (Assoc.get? · n) huo).trans hx
    extract_lets e at h
    have hset : (r.2.setObj n fun q => { q with map := q.map.set p e }).xlt.objs.get? n = some { x with map := x.map.set p e } :=
      (Assoc.get?_modify_same ..).trans (congrArg (Option.map _) hxr)
    obtain ⟨hmaps, y, hy, hrel, hin⟩ := ih h hset
    refine ⟨(hum.trans hra.maps).trans (State.MapsPages.trans ⟨_, _, _, _, _, _, _, rfl⟩ hmaps), y, hy, hrel, fun q hq => hin q ?_⟩
    by_cases hps : q ∈ ps
    · exact .inl hps
    · exact .inr (Obj.pageIn_set p (htier ht) (hq.imp_left fun hq => (List.mem_cons.mp hq).resolve_right hps))

end Sys2Proof.Machine
end

section
/-! The commands on objects: `OBJ_CREATE`, `OBJ_SEAL` and `OBJ_RELEASE` (R186). -/

namespace Sys2Proof.Machine

/-! ### `OBJ_CREATE` and `OBJ_SEAL` -/

section
variable {s : State} {q : CmdRef} {c : InFlight} {n : Nat} {x : Obj}

/-- The tag of the next object under a number. -/
def State.nextObjTag (s : State) (n : Nat) : Nat := match s.xlt.objs.get? n with | some y => y.tag % 255 + 1 | none => 1

/-- A command on the object of its handle runs on it. -/
theorem State.runObj_of_offers {op : Nat} (h : s.offersXlt q op c) (hf : s.findObj (s.ringDomain q) (u32 c.ops 0) = .ok (n, x))
    (f : State → Requester → Nat → List Byte → Nat → Obj → State) :
    (s.runCmd q op fun t r d o => t.gate .xlt r Status.cpl fun t => t.onObj r d o fun n x => f t r d o n x)
      = f (s.markStarted q) (.ring q) (s.ringDomain q) c.ops n x := by
  have hf' : (s.markStarted q).findObj (s.ringDomain q) (u32 c.ops 0) = .ok (n, x) := hf
  rw [State.runXlt_of_offers h fun t r d o => t.onObj r d o fun n x => f t r d o n x, State.onObj, hf']

theorem exec_objCreate_makes (h : s.offersXlt q 0x28 c) (hp : s.xlt.placed = true) (hfc : u8 c.ops 0 ≤ 6) (hse : u8 c.ops 1 ≤ 1)
    (hpg : u32 c.ops 4 ≠ 0)
    (htake : s.mayTake 65536 Domain.objRsv (s.usedObjs.map Prod.snd) (s.ringDomain q) = true)
    (hn : chooseFree (s.usedObjs.map Prod.fst) 0 65536 (Config.objNumber s.fresh) = some n) :
    ∃ t, exec (.objCreate q) s = .next t ∧ t.xlt.objs.get? n = some {
        tag := s.nextObjTag n, domain := s.ringDomain q, fc := u8 c.ops 0, pages := u32 c.ops 4, sedge := decide (u8 c.ops 1 = 1) } ∧
      s.answersWith t q c (handleOf (s.nextObjTag n) n) 0 = true := by
  have hmakes : ∃ u : State, (s.markStarted q).objCreate (.ring q) (s.ringDomain q) c.ops
        = u.complete (.ring q) { result := handleOf (s.nextObjTag n) n } ∧
      u.hif = (s.markStarted q).hif ∧ s.outs <:+ u.outs ∧
      u.xlt.objs = s.xlt.objs.set n { tag := s.nextObjTag n, domain := s.ringDomain q, fc := u8 c.ops 0, pages := u32 c.ops 4
                                      sedge := decide (u8 c.ops 1 = 1) } := by
    have htake' : (s.markStarted q).mayTake 65536 Domain.objRsv ((s.markStarted q).usedObjs.map Prod.snd) (s.ringDomain q) = true := htake
    have hn' : chooseFree ((s.markStarted q).usedObjs.map Prod.fst) 0 65536 ((s.markStarted q).drawFrom Config.objNumber).1 = some n := hn
    unfold State.objCreate
    rw [if_neg (by simp [hp]), if_neg (by omega), if_neg (by simp [htake'])]
    dsimp only
    rw [hn']
    exact ⟨_, rfl, rfl, List.suffix_rfl, rfl⟩
  obtain ⟨u, hrun, hhif, houts, hobjs⟩ := hmakes
  change ∃ t, execObjCreate q s = _ ∧ _
  rw [execObjCreate, State.runXlt_of_offers h State.objCreate, hrun]
  refine ⟨_, rfl, ?_, State.answersWith_of_offers h.1 hhif houts rfl rfl⟩
  rw [State.afterIn_xlt rfl, State.complete_xlt, hobjs, Assoc.get?_set_same]

theorem exec_objSeal_seals (h : s.offersXlt q 0x2A c) (hf : s.findObj (s.ringDomain q) (u32 c.ops 0) = .ok (n, x))
    (hr : x.releasing = false) :
    ∃ t, exec (.objSeal q) s = .next t ∧ t.xlt.objs.get? n = some { x with isSealed := true } ∧ s.posts t q c .ok = true := by
  have hrun := State.runObj_of_offers h hf fun t r _ _ n x =>
    if x.releasing then t.fail r .unavailable else (t.setObj n fun x => { x with isSealed := true }).complete r {}
  rw [if_neg (by simp [hr])] at hrun
  change ∃ t, execObjSeal q s = _ ∧ _
  rw [execObjSeal, hrun]
  refine ⟨_, rfl, ?_, State.posts_of_offers h.1 rfl List.suffix_rfl rfl rfl⟩
  rw [State.afterIn_xlt rfl, State.complete_xlt]
  exact (Assoc.get?_modify_same ..).trans (congrArg (Option.map _) (State.obj_of_findObj hf))

/-! ### `OBJ_RELEASE` -/

/-- Objects stand while frames are freed one after another by changes that leave them. -/
theorem State.objs_forEach {α : Type} (s : State) (l : List α) {f : α → State → State} (h : ∀ x t, (f x t).xlt.objs = t.xlt.objs) :
    (s.forEach l f).xlt.objs = s.xlt.objs := by
  induction l generalizing s with
  | nil => rfl
  | cons x xs ih => exact (ih (f x s)).trans (h x s)

theorem State.xlt_freeFrame (s : State) (f : FrameId) (h : Home) : (s.freeFrame f h).xlt = s.xlt := by
  unfold State.freeFrame
  split
  · rfl
  · obtain ⟨_, _, _, he, -⟩ := s.freeExt_eq h
    rw [he]

theorem State.objs_freeMeta (s : State) (f : FrameId) : (s.freeMeta f).xlt.objs = s.xlt.objs := by
  unfold State.freeMeta
  split
  · rfl
  · exact (congrArg Xlt.objs (State.xlt_freeFrame _ _ _)).trans rfl

theorem State.objs_freeTables (s : State) (r : TableRoot) : (s.freeTables r).xlt.objs = s.xlt.objs :=
  s.objs_forEach _ fun _ _ => State.objs_freeMeta _ _

/-- An object that is released, with nothing in flight, is gone. -/
theorem State.obj_freeObj (hx : s.xlt.objs.get? n = some x) (hl : x.live = true) (hr : x.releasing = true)
    (hreads : (s.slc.pageReads.any fun r => r.obj && r.target == n) = false)
    (hwrites : (s.slc.objWrites.any fun w => w.obj == n) = false) :
    (s.freeObj n).xlt.objs.get? n = some { x with live := false, map := [], releasing := false } := by
  have hfrees : (s.freeObj n) = (((s.forEach x.map fun e t => t.freeFrame (.obj n e.1) e.2.home).freeTables (.obj n)).setObj n
      fun o => { o with live := false, map := [], releasing := false }) := by
    simp [State.freeObj, hx, hl, hr, hreads, hwrites]
  have hobjs : ((s.forEach x.map fun e t => t.freeFrame (.obj n e.1) e.2.home).freeTables (.obj n)).xlt.objs = s.xlt.objs :=
    (State.objs_freeTables _ _).trans (s.objs_forEach x.map fun _ _ => congrArg Xlt.objs (State.xlt_freeFrame _ _ _))
  rw [hfrees]
  refine (Assoc.get?_modify_same ..).trans ?_
  rw [hobjs, hx, Option.map_some]

theorem State.clients_freeObj (s : State) (n : Nat) : (s.freeObj n).clients = s.clients := by
  unfold State.freeObj
  split
  · rfl
  · next o _ =>
    split
    · exact State.clients_of_both (((s.forEach o.map _).clientsAndSeqs_freeTables _).trans
        (s.clientsAndSeqs_forEach o.map fun _ _ => State.clientsAndSeqs_freeFrame _ _ _))
    · rfl

/-- An object that a handle finds is live. -/
theorem State.live_of_findObj {d hd : Nat} (hf : s.findObj d hd = .ok (n, x)) : x.live = true := by
  unfold State.findObj at hf
  extract_lets j named at hf
  split at hf
  · split at hf
    · next hlive =>
      obtain ⟨-, rfl⟩ := Prod.mk.inj (Except.ok.inj hf)
      simp only [Bool.and_eq_true] at hlive
      exact hlive.1.1.2
    · cases hf
  · split at hf <;> cases hf

theorem exec_objRelease_ends (h : s.offersXlt q 0x2B c) (hf : s.findObj (s.ringDomain q) (u32 c.ops 0) = .ok (n, x))
    (hreads : (s.slc.pageReads.any fun r => r.obj && r.target == n) = false)
    (hwrites : (s.slc.objWrites.any fun w => w.obj == n) = false) (hn : s.noPlacements) :
    ∃ t, exec (.objRelease q) s = .next t ∧ t.xlt.objs.get? n = some { x with live := false, map := [], releasing := false } ∧
      s.posts t q c .ok = true := by
  have hrun := State.runObj_of_offers h hf fun t r _ _ n _ =>
    ((t.setObj n fun x => { x with releasing := true }).freeObj n).complete r {} |>.sluice
  have hset : ((s.markStarted q).setObj n fun x => { x with releasing := true }).xlt.objs.get? n = some { x with releasing := true } :=
    (Assoc.get?_modify_same ..).trans (congrArg (Option.map _) (State.obj_of_findObj hf))
  have hcl := ((s.markStarted q).setObj n fun x => { x with releasing := true }).clients_freeObj n
  change ∃ t, execObjRelease q s = _ ∧ _
  rw [execObjRelease, hrun, State.sluice_idle _ (State.noPlacements_of_slc
    (State.noPlacements_of_clients (s := s.markStarted q) hn hcl) (State.complete_slc _ _ _))]
  refine ⟨_, rfl, ?_, State.posts_of_offers h.1 (congrArg Prod.fst hcl) ?_ rfl rfl⟩
  · rw [State.afterIn_xlt rfl, State.complete_xlt]
    exact (State.obj_freeObj hset (State.live_of_findObj hf :) rfl hreads hwrites :)
  · rw [show State.outs _ = s.outs from congrArg (fun z => z.2.1) hcl]

end

end Sys2Proof.Machine
end

section
/-! Blocks on their way to a tier, and `OBJ_WRITE` (R186, R216, R224). -/

namespace Sys2Proof.Machine

/-! ### What a block changes -/

theorem map_updFirst {α β : Type} {p : α → Bool} {f : α → α} {g : α → β} (h : ∀ x, g (f x) = g x) (l : List α) :
    (updFirst p f l).map g = l.map g := by
  induction l with
  | nil => rfl
  | cons x l ih =>
    rw [updFirst]
    split
    · rw [List.map_cons, h, List.map_cons]
    · rw [List.map_cons, ih, List.map_cons]

section
variable (s : State)

/-- The bytes of a link are counted: counters alone change. -/
theorem State.countLink_eq (d : Nat) (h : Home) (w : Bool) (m n : Nat) :
    ∃ a b, s.countLink d h w m n = { s with ctrs := a, lve := { s.lve with counters := b } } := by
  unfold State.countLink
  obtain ⟨a, b, he⟩ := s.bumpD_eq d Reg.slcBytesRawLo m
  obtain ⟨a', b', he'⟩ := State.bumpD_eq { s with ctrs := a, lve := { s.lve with counters := b } } d Reg.slcBytesLinkLo n
  rw [he, he', State.countPort]
  split <;> exact ⟨_, _, rfl⟩

/-- The form that a place holds is noted. -/
theorem State.markPlace_eq (p : Nat × Nat) (w : Option Nat) :
    ∃ a b, s.markPlace p w = { s with pea := { s.pea with packed := a }, sdg := { s.sdg with packed := b } } := by
  unfold State.markPlace
  split <;> exact ⟨_, _, rfl⟩

/-- A block that lands changes bytes, what waits for T3, and the forms that places hold. -/
theorem State.landBlock_eq (h : Home) (i : Nat) (form : List Byte) (b : Bool) :
    ∃ m x y z, s.landBlock h i form b =
      { s with mem := m, pea := { s.pea with packed := x, waiting := y }, sdg := { s.sdg with packed := z } } := by
  obtain ⟨x, z, he⟩ := s.markPlace_eq (placeAt h i) (if b then some form.length else none)
  unfold State.landBlock
  dsimp only
  rw [he]
  split <;> exact ⟨_, _, _, _, rfl⟩

/-- A block that crosses raw changes what it lands in, and counters. -/
theorem State.crossRaw_eq (d : Nat) (h : Home) (i : Nat) (data : List Byte) :
    ∃ m x y z a b, s.crossRaw d h i data = { s with
      mem := m, ctrs := a, lve := { s.lve with counters := b }
      pea := { s.pea with packed := x, waiting := y }, sdg := { s.sdg with packed := z } } := by
  unfold State.crossRaw
  extract_lets form
  obtain ⟨m, x, y, z, he⟩ := s.landBlock_eq h i form false
  obtain ⟨a, b, he'⟩ := (s.landBlock h i form false).countLink_eq d h true form.length form.length
  refine ⟨m, x, y, z, a, b, he'.trans ?_⟩
  rw [he]

/-- The level of the queue of Sedge is noted, with its event. -/
theorem State.sdgLevel_eq : ∃ g b, s.sdgLevel = { s with regs := g, sdg := { s.sdg with high := b } } := by
  unfold State.sdgLevel
  dsimp only
  split <;> exact ⟨_, _, rfl⟩

/-- A block that enters the queue takes a line. -/
theorem State.enterQueue_eq (n d : Nat) (h : Home) (i : Nat) (data : List Byte) :
    ∃ g a l y b, s.enterQueue n d h i data = { s with
      regs := g, ctrs := a, slc := { s.slc with lines := l }, sdg := { s.sdg with queue := y, high := b } } := by
  have hlevel (a : Assoc Nat Nat) (l : Assoc Nat Nat) (y : List SdgBlock) : ∃ g b,
      ({ s with ctrs := a, slc := { s.slc with lines := l }, sdg := { s.sdg with queue := y } } : State).sdgLevel =
        { s with regs := g, ctrs := a, slc := { s.slc with lines := l }, sdg := { s.sdg with queue := y, high := b } } := by
    obtain ⟨g, b, he⟩ := State.sdgLevel_eq
      { s with ctrs := a, slc := { s.slc with lines := l }, sdg := { s.sdg with queue := y } }
    exact ⟨g, b, he⟩
  unfold State.enterQueue
  dsimp only
  split
  · obtain ⟨g, b, he⟩ := hlevel _ _ _
    exact ⟨g, _, _, _, b, he⟩
  · obtain ⟨g, b, he⟩ := hlevel s.ctrs _ _
    exact ⟨g, _, _, _, b, he⟩

end

/-! ### The translation unit and the objects that are written -/

/-- The tables of the translation unit and the objects with writes in progress. -/
def State.objTables (s : State) : Xlt × List Nat := (s.xlt, s.slc.objWrites.map ObjWrite.obj)

section
variable (s : State)

theorem State.objTables_forEach {α : Type} (l : List α) {f : α → State → State} (h : ∀ x t, (f x t).objTables = t.objTables) :
    (s.forEach l f).objTables = s.objTables := by
  induction l generalizing s with
  | nil => rfl
  | cons x xs ih => exact (ih (f x s)).trans (h x s)

theorem State.objTables_crossRaw (d : Nat) (h : Home) (i : Nat) (data : List Byte) :
    (s.crossRaw d h i data).objTables = s.objTables := by
  obtain ⟨_, _, _, _, _, _, he⟩ := s.crossRaw_eq d h i data
  rw [he]
  rfl

theorem State.objTables_enterQueue (n d : Nat) (h : Home) (i : Nat) (data : List Byte) :
    (s.enterQueue n d h i data).objTables = s.objTables := by
  obtain ⟨_, _, _, _, _, he⟩ := s.enterQueue_eq n d h i data
  rw [he]
  rfl

/-- A change of the blocks that writes still hold. -/
theorem State.objTables_updFirst (p : ObjWrite → Bool) (f : ObjWrite → ObjWrite) (h : ∀ w, (f w).obj = w.obj) :
    ({ s with slc := { s.slc with objWrites := updFirst p f s.slc.objWrites } } : State).objTables = s.objTables :=
  congrArg (Prod.mk s.xlt) (map_updFirst h _)

theorem State.objTables_fillQueue (n : Nat) : (s.fillQueue n).objTables = s.objTables := by
  induction n generalizing s with
  | zero => rfl
  | succ n ih =>
    rw [State.fillQueue]
    split
    · rfl
    · next w _ =>
      split
      · rfl
      · next h i data rest _ =>
        extract_lets src t
        have ht : t.objTables = s.objTables := s.objTables_updFirst _ _ fun _ => rfl
        split
        · exact ((ih _).trans (t.objTables_crossRaw ..)).trans ht
        · split
          · rfl
          · exact ((ih _).trans (t.objTables_enterQueue ..)).trans ht

theorem State.objTables_writePage (id : Nat) (o : Obj) (h : Home) (data : List Byte) :
    (s.writePage id o h data).objTables = s.objTables := by
  unfold State.writePage
  split
  · rfl
  · extract_lets src t blocks
    have ht : t.objTables = s.objTables := by
      unfold t
      split <;> rfl
    split
    · exact Eq.trans (congrArg (Prod.mk t.xlt) (map_updFirst (fun _ => by rfl) _)) ht
    · exact (t.objTables_forEach blocks fun b u => u.objTables_crossRaw ..).trans ht

/-- An object that is not being released is kept. -/
theorem State.freeObj_of_kept {n : Nat} {y : Obj} (hy : s.xlt.objs.get? n = some y) (hr : y.releasing = false) :
    s.freeObj n = s := by
  simp [State.freeObj, hy, hr]

/-- The end of writes leaves objects that are not being released. -/
theorem State.objs_endObjWrites {n : Nat} {y : Obj} (hw : ∀ w ∈ s.slc.objWrites, w.obj = n) (hy : s.xlt.objs.get? n = some y)
    (hr : y.releasing = false) : s.endObjWrites.xlt.objs = s.xlt.objs := by
  unfold State.endObjWrites
  extract_lets done src u
  have hdone : ∀ w ∈ done, w.obj = n := fun w h => hw w (List.mem_of_mem_filter h)
  have hu : u.xlt.objs = s.xlt.objs := rfl
  clear_value done u
  induction done generalizing u with
  | nil => exact hu
  | cons w done ih =>
    have hobj : w.obj = n := hdone w List.mem_cons_self
    have hkept : (u.complete w.req { result := w.count }).freeObj w.obj = u.complete w.req { result := w.count } :=
      State.freeObj_of_kept _ (by rw [hobj, State.complete_xlt, hu, hy]) hr
    refine ih _ (fun w h => hdone w (List.mem_cons_of_mem _ h)) ?_
    exact (congrArg (fun v : State => v.xlt.objs) hkept).trans hu

end

end Sys2Proof.Machine
end

section
/-! `OBJ_WRITE` that nothing refuses (R186). -/

namespace Sys2Proof.Machine

/-! ### Its dispatch -/

/-- A write of object pages that runs at once waits no longer once it has arrived (R290). -/
theorem State.waits_offer_write {s : State} {it : Item} {r : Requester} (h : s.runsAtOnce it) (hc : it.cls = .move)
    (hw : it.work = .write r) (hd : it.done = 0) : (s.offer it).waits (.write r) = false := by
  rw [← hw]
  unfold State.offer
  extract_lets t
  rcases h with hlive | ⟨hnone, hfits, hparts⟩
  · rw [if_pos (by simpa [t, State.pruned, State.enqueue] using hlive)]
    exact State.waits_unqueue _ _
  · split
    · exact State.waits_unqueue _ _
    · have hitems : t.pwr.items = [it] := by simp [t, State.pruned, State.enqueue, hnone]
      have hplace : t.placeIn it = 4 := by simp [State.placeIn, hc, State.stalledMove, hw]
      have horder : t.itemOrder = [it] := by simp [State.itemOrder, hitems, hplace]
      have hfit : t.fitsItem it = true := hfits
      have hheads : t.headItems.filter t.fitsItem = [it] := by simp [State.headItems, horder, hfit]
      have hturn : t.turnOf [it] = some it := by
        simp only [State.turnOf, List.find?_cons, List.find?_nil, List.foldl_cons, List.foldl_nil]
        split <;> rfl
      have hempty : t.turnOf [] = none := rfl
      have hnext : t.nextItem = some (it, true) := by
        simp [State.nextItem, hheads, hplace, hturn, hempty]
      have hone : t.partsOf it = 1 := hparts
      rw [hnext]
      simp only [beq_self_eq_true, hone, decide_true, Bool.and_self, if_true, State.chargeItem, hd]
      simp only [Nat.lt_irrefl, Nat.zero_add, if_false, false_and]
      exact State.waits_unqueue _ _

/-! ### Its pages -/

/-- The pages that an `OBJ_WRITE` names. -/
def writtenPages (first count : Nat) : List Nat := (List.range count).map (first + ·)

/-- The homes of the pages of an object. -/
def State.objMap (s : State) (n : Nat) : Assoc Nat Pte := ((s.xlt.objs.get? n).map Obj.map).getD []

/-- The state once the pages of an `OBJ_WRITE` are mapped and its write is in progress. -/
def State.beginWrite (s : State) (r : Requester) (d n count : Nat) : State :=
  let w : ObjWrite := { id := s.slc.nextMove, req := r, domain := d, obj := n, count := count }
  { s with slc := { s.slc with nextMove := s.slc.nextMove + 1, objWrites := s.slc.objWrites ++ [w] } }

/-- The state once the pages of an `OBJ_WRITE` have left for their homes. -/
def State.writePages (s : State) (id : Nat) (x : Obj) (m : Assoc Nat Pte) (ps : List (Nat × List Byte)) : State :=
  s.forEach ps fun p t => match m.get? p.1 with
    | some e => t.writePage id x e.home p.2
    | none => t

/-- What an `OBJ_WRITE` that waits for nothing does. -/
def State.wroteObj (s : State) (r : Requester) (d n : Nat) (x : Obj) (first count : Nat) (inp : List Byte) : State :=
  (((s.beginWrite r d n count).writePages s.slc.nextMove x (s.objMap n)
    ((writtenPages first count).zip (chunks (4096 * 2 ^ x.fc) count inp))).fillQueue 65536).endObjWrites

section
variable {s u : State} {r : Requester} {d n : Nat} {x : Obj} {o inp : List Byte}

/-- An `OBJ_WRITE` that nothing refuses, that runs at once and whose pages fit, writes them. -/
theorem State.objWrite_writes (hr : x.releasing = false) (ht : u8 o 12 ≤ 3)
    (hfl : u8 o 12 = 3 → s.glb.variant.hasFlash = true ∧ s.islandOn peatIsland = true)
    (hl : inp.length = u32 o 8 * (4096 * 2 ^ x.fc)) (hb : u32 o 4 + u32 o 8 ≤ x.pages) (hs : x.isSealed = false)
    (hm : ((writtenPages (u32 o 4) (u32 o 8)).any fun p => x.map.has p) = false)
    (hrun : s.runsAtOnce (s.objectItem r d (u32 o 8) (4096 * 2 ^ x.fc) (u8 o 12)))
    (hu : (s.offer (s.objectItem r d (u32 o 8) (4096 * 2 ^ x.fc) (u8 o 12))).mapPages n x (u8 o 12)
      (writtenPages (u32 o 4) (u32 o 8)) = some u) :
    s.objWrite r d o inp n x false = u.wroteObj r d n x (u32 o 4) (u32 o 8) inp := by
  have hwait := State.waits_offer_write hrun rfl rfl rfl
  unfold State.objWrite
  extract_lets first count tier size pages c t
  have hform : (decide (3 < tier) || decide (inp.length ≠ count * size) || decide (x.pages < first + count) || x.isSealed
      || pages.any fun p => x.map.has p) = false :=
    Bool.or_eq_false_iff.mpr ⟨Bool.or_eq_false_iff.mpr ⟨Bool.or_eq_false_iff.mpr ⟨Bool.or_eq_false_iff.mpr
      ⟨decide_eq_false (Nat.not_lt.mpr ht), decide_eq_false (not_not.mpr hl)⟩, decide_eq_false (Nat.not_lt.mpr hb)⟩, hs⟩, hm⟩
  have hflash : ¬ (tier = 3 ∧ (!s.glb.variant.hasFlash) = true) := fun ⟨h3, hn⟩ => by simp [(hfl h3).1] at hn
  have hisland : ¬ (tier = 3 ∧ (!s.islandOn peatIsland) = true) := fun ⟨h3, hn⟩ => by simp [(hfl h3).2] at hn
  have hready : t.waits (.write r) = false := hwait
  have hmap : t.mapPages n x tier pages = some u := hu
  rw [if_neg (by simp [hr]), if_neg (by rw [hform]; exact Bool.false_ne_true), if_neg hflash, if_neg hisland,
    if_neg (by rw [hready]; exact Bool.false_ne_true), hmap]
  rfl

end

/-! ### What it leaves -/

section
variable {s : State} {r : Requester} {d n : Nat} {x y : Obj} {first count : Nat} {inp : List Byte}

theorem State.objTables_writePages (s : State) (id : Nat) (x : Obj) (m : Assoc Nat Pte) (ps : List (Nat × List Byte)) :
    (s.writePages id x m ps).objTables = s.objTables := by
  refine s.objTables_forEach ps fun p t => ?_
  split
  · exact t.objTables_writePage ..
  · rfl

/-- The objects stand once their pages have been written. -/
theorem State.objs_wroteObj (hw : s.slc.objWrites = []) (hy : s.xlt.objs.get? n = some y) (hr : y.releasing = false) :
    (s.wroteObj r d n x first count inp).xlt.objs = s.xlt.objs := by
  unfold State.wroteObj
  generalize hv : State.fillQueue _ 65536 = v
  have htables : v.objTables = (s.xlt, [n]) := by
    rw [← hv, State.objTables_fillQueue, State.objTables_writePages]
    simp [State.beginWrite, State.objTables, hw]
  have hxlt : v.xlt = s.xlt := congrArg Prod.fst htables
  have hobjs : v.slc.objWrites.map ObjWrite.obj = [n] := congrArg Prod.snd htables
  have hobj : ∀ w ∈ v.slc.objWrites, w.obj = n := fun w h => List.mem_singleton.mp (hobjs ▸ List.mem_map_of_mem h)
  rw [State.objs_endObjWrites v hobj (hxlt ▸ hy) hr, hxlt]

/-- Pages in T0 leave for their homes as the write is issued (R186). -/
theorem State.writePages_T0 {m : Assoc Nat Pte} {ps : List (Nat × List Byte)} (id : Nat) (x : Obj)
    (h : ∀ p ∈ ps, ∃ e, m.get? p.1 = some e ∧ e.home.tier = 0) : ∃ k, s.writePages id x m ps = { s with mem := k } := by
  induction ps generalizing s with
  | nil => exact ⟨_, rfl⟩
  | cons p ps ih =>
    obtain ⟨e, he, ht⟩ := h p List.mem_cons_self
    have hpage : (match m.get? p.1 with | some e => s.writePage id x e.home p.2 | none => s) = s.putBytes e.home 0 p.2 := by
      rw [he]
      exact if_pos ht
    obtain ⟨k, hk⟩ := ih (s := s.putBytes e.home 0 p.2) fun p hp => h p (List.mem_cons_of_mem _ hp)
    refine ⟨k, Eq.trans ?_ hk⟩
    exact congrArg (fun t : State => t.writePages id x m ps) hpage

theorem State.fillQueue_of_empty (h : ∀ w ∈ s.slc.objWrites, w.blocks = []) (k : Nat) : s.fillQueue k = s := by
  cases k with
  | zero => rfl
  | succ k =>
    have hnone : (s.slc.objWrites.find? fun w => !w.blocks.isEmpty) = none :=
      List.find?_eq_none.mpr fun w hw => by simp [h w hw]
    rw [State.fillQueue, hnone]

/-- A write whose pages all lie in T0 ends at once: bytes change, and the command is completed. -/
theorem State.wroteObj_T0 (hw : s.slc.objWrites = []) (hy : s.xlt.objs.get? n = some y) (hr : y.releasing = false)
    (hq : s.slc.nextMove ∉ s.sdg.queue.map SdgBlock.owner) (hp : s.slc.nextMove ∉ s.pea.waiting.map Prod.fst)
    (hpw : s.slc.nextMove ∉ s.pea.writes.map PWrite.move) (hin : ∀ p ∈ writtenPages first count, y.pageIn 0 p) :
    ∃ v : State, s.wroteObj r d n x first count inp = v.complete r { result := count } ∧ v.hif = s.hif ∧ v.outs = s.outs ∧
      v.mem = ((s.beginWrite r d n count).writePages s.slc.nextMove x (s.objMap n)
        ((writtenPages first count).zip (chunks (4096 * 2 ^ x.fc) count inp))).mem := by
  obtain ⟨k, hk⟩ := State.writePages_T0 (s := s.beginWrite r d n count) (m := s.objMap n)
    (ps := (writtenPages first count).zip (chunks (4096 * 2 ^ x.fc) count inp)) s.slc.nextMove x fun p h => by
      obtain ⟨e, he, ht⟩ := hin p.1 (List.of_mem_zip h).1
      exact ⟨e, by simpa [State.objMap, hy] using he, ht⟩
  have hwrites : ({ s.beginWrite r d n count with mem := k } : State).slc.objWrites =
      [{ id := s.slc.nextMove, req := r, domain := d, obj := n, count := count }] := by
    simp [State.beginWrite, hw]
  have hidle : ({ s.beginWrite r d n count with mem := k } : State).objBusy
      { id := s.slc.nextMove, req := r, domain := d, obj := n, count := count } = false := by
    simp only [State.objBusy, State.beginWrite, Bool.or_eq_false_iff, List.any_eq_false]
    refine ⟨⟨⟨rfl, fun b hb he => hq ?_⟩, fun w hw he => hp ?_⟩, fun w hw he => hpw ?_⟩
    · exact List.mem_map.mpr ⟨b, hb, by simpa using he⟩
    · exact List.mem_map.mpr ⟨w, hw, by simpa using he⟩
    · exact List.mem_map.mpr ⟨w, hw, by simpa using he⟩
  rw [hk, State.wroteObj, hk, State.fillQueue_of_empty (by rw [hwrites]; simp), State.endObjWrites, hwrites]
  simp only [List.filter_cons, List.filter_nil, hidle, Bool.not_false, if_true, Bool.false_eq_true, if_false]
  refine ⟨_, State.freeObj_of_kept (n := n) (y := y) (State.complete _ r { result := count }) ?_ hr, rfl, rfl, rfl⟩
  exact hy

/-- The one page of a write into T0 is stored at its home. -/
theorem State.memRead_writePages_one {m : Assoc Nat Pte} {e : Pte} (id : Nat) (he : m.get? first = some e) (ht : e.home.tier = 0)
    (hl : inp.length = 4096 * 2 ^ x.fc) :
    (s.writePages id x m ((writtenPages first 1).zip (chunks (4096 * 2 ^ x.fc) 1 inp))).memRead 0 (e.home.addr * 512)
      (4096 * 2 ^ x.fc) = inp := by
  have hpages : (writtenPages first 1).zip (chunks (4096 * 2 ^ x.fc) 1 inp) = [(first, inp)] := by
    simp [writtenPages, chunks, ← hl]
  have hstored : s.writePages id x m [(first, inp)] = s.memWrite 0 (e.home.addr * 512) inp := by
    change (match m.get? first with | some e => s.writePage id x e.home inp | none => s) = _
    rw [he]
    exact (if_pos ht).trans (by rw [State.putBytes, ht, Nat.add_zero])
  rw [hpages, hstored, ← hl, State.memRead_memWrite]

end

end Sys2Proof.Machine
end

section
/-! The commands on objects, settled (R186). -/

namespace Sys2Proof.Machine

theorem State.xlt_afterMemIn {s u : State} {c : Scope} (h : c.xlt = true) : (s.afterMemIn c u).xlt = u.xlt := by
  simp only [State.afterMemIn, State.afterMem_xlt, State.only, h, cond_true]

section
variable {s : State} {q : CmdRef} {c : InFlight} {n : Nat} {x : Obj} {inp : List Byte}

/-- The state in which an `OBJ_WRITE` finds itself once it has begun and its item has arrived. -/
def State.writeArrived (s : State) (q : CmdRef) (c : InFlight) (x : Obj) : State :=
  (s.markStarted q).offer ((s.markStarted q).objectItem (.ring q) (s.ringDomain q) (u32 c.ops 8) (4096 * 2 ^ x.fc) (u8 c.ops 12))

/-- An `OBJ_WRITE` of the ring that nothing refuses, that runs at once and whose pages fit, writes them. -/
theorem exec_objWrite_writes (h : s.offersXlt q 0x29 c) (hin : inp.length = c.inLen)
    (hf : s.findObj (s.ringDomain q) (u32 c.ops 0) = .ok (n, x)) (hr : x.releasing = false) (ht : u8 c.ops 12 ≤ 3)
    (hfl : u8 c.ops 12 = 3 → s.glb.variant.hasFlash = true ∧ s.islandOn peatIsland = true)
    (hl : inp.length = u32 c.ops 8 * (4096 * 2 ^ x.fc)) (hb : u32 c.ops 4 + u32 c.ops 8 ≤ x.pages) (hs : x.isSealed = false)
    (hm : ((writtenPages (u32 c.ops 4) (u32 c.ops 8)).any fun p => x.map.has p) = false)
    (hfit : (s.mapPages n x (u8 c.ops 12) (writtenPages (u32 c.ops 4) (u32 c.ops 8))).isSome = true)
    (hrun : s.runsAtOnce (s.objectItem (.ring q) (s.ringDomain q) (u32 c.ops 8) (4096 * 2 ^ x.fc) (u8 c.ops 12))) :
    ∃ u, (s.writeArrived q c x).MapsPages u ∧
      (∃ y, u.xlt.objs.get? n = some y ∧ y.releasing = false ∧
        ∀ p ∈ writtenPages (u32 c.ops 4) (u32 c.ops 8), y.pageIn (u8 c.ops 12) p) ∧
      exec (.objWrite q (.bytes inp)) s = .next (s.afterMemIn .store
        (u.wroteObj (.ring q) (s.ringDomain q) n x (u32 c.ops 4) (u32 c.ops 8) inp)) := by
  have hbudget : (s.writeArrived q c x).unbudgeted = (s.markStarted q).unbudgeted := State.unbudgeted_offer _ _
  have hmap := State.mapPages_withRoom (s.writeArrived q c x) (s.markStarted q) n x (u8 c.ops 12)
    (writtenPages (u32 c.ops 4) (u32 c.ops 8))
  have hmap' : (s.markStarted q).mapPages n x (u8 c.ops 12) (writtenPages (u32 c.ops 4) (u32 c.ops 8)) = _ :=
    State.mapPages_withRoom (s.markStarted q) s n x (u8 c.ops 12) (writtenPages (u32 c.ops 4) (u32 c.ops 8))
  rw [State.withRoom_of_unbudgeted hbudget, hmap'] at hmap
  obtain ⟨u, hu⟩ : ∃ u, (s.writeArrived q c x).mapPages n x (u8 c.ops 12) (writtenPages (u32 c.ops 4) (u32 c.ops 8)) = some u := by
    refine Option.isSome_iff_exists.mp ?_
    rw [hmap, Option.isSome_map, Option.isSome_map, hfit]
  have hx : (s.writeArrived q c x).xlt.objs.get? n = some x :=
    (congrArg (fun v : State => v.xlt.objs.get? n) hbudget :).trans (State.obj_of_findObj hf)
  obtain ⟨hmaps, y, hy, hyr, hpages⟩ := State.mapPages_maps hu ht hx
  refine ⟨u, hmaps, ⟨y, hy, hyr.trans hr, fun p hp => hpages p (.inl hp)⟩, ?_⟩
  have hf' : (s.markStarted q).findObj (s.ringDomain q) (u32 c.ops 0) = .ok (n, x) := hf
  change execObjWrite q (.bytes inp) s = _
  rw [execObjWrite, State.runCmdIn_of_startable h.1.1 inp hin, State.gate_markStarted h.2, State.onObj, hf']
  dsimp only
  rw [State.objWrite_writes (s := s.markStarted q) hr ht hfl hl hb hs hm hrun hu]

/-- The rings, what has been given and the stores that a write passes through, once its pages are mapped. -/
theorem State.MapsPages.writeArrived {u : State} (h : (s.writeArrived q c x).MapsPages u) :
    u.hif = (s.markStarted q).hif ∧ u.outs = s.outs ∧ u.slc.objWrites = s.slc.objWrites ∧ u.slc.nextMove = s.slc.nextMove ∧
      u.sdg = s.sdg ∧ u.pea.waiting = s.pea.waiting ∧ u.pea.writes = s.pea.writes := by
  have hbudget : (s.writeArrived q c x).unbudgeted = (s.markStarted q).unbudgeted := State.unbudgeted_offer _ _
  have hslc : (s.writeArrived q c x).slc = s.slc := (congrArg State.slc hbudget :)
  have hpea : (s.writeArrived q c x).pea = s.pea := (congrArg State.pea hbudget :)
  obtain ⟨_, _, _, _, _, _, _, rfl⟩ := h
  exact ⟨(congrArg State.hif hbudget :), (congrArg State.outs hbudget :), (congrArg Slc.objWrites hslc :), (congrArg Slc.nextMove hslc :),
    (congrArg State.sdg hbudget :), (congrArg Pea.waiting hpea :), (congrArg Pea.writes hpea :)⟩

end

/-- Settles O22: each command's own effect; the pages of a write lie where an allocation in the named tier put them, and bytes that
were stored read back. -/
theorem objectCommandsComplete : Obligations.ObjectCommandsComplete := by
  refine ⟨?create, ?write, ?sealed, ?release⟩
  case create =>
    intro s q c n h hp hfc hse hpg htake hn
    exact exec_objCreate_makes h hp hfc hse hpg htake hn
  case write =>
    intro s q c inp n x h hin hf hr ht hfl hl hb hs hm hfit hw hq hp hpw hrun
    obtain ⟨u, hmaps, ⟨y, hy, hyr, hpages⟩, hexec⟩ := exec_objWrite_writes h hin hf hr ht hfl hl hb hs hm hfit hrun
    obtain ⟨hhif, houts, hobjw, hnext, hsdg, hwaiting, hwrites⟩ := hmaps.writeArrived
    have hw' : u.slc.objWrites = [] := hobjw.trans hw
    have hobj : (s.afterMemIn .store (u.wroteObj (.ring q) (s.ringDomain q) n x (u32 c.ops 4) (u32 c.ops 8) inp)).xlt.objs.get? n
        = some y := by
      rw [State.xlt_afterMemIn rfl, State.objs_wroteObj hw' hy hyr, hy]
    have hT0 (h0 : u8 c.ops 12 = 0) := State.wroteObj_T0 (r := .ring q) (d := s.ringDomain q) (x := x) (inp := inp) hw' hy hyr
      (by rwa [hnext, hsdg]) (by rwa [hnext, hwaiting]) (by rwa [hnext, hwrites]) (h0 ▸ hpages)
    refine ⟨_, hexec, fun h0 => ?_, ?_, fun h0 h1 => ?_⟩
    · obtain ⟨v, hv, hvhif, hvouts, -⟩ := hT0 h0
      have hans := State.answersWith_complete (s := s) (c := { result := u32 c.ops 8 })
        (State.waitsFor_of_offers h.1 (hvhif.trans hhif)) (by rw [hvouts, houts]) rfl
      rw [State.answersWith, State.gives, State.outs_afterMemIn rfl, hv]
      exact hans
    · rw [hobj, Option.any_some]
      refine List.all_eq_true.mpr fun p hp => ?_
      obtain ⟨e, he, -⟩ := hpages p hp
      simp [Assoc.has, he]
    · obtain ⟨v, hv, -, -, hvmem⟩ := hT0 h0
      obtain ⟨e, he, htier⟩ := hpages (u32 c.ops 4) (by simp [writtenPages, h1])
      rw [hobj, Option.any_some, he, Option.any_some, Bool.and_eq_true]
      refine ⟨by simp [htier, h0], ?_⟩
      rw [beq_iff_eq, State.memRead_afterMemIn, hv, State.memRead_of_mem (State.complete_mem _ _ _), State.memRead_of_mem hvmem, h1]
      exact State.memRead_writePages_one _ (by simp [State.objMap, hy, he]) (htier.trans h0) (by rw [hl, h1, Nat.one_mul])
  case sealed =>
    intro s q c n x h hf hr
    exact exec_objSeal_seals h hf hr
  case release =>
    intro s q c n x h hf hreads hwrites hn
    exact exec_objRelease_ends h hf hreads hwrites hn

end Sys2Proof.Machine
end

section
/-! One placement in progress: whether it waits or ends, and the moves that its requests start (R168, R171, R177, R179). -/

namespace Sys2Proof.Machine

/-! ### One placement -/

section
variable {s u : State} {p : Placement}

/-- The one placement in progress, with nothing that waits for space or for a place. -/
structure State.OnePlace (s : State) (p : Placement) : Prop where
  places : s.slc.places = [p]
  queue : s.slc.queue = []
  spaceWait : s.slc.spaceWait = []
  chainWait : s.slc.chainWait = []

theorem State.OnePlace.of_clients (h : s.OnePlace p) (e : u.clients = s.clients) : u.OnePlace p := by
  simp only [State.clients, Slc.placing, Prod.mk.injEq] at e
  obtain ⟨-, -, hp, hq, hs, hc⟩ := e
  exact ⟨hp.trans h.places, hq.trans h.queue, hs.trans h.spaceWait, hc.trans h.chainWait⟩

theorem State.OnePlace.find (h : s.OnePlace p) : (s.slc.places.find? fun x => x.id == p.id) = some p := by
  simp [h.places]

/-- Placements are settled where nothing waits for space. -/
theorem State.sluice_settles (hw : s.slc.spaceWait = []) (hc : s.slc.chainWait = []) :
    s.sluice = s.only .engine (s.settlePlaces 600) := by
  have hspace : s.retrySpace = s := by
    simp only [State.retrySpace, hw, State.forEach_nil]
    rw [← hw]
  have hchains : s.retryChains = s := by
    simp only [State.retryChains, hc, State.forEach_nil]
    rw [← hc]
  rw [State.sluice, hspace, hchains]

/-- A placement that its pump leaves as another, and that is not decided, waits. -/
theorem State.sluice_pumps (h : s.OnePlace p) (hpump : s.pumpPreempt p.id = u) {p' : Placement} (hu : u.OnePlace p')
    (hwait : u.finishPlace p' = u) : s.sluice = s.only .engine u := by
  rw [State.sluice_settles h.spaceWait h.chainWait]
  have hfirst : (s.forEach (s.slc.places.map Placement.id) fun id t => t.pumpPreempt id) = u := by
    rw [h.places]
    exact hpump
  have hlast : (u.forEach u.slc.places fun p t => t.finishPlace p) = u := by
    rw [hu.places]
    exact hwait
  rw [State.settlePlaces, hfirst]
  dsimp only
  rw [hlast, hu.places, hu.queue]
  rfl

/-- A placement that ends leaves none. -/
theorem State.sluice_finishes (h : s.OnePlace p) (hpump : s.pumpPreempt p.id = s) (hend : s.finishPlace p = u)
    (hp : u.slc.places = []) (hq : u.slc.queue = []) : s.sluice = s.only .engine u := by
  have hnone (n : Nat) : u.settlePlaces n = u := by
    cases n with
    | zero => rfl
    | succ n => simp [State.settlePlaces, hp, hq]
  rw [State.sluice_settles h.spaceWait h.chainWait]
  have hfirst : (s.forEach (s.slc.places.map Placement.id) fun id t => t.pumpPreempt id) = s := by
    rw [h.places]
    exact hpump
  have hlast : (s.forEach s.slc.places fun p t => t.finishPlace p) = u := by
    rw [h.places]
    exact hend
  rw [State.settlePlaces, hfirst]
  dsimp only
  rw [hlast, hp, hq, hnone]
  simp

/-- A placement with no request to decide has nothing to pump. -/
theorem State.pumpPreempt_of_decided (h : s.OnePlace p) (hdone : (p.reqs.any fun r => r.res == .pending) = false) :
    s.pumpPreempt p.id = s := by
  have hreqs : (p.reqs.filter fun r => r.res == .pending && !s.slc.moves.any fun m => m.reqs.contains r.id) = [] :=
    List.filter_eq_nil_iff.mpr fun r hr => by simp [List.any_eq_false.mp hdone r hr]
  unfold State.pumpPreempt
  rw [h.find]
  dsimp only
  rw [hreqs]
  exact ite_self s

/-- Only a pre-emption that has been issued is pumped. -/
theorem State.pumpPreempt_of_other (h : s.OnePlace p) (hkind : p.started = false ∨ ∀ i b, p.kind ≠ .preempt i b) :
    s.pumpPreempt p.id = s := by
  have hskip : (!p.started || !(match p.kind with | .preempt _ _ => true | _ => false)) = true := by
    rcases hkind with hst | hk
    · simp [hst]
    · cases hp : p.kind with
      | preempt i b => exact absurd hp (hk i b)
      | place | restore => simp
  unfold State.pumpPreempt
  rw [h.find]
  exact if_pos hskip

theorem State.finishPlace_waits (h : p.started = false ∨ (p.reqs.any fun r => r.res == .pending) = true) : s.finishPlace p = s := by
  refine if_pos ?_
  rcases h with h | h <;> simp [h]

/-- A placement with an undecided request waits. -/
theorem State.sluice_waits (h : s.OnePlace p) (hkind : p.started = false ∨ ∀ i b, p.kind ≠ .preempt i b)
    (hwait : p.started = false ∨ (p.reqs.any fun r => r.res == .pending) = true) : s.sluice = s :=
  State.sluice_pumps h (State.pumpPreempt_of_other h hkind) h (State.finishPlace_waits hwait)

/-! ### The end of a placement -/

/-- The state once a placement has left the list and what it reserved is free. -/
def State.placeGone (s : State) (p : Placement) : State :=
  ({ s with slc := { s.slc with places := s.slc.places.filter fun x => x.id != p.id } } : State).forEach p.reserve fun x t => t.freeExt x.1

theorem State.clientsAndSeqs_placeGone : (s.placeGone p).clientsAndSeqs =
    ((s.hif, s.outs, { s.slc with places := s.slc.places.filter fun x => x.id != p.id }.placing), s.xlt.seqs) :=
  State.clientsAndSeqs_forEach _ p.reserve fun _ _ => State.clientsAndSeqs_freeExt _ _

/-- What the end of a placement does to its sequence. -/
def State.placeEffect (s : State) (p : Placement) : State :=
  match p.kind with
  | .place => s
  | .preempt i auto =>
    if p.result.status = .ok then
      let s := s.setSeq i fun q => { q with st := if q.st = .idle ∨ q.st = .active then .preempted else q.st }
      if auto then s else s.bumpD p.domain Reg.slcPreemptLo
    else s
  | .restore i =>
    if p.result.status = .ok then
      (s.setSeq i fun q => { q with st := if q.st = .preempted then .idle else q.st }).bumpD p.domain Reg.slcRestoreLo
    else s

theorem State.clients_placeEffect : (s.placeEffect p).clients = s.clients := by
  unfold State.placeEffect
  split
  · rfl
  · split
    · dsimp only
      split
      · rfl
      · exact State.clients_bumpD _ _ _ _
    · rfl
  · split
    · exact State.clients_bumpD _ _ _ _
    · rfl

/-- The state once a placement has ended and been answered. -/
def State.endPlace (s : State) (p : Placement) : State :=
  ((s.placeGone p).placeEffect p).forEach (p.req :: p.joined) fun r t => t.complete r p.result

/-- A decided placement ends. -/
theorem State.finishPlace_ends (hst : p.started = true) (hdone : (p.reqs.any fun r => r.res == .pending) = false) :
    s.finishPlace p = s.endPlace p :=
  if_neg (by simp [hst, hdone])

theorem State.slc_forEach_complete (s : State) (l : List Requester) (c : Cpl) : (s.forEach l fun r t => t.complete r c).slc = s.slc := by
  induction l generalizing s with
  | nil => rfl
  | cons r l ih => exact (ih _).trans (State.complete_slc _ _ _)

theorem State.xlt_forEach_complete (s : State) (l : List Requester) (c : Cpl) : (s.forEach l fun r t => t.complete r c).xlt = s.xlt := by
  induction l generalizing s with
  | nil => rfl
  | cons r l ih => exact (ih _).trans (State.complete_xlt _ _ _)

theorem State.slc_endPlace : (s.endPlace p).slc = ((s.placeGone p).placeEffect p).slc := State.slc_forEach_complete _ _ _

theorem State.xlt_endPlace : (s.endPlace p).xlt = ((s.placeGone p).placeEffect p).xlt := State.xlt_forEach_complete _ _ _

/-- What is in progress once a placement has left. -/
theorem State.clients_endPlace : ((s.placeGone p).placeEffect p).clients =
    (s.hif, s.outs, { s.slc with places := s.slc.places.filter fun x => x.id != p.id }.placing) :=
  State.clients_placeEffect.trans (congrArg Prod.fst State.clientsAndSeqs_placeGone)

/-- No placement is left once the only one has ended. -/
theorem State.places_endPlace (h : s.OnePlace p) : (s.endPlace p).slc.places = [] := by
  rw [State.slc_endPlace, show ((s.placeGone p).placeEffect p).slc.places = s.slc.places.filter fun x => x.id != p.id from
    (congrArg (fun z => z.2.2.1) State.clients_endPlace :)]
  simp [h.places]

/-- The one placement, decided, ends, and none is left. -/
theorem State.sluice_ends (h : s.OnePlace p) (hst : p.started = true) (hdone : (p.reqs.any fun r => r.res == .pending) = false) :
    s.sluice = s.only .engine (s.endPlace p) := by
  refine State.sluice_finishes h (State.pumpPreempt_of_decided h hdone) (State.finishPlace_ends hst hdone) (State.places_endPlace h) ?_
  rw [State.slc_endPlace, show ((s.placeGone p).placeEffect p).slc.queue = s.slc.queue from
    (congrArg (fun z => z.2.2.2.1) State.clients_endPlace :)]
  exact h.queue

end

end Sys2Proof.Machine
end

section
/-! A frame request of a placement: it is satisfied where the frame rests in its tier, and otherwise it starts a move (R171, R177). -/

namespace Sys2Proof.Machine

/-! ### The start of a move -/

/-- A state in which a move has just been accepted: it is the last of the list, and its frame moves. -/
structure State.StartsMove (s : State) (m : Move) (u : State) : Prop where
  moves : u.slc.moves = s.slc.moves ++ [m]
  clients : u.clients = s.clients
  spaceCmds : u.slc.spaceCmds = s.slc.spaceCmds
  frame : u.frame? m.frame = (s.frame? m.frame).map fun i => { i with moving := true }
  seqs (i : Nat) : ((u.seq? i).map fun q => { q with ptes := [] }) = (s.seq? i).map fun q => { q with ptes := [] }

/-- The move that a frame request accepts. -/
def FrameInfo.move (i : FrameInfo) (f : FrameId) (promo evict : Bool) (tier : Nat) (reqs : List Nat) (dst : Home)
    (ticket since n : Nat) : Move :=
  { domain := i.domain, ticket := ticket, frame := f, promo := promo, tier := tier, src := i.home, dst := dst, bytes := i.bytes
    evict := evict, reqs := reqs, since := since, seqNo := n }

/-- A state with one more move, under a ticket of its domain. -/
def State.listMove (s : State) (m : Move) : State :=
  { (s.newTicket m.domain).2 with
    slc := { (s.newTicket m.domain).2.slc with moves := s.slc.moves ++ [m], nextMove := s.slc.nextMove + 1 } }

section
variable {s u : State} {f : FrameId} {i : FrameInfo} {promo evict : Bool} {tier : Nat} {reqs : List Nat} {dst : Home}

/-- A state in which a frame has been given a move. -/
def State.withMove (s : State) (m : Move) (it : Item) : State :=
  ((s.listMove m).setFrame m.frame fun i => { i with moving := true }).enqueue it

/-- A move with a new ticket is accepted once it has a place to go (R173). -/
theorem State.startMove_allocs (hisland : tier = 3 ∨ i.home.tier = 3 → s.islandOn peatIsland = true)
    (hdst : s.alloc i.domain tier i.bytes i.isMeta = some (dst, u)) :
    ∃ it, s.startMove f i promo evict tier reqs none none = .ok (u.withMove
      (i.move f promo evict tier reqs dst (u.newTicket i.domain).1 u.now u.slc.nextMove) it) := by
  have hgate : ¬ ((tier = 3 ∨ i.home.tier = 3) ∧ (!s.islandOn peatIsland) = true) := fun ⟨h3, hn⟩ => by simp [hisland h3] at hn
  unfold State.startMove
  rw [if_neg hgate]
  dsimp only
  rw [hdst]
  exact ⟨_, rfl⟩

/-- A move into space that is reserved for it is accepted (R179). -/
theorem State.startMove_reserved (hisland : tier = 3 ∨ i.home.tier = 3 → s.islandOn peatIsland = true) :
    ∃ it, s.startMove f i promo evict tier reqs none (some dst) = .ok (s.withMove
      (i.move f promo evict tier reqs dst (s.newTicket i.domain).1 s.now s.slc.nextMove) it) := by
  have hgate : ¬ ((tier = 3 ∨ i.home.tier = 3) ∧ (!s.islandOn peatIsland) = true) := fun ⟨h3, hn⟩ => by simp [hisland h3] at hn
  unfold State.startMove
  rw [if_neg hgate]
  exact ⟨_, rfl⟩

/-- The move that an allocation found a place for has started. -/
theorem State.startsMove_of_allocates (hu : s.Allocates u) (m : Move) (it : Item) :
    s.StartsMove m (u.withMove m it) := by
  unfold State.withMove
  have hxlt : (u.listMove m).xlt = s.xlt := by
    obtain ⟨_, _, _, _, _, rfl⟩ := hu
    rfl
  have hframe := State.frame?_setFrame (u.listMove m) m.frame fun i => { i with moving := true }
  have hseqs := State.seq?_setFrame (u.listMove m) m.frame fun i => { i with moving := true }
  rw [State.frame?_of_xlt hxlt] at hframe
  obtain ⟨x, hx⟩ := State.setFrame_eq (u.listMove m) m.frame fun i => { i with moving := true }
  refine ⟨?moves, ?clients, ?cmds, hframe, fun j => (hseqs j).trans (by rw [State.seq?, hxlt, State.seq?])⟩ <;>
    obtain ⟨_, _, _, _, _, rfl⟩ := hu <;> rw [hx] <;> rfl

end

/-! ### Requests -/

section
variable {s : State} {r : FrameReq} {i : FrameInfo}

/-- A request for a frame that rests in its tier is satisfied (Table 8.3). -/
theorem State.decideReq_rests (hf : s.frame? r.frame = some i) (hm : s.moveOf r.frame = none) (ht : r.tier = i.home.tier) :
    s.decideReq r = s.endReqs [r.id] .satisfied := by
  unfold State.decideReq
  rw [hf, hm]
  exact if_pos ht

/-- A request for a frame elsewhere starts its move (Table 8.3). -/
theorem State.decideReq_moves {u : State} (hf : s.frame? r.frame = some i) (hm : s.moveOf r.frame = none) (ht : r.tier ≠ i.home.tier)
    (hshared : i.home.tier < r.tier → (r.scopeSeq && i.shared) = false)
    (hstart : s.startMove r.frame i (decide (r.tier < i.home.tier)) r.evict r.tier [r.id] none none = .ok u) :
    s.decideReq r = u := by
  have htry : s.tryMove { r with promo := decide (r.tier < i.home.tier) } i = u := by
    unfold State.tryMove
    dsimp only
    rw [hstart]
  unfold State.decideReq
  rw [hf, hm]
  dsimp only
  rw [if_neg ht, htry]
  by_cases hlt : r.tier < i.home.tier
  · rw [if_pos (decide_eq_true hlt)]
  · rw [if_neg (by simpa using hlt), if_neg (by rw [hshared (by omega)]; exact Bool.false_ne_true)]

end

end Sys2Proof.Machine
end

section
/-! `SLC_PLACE` of one frame and `SLC_WAIT` (R170 to R173). -/

namespace Sys2Proof.Machine

/-! ### A placement with one request -/

/-- A state in which a placement with one request has just been listed. -/
def State.asking (s : State) (p : Placement) : State :=
  { s with slc := { s.slc with places := [p], nextPlace := s.slc.nextPlace + 1, nextReq := s.slc.nextReq + 1 } }

/-- A state in which a placement has just been listed. -/
def State.withPlace (s : State) (p : Placement) : State :=
  { s with slc := { s.slc with places := s.slc.places ++ [p], nextPlace := s.slc.nextPlace + 1 } }

/-- The next request for a frame. -/
def State.nextRequest (s : State) (f : FrameId) (tier : Nat) (evict scopeSeq : Bool) : FrameReq :=
  { id := s.slc.nextReq, frame := f, tier := tier, evict := evict, scopeSeq := scopeSeq }

/-- The next placement command of a requester, with one request. -/
def State.nextPlacement (s : State) (r : Requester) (d : Nat) (k : PlaceKind) (x : FrameReq) : Placement :=
  { id := s.slc.nextPlace, req := r, domain := d, kind := k, reqs := [x] }

section
variable {s : State} {r : Requester} {d : Nat} {k : PlaceKind} {f : FrameId} {tier : Nat} {evict sc : Bool}

/-- A placement of one frame is decided by its one request. -/
theorem State.issue_one (hn : s.noPlacements) :
    (s.withPlace { id := s.slc.nextPlace, req := r, domain := d, kind := k, reqs := [] }).issue s.slc.nextPlace [f] tier evict sc =
    (s.asking (s.nextPlacement r d k (s.nextRequest f tier evict sc))).decideReq (s.nextRequest f tier evict sc) := by
  obtain ⟨hp, -, -, -⟩ := hn
  simp only [State.issue, State.withPlace, State.forEach, List.foldl_cons, List.foldl_nil, State.modPlace, hp, List.nil_append, updFirst,
    beq_self_eq_true, if_true]
  rfl

theorem State.asking_onePlace (hn : s.noPlacements) (p : Placement) : (s.asking p).OnePlace p :=
  ⟨rfl, hn.2.1, hn.2.2.1, hn.2.2.2⟩

/-- A request that waits makes its placement wait. -/
theorem State.pending_nextPlacement {x : FrameReq} (hx : x.res = .pending) :
    ((s.nextPlacement r d k x).reqs.any fun r => r.res == .pending) = true := by
  simp [State.nextPlacement, hx]

/-- Room that a state has for a frame is there once a placement has been listed. -/
theorem State.alloc_asking {b : Nat} {m : Bool} (h : (s.alloc d tier b m).isSome = true) (e : State) (he : e.withRoom s = e) :
    ∃ dst u, e.alloc d tier b m = some (dst, u) ∧ e.Allocates u ∧ (tier ≤ 3 → dst.tier = tier) := by
  obtain ⟨⟨dst, u⟩, hu⟩ := Option.isSome_iff_exists.mp h
  have halloc := State.alloc_withRoom e s d tier b m
  rw [he, hu] at halloc
  exact ⟨dst, _, halloc, State.alloc_allocates halloc⟩

/-- A request for a frame elsewhere starts its move where there is room (R168, Table 8.3). -/
theorem State.decideReq_starts {i : FrameInfo} (x : FrameReq) (hf : s.frame? x.frame = some i) (hm : s.moveOf x.frame = none)
    (ht : x.tier ≠ i.home.tier) (hshared : i.home.tier < x.tier → (x.scopeSeq && i.shared) = false)
    (hisland : x.tier = 3 ∨ i.home.tier = 3 → s.islandOn peatIsland = true) (hroom : (s.alloc i.domain x.tier i.bytes i.isMeta).isSome = true)
    (e : State) (he : e.withRoom s = e) (hmoves : e.slc.moves = s.slc.moves) (hpwr : e.pwr = s.pwr) :
    ∃ m : Move, e.StartsMove m (e.decideReq x) ∧ m.frame = x.frame ∧ m.tier = x.tier ∧ m.promo = decide (x.tier < i.home.tier) ∧
      m.st = .queued ∧ m.src = i.home ∧ (x.tier ≤ 3 → m.dst.tier = x.tier) := by
  obtain ⟨dst, u, halloc, hu, htier⟩ := State.alloc_asking hroom e he
  have hxlt : e.xlt = s.xlt := (congrArg State.xlt he :).symm
  have hglb : e.glb = s.glb := (congrArg State.glb he :).symm
  have hisland' : x.tier = 3 ∨ i.home.tier = 3 → e.islandOn peatIsland = true := by
    rw [State.islandOn, State.island, hpwr, hglb]
    exact hisland
  obtain ⟨it, hstart⟩ := State.startMove_allocs (f := x.frame) (promo := decide (x.tier < i.home.tier)) (evict := x.evict)
    (reqs := [x.id]) hisland' halloc
  rw [State.decideReq_moves ((State.frame?_of_xlt hxlt _).trans hf) (by rw [State.moveOf, hmoves]; exact hm) ht hshared hstart]
  exact ⟨_, State.startsMove_of_allocates hu _ it, rfl, rfl, rfl, rfl, rfl, htier⟩

end

/-! ### `SLC_PLACE` -/

/-- The operands of `SLC_PLACE`, with the last layer that they name. -/
def State.placeRange (s : State) (d : Nat) (o : List Byte) : PlaceOps :=
  { placeOps o with hi := s.placeLast d (placeOps o) }

/-- The request of an `SLC_PLACE` of one frame. -/
def State.placeRequest (s : State) (o : List Byte) (f : FrameId) : FrameReq :=
  s.nextRequest f (placeOps o).tier (bit (placeOps o).flags 0) ((placeOps o).scope == 0)

/-- The operands of `SLC_PLACE` that R170 refuses. -/
abbrev State.placeRefused (s : State) (d : Nat) (o : List Byte) : Bool :=
  decide (2 < (placeOps o).scope) || decide (3 < (placeOps o).tier) || decide (3 < (placeOps o).flags) || !zeros o 14 2 || !zeros o 24 8 ||
    decide (s.placeLast d (placeOps o) < (placeOps o).lo) || decide ((placeOps o).pageHi < (placeOps o).pageLo)

section
variable {s : State} {q : CmdRef} {c : InFlight} {f : FrameId} {v : FrameInfo}

theorem State.startPlace_place (s : State) (r : Requester) (d : Nat) (o : List Byte) : s.startPlace r d 0x20 o = s.placeCmd r d o := rfl

/-- A placement command that finds none in progress starts. -/
theorem State.placeOrWait_starts (hn : s.noPlacements) (r : Requester) (d op : Nat) (o : List Byte) :
    s.placeOrWait r d op o = (s.startPlace r d op o).sluice := by
  obtain ⟨hp, hq, -, -⟩ := hn
  exact if_pos (by simp [hp, hq])

theorem State.retryCmds_idle (h : s.slc.spaceCmds = []) : s.retryCmds = s := by
  simp only [State.retryCmds, h, State.forEach_nil]
  rw [← h]

/-- `SLC_PLACE` of one frame is decided by its one request. -/
theorem State.placeCmd_one {r : Requester} {d : Nat} {o : List Byte} (hn : s.noPlacements) (hform : s.placeRefused d o = false)
    (hflash : (placeOps o).tier = 3 → s.glb.variant.hasFlash = true) (hframes : s.placeFrames d (s.placeRange d o) = .ok [f]) :
    s.placeCmd r d o = (s.asking (s.nextPlacement r d .place (s.placeRequest o f))).decideReq (s.placeRequest o f) := by
  have habsent : ¬ ((s.placeRange d o).tier = 3 ∧ (!s.glb.variant.hasFlash) = true) := fun ⟨h3, hf⟩ => by simp [hflash h3] at hf
  unfold State.placeCmd
  extract_lets p p' bad
  have hgood : bad = false := hform
  rw [if_neg (by rw [hgood]; exact Bool.false_ne_true), show s.placeFrames d p' = .ok [f] from hframes]
  exact (if_neg habsent).trans (State.issue_one hn)

end

/-- A placement whose one request was satisfied. -/
def Placement.satisfied (p : Placement) : Placement := { p with reqs := p.reqs.map fun r => { r with res := .satisfied } }

/-- The request of a placement is satisfied. -/
theorem State.endReqs_asking (s : State) (r : Requester) (d : Nat) (k : PlaceKind) {x : FrameReq} (hx : x.res = .pending) :
    (s.asking (s.nextPlacement r d k x)).endReqs [x.id] .satisfied = s.asking (s.nextPlacement r d k x).satisfied := by
  simp only [State.endReqs, State.asking, State.nextPlacement, Placement.satisfied, List.map_cons, List.map_nil, List.contains_cons,
    List.contains_nil, beq_self_eq_true, hx, Bool.true_or, Bool.and_self, if_true]

section
variable {s : State} {r : Requester} {d : Nat} {o : List Byte} {f : FrameId} {v : FrameInfo} (hn : s.noPlacements)
  (hform : s.placeRefused d o = false) (hflash : (placeOps o).tier = 3 → s.glb.variant.hasFlash = true)
  (hframes : s.placeFrames d (s.placeRange d o) = .ok [f]) (hf : s.frame? f = some v) (hm : s.moveOf f = none)
include hn hform hflash hframes hf hm

/-- A placement over a frame that rests in the tier is satisfied at once (R171). -/
theorem State.placeOrWait_rests (ht : v.home.tier = (placeOps o).tier) :
    ∃ u : State, s.placeOrWait r d 0x20 o = s.only .engine (u.complete r { result := 1 }) ∧ u.hif = s.hif ∧ u.outs = s.outs ∧
      u.xlt = s.xlt ∧ u.slc.moves = s.slc.moves ∧ u.slc.spaceCmds = s.slc.spaceCmds := by
  have hdecide := State.decideReq_rests (r := s.placeRequest o f) (s := s.asking (s.nextPlacement r d .place (s.placeRequest o f)))
    ((State.frame?_of_xlt rfl f).trans hf) hm ht.symm
  have hends := State.sluice_ends (State.asking_onePlace hn (s.nextPlacement r d .place (s.placeRequest o f)).satisfied) rfl rfl
  rw [State.placeOrWait_starts hn, State.startPlace_place, State.placeCmd_one hn hform hflash hframes, hdecide,
    State.endReqs_asking s r d .place rfl, hends]
  exact ⟨_, rfl, rfl, rfl, rfl, rfl, rfl⟩

/-- A placement over a frame elsewhere starts its move, and waits (R171). -/
theorem State.placeOrWait_moves (ht : v.home.tier ≠ (placeOps o).tier)
    (hroom : (s.alloc v.domain (placeOps o).tier v.bytes v.isMeta).isSome = true)
    (hisland : (placeOps o).tier = 3 ∨ v.home.tier = 3 → s.islandOn peatIsland = true)
    (hshared : v.home.tier < (placeOps o).tier → (placeOps o).scope = 0 → v.shared = false) :
    ∃ m : Move, (s.asking (s.nextPlacement r d .place (s.placeRequest o f))).StartsMove m (s.placeOrWait r d 0x20 o) ∧ m.frame = f ∧
      m.tier = (placeOps o).tier ∧ m.promo = decide ((placeOps o).tier < v.home.tier) ∧ m.st = .queued ∧ m.src = v.home ∧
      m.dst.tier = (placeOps o).tier := by
  have hscope : v.home.tier < (placeOps o).tier → ((placeOps o).scope == 0 && v.shared) = false := fun hlt => by
    cases hs : (placeOps o).scope == 0 with
    | false => rfl
    | true => exact hshared hlt (beq_iff_eq.mp hs)
  obtain ⟨m, hm', hframe, htier, hpromo, hst, hsrc, hdst⟩ := State.decideReq_starts (s.placeRequest o f) hf hm (Ne.symm ht) hscope hisland
    hroom (s.asking (s.nextPlacement r d .place (s.placeRequest o f))) rfl rfl rfl
  have hone := (State.asking_onePlace hn (s.nextPlacement r d .place (s.placeRequest o f))).of_clients hm'.clients
  have hle : (placeOps o).tier ≤ 3 := by
    simp only [Bool.or_eq_false_iff, decide_eq_false_iff_not] at hform
    obtain ⟨⟨⟨⟨⟨⟨-, htier⟩, -⟩, -⟩, -⟩, -⟩, -⟩ := hform
    omega
  rw [State.placeOrWait_starts hn, State.startPlace_place, State.placeCmd_one hn hform hflash hframes,
    State.sluice_waits hone (.inr nofun) (.inr (State.pending_nextPlacement rfl))]
  exact ⟨m, hm', hframe, htier, hpromo, hst, hsrc, hdst hle⟩

end

end Sys2Proof.Machine
end

section
/-! `SLC_PLACE` and `SLC_WAIT` of the ring (R170, R171, R173). -/

namespace Sys2Proof.Machine

section
variable {s : State} {q : CmdRef} {c : InFlight}

/-- `SLC_PLACE` of the ring starts where no placement is in progress. -/
theorem execSlcPlace_starts (h : s.offersXlt q 0x20 c) :
    exec (.slcPlace q) s = .next (s.afterMemIn .lookup ((s.markStarted q).placeOrWait (.ring q) (s.ringDomain q) 0x20 c.ops).retryCmds) := by
  change execSlcPlace q s = _
  rw [execSlcPlace, State.runXlt_of_offers h fun t r d o => (t.placeOrWait r d 0x20 o).retryCmds]

section
variable {f : FrameId} {v : FrameInfo} (h : s.offersXlt q 0x20 c) (hn : s.noPlacements) (hcmds : s.slc.spaceCmds = [])
  (hform : s.placeRefused (s.ringDomain q) c.ops = false) (hflash : (placeOps c.ops).tier = 3 → s.glb.variant.hasFlash = true)
  (hframes : s.placeFrames (s.ringDomain q) (s.placeRange (s.ringDomain q) c.ops) = .ok [f]) (hf : s.frame? f = some v)
  (hm : s.moveOf f = none)
include h hn hcmds hform hflash hframes hf hm

theorem exec_slcPlace_rests (ht : v.home.tier = (placeOps c.ops).tier) :
    ∃ t, exec (.slcPlace q) s = .next t ∧ s.answersWith t q c 1 0 = true ∧ t.frame? f = some v ∧ t.slc.moves = s.slc.moves := by
  obtain ⟨u, hu, hhif, houts, hxlt, hmoves, hspace⟩ := State.placeOrWait_rests (s := s.markStarted q) (r := .ring q) hn hform hflash
    hframes ((State.frame?_of_xlt rfl f).trans hf) hm ht
  have hidle : ((s.markStarted q).only .engine (u.complete (.ring q) { result := 1 })).slc.spaceCmds = [] := hspace.trans hcmds
  have hans := State.answersWith_complete (s := s) (c := { result := 1 }) (State.waitsFor_of_offers h.1 hhif) (by rw [houts]; exact
    List.suffix_rfl) rfl
  rw [execSlcPlace_starts h, hu, State.retryCmds_idle hidle]
  refine ⟨_, rfl, ?_, ?_, ?_⟩
  · rw [State.answersWith, State.gives, State.outs_afterMemIn rfl]
    exact hans
  · exact (State.frame?_of_xlt (s := s) ((State.xlt_afterMemIn rfl).trans hxlt) f).trans hf
  · rw [State.slc_afterMemIn rfl]
    exact hmoves

theorem exec_slcPlace_moves (ht : v.home.tier ≠ (placeOps c.ops).tier)
    (hroom : (s.alloc v.domain (placeOps c.ops).tier v.bytes v.isMeta).isSome = true)
    (hisland : (placeOps c.ops).tier = 3 ∨ v.home.tier = 3 → s.islandOn peatIsland = true)
    (hshared : v.home.tier < (placeOps c.ops).tier → (placeOps c.ops).scope = 0 → v.shared = false) :
    ∃ t, exec (.slcPlace q) s = .next t ∧ t.slc.moves.length = s.slc.moves.length + 1 ∧
      ((t.slc.moves.getLast?).any fun m => m.frame == f && m.tier == (placeOps c.ops).tier &&
        m.promo == decide ((placeOps c.ops).tier < v.home.tier) && m.st == .queued && m.src == v.home &&
        m.dst.tier == (placeOps c.ops).tier) = true ∧
      (t.frame? f).map FrameInfo.moving = some true := by
  have hroom' : ((s.markStarted q).alloc v.domain (placeOps c.ops).tier v.bytes v.isMeta).isSome = true := by
    obtain ⟨_, _, he, -⟩ := State.alloc_asking hroom (s.markStarted q) rfl
    rw [he]
    rfl
  obtain ⟨m, hu, rfl, htier, hpromo, hst, hsrc, hdst⟩ := State.placeOrWait_moves (s := s.markStarted q) (r := .ring q) hn hform hflash
    hframes ((State.frame?_of_xlt rfl f).trans hf) hm ht hroom' hisland hshared
  have hmoves : ((s.markStarted q).placeOrWait (.ring q) (s.ringDomain q) 0x20 c.ops).slc.moves = s.slc.moves ++ [m] := hu.moves
  rw [execSlcPlace_starts h, State.retryCmds_idle (hu.spaceCmds.trans hcmds)]
  refine ⟨_, rfl, ?_, ?_, ?_⟩
  · rw [State.slc_afterMemIn rfl, hmoves, List.length_append, List.length_singleton]
  · rw [State.slc_afterMemIn rfl, hmoves, List.getLast?_concat, Option.any_some]
    simp [htier, hpromo, hst, hsrc, hdst]
  · rw [State.frame?_of_xlt (State.xlt_afterMemIn rfl)]
    exact congrArg (Option.map FrameInfo.moving) (hu.frame.trans (congrArg (Option.map _) ((State.frame?_of_xlt (s := s) rfl _).trans hf)))

end

/-! ### `SLC_WAIT` -/

/-- Whether a pending move of a domain has a ticket. -/
abbrev State.ticketPends (s : State) (d n : Nat) : Bool :=
  (s.slc.moves.any fun m => decide (m.domain = d) && (m.ticket == n || m.chain.any fun y => y.ticket == n)) ||
    s.slc.chainWait.any fun y => y.2.1 == d && y.2.2.ticket == n

theorem execSlcWait_eq (h : s.offers q 0x21 c) :
    exec (.slcWait q) s = .next (s.afterIn .engine
      (if u32 c.ops 0 ≠ 0 ∧ s.ticketPends (s.ringDomain q) (u32 c.ops 0) = true then
        { s.markStarted q with slc := { s.slc with waiters := s.slc.waiters ++ [(.ring q, s.ringDomain q, u32 c.ops 0)] } }
      else (s.markStarted q).complete (.ring q) {})) := by
  change execSlcWait q s = _
  rw [execSlcWait, State.runCmd_of_startable h.1]
  rfl

theorem exec_slcWait_completes (h : s.offers q 0x21 c)
    (hfree : u32 c.ops 0 = 0 ∨ s.ticketPends (s.ringDomain q) (u32 c.ops 0) = false) :
    ∃ t, exec (.slcWait q) s = .next t ∧ s.posts t q c .ok = true ∧ t.slc = s.slc := by
  have hnone : ¬ (u32 c.ops 0 ≠ 0 ∧ s.ticketPends (s.ringDomain q) (u32 c.ops 0) = true) := fun ⟨h0, hp⟩ => by
    rcases hfree with h0' | hfree
    · exact h0 h0'
    · rw [hfree] at hp
      exact Bool.false_ne_true hp
  rw [execSlcWait_eq h, if_neg hnone]
  exact ⟨_, rfl, State.posts_of_offers h rfl List.suffix_rfl rfl rfl, rfl⟩

theorem exec_slcWait_waits (h : s.offers q 0x21 c) (h0 : u32 c.ops 0 ≠ 0)
    (hp : s.ticketPends (s.ringDomain q) (u32 c.ops 0) = true) :
    ∃ t, exec (.slcWait q) s = .next t ∧ t.slc.waiters = s.slc.waiters ++ [(.ring q, s.ringDomain q, u32 c.ops 0)] := by
  rw [execSlcWait_eq h, if_pos ⟨h0, hp⟩]
  exact ⟨_, rfl, rfl⟩

end

end Sys2Proof.Machine
end

section
/-! `SEQ_PREEMPT`, the demotion that follows it, and `SEQ_RESTORE` (R179, R180). -/

namespace Sys2Proof.Machine

/-! ### `SEQ_PREEMPT` -/

/-- A state in which a pre-emption of a sequence has just been listed. -/
def State.withPreempt (s : State) (p : Placement) (i : Nat) : State :=
  let t := (({ s with slc := { s.slc with places := s.slc.places ++ [p], nextPlace := s.slc.nextPlace + 1 } } : State).setSeq i
    fun q => { q with held := q.held.map fun h => { h with before := true } }).awaits (.preempt i)
  { t with att := { t.att with steps := t.att.steps.map fun t => if t.seq = i then { t with before := true } else t } }

section
variable {s : State} {i : Nat} {x : Seq} {p : Placement}

theorem State.clients_withPreempt : (s.withPreempt p i).clients =
    (s.hif, s.outs, { s.slc with places := s.slc.places ++ [p] }.placing) :=
  (congrArg Prod.fst (State.clientsAndSeqs_awaits _ (.preempt i)) :)

theorem State.withPreempt_onePlace (hn : s.noPlacements) : (s.withPreempt p i).OnePlace p := by
  obtain ⟨hp, hq, hs, hc⟩ := hn
  have hcl := State.clients_withPreempt (s := s) (i := i) (p := p)
  simp only [State.clients, Slc.placing, Prod.mk.injEq] at hcl
  obtain ⟨-, -, hp', hq', hs', hc'⟩ := hcl
  exact ⟨hp'.trans (by rw [hp]; rfl), hq'.trans hq, hs'.trans hs, hc'.trans hc⟩

theorem State.seq?_withPreempt (h : s.seq? i = some x) :
    (s.withPreempt p i).seq? i = some { x with held := x.held.map fun h => { h with before := true } } :=
  Eq.trans (State.seq?_awaits (.preempt i)) (State.seq?_setSeq_same (s := { s with slc := _ }) h _)

/-- The sizes of the frames that a pre-emption moves. -/
abbrev State.preemptSizes (s : State) (i : Nat) (x : Seq) : List Nat :=
  (s.eligible i x).filterMap fun f => (s.frame? f).map FrameInfo.bytes

/-- A pre-emption whose frames have their space in T2 starts. -/
theorem State.startPreempt_starts {r : Requester} (hfit : (s.reserveT2 x.domain (s.preemptSizes i x)).isSome = true) :
    ∃ y : List (Home × Nat) × State, s.Allocates y.2 ∧ s.startPreempt i x false r = some (y.2.withPreempt
      { id := y.2.slc.nextPlace, req := r, domain := x.domain, kind := .preempt i false, reqs := [], started := false, reserve := y.1 } i) := by
  obtain ⟨y, hy⟩ := Option.isSome_iff_exists.mp hfit
  refine ⟨y, State.reserveT2_allocates hy, ?_⟩
  unfold State.startPreempt
  dsimp only
  rw [hy]
  rfl

theorem State.preempting_of_onePlace {b : Bool} (h : s.OnePlace p) (hk : p.kind = .preempt i b) : s.preempting i = true := by
  simp [State.preempting, h.places, hk]

theorem State.not_preempting (h : s.slc.places = []) : s.preempting i = false := by
  simp [State.preempting, h]

/-- `SEQ_PREEMPT` of a sequence that is idle or active starts its pre-emption. -/
theorem State.preemptCmd_starts {r : Requester} {d : Nat} {o : List Byte} (hn : s.noPlacements)
    (hf : s.findSeq d (u32 o 0) = .ok (i, x)) (hst : x.st = .idle ∨ x.st = .active)
    (hfit : (s.reserveT2 x.domain (s.preemptSizes i x)).isSome = true) :
    ∃ p, (s.preemptCmd r d o).OnePlace p ∧ p.started = false ∧ p.kind = .preempt i false ∧
      ((s.preemptCmd r d o).seq? i).map Seq.st = some x.st := by
  obtain ⟨y, hy, hstart⟩ := State.startPreempt_starts (r := r) hfit
  have hrun : s.preemptCmd r d o = y.2.withPreempt { id := y.2.slc.nextPlace, req := r, domain := x.domain, kind := .preempt i false
                                                     reqs := [], started := false, reserve := y.1 } i := by
    have hnone : s.preempting i = false := State.not_preempting hn.1
    unfold State.preemptCmd
    rw [hf]
    dsimp only
    rcases hst with hst | hst <;> rw [hst] <;> simp only [hnone, Bool.false_eq_true, if_false, hstart]
  rw [hrun]
  obtain ⟨g, e, n, a, b, he⟩ := hy
  have hn' : y.2.noPlacements := by
    rw [he]
    exact hn
  have hx : y.2.seq? i = some x := by
    rw [he]
    exact State.seq?_of_findSeq hf
  exact ⟨_, State.withPreempt_onePlace hn', rfl, rfl, by rw [State.seq?_withPreempt hx]; rfl⟩

/-- `SEQ_PREEMPT` of a sequence that is pre-empted has nothing to do. -/
theorem State.preemptCmd_done {r : Requester} {d : Nat} {o : List Byte} (hf : s.findSeq d (u32 o 0) = .ok (i, x))
    (hst : x.st = .preempted) : s.preemptCmd r d o = s.complete r {} := by
  unfold State.preemptCmd
  rw [hf]
  dsimp only
  rw [hst]

end

section
variable {s : State} {q : CmdRef} {c : InFlight} {i : Nat} {x : Seq} (h : s.offersXlt q 0x0D c) (hn : s.noPlacements)
  (hf : s.findSeq (s.ringDomain q) (u32 c.ops 0) = .ok (i, x))

include h hn in
theorem execSeqPreempt_starts :
    exec (.seqPreempt q) s = .next (s.afterIn .engine ((s.markStarted q).preemptCmd (.ring q) (s.ringDomain q) c.ops).sluice) := by
  change execSeqPreempt q s = _
  rw [execSeqPreempt, State.runXlt_of_offers h fun t r d o => t.placeOrWait r d 0x0D o,
    State.placeOrWait_starts (s := s.markStarted q) hn]
  rfl

include h hn hf

theorem exec_seqPreempt_starts (hst : x.st = .idle ∨ x.st = .active)
    (hfit : (s.reserveT2 x.domain (s.preemptSizes i x)).isSome = true) :
    ∃ t, exec (.seqPreempt q) s = .next t ∧ t.preempting i = true ∧ (t.seq? i).map Seq.st = some x.st := by
  have hfit' : ((s.markStarted q).reserveT2 x.domain ((s.markStarted q).preemptSizes i x)).isSome = true := by
    have hroom := State.reserveT2_withRoom (s.markStarted q) s x.domain (s.preemptSizes i x)
    rw [show (s.markStarted q).preemptSizes i x = s.preemptSizes i x from rfl,
      show (s.markStarted q).reserveT2 x.domain (s.preemptSizes i x) = _ from hroom, Option.isSome_map, hfit]
  obtain ⟨p, hone, hps, hkind, hseq⟩ := State.preemptCmd_starts (s := s.markStarted q) (r := .ring q) hn hf hst hfit'
  rw [execSeqPreempt_starts h hn, State.sluice_waits hone (.inl hps) (.inl hps)]
  refine ⟨_, rfl, State.preempting_of_onePlace (p := p) (b := false) ?_ hkind, ?_⟩
  · exact ⟨hone.places, hone.queue, hone.spaceWait, hone.chainWait⟩
  · rw [State.seq?_afterIn rfl, hseq]

theorem exec_seqPreempt_done (hst : x.st = .preempted) :
    ∃ t, exec (.seqPreempt q) s = .next t ∧ s.posts t q c .ok = true ∧ t.xlt = s.xlt := by
  rw [execSeqPreempt_starts h hn, State.preemptCmd_done (s := s.markStarted q) hf hst,
    State.sluice_idle _ (State.noPlacements_of_slc (s := s.markStarted q) hn (State.complete_slc _ _ _))]
  refine ⟨_, rfl, State.posts_of_offers h.1 rfl List.suffix_rfl rfl rfl, ?_⟩
  rw [State.afterIn_xlt rfl, State.complete_xlt]
  rfl

end

end Sys2Proof.Machine
end

section
/-! The demotion of the frames of a pre-empted sequence, and `SEQ_RESTORE` (R179, R180). -/

namespace Sys2Proof.Machine

/-! ### What the end of a placement does to its sequence -/

section
variable {s : State} {p : Placement} {i : Nat} {x : Seq}

theorem State.seq?_placeGone (s : State) (p : Placement) (i : Nat) : (s.placeGone p).seq? i = s.seq? i := by
  rw [State.seq?, State.seq?, show (s.placeGone p).xlt.seqs = s.xlt.seqs from congrArg Prod.snd State.clientsAndSeqs_placeGone]

theorem Placement.result_of_noReqs {k : PlaceKind} (hr : p.reqs = []) (hk : p.kind = k) (hplace : k ≠ .place) : p.result = {} := by
  have hstatus : p.status = .ok := by simp [Placement.status, hr]
  unfold Placement.result
  rw [hk, hstatus]
  cases k with
  | place => exact absurd rfl hplace
  | preempt | restore => rfl

/-- A pre-emption that ends without a failure leaves its sequence pre-empted. -/
theorem State.seq?_endPlace_preempt {b : Bool} (hk : p.kind = .preempt i b) (hr : p.reqs = []) (hx : s.seq? i = some x) :
    (s.endPlace p).seq? i = some { x with st := if x.st = .idle ∨ x.st = .active then .preempted else x.st } := by
  have hset := State.seq?_setSeq_same ((s.seq?_placeGone p i).trans hx)
    fun q => { q with st := if q.st = .idle ∨ q.st = .active then .preempted else q.st }
  rw [State.seq?, State.xlt_endPlace, State.placeEffect, hk, Placement.result_of_noReqs hr hk nofun]
  dsimp only
  rw [if_pos rfl]
  split
  · exact hset
  · rw [State.xlt_bumpD]
    exact hset

/-- A restoration that ends without a failure leaves its sequence idle. -/
theorem State.seq?_endPlace_restore (hk : p.kind = .restore i) (hr : p.reqs = []) (hx : s.seq? i = some x) :
    (s.endPlace p).seq? i = some { x with st := if x.st = .preempted then .idle else x.st } := by
  have hset := State.seq?_setSeq_same ((s.seq?_placeGone p i).trans hx)
    fun q => { q with st := if q.st = .preempted then .idle else q.st }
  rw [State.seq?, State.xlt_endPlace, State.placeEffect, hk, Placement.result_of_noReqs hr hk nofun]
  dsimp only
  rw [if_pos rfl, State.xlt_bumpD]
  exact hset

end

/-! ### The demotion -/

/-- A change of the one placement in progress. -/
theorem State.OnePlace.modPlace {s : State} {p : Placement} (h : s.OnePlace p) (g : Placement → Placement) :
    (s.modPlace p.id g).OnePlace (g p) :=
  ⟨by simp [State.modPlace, h.places, updFirst], h.queue, h.spaceWait, h.chainWait⟩

/-- A demotion that has been issued starts its move, into the space reserved for it (R179). -/
theorem State.pumpPreempt_moves {s : State} {p : Placement} {i : Nat} {b : Bool} {r : FrameReq} {v : FrameInfo} {h : Home}
    (hone : s.OnePlace p) (hst : p.started = true) (hk : p.kind = .preempt i b) (hr : p.reqs = [r]) (hpend : r.res = .pending)
    (hfresh : (s.slc.moves.any fun m => m.reqs.contains r.id) = false) (hf : s.frame? r.frame = some v) (ht : v.home.tier ≤ 1)
    (hm : s.moveOf r.frame = none) (hres : p.reserve = [(h, v.bytes)]) :
    ∃ (m : Move) (u : State), s.pumpPreempt p.id = u.modPlace p.id (fun p => { p with reserve := [] }) ∧ s.StartsMove m u ∧
      m.frame = r.frame ∧ m.tier = 2 ∧ m.dst = h ∧ m.src = v.home ∧ m.st = .queued := by
  obtain ⟨it, hstart⟩ := State.startMove_reserved (s := s) (f := r.frame) (i := v) (promo := false) (evict := false) (tier := 2)
    (reqs := [r.id]) (dst := h) fun h3 => by omega
  have hreqs : (p.reqs.filter fun r => r.res == .pending && !s.slc.moves.any fun m => m.reqs.contains r.id) = [r] := by
    rw [hr, List.filter_cons, hfresh, hpend]
    rfl
  have htake : takeReserve p.reserve v.bytes = some (h, []) := by simp [takeReserve, hres, takeFirst]
  refine ⟨v.move r.frame false false 2 [r.id] h (s.newTicket v.domain).1 s.now s.slc.nextMove, _, ?_,
    State.startsMove_of_allocates (.refl s) _ it, rfl, rfl, rfl, rfl, rfl⟩
  unfold State.pumpPreempt
  rw [hone.find]
  simp only [hst, hk, Bool.not_true, Bool.or_self, Bool.false_eq_true, if_false]
  rw [hreqs, State.forEach, List.foldl_cons, List.foldl_nil, hf]
  dsimp only
  rw [if_neg (by omega), hm, hone.find, Option.getD_some, htake]
  dsimp only
  rw [hstart]
  rfl

/-- A state in which the demotion of some frames of the one pre-emption in progress has been issued. -/
def State.demoting (s : State) (p : Placement) (rs : List FrameReq) : State :=
  { s with slc := { s.slc with places := [{ p with reqs := rs, started := true }], nextReq := s.slc.nextReq + rs.length } }

section
variable {s : State} {i : Nat} {x : Seq} {p : Placement} {b : Bool} (hone : s.OnePlace p) (hbegin : s.mayBegin (.preempt i) = true)
  (hps : p.started = false) (hk : p.kind = .preempt i b) (hr : p.reqs = []) (hx : s.seq? i = some x)
  (hidle : s.executing i = false) (hserve : s.serves .xlt = true)

include hone in
theorem State.demoting_onePlace (rs : List FrameReq) :
    ((s.endWait (.preempt i)).demoting p rs).OnePlace { p with reqs := rs, started := true } :=
  ⟨rfl, hone.queue, hone.spaceWait, hone.chainWait⟩

include hone hbegin hps hk hx hidle hserve

/-- The frames of a pre-empted sequence are demoted once its work has ended. -/
theorem exec_preemptDemote_eq : exec (.preemptDemote i) s = .next (s.afterIn .engine
    ((((s.endWait (.preempt i)).forEach (s.eligible i x) fun f t =>
      ({ t with slc := { t.slc with nextReq := t.slc.nextReq + 1 } } : State).modPlace p.id fun p =>
        { p with reqs := p.reqs ++ [{ id := t.slc.nextReq, frame := f, tier := 2 }] }).modPlace p.id fun p =>
          { p with started := true }).sluice)) := by
  have hgo : (!s.executing i) = true ∧ s.mayBegin (.preempt i) = true ∧ s.serves .xlt = true := ⟨by simp [hidle], hbegin, hserve⟩
  change execPreemptDemote i s = _
  simp only [execPreemptDemote, hone.places, List.find?_cons, hps, hk, Bool.not_false, Bool.true_and, beq_self_eq_true, hx, if_pos hgo]

include hr

theorem exec_preemptDemote_ends (hel : s.eligible i x = []) :
    ∃ t, exec (.preemptDemote i) s = .next t ∧ t.preempting i = false ∧
      (t.seq? i).map Seq.st = some (if x.st = .idle ∨ x.st = .active then .preempted else x.st) := by
  have hissue : (s.endWait (.preempt i)).modPlace p.id (fun p => { p with started := true }) = (s.endWait (.preempt i)).demoting p [] := by
    simp only [State.modPlace, State.endWait, hone.places, updFirst, beq_self_eq_true, if_true, State.demoting, hr, List.length_nil,
      Nat.add_zero]
  have hdemo := State.demoting_onePlace (i := i) hone []
  rw [exec_preemptDemote_eq hone hbegin hps hk hx hidle hserve, hel, State.forEach_nil, hissue, State.sluice_ends hdemo rfl rfl]
  refine ⟨_, rfl, State.not_preempting (State.places_endPlace hdemo), ?_⟩
  rw [State.seq?_afterIn rfl]
  exact congrArg (Option.map Seq.st) (State.seq?_endPlace_preempt
    (s := (s.endWait (.preempt i)).demoting p []) (p := { p with reqs := [], started := true }) (b := b) hk rfl hx)

theorem exec_preemptDemote_moves {f : FrameId} {v : FrameInfo} {h : Home} (hel : s.eligible i x = [f]) (hf : s.frame? f = some v)
    (ht : v.home.tier ≤ 1) (hm : s.moveOf f = none) (hres : p.reserve = [(h, v.bytes)])
    (hfresh : (s.slc.moves.any fun m => m.reqs.contains s.slc.nextReq) = false) :
    ∃ t, exec (.preemptDemote i) s = .next t ∧
      ((t.slc.moves.getLast?).any fun m => m.frame == f && m.tier == 2 && m.dst == h && m.src == v.home && m.st == .queued) = true ∧
      (t.frame? f).map FrameInfo.moving = some true ∧ t.preempting i = true := by
  have hissue : ((s.endWait (.preempt i)).forEach [f] fun f t =>
      ({ t with slc := { t.slc with nextReq := t.slc.nextReq + 1 } } : State).modPlace p.id fun p =>
        { p with reqs := p.reqs ++ [{ id := t.slc.nextReq, frame := f, tier := 2 }] }).modPlace p.id (fun p =>
          { p with started := true }) = (s.endWait (.preempt i)).demoting p [{ id := s.slc.nextReq, frame := f, tier := 2 }] := by
    simp only [State.forEach, List.foldl_cons, List.foldl_nil, State.modPlace, State.endWait, hone.places, updFirst,
      beq_self_eq_true, if_true, State.demoting, hr, List.length_singleton, List.nil_append]
  have hdemo := State.demoting_onePlace (i := i) hone [{ id := s.slc.nextReq, frame := f, tier := 2 }]
  obtain ⟨m, u, hpump, hstarts, rfl, htier, hdst, hsrc, hst⟩ := State.pumpPreempt_moves (i := i) (b := b) hdemo rfl hk rfl rfl hfresh
    ((State.frame?_of_xlt (s := s) rfl f).trans hf) ht hm hres
  have hlast := (hdemo.of_clients hstarts.clients).modPlace fun p => { p with reserve := [] }
  have hmoves : u.slc.moves = s.slc.moves ++ [m] := hstarts.moves
  rw [exec_preemptDemote_eq hone hbegin hps hk hx hidle hserve, hel, hissue,
    State.sluice_pumps hdemo hpump hlast (State.finishPlace_waits (.inr rfl))]
  refine ⟨_, rfl, ?_, ?_, State.preempting_of_onePlace (b := b) ⟨hlast.places, hlast.queue, hlast.spaceWait, hlast.chainWait⟩ hk⟩
  · change ((u.slc.moves.getLast?).any fun y => _) = true
    rw [hmoves, List.getLast?_concat, Option.any_some]
    simp [htier, hdst, hsrc, hst]
  · rw [State.frame?_of_xlt (State.afterIn_xlt rfl)]
    exact congrArg (Option.map FrameInfo.moving) (hstarts.frame.trans (congrArg (Option.map _) ((State.frame?_of_xlt (s := s) rfl _).trans hf)))

end

/-! ### `SEQ_RESTORE` -/

section
variable {s : State} {q : CmdRef} {c : InFlight} {i : Nat} {x : Seq}

/-- The placement of a `SEQ_RESTORE` of the ring, before its requests. -/
def State.restorePlacement (s : State) (q : CmdRef) (i : Nat) : Placement :=
  { id := s.slc.nextPlace, req := .ring q, domain := s.ringDomain q, kind := .restore i, reqs := [] }

/-- The frames of a sequence that `SEQ_RESTORE` promotes (R180). -/
def State.restoring (s : State) (i : Nat) (x : Seq) : List FrameId :=
  let own := x.inOrder.map fun y => y.2.frame i y.1.1 y.1.2.1 y.1.2.2
  let bds := (x.inOrder.filterMap fun y => y.2.share.map fun z => FrameId.bdPage z.1).eraseDups
  (bds ++ own).filter fun f => ((s.frame? f).map fun v => v.home.tier == 2).getD false

/-- `SEQ_RESTORE` of a pre-empted sequence issues a request for each frame in T2 (R180). -/
theorem State.restoreCmd_issues {r : Requester} {d : Nat} {o : List Byte} (hu : u8 o 4 ≤ 1) (hf : s.findSeq d (u32 o 0) = .ok (i, x))
    (hst : x.st = .preempted) : s.restoreCmd r d o = (s.withPlace
      { id := s.slc.nextPlace, req := r, domain := d, kind := .restore i, reqs := [] }).issue s.slc.nextPlace
        (s.restoring i x) (u8 o 4) false false := by
  unfold State.restoreCmd
  rw [if_neg (Nat.not_lt.mpr hu), hf]
  dsimp only
  rw [if_neg (not_not.mpr hst)]
  rfl

theorem execSeqRestore_starts (h : s.offersXlt q 0x0E c) (hn : s.noPlacements) :
    exec (.seqRestore q) s = .next (s.afterIn .engine ((s.markStarted q).restoreCmd (.ring q) (s.ringDomain q) c.ops).sluice) := by
  change execSeqRestore q s = _
  rw [execSeqRestore, State.runXlt_of_offers h fun t r d o => t.placeOrWait r d 0x0E o,
    State.placeOrWait_starts (s := s.markStarted q) hn]
  rfl

variable (h : s.offersXlt q 0x0E c) (hn : s.noPlacements) (hf : s.findSeq (s.ringDomain q) (u32 c.ops 0) = .ok (i, x))
  (hst : x.st = .preempted)
include h hn hf hst

theorem exec_seqRestore_ends (hu : u8 c.ops 4 ≤ 1) (hptes : x.ptes = []) :
    ∃ t, exec (.seqRestore q) s = .next t ∧ (t.seq? i).map Seq.st = some .idle ∧ s.posts t q c .ok = true := by
  have hnone : (s.markStarted q).restoring i x = [] := by
    have hord : x.inOrder = [] := by rw [Seq.inOrder, hptes, List.mergeSort_nil]
    simp [State.restoring, hord]
  have hone : ((s.markStarted q).withPlace (s.restorePlacement q i)).OnePlace (s.restorePlacement q i) := by
    obtain ⟨hp, hq, hs, hc⟩ := hn
    exact ⟨by rw [State.withPlace, show (s.markStarted q).slc = s.slc from rfl, hp]; rfl, hq, hs, hc⟩
  have hrun : (s.markStarted q).restoreCmd (.ring q) (s.ringDomain q) c.ops = (s.markStarted q).withPlace (s.restorePlacement q i) := by
    rw [State.restoreCmd_issues (s := s.markStarted q) hu hf hst, hnone]
    rfl
  have hcl := State.clients_endPlace (s := (s.markStarted q).withPlace (s.restorePlacement q i)) (p := s.restorePlacement q i)
  have hans := State.posts_complete (s := s) (c := {}) (State.waitsFor_of_offers h.1 (congrArg Prod.fst hcl))
    (by rw [show State.outs _ = s.outs from congrArg (fun z => z.2.1) hcl]) (by simp) (by simp)
  have hend : ((s.markStarted q).withPlace (s.restorePlacement q i)).endPlace (s.restorePlacement q i) =
      State.complete _ (.ring q) (s.restorePlacement q i).result := rfl
  rw [Placement.result_of_noReqs (k := .restore i) rfl rfl nofun] at hend
  rw [execSeqRestore_starts h hn, hrun, State.sluice_ends hone rfl rfl]
  refine ⟨_, rfl, ?_, (State.posts_afterIn rfl ..).trans ((State.posts_of_outs (congrArg State.outs hend :) ..).trans hans)⟩
  rw [State.seq?_afterIn rfl]
  have hseq := State.seq?_endPlace_restore (s := (s.markStarted q).withPlace (s.restorePlacement q i)) (p := s.restorePlacement q i)
    rfl rfl (State.seq?_of_findSeq hf)
  rw [if_pos hst] at hseq
  exact congrArg (Option.map Seq.st) hseq

end

/-- `SEQ_RESTORE` of a sequence with one page, in T2, starts its promotion (R180). -/
theorem State.restoreCmd_moves {s : State} {r : Requester} {d i : Nat} {o : List Byte} {x : Seq} {k : Nat × Nat × Nat} {e : Pte}
    {v : FrameInfo} (hn : s.noPlacements) (hf : s.findSeq d (u32 o 0) = .ok (i, x)) (hst : x.st = .preempted) (hu : u8 o 4 = 0)
    (hptes : x.ptes = [(k, e)]) (hshare : e.share = none) (ht : e.home.tier = 2) (hv : s.frame? (.page i k.1 k.2.1 k.2.2) = some v)
    (hm : s.moveOf (.page i k.1 k.2.1 k.2.2) = none) (hroom : (s.allocT0 v.domain v.bytes).isSome = true) :
    ∃ p m, (s.asking p).StartsMove m (s.restoreCmd r d o).sluice ∧ m.frame = .page i k.1 k.2.1 k.2.2 ∧ m.tier = 0 ∧
      m.promo = true ∧ m.src = e.home := by
  have hget : x.ptes.get? (k.1, k.2.1, k.2.2) = some e := by simp [hptes, Assoc.get?]
  obtain ⟨hhome, hdata⟩ : v.home = e.home ∧ v.isMeta = false := by
    rw [State.frame?, State.seq?_of_findSeq hf, Option.bind_some, hget, Option.bind_some, hshare] at hv
    obtain rfl := Option.some.inj hv
    exact ⟨rfl, rfl⟩
  have htier : v.home.tier = 2 := by rw [hhome, ht]
  have hone : s.restoring i x = [.page i k.1 k.2.1 k.2.2] := by
    have hord : x.inOrder = [(k, e)] := by rw [Seq.inOrder, hptes, List.mergeSort_singleton]
    simp [State.restoring, hord, Pte.frame, hshare, hv, htier]
  have hroom' : (s.alloc v.domain 0 v.bytes v.isMeta).isSome = true := by rw [hdata, State.alloc_data, hroom]
  obtain ⟨m, hstarts, hframe, hto, hpromo, -, hsrc, -⟩ := State.decideReq_starts
    (s.nextRequest (.page i k.1 k.2.1 k.2.2) 0 false false) hv hm (by rw [htier]; exact nofun) (fun _ => rfl)
    (by rw [htier]; exact fun h3 => absurd h3 (by simp [State.nextRequest])) hroom'
    (s.asking (s.nextPlacement r d (.restore i) (s.nextRequest (.page i k.1 k.2.1 k.2.2) 0 false false))) rfl rfl rfl
  have hwaits := (State.asking_onePlace hn _).of_clients hstarts.clients
  rw [State.restoreCmd_issues (by omega) hf hst, hone, hu, State.issue_one hn,
    State.sluice_waits hwaits (.inr nofun) (.inr (State.pending_nextPlacement rfl))]
  exact ⟨_, m, hstarts, hframe, hto, hpromo.trans (by rw [htier]; rfl), hsrc.trans hhome⟩

theorem exec_seqRestore_moves {s : State} {q : CmdRef} {c : InFlight} {i : Nat} {x : Seq} {k : Nat × Nat × Nat} {e : Pte} {v : FrameInfo}
    (h : s.offersXlt q 0x0E c) (hn : s.noPlacements) (hf : s.findSeq (s.ringDomain q) (u32 c.ops 0) = .ok (i, x))
    (hst : x.st = .preempted) (hu : u8 c.ops 4 = 0) (hptes : x.ptes = [(k, e)]) (hshare : e.share = none) (ht : e.home.tier = 2)
    (hv : s.frame? (.page i k.1 k.2.1 k.2.2) = some v) (hm : s.moveOf (.page i k.1 k.2.1 k.2.2) = none)
    (hroom : (s.allocT0 v.domain v.bytes).isSome = true) :
    ∃ t, exec (.seqRestore q) s = .next t ∧ ((t.slc.moves.getLast?).any fun m =>
        m.frame == .page i k.1 k.2.1 k.2.2 && m.tier == 0 && m.promo && m.src == e.home) = true ∧
      (t.seq? i).map Seq.st = some .preempted := by
  have hroom' : ((s.markStarted q).allocT0 v.domain v.bytes).isSome = true := by
    rw [← State.alloc_data] at hroom ⊢
    obtain ⟨_, _, he, -⟩ := State.alloc_asking hroom (s.markStarted q) rfl
    rw [he]
    rfl
  obtain ⟨p, m, hstarts, hframe, htier, hpromo, hsrc⟩ := State.restoreCmd_moves (s := s.markStarted q) (r := .ring q) hn hf hst hu hptes
    hshare ht ((State.frame?_of_xlt rfl _).trans hv) hm hroom'
  rw [execSeqRestore_starts h hn]
  refine ⟨_, rfl, ?_, ?_⟩
  · rw [State.afterIn_slc rfl, hstarts.moves, List.getLast?_concat, Option.any_some]
    simp [hframe, htier, hpromo, hsrc]
  · have hx : ((s.markStarted q).asking p).seq? i = some x := State.seq?_of_findSeq hf
    have hst' := congrArg (Option.map Seq.st) (hstarts.seqs i)
    rw [hx, Option.map_map, Option.map_some] at hst'
    rw [State.seq?_afterIn rfl]
    exact hst'.trans (congrArg some hst)

end Sys2Proof.Machine
end

section
/-! The placement commands, settled (R170 to R180). -/

namespace Sys2Proof.Machine

/-- Settles O23: each command's own effect, where one placement is in progress at most; what it starts is the last move of the list. -/
theorem placementCommandsComplete : Obligations.PlacementCommandsComplete := by
  refine ⟨?rests, ?moves, ?noTicket, ?ticket, ?preempt, ?preempted, ?demoted, ?demote, ?restored, ?restore⟩
  case rests =>
    intro s q c f v h hn hcmds hform hflash hframes hf ht hm
    exact exec_slcPlace_rests h hn hcmds hform (fun h3 => hflash.resolve_left (not_not.mpr h3)) hframes hf hm ht
  case moves =>
    intro s q c f v h hn hcmds hform hflash hframes hf ht hm hroom hisland hshared
    exact exec_slcPlace_moves h hn hcmds hform hflash hframes hf hm ht hroom hisland hshared
  case noTicket =>
    intro s q c h hfree
    exact exec_slcWait_completes h (hfree.imp_right Bool.or_eq_false_iff.mpr)
  case ticket =>
    intro s q c h h0 hp
    exact exec_slcWait_waits h h0 ((Bool.or_eq_true _ _).mpr hp)
  case preempt =>
    intro s q c i x h hn hf hst hfit
    exact exec_seqPreempt_starts h hn hf hst hfit
  case preempted =>
    intro s q c i x h hn hf hst
    exact exec_seqPreempt_done h hn hf hst
  case demoted =>
    intro s i x p b hp hq hs hc hbegin hps hk hr hx hidle hserve hel
    exact exec_preemptDemote_ends ⟨hp, hq, hs, hc⟩ hbegin hps hk hr hx hidle hserve hel
  case demote =>
    intro s i x p b f v h hp hq hs hc hbegin hps hk hr hx hidle hserve hel hf ht hm hres hfresh
    exact exec_preemptDemote_moves ⟨hp, hq, hs, hc⟩ hbegin hps hk hr hx hidle hserve hel hf ht hm hres hfresh
  case restored =>
    intro s q c i x h hn hu hf hst hptes
    exact exec_seqRestore_ends h hn hf hst hu hptes
  case restore =>
    intro s q c i x k e v h hn hu hf hst hptes hshare ht hv hm hroom
    exact exec_seqRestore_moves h hn hf hst hu hptes hshare ht hv hm hroom

end Sys2Proof.Machine
end

section
/-! What lies beneath the faults and the frames: moves keep their numbers, and blocks, writes and bits stand (R63, R142, R337). -/

namespace Sys2Proof.Machine

/-- What faults, poison and freed frames leave: the numbers of the moves, the writes in progress, Sedge, the time and the device. -/
def State.undisturbed (s : State) : List Nat × List ObjWrite × Sdg × Nat × Glb :=
  (s.slc.moves.map Move.seqNo, s.slc.objWrites, s.sdg, s.now, s.glb)

/-- A state follows another by faults, poison and freed frames: what lies beneath stands, and so does every bit that was set. -/
structure State.Disturbs (s t : State) : Prop where
  stands : t.undisturbed = s.undisturbed
  bits : s.BitsStand t

namespace State.Disturbs

variable {s t u : State}

theorem refl (s : State) : s.Disturbs s := ⟨rfl, .refl s⟩

theorem trans (h : s.Disturbs t) (k : t.Disturbs u) : s.Disturbs u := ⟨k.stands.trans h.stands, h.bits.trans k.bits⟩

theorem glb (h : s.Disturbs t) : t.glb = s.glb := congrArg (fun z => z.2.2.2.2) h.stands
theorem now (h : s.Disturbs t) : t.now = s.now := congrArg (fun z => z.2.2.2.1) h.stands
theorem sdg (h : s.Disturbs t) : t.sdg = s.sdg := congrArg (fun z => z.2.2.1) h.stands
theorem objWrites (h : s.Disturbs t) : t.slc.objWrites = s.slc.objWrites := congrArg (fun z => z.2.1) h.stands
theorem seqNos (h : s.Disturbs t) : t.slc.moves.map Move.seqNo = s.slc.moves.map Move.seqNo := congrArg Prod.fst h.stands

/-- A change that leaves the registers. -/
theorem of_eq (hs : t.undisturbed = s.undisturbed) (hr : t.regs = s.regs) : s.Disturbs t :=
  ⟨hs, .of_regs hr (congrArg (fun z => z.2.2.2.2) hs)⟩

theorem forEach {α : Type} (h : s.Disturbs t) (l : List α) {f : α → State → State} (hf : ∀ x (t : State), t.Disturbs (f x t)) :
    s.Disturbs (t.forEach l f) := by
  induction l generalizing t with
  | nil => exact h
  | cons x l ih => exact ih (h.trans (hf x t))

theorem ite (c : Prop) [Decidable c] (h : s.Disturbs t) (k : s.Disturbs u) : s.Disturbs (if c then t else u) := by
  split
  · exact h
  · exact k

variable (h : s.Disturbs t)
include h

/-! ### Bits, counters and faults -/

theorem bump (c n : Nat) : s.Disturbs (t.bump c n) := h.trans (of_eq rfl rfl)

theorem setFlt (x : Flt) : s.Disturbs { t with flt := x } := h.trans (of_eq rfl rfl)
theorem setXlt (x : Xlt) : s.Disturbs { t with xlt := x } := h.trans (of_eq rfl rfl)
theorem setRbd (x : Rbd) : s.Disturbs { t with rbd := x } := h.trans (of_eq rfl rfl)

theorem bumpD (d c n : Nat) : s.Disturbs (t.bumpD d c n) := by
  obtain ⟨_, _, he⟩ := t.bumpD_eq d c n
  rw [he]
  exact h.trans (of_eq rfl rfl)

theorem setErr (e : Nat × Nat) (off : Nat) : s.Disturbs (t.setErr e off) := h.trans ⟨rfl, .setErr t e off⟩
theorem setEvt (e : Nat × Nat) (off : Nat) : s.Disturbs (t.setEvt e off) := h.trans ⟨rfl, .setEvt t e off⟩
theorem setHistory (u : Nat) (f : History → History) : s.Disturbs (t.setHistory u f) := h.trans (of_eq rfl rfl)

theorem fault (u c r a d n : Nat) : s.Disturbs (t.fault u c r a d n) := by
  unfold State.fault
  dsimp only
  split
  · exact ((h.setFlt _).bump _ _).setErr _ _
  · exact h.setFlt _

theorem declarePermanent (u : Nat) : s.Disturbs (t.declarePermanent u) := by
  unfold State.declarePermanent
  split
  · exact h
  · exact ((h.setHistory _ _).fault _ _ _ _ _ _).setEvt _ _

theorem holdOut (a : Nat) : s.Disturbs (t.holdOut a) := by
  unfold State.holdOut
  dsimp only
  split
  · exact h.trans (of_eq rfl rfl)
  · exact h

theorem t0Ue (a : Nat) : s.Disturbs (t.t0Ue a) := by
  unfold State.t0Ue
  extract_lets unit u flt v w
  have hu : s.Disturbs u := h.fault _ _ _ _ _ _
  have hv : s.Disturbs v := by
    unfold v
    split
    · split
      · exact hu
      · exact ((hu.setFlt _).fault _ _ _ _ _ _).setEvt _ _
    · exact hu.holdOut a
  have hw : s.Disturbs w := hv.setHistory _ _
  split
  · exact hw.declarePermanent unit
  · exact hw

theorem tierUe (a : Home) : s.Disturbs (t.tierUe a) := by
  unfold State.tierUe
  split
  · exact h.t0Ue _
  · exact ((h.bump _ _).setErr _ _).fault _ _ _ _ _ _
  · exact h.fault _ _ _ _ _ _
  · exact h

theorem countLink (d : Nat) (a : Home) (w : Bool) (m n : Nat) : s.Disturbs (t.countLink d a w m n) := by
  obtain ⟨_, _, he⟩ := t.countLink_eq d a w m n
  rw [he]
  exact h.trans (of_eq rfl rfl)

theorem readBlocks (d : Nat) (a : Home) (n : Nat) (b : List Byte) (m : MediaRead) (p : Nat) :
    s.Disturbs (t.readBlocks d a n b m p).2 := by
  unfold State.readBlocks
  dsimp only
  split
  · exact h
  · have hread := (h.countLink d a false (rawOf a n) (t.wireOf a n)).bumpD d Reg.sdgBlkExpLo
    exact ite _ (hread _) (((hread _).bumpD _ _ _).setErr _ _)

/-! ### Frames freed -/

theorem freeExt (a : Home) : s.Disturbs (t.freeExt a) := by
  obtain ⟨_, _, _, he, -⟩ := t.freeExt_eq a
  rw [he]
  exact h.trans (of_eq rfl rfl)

theorem freeFrame (f : FrameId) (a : Home) : s.Disturbs (t.freeFrame f a) := by
  unfold State.freeFrame
  split
  · refine h.trans (of_eq ?_ rfl)
    exact congrArg (fun l => (l, t.slc.objWrites, t.sdg, t.now, t.glb)) (map_updFirst (fun _ => by rfl) _)
  · exact h.freeExt a

theorem freeMeta (f : FrameId) : s.Disturbs (t.freeMeta f) := by
  unfold State.freeMeta
  split
  · exact h
  · exact (h.setXlt _).freeFrame _ _

theorem freeBdTables : s.Disturbs t.freeBdTables := h.forEach _ fun _ u => (refl u).freeMeta _

theorem setBd (b : Nat) (f : Bd → Bd) : s.Disturbs (t.setBd b f) := h.trans (of_eq rfl rfl)
theorem setSeq (i : Nat) (f : Seq → Seq) : s.Disturbs (t.setSeq i f) := h.trans (of_eq rfl rfl)

theorem setFrame (f : FrameId) (g : FrameInfo → FrameInfo) : s.Disturbs (t.setFrame f g) := by
  obtain ⟨_, he⟩ := t.setFrame_eq f g
  rw [he]
  exact h.trans (of_eq rfl rfl)

theorem sweepBd (b : Nat) : s.Disturbs (t.sweepBd b) := by
  unfold State.sweepBd
  split
  · exact h
  · split
    · exact h
    · extract_lets gone u v xlt
      have hv : s.Disturbs v := (h.forEach gone fun _ w => (refl w).freeFrame _ _).setBd _ _
      split
      · exact ((hv.setXlt _).freeMeta _).freeBdTables
      · exact hv

/-! ### Entries of the index -/

theorem setRow (n : Nat) (r : Assoc Nat Entry) : s.Disturbs (t.setRow n r) := h.trans (of_eq rfl rfl)

theorem restoreNow (n : Nat) : s.Disturbs (t.restoreNow n) := by
  unfold State.restoreNow
  extract_lets x u
  have hu : s.Disturbs u := by
    clear_value x
    exact ite _ h ((h.setRow _ _).bump _ _)
  clear_value u
  exact hu.setRbd _

theorem noteRow (n : Nat) : s.Disturbs (t.noteRow n) := by
  unfold State.noteRow
  exact ite _ h (h.setRbd _)

theorem modEntry (n b : Nat) (f : Entry → Entry) : s.Disturbs (t.modEntry n b f) := by
  unfold State.modEntry
  dsimp only
  split
  · exact (h.restoreNow n).setRow _ _
  · exact h.restoreNow n

theorem noEntry (a : Handoff) (b c : Nat) : s.Disturbs (t.noEntry a b c) := by
  unfold State.noEntry
  extract_lets d u off first v w
  have hw : s.Disturbs w := ((h.bumpD _ _ _).setSeq _ _).bumpD _ _ _
  exact ite _ (hw.setEvt _ _) hw

theorem rbdInsert (a : Handoff) : s.Disturbs (t.rbdInsert a) := by
  unfold State.rbdInsert
  split
  · exact h
  · extract_lets d st pred lo hi n eq u e x before v w z y
    have hw : s.Disturbs w := (((h.restoreNow n).setRow n x.2).bump Reg.rbdMoveLo x.1 |>.noteRow n).setBd _ _
    have hy : s.Disturbs y := by
      have hz : s.Disturbs z := by
        unfold z
        split
        · exact hw.modEntry _ _ _
        · exact hw
      exact hz.bump _ _
    split
    · exact h.noEntry _ _ _
    · refine ite _ (h.noEntry _ _ _) (ite _ (h.noEntry _ _ _) (ite _ (h.noEntry _ _ _) (ite _ (h.bump _ _) (ite _ (h.noEntry _ _ _)
        (ite _ ((h.noEntry _ _ _).setEvt _ _) (ite _ (hy.setEvt _ _) hy))))))

theorem arrivedFirst (d : Nat) : s.Disturbs (t.arrivedFirst d) :=
  (h.setXlt _).forEach _ fun _ u => (refl u).rbdInsert _

theorem recordBreak (b : Break) : s.Disturbs (t.recordBreak b) := by
  unfold State.recordBreak
  dsimp only
  have hset : s.Disturbs ((t.setRbdDom b.domain fun d => { d with linear := true }).setErr Err.rbdBreakFull) :=
    (h.setRbd _).setErr _ _
  split
  · exact ite _ hset (hset.setRbd _)
  · exact ite _ (((h.setRbd _).bump _ _).setRbd _) ((h.setRbd _).bump _ _)

theorem withdraw (n b : Nat) : s.Disturbs (t.withdraw n b) := by
  unfold State.withdraw
  dsimp only
  split
  · exact ((((h.restoreNow n).setRow _ _).bump _ _).noteRow _ |>.setBd _ _).sweepBd _
  · exact h.restoreNow n

theorem withdrawBlock (b : Nat) : s.Disturbs (t.withdrawBlock b) := by
  unfold State.withdrawBlock
  split
  · exact (ite _ h (h.recordBreak _)).withdraw _ _
  · exact h

theorem withdrawPoison (b : Nat) : s.Disturbs (t.withdrawPoison b) := by
  unfold State.withdrawPoison
  split
  · exact (h.arrivedFirst _).withdrawBlock _
  · exact h

theorem raisePoison (f : FrameId) : s.Disturbs (t.raisePoison f) := by
  unfold State.raisePoison
  have hset := h.setFrame f fun i => { i with poison := true }
  split
  · exact hset.withdrawPoison _
  · exact hset.withdrawPoison _
  · exact hset

end State.Disturbs

end Sys2Proof.Machine
end

section
/-! `MOVE_READ` (R173, R176, R185). -/

namespace Sys2Proof.Machine

section
variable {s : State} {n : Nat} {m : Move}

/-- The move that a channel takes next is one of the list. -/
theorem State.mem_of_nextMove (h : s.nextMove = some m) : m ∈ s.slc.moves := by
  unfold State.nextMove at h
  extract_lets ready stalled turn first at h
  have hready : ∀ y ∈ ready, y ∈ s.slc.moves := fun y hy => List.mem_of_mem_filter hy
  cases hs : stalled with
  | some y =>
    rw [hs] at h
    obtain rfl := Option.some.inj h
    obtain ⟨x, -, hx⟩ := List.exists_of_findSome?_eq_some hs
    exact hready _ (List.mem_of_find?_eq_some hx)
  | none =>
    rw [hs] at h
    dsimp only [Option.orElse] at h
    clear_value first ready
    refine List.foldlRecOn (motive := fun b => ∀ y, b = some y → y ∈ s.slc.moves) ready _ (fun y hy => ?_) (fun b hb x hx y hy => ?_) m h
    · cases hy
    cases b with
    | none =>
      obtain rfl := Option.some.inj hy
      exact hready _ hx
    | some z =>
      dsimp only at hy
      split at hy
      · obtain rfl := Option.some.inj hy
        exact hready _ hx
      · exact hb y hy

/-- A domain gets as many lines as it asks for. -/
theorem State.length_takeLines (s : State) (d n : Nat) : (s.takeLines d n).1.length = n := by
  have hsplit : ((List.range (s.linesHeld.length + n)).filter fun l => !s.linesHeld.contains l).length +
      ((List.range (s.linesHeld.length + n)).filter fun l => s.linesHeld.contains l).length = s.linesHeld.length + n := by
    have hlen := List.length_eq_length_filter_add (l := List.range (s.linesHeld.length + n)) fun l => s.linesHeld.contains l
    rw [List.length_range] at hlen
    omega
  have hheld : ((List.range (s.linesHeld.length + n)).filter fun l => s.linesHeld.contains l).length ≤ s.linesHeld.length :=
    (List.subperm_of_subset (List.nodup_range.filter _) fun l hl => List.contains_iff_mem.mp (List.mem_filter.mp hl).2).length_le
  change (((List.range (s.linesHeld.length + n)).filter fun l => !s.linesHeld.contains l).take n).length = n
  rw [List.length_take]
  omega

theorem State.moves_takeLines (s : State) (d n : Nat) : (s.takeLines d n).2.slc.moves = s.slc.moves := by
  unfold State.takeLines
  dsimp only
  split <;> rfl

theorem State.now_takeLines (s : State) (d n : Nat) : (s.takeLines d n).2.now = s.now := by
  unfold State.takeLines
  dsimp only
  split <;> rfl

/-- A change of a move that keeps its number is found under it. -/
theorem State.find?_modMove (s : State) (n : Nat) {f : Move → Move} (hf : ∀ m, (f m).seqNo = m.seqNo) :
    ((s.modMove n f).slc.moves.find? fun y => y.seqNo == n) = (s.slc.moves.find? fun y => y.seqNo == n).map f :=
  find?_updFirst (fun y : Move => y.seqNo == n) f (fun y h => by simpa [hf] using h) _

/-- A move that a channel takes holds its lines, from now on. -/
theorem State.find?_moveRead {y : Move} (hy : (s.slc.moves.find? fun y => y.seqNo == m.seqNo) = some y) :
    ((s.moveRead m).slc.moves.find? fun y => y.seqNo == m.seqNo) =
      some { y with st := .read, lines := (s.takeLines m.domain (ceilDiv m.bytes 4096)).1, since := s.now } := by
  have hfind := State.find?_modMove (s.takeLines m.domain (ceilDiv m.bytes 4096)).2 m.seqNo
    (f := fun y => { y with st := .read, lines := (s.takeLines m.domain (ceilDiv m.bytes 4096)).1, since := (s.takeLines m.domain
      (ceilDiv m.bytes 4096)).2.now }) fun _ => rfl
  rw [State.moves_takeLines, hy, Option.map_some, State.now_takeLines] at hfind
  unfold State.moveRead
  dsimp only
  split <;> exact hfind

/-- Peat reads the sectors of a source in T3. -/
theorem State.reads_moveRead (h3 : m.src.tier = 3) :
    ((s.moveRead m).pea.reads.getLast?).map PRead.move = some m.seqNo := by
  unfold State.moveRead
  dsimp only
  rw [if_pos h3, State.issueRead]
  simp

theorem exec_moveRead_reads (h : s.nextMove = some m) (hn : m.seqNo = n)
    (hfree : (s.slc.moves.filter fun y => decide (y.st ≠ .queued)).length < s.channels) (hlines : ceilDiv m.bytes 4096 ≤ s.linesFree) :
    ∃ t, exec (.moveRead n) s = .next t ∧ ((t.slc.moves.find? fun y => y.seqNo == n).map fun y => (y.st, y.lines.length, y.since)) =
        some (.read, ceilDiv m.bytes 4096, s.now) ∧
      (m.src.tier = 3 → (t.pea.reads.getLast?).map PRead.move = some n) := by
  subst hn
  obtain ⟨y, hy⟩ : ∃ y, (s.slc.moves.find? fun y => y.seqNo == m.seqNo) = some y :=
    Option.isSome_iff_exists.mp (List.find?_isSome.mpr ⟨m, State.mem_of_nextMove h, beq_self_eq_true _⟩)
  change ∃ t, execMoveRead m.seqNo s = _ ∧ _
  rw [execMoveRead, h]
  dsimp only
  rw [if_pos ⟨rfl, hfree, hlines⟩]
  refine ⟨_, rfl, ?_, fun h3 => ?_⟩
  · rw [State.afterIn_slc rfl, State.find?_moveRead hy, Option.map_some, State.length_takeLines]
  · rw [State.afterIn_pea rfl, State.reads_moveRead h3]

end

end Sys2Proof.Machine
end

section
/-! `MOVE_WRITE`: the data of a move stand in staging (R175, R216, R333). -/

namespace Sys2Proof.Machine

/-! ### The blocks of a read -/

/-- Blocks that are read raw are the bytes of their run (R216). -/
theorem flatMap_chunks_take (k n : Nat) (l : List Byte) (b : Nat) :
    ((chunks k n l).zipIdx.flatMap fun x => x.1.take (min k (b - x.2 * k))) = l.take (min b (k * n)) := by
  induction n generalizing l b with
  | zero => simp [chunks]
  | succ n ih =>
    have hrest : ((chunks k n (l.drop k)).zipIdx.flatMap fun x => x.1.take (min k (b - (x.2 + 1) * k))) =
        (l.drop k).take (min (b - k) (k * n)) := by
      rw [← ih]
      simp only [Nat.add_mul, Nat.one_mul, Nat.add_comm _ k, Nat.sub_sub]
    have hsplit : l.take (min b (k * (n + 1))) = l.take (min k b) ++ (l.drop k).take (min (b - k) (k * n)) := by
      rcases Nat.le_total b k with hb | hb
      · simp [Nat.mul_add, Nat.min_eq_left (Nat.le_trans hb (Nat.le_add_left k (k * n))), Nat.min_eq_right hb, Nat.sub_eq_zero_of_le hb]
      · rw [Nat.min_eq_left hb, ← List.take_add, Nat.mul_succ, ← Nat.add_min_add_left, Nat.add_sub_cancel' hb, Nat.add_comm k]
    rw [chunks, List.zipIdx_cons', List.flatMap_cons, List.flatMap_map, hsplit]
    simp only [Nat.zero_mul, Nat.sub_zero, List.take_take]
    exact congrArg₂ _ (by rw [Nat.min_comm k b, Nat.min_assoc, Nat.min_self]) hrest

section
variable {s : State} {h : Home} {bytes : Nat}

/-- A place that holds no packed block is read raw where its medium is sound. -/
theorem State.readBlock_data {k : Nat} (hw : s.wireAt (placeAt h k) = none) (b : List Byte) :
    (s.readBlock h bytes b {} 0 k).data = b.take (blockLen h.tier bytes k) := by
  simp [State.readBlock, hw, BlockRead.data]

/-- A frame whose places hold no packed block is read as it is stored (R175). -/
theorem State.readBlocks_data (hw : ∀ k < ceilDiv bytes 4096, s.wireAt (placeAt h k) = none) (d : Nat) (l : List Byte) :
    ((s.readBlocks d h bytes l {} 0).1.flatMap BlockRead.data).take bytes = l.take bytes := by
  have hfit : bytes ≤ 4096 * ceilDiv bytes 4096 := by
    rw [ceilDiv, if_neg (by decide)]
    omega
  have hdata : (s.readBlocks d h bytes l {} 0).1.flatMap BlockRead.data =
      (chunks 4096 (ceilDiv bytes 4096) l).zipIdx.flatMap fun x => x.1.take (blockLen h.tier bytes x.2) := by
    have hgot : (s.readBlocks d h bytes l {} 0).1 =
        (chunks 4096 (ceilDiv bytes 4096) l).zipIdx.map fun x => s.readBlock h bytes x.1 {} 0 x.2 := by
      unfold State.readBlocks
      dsimp only
      split <;> rfl
    rw [hgot, List.flatMap_map]
    refine List.flatMap_congr fun x hx => ?_
    have hmem := List.mem_zipIdx hx
    rw [length_chunks] at hmem
    exact State.readBlock_data (hw x.2 (by omega)) x.1
  rw [hdata]
  by_cases h3 : h.tier = 3
  · have hfull : ((chunks 4096 (ceilDiv bytes 4096) l).zipIdx.flatMap fun x => x.1.take (blockLen h.tier bytes x.2)) =
        (chunks 4096 (ceilDiv bytes 4096) l).flatten := by
      rw [List.flatten_eq_flatMap, ← List.zipIdx_map_fst 0 (chunks 4096 (ceilDiv bytes 4096) l), List.flatMap_map]
      simp only [List.zipIdx_map_fst]
      refine List.flatMap_congr fun x hx => ?_
      rw [blockLen, if_pos h3, List.take_of_length_le (length_of_mem_chunks (List.fst_mem_of_mem_zipIdx hx))]
      rfl
    rw [hfull, flatten_chunks, List.take_take, Nat.min_eq_left hfit]
  · have hlen : ((chunks 4096 (ceilDiv bytes 4096) l).zipIdx.flatMap fun x => x.1.take (blockLen h.tier bytes x.2)) =
        l.take (min bytes (4096 * ceilDiv bytes 4096)) := by
      rw [← flatMap_chunks_take]
      simp only [blockLen, if_neg h3]
    rw [hlen, List.take_take, Nat.min_eq_left hfit, Nat.min_self]

end

/-! ### Blocks on their way -/

/-- The moves, and what waits for T3 by owner and home. -/
def State.sending (s : State) : List Move × List (Nat × Home) := (s.slc.moves, s.pea.waiting.map fun w => (w.1, w.2.1))

section
variable (s : State)

theorem State.sending_landBlock (h : Home) (i : Nat) (form : List Byte) (b : Bool) : (s.landBlock h i form b).sending = s.sending := by
  obtain ⟨x, z, he⟩ := s.markPlace_eq (placeAt h i) (if b then some form.length else none)
  unfold State.landBlock
  dsimp only
  rw [he]
  split
  · refine congrArg (Prod.mk s.slc.moves) (List.map_map.trans (List.map_congr_left fun w _ => ?_))
    rw [Function.comp_apply]
    split <;> rfl
  · rfl

theorem State.sending_crossRaw (d : Nat) (h : Home) (i : Nat) (data : List Byte) : (s.crossRaw d h i data).sending = s.sending := by
  unfold State.crossRaw
  extract_lets form
  obtain ⟨_, _, he⟩ := (s.landBlock h i form false).countLink_eq d h true form.length form.length
  rw [he]
  exact s.sending_landBlock h i form false

theorem State.sending_enterQueue (n d : Nat) (h : Home) (i : Nat) (data : List Byte) :
    (s.enterQueue n d h i data).sending = s.sending := by
  obtain ⟨_, _, _, _, _, he⟩ := s.enterQueue_eq n d h i data
  rw [he]
  rfl

theorem State.sending_moveBlock (m : Move) (p : Bool) (i : Nat) (data : List Byte) : (s.moveBlock m p i data).sending = s.sending := by
  unfold State.moveBlock
  dsimp only
  split
  · exact s.sending_crossRaw ..
  · split
    · exact s.sending_enterQueue ..
    · obtain ⟨_, _, he⟩ := (s.crossRaw m.domain m.dst i data).bumpD_eq m.domain Reg.sdgBlkBypassLo 1
      rw [he]
      exact s.sending_crossRaw ..

theorem State.sending_forEach {α : Type} (l : List α) {f : α → State → State} (h : ∀ x t, (f x t).sending = t.sending) :
    (s.forEach l f).sending = s.sending := by
  induction l generalizing s with
  | nil => rfl
  | cons x l ih => exact (ih (f x s)).trans (h x s)

end

/-! ### `MOVE_WRITE` -/

/-- A move is found wherever the numbers of the moves stand. -/
theorem State.Disturbs.find_move {s t : State} {n : Nat} {m : Move} (h : s.Disturbs t)
    (hm : (s.slc.moves.find? fun y => y.seqNo == n) = some m) : ∃ y, (t.slc.moves.find? fun y => y.seqNo == n) = some y := by
  have hmem : n ∈ t.slc.moves.map Move.seqNo := by
    rw [h.seqNos]
    exact List.mem_map.mpr ⟨m, List.mem_of_find?_eq_some hm, by simpa using List.find?_some hm⟩
  obtain ⟨y, hy, hn⟩ := List.mem_map.mp hmem
  exact Option.isSome_iff_exists.mp (List.find?_isSome.mpr ⟨y, hy, by simpa using hn⟩)

theorem State.moveIn_eq_some {s : State} {n : Nat} {st : MoveState} {m : Move} (h : s.moveIn n st = some m) :
    (s.slc.moves.find? fun y => y.seqNo == n) = some m ∧ m.seqNo = n ∧ m.st = st := by
  obtain ⟨hfind, hst⟩ := Option.filter_eq_some_iff.mp h
  exact ⟨hfind, by simpa using List.find?_some hfind, of_decide_eq_true hst⟩

end Sys2Proof.Machine
end

section
/-! `MOVE_WRITE`: the data of a move stand in staging and its writes are issued (Table 8.2, R175). -/

namespace Sys2Proof.Machine

section
variable {s t u : State} {n : Nat} {m : Move} {b : MediaRead} {c : Scope}

theorem State.pea_afterMemIn (h : c.pea = true) : (s.afterMemIn c u).pea = u.pea := by
  simp only [State.afterMemIn, State.afterMem_pea, State.only, h, cond_true]

/-! ### The source -/

/-- The blocks that the source of a move hands on, and what their read leaves. -/
def State.sourceRead (s : State) (m : Move) (b : MediaRead) : List BlockRead × State :=
  s.readBlocks m.domain m.src m.bytes (s.storedAt m.frame m.src m.bytes m.staged) b 0

/-- The bytes of a move that stand in staging. -/
def State.stagedBytes (s : State) (m : Move) (b : MediaRead) : List Byte :=
  ((s.sourceRead m b).1.flatMap BlockRead.data).take m.bytes

/-- The state once the source of a move has been read, with what its medium reports. -/
def State.sourceTaken (s : State) (m : Move) (b : MediaRead) : State :=
  let t := if b.bad.isEmpty then (s.sourceRead m b).2 else (s.sourceRead m b).2.tierUe m.src
  if (s.sourceRead m b).1.any BlockRead.poison then t.sourceBad m else t

theorem State.Disturbs.sourceBad (h : s.Disturbs t) (m : Move) : s.Disturbs (t.sourceBad m) := by
  unfold State.sourceBad
  exact (State.Disturbs.ite _ h (h.raisePoison m.frame)).setErr _ _

/-- The read of a source leaves the moves, and the time. -/
theorem State.disturbs_sourceTaken (s : State) (m : Move) (b : MediaRead) : s.Disturbs (s.sourceTaken m b) := by
  unfold State.sourceTaken
  extract_lets t
  have hread : s.Disturbs (s.sourceRead m b).2 := (State.Disturbs.refl s).readBlocks _ _ _ _ _ _
  have ht : s.Disturbs t := .ite _ hread (hread.tierUe m.src)
  exact .ite _ (ht.sourceBad m) ht

/-- The bytes of a source that was read without an error and holds no packed block. -/
theorem State.stagedBytes_sound (hw : ∀ i < ceilDiv m.bytes 4096, s.wireAt (placeAt m.src i) = none) :
    s.stagedBytes m {} = (s.storedAt m.frame m.src m.bytes m.staged).take m.bytes :=
  State.readBlocks_data hw _ _

/-! ### The writes -/

/-- A move whose writes are issued. -/
def Move.issued (m : Move) (data : List Byte) (now : Nat) : Move := { m with st := .write, staged := data, since := now }

/-- The state once the destination writes of a move are issued. -/
def State.writesIssued (s : State) (m : Move) (bad : List Bool) (data : List Byte) : State :=
  let s := s.modMove m.seqNo fun m => m.issued data s.now
  let s := if m.dst.tier = 3 then { s with pea := { s.pea with waiting := s.pea.waiting ++ [(m.seqNo, m.dst, data)] } } else s
  if m.dst.tier = 0 then s
  else s.forEach ((chunks 4096 (ceilDiv m.bytes 4096) data).zipIdx) fun x t => t.moveBlock m (bad.getD x.2 false) x.2 x.1

theorem State.moveWrite_eq (s : State) (m : Move) (b : MediaRead) : s.moveWrite m b =
    (s.sourceTaken m b).writesIssued m ((s.sourceRead m b).1.map fun x => x.poison || m.flagged) (s.stagedBytes m b) := rfl

/-- What the moves and the blocks on their way are once the writes of a move are issued. -/
theorem State.sending_writesIssued (s : State) (m : Move) (bad : List Bool) (data : List Byte) :
    (s.writesIssued m bad data).sending =
      ((s.modMove m.seqNo fun m => m.issued data s.now).slc.moves,
        (s.pea.waiting.map fun w => (w.1, w.2.1)) ++ if m.dst.tier = 3 then [(m.seqNo, m.dst)] else []) := by
  unfold State.writesIssued
  extract_lets t src v
  have hv : v.sending = (t.slc.moves, (s.pea.waiting.map fun w => (w.1, w.2.1)) ++ if m.dst.tier = 3 then [(m.seqNo, m.dst)] else []) := by
    unfold v
    split
    · simp [State.sending, t, State.modMove]
    · simp [State.sending, t, State.modMove]
  split
  · exact hv
  · exact (State.sending_forEach _ _ fun x w => w.sending_moveBlock _ _ _ _).trans hv

theorem exec_moveWrite_sends (hm : s.moveIn n .read = some m) (ha : s.answers m.src = true) (hw : s.movesWait m.domain = false)
    (hr : (s.pea.reads.any fun y => y.move == n) = false) :
    ∃ t, exec (.moveWrite n b) s = .next t ∧ ((t.slc.moves.find? fun y => y.seqNo == n).map fun y => (y.st, y.since)) = some (.write, s.now) ∧
      (b = {} → (∀ i < ceilDiv m.bytes 4096, s.wireAt (placeAt m.src i) = none) →
        ((t.slc.moves.find? fun y => y.seqNo == n).map Move.staged) = some ((s.storedAt m.frame m.src m.bytes m.staged).take m.bytes)) ∧
      (m.dst.tier = 3 → (t.pea.waiting.getLast?).map (fun w => (w.1, w.2.1)) = some (n, m.dst)) := by
  obtain ⟨hfind, rfl, -⟩ := State.moveIn_eq_some hm
  have htaken := s.disturbs_sourceTaken m b
  obtain ⟨y, hy⟩ := htaken.find_move hfind
  have hsend := (s.sourceTaken m b).sending_writesIssued m ((s.sourceRead m b).1.map fun x => x.poison || m.flagged) (s.stagedBytes m b)
  rw [← s.moveWrite_eq] at hsend
  have hmove : ((s.moveWrite m b).slc.moves.find? fun y => y.seqNo == m.seqNo) =
      some (y.issued (s.stagedBytes m b) s.now) := by
    rw [show (s.moveWrite m b).slc.moves = ((s.sourceTaken m b).modMove m.seqNo _).slc.moves from congrArg Prod.fst hsend,
      State.find?_modMove (f := fun y => y.issued (s.stagedBytes m b) _) _ _ fun _ => rfl, hy, htaken.now]
    rfl
  have hrun : exec (.moveWrite m.seqNo b) s = .next (s.afterMemIn .search (s.moveWrite m b)) := by
    change execMoveWrite m.seqNo b s = _
    rw [execMoveWrite, hm]
    dsimp only
    rw [ha, hw, hr]
    rfl
  refine ⟨_, hrun, ?_, fun hb hpacked => ?_, fun h3 => ?_⟩
  · rw [State.slc_afterMemIn rfl, hmove]
    rfl
  · subst hb
    rw [State.slc_afterMemIn rfl, hmove, ← State.stagedBytes_sound hpacked]
    rfl
  · rw [State.pea_afterMemIn rfl, ← List.getLast?_map, show (s.moveWrite m b).pea.waiting.map (fun w => (w.1, w.2.1)) = _ from
      congrArg Prod.snd hsend, if_pos h3, List.getLast?_concat]

end

end Sys2Proof.Machine
end

section
/-! How moves end: their extents are released, and their requests and waiters answered (Table 8.2, R171, R173). -/

namespace Sys2Proof.Machine

/-! ### Answers -/

/-- What the answers to requests and waiters leave: the tables, the device, and Sluice but for what is asked of it. -/
def State.unanswered (s : State) : Xlt × Glb × Slc × List Nat :=
  (s.xlt, s.glb, { s.slc with places := [], waiters := [] }, s.slc.places.map Placement.id)

/-- A state follows another by answers alone: what they leave stands, and so does every bit that was set. -/
structure State.Replies (s t : State) : Prop where
  stands : t.unanswered = s.unanswered
  bits : s.BitsStand t

namespace State.Replies

variable {s t u : State}

theorem refl (s : State) : s.Replies s := ⟨rfl, .refl s⟩

theorem trans (h : s.Replies t) (k : t.Replies u) : s.Replies u := ⟨k.stands.trans h.stands, h.bits.trans k.bits⟩

theorem xlt (h : s.Replies t) : t.xlt = s.xlt := congrArg Prod.fst h.stands
theorem glb (h : s.Replies t) : t.glb = s.glb := congrArg (fun z => z.2.1) h.stands
theorem moves (h : s.Replies t) : t.slc.moves = s.slc.moves := congrArg (fun z => z.2.2.1.moves) h.stands
theorem extents (h : s.Replies t) : t.slc.extents = s.slc.extents := congrArg (fun z => z.2.2.1.extents) h.stands
theorem spaceCmds (h : s.Replies t) : t.slc.spaceCmds = s.slc.spaceCmds := congrArg (fun z => z.2.2.1.spaceCmds) h.stands

theorem noPlacements (h : s.Replies t) (hn : s.noPlacements) : t.noPlacements := by
  obtain ⟨hp, hq, hw, hc⟩ := hn
  have hids : t.slc.places.map Placement.id = s.slc.places.map Placement.id := congrArg (fun z => z.2.2.2) h.stands
  rw [hp] at hids
  exact ⟨List.map_eq_nil_iff.mp hids, (congrArg (fun z => z.2.2.1.queue) h.stands :).trans hq,
    (congrArg (fun z => z.2.2.1.spaceWait) h.stands :).trans hw, (congrArg (fun z => z.2.2.1.chainWait) h.stands :).trans hc⟩

/-- A change that leaves the registers. -/
theorem of_eq (hs : t.unanswered = s.unanswered) (hr : t.regs = s.regs) : s.Replies t :=
  ⟨hs, .of_regs hr (congrArg (fun z => z.2.1) hs)⟩

theorem forEach {α : Type} (h : s.Replies t) (l : List α) {f : α → State → State} (hf : ∀ x (t : State), t.Replies (f x t)) :
    s.Replies (t.forEach l f) := by
  induction l generalizing t with
  | nil => exact h
  | cons x l ih => exact ih (h.trans (hf x t))

variable (h : s.Replies t)
include h

theorem bumpD (d c n : Nat) : s.Replies (t.bumpD d c n) := by
  obtain ⟨_, _, he⟩ := t.bumpD_eq d c n
  rw [he]
  exact h.trans (of_eq rfl rfl)

theorem setEvt (e : Nat × Nat) (off : Nat) : s.Replies (t.setEvt e off) := h.trans ⟨rfl, .setEvt t e off⟩

theorem complete (r : Requester) (c : Cpl) : s.Replies (t.complete r c) := by
  have hspeaks := t.speaks_complete r c
  refine h.trans ⟨?_, hspeaks.bits⟩
  simp only [State.unanswered, State.complete_xlt, State.complete_slc, show (t.complete r c).glb = t.glb from
    (congrArg State.glb hspeaks.silent :)]

theorem endReqs (ids : List Nat) (e : ReqEnd) : s.Replies (t.endReqs ids e) := by
  unfold State.endReqs
  extract_lets src u
  have hu : s.Replies u := h.trans (of_eq (congrArg (fun l => (t.xlt, t.glb, _, l)) (List.map_map ..)) rfl)
  split
  · refine hu.forEach ids fun _ v => ?_
    split
    · exact ((refl v).bumpD _ _ _).setEvt _ _
    · exact refl v
  · exact hu

theorem endWaiters (d k : Nat) (st : Status) (n : Nat) : s.Replies (t.endWaiters d k st n) := by
  unfold State.endWaiters
  extract_lets mine src u
  have hu : s.Replies u := h.trans (of_eq rfl rfl)
  exact hu.forEach mine fun _ v => (refl v).complete _ _

end State.Replies

/-! ### Moves that leave -/

section
variable (s : State) (m : Move)

/-- A move leaves the list: of the tables and of Sluice, its lines alone go with it. -/
theorem State.dropMove_eq : ∃ a b q i p, s.dropMove m = { s with
    ctrs := a, slc := { s.slc with lines := b, moves := s.slc.moves.filter fun x => x.seqNo != m.seqNo }
    sdg := q, pwr := i, pea := p } := by
  obtain ⟨a, b, he⟩ := s.dropLines_eq m.domain m.lines
  obtain ⟨a', b', he'⟩ := (s.dropLines m.domain m.lines).dropBlocks_eq fun x => x.owner == m.seqNo
  unfold State.dropMove
  dsimp only
  rw [he', he]
  exact ⟨_, _, _, _, _, rfl⟩

theorem any_seqNo_filter (l : List Move) (n : Nat) : ((l.filter fun x => x.seqNo != n).any fun y => y.seqNo == n) = false :=
  List.any_eq_false.mpr fun x hx => by simpa using (List.mem_filter.mp hx).2

/-- The state once an aborted move has left the list, with its frame at rest. -/
def State.moveUndone : State :=
  let s := (s.dropMove m).freeExt m.dst
  if m.freed then s.freeExt m.src else s.setFrame m.frame fun i => { i with moving := false }

/-- What is left of an abort is answers. -/
theorem State.replies_abortMove (st : Status) (k : Nat) : (s.moveUndone m).Replies (s.abortMove m st k) := by
  unfold State.abortMove
  extract_lets t u v w x
  have hv : u.Replies v := (State.Replies.refl u).bumpD _ _ _
  have hw : u.Replies w := by
    unfold w
    split
    · exact hv.endReqs _ _
    · exact hv.endReqs _ _
  have hx : u.Replies x := hw.endWaiters _ _ _ _
  change u.Replies _
  clear_value x
  split
  · exact hx
  · split
    · exact (hx.endReqs _ _).endWaiters _ _ _ _
    · exact (hx.endReqs _ _).endWaiters _ _ _ _

theorem State.moveUndone_eq : ∃ a x e b q i p f, s.moveUndone m = { s with
    ctrs := a, xlt := x, slc := { s.slc with extents := e, lines := b, moves := s.slc.moves.filter fun x => x.seqNo != m.seqNo }
    sdg := q, pwr := i, pea := p, flt := f } := by
  obtain ⟨a, b, q, i, p, he⟩ := s.dropMove_eq m
  obtain ⟨e, p', f, hdst, -⟩ := (s.dropMove m).freeExt_eq m.dst
  unfold State.moveUndone
  dsimp only
  split
  · obtain ⟨e', p'', f', hsrc, -⟩ := ((s.dropMove m).freeExt m.dst).freeExt_eq m.src
    rw [hsrc, hdst, he]
    exact ⟨_, _, _, _, _, _, _, _, rfl⟩
  · obtain ⟨x, hframe⟩ := ((s.dropMove m).freeExt m.dst).setFrame_eq m.frame fun i => { i with moving := false }
    rw [hframe, hdst, he]
    exact ⟨_, _, _, _, _, _, _, _, rfl⟩

/-- The frame of an aborted move rests where it was. -/
theorem State.frame?_moveUndone (hf : m.freed = false) :
    (s.moveUndone m).frame? m.frame = (s.frame? m.frame).map fun v => { v with moving := false } := by
  obtain ⟨a, b, q, i, p, he⟩ := s.dropMove_eq m
  obtain ⟨e, p', f, hdst, -⟩ := (s.dropMove m).freeExt_eq m.dst
  unfold State.moveUndone
  dsimp only
  rw [if_neg (by simp [hf]), State.frame?_setFrame, State.frame?_of_xlt (t := (s.dropMove m).freeExt m.dst) (s := s) (by rw [hdst, he])]
  rfl

/-- The move of an abort is gone from the list, with its frame at rest; what waits, and every bit that was set, stand. -/
structure State.Aborts (s : State) (m : Move) (t : State) : Prop where
  noPlacements : s.noPlacements → t.noPlacements
  spaceCmds : t.slc.spaceCmds = s.slc.spaceCmds
  gone : (t.slc.moves.any fun y => y.seqNo == m.seqNo) = false
  glb : t.glb = s.glb
  bits : s.BitsStand t
  frame : m.freed = false → t.frame? m.frame = (s.frame? m.frame).map fun v => { v with moving := false }

theorem State.aborts_abortMove (st : Status) (k : Nat) : s.Aborts m (s.abortMove m st k) := by
  have hans := s.replies_abortMove m st k
  obtain ⟨a, x, e, b, q, i, p, f, he⟩ := s.moveUndone_eq m
  have hslc : (s.moveUndone m).slc = { s.slc with
      extents := e, lines := b, moves := s.slc.moves.filter fun x => x.seqNo != m.seqNo } := by rw [he]
  exact {
    noPlacements := fun hn => hans.noPlacements (by
      rw [State.noPlacements, hslc]
      exact hn)
    spaceCmds := by rw [hans.spaceCmds, hslc]
    gone := by
      rw [hans.moves, hslc]
      exact any_seqNo_filter _ _
    glb := hans.glb.trans (by rw [he])
    bits := (State.BitsStand.of_regs (by rw [he]) (by rw [he])).trans hans.bits
    frame := fun hf => by rw [State.frame?_of_xlt hans.xlt, s.frame?_moveUndone m hf] }

end

end Sys2Proof.Machine
end

section
/-! `MOVE_COMMIT_START`: the CRC is compared, and invalidation starts (Table 8.2, R339). -/

namespace Sys2Proof.Machine

section
variable {s : State} {n : Nat} {m : Move} {failed : Bool}

/-- A state with other actions that wait. -/
def State.withWaits (s : State) (l : List Wait) : State := { s with slc := { s.slc with waits := l } }

/-- The end of a wait changes what waits alone. -/
theorem exec_moveCommitStart_runs (hm : s.moveIn n .write = some m) (ha : s.moveAcked m = true) (hw : s.movesWait m.domain = false)
    (hp : m.promo = true ∨ s.pinned m.frame = false ∧ s.mayBegin (.commit n) = true) :
    ∃ l, exec (.moveCommitStart n failed) s =
      .next (s.afterMemIn .store ((s.withWaits l).moveCommitStart m failed)) := by
  change ∃ l, execMoveCommitStart n failed s = _
  rw [execMoveCommitStart, hm]
  dsimp only
  rw [ha, hw]
  cases hpromo : m.promo with
  | true => exact ⟨s.slc.waits, rfl⟩
  | false =>
    obtain ⟨hpin, hbegin⟩ := hp.resolve_left (by simp [hpromo])
    rw [hpin, hbegin]
    exact ⟨_, rfl⟩

/-- A move whose invalidation has started. -/
def Move.invalidating (m : Move) : Move := { m with st := .commit, staged := [] }

/-- A move that is repeated from its source. -/
def Move.repeated (m : Move) (now : Nat) : Move := { m with st := .read, staged := [], flagged := false, retried := true, since := now }

/-- Where the CRC matches, invalidation starts. -/
theorem State.find?_moveCommitStart (hm : (s.slc.moves.find? fun y => y.seqNo == m.seqNo) = some m) :
    ((s.moveCommitStart m false).slc.moves.find? fun y => y.seqNo == m.seqNo) = some m.invalidating := by
  unfold State.moveCommitStart
  rw [if_neg Bool.false_ne_true]
  extract_lets t
  have hmoves : t.slc.moves = s.slc.moves := by
    unfold t
    split <;> rfl
  exact (State.find?_modMove (f := Move.invalidating) t m.seqNo fun _ => rfl).trans (by rw [hmoves, hm]; rfl)

/-- The bytes of a data frame stand at a destination in T0. -/
theorem State.memRead_moveCommitStart (h0 : m.dst.tier = 0) (hmeta : s.xlt.metas.has m.frame = false) :
    (s.moveCommitStart m false).memRead 0 (m.dst.addr * 512) (m.staged.take m.bytes).length = m.staged.take m.bytes := by
  have hput : s.moveCommitStart m false =
      (s.memWrite 0 (m.dst.addr * 512) (m.staged.take m.bytes)).modMove m.seqNo Move.invalidating := by
    unfold State.moveCommitStart
    rw [if_neg Bool.false_ne_true, if_neg (by simp [h0, hmeta]), State.putBytes, h0, Nat.add_zero]
    rfl
  have hmem : (s.moveCommitStart m false).mem = (s.memWrite 0 (m.dst.addr * 512) (m.staged.take m.bytes)).mem :=
    (congrArg State.mem hput :)
  rw [State.memRead_of_mem hmem, State.memRead_memWrite]

/-- A CRC mismatch repeats the move once. -/
theorem State.find?_moveCommitStart_repeats (hm : (s.slc.moves.find? fun y => y.seqNo == m.seqNo) = some m) (hr : m.retried = false) :
    ((s.moveCommitStart m true).slc.moves.find? fun y => y.seqNo == m.seqNo) = some (m.repeated s.now) := by
  have hfind := State.find?_modMove (f := fun y => y.repeated s.now) s m.seqNo fun _ => rfl
  rw [hm] at hfind
  unfold State.moveCommitStart
  rw [if_pos rfl, if_neg (by simp [hr])]
  dsimp only
  split <;> exact hfind

theorem State.reads_moveCommitStart_repeats (hr : m.retried = false) (h3 : m.src.tier = 3) :
    ((s.moveCommitStart m true).pea.reads.getLast?).map PRead.move = some m.seqNo := by
  unfold State.moveCommitStart
  rw [if_pos rfl, if_neg (by simp [hr])]
  dsimp only
  rw [if_pos h3, State.issueRead]
  simp

/-- A second CRC mismatch aborts the move. -/
theorem State.moveCommitStart_aborts (hr : m.retried = true) (hn : s.noPlacements) :
    s.moveCommitStart m true = s.abortMove m .internal 0 := by
  unfold State.moveCommitStart
  rw [if_pos rfl, if_pos hr, State.sluice_idle _ ((s.aborts_abortMove m .internal 0).noPlacements hn)]

theorem exec_moveCommitStart_invalidates (hm : s.moveIn n .write = some m) (ha : s.moveAcked m = true)
    (hw : s.movesWait m.domain = false) (hp : m.promo = true ∨ s.pinned m.frame = false ∧ s.mayBegin (.commit n) = true) :
    ∃ t, exec (.moveCommitStart n false) s = .next t ∧
      ((t.slc.moves.find? fun y => y.seqNo == n).map fun y => (y.st, y.staged)) = some (.commit, []) ∧
      (m.dst.tier = 0 → s.xlt.metas.has m.frame = false →
        t.memRead 0 (m.dst.addr * 512) (m.staged.take m.bytes).length = m.staged.take m.bytes) := by
  obtain ⟨l, hrun⟩ := exec_moveCommitStart_runs (failed := false) hm ha hw hp
  obtain ⟨hfind, rfl, -⟩ := State.moveIn_eq_some hm
  refine ⟨_, hrun, ?_, fun h0 hmeta => ?_⟩
  · rw [State.slc_afterMemIn rfl, State.find?_moveCommitStart (s := s.withWaits l) hfind]
    rfl
  · rw [State.memRead_afterMemIn, State.memRead_moveCommitStart (s := s.withWaits l) h0 hmeta]

theorem exec_moveCommitStart_repeats (hm : s.moveIn n .write = some m) (ha : s.moveAcked m = true)
    (hw : s.movesWait m.domain = false) (hp : m.promo = true ∨ s.pinned m.frame = false ∧ s.mayBegin (.commit n) = true) :
    ∃ t, exec (.moveCommitStart n true) s = .next t ∧
      (m.retried = false →
        ((t.slc.moves.find? fun y => y.seqNo == n).map fun y => (y.st, y.staged, y.retried)) = some (.read, [], true) ∧
        (m.src.tier = 3 → (t.pea.reads.getLast?).map PRead.move = some n)) ∧
      (m.retried = true → s.noPlacements → (t.slc.moves.any fun y => y.seqNo == n) = false ∧
        (m.freed = false → t.frame? m.frame = (s.frame? m.frame).map fun v => { v with moving := false })) := by
  obtain ⟨l, hrun⟩ := exec_moveCommitStart_runs (failed := true) hm ha hw hp
  obtain ⟨hfind, rfl, -⟩ := State.moveIn_eq_some hm
  refine ⟨_, hrun, fun hr => ⟨?_, fun h3 => ?_⟩, fun hr hn => ?_⟩
  · rw [State.slc_afterMemIn rfl, State.find?_moveCommitStart_repeats (s := s.withWaits l) hfind hr]
    rfl
  · rw [State.pea_afterMemIn rfl, State.reads_moveCommitStart_repeats hr h3]
  · have hidle : (s.withWaits l).noPlacements := hn
    have hab := (s.withWaits l).aborts_abortMove m .internal 0
    rw [State.moveCommitStart_aborts hr hidle, State.slc_afterMemIn rfl]
    refine ⟨hab.gone, fun hf => ?_⟩
    rw [State.frame?_of_xlt (State.xlt_afterMemIn rfl), hab.frame hf]
    rfl

end

end Sys2Proof.Machine
end

section
/-! `MOVE_COMMIT` and `TIER_TIMEOUT` (Table 8.2, R67, R175, R339). -/

namespace Sys2Proof.Machine

section
variable {s : State} {n : Nat} {m : Move} {v : FrameInfo}

/-! ### `MOVE_COMMIT` -/

theorem State.nextGen_eq (s : State) (g : Nat) : (s.nextGen g).1 = (if g + 1 = 2 ^ 24 then 0 else g + 1) ∧
    ∃ a b, (s.nextGen g).2 = { s with regs := a, ctrs := b } := by
  unfold State.nextGen
  split
  · exact ⟨rfl, _, _, rfl⟩
  · exact ⟨rfl, _, _, rfl⟩

/-- The counters of a move that commits. -/
def State.countMove (s : State) (m : Move) : State :=
  let s := s.bumpD m.domain Reg.slcMoveLo
  if m.evict && !m.promo then s.bumpD m.domain Reg.slcEvictLo else s

theorem State.countMove_eq (s : State) (m : Move) : ∃ a b, s.countMove m = { s with ctrs := a, lve := { s.lve with counters := b } } := by
  obtain ⟨a, b, he⟩ := s.bumpD_eq m.domain Reg.slcMoveLo 1
  obtain ⟨a', b', he'⟩ := (s.bumpD m.domain Reg.slcMoveLo).bumpD_eq m.domain Reg.slcEvictLo 1
  unfold State.countMove
  dsimp only
  split
  · rw [he', he]
    exact ⟨_, _, rfl⟩
  · exact ⟨_, _, he⟩

/-- The state once a move that commits has left the list and been counted. -/
def State.moveDone (s : State) (m : Move) : State := (s.dropMove m).countMove m

theorem State.moveDone_eq (s : State) (m : Move) : ∃ a b q i p l, s.moveDone m = { s with
    ctrs := a, slc := { s.slc with lines := b, moves := s.slc.moves.filter fun x => x.seqNo != m.seqNo }
    sdg := q, pwr := i, pea := p, lve := l } := by
  obtain ⟨_, _, _, _, _, he⟩ := s.dropMove_eq m
  obtain ⟨_, _, he'⟩ := (s.dropMove m).countMove_eq m
  rw [State.moveDone, he', he]
  exact ⟨_, _, _, _, _, _, rfl⟩

/-- A frame has a new home, under the next generation. -/
def State.rehome (s : State) (m : Move) (v : FrameInfo) : State :=
  (s.nextGen v.gen).2.setFrame m.frame fun i => { i with gen := (s.nextGen v.gen).1, home := m.dst, moving := false }

theorem State.rehome_eq (s : State) (m : Move) (v : FrameInfo) : ∃ a b x, s.rehome m v = { s with regs := a, ctrs := b, xlt := x } := by
  obtain ⟨-, a, b, hg⟩ := s.nextGen_eq v.gen
  obtain ⟨x, hx⟩ := (s.nextGen v.gen).2.setFrame_eq m.frame fun i =>
    { i with gen := (s.nextGen v.gen).1, home := m.dst, moving := false }
  exact ⟨a, b, x, hx.trans (by rw [hg])⟩

theorem State.frame?_rehome (hv : s.frame? m.frame = some v) : (s.rehome m v).frame? m.frame =
    some { v with gen := if v.gen + 1 = 2 ^ 24 then 0 else v.gen + 1, home := m.dst, moving := false } := by
  obtain ⟨hgen, _, _, hg⟩ := s.nextGen_eq v.gen
  rw [State.rehome, State.frame?_setFrame, State.frame?_of_xlt (t := (s.nextGen v.gen).2) (s := s) (by rw [hg]), hv, hgen]
  rfl

/-- The state once the frame of a move has its new home and the old one is released. -/
def State.moveLands (s : State) (m : Move) (v : FrameInfo) : State := ((s.moveDone m).rehome m v).freeExt m.src

theorem State.commitMove_lands (hv : s.frame? m.frame = some v) (hf : m.freed = false) (hc : m.chain = none) :
    s.commitMove m = ((s.moveLands m v).endReqs m.reqs .satisfied).endWaiters m.domain m.ticket .ok 0 := by
  obtain ⟨_, _, _, _, _, _, he⟩ := s.moveDone_eq m
  have hframe : (s.moveDone m).frame? m.frame = some v := by
    rw [State.frame?_of_xlt (t := s.moveDone m) (s := s) (by rw [he]), hv]
  unfold State.commitMove
  rw [hc]
  change ((match (s.moveDone m).frame? m.frame with
    | some i => _
    | none => _ : State).endReqs m.reqs .satisfied).endWaiters m.domain m.ticket .ok 0 = _
  rw [hframe, hf]
  rfl

/-- What the new home of a frame changes of Sluice. -/
theorem State.slc_moveLands (s : State) (m : Move) (v : FrameInfo) : ∃ e b, (s.moveLands m v).slc =
    { s.slc with extents := e, lines := b, moves := s.slc.moves.filter fun x => x.seqNo != m.seqNo } ∧
      (m.src ∉ s.flt.strandedHomes → (e.any fun x => x.1 == m.src) = false) := by
  obtain ⟨_, b, _, _, _, _, he⟩ := s.moveDone_eq m
  obtain ⟨_, _, _, he'⟩ := (s.moveDone m).rehome_eq m v
  obtain ⟨e, _, _, hfree, hgone⟩ := ((s.moveDone m).rehome m v).freeExt_eq m.src
  have hflt : ((s.moveDone m).rehome m v).flt = s.flt := by rw [he', he]
  refine ⟨e, b, ?_, fun hs => hgone (hflt ▸ hs)⟩
  rw [State.moveLands, hfree, he', he]

theorem State.frame?_moveLands (hv : s.frame? m.frame = some v) : (s.moveLands m v).frame? m.frame =
    some { v with gen := if v.gen + 1 = 2 ^ 24 then 0 else v.gen + 1, home := m.dst, moving := false } := by
  obtain ⟨_, _, _, _, _, _, he⟩ := s.moveDone_eq m
  obtain ⟨_, _, _, hfree, -⟩ := ((s.moveDone m).rehome m v).freeExt_eq m.src
  rw [State.frame?_of_xlt (t := s.moveLands m v) (s := (s.moveDone m).rehome m v) (by rw [State.moveLands, hfree]),
    State.frame?_rehome]
  rw [State.frame?_of_xlt (t := s.moveDone m) (s := s) (by rw [he]), hv]

theorem exec_moveCommit_lands (hm : s.moveIn n .commit = some m) (hserves : s.serves .xlt = true) (hv : s.frame? m.frame = some v)
    (hf : m.freed = false) (hc : m.chain = none) (hn : s.noPlacements) (hs : s.slc.spaceCmds = []) :
    ∃ t, exec (.moveCommit n) s = .next t ∧
      t.frame? m.frame = some { v with gen := if v.gen + 1 = 2 ^ 24 then 0 else v.gen + 1, home := m.dst, moving := false } ∧
      (t.slc.moves.any fun y => y.seqNo == n) = false ∧
      (m.src ∉ s.flt.strandedHomes → (t.slc.extents.any fun e => e.1 == m.src) = false) := by
  obtain ⟨-, rfl, -⟩ := State.moveIn_eq_some hm
  obtain ⟨e, b, hslc, hgone⟩ := s.slc_moveLands m v
  have hans : (s.moveLands m v).Replies (s.commitMove m) := by
    rw [State.commitMove_lands hv hf hc]
    exact ((State.Replies.refl _).endReqs _ _).endWaiters _ _ _ _
  have hidle : (s.commitMove m).noPlacements := hans.noPlacements (by rw [State.noPlacements, hslc]; exact hn)
  have hcmds : (s.commitMove m).slc.spaceCmds = [] := by rw [hans.spaceCmds, hslc]; exact hs
  have hrun : exec (.moveCommit m.seqNo) s = .next (s.afterMemIn .lookup (s.commitMove m)) := by
    change execMoveCommit m.seqNo s = _
    rw [execMoveCommit, hm]
    dsimp only
    rw [if_pos hserves, State.sluice_idle _ hidle, State.retryCmds_idle hcmds]
  refine ⟨_, hrun, ?_, ?_, fun hstranded => ?_⟩
  · rw [State.frame?_of_xlt (State.xlt_afterMemIn rfl), State.frame?_of_xlt hans.xlt, State.frame?_moveLands hv]
  · rw [State.slc_afterMemIn rfl, hans.moves, hslc]
    exact any_seqNo_filter _ _
  · rw [State.slc_afterMemIn rfl, hans.extents, hslc]
    exact hgone hstranded

/-! ### `TIER_TIMEOUT` -/

/-- The home that does not answer a move. -/
def Move.silentHome (m : Move) : Home := if m.st = .read then m.src else m.dst

/-- What the time-out of a move reports. -/
def State.timedOut (s : State) (m : Move) : State := (s.setErr Err.slcTierTimeout).notAnswered m.silentHome

theorem State.timedOut_eq (s : State) (m : Move) : ∃ a b, s.timedOut m = { s with regs := a, ctrs := b } := by
  unfold State.timedOut State.notAnswered
  split
  · exact ⟨_, _, rfl⟩
  · exact ⟨_, _, rfl⟩

theorem State.bit_timedOut (s : State) (m : Move) :
    bit ((s.timedOut m).reg (Err.slcTierTimeout.1 + 0x10)) Err.slcTierTimeout.2 = true := by
  have hbit : bit ((s.setErr Err.slcTierTimeout).reg (Err.slcTierTimeout.1 + 0x10)) Err.slcTierTimeout.2 = true :=
    s.bit_setReg_or _ (by decide)
  unfold State.timedOut State.notAnswered
  split
  · exact State.BitsStand.setErr _ _ _ _ _ (by decide) hbit
  · exact hbit

theorem exec_tierTimeout_aborts (hm : (s.slc.moves.find? fun y => y.seqNo == n) = some m)
    (hw : m.st = .read ∧ (m.src.tier = 1 ∨ m.src.tier = 2) ∨
      m.st = .write ∧ (m.dst.tier = 1 ∨ m.dst.tier = 2) ∧ (s.answers m.dst = false ∨ m.promo = true ∨ s.pinned m.frame = false))
    (ht : m.since + 1000000 ≤ s.now) (hn : s.noPlacements) (hs : s.slc.spaceCmds = []) :
    ∃ t, exec (.tierTimeout n) s = .next t ∧ (t.slc.moves.any fun y => y.seqNo == n) = false ∧
      bit (t.reg (Err.slcTierTimeout.1 + 0x10)) Err.slcTierTimeout.2 = true ∧
      (m.freed = false → t.frame? m.frame = (s.frame? m.frame).map fun v => { v with moving := false }) := by
  obtain rfl : m.seqNo = n := by simpa using List.find?_some hm
  obtain ⟨a, b, he⟩ := s.timedOut_eq m
  have hab := (s.timedOut m).aborts_abortMove m .timeout 0
  have hwaits : ((decide (m.st = .read) && decide (m.src.tier = 1 ∨ m.src.tier = 2)) || (decide (m.st = .write) &&
      decide (m.dst.tier = 1 ∨ m.dst.tier = 2) && (!s.answers m.dst || m.promo || !s.pinned m.frame))) = true := by
    rcases hw with ⟨hst, htier⟩ | ⟨hst, htier, ha | hp | hp⟩
    · simp [hst, htier]
    · simp [hst, htier, ha]
    · simp [hst, htier, hp]
    · simp [hst, htier, hp]
  have hrun : exec (.tierTimeout m.seqNo) s = .next (s.afterMemIn .lookup ((s.timedOut m).abortMove m .timeout 0)) := by
    change execTierTimeout m.seqNo s = _
    rw [execTierTimeout, hm]
    dsimp only
    rw [if_pos ⟨hwaits, ht⟩]
    change Host.Outcome.next (s.afterMemIn .lookup ((s.timedOut m).abortMove m .timeout 0).sluice.retryCmds) = _
    rw [State.sluice_idle _ (hab.noPlacements (by rw [State.noPlacements, he]; exact hn)),
      State.retryCmds_idle (hab.spaceCmds.trans (by rw [he]; exact hs))]
  refine ⟨_, hrun, ?_, ?_, fun hf => ?_⟩
  · rw [State.slc_afterMemIn rfl, hab.gone]
  · rw [State.reg_afterMemIn rfl (hab.glb.trans (by rw [he]))]
    exact hab.bits _ _ (by decide) (s.bit_timedOut m)
  · rw [State.frame?_of_xlt (State.xlt_afterMemIn rfl), hab.frame hf, State.frame?_of_xlt (t := s.timedOut m) (s := s) (by rw [he])]

end

end Sys2Proof.Machine
end

section
/-! `SEDGE_COMPRESS`: the block at the head of the queue crosses packed or raw (R217, R218, R226). -/

namespace Sys2Proof.Machine

section
variable (s : State) (b : SdgBlock) (ue : Bool)

/-! ### A block reaches its place -/

/-- The place of a block holds the form in which it landed. -/
theorem State.wireAt_landBlock (h : Home) (i : Nat) (form : List Byte) (packed : Bool) :
    (s.landBlock h i form packed).wireAt (placeAt h i) = if packed then some form.length else none := by
  have hmark (w : Option Nat) : (s.markPlace (placeAt h i) w).wireAt (placeAt h i) = w := by
    by_cases h3 : (placeAt h i).1 = 3
    · cases w <;> simp [State.markPlace, State.wireAt, h3, Assoc.get?_erase_same]
    · cases w <;> simp [State.markPlace, State.wireAt, h3, Assoc.get?_erase_same]
  rw [← hmark (if packed then some form.length else none)]
  unfold State.landBlock
  dsimp only
  split <;> rfl

/-- Below T3 the bytes of a block stand at its place once it has landed. -/
theorem State.memRead_landBlock {h : Home} (h3 : h.tier ≠ 3) (i : Nat) (form : List Byte) (packed : Bool) :
    (s.landBlock h i form packed).memRead h.tier (placeAt h i).2 form.length = form := by
  unfold State.landBlock
  dsimp only
  rw [if_neg h3]
  exact State.memRead_memWrite _ _ _ _

/-- The form in which a block crosses: packed, or raw, which T3 completes with zeros. -/
def SdgBlock.form (b : SdgBlock) (packs : Bool) : List Byte :=
  if packs then packBlock b.data else if b.dst.tier = 3 then (b.data ++ List.replicate 4096 0#8).take 4096 else b.data

/-- The state once a block has crossed and been counted. -/
def State.crossBlock (packs : Bool) : State :=
  if packs then s.crossPacked b.domain b.dst b.index b.data
  else (s.crossRaw b.domain b.dst b.index b.data).bumpD b.domain Reg.sdgBlkRawLo

/-- A block that has crossed has landed, and been counted. -/
theorem State.crossBlock_eq (packs : Bool) : ∃ a c, s.crossBlock b packs =
    { s.landBlock b.dst b.index (b.form packs) packs with ctrs := a, lve := { s.lve with counters := c } } := by
  obtain ⟨_, _, _, _, hland⟩ := s.landBlock_eq b.dst b.index (b.form packs) packs
  have hlve : (s.landBlock b.dst b.index (b.form packs) packs).lve = s.lve := by rw [hland]
  rw [← hlve]
  generalize hu : s.landBlock b.dst b.index (b.form packs) packs = u
  cases packs with
  | true =>
    obtain ⟨_, _, h₁⟩ := u.countLink_eq b.domain b.dst true 4096 (packBlock b.data).length
    obtain ⟨_, _, h₂⟩ := (u.countLink b.domain b.dst true 4096 (packBlock b.data).length).bumpD_eq b.domain Reg.sdgBlkPackedLo 1
    obtain ⟨_, _, h₃⟩ := ((u.countLink b.domain b.dst true 4096 (packBlock b.data).length).bumpD b.domain Reg.sdgBlkPackedLo).bumpD_eq
      b.domain Reg.sdgBytesOutLo (packBlock b.data).length
    have hcross : s.crossBlock b true = ((u.countLink b.domain b.dst true 4096 (packBlock b.data).length).bumpD
        b.domain Reg.sdgBlkPackedLo).bumpD b.domain Reg.sdgBytesOutLo (packBlock b.data).length := by
      rw [← hu]
      rfl
    rw [hcross, h₃, h₂, h₁]
    exact ⟨_, _, rfl⟩
  | false =>
    obtain ⟨_, _, h₁⟩ := u.countLink_eq b.domain b.dst true (b.form false).length (b.form false).length
    obtain ⟨_, _, h₂⟩ := (u.countLink b.domain b.dst true (b.form false).length (b.form false).length).bumpD_eq
      b.domain Reg.sdgBlkRawLo 1
    have hcross : s.crossBlock b false =
        (u.countLink b.domain b.dst true (b.form false).length (b.form false).length).bumpD b.domain Reg.sdgBlkRawLo := by
      rw [← hu]
      rfl
    rw [hcross, h₂, h₁]
    exact ⟨_, _, rfl⟩

/-! ### The compressor -/

/-- The time that the compressor spends on a block is counted. -/
def State.countBlock : State :=
  let ps := s.sdg.busyPs + 20480 + 85 * nonzeroWords b.data
  let s : State := { s with sdg := { s.sdg with busyPs := ps % 1000 } }
  (s.bumpD b.domain Reg.sdgBlkInLo).bumpD b.domain Reg.sdgBusyNsLo (ps / 1000)

theorem State.countBlock_eq : ∃ a c p, s.countBlock b =
    { s with ctrs := a, lve := { s.lve with counters := c }, sdg := { s.sdg with busyPs := p } } := by
  unfold State.countBlock
  extract_lets ps src u
  obtain ⟨_, _, h₁⟩ := u.bumpD_eq b.domain Reg.sdgBlkInLo 1
  obtain ⟨_, _, h₂⟩ := (u.bumpD b.domain Reg.sdgBlkInLo).bumpD_eq b.domain Reg.sdgBusyNsLo (ps / 1000)
  rw [h₂, h₁]
  exact ⟨_, _, _, rfl⟩

/-- The state once the compressor has taken a block from its line. -/
def State.takeBlock : State := (s.dropBlocks fun x => x.line == b.line).countBlock b

theorem State.takeBlock_eq : ∃ a c l p, s.takeBlock b = { s with
    ctrs := a, lve := { s.lve with counters := c }, slc := { s.slc with lines := l }
    sdg := { s.sdg with queue := s.sdg.queue.filter fun y => !(y.line == b.line), busyPs := p } } := by
  obtain ⟨_, _, he⟩ := s.dropBlocks_eq fun x => x.line == b.line
  obtain ⟨_, _, _, hc⟩ := (s.dropBlocks fun x => x.line == b.line).countBlock_eq b
  rw [State.takeBlock, hc, he]
  exact ⟨_, _, _, _, rfl⟩

/-- Whether a block is packed (R218). -/
def SdgBlock.packs (b : SdgBlock) (ue : Bool) : Bool := decide (80 + 8 * nonzeroWords b.data ≤ 3840) && !ue

theorem State.compress_eq : s.compress b ue = ((s.takeBlock b).crossBlock b (b.packs ue)).sdgLevel := rfl

theorem State.bitsStand_sdgLevel : s.BitsStand s.sdgLevel := by
  unfold State.sdgLevel
  extract_lets high src t
  split
  · exact State.BitsStand.setEvt t _ _
  · exact State.BitsStand.refl s

/-- What a block that was compressed leaves: its line is free and its place holds its form; what is written, and every bit that was
set, stand. -/
structure State.Compresses (s : State) (b : SdgBlock) (packs : Bool) (t : State) : Prop where
  queue : t.sdg.queue = s.sdg.queue.filter fun y => !(y.line == b.line)
  wire : t.wireAt (placeAt b.dst b.index) = if packs then some (b.form packs).length else none
  bytes : b.dst.tier ≠ 3 → t.memRead b.dst.tier (placeAt b.dst b.index).2 (b.form packs).length = b.form packs
  objWrites : t.slc.objWrites = s.slc.objWrites
  glb : t.glb = s.glb
  bits : s.BitsStand t

theorem State.compresses_compress : s.Compresses b (b.packs ue) (s.compress b ue) := by
  obtain ⟨_, _, _, _, htake⟩ := s.takeBlock_eq b
  obtain ⟨_, _, hcross⟩ := (s.takeBlock b).crossBlock_eq b (b.packs ue)
  obtain ⟨_, _, _, _, hland⟩ := (s.takeBlock b).landBlock_eq b.dst b.index (b.form (b.packs ue)) (b.packs ue)
  have hwire := (s.takeBlock b).wireAt_landBlock b.dst b.index (b.form (b.packs ue)) (b.packs ue)
  have hread := fun h3 => (s.takeBlock b).memRead_landBlock (h := b.dst) h3 b.index (b.form (b.packs ue)) (b.packs ue)
  obtain ⟨_, _, hlevel⟩ := ((s.takeBlock b).crossBlock b (b.packs ue)).sdgLevel_eq
  have hbits := ((s.takeBlock b).crossBlock b (b.packs ue)).bitsStand_sdgLevel
  rw [← s.compress_eq b ue] at hlevel hbits
  exact {
    queue := by rw [hlevel, hcross, hland, htake]
    wire := by
      rw [hlevel, hcross]
      exact hwire
    bytes := fun h3 => by
      rw [hlevel, hcross]
      exact hread h3
    objWrites := by rw [hlevel, hcross, hland, htake]
    glb := by rw [hlevel, hcross, hland, htake]
    bits := .trans (.of_regs (by rw [hcross, hland, htake]) (by rw [hcross, hland, htake])) hbits }

end

/-! ### `SEDGE_COMPRESS` -/

section
variable {s : State} {b : SdgBlock} {rest : List SdgBlock}

theorem State.endObjWrites_of_empty (h : s.slc.objWrites = []) : s.endObjWrites = s := by
  unfold State.endObjWrites
  rw [h]
  simp only [List.filter_nil, State.forEach_nil]
  rw [← h]

/-- What an uncorrectable error in the line of a block does (R226). -/
def State.blockBad (s : State) (b : SdgBlock) : State :=
  let s := (s.setErr Err.sdgUe).fault (unitWord 0x09 0) 0x02 2
  match s.frameOfBlock b with
  | some f => s.raisePoison f
  | none => s

theorem State.disturbs_blockBad (s : State) (b : SdgBlock) : (s.setErr Err.sdgUe).Disturbs (s.blockBad b) := by
  have hfault : (s.setErr Err.sdgUe).Disturbs ((s.setErr Err.sdgUe).fault (unitWord 0x09 0) 0x02 2) := (State.Disturbs.refl _).fault _ _ _ _ _ _
  unfold State.blockBad
  dsimp only
  split
  · exact hfault.raisePoison _
  · exact hfault

/-- The state in which the compressor takes a block. -/
def State.blockRead (s : State) (b : SdgBlock) (ue : Bool) : State := if ue then s.blockBad b else s

theorem State.blockRead_keeps (s : State) (b : SdgBlock) (ue : Bool) :
    (s.blockRead b ue).slc.objWrites = s.slc.objWrites ∧ (s.blockRead b ue).sdg = s.sdg ∧ (s.blockRead b ue).glb = s.glb := by
  cases ue with
  | false => exact ⟨rfl, rfl, rfl⟩
  | true =>
    have h := s.disturbs_blockBad b
    exact ⟨h.objWrites, h.sdg, h.glb⟩

theorem exec_sedgeCompress_compresses (ue : Bool) (hq : s.sdg.queue = b :: rest)
    (hi : s.islandOn sedgeIsland = true ∨ s.island sedgeIsland = .draining) (ho : s.slc.objWrites = []) :
    exec (.sedgeCompress ue) s = .next (s.afterMemIn .search ((s.blockRead b ue).compress b ue)) ∧
      (s.blockRead b ue).Compresses b (b.packs ue) ((s.blockRead b ue).compress b ue) := by
  have hc := (s.blockRead b ue).compresses_compress b ue
  obtain ⟨hwrites, -, -⟩ := s.blockRead_keeps b ue
  have hnone : ((s.blockRead b ue).compress b ue).slc.objWrites = [] := hc.objWrites.trans (hwrites.trans ho)
  refine ⟨?_, hc⟩
  change execSedgeCompress ue s = _
  unfold execSedgeCompress
  rw [State.fillQueue_of_empty (s := s) (by simp [ho])]
  dsimp only
  rw [hq]
  dsimp only
  rw [if_pos hi]
  change Host.Outcome.next (s.afterMemIn .search (((s.blockRead b ue).compress b ue).fillQueue 65536).endObjWrites) = _
  rw [State.fillQueue_of_empty (by simp [hnone]), State.endObjWrites_of_empty hnone]

theorem SdgBlock.form_raw (h3 : b.dst.tier ≠ 3) : b.form false = b.data := by
  rw [SdgBlock.form, if_neg Bool.false_ne_true, if_neg h3]

theorem SdgBlock.packs_of_not_ue (b : SdgBlock) : b.packs false = decide (80 + 8 * nonzeroWords b.data ≤ 3840) := Bool.and_true _

theorem SdgBlock.packs_of_ue (b : SdgBlock) : b.packs true = false := Bool.and_false _

theorem State.sdg_afterMemIn {u : State} {c : Scope} (h : c.sdg = true) : (s.afterMemIn c u).sdg = u.sdg := by
  simp only [State.afterMemIn, State.afterMem_sdg, State.only, h, cond_true]

theorem State.wireAt_afterMemIn {u : State} {c : Scope} (hs : c.sdg = true) (hp : c.pea = true) (p : Nat × Nat) :
    (s.afterMemIn c u).wireAt p = u.wireAt p := by
  rw [State.wireAt, State.sdg_afterMemIn hs, State.pea_afterMemIn hp, State.wireAt]

/-- The queue without the block at its head, as without every other block of its line. -/
theorem State.queue_compresses {packs : Bool} {t u : State} (h : u.Compresses b packs t) (hu : u.sdg = s.sdg) (hq : s.sdg.queue = b :: rest) :
    t.sdg.queue = rest.filter fun y => !(y.line == b.line) := by
  rw [h.queue, hu, hq, List.filter_cons, beq_self_eq_true, Bool.not_true, if_neg Bool.false_ne_true]

theorem exec_sedgeCompress_packs (hq : s.sdg.queue = b :: rest)
    (hi : s.islandOn sedgeIsland = true ∨ s.island sedgeIsland = .draining) (ho : s.slc.objWrites = []) :
    ∃ t, exec (.sedgeCompress false) s = .next t ∧ t.sdg.queue = rest.filter (fun y => !(y.line == b.line)) ∧
      t.wireAt (placeAt b.dst b.index) = (if 80 + 8 * nonzeroWords b.data ≤ 3840 then some (packBlock b.data).length else none) ∧
      (b.dst.tier ≠ 3 →
        (80 + 8 * nonzeroWords b.data ≤ 3840 →
          t.memRead b.dst.tier (placeAt b.dst b.index).2 (packBlock b.data).length = packBlock b.data) ∧
        (3840 < 80 + 8 * nonzeroWords b.data → t.memRead b.dst.tier (placeAt b.dst b.index).2 b.data.length = b.data)) := by
  obtain ⟨hrun, hc⟩ := exec_sedgeCompress_compresses false hq hi ho
  have hqueue := State.queue_compresses hc rfl hq
  have hwire := hc.wire
  have hbytes := hc.bytes
  rw [b.packs_of_not_ue] at hwire hbytes
  refine ⟨_, hrun, ?_, ?_, fun h3 => ⟨fun hsmall => ?_, fun hbig => ?_⟩⟩
  · rw [State.sdg_afterMemIn rfl, hqueue]
  · rw [State.wireAt_afterMemIn rfl rfl, hwire]
    by_cases hsmall : 80 + 8 * nonzeroWords b.data ≤ 3840
    · rw [if_pos hsmall, decide_eq_true hsmall]
      rfl
    · rw [if_neg hsmall, decide_eq_false hsmall]
      rfl
  · rw [decide_eq_true hsmall] at hbytes
    rw [State.memRead_afterMemIn]
    exact hbytes h3
  · rw [decide_eq_false (Nat.not_le.mpr hbig), SdgBlock.form_raw h3] at hbytes
    rw [State.memRead_afterMemIn]
    exact hbytes h3

theorem exec_sedgeCompress_poisons (hq : s.sdg.queue = b :: rest)
    (hi : s.islandOn sedgeIsland = true ∨ s.island sedgeIsland = .draining) (ho : s.slc.objWrites = []) :
    ∃ t, exec (.sedgeCompress true) s = .next t ∧ t.sdg.queue = rest.filter (fun y => !(y.line == b.line)) ∧
      t.wireAt (placeAt b.dst b.index) = none ∧ bit (t.reg (Err.sdgUe.1 + 0x10)) Err.sdgUe.2 = true ∧
      (b.dst.tier ≠ 3 → t.memRead b.dst.tier (placeAt b.dst b.index).2 b.data.length = b.data) := by
  obtain ⟨hrun, hc⟩ := exec_sedgeCompress_compresses true hq hi ho
  obtain ⟨-, hsdg, hglb⟩ := s.blockRead_keeps b true
  have hqueue := State.queue_compresses hc hsdg hq
  have hset : bit ((s.setErr Err.sdgUe).reg (Err.sdgUe.1 + 0x10)) Err.sdgUe.2 = true := s.bit_setReg_or _ (by decide)
  have hbit := hc.bits _ _ (by decide) ((s.disturbs_blockBad b).bits _ _ (by decide) hset)
  have hwire := hc.wire
  have hbytes := hc.bytes
  rw [b.packs_of_ue] at hwire hbytes
  refine ⟨_, hrun, ?_, ?_, ?_, fun h3 => ?_⟩
  · rw [State.sdg_afterMemIn rfl, hqueue]
  · rw [State.wireAt_afterMemIn rfl rfl, hwire, if_neg Bool.false_ne_true]
  · rw [State.reg_afterMemIn rfl (hc.glb.trans hglb)]
    exact hbit
  · rw [SdgBlock.form_raw h3] at hbytes
    rw [State.memRead_afterMemIn]
    exact hbytes h3

end

end Sys2Proof.Machine
end

section
/-! `MOVE_READ`, `MOVE_WRITE`, `MOVE_COMMIT_START`, `MOVE_COMMIT`, `TIER_TIMEOUT` and `SEDGE_COMPRESS` (R173, R175, R217, R218,
R339). -/

namespace Sys2Proof.Machine

/-- Settles O24: one lemma for each phase of a move and each way in which the compressor takes a block. -/
theorem moveAndSedgeCommandsComplete : Obligations.MoveAndSedgeCommandsComplete := by
  unfold Obligations.MoveAndSedgeCommandsComplete
  refine ⟨fun _ _ _ => ?read, fun _ _ _ _ => ?write, fun _ _ _ => ?invalidate, fun _ _ _ => ?mismatch, fun _ _ _ _ => ?commit,
    fun _ _ _ => ?timeout, fun _ _ _ => ?compress, fun _ _ _ => ?poison⟩
  case read => exact exec_moveRead_reads
  case write => exact exec_moveWrite_sends
  case invalidate => exact exec_moveCommitStart_invalidates
  case mismatch => exact exec_moveCommitStart_repeats
  case commit => exact exec_moveCommit_lands
  case timeout => exact exec_tierTimeout_aborts
  case compress => exact exec_sedgeCompress_packs
  case poison => exact exec_sedgeCompress_poisons

end Sys2Proof.Machine
end
